-- ==== Sys2Proof/Word.lean ====
section
/-! DEFINITION. The word and byte types of the HX-8260 model. Registers are 32 bits wide (R5). -/

namespace Sys2Proof

/-- A 32-bit register, program word or data word (R5). -/
abbrev Word := BitVec 32

/-- A byte of a memory or of a payload. -/
abbrev Byte := BitVec 8

end Sys2Proof
end

