-- ==== Sys2Proof/Data.lean ====
section
/-! DEFINITION. Types that operands of commands and the state share. -/

namespace Sys2Proof

/-- What the decoder of a codeword finds at a read (R72–R74): good data, an error that it corrects, an error in data or
check bits that it cannot correct, or an error of the folded address. -/
inductive Codeword where
  | good
  | correctable
  | badData
  | badAddress
deriving DecidableEq, Repr

/-- A staged force change (R216): set entry, clear entry, or clear all with the event's cause. -/
inductive ForceChg where
  | set (i : Nat) (w0 w1 : Word)
  | clear (i : Nat)
  | clearAll (cause : Nat)
deriving DecidableEq, Repr

/-- Identity that an IDENT parcel carries (R235, R246): DEV_ID, STRAP_ROLE, port, TRI_JOIN_CRC, bundle ID, restart
type, retained commit sequence, CRC of the retained area, FO_CFG.EN and UNIT. -/
structure Ident where
  devId : Word
  role : Nat
  port : Nat
  join : Word
  bundle : Word
  rtype : Nat
  seq : Nat
  retCrc : Word
  foEn : Bool
  foUnit : Nat
deriving DecidableEq, Repr

/-- A lane's part of a vote exchange (R254): element CRCs by element number, readiness, state, staged force changes that
it sends, whether it confirms those staged, lanes that it asks to exclude, readmission request, the armed bundle ID and
activation time (R267), its bundle ID, its online change values (R225), a key that it sends (R361) and whether it
confirms the one staged, its seal permissions, and TICK_COUNT of the exchange. -/
structure VoteMsg where
  crcs : List (Nat × Word)
  ready : Bool
  state : Nat
  forces : List ForceChg
  confirmed : Bool
  exclude : List Nat
  readmit : Bool
  armed : Option (Word × Nat)
  bundle : Word
  olc : Option (Word × Nat × Word × Nat)
  key : Option (Nat × List Byte)
  keyOk : Bool
  perm : Nat
  tick : Nat
deriving DecidableEq, Repr

/-- A heartbeat of the other unit (R276): claim, unit state, YIELD, committed, UNIT, abnormal counter, its CRC word, and
TICK_COUNT. -/
structure Heartbeat where
  claim : Word
  state : Nat
  yield : Bool
  committed : Bool
  unit : Nat
  abn : Nat
  high : Word
  tick : Nat
deriving DecidableEq, Repr

/-- The content of a received reference frame (R296, R299). -/
structure SbRef where
  master : Nat
  active : Nat
  locked : Bool
  delay : Nat
  mtx : Nat
  ts : Nat
  valid : Bool
  abandon : Bool
  announce : Nat
  next : Nat
  ack : Nat
  cycle : Nat
deriving DecidableEq, Repr

/-- What a PTP message says beside its kind (R343): domain, majorVersionPTP, source clockIdentity and portNumber,
sequenceId, correctionField in 2⁻¹⁶ ns, the time that it carries in ns, and the time of its receipt as TS64. -/
structure PtpMsg where
  domain : Nat
  version : Nat
  clock : Nat
  portNo : Nat
  seq : Nat
  corr : Int
  time : Nat
  rx : Nat
deriving DecidableEq, Repr

/-- The data set of an Announce (R343): grandmaster qualities and identity, and stepsRemoved. -/
structure AnnounceSet where
  prio1 : Nat
  cls : Nat
  acc : Nat
  variance : Nat
  prio2 : Nat
  gm : Nat
  steps : Nat
deriving DecidableEq, Repr

/-- What the field die measures at a boundary (R424): DO outputs at or above 10 V, DL pins below 2 V, the current of each
channel in mA, the VF voltages in 10 mV, VFD in mV, the temperature in 0.1 °C. -/
structure FieldMeas where
  doHigh : Nat
  dlLow : Nat
  current : List Nat
  vf : List Nat
  vfd : Nat
  temp : Int
deriving DecidableEq, Repr

/-- A store device (R452, R453): SPI NOR or NAND; data bytes of a page, pages of a block, blocks of a target, targets, spare
bytes of a page, the fastest timing mode that it declares, NV-DDR2, ERASE SUSPEND. Its programmed pages (key 256 × block +
page), bit errors of codewords (key 8 × page key + codeword), blocks whose spare byte 0 of the first or last page is not
0xFF, and erase counts of blocks. -/
structure Store where
  nor : Bool
  page : Nat
  ppb : Nat
  bpt : Nat
  targets : Nat
  spare : Nat
  mode : Nat
  ddr2 : Bool
  suspend : Bool
  pages : List (Nat × List Byte)
  errs : List (Nat × Nat)
  marks : List Nat
  erases : List (Nat × Nat)
deriving DecidableEq, Repr

/-- What stands at the balls and on the die at the release of a stage: three samples of BOOT, CLKMODE and ROLE (R552), the
SEAL pins and SEAL_LOOP (R391), the store devices if they are exchanged (NAND, SPI NOR), the clocks that run, by the bits of
SYS_CLK_STAT (bit 0: the source that the straps select shows a reference, R553), engines that fail the comparator test with the bits of CE_TEST that say why (R83), and the first failing check of the
Sluice test with the channels that failed (R390). -/
structure Board where
  boot : List Nat
  clkmode : List Nat
  roles : List Nat
  sealPins : Nat
  sealLoop : Bool
  media : Option (Option Store × Option Store)
  clocks : Nat
  testFail : List (Nat × Nat)
  sluiceFail : Option (Nat × Nat)
deriving DecidableEq, Repr

/-- A configuration access of the host (R497, R505): a read, Bus Master Enable, MSI-X enable and Function Mask, the
D-state, Max_Payload_Size and Max_Read_Request_Size, or another write. -/
inductive CfgAccess where
  | read
  | busMaster (on : Bool)
  | msix (on mask : Bool)
  | dstate (d3 : Bool)
  | sizes (mps mrrs : Nat)
  | other
deriving DecidableEq, Repr

/-- How a DMA request is completed (R505): data, Unsupported Request, or Completer Abort. -/
inductive CplStatus where
  | success
  | unsupported
  | abort
deriving DecidableEq, Repr

/-- An AtomicOp of the host (R509). -/
inductive AtomicKind where
  | fetchAdd
  | swap
  | cas
deriving DecidableEq, Repr

end Sys2Proof
end

