-- ==== Sys2Proof/Syntax.lean ====
section
/-! DEFINITION. The commands that the device takes from outside: one constructor for each row of
spec/opcode_table.json, with the row's operands. What the surroundings supply (a measured time, a received frame,
an offset) is an operand of the command. -/

namespace Sys2Proof

/-- An engine, CE_00 to CE_23. -/
abbrev Eng := Fin 24

/-- A task context. -/
abbrev CtxNo := Fin 16

/-- The commands of the device: one constructor for each row of spec/opcode_table.json. -/
inductive Instr where
  /-- GENERIC_REGISTER_WRITE (R11): A write to a register that has no row of its own acts as its access code gives; for example an RWL write after sealing records event offset 0x01, and a W1C write clears bits. -/
  | genericRegisterWrite (addr : Nat) (val : Word) (byHost : Bool) (pins : BitVec 8) (loopHigh : Bool)
  /-- TICK_BOUNDARY (R50): The period timer places a tick boundary, at which the previous tick commits, the new raw inputs latch and the tick count advances. -/
  | tickBoundary (meas : FieldMeas) (startUs : Nat)
  /-- TIMER_CELL_EXPIRY (R158): A running timer cell's accumulator first reaches its preset and signals expiry to the event router. -/
  | timerCellExpiry (cell : Fin 4096)
  /-- SYNCIN_EDGE (R43): A SYNCIN edge is time-stamped, judged against its window and steers the next period, or is rejected. -/
  | syncinEdge (falling : Bool)
  /-- SOURCE_LOST (R46): LOSS_CNT periods pass without a valid source event, and the generator free-runs with LOCK = LOST. -/
  | sourceLost
  /-- FIRST_BOUNDARY_TIMEOUT (R45): No SYNCIN or SAHTU event arrives within LOSS_CNT periods after release, so the first boundary falls at that moment. -/
  | firstBoundaryTimeout
  /-- SET_SOURCE (R48): A TICK command that changes the tick source at the next boundary, or is refused in the lane roles. -/
  | setSource (arg : BitVec 24)
  /-- TICK_CLEAR_COUNTERS (R68): A TICK command that clears TICK_ERR_CNT. -/
  | tickClearCounters (arg : BitVec 24)
  /-- VOTE_FREEZE (R54): At t_VOTE the output images and outgoing safe containers are frozen, readiness is judged and the vote exchange starts. -/
  | voteFreeze
  /-- NOT_READY_3_CONSEC (R59): NR_CONSEC reaches 3, which records event 0x049 and, on a lane, excludes it. -/
  | notReady3Consec
  /-- VOTE_WINDOW_END (R56): At t_VEND the vote result stands, and early-committed images are committed. -/
  | voteWindowEnd
  /-- STATE_COPY_ABANDON (R62): A state copy whose marker is not written before the next boundary is abandoned, and ABN_CONSEC counts. -/
  | stateCopyAbandon
  /-- STANDBY_STALE (R62): The standby's ABN_CONSEC reaches 4, and it marks itself stale. -/
  | standbyStale
  /-- TICK_WATCHDOG_TRIP (R64): A boundary interval falls outside its limits, or a commit overruns, and the watchdog trips Sluice. -/
  | tickWatchdogTrip
  /-- ILLEGAL_INSTRUCTION (R112): The fetch of an unassigned or malformed instruction word traps with illegal opcode. -/
  | illegalInstruction (e : Eng) (w : Word)
  /-- AND (R123): A bit combine that ANDs the operand into LA. -/
  | azAnd (e : Eng) (mode : BitVec 2) (area : BitVec 4) (ba : BitVec 20)
  /-- ANDN (R123): A bit combine that ANDs the negated operand into LA. -/
  | azAndn (e : Eng) (mode : BitVec 2) (area : BitVec 4) (ba : BitVec 20)
  /-- OR (R123): A bit combine that ORs the operand into LA. -/
  | azOr (e : Eng) (mode : BitVec 2) (area : BitVec 4) (ba : BitVec 20)
  /-- ORN (R123): A bit combine that ORs the negated operand into LA. -/
  | azOrn (e : Eng) (mode : BitVec 2) (area : BitVec 4) (ba : BitVec 20)
  /-- XOR (R123): A bit combine that XORs the operand into LA. -/
  | azXor (e : Eng) (mode : BitVec 2) (area : BitVec 4) (ba : BitVec 20)
  /-- XORN (R123): A bit combine that XORs the negated operand into LA. -/
  | azXorn (e : Eng) (mode : BitVec 2) (area : BitVec 4) (ba : BitVec 20)
  /-- STO (R123): Stores LA to a bit and ends the chain. -/
  | azSto (e : Eng) (mode : BitVec 2) (area : BitVec 4) (ba : BitVec 20)
  /-- STON (R123): Stores the negated LA to a bit and ends the chain. -/
  | azSton (e : Eng) (mode : BitVec 2) (area : BitVec 4) (ba : BitVec 20)
  /-- SET (R124): Sets a bit if LA = 1 and ends the chain. -/
  | azSet (e : Eng) (mode : BitVec 2) (area : BitVec 4) (ba : BitVec 20)
  /-- RST (R124): Clears a bit if LA = 1 and ends the chain. -/
  | azRst (e : Eng) (mode : BitVec 2) (area : BitVec 4) (ba : BitVec 20)
  /-- EDGR (R125): Detects a rising edge of LA against an edge bit and writes the edge bit. -/
  | azEdgr (e : Eng) (mode : BitVec 2) (area : BitVec 4) (ba : BitVec 20)
  /-- EDGF (R125): Detects a falling edge of LA against an edge bit and writes the edge bit. -/
  | azEdgf (e : Eng) (mode : BitVec 2) (area : BitVec 4) (ba : BitVec 20)
  /-- BR (R126): Pushes LA and EMPTY onto LS and opens a fresh chain. -/
  | azBr (e : Eng) (imm : BitVec 22)
  /-- NOT (R126): Inverts LA. -/
  | azNot (e : Eng) (imm : BitVec 22)
  /-- SETLA (R126): Sets LA to 1 and opens a chain. -/
  | azSetla (e : Eng) (imm : BitVec 22)
  /-- JOIN (R126): Pops LS and folds the branch result into the saved chain by its kind. -/
  | azJoin (e : Eng) (k : Fin 6) (imm : BitVec 22)
  /-- CLRLA (R126): Sets LA to 0 and opens a chain. -/
  | azClrla (e : Eng) (imm : BitVec 22)
  /-- CHAIN (R126): Ends the chain and leaves LA unchanged. -/
  | azChain (e : Eng) (imm : BitVec 22)
  /-- JMP (R129): A conditional relative jump. -/
  | azJmp (e : Eng) (cond : BitVec 4) (target : BitVec 22)
  /-- CALL (R130): A conditional call that pushes the return position onto the call stack. -/
  | azCall (e : Eng) (cond : BitVec 4) (target : BitVec 22)
  /-- DECJ (R130): Decrements X or Y and jumps while the count exceeds 1. -/
  | azDecj (e : Eng) (r : BitVec 4) (target : BitVec 22)
  /-- RET (R131): Returns to the popped position. -/
  | azRet (e : Eng) (imm : BitVec 22)
  /-- RETLA (R131): Returns if LA = 1. -/
  | azRetla (e : Eng) (imm : BitVec 22)
  /-- END (R132): Ends the task instance and discards LS and the call stack. -/
  | azEnd (e : Eng) (imm : BitVec 22)
  /-- ENDLA (R131): Ends the task instance if LA = 1. -/
  | azEndla (e : Eng) (imm : BitVec 22)
  /-- NOP (R131): No operation. -/
  | azNop (e : Eng) (imm : BitVec 22)
  /-- SETX (R133): Loads X with a sign-extended immediate. -/
  | azSetx (e : Eng) (imm : BitVec 22)
  /-- SETY (R133): Loads Y with a sign-extended immediate. -/
  | azSety (e : Eng) (imm : BitVec 22)
  /-- ADDX (R133): Adds an immediate to X. -/
  | azAddx (e : Eng) (imm : BitVec 22)
  /-- ADDY (R133): Adds an immediate to Y. -/
  | azAddy (e : Eng) (imm : BitVec 22)
  /-- LD (R137): Pushes and loads A from memory. -/
  | azLd (e : Eng) (mode : BitVec 2) (area : BitVec 4) (width : BitVec 2) (off : BitVec 18)
  /-- ST (R137): Stores A to memory. -/
  | azSt (e : Eng) (mode : BitVec 2) (area : BitVec 4) (width : BitVec 2) (off : BitVec 18)
  /-- LDX (R137): Loads X from memory. -/
  | azLdx (e : Eng) (mode : BitVec 2) (area : BitVec 4) (width : BitVec 2) (off : BitVec 18)
  /-- LDY (R137): Loads Y from memory. -/
  | azLdy (e : Eng) (mode : BitVec 2) (area : BitVec 4) (width : BitVec 2) (off : BitVec 18)
  /-- LEA (R137): Pushes a pointer word built from the effective address. -/
  | azLea (e : Eng) (mode : BitVec 2) (area : BitVec 4) (width : BitVec 2) (off : BitVec 18)
  /-- ECC_WRITEBACK (R73): The memory writes a corrected codeword back to its location within 32 FAB cycles. -/
  | eccWriteback (key : Nat)
  /-- LIT (R138): Pushes a sign-extended 22-bit constant. -/
  | azLit (e : Eng) (imm : BitVec 22)
  /-- LITH (R138): Loads the upper half of A. -/
  | azLith (e : Eng) (imm : BitVec 22)
  /-- ADDK (R138): Adds an immediate to A and sets the flags. -/
  | azAddk (e : Eng) (imm : BitVec 22)
  /-- LITF (R138): Pushes the upper 22 bits of a float. -/
  | azLitf (e : Eng) (imm : BitVec 22)
  /-- SWAP (R139): Exchanges A and B. -/
  | azSwap (e : Eng) (imm : BitVec 22)
  /-- POP (R139): Sets A = B. -/
  | azPop (e : Eng) (imm : BitVec 22)
  /-- PUSH (R139): Sets B = A. -/
  | azPush (e : Eng) (imm : BitVec 22)
  /-- TAX (R139): Sets X = A. -/
  | azTax (e : Eng) (imm : BitVec 22)
  /-- TAY (R139): Sets Y = A. -/
  | azTay (e : Eng) (imm : BitVec 22)
  /-- TXA (R139): Pushes X into A. -/
  | azTxa (e : Eng) (imm : BitVec 22)
  /-- TYA (R139): Pushes Y into A. -/
  | azTya (e : Eng) (imm : BitVec 22)
  /-- LAA (R139): Pushes LA into A. -/
  | azLaa (e : Eng) (imm : BitVec 22)
  /-- ALA (R139): ANDs A != 0 into the chain. -/
  | azAla (e : Eng) (imm : BitVec 22)
  /-- BMOV (R140): Copies X elements from the pointer in A to the pointer in B, and may be preempted between elements. -/
  | azBmov (e : Eng) (sub : BitVec 4) (imm : BitVec 22) (elems : Nat)
  /-- ADD (R143): Integer A = B + A. -/
  | azAdd (e : Eng) (imm : BitVec 22)
  /-- SUB (R143): Integer A = B − A. -/
  | azSub (e : Eng) (imm : BitVec 22)
  /-- MUL (R143): Integer multiply, low 32 bits. -/
  | azMul (e : Eng) (imm : BitVec 22)
  /-- DIV (R144): Signed divide, which traps or saturates on divide by zero. -/
  | azDiv (e : Eng) (imm : BitVec 22)
  /-- MOD (R144): Signed remainder. -/
  | azMod (e : Eng) (imm : BitVec 22)
  /-- DIVU (R144): Unsigned divide. -/
  | azDivu (e : Eng) (imm : BitVec 22)
  /-- MODU (R144): Unsigned remainder. -/
  | azModu (e : Eng) (imm : BitVec 22)
  /-- INT_AND (R143): Word AND. -/
  | azIntAnd (e : Eng) (imm : BitVec 22)
  /-- INT_OR (R143): Word OR. -/
  | azIntOr (e : Eng) (imm : BitVec 22)
  /-- INT_XOR (R143): Word XOR. -/
  | azIntXor (e : Eng) (imm : BitVec 22)
  /-- NEG (R143): Integer negate. -/
  | azNeg (e : Eng) (imm : BitVec 22)
  /-- ABS (R143): Integer absolute value. -/
  | azAbs (e : Eng) (imm : BitVec 22)
  /-- INV (R143): Bitwise invert of A. -/
  | azInv (e : Eng) (imm : BitVec 22)
  /-- ADDF (R146): Float add. -/
  | azAddf (e : Eng) (imm : BitVec 22)
  /-- SUBF (R146): Float subtract. -/
  | azSubf (e : Eng) (imm : BitVec 22)
  /-- MULF (R146): Float multiply. -/
  | azMulf (e : Eng) (imm : BitVec 22)
  /-- DIVF (R147): Float divide. -/
  | azDivf (e : Eng) (imm : BitVec 22)
  /-- NEGF (R147): Inverts the sign bit of A. -/
  | azNegf (e : Eng) (imm : BitVec 22)
  /-- ABSF (R147): Clears the sign bit of A. -/
  | azAbsf (e : Eng) (imm : BitVec 22)
  /-- SQRTF (R147): Float square root. -/
  | azSqrtf (e : Eng) (imm : BitVec 22)
  /-- CMP (R148): Compares B with A and ANDs the result into the chain. -/
  | azCmp (e : Eng) (sub : BitVec 4) (imm : BitVec 22)
  /-- SHL (R149): Shifts A left. -/
  | azShl (e : Eng) (imm : BitVec 22)
  /-- SHR (R149): Shifts A right, logical. -/
  | azShr (e : Eng) (imm : BitVec 22)
  /-- SAR (R149): Shifts A right, arithmetic. -/
  | azSar (e : Eng) (imm : BitVec 22)
  /-- ROL (R149): Rotates A left. -/
  | azRol (e : Eng) (imm : BitVec 22)
  /-- ROR (R149): Rotates A right. -/
  | azRor (e : Eng) (imm : BitVec 22)
  /-- ITF (R150): Converts i32 to f32. -/
  | azItf (e : Eng) (imm : BitVec 22)
  /-- UTF (R150): Converts u32 to f32. -/
  | azUtf (e : Eng) (imm : BitVec 22)
  /-- FTI (R150): Converts f32 to i32 toward zero, with saturation. -/
  | azFti (e : Eng) (imm : BitVec 22)
  /-- FTIR (R150): Converts f32 to i32, rounded to nearest. -/
  | azFtir (e : Eng) (imm : BitVec 22)
  /-- SX8 (R150): Sign-extends A[7:0]. -/
  | azSx8 (e : Eng) (imm : BitVec 22)
  /-- SX16 (R150): Sign-extends A[15:0]. -/
  | azSx16 (e : Eng) (imm : BitVec 22)
  /-- ZX8 (R150): Zero-extends A[7:0]. -/
  | azZx8 (e : Eng) (imm : BitVec 22)
  /-- ZX16 (R150): Zero-extends A[15:0]. -/
  | azZx16 (e : Eng) (imm : BitVec 22)
  /-- BSWAP (R150): Reverses the bytes of A. -/
  | azBswap (e : Eng) (imm : BitVec 22)
  /-- LIM (R151): Clamps A to a lo/hi parameter block. -/
  | azLim (e : Eng) (mode : BitVec 2) (area : BitVec 4) (width : BitVec 2) (off : BitVec 18)
  /-- SCL (R152): Maps A linearly through a block of four floats. -/
  | azScl (e : Eng) (mode : BitVec 2) (area : BitVec 4) (width : BitVec 2) (off : BitVec 18)
  /-- TON (R156): Runs an on-delay timer cell with LA as input. -/
  | azTon (e : Eng) (sub6 : BitVec 6) (idx : BitVec 16)
  /-- TOF (R156): Runs an off-delay timer cell. -/
  | azTof (e : Eng) (sub6 : BitVec 6) (idx : BitVec 16)
  /-- TP (R156): Runs a pulse timer cell. -/
  | azTp (e : Eng) (sub6 : BitVec 6) (idx : BitVec 16)
  /-- TRST (R156): Clears a timer cell if LA = 1. -/
  | azTrst (e : Eng) (sub6 : BitVec 6) (idx : BitVec 16)
  /-- CU (R159): Counts a counter cell up on a rising LA. -/
  | azCu (e : Eng) (sub6 : BitVec 6) (idx : BitVec 16)
  /-- CD (R159): Counts a counter cell down on a rising LA. -/
  | azCd (e : Eng) (sub6 : BitVec 6) (idx : BitVec 16)
  /-- CR (R159): Resets a counter cell if LA = 1. -/
  | azCr (e : Eng) (sub6 : BitVec 6) (idx : BitVec 16)
  /-- CLD (R159): Loads a counter cell from A if LA = 1. -/
  | azCld (e : Eng) (sub6 : BitVec 6) (idx : BitVec 16)
  /-- SEM_TRY (R160): Attempts to acquire a hardware semaphore. -/
  | azSemTry (e : Eng) (sub6 : BitVec 6) (idx : BitVec 16) (rivals : List Nat)
  /-- SEM_REL (R160): Releases a semaphore that this context owns. -/
  | azSemRel (e : Eng) (sub6 : BitVec 6) (idx : BitVec 16)
  /-- SEM_OWN (R160): Tests ownership of a semaphore. -/
  | azSemOwn (e : Eng) (sub6 : BitVec 6) (idx : BitVec 16)
  /-- MBX_SEND (R512): Sends a notice from the engine's endpoint. -/
  | azMbxSend (e : Eng) (sub6 : BitVec 6) (idx : BitVec 16)
  /-- MBX_RECV (R162): Reads the inbound notice without consuming it. -/
  | azMbxRecv (e : Eng) (sub6 : BitVec 6) (idx : BitVec 16)
  /-- MBX_ACK (R513): Acknowledges the inbound notice with a return code. -/
  | azMbxAck (e : Eng) (sub6 : BitVec 6) (idx : BitVec 16)
  /-- MBX_STAT (R162): Pushes the return code of the outbound notice. -/
  | azMbxStat (e : Eng) (sub6 : BitVec 6) (idx : BitVec 16)
  /-- DBL_RING (R517): Sets doorbell bits of an endpoint. -/
  | azDblRing (e : Eng) (sub6 : BitVec 6) (idx : BitVec 16)
  /-- DBL_TAKE (R163): Takes and clears the pending unmasked doorbell bits of the own endpoint. -/
  | azDblTake (e : Eng) (sub6 : BitVec 6) (idx : BitVec 16)
  /-- EVW (R164): Raises a program event code with snapshot words. -/
  | azEvw (e : Eng) (sub : BitVec 4) (sub6 : BitVec 6) (idx : BitVec 16)
  /-- TICKT (R165): Loads the TS64 of the current boundary into A and B. -/
  | azTickt (e : Eng) (sub6 : BitVec 6) (idx : BitVec 16)
  /-- NOW (R165): Loads the live time base into A and B. -/
  | azNow (e : Eng) (sub6 : BitVec 6) (idx : BitVec 16)
  /-- TICKUS (R165): Pushes the boundary time in whole µs. -/
  | azTickus (e : Eng) (sub6 : BitVec 6) (idx : BitVec 16)
  /-- TRAP (R167): Raises a program trap with a code. -/
  | azTrap (e : Eng) (sub6 : BitVec 6) (idx : BitVec 16)
  /-- TINFO (R167): Loads CE_TRAP_0 and CE_TRAP_1 into A and B. -/
  | azTinfo (e : Eng) (sub6 : BitVec 6) (idx : BitVec 16)
  /-- SCRUBBER_READ (R77): The scrubber reads a codeword in an idle FAB cycle and corrects it, or raises a memory fault. -/
  | scrubberRead (key : Nat) (found : Codeword)
  /-- ENGINE_FAULT (R89): A comparator difference asserts the fault line, which stops both copies, ends all contexts and trips Sluice. -/
  | engineFault (e : Eng) (cmp0 : Bool) (cmp1 : Bool) (group : Fin 9)
  /-- AGREE_FAULT (R86): The synchroniser outputs differ for 5 consecutive cycles, giving an engine fault of cause AGREE. -/
  | agreeFault (e : Eng) (sig : Fin 5) (cycles : Nat) (level : Bool)
  /-- HALT (R93): A debug command that stops both copies at the same instruction boundary. -/
  | halt (e : Eng) (arg : BitVec 24)
  /-- RESUME (R96): A debug command that applies the replay queue, compares the copies and returns the engine to RUN. -/
  | resume (e : Eng) (arg : BitVec 24)
  /-- STEP (R96): A debug command that replays, executes one instruction and halts. -/
  | step (e : Eng) (arg : BitVec 24)
  /-- REG_READ (R95): A debug command that copies a main-copy register into CE_DBG_DATA. -/
  | regRead (e : Eng) (arg : BitVec 24)
  /-- REG_WRITE (R95): A debug command that writes a main-copy register and appends it to the replay queue. -/
  | regWrite (e : Eng) (arg : BitVec 24)
  /-- CE_CLEAR_COUNTERS (R107): A CE command that clears the engine's counters and CE_MEM_CORR_CNT. -/
  | ceClearCounters (e : Eng) (arg : BitVec 24)
  /-- BREAKPOINT_HIT (R97): Both copies match a breakpoint before the instruction executes and halt. -/
  | breakpointHit (e : Eng) (n : Fin 4)
  /-- BREAKPOINT_WRITE (R92): A write to CE_BP_n, which is refused with event 0x082 without the DEBUG permission. -/
  | breakpointWrite (e : Eng) (n : Fin 4) (val : Word)
  /-- TAP_RESET (R102): TMS held high for 5 TCK cycles resets the TAP. -/
  | tapReset
  /-- TAP_INSTRUCTION_UPDATE (R102): A new TAP instruction takes effect, or acts as BYPASS when not available. -/
  | tapInstructionUpdate (ir : BitVec 4)
  /-- DBG_ACCESS (R104): Update-DR starts a fabric access from the DBG_ACCESS register. -/
  | dbgAccess (dr : BitVec 64)
  /-- DBG_ACCESS_DONE (R104): The fabric access of DBG_ACCESS completes, and its status is shifted out next. -/
  | dbgAccessDone (pins : BitVec 8) (loopHigh : Bool)
  /-- DEADLINE_OVERRUN (R187): An instance has not ended at its deadline, which counts OVR and takes OVR_REACT. -/
  | deadlineOverrun (e : Eng) (c : CtxNo) (ofLatched : Bool)
  /-- GRID_POINT (R193): At each 10 µs grid point, lanes sample and exchange source flags and step counts. -/
  | gridPoint (j : Nat)
  /-- GRID_DELIVERY (R194): A voted engine's step count reaches the mark M, and the agreed releases are delivered. -/
  | gridDelivery (e : Eng)
  /-- FLAG_UNAGREED (R195): A flag stays outside the agreed set for 3 grid points and is cleared. -/
  | flagUnagreed (src : Fin 256)
  /-- TASK_CLEAR_COUNTERS (R202): A TASK command that clears task counters. -/
  | taskClearCounters (arg : BitVec 24)
  /-- TRIGGER (R202): A TASK command that releases an event context with KIND 6. -/
  | trigger (arg : BitVec 24)
  /-- HOP_CLOSE (R207): At t_HOP the agreed inputs enter I and the inbound parts, the in-copies run and staged force changes take effect. -/
  | hopClose
  /-- FORCE_CONFIRM_TIMEOUT (R216): The lanes do not confirm a force change within 4 ticks, and the command ends with code 6. -/
  | forceConfirmTimeout
  /-- FORCE_SET (R231): An IMG command that stages a force entry. -/
  | forceSet (arg : BitVec 24)
  /-- FORCE_CLEAR (R231): An IMG command that stages the clearing of a force entry. -/
  | forceClear (arg : BitVec 24)
  /-- FORCE_CLEAR_ALL (R231): An IMG command that stages the clearing of every force entry. -/
  | forceClearAll (arg : BitVec 24)
  /-- OLC_LOAD (R223): An IMG command that checks an online change package and loads the non-current banks. -/
  | olcLoad (arg : BitVec 24)
  /-- OLC_ARM (R224): An IMG command that arms the loaded change for a target tick. -/
  | olcArm (arg : BitVec 24)
  /-- OLC_DISARM (R231): An IMG command that returns an armed change to LOADED. -/
  | olcDisarm (arg : BitVec 24)
  /-- OLC_SWAP (R226): At the target boundary, the masked engines switch banks and the ENTRY fields update. -/
  | olcSwap
  /-- OLC_DRAINED (R226): No context holds a position in the old bank, so the change returns to IDLE with event 0x10E. -/
  | olcDrained
  /-- KL_STEP_TIMEOUT (R235): A bring-up step does not end within 1 ms, so the port returns to TRAIN and RETRAIN counts. -/
  | klStepTimeout (port : Fin 3)
  /-- IDENT_RECEIVED (R236): A peer's IDENT parcel is checked for wiring, lane letter and join identity. -/
  | identReceived (port : Fin 3) (x : Ident)
  /-- KL_CAL_COMPLETE (R239): 256 TIME round trips complete, which sets KL_DELAY and takes the port UP. -/
  | klCalComplete (port : Fin 3) (trip : Nat) (turn : Nat) (asym : Int)
  /-- ACK_RECEIVED (R238): A link acknowledgement frees replay buffer entries. -/
  | ackReceived (port : Fin 3) (seq : Nat)
  /-- NAK_RECEIVED (R238): A NAK makes the sender replay from the named SEQ. -/
  | nakReceived (port : Fin 3) (seq : Nat)
  /-- PARCEL_ACK_TIMEOUT (R238): A parcel not acknowledged within 4 µs is sent again. -/
  | parcelAckTimeout (port : Fin 3)
  /-- KL_LINK_ERROR_RETRAIN (R238): Invalid sync headers or missing alignment markers make the port retrain. -/
  | klLinkErrorRetrain (port : Fin 3)
  /-- TIME_PARCEL_RECEIVED (R240): A lane forms the sender's boundary offset from a TIME parcel. -/
  | timeParcelReceived (port : Fin 3) (boundary : Nat) (tx : Nat) (e : Int) (trip : Option (Nat × Nat))
  /-- ALIGN_EXCLUSION (R242): A lane lies beyond LIMIT_NS at 3 consecutive boundaries and is excluded. -/
  | alignExclusion (lane : Fin 3)
  /-- HOP_PARCEL_RECEIVED (R249): A hopper contribution from another lane is received. -/
  | hopParcelReceived (lane : Fin 3) (data : List Byte)
  /-- RECEIPT_SEND (R249): At t_HOP − 2 µs each lane sends its RECEIPT. -/
  | receiptSend
  /-- RECEIPT_RECEIVED (R249): A RECEIPT from another lane is received. -/
  | receiptReceived (lane : Fin 3) (list : List (Nat × Word)) (copies : List (Nat × Word))
  /-- HOPPER_AGREE (R251): At t_HOP − 1 µs each lane forms the agreed image from the used contributions. -/
  | hopperAgree
  /-- ABSENT_EXCLUSION (R250): A lane's contribution is unused for 3 consecutive ticks, and the lane is excluded with cause LINK. -/
  | absentExclusion (lane : Fin 3)
  /-- DI_DISCREPANCY (R253): A triplicated input differs on one lane for 10 ticks, which records event 0x14D. -/
  | diDiscrepancy (lane : Fin 3) (k : Nat)
  /-- VOTE_PARCEL_RECEIVED (R254): A VOTE parcel delivers element CRCs and exchange contents. -/
  | voteParcelReceived (lane : Fin 3) (m : VoteMsg)
  /-- SEGMENT_PARCEL_RECEIVED (R255): A minority lane receives majority content. -/
  | segmentParcelReceived (lane : Fin 3) (id : Nat) (data : Option (List Byte))
  /-- MINORITY_EXCLUSION (R254): MIN_CONSEC reaches MIN_LIMIT, and the lane is excluded at t_VEND. -/
  | minorityExclusion (lane : Fin 3)
  /-- NOMAJ_EXCLUSION (R255): An element has no majority at 3 consecutive ticks, and every lane is excluded. -/
  | nomajExclusion
  /-- TWO_LANE_MISMATCH_EXCLUSION (R261): A 2oo2 mismatch lasts 3 ticks, and both lanes are excluded. -/
  | twoLaneMismatchExclusion
  /-- CTRL_EXIT_RECEIVED (R258): Other lanes ignore the exiting lane from receipt of EXIT on. -/
  | ctrlExitReceived (lane : Fin 3) (code : Nat)
  /-- CTRL_SB_STATE_RECEIVED (R323): A lane's Sahtu state notice updates the choice of sending lane. -/
  | ctrlSbStateReceived (lane : Fin 3) (st : Fin 6)
  /-- CTRL_LINK_STATE_RECEIVED (R334): A lane's Ethernet link notice updates the per-port sending lane. -/
  | ctrlLinkStateReceived (lane : Fin 3) (port : Fin 3) (up : Bool)
  /-- CTRL_LOCK_NOTICE_RECEIVED (R383): Another lane's release-ready notice for a lockout group is received. -/
  | ctrlLockNoticeReceived (lane : Fin 3) (g : Fin 8)
  /-- GRID_PARCEL_RECEIVED (R193): Another lane's grid samples arrive, and the agreed set and mark are formed. -/
  | gridParcelReceived (port : Fin 3) (lane : Fin 3) (flags : List Nat) (counts : List (Nat × Nat))
  /-- EXCLUDE (R270): A TRI command that excludes a lane through the vote exchange. -/
  | exclude (arg : BitVec 24)
  /-- SHADOW (R270): A TRI command that takes an excluded lane to SHADOW. -/
  | shadow (arg : BitVec 24)
  /-- READMIT (R263): A TRI command that requests readmission. -/
  | readmit (arg : BitVec 24)
  /-- TRI_CLEAR_COUNTERS (R270): A TRI command that clears the triad counters. -/
  | triClearCounters (arg : BitVec 24)
  /-- RETRAIN (R269): A KL command that returns a port to TRAIN. -/
  | retrain (arg : BitVec 24)
  /-- KL_CLEAR_COUNTERS (R269): A KL command that clears KL_ERR. -/
  | klClearCounters (arg : BitVec 24)
  /-- AUTO_READMIT_REQUEST (R263): With AUTO_READMIT, an excluded lane requests readmission automatically, at most 3 times. -/
  | autoReadmitRequest
  /-- AUTO_RESET_REQUEST (R263): 100 ticks after an exclusion under a hard fault, the lane requests a CORE reset. -/
  | autoResetRequest
  /-- XFER_PARCEL_RECEIVED (R264): The readmitting lane receives bulk or delta granules. -/
  | xferParcelReceived (lane : Fin 3) (grans : List (Nat × List Byte)) (final : Option Nat)
  /-- READMIT_TIMEOUT (R265): No quiet boundary arrives within TIMEOUT_TICKS, and the lane returns to SHADOW. -/
  | readmitTimeout
  /-- RENDEZVOUS_FIX (R246): All lanes arrive, or 500 ms pass, and the start set and donor are fixed. -/
  | rendezvousFix
  /-- START_RECEIVED (R248): The START notice fixes the first boundary of the start set. -/
  | startReceived (lane : Fin 3) (time : Nat)
  /-- HEARTBEAT_RECEIVED (R282): A unit heartbeat is received and feeds the FO decisions. -/
  | heartbeatReceived (h : Heartbeat)
  /-- GRANT_RECEIVED (R283): A grant naming the unit with a higher claim is accepted, and source 0xEC fires. -/
  | grantReceived (claim : Word) (unit : Nat)
  /-- ECHO_RECEIVED (R288): A station echo is received for supervision. -/
  | echoReceived (stn : Fin 64) (high : Word) (rcvd : Bool)
  /-- ARBITER_CHECK (R282): At cycle point CHK the arbiter evaluates heartbeats and may send a grant. -/
  | arbiterCheck
  /-- COPY_DATA_RECEIVED (R279): The standby writes DATA granules into the copy buffer. -/
  | copyDataReceived (tick : Nat) (seq : Nat) (resync : Bool) (first : Nat) (data : List Byte)
  /-- COPY_MARKER_RECEIVED (R279): The standby checks the MARKER, writes its commit marker and returns ACK. -/
  | copyMarkerReceived (tick : Nat) (seq : Nat) (count : Nat) (crc : Word)
  /-- COPY_ACK_RECEIVED (R279): The active unit completes a copy and clears its granule marks. -/
  | copyAckReceived (seq : Nat)
  /-- HOLD_EXPIRED (R287): ST_AGE exceeds HOLD_TICKS, and the station commits its outputs as off. -/
  | holdExpired
  /-- SWITCHOVER (R284): An FO command that sets YIELD to hand over to the standby. -/
  | switchover (arg : BitVec 24)
  /-- SWITCHOVER_TIMEOUT (R284): No demotion follows within 16 ticks, so SWITCHOVER ends with code 6. -/
  | switchoverTimeout
  /-- FO_RESYNC (R290): An FO command that starts a resync of the standby. -/
  | foResync (arg : BitVec 24)
  /-- FO_CLEAR_COUNTERS (R290): An FO command that clears FO_CNT. -/
  | foClearCounters (arg : BitVec 24)
  /-- FRAME_TRANSMIT (R300): At a window's action point, the node sends its frame from the latest commit. -/
  | frameTransmit (w : Fin 64)
  /-- ARB_MINISLOT (R301): The ARB minislot counter advances, and a pending frame of that ID may be sent. -/
  | arbMinislot (w : Fin 64) (first : Bool) (room : Bool)
  /-- FRAME_RECEIVED (R308): A Sahtu frame passes or fails the reception checks and enters a shadow buffer. -/
  | frameReceived (w : Fin 64) (header : BitVec 48) (payload : List Byte) (fcrc : Word) (codeOk : Bool) (timingOk : Bool)
  /-- READBACK_FAILURE (R292): SB_RX differs from SB_TX during an own transmission, and SB_TXEN is released. -/
  | readbackFailure (cut : Bool)
  /-- NODE_HALT (R316): TRUNC_CONSEC reaches TRUNC_LIMIT, and the node enters HALT. -/
  | nodeHalt
  /-- REFERENCE_RECEIVED (R310): A valid reference restarts the cycle timer and can apply a schedule switch. -/
  | referenceReceived (r : SbRef)
  /-- REFERENCE_SEND (R311): The time master sends the reference at the expected time. -/
  | referenceSend
  /-- BACKUP_REFERENCE_SEND (R311): Backup k sends the reference when none has appeared by k × REF_GAP. -/
  | backupReferenceSend
  /-- REFERENCE_MISSING (R312): No valid reference arrives by the deadline, and REF_MISS counts. -/
  | referenceMissing
  /-- STARTUP_REFERENCE_SEND (R313): A coldstart node sends a startup reference after the listen time L. -/
  | startupReferenceSend (ok : Bool)
  /-- STARTUP_REFERENCE_RECEIVED (R314): A listening node takes a startup reference and goes to INTEGRATING. -/
  | startupReferenceReceived
  /-- BACKOFF_END (R313): The collision back-off ends, and the node listens again. -/
  | backoffEnd
  /-- INTEGRATION_TIMEOUT (R315): An integrating node sees no reference in time and returns to LISTEN. -/
  | integrationTimeout
  /-- GUARDIAN_SUMMARY (R319): The guardian accepts or refuses a reference summary from the controller. -/
  | guardianSummary (cyc : Fin 64) (active : Fin 4) (startup : Bool) (implied : Nat) (observed : Nat) (crcOk : Bool)
  /-- GUARDIAN_SUMMARY_MISSING (R319): A second consecutive missing summary takes the guardian to LOST. -/
  | guardianSummaryMissing
  /-- GUARDIAN_CRC_CHECK (R318): Once per matrix cycle the guardian checks its schedule CRC and closes on a mismatch. -/
  | guardianCrcCheck
  /-- CYCLE_POINT (R324): A cycle point fires a router source and/or a SYNCOUT pulse. -/
  | cyclePoint (i : Fin 32)
  /-- SB_CLEAR_COUNTERS (R330): An SB command that clears SB_ERR. -/
  | sbClearCounters (arg : BitVec 24)
  /-- SB_RESUME (R330): An SB command that leaves HALT for LISTEN. -/
  | sbResume (arg : BitVec 24)
  /-- LISTEN_ONLY (R330): An SB command that enters or leaves listen-only operation. -/
  | listenOnly (arg : BitVec 24)
  /-- SBG_CLEAR_COUNTERS (R331): An SBG command that clears SBG_CNT. -/
  | sbgClearCounters (arg : BitVec 24)
  /-- ETH_FRAME_RECEIVED (R335): A received Ethernet frame is matched to a receive entry or the host queue, or discarded. -/
  | ethFrameReceived (port : Fin 3) (frame : List Byte) (fcsOk : Bool) (mii : Nat)
  /-- HOST_TX_SEND (R336): The device sends a host transmit slot on E2 and clears OWN. -/
  | hostTxSend
  /-- LAUNCH_ENTRY_START (R349): A launch entry starts at its launch time. -/
  | launchEntryStart (port : Fin 3) (mii : Nat)
  /-- LAUNCH_LATE (R350): An entry cannot start within LATE_TOL_NS, and it is dropped or sent late. -/
  | launchLate (port : Fin 3) (mii : Nat)
  /-- ETH_LINK_CHANGE (R334): A port's link goes up or down. -/
  | ethLinkChange (port : Fin 3) (up : Bool) (speed : Fin 3)
  /-- PTP_SYNC (R340): A complete Sync gives an offset that steers the time base. -/
  | ptpSync (port : Fin 3) (m : PtpMsg) (twoStep : Bool)
  /-- PTP_FOLLOW_UP (R340): A Follow_Up completes a two-step Sync. -/
  | ptpFollowUp (port : Fin 3) (m : PtpMsg)
  /-- PTP_DELAY_REQ (R344): A master port answers a Delay_Req. -/
  | ptpDelayReq (port : Fin 3) (m : PtpMsg)
  /-- PTP_DELAY_RESP (R341): A Delay_Resp yields a path delay measurement. -/
  | ptpDelayResp (port : Fin 3) (m : PtpMsg)
  /-- PTP_PDELAY_REQ (R344): A port answers a Pdelay_Req. -/
  | ptpPdelayReq (port : Fin 3) (m : PtpMsg)
  /-- PTP_PDELAY_RESP (R341): A Pdelay_Resp yields a peer delay measurement. -/
  | ptpPdelayResp (port : Fin 3) (m : PtpMsg) (twoStep : Bool)
  /-- PTP_PDELAY_RESP_FOLLOW_UP (R341): Completes a two-step peer delay measurement. -/
  | ptpPdelayRespFollowUp (port : Fin 3) (m : PtpMsg)
  /-- PTP_ANNOUNCE (R343): An Announce feeds the best master comparison. -/
  | ptpAnnounce (port : Fin 3) (m : PtpMsg) (set : AnnounceSet)
  /-- PTP_MESSAGE_SEND (R344): A port sends Announce, Sync or Pdelay_Req at its interval. -/
  | ptpMessageSend (port : Fin 3) (kind : Fin 4)
  /-- PTP_REFERENCE_LOST (R339): An announce receipt timeout or 3 missing Syncs take the time base to HOLDOVER. -/
  | ptpReferenceLost (announce : Bool)
  /-- PPS_IN_EDGE (R352): A PPS_IN rising edge is time-stamped and steers the time base. -/
  | ppsInEdge
  /-- PPS_IN_LOST (R352): After 3 s without a valid edge, PPS_IN is lost and the time base holds over. -/
  | ppsInLost
  /-- PPS_OUT_SECOND (R352): PPS_OUT rises at each full second of the time base. -/
  | ppsOutSecond
  /-- SYNCOUT_PULSE (R353): SYNCOUT pulses at the selected instants. -/
  | syncoutPulse
  /-- ETH_CALIBRATION_DONE (R346): 256 Pdelay exchanges complete, which sets ETH_CAL or CAL_FAIL. -/
  | ethCalibrationDone (port : Fin 3) (trips : List Nat) (align : Int)
  /-- ETH_CLEAR_COUNTERS (R355): An ETH command that clears the port counters. -/
  | ethClearCounters (arg : BitVec 24)
  /-- MDIO_READ (R355): An ETH command that reads a PHY register. -/
  | mdioRead (arg : BitVec 24)
  /-- MDIO_WRITE (R355): An ETH command that writes a PHY register. -/
  | mdioWrite (arg : BitVec 24)
  /-- CALIBRATE (R346): An ETH command that starts a port calibration. -/
  | calibrate (arg : BitVec 24)
  /-- TXTS_POP (R351): A write of 1 to ETH_TXTS_STAT.VALID removes the head timestamp. -/
  | txtsPop (port : Fin 3)
  /-- TB_CLEAR_COUNTERS (R356): A TB command that clears TB_CNT. -/
  | tbClearCounters (arg : BitVec 24)
  /-- CAPTURE (R356): A TB command that copies the time base into TB_CAP. -/
  | capture (arg : BitVec 24)
  /-- SET_TIME (R356): A TB command that loads the time base from TB_SET. -/
  | setTime (arg : BitVec 24)
  /-- SC_STALE (R368): TICKS reaches EXP_N, and an OK connection becomes STALE. -/
  | scStale (n : Fin 256)
  /-- SC_WATCHDOG_LOST (R368): TICKS exceeds WD_MS, and the connection becomes LOST. -/
  | scWatchdogLost (n : Fin 256)
  /-- KEY_SET (R361): An SC command that writes a key slot, effective at a t_HOP. -/
  | keySet (arg : BitVec 24)
  /-- SC_CLEAR_COUNTERS (R376): An SC command that clears SC_CNT and FAILED. -/
  | scClearCounters (arg : BitVec 24)
  /-- PAIR_DISCREPANCY (R378): The channels of a pair disagree longer than T_DISC_MS, and DISC latches. -/
  | pairDiscrepancy (p : Fin 16)
  /-- DELIBERATE_RESET_FALL (R382): A counted falling edge of the reset input starts the low-time measurement. -/
  | deliberateResetFall (g : Fin 8) (sameStep : Bool)
  /-- DELIBERATE_RESET_RISE (R382): The rising edge judges the attempt, making the group release-ready or rejecting it. -/
  | deliberateResetRise (g : Fin 8) (low : Nat)
  /-- LOCK_NOTICE_LAPSE (R383): A lane's release notice lapses after 500 ms without release. -/
  | lockNoticeLapse (g : Fin 8)
  /-- TRIP_IN_ASSERT (R386): A TRIP_IN held asserted for FILT_US gates off its channels. -/
  | tripInAssert (n : Fin 4)
  /-- TRIP_IN_NEGATE (R386): A TRIP_IN negates, and its source ends. -/
  | tripInNegate (n : Fin 4)
  /-- SEAL_LOOP_BREAK (R394): SEAL_LOOP low for 10 µs revokes every permission until the next start. -/
  | sealLoopBreak
  /-- KEEPALIVE_LOSS (R388): The field die sees no keepalive for 400 ns and holds every output off. -/
  | keepaliveLoss
  /-- SF_CLEAR_COUNTERS (R402): An SF command that clears SF_CNT and SF_SLUICE_FLAGS. -/
  | sfClearCounters (arg : BitVec 24)
  /-- FLD_INTERFACE_FAIL (R403): 16 consecutive failed transfers stop the keepalive. -/
  | fldInterfaceFail
  /-- VFD_LOW (R404): VFD falls below V_FD_LOW, which holds outputs off and presents every input as 0. -/
  | vfdLow (mv : BitVec 16)
  /-- VFD_RECOVER (R404): VFD recovers, and the input filters restart. -/
  | vfdRecover (mv : BitVec 16)
  /-- DI_CHANGE (R408): A filtered input changes after FILT_N samples and feeds the pairs and router sources. -/
  | diChange (k : Fin 32) (v : Bool)
  /-- WIRE_BREAK (R409): 8 consecutive samples set or clear an input's break. -/
  | wireBreak (k : Fin 32) (v : Bool)
  /-- OVERLOAD_TRIP (R412): A current limit lasting OVL_MS turns the channel off with OVERLOAD. -/
  | overloadTrip (c : Fin 24) (ma : BitVec 16)
  /-- THERMAL_SHUTDOWN (R412): A channel's thermal shutdown turns it off with THERMAL. -/
  | thermalShutdown (c : Fin 24)
  /-- OPEN_OFF_DETECT (R413): An off output held between V_OW and 6 V for 1 ms is OPEN_OFF. -/
  | openOffDetect (c : Fin 16)
  /-- OPEN_ON_DETECT (R413): An on output below I_OL for 1 ms is OPEN_ON. -/
  | openOnDetect (c : Fin 24)
  /-- STUCK_ON_DETECT (R413): An off output reading high for 1 ms is STUCK_ON. -/
  | stuckOnDetect (c : Fin 24)
  /-- STUCK_OFF_DETECT (R413): A commanded-on output staying low for 100 µs after t_OUT is STUCK_OFF. -/
  | stuckOffDetect (c : Fin 24) (mv : BitVec 16)
  /-- DARK_TEST_START (R415): In a dark-test tick, a pulse switches the next eligible channel off. -/
  | darkTestStart
  /-- DARK_TEST_END (R416): At the end of the pulse the test is judged and the channel turns on again. -/
  | darkTestEnd (mv : BitVec 16) (ma : BitVec 16)
  /-- VF_STATE_CHANGE (R421): A field supply group changes state. -/
  | vfStateChange (g : Fin 4) (st : Fin 4) (v10 : BitVec 16)
  /-- CLEAR_FAULT (R423): An FLD command that clears latched channel faults. -/
  | clearFault (arg : BitVec 24)
  /-- FLD_CLEAR_COUNTERS (R427): An FLD command that clears FLD_CNT. -/
  | fldClearCounters (arg : BitVec 24)
  /-- FD_OVERTEMP (R574): The field die temperature crosses 155 °C or returns below 140 °C. -/
  | fdOvertemp (hot : Bool) (temp : BitVec 16)
  /-- SIG_SAMPLE (R430): A chain completes a sample, which is corrected, DC-blocked and judged. -/
  | sigSample (m : Fin 20) (bits : List Bool)
  /-- OVERRANGE_START (R433): 64 identical bits make a chain overrange. -/
  | overrangeStart (m : Fin 20)
  /-- OVERRANGE_END (R433): The run ends, and the channel enters settling suppression. -/
  | overrangeEnd (m : Fin 20)
  /-- SETTLING_END (R440): Settling suppression ends after T_SET. -/
  | settlingEnd (k : Fin 16)
  /-- SD_SYNC_RESYNC (R429): A resync source sets a new grid origin unless already aligned. -/
  | sdSyncResync (off : Int)
  /-- COEF_SWAP_POINT (R439): At the swap point, banked chains switch coefficient bank. -/
  | coefSwapPoint
  /-- CAL_POINT_DONE (R442): A calibration measurement ends, and its constants are applied or the modulator is marked FAULT. -/
  | calPointDone (g : Fin 4) (x : Word)
  /-- ROTATION_SLOT_START (R445): A rotation slot begins for channel j or the spare. -/
  | rotationSlotStart (g : Fin 4)
  /-- HANDOVER_MATCH (R445): 64 paired samples are compared, and the channel is handed over, or the step aborts. -/
  | handoverMatch (g : Fin 4)
  /-- SIG_CLEAR_COUNTERS (R451): A SIG command that clears SIG_CNT. -/
  | sigClearCounters (arg : BitVec 24)
  /-- READ_PAGE (R471): An NVM command that reads a page into SDM. -/
  | readPage (arg : BitVec 24)
  /-- PROGRAM_PAGE (R471): An NVM command that programs a page of region 5. -/
  | programPage (arg : BitVec 24)
  /-- ERASE_BLOCK (R471): An NVM command that erases a block of region 5. -/
  | eraseBlock (arg : BitVec 24)
  /-- DESC_WRITE (R459): An NVM command that writes the boot descriptor copies. -/
  | descWrite (arg : BitVec 24)
  /-- SCRUB_NOW (R471): An NVM command that starts a full scrub pass. -/
  | scrubNow (arg : BitVec 24)
  /-- NVM_CLEAR_COUNTERS (R471): An NVM command that clears NVM_CNT and NVM_ECC_MAX. -/
  | nvmClearCounters (arg : BitVec 24)
  /-- NAND_OP_COMPLETE (R465): A NAND operation ends, and the manager serves the next one by precedence. -/
  | nandOpComplete (fail : Bool) (flips : List Nat)
  /-- SCRUB_PASS_START (R464): The NVM scrubber starts a pass every SCRUB_H hours, or early at the read limit. -/
  | scrubPassStart (block : Option Nat)
  /-- POWER_FAIL_SAVE_START (R466): After the freeze commit, the retention record write begins. -/
  | powerFailSaveStart
  /-- POWER_FAIL_SAVE_END (R467): The save ends with a result, and deferred resets assert. -/
  | powerFailSaveEnd (durUs : Nat)
  /-- PFAIL_RESUME (R467): 100 ms without a warning after the save ends request a CORE reset. -/
  | pfailResume
  /-- ACTIVATION_PAGE_DONE (R490): The activation page program completes and requests a CORE reset. -/
  | activationPageDone (fail : Bool)
  /-- REGION_ERASE (R488): An LDR command that erases a target and resets its write pointer. -/
  | regionErase (arg : BitVec 24)
  /-- REGION_WRITE (R488): An LDR command that writes pages to a target. -/
  | regionWrite (arg : BitVec 24)
  /-- SLOT_ARM (R489): An LDR command that checks a slot and writes its trailer. -/
  | slotArm (arg : BitVec 24)
  /-- SLOT_DISARM (R489): An LDR command that cancels an armed slot. -/
  | slotDisarm (arg : BitVec 24)
  /-- CFG_COMMIT (R489): An LDR command that commits a new configuration copy. -/
  | cfgCommit (arg : BitVec 24)
  /-- PKH_PROGRAM (R478): An LDR command that fuses the public key hash. -/
  | pkhProgram (arg : BitVec 24)
  /-- RELEASE_KEPT (R487): An LDR command that returns the kept record to the rotation. -/
  | releaseKept (arg : BitVec 24)
  /-- HOST_GO (R493): An LDR command that boots from images that the host placed in SDM. -/
  | hostGo (arg : BitVec 24) (pins : BitVec 8) (loopHigh : Bool)
  /-- RESTART (R495): An LDR command that requests a CORE reset. -/
  | restart (arg : BitVec 24)
  /-- KLOUL_BOOT_PORT_TIMEOUT (R492): K0 is not UP within 100 ms, so the BOOT request goes to K1. -/
  | kloulBootPortTimeout
  /-- BOOT_PARCEL_RECEIVED (R492): BOOT parcels deliver the neighbour's configuration and bundle. -/
  | bootParcelReceived (port : Fin 3) (request : Bool) (cfg : List Byte) (bundle : List Byte) (pins : BitVec 8) (loopHigh : Bool)
  /-- HOST_MEMORY_READ (R502): A host read through HWA or HWB, which may end with a Completer Abort. -/
  | hostMemoryRead (hwa : Bool) (off : Nat) (n : Nat) (full : Bool)
  /-- HOST_MEMORY_WRITE (R503): A posted host write, whose failure latches HP_WERR. -/
  | hostMemoryWrite (hwa : Bool) (off : Nat) (data : List (Option Byte)) (pins : BitVec 8) (loopHigh : Bool)
  /-- HOST_ATOMIC_OP (R509): A host AtomicOp acts indivisibly on HWB. -/
  | hostAtomicOp (hwa : Bool) (off : Nat) (kind : AtomicKind) (n : Nat) (operand : BitVec 64) (compare : BitVec 64)
  /-- BRIDGE_RESET (R511): An FLR, hot reset, link-down or PE_RST_N resets the bridge and E_24. -/
  | bridgeReset (kind : Fin 4)
  /-- DMA_TO_HOST (R505): An HP command that copies SDM to host memory with a flushing read. -/
  | dmaToHost (arg : BitVec 24)
  /-- DMA_FROM_HOST (R505): An HP command that copies host memory into SDM. -/
  | dmaFromHost (arg : BitVec 24)
  /-- DMA_COMPLETION_RECEIVED (R505): A completion for a DMA request arrives and may end the command. -/
  | dmaCompletionReceived (st : CplStatus) (data : List Byte)
  /-- DMA_COMPLETION_TIMEOUT (R505): A DMA request has no completion within HP_CPL_TMO, and the command ends with code 6. -/
  | dmaCompletionTimeout
  /-- HP_CLEAR_COUNTERS (R525): An HP command that clears HP_CNT. -/
  | hpClearCounters (arg : BitVec 24)
  /-- MSIX_PENDING_RELEASE (R507): A pending MSI-X message is sent when its mask conditions clear. -/
  | msixPendingRelease (vec : Fin 32)
  /-- MB_SEND (R512): An MB command in which the host sends a notice from E_24. -/
  | mbSend (arg : BitVec 24)
  /-- MB_ACK (R513): An MB command in which the host acknowledges E_24's inbound notice. -/
  | mbAck (arg : BitVec 24)
  /-- EP_RESET (R515): An MB command that resets E_24. -/
  | epReset (arg : BitVec 24)
  /-- MB_CLEAR_COUNTERS (R526): An MB command that clears MB_CNT. -/
  | mbClearCounters (arg : BitVec 24)
  /-- ACK_TIMEOUT (R515): ACK_TMO_MS passes without an acknowledge, and the notice ends ABORTED. -/
  | ackTimeout (ep : Fin 25)
  /-- HSEM_READ_ACQUIRE (R519): A host or DBG read of HSEM_nn is an acquire attempt. -/
  | hsemReadAcquire (sem : Fin 64) (byDbg : Bool) (rivals : List Nat)
  /-- HSEM_RELEASE_WRITE (R521): A write with REL = 1 releases the semaphore if the writer owns it. -/
  | hsemReleaseWrite (sem : Fin 64) (byDbg : Bool) (rel : Bool)
  /-- DOORBELL_SET_WRITE (R517): A write to MB_DB_SET rings doorbell bits. -/
  | doorbellSetWrite (ep : Fin 32) (bits : Word)
  /-- DOORBELL_CLEAR_WRITE (R517): The host clears E_24 doorbell bits through MB_DB_PEND_24. -/
  | doorbellClearWrite (bits : Word)
  /-- RESULT_REQUEST_WRITE (R523): A write to MB_RES_REQ marks blocks stale and may ring a doorbell. -/
  | resultRequestWrite (bits : BitVec 16)
  /-- EVENT_RECORD_ENTER (R533): A record leaves the input queue, takes its ESEQ and enters, overwrites or is dropped. -/
  | eventRecordEnter
  /-- RATE_TOKEN_ADD (R531): A code's token bucket gains a token every W / N while not full. -/
  | rateTokenAdd (code : BitVec 11)
  /-- FREEZE (R535): An EVR command that stops entry into the log. -/
  | freeze (arg : BitVec 24)
  /-- UNFREEZE (R535): An EVR command that enters the spill queue and unfreezes the log. -/
  | unfreeze (arg : BitVec 24)
  /-- FREEZE_TIMEOUT (R535): A freeze lasting FRZ_MS ends as if by UNFREEZE. -/
  | freezeTimeout
  /-- COPY (R539): An EVR command that copies records in ESEQ order into SDM. -/
  | copy (arg : BitVec 24)
  /-- CLEAR (R536): An EVR command that discards the log after checks of key and seal. -/
  | clear (arg : BitVec 24) (byDbg : Bool)
  /-- EVR_CLEAR_COUNTERS (R542): An EVR command that clears EVR_LOSS. -/
  | evrClearCounters (arg : BitVec 24)
  /-- ARCHIVE_PAGE_WRITE (R538): R queued records are written as an archive page to region 4. -/
  | archivePageWrite
  /-- LOG_RESTORE (R537): After a SYS-level start, the newest retention record's events are restored into the log. -/
  | logRestore
  /-- RESET_SOURCE_ASSERT (R547): A reset source asserts, and the device enters or deepens its reset level. -/
  | resetSourceAssert (src : Fin 12)
  /-- RESET_SOURCE_NEGATE (R547): The last reset source negates, and the release begins. -/
  | resetSourceNegate (src : Fin 12)
  /-- RESET_STAGE_RELEASE (R550): The next release stage S0–S8 is released after its gap. -/
  | resetStageRelease (board : Board)
  /-- TRIM_LOAD_DONE (R555): A trim load attempt ends by CRC pass or fail, with retries up to four. -/
  | trimLoadDone (pass : Bool)
  /-- STRAP_RESAMPLE (R553): While held without a reference, the straps are sampled again every 1 ms. -/
  | strapResample (boot : List Nat) (clk : List Nat) (roles : List Nat) (ref : Bool)
  /-- CLOCK_LOSS (R557): A clock monitor detects a loss and reacts by clock. -/
  | clockLoss (clk : Fin 7)
  /-- CLOCK_RETURN (R557): A lost clock returns or its PLL relocks. -/
  | clockReturn (clk : Fin 7)
  /-- RESET_CORE (R559): A SYS command that requests a CORE reset. -/
  | resetCore (arg : BitVec 24)
  /-- RESET_SYS (R559): A SYS command that requests a SYS reset. -/
  | resetSys (arg : BitVec 24)
  /-- SUPPLY_THRESHOLD_CROSS (R563): A core-side rail crosses WARN, UV or OV, or VSTBY crosses LOW. -/
  | supplyThresholdCross (rail : Fin 6) (st : Fin 4) (mv : Nat)
  /-- INTERNAL_WARNING (R563): PFW_N held low for 2 µs, or a WARN, starts the power-fail freeze. -/
  | internalWarning (src : Fin 3)
  /-- TEMP_SAMPLE (R573): A core die temperature reading every 1 ms may set TJ_WARN or trip T_SHUT. -/
  | tempSample (temps : List Int) (mv : List Nat) (shut : Bool)
  /-- RING_OSC_MEASURE (R575): A once-a-second ring oscillator measurement updates the slowdown. -/
  | ringOscMeasure (n : Fin 4) (ppm : Int)
  /-- STBY_SECOND_COPY (R566): While LOCKED, the time base copies its seconds into the standby counter. -/
  | stbySecondCopy
  /-- WAKE_ALARM (R567): The standby seconds equal PWR_ALARM, and WAKE_N is driven low. -/
  | wakeAlarm
  /-- WEIR_GRANT (R569): At a Weir slot, the waiting turn-ons that fit the budget are granted. -/
  | weirGrant (slot : Fin 62)
  /-- PWR_CLEAR_COUNTERS (R577): A PWR command that clears PWR_WEIR_CNT. -/
  | pwrClearCounters (arg : BitVec 24)
  /-- CLEAR_WAKE (R577): A PWR command that releases WAKE_N. -/
  | clearWake (arg : BitVec 24)
  /-- KL_CHANNEL_LOCK (R235): A Kloul channel locks on 64 consecutive valid sync headers, or on 3 commas in extended reach, and the port moves on to DESKEW. -/
  | klChannelLock (port : Fin 3) (ch : Fin 4)
  /-- KL_DESKEW_COMPLETE (R235): The alignment markers of all channels are aligned within 40 ns, and the port moves on to IDENT. -/
  | klDeskewComplete (port : Fin 3)
  /-- KL_PARCEL_ERROR (R238): A parcel arrives with a CRC error, a SEQ gap or an unlisted TYPE; the receiver discards it, counts it and returns NAK where required. -/
  | klParcelError (port : Fin 3) (kind : Fin 3)
  /-- PCIE_LINK_UP (R497): The PCI Express link trains and becomes active, and HP_LINK.LINK_UP becomes 1. -/
  | pcieLinkUp (x2 : Bool) (gen2 : Bool)
  /-- PCIE_CONFIG_ACCESS (R497): The host makes a configuration read or write, which is answered with Request Retry Status until ready, or which changes Bus Master Enable, MSI-X enable or the D-state. -/
  | pcieConfigAccess (acc : CfgAccess) (waiting : Bool)
  /-- HP_PIN_CHANGE (R508): A mirrored ball changes level at the 1 µs sample, updating HP_PINS and raising cause 7 when enabled in HP_PIN_EN. -/
  | hpPinChange (pin : Fin 18) (high : Bool)
  /-- MDIO_TRANSFER_DONE (R355): An MDIO frame on the 2.5 MHz MDC line completes, delivering the read data or finishing the write, and the command ends. -/
  | mdioTransferDone (data : BitVec 16)
  /-- OLC_LOAD_DONE (R223): OLC_LOAD finishes checking the package and writing the non-current banks, leaving the state LOADED, or ends with a REASON. -/
  | olcLoadDone
  /-- EVR_COPY_DONE (R539): A COPY, or a ring request run as COPY, ends, writing COPIED and NEXT, and the EVR takes the next submitted ring slot. -/
  | evrCopyDone
  /-- ETH_TX_DONE (R342): An Ethernet frame finishes on the wire, freeing the port for the next waiting launch entry, PTP frame or host frame. -/
  | ethTxDone (port : Fin 3)
  /-- LAUNCH_COPY_DONE (R349): The copy of the committed descriptors into a port's transmit memory completes, and entries with L = 0 start in descriptor order. -/
  | launchCopyDone (port : Fin 3) (mii : Nat)
  /-- OUTPUT_CHAIN_SAMPLE (R436): In each SD_CLK period, an output chain advances its ramp, interpolation filter and second-order modulator and drives one bit on SD_OUT_k. -/
  | outputChainSample (k : Fin 8)
  /-- FAULT_CONDITION_END (R422): The condition of a non-latched channel fault (OPEN_OFF, OPEN_ON, STUCK_ON, STUCK_OFF) ends, or a channel cools below its restart temperature, and the fault bit clears. -/
  | faultConditionEnd (c : Fin 24) (what : Fin 5)
deriving DecidableEq, Repr

end Sys2Proof
end

