-- ==== Sys2Proof/Config.lean ====
section
/-! DEFINITION. What the spec leaves to an implementation, and the free values: opaque constants with no body,
so that nothing can be proved about the value they take. Each is named in an assumption-log row. -/

namespace Sys2Proof.Config

/-- A free 32-bit value, one for each use counted by `Device.freeCtr` (log 5). -/
opaque freeWord : Nat → Word

/-- The on-die fuses: the trimmed default OFF of modulator m (R554; log 7). -/
opaque trimOff : Nat → Word

/-- The on-die fuses: the trimmed default GAIN of modulator m (R554; log 7). -/
opaque trimGain : Nat → Word

/-- The asymmetry term in ps that a calibration sets (R346), as a function of the calibrated delay and of the measured
lane alignment, both in ps: the spec does not state it (log 24). -/
opaque asymmetry : Nat → Int → Int

end Sys2Proof.Config
end

