-- ==== Sys2Proof/Machine/Sparse.lean ====
section
/-! DEFINITION. Sparse maps from numbers to plain data, in one canonical form, and the fields of registers.
A map is a list of (key, value) pairs with strictly rising keys and no entry equal to what an unlisted key reads as,
so that equal maps are equal lists. -/

namespace Sys2Proof.Machine

/-- A sparse map: what an unlisted key reads as is given to each operation. -/
abbrev SMap (α : Type) := List (Nat × α)

/-- The value at a key; an unlisted key reads as its default. -/
def sget {α : Type} (d : Nat → α) : SMap α → Nat → α
  | [], k => d k
  | (k', v) :: t, k => if k' = k then v else sget d t k

/-- Remove a key. -/
def serase {α : Type} (k : Nat) : SMap α → SMap α
  | [] => []
  | (k', v) :: t => if k' = k then serase k t else (k', v) :: serase k t

/-- Insert or replace a key, keeping the keys rising. -/
def sinsert {α : Type} (k : Nat) (v : α) : SMap α → SMap α
  | [] => [(k, v)]
  | (k', v') :: t =>
    if k < k' then (k, v) :: (k', v') :: t
    else if k = k' then (k, v) :: t
    else (k', v') :: sinsert k v t

/-- Write a key. Writing what an unlisted key reads as removes the entry. -/
def sput {α : Type} [DecidableEq α] (d : Nat → α) (m : SMap α) (k : Nat) (v : α) : SMap α :=
  if v = d k then serase k m else sinsert k v m

/-- Keep only the keys that satisfy a test. -/
def skeep {α : Type} (p : Nat → Bool) (m : SMap α) : SMap α :=
  m.filter (fun e => p e.1)

/-- The keys of a list of pairs rise strictly from a lower bound, and no entry is its key's default. -/
def swfFrom {α : Type} [DecidableEq α] (d : Nat → α) : Nat → SMap α → Bool
  | _, [] => true
  | b, (k, v) :: t => decide (b ≤ k) && decide (v ≠ d k) && swfFrom d (k + 1) t

/-- The canonical form of a sparse map. -/
def swf {α : Type} [DecidableEq α] (d : Nat → α) (m : SMap α) : Bool :=
  swfFrom d 0 m

/-- A field of a register: the register's fabric address, its lowest bit and its width in bits. -/
structure Fld where
  addr : Nat
  lo : Nat
  width : Nat
deriving DecidableEq, Repr

/-- The value of bits [lo + width − 1 : lo] of a word. -/
def bitsOf (w : Word) (lo width : Nat) : Nat :=
  w.toNat / 2 ^ lo % 2 ^ width

/-- A word with bits [lo + width − 1 : lo] replaced by the low bits of a number. -/
def withBits (w : Word) (lo width v : Nat) : Word :=
  BitVec.ofNat 32 (w.toNat / 2 ^ (lo + width) * 2 ^ (lo + width) + v % 2 ^ width * 2 ^ lo + w.toNat % 2 ^ lo)

end Sys2Proof.Machine
end

