-- ==== Sys2Proof/Machine/Regs.lean ====
section
/-! DEFINITION. The register map: every register of spec/22_address_map.md with its fabric address (R578),
and every field of the chapters' field tables with its bits. One row per register gives what a write does
to each bit (access codes of R11) and the value at the release of POR (R12). A field whose Reset column reads
"cfg" holds the default that its description states, else 0, until the loader writes it (DESIGN CHOICE, log 3). -/

namespace Sys2Proof.Machine.Reg

/-! ## SYS -/
def SYS_ROLE : Nat := 0x4000008
def SYS_ROLE_NO_SERVICE : Fld := ⟨SYS_ROLE, 11, 1⟩
def SYS_ROLE_ARBITER : Fld := ⟨SYS_ROLE, 10, 1⟩
def SYS_ROLE_STATION : Fld := ⟨SYS_ROLE, 9, 1⟩
def SYS_ROLE_ROLE_MATCH : Fld := ⟨SYS_ROLE, 8, 1⟩
def SYS_ROLE_CFG_ROLE : Fld := ⟨SYS_ROLE, 4, 3⟩
def SYS_ROLE_STRAP_ROLE : Fld := ⟨SYS_ROLE, 0, 3⟩
def SYS_CMD : Nat := 0x4000010
def SYS_CMD_OP : Fld := ⟨SYS_CMD, 24, 8⟩
def SYS_CMD_ARG : Fld := ⟨SYS_CMD, 0, 24⟩
def SYS_CMD_STATUS : Nat := 0x4000014
def SYS_CMD_STATUS_BUSY : Fld := ⟨SYS_CMD_STATUS, 31, 1⟩
def SYS_CMD_STATUS_SEQ : Fld := ⟨SYS_CMD_STATUS, 16, 8⟩
def SYS_CMD_STATUS_DROPPED : Fld := ⟨SYS_CMD_STATUS, 8, 1⟩
def SYS_CMD_STATUS_CODE : Fld := ⟨SYS_CMD_STATUS, 0, 3⟩
def DEV_ID : Nat := 0x4000000
def DEV_ID_PART : Fld := ⟨DEV_ID, 8, 24⟩
def DEV_ID_STEP : Fld := ⟨DEV_ID, 0, 8⟩
def SYS_STRAP : Nat := 0x4000004
def SYS_STRAP_UNSTABLE : Fld := ⟨SYS_STRAP, 8, 1⟩
def SYS_STRAP_ROLE : Fld := ⟨SYS_STRAP, 4, 3⟩
def SYS_STRAP_CLKMODE : Fld := ⟨SYS_STRAP, 2, 2⟩
def SYS_STRAP_BOOT : Fld := ⟨SYS_STRAP, 0, 2⟩
def SYS_RST_CAUSE : Nat := 0x4000020
def SYS_RST_CAUSE_SRC : Fld := ⟨SYS_RST_CAUSE, 0, 12⟩
def SYS_RST_LAST : Nat := 0x4000024
def SYS_RST_LAST_LEVEL : Fld := ⟨SYS_RST_LAST, 16, 2⟩
def SYS_RST_LAST_SRC : Fld := ⟨SYS_RST_LAST, 0, 12⟩
def SYS_RST_CNT : Nat := 0x4000028
def SYS_RST_CNT_SYS : Fld := ⟨SYS_RST_CNT, 16, 16⟩
def SYS_RST_CNT_CORE : Fld := ⟨SYS_RST_CNT, 0, 16⟩
def SYS_CLK_STAT : Nat := 0x4000030
def SYS_CLK_STAT_STBY_OK : Fld := ⟨SYS_CLK_STAT, 6, 1⟩
def SYS_CLK_STAT_GXI_OK : Fld := ⟨SYS_CLK_STAT, 5, 1⟩
def SYS_CLK_STAT_PCIE_LOCK : Fld := ⟨SYS_CLK_STAT, 4, 1⟩
def SYS_CLK_STAT_KL_LOCK : Fld := ⟨SYS_CLK_STAT, 3, 1⟩
def SYS_CLK_STAT_TB_LOCK : Fld := ⟨SYS_CLK_STAT, 2, 1⟩
def SYS_CLK_STAT_MAIN_LOCK : Fld := ⟨SYS_CLK_STAT, 1, 1⟩
def SYS_CLK_STAT_REF_OK : Fld := ⟨SYS_CLK_STAT, 0, 1⟩
def SYS_CLK_FLAGS : Nat := 0x4000034
def SYS_CLK_FLAGS_STBY_OK : Fld := ⟨SYS_CLK_FLAGS, 6, 1⟩
def SYS_CLK_FLAGS_GXI_OK : Fld := ⟨SYS_CLK_FLAGS, 5, 1⟩
def SYS_CLK_FLAGS_PCIE_LOCK : Fld := ⟨SYS_CLK_FLAGS, 4, 1⟩
def SYS_CLK_FLAGS_KL_LOCK : Fld := ⟨SYS_CLK_FLAGS, 3, 1⟩
def SYS_CLK_FLAGS_TB_LOCK : Fld := ⟨SYS_CLK_FLAGS, 2, 1⟩
def SYS_CLK_FLAGS_MAIN_LOCK : Fld := ⟨SYS_CLK_FLAGS, 1, 1⟩
def SYS_CLK_FLAGS_REF_OK : Fld := ⟨SYS_CLK_FLAGS, 0, 1⟩
def SYS_TRIM_STAT : Nat := 0x4000040
def SYS_TRIM_STAT_VALID : Fld := ⟨SYS_TRIM_STAT, 31, 1⟩
def SYS_TRIM_STAT_FAILS : Fld := ⟨SYS_TRIM_STAT, 8, 8⟩
def SYS_TRIM_STAT_ATTEMPTS : Fld := ⟨SYS_TRIM_STAT, 0, 3⟩

/-! ## TICK -/
def TICK_CMD : Nat := 0x4010000
def TICK_CMD_OP : Fld := ⟨TICK_CMD, 24, 8⟩
def TICK_CMD_ARG : Fld := ⟨TICK_CMD, 0, 24⟩
def TICK_CMD_STATUS : Nat := 0x4010004
def TICK_CMD_STATUS_BUSY : Fld := ⟨TICK_CMD_STATUS, 31, 1⟩
def TICK_CMD_STATUS_SEQ : Fld := ⟨TICK_CMD_STATUS, 16, 8⟩
def TICK_CMD_STATUS_DROPPED : Fld := ⟨TICK_CMD_STATUS, 8, 1⟩
def TICK_CMD_STATUS_CODE : Fld := ⟨TICK_CMD_STATUS, 0, 3⟩
def TICK_CFG : Nat := 0x4010010
def TICK_CFG_SYNC_EDGE : Fld := ⟨TICK_CFG, 8, 1⟩
def TICK_CFG_LOSS_CNT : Fld := ⟨TICK_CFG, 4, 4⟩
def TICK_CFG_SRC : Fld := ⟨TICK_CFG, 0, 2⟩
def TICK_PERIOD : Nat := 0x4010014
def TICK_PERIOD_PERIOD_US : Fld := ⟨TICK_PERIOD, 0, 15⟩
def TICK_PHASE : Nat := 0x4010018
def TICK_PHASE_HOP_US : Fld := ⟨TICK_PHASE, 16, 9⟩
def TICK_PHASE_VOTE_PCT : Fld := ⟨TICK_PHASE, 8, 7⟩
def TICK_PHASE_VWIN_US : Fld := ⟨TICK_PHASE, 0, 8⟩
def TICK_EARLY : Nat := 0x401001c
def TICK_EARLY_ETH : Fld := ⟨TICK_EARLY, 2, 1⟩
def TICK_EARLY_SAHTU : Fld := ⟨TICK_EARLY, 1, 1⟩
def TICK_EARLY_FIELD : Fld := ⟨TICK_EARLY, 0, 1⟩
def TICK_WD : Nat := 0x4010020
def TICK_WD_LIMIT_PCT : Fld := ⟨TICK_WD, 0, 8⟩
def TICK_STATUS : Nat := 0x4010024
def TICK_STATUS_ABN_CONSEC : Fld := ⟨TICK_STATUS, 20, 4⟩
def TICK_STATUS_NR_CONSEC : Fld := ⟨TICK_STATUS, 16, 4⟩
def TICK_STATUS_FROZEN : Fld := ⟨TICK_STATUS, 10, 1⟩
def TICK_STATUS_MASTER_OVERRIDE : Fld := ⟨TICK_STATUS, 9, 1⟩
def TICK_STATUS_RUNNING : Fld := ⟨TICK_STATUS, 8, 1⟩
def TICK_STATUS_LOCK : Fld := ⟨TICK_STATUS, 4, 2⟩
def TICK_STATUS_SRC_ACT : Fld := ⟨TICK_STATUS, 0, 2⟩
def TICK_FLAGS : Nat := 0x4010028
def TICK_FLAGS_WD_TRIP : Fld := ⟨TICK_FLAGS, 6, 1⟩
def TICK_FLAGS_ABANDON : Fld := ⟨TICK_FLAGS, 5, 1⟩
def TICK_FLAGS_NOT_READY : Fld := ⟨TICK_FLAGS, 4, 1⟩
def TICK_FLAGS_OVERRUN : Fld := ⟨TICK_FLAGS, 3, 1⟩
def TICK_FLAGS_SRC_REGAINED : Fld := ⟨TICK_FLAGS, 2, 1⟩
def TICK_FLAGS_SRC_LOST : Fld := ⟨TICK_FLAGS, 1, 1⟩
def TICK_FLAGS_EDGE_REJECT : Fld := ⟨TICK_FLAGS, 0, 1⟩
def TICK_PHASE_ERR : Nat := 0x401002c
def TICK_PHASE_ERR_ERR_NS : Fld := ⟨TICK_PHASE_ERR, 0, 32⟩
def TICK_COUNT_LO : Nat := 0x4010030
def TICK_COUNT_LO_COUNT_LO : Fld := ⟨TICK_COUNT_LO, 0, 32⟩
def TICK_COUNT_HI : Nat := 0x4010034
def TICK_COUNT_HI_COUNT_HI : Fld := ⟨TICK_COUNT_HI, 0, 32⟩
def TICK_ERR_CNT : Nat := 0x4010040
def TICK_ERR_CNT_OVR : Fld := ⟨TICK_ERR_CNT, 24, 8⟩
def TICK_ERR_CNT_NR : Fld := ⟨TICK_ERR_CNT, 16, 8⟩
def TICK_ERR_CNT_ABN : Fld := ⟨TICK_ERR_CNT, 8, 8⟩
def TICK_ERR_CNT_REJ : Fld := ⟨TICK_ERR_CNT, 0, 8⟩

/-! ## CE -/
def CE_CMD (a : Nat) : Nat := 0x4020000 + 0x400 * a
def CE_CMD_OP (a : Nat) : Fld := ⟨CE_CMD a, 24, 8⟩
def CE_CMD_ARG (a : Nat) : Fld := ⟨CE_CMD a, 0, 24⟩
def CE_CMD_STATUS (a : Nat) : Nat := 0x4020004 + 0x400 * a
def CE_CMD_STATUS_BUSY (a : Nat) : Fld := ⟨CE_CMD_STATUS a, 31, 1⟩
def CE_CMD_STATUS_SEQ (a : Nat) : Fld := ⟨CE_CMD_STATUS a, 16, 8⟩
def CE_CMD_STATUS_DROPPED (a : Nat) : Fld := ⟨CE_CMD_STATUS a, 8, 1⟩
def CE_CMD_STATUS_CODE (a : Nat) : Fld := ⟨CE_CMD_STATUS a, 0, 3⟩
def CE_STATUS (a : Nat) : Nat := 0x4020010 + 0x400 * a
def CE_STATUS_DBG_TOUCHED (a : Nat) : Fld := ⟨CE_STATUS a, 9, 1⟩
def CE_STATUS_USED (a : Nat) : Fld := ⟨CE_STATUS a, 8, 1⟩
def CE_STATUS_ACTIVE_CTX (a : Nat) : Fld := ⟨CE_STATUS a, 4, 4⟩
def CE_STATUS_STATE (a : Nat) : Fld := ⟨CE_STATUS a, 0, 3⟩
def CE_FAULT (a : Nat) : Nat := 0x4020014 + 0x400 * a
def CE_FAULT_GROUP (a : Nat) : Fld := ⟨CE_FAULT a, 16, 4⟩
def CE_FAULT_CMP1 (a : Nat) : Fld := ⟨CE_FAULT a, 13, 1⟩
def CE_FAULT_CMP0 (a : Nat) : Fld := ⟨CE_FAULT a, 12, 1⟩
def CE_FAULT_FIRST (a : Nat) : Fld := ⟨CE_FAULT a, 8, 4⟩
def CE_FAULT_REPLAY (a : Nat) : Fld := ⟨CE_FAULT a, 3, 1⟩
def CE_FAULT_AGREE (a : Nat) : Fld := ⟨CE_FAULT a, 2, 1⟩
def CE_FAULT_COMP_DISAGREE (a : Nat) : Fld := ⟨CE_FAULT a, 1, 1⟩
def CE_FAULT_COMPARE (a : Nat) : Fld := ⟨CE_FAULT a, 0, 1⟩
def CE_FAULT_PC (a : Nat) : Nat := 0x4020018 + 0x400 * a
def CE_FAULT_PC_CTX (a : Nat) : Fld := ⟨CE_FAULT_PC a, 16, 4⟩
def CE_FAULT_PC_BANK (a : Nat) : Fld := ⟨CE_FAULT_PC a, 15, 1⟩
def CE_FAULT_PC_PC (a : Nat) : Fld := ⟨CE_FAULT_PC a, 0, 15⟩
def CE_ECC_CNT (a : Nat) : Nat := 0x4020020 + 0x400 * a
def CE_ECC_CNT_CORR (a : Nat) : Fld := ⟨CE_ECC_CNT a, 0, 16⟩
def CE_AGREE_STAT (a : Nat) : Nat := 0x4020024 + 0x400 * a
def CE_AGREE_STAT_DIFF_SEEN (a : Nat) : Fld := ⟨CE_AGREE_STAT a, 16, 5⟩
def CE_AGREE_STAT_MAX_DIFF (a : Nat) : Fld := ⟨CE_AGREE_STAT a, 8, 4⟩
def CE_AGREE_STAT_FAULT (a : Nat) : Fld := ⟨CE_AGREE_STAT a, 0, 5⟩
def CE_TEST (a : Nat) : Nat := 0x4020028 + 0x400 * a
def CE_TEST_ROUND (a : Nat) : Fld := ⟨CE_TEST a, 24, 8⟩
def CE_TEST_DONE (a : Nat) : Fld := ⟨CE_TEST a, 23, 1⟩
def CE_TEST_PASS (a : Nat) : Fld := ⟨CE_TEST a, 22, 1⟩
def CE_TEST_FALSE_1 (a : Nat) : Fld := ⟨CE_TEST a, 21, 1⟩
def CE_TEST_FALSE_0 (a : Nat) : Fld := ⟨CE_TEST a, 20, 1⟩
def CE_TEST_CMP1_MISS (a : Nat) : Fld := ⟨CE_TEST a, 9, 9⟩
def CE_TEST_CMP0_MISS (a : Nat) : Fld := ⟨CE_TEST a, 0, 9⟩
def CE_DBG_DATA (a : Nat) : Nat := 0x4020030 + 0x400 * a
def CE_DBG_DATA_DATA (a : Nat) : Fld := ⟨CE_DBG_DATA a, 0, 32⟩
def CE_REPLAY_STAT (a : Nat) : Nat := 0x4020034 + 0x400 * a
def CE_REPLAY_STAT_DEPTH (a : Nat) : Fld := ⟨CE_REPLAY_STAT a, 0, 7⟩
def CE_BP (a b : Nat) : Nat := 0x4020040 + 0x400 * a + 0x4 * b
def CE_BP_EN (a b : Nat) : Fld := ⟨CE_BP a b, 31, 1⟩
def CE_BP_ANY_CTX (a b : Nat) : Fld := ⟨CE_BP a b, 20, 1⟩
def CE_BP_CTX (a b : Nat) : Fld := ⟨CE_BP a b, 16, 4⟩
def CE_BP_PC (a b : Nat) : Fld := ⟨CE_BP a b, 0, 15⟩
def CE_SCRUB_CFG : Nat := 0x4028000
def CE_SCRUB_CFG_EN : Fld := ⟨CE_SCRUB_CFG, 8, 1⟩
def CE_SCRUB_CFG_PERIOD_S : Fld := ⟨CE_SCRUB_CFG, 0, 8⟩
def CE_MEM_ERR : Nat := 0x4028004
def CE_MEM_ERR_ADDR : Fld := ⟨CE_MEM_ERR, 0, 32⟩
def CE_MEM_ERR_INFO : Nat := 0x4028008
def CE_MEM_ERR_INFO_MASTER : Fld := ⟨CE_MEM_ERR_INFO, 20, 4⟩
def CE_MEM_ERR_INFO_KIND : Fld := ⟨CE_MEM_ERR_INFO, 16, 2⟩
def CE_MEM_ERR_INFO_ENGINE : Fld := ⟨CE_MEM_ERR_INFO, 8, 5⟩
def CE_MEM_ERR_INFO_VALID : Fld := ⟨CE_MEM_ERR_INFO, 3, 1⟩
def CE_MEM_ERR_INFO_MEM : Fld := ⟨CE_MEM_ERR_INFO, 0, 3⟩
def CE_MEM_CORR_CNT : Nat := 0x402800c
def CE_MEM_CORR_CNT_CORR : Fld := ⟨CE_MEM_CORR_CNT, 0, 32⟩
def CE_TRAP_0 (a : Nat) : Nat := 0x4020060 + 0x400 * a
def CE_TRAP_0_CODE (a : Nat) : Fld := ⟨CE_TRAP_0 a, 16, 16⟩
def CE_TRAP_0_CTX (a : Nat) : Fld := ⟨CE_TRAP_0 a, 12, 4⟩
def CE_TRAP_0_REACT (a : Nat) : Fld := ⟨CE_TRAP_0 a, 10, 2⟩
def CE_TRAP_0_CAUSE (a : Nat) : Fld := ⟨CE_TRAP_0 a, 0, 4⟩
def CE_TRAP_1 (a : Nat) : Nat := 0x4020064 + 0x400 * a
def CE_TRAP_1_COUNT (a : Nat) : Fld := ⟨CE_TRAP_1 a, 24, 8⟩
def CE_TRAP_1_AREA (a : Nat) : Fld := ⟨CE_TRAP_1 a, 20, 4⟩
def CE_TRAP_1_BANK (a : Nat) : Fld := ⟨CE_TRAP_1 a, 15, 1⟩
def CE_TRAP_1_PC (a : Nat) : Fld := ⟨CE_TRAP_1 a, 0, 15⟩
def CE_TRAP_2 (a : Nat) : Nat := 0x4020068 + 0x400 * a
def CE_TRAP_2_ADDR (a : Nat) : Fld := ⟨CE_TRAP_2 a, 0, 32⟩

/-! ## TASK -/
def TASK_CMD : Nat := 0x4038000
def TASK_CMD_OP : Fld := ⟨TASK_CMD, 24, 8⟩
def TASK_CMD_ARG : Fld := ⟨TASK_CMD, 0, 24⟩
def TASK_CMD_STATUS : Nat := 0x4038004
def TASK_CMD_STATUS_BUSY : Fld := ⟨TASK_CMD_STATUS, 31, 1⟩
def TASK_CMD_STATUS_SEQ : Fld := ⟨TASK_CMD_STATUS, 16, 8⟩
def TASK_CMD_STATUS_DROPPED : Fld := ⟨TASK_CMD_STATUS, 8, 1⟩
def TASK_CMD_STATUS_CODE : Fld := ⟨TASK_CMD_STATUS, 0, 3⟩
def TASK_GRID_CFG : Nat := 0x4038010
def TASK_GRID_CFG_SLACK : Fld := ⟨TASK_GRID_CFG, 0, 14⟩
def TASK_GRID_STAT : Nat := 0x4038014
def TASK_GRID_STAT_UNAGREED : Fld := ⟨TASK_GRID_STAT, 16, 16⟩
def TASK_GRID_STAT_SUPPRESSED : Fld := ⟨TASK_GRID_STAT, 0, 16⟩
def TASK_TEXP (a : Nat) : Nat := 0x4038100 + 0x4 * a
def TASK_TEXP_EN (a : Nat) : Fld := ⟨TASK_TEXP a, 31, 1⟩
def TASK_TEXP_CELL (a : Nat) : Fld := ⟨TASK_TEXP a, 0, 12⟩
def TASK_ROUTE (a : Nat) : Nat := 0x4039000 + 0x4 * a
def TASK_ROUTE_EN (a : Nat) : Fld := ⟨TASK_ROUTE a, 31, 1⟩
def TASK_ROUTE_LOCAL (a : Nat) : Fld := ⟨TASK_ROUTE a, 30, 1⟩
def TASK_ROUTE_ENG (a : Nat) : Fld := ⟨TASK_ROUTE a, 8, 5⟩
def TASK_ROUTE_CTX (a : Nat) : Fld := ⟨TASK_ROUTE a, 0, 4⟩
def TASK_CFG (a b : Nat) : Nat := 0x4030000 + 0x400 * a + 0x20 * b
def TASK_CFG_EN (a b : Nat) : Fld := ⟨TASK_CFG a b, 31, 1⟩
def TASK_CFG_KIND (a b : Nat) : Fld := ⟨TASK_CFG a b, 29, 2⟩
def TASK_CFG_DL_KIND (a b : Nat) : Fld := ⟨TASK_CFG a b, 27, 2⟩
def TASK_CFG_OVR_REACT (a b : Nat) : Fld := ⟨TASK_CFG a b, 25, 2⟩
def TASK_CFG_TRAP_REACT (a b : Nat) : Fld := ⟨TASK_CFG a b, 23, 2⟩
def TASK_CFG_DIV0_SAT (a b : Nat) : Fld := ⟨TASK_CFG a b, 22, 1⟩
def TASK_CFG_ENTRY (a b : Nat) : Fld := ⟨TASK_CFG a b, 0, 15⟩
def TASK_PER (a b : Nat) : Nat := 0x4030004 + 0x400 * a + 0x20 * b
def TASK_PER_PERIOD_N (a b : Nat) : Fld := ⟨TASK_PER a b, 16, 11⟩
def TASK_PER_PHASE (a b : Nat) : Fld := ⟨TASK_PER a b, 0, 10⟩
def TASK_DL (a b : Nat) : Nat := 0x4030008 + 0x400 * a + 0x20 * b
def TASK_DL_DL_US (a b : Nat) : Fld := ⟨TASK_DL a b, 0, 15⟩
def TASK_STAT (a b : Nat) : Nat := 0x403000c + 0x400 * a + 0x20 * b
def TASK_STAT_LATCH (a b : Nat) : Fld := ⟨TASK_STAT a b, 16, 1⟩
def TASK_STAT_STATE (a b : Nat) : Fld := ⟨TASK_STAT a b, 0, 2⟩
def TASK_CNT (a b : Nat) : Nat := 0x4030010 + 0x400 * a + 0x20 * b
def TASK_CNT_OVR (a b : Nat) : Fld := ⟨TASK_CNT a b, 24, 8⟩
def TASK_CNT_SKIP (a b : Nat) : Fld := ⟨TASK_CNT a b, 16, 8⟩
def TASK_CNT_DROP (a b : Nat) : Fld := ⟨TASK_CNT a b, 8, 8⟩
def TASK_CNT_ABORTED (a b : Nat) : Fld := ⟨TASK_CNT a b, 0, 8⟩
def TASK_MAXRUN (a b : Nat) : Nat := 0x4030014 + 0x400 * a + 0x20 * b
def TASK_MAXRUN_MAX_CYC (a b : Nat) : Fld := ⟨TASK_MAXRUN a b, 0, 32⟩
def TASK_ENG_CFG (a : Nat) : Nat := 0x4030200 + 0x400 * a
def TASK_ENG_CFG_VOTED (a : Nat) : Fld := ⟨TASK_ENG_CFG a, 8, 1⟩
def TASK_ENG_CFG_FAULT_EN (a : Nat) : Fld := ⟨TASK_ENG_CFG a, 4, 1⟩
def TASK_ENG_CFG_FAULT_CTX (a : Nat) : Fld := ⟨TASK_ENG_CFG a, 0, 4⟩
def TASK_ENG_START (a : Nat) : Nat := 0x4030204 + 0x400 * a
def TASK_ENG_START_WARM_EN (a : Nat) : Fld := ⟨TASK_ENG_START a, 31, 1⟩
def TASK_ENG_START_WARM_IDX (a : Nat) : Fld := ⟨TASK_ENG_START a, 16, 15⟩
def TASK_ENG_START_COLD_EN (a : Nat) : Fld := ⟨TASK_ENG_START a, 15, 1⟩
def TASK_ENG_START_COLD_IDX (a : Nat) : Fld := ⟨TASK_ENG_START a, 0, 15⟩
def TASK_ENG_MIG (a : Nat) : Nat := 0x4030208 + 0x400 * a
def TASK_ENG_MIG_MIG_EN (a : Nat) : Fld := ⟨TASK_ENG_MIG a, 15, 1⟩
def TASK_ENG_MIG_MIG_IDX (a : Nat) : Fld := ⟨TASK_ENG_MIG a, 0, 15⟩
def TASK_ENG_RETIRED_LO (a : Nat) : Nat := 0x4030210 + 0x400 * a
def TASK_ENG_RETIRED_LO_COUNT (a : Nat) : Fld := ⟨TASK_ENG_RETIRED_LO a, 0, 32⟩
def TASK_ENG_RETIRED_HI (a : Nat) : Nat := 0x4030214 + 0x400 * a
def TASK_ENG_RETIRED_HI_COUNT (a : Nat) : Fld := ⟨TASK_ENG_RETIRED_HI a, 0, 32⟩

/-! ## IMG -/
def IMG_CMD : Nat := 0x4040000
def IMG_CMD_OP : Fld := ⟨IMG_CMD, 24, 8⟩
def IMG_CMD_ARG : Fld := ⟨IMG_CMD, 0, 24⟩
def IMG_CMD_STATUS : Nat := 0x4040004
def IMG_CMD_STATUS_BUSY : Fld := ⟨IMG_CMD_STATUS, 31, 1⟩
def IMG_CMD_STATUS_SEQ : Fld := ⟨IMG_CMD_STATUS, 16, 8⟩
def IMG_CMD_STATUS_DROPPED : Fld := ⟨IMG_CMD_STATUS, 8, 1⟩
def IMG_CMD_STATUS_CODE : Fld := ⟨IMG_CMD_STATUS, 0, 3⟩
def IMG_SPLIT : Nat := 0x4040010
def IMG_SPLIT_N_IN : Fld := ⟨IMG_SPLIT, 18, 9⟩
def IMG_SPLIT_S_IN : Fld := ⟨IMG_SPLIT, 9, 9⟩
def IMG_SPLIT_A_IN : Fld := ⟨IMG_SPLIT, 0, 9⟩
def IMG_STAT : Nat := 0x4040014
def IMG_STAT_FORCE_CNT : Fld := ⟨IMG_STAT, 16, 11⟩
def IMG_STAT_FORCE_PEND : Fld := ⟨IMG_STAT, 1, 1⟩
def IMG_STAT_FORCE_ACTIVE : Fld := ⟨IMG_STAT, 0, 1⟩
def IMG_P_SEQ : Nat := 0x4040018
def IMG_P_SEQ_SEQ : Fld := ⟨IMG_P_SEQ, 0, 32⟩
def IMG_FORCE_ARG0 : Nat := 0x4040020
def IMG_FORCE_ARG0_EN : Fld := ⟨IMG_FORCE_ARG0, 31, 1⟩
def IMG_FORCE_ARG0_WIDTH : Fld := ⟨IMG_FORCE_ARG0, 29, 2⟩
def IMG_FORCE_ARG0_AREA : Fld := ⟨IMG_FORCE_ARG0, 24, 4⟩
def IMG_FORCE_ARG0_ADDR : Fld := ⟨IMG_FORCE_ARG0, 0, 21⟩
def IMG_FORCE_ARG1 : Nat := 0x4040024
def IMG_FORCE_ARG1_VALUE : Fld := ⟨IMG_FORCE_ARG1, 0, 32⟩
def IMG_FORCE_CRC : Nat := 0x4040028
def IMG_FORCE_CRC_CRC : Fld := ⟨IMG_FORCE_CRC, 0, 32⟩
def IMG_OLC_SRC : Nat := 0x4040030
def IMG_OLC_SRC_ADDR : Fld := ⟨IMG_OLC_SRC, 0, 23⟩
def IMG_OLC_TICK_LO : Nat := 0x4040034
def IMG_OLC_TICK_LO_TICK : Fld := ⟨IMG_OLC_TICK_LO, 0, 32⟩
def IMG_OLC_TICK_HI : Nat := 0x4040038
def IMG_OLC_TICK_HI_TICK : Fld := ⟨IMG_OLC_TICK_HI, 0, 32⟩
def IMG_OLC_STAT : Nat := 0x404003c
def IMG_OLC_STAT_CHANGE_NO : Fld := ⟨IMG_OLC_STAT, 16, 16⟩
def IMG_OLC_STAT_REASON : Fld := ⟨IMG_OLC_STAT, 8, 4⟩
def IMG_OLC_STAT_STATE : Fld := ⟨IMG_OLC_STAT, 0, 3⟩
def IMG_BANK : Nat := 0x4040040
def IMG_BANK_CUR : Fld := ⟨IMG_BANK, 0, 24⟩
def IMG_OLC_DRAIN : Nat := 0x4040044
def IMG_OLC_DRAIN_ENG : Fld := ⟨IMG_OLC_DRAIN, 0, 24⟩
def IMG_COPYA (a : Nat) : Nat := 0x4040400 + 0x8 * a
def IMG_COPYA_EN (a : Nat) : Fld := ⟨IMG_COPYA a, 31, 1⟩
def IMG_COPYA_DIR (a : Nat) : Fld := ⟨IMG_COPYA a, 30, 1⟩
def IMG_COPYA_LOC_OFF (a : Nat) : Fld := ⟨IMG_COPYA a, 12, 17⟩
def IMG_COPYA_LEN (a : Nat) : Fld := ⟨IMG_COPYA a, 0, 12⟩
def IMG_COPYB (a : Nat) : Nat := 0x4040404 + 0x8 * a
def IMG_COPYB_AREA (a : Nat) : Fld := ⟨IMG_COPYB a, 18, 2⟩
def IMG_COPYB_AREA_OFF (a : Nat) : Fld := ⟨IMG_COPYB a, 0, 18⟩
def IMG_FORCE_TAB_W0 (a : Nat) : Nat := 0x4041000 + 0x8 * a
def IMG_FORCE_TAB_W0_ENTRY (a : Nat) : Fld := ⟨IMG_FORCE_TAB_W0 a, 0, 32⟩
def IMG_FORCE_TAB_W1 (a : Nat) : Nat := 0x4041004 + 0x8 * a
def IMG_FORCE_TAB_W1_ENTRY (a : Nat) : Fld := ⟨IMG_FORCE_TAB_W1 a, 0, 32⟩

/-! ## KL -/
def KL_CMD : Nat := 0x4050000
def KL_CMD_OP : Fld := ⟨KL_CMD, 24, 8⟩
def KL_CMD_ARG : Fld := ⟨KL_CMD, 0, 24⟩
def KL_CMD_STATUS : Nat := 0x4050004
def KL_CMD_STATUS_BUSY : Fld := ⟨KL_CMD_STATUS, 31, 1⟩
def KL_CMD_STATUS_SEQ : Fld := ⟨KL_CMD_STATUS, 16, 8⟩
def KL_CMD_STATUS_DROPPED : Fld := ⟨KL_CMD_STATUS, 8, 1⟩
def KL_CMD_STATUS_CODE : Fld := ⟨KL_CMD_STATUS, 0, 3⟩
def KL_CFG (a : Nat) : Nat := 0x4050100 + 0x40 * a
def KL_CFG_XR (a : Nat) : Fld := ⟨KL_CFG a, 8, 1⟩
def KL_CFG_INV (a : Nat) : Fld := ⟨KL_CFG a, 4, 4⟩
def KL_CFG_EN (a : Nat) : Fld := ⟨KL_CFG a, 0, 1⟩
def KL_STAT (a : Nat) : Nat := 0x4050104 + 0x40 * a
def KL_STAT_CH_LOCK (a : Nat) : Fld := ⟨KL_STAT a, 16, 4⟩
def KL_STAT_PEER_PORT (a : Nat) : Fld := ⟨KL_STAT a, 12, 2⟩
def KL_STAT_PEER_ROLE (a : Nat) : Fld := ⟨KL_STAT a, 8, 3⟩
def KL_STAT_STATE (a : Nat) : Fld := ⟨KL_STAT a, 0, 3⟩
def KL_ERR (a : Nat) : Nat := 0x4050108 + 0x40 * a
def KL_ERR_CRC (a : Nat) : Fld := ⟨KL_ERR a, 16, 16⟩
def KL_ERR_REPLAY (a : Nat) : Fld := ⟨KL_ERR a, 8, 8⟩
def KL_ERR_RETRAIN (a : Nat) : Fld := ⟨KL_ERR a, 0, 8⟩
def KL_DELAY (a : Nat) : Nat := 0x405010c + 0x40 * a
def KL_DELAY_CAL (a : Nat) : Fld := ⟨KL_DELAY a, 31, 1⟩
def KL_DELAY_DELAY_PS (a : Nat) : Fld := ⟨KL_DELAY a, 0, 20⟩
def KL_PEER (a : Nat) : Nat := 0x4050110 + 0x40 * a
def KL_PEER_DEV_ID (a : Nat) : Fld := ⟨KL_PEER a, 0, 32⟩

/-! ## TRI -/
def TRI_CMD : Nat := 0x4060000
def TRI_CMD_OP : Fld := ⟨TRI_CMD, 24, 8⟩
def TRI_CMD_ARG : Fld := ⟨TRI_CMD, 0, 24⟩
def TRI_CMD_STATUS : Nat := 0x4060004
def TRI_CMD_STATUS_BUSY : Fld := ⟨TRI_CMD_STATUS, 31, 1⟩
def TRI_CMD_STATUS_SEQ : Fld := ⟨TRI_CMD_STATUS, 16, 8⟩
def TRI_CMD_STATUS_DROPPED : Fld := ⟨TRI_CMD_STATUS, 8, 1⟩
def TRI_CMD_STATUS_CODE : Fld := ⟨TRI_CMD_STATUS, 0, 3⟩
def TRI_CFG : Nat := 0x4060010
def TRI_CFG_MIN_LIMIT : Fld := ⟨TRI_CFG, 12, 4⟩
def TRI_CFG_UPD_2OO2 : Fld := ⟨TRI_CFG, 4, 1⟩
def TRI_CFG_AUTO_RESET : Fld := ⟨TRI_CFG, 3, 1⟩
def TRI_CFG_AUTO_READMIT : Fld := ⟨TRI_CFG, 2, 1⟩
def TRI_CFG_ALLOW_1OO1 : Fld := ⟨TRI_CFG, 1, 1⟩
def TRI_ALIGN : Nat := 0x4060014
def TRI_ALIGN_C_NS : Fld := ⟨TRI_ALIGN, 16, 16⟩
def TRI_ALIGN_LIMIT_NS : Fld := ⟨TRI_ALIGN, 0, 12⟩
def TRI_LANE_STAT : Nat := 0x4060018
def TRI_LANE_STAT_EXCL_CAUSE : Fld := ⟨TRI_LANE_STAT, 28, 4⟩
def TRI_LANE_STAT_MIN_CONSEC : Fld := ⟨TRI_LANE_STAT, 24, 4⟩
def TRI_LANE_STAT_SERVICE : Fld := ⟨TRI_LANE_STAT, 20, 2⟩
def TRI_LANE_STAT_STATE_C : Fld := ⟨TRI_LANE_STAT, 16, 3⟩
def TRI_LANE_STAT_STATE_B : Fld := ⟨TRI_LANE_STAT, 12, 3⟩
def TRI_LANE_STAT_STATE_A : Fld := ⟨TRI_LANE_STAT, 8, 3⟩
def TRI_LANE_STAT_OWN_LANE : Fld := ⟨TRI_LANE_STAT, 4, 2⟩
def TRI_LANE_STAT_STATE : Fld := ⟨TRI_LANE_STAT, 0, 3⟩
def TRI_OFFSET (a : Nat) : Nat := 0x4060020 + 0x4 * a
def TRI_OFFSET_OFFSET_NS (a : Nat) : Fld := ⟨TRI_OFFSET a, 0, 32⟩
def TRI_JOIN_CRC : Nat := 0x4060030
def TRI_JOIN_CRC_CRC : Fld := ⟨TRI_JOIN_CRC, 0, 32⟩
def TRI_HOP_STAT : Nat := 0x4060034
def TRI_HOP_STAT_DONE_US : Fld := ⟨TRI_HOP_STAT, 16, 9⟩
def TRI_HOP_STAT_NEED_US : Fld := ⟨TRI_HOP_STAT, 0, 9⟩
def TRI_CNT : Nat := 0x4060038
def TRI_CNT_MINORITY : Fld := ⟨TRI_CNT, 24, 8⟩
def TRI_CNT_ABSENT : Fld := ⟨TRI_CNT, 16, 8⟩
def TRI_CNT_NOMAJ : Fld := ⟨TRI_CNT, 8, 8⟩
def TRI_CNT_DISC : Fld := ⟨TRI_CNT, 0, 8⟩
def TRI_RDM_CFG : Nat := 0x4060040
def TRI_RDM_CFG_FINAL_KIB : Fld := ⟨TRI_RDM_CFG, 16, 10⟩
def TRI_RDM_CFG_TIMEOUT_TICKS : Fld := ⟨TRI_RDM_CFG, 0, 16⟩
def TRI_RDM_STAT : Nat := 0x4060044
def TRI_RDM_STAT_PHASE : Fld := ⟨TRI_RDM_STAT, 30, 2⟩
def TRI_RDM_STAT_ATTEMPTS : Fld := ⟨TRI_RDM_STAT, 26, 4⟩
def TRI_RDM_STAT_KIB_LEFT : Fld := ⟨TRI_RDM_STAT, 0, 14⟩
def TRI_STATE_DIG : Nat := 0x4060048
def TRI_STATE_DIG_DIGEST : Fld := ⟨TRI_STATE_DIG, 0, 32⟩
def TRI_SHADOW_DIFF : Nat := 0x406004c
def TRI_SHADOW_DIFF_COUNT : Fld := ⟨TRI_SHADOW_DIFF, 0, 32⟩
def TRI_DI_CLASS_0 : Nat := 0x4060050
def TRI_DI_CLASS_0_CLASS : Fld := ⟨TRI_DI_CLASS_0, 0, 32⟩
def TRI_DI_CLASS_1 : Nat := 0x4060054
def TRI_DI_CLASS_1_CLASS : Fld := ⟨TRI_DI_CLASS_1, 0, 32⟩
def TRI_DI_RULE2 : Nat := 0x4060058
def TRI_DI_RULE2_RULE2 : Fld := ⟨TRI_DI_RULE2, 0, 32⟩
def TRI_HMAPA (a : Nat) : Nat := 0x4060400 + 0x8 * a
def TRI_HMAPA_EN (a : Nat) : Fld := ⟨TRI_HMAPA a, 31, 1⟩
def TRI_HMAPA_CLASS (a : Nat) : Fld := ⟨TRI_HMAPA a, 29, 2⟩
def TRI_HMAPA_AREA (a : Nat) : Fld := ⟨TRI_HMAPA a, 27, 2⟩
def TRI_HMAPA_OFF (a : Nat) : Fld := ⟨TRI_HMAPA a, 0, 18⟩
def TRI_HMAPB (a : Nat) : Nat := 0x4060404 + 0x8 * a
def TRI_HMAPB_TYPE (a : Nat) : Fld := ⟨TRI_HMAPB a, 29, 3⟩
def TRI_HMAPB_OWNER (a : Nat) : Fld := ⟨TRI_HMAPB a, 27, 2⟩
def TRI_HMAPB_RULE2 (a : Nat) : Fld := ⟨TRI_HMAPB a, 26, 1⟩
def TRI_HMAPB_SUBST (a : Nat) : Fld := ⟨TRI_HMAPB a, 25, 1⟩
def TRI_HMAPB_STAT (a : Nat) : Fld := ⟨TRI_HMAPB a, 24, 1⟩
def TRI_HMAPB_LEN (a : Nat) : Fld := ⟨TRI_HMAPB a, 0, 19⟩
def TRI_VMAP (a : Nat) : Nat := 0x4060800 + 0x4 * a
def TRI_VMAP_EN (a : Nat) : Fld := ⟨TRI_VMAP a, 31, 1⟩
def TRI_VMAP_SAFETY (a : Nat) : Fld := ⟨TRI_VMAP a, 30, 1⟩
def TRI_VMAP_AREA (a : Nat) : Fld := ⟨TRI_VMAP a, 28, 2⟩
def TRI_VMAP_LEN_KIB (a : Nat) : Fld := ⟨TRI_VMAP a, 9, 9⟩
def TRI_VMAP_OFF_KIB (a : Nat) : Fld := ⟨TRI_VMAP a, 0, 9⟩

/-! ## FO -/
def FO_CMD : Nat := 0x4070000
def FO_CMD_OP : Fld := ⟨FO_CMD, 24, 8⟩
def FO_CMD_ARG : Fld := ⟨FO_CMD, 0, 24⟩
def FO_CMD_STATUS : Nat := 0x4070004
def FO_CMD_STATUS_BUSY : Fld := ⟨FO_CMD_STATUS, 31, 1⟩
def FO_CMD_STATUS_SEQ : Fld := ⟨FO_CMD_STATUS, 16, 8⟩
def FO_CMD_STATUS_DROPPED : Fld := ⟨FO_CMD_STATUS, 8, 1⟩
def FO_CMD_STATUS_CODE : Fld := ⟨FO_CMD_STATUS, 0, 3⟩
def FO_CFG : Nat := 0x4070010
def FO_CFG_EN : Fld := ⟨FO_CFG, 31, 1⟩
def FO_CFG_ST_EN : Fld := ⟨FO_CFG, 30, 1⟩
def FO_CFG_SC : Fld := ⟨FO_CFG, 29, 1⟩
def FO_CFG_CELLS : Fld := ⟨FO_CFG, 28, 1⟩
def FO_CFG_UNIT : Fld := ⟨FO_CFG, 26, 2⟩
def FO_CFG_HB_MISS : Fld := ⟨FO_CFG, 20, 2⟩
def FO_CFG_HOLD_TICKS : Fld := ⟨FO_CFG, 8, 8⟩
def FO_FID_A : Nat := 0x4070014
def FO_FID_A_HB_U2 : Fld := ⟨FO_FID_A, 16, 10⟩
def FO_FID_A_HB_U1 : Fld := ⟨FO_FID_A, 0, 10⟩
def FO_FID_B : Nat := 0x4070018
def FO_FID_B_GRANT : Fld := ⟨FO_FID_B, 16, 10⟩
def FO_FID_B_ECHO : Fld := ⟨FO_FID_B, 0, 10⟩
def FO_STAT : Nat := 0x4070020
def FO_STAT_ST_AGE : Fld := ⟨FO_STAT, 24, 8⟩
def FO_STAT_ST_EXPIRED : Fld := ⟨FO_STAT, 17, 1⟩
def FO_STAT_ST_RCVD : Fld := ⟨FO_STAT, 16, 1⟩
def FO_STAT_ARB : Fld := ⟨FO_STAT, 10, 1⟩
def FO_STAT_YIELD : Fld := ⟨FO_STAT, 9, 1⟩
def FO_STAT_RESYNC : Fld := ⟨FO_STAT, 8, 1⟩
def FO_STAT_PEER_SEEN : Fld := ⟨FO_STAT, 7, 1⟩
def FO_STAT_PEER_STATE : Fld := ⟨FO_STAT, 4, 3⟩
def FO_STAT_STATE : Fld := ⟨FO_STAT, 0, 3⟩
def FO_CLAIM : Nat := 0x4070024
def FO_CLAIM_CLAIM : Fld := ⟨FO_CLAIM, 0, 32⟩
def FO_HIGH_CLAIM : Nat := 0x4070028
def FO_HIGH_CLAIM_CLAIM : Fld := ⟨FO_HIGH_CLAIM, 0, 32⟩
def FO_COPY_STAT : Nat := 0x407002c
def FO_COPY_STAT_CSEQ : Fld := ⟨FO_COPY_STAT, 16, 16⟩
def FO_COPY_STAT_GRAN : Fld := ⟨FO_COPY_STAT, 0, 14⟩
def FO_CNT : Nat := 0x4070030
def FO_CNT_LATE : Fld := ⟨FO_CNT, 24, 8⟩
def FO_CNT_REJECT : Fld := ⟨FO_CNT, 16, 8⟩
def FO_CNT_GRANTS : Fld := ⟨FO_CNT, 8, 8⟩
def FO_CNT_SUBST : Fld := ⟨FO_CNT, 0, 8⟩
def FO_BUF : Nat := 0x4070034
def FO_BUF_SIZE_GR : Fld := ⟨FO_BUF, 16, 14⟩
def FO_BUF_BASE_GR : Fld := ⟨FO_BUF, 0, 15⟩
def FO_STN_BASE : Nat := 0x4070038
def FO_STN_BASE_OFF : Fld := ⟨FO_STN_BASE, 0, 18⟩
def FO_ARB_CFG : Nat := 0x4070040
def FO_ARB_CFG_PREF : Fld := ⟨FO_ARB_CFG, 24, 2⟩
def FO_ARB_CFG_CHK : Fld := ⟨FO_ARB_CFG, 16, 5⟩
def FO_ARB_CFG_START_WAIT : Fld := ⟨FO_ARB_CFG, 0, 8⟩
def FO_ARB_STAT : Nat := 0x4070044
def FO_ARB_STAT_MISS_U2 : Fld := ⟨FO_ARB_STAT, 24, 8⟩
def FO_ARB_STAT_MISS_U1 : Fld := ⟨FO_ARB_STAT, 16, 8⟩
def FO_ARB_STAT_ACTIVE_UNIT : Fld := ⟨FO_ARB_STAT, 0, 2⟩
def FO_ARB_CLAIM : Nat := 0x4070048
def FO_ARB_CLAIM_CLAIM : Fld := ⟨FO_ARB_CLAIM, 0, 32⟩
def FO_SREGA (a : Nat) : Nat := 0x4070100 + 0x8 * a
def FO_SREGA_EN (a : Nat) : Fld := ⟨FO_SREGA a, 31, 1⟩
def FO_SREGA_AREA (a : Nat) : Fld := ⟨FO_SREGA a, 24, 4⟩
def FO_SREGA_OFF_GR (a : Nat) : Fld := ⟨FO_SREGA a, 0, 15⟩
def FO_SREGB (a : Nat) : Nat := 0x4070104 + 0x8 * a
def FO_SREGB_LEN_GR (a : Nat) : Fld := ⟨FO_SREGB a, 0, 14⟩
def FO_STNA (a : Nat) : Nat := 0x4070200 + 0x8 * a
def FO_STNA_EN (a : Nat) : Fld := ⟨FO_STNA a, 31, 1⟩
def FO_STNA_SUBST (a : Nat) : Fld := ⟨FO_STNA a, 30, 1⟩
def FO_STNA_ECHO_FID (a : Nat) : Fld := ⟨FO_STNA a, 16, 10⟩
def FO_STNA_LEN_W (a : Nat) : Fld := ⟨FO_STNA a, 0, 12⟩
def FO_STNB (a : Nat) : Nat := 0x4070204 + 0x8 * a
def FO_STNB_OFF (a : Nat) : Fld := ⟨FO_STNB a, 0, 18⟩

/-! ## SB -/
def SB_CMD : Nat := 0x4080000
def SB_CMD_OP : Fld := ⟨SB_CMD, 24, 8⟩
def SB_CMD_ARG : Fld := ⟨SB_CMD, 0, 24⟩
def SB_CMD_STATUS : Nat := 0x4080004
def SB_CMD_STATUS_BUSY : Fld := ⟨SB_CMD_STATUS, 31, 1⟩
def SB_CMD_STATUS_SEQ : Fld := ⟨SB_CMD_STATUS, 16, 8⟩
def SB_CMD_STATUS_DROPPED : Fld := ⟨SB_CMD_STATUS, 8, 1⟩
def SB_CMD_STATUS_CODE : Fld := ⟨SB_CMD_STATUS, 0, 3⟩
def SB_CFG : Nat := 0x4080010
def SB_CFG_EN : Fld := ⟨SB_CFG, 31, 1⟩
def SB_CFG_LISTEN_ONLY : Fld := ⟨SB_CFG, 30, 1⟩
def SB_CFG_COLDSTART : Fld := ⟨SB_CFG, 29, 1⟩
def SB_CFG_TRUNC_LIMIT : Fld := ⟨SB_CFG, 16, 8⟩
def SB_CFG_NODE_ID : Fld := ⟨SB_CFG, 0, 6⟩
def SB_TIMING : Nat := 0x4080014
def SB_TIMING_ACC_WIN_NS : Fld := ⟨SB_TIMING, 16, 15⟩
def SB_TIMING_GUARD_NS : Fld := ⟨SB_TIMING, 0, 15⟩
def SB_REF_CFG : Nat := 0x4080018
def SB_REF_CFG_REF_GAP_US : Fld := ⟨SB_REF_CFG, 0, 8⟩
def SB_MASTERS : Nat := 0x408001c
def SB_MASTERS_RANK_3 : Fld := ⟨SB_MASTERS, 24, 6⟩
def SB_MASTERS_RANK_2 : Fld := ⟨SB_MASTERS, 16, 6⟩
def SB_MASTERS_RANK_1 : Fld := ⟨SB_MASTERS, 8, 6⟩
def SB_MASTERS_RANK_0 : Fld := ⟨SB_MASTERS, 0, 6⟩
def SB_MODE_CFG : Nat := 0x4080020
def SB_MODE_CFG_EN : Fld := ⟨SB_MODE_CFG, 31, 1⟩
def SB_MODE_CFG_REQ_OFF : Fld := ⟨SB_MODE_CFG, 0, 18⟩
def SB_MODE_REQ_LO : Nat := 0x4080024
def SB_MODE_REQ_LO_NODES : Fld := ⟨SB_MODE_REQ_LO, 0, 32⟩
def SB_MODE_REQ_HI : Nat := 0x4080028
def SB_MODE_REQ_HI_NODES : Fld := ⟨SB_MODE_REQ_HI, 0, 32⟩
def SB_STAT : Nat := 0x4080030
def SB_STAT_MASTER_ID : Fld := ⟨SB_STAT, 26, 6⟩
def SB_STAT_ACTIVE_SCHED : Fld := ⟨SB_STAT, 24, 2⟩
def SB_STAT_CYCLE : Fld := ⟨SB_STAT, 18, 6⟩
def SB_STAT_SENDER : Fld := ⟨SB_STAT, 16, 2⟩
def SB_STAT_IS_MASTER : Fld := ⟨SB_STAT, 15, 1⟩
def SB_STAT_GATE : Fld := ⟨SB_STAT, 14, 1⟩
def SB_STAT_TRUNC_CONSEC : Fld := ⟨SB_STAT, 8, 6⟩
def SB_STAT_STATE : Fld := ⟨SB_STAT, 0, 3⟩
def SB_MODE_STAT : Nat := 0x4080034
def SB_MODE_STAT_NEXT : Fld := ⟨SB_MODE_STAT, 28, 2⟩
def SB_MODE_STAT_ANNOUNCE : Fld := ⟨SB_MODE_STAT, 26, 2⟩
def SB_MODE_STAT_ACKED : Fld := ⟨SB_MODE_STAT, 25, 1⟩
def SB_MODE_STAT_SWITCHES : Fld := ⟨SB_MODE_STAT, 16, 8⟩
def SB_MODE_STAT_ABANDONS : Fld := ⟨SB_MODE_STAT, 8, 8⟩
def SB_MTX_COUNT : Nat := 0x4080038
def SB_MTX_COUNT_COUNT : Fld := ⟨SB_MTX_COUNT, 0, 32⟩
def SB_MTX_CFG : Nat := 0x4080040
def SB_MTX_CFG_INIT_SCHED : Fld := ⟨SB_MTX_CFG, 16, 2⟩
def SB_MTX_CFG_M_3 : Fld := ⟨SB_MTX_CFG, 12, 3⟩
def SB_MTX_CFG_M_2 : Fld := ⟨SB_MTX_CFG, 8, 3⟩
def SB_MTX_CFG_M_1 : Fld := ⟨SB_MTX_CFG, 4, 3⟩
def SB_MTX_CFG_M_0 : Fld := ⟨SB_MTX_CFG, 0, 3⟩
def SB_WIN_CNT : Nat := 0x4080044
def SB_WIN_CNT_CNT_3 : Fld := ⟨SB_WIN_CNT, 24, 7⟩
def SB_WIN_CNT_CNT_2 : Fld := ⟨SB_WIN_CNT, 16, 7⟩
def SB_WIN_CNT_CNT_1 : Fld := ⟨SB_WIN_CNT, 8, 7⟩
def SB_WIN_CNT_CNT_0 : Fld := ⟨SB_WIN_CNT, 0, 7⟩
def SB_REF_TIME_LO : Nat := 0x4080048
def SB_REF_TIME_LO_TIME : Fld := ⟨SB_REF_TIME_LO, 0, 32⟩
def SB_REF_TIME_HI : Nat := 0x408004c
def SB_REF_TIME_HI_TIME : Fld := ⟨SB_REF_TIME_HI, 0, 32⟩
def SB_ERR_0 : Nat := 0x4080050
def SB_ERR_0_HCRC : Fld := ⟨SB_ERR_0, 16, 16⟩
def SB_ERR_0_FCRC : Fld := ⟨SB_ERR_0, 0, 16⟩
def SB_ERR_1 : Nat := 0x4080054
def SB_ERR_1_CODE : Fld := ⟨SB_ERR_1, 16, 16⟩
def SB_ERR_1_TIMING : Fld := ⟨SB_ERR_1, 0, 16⟩
def SB_ERR_2 : Nat := 0x4080058
def SB_ERR_2_TRUNC : Fld := ⟨SB_ERR_2, 24, 8⟩
def SB_ERR_2_REF_MISS : Fld := ⟨SB_ERR_2, 16, 8⟩
def SB_ERR_2_ARB_LATE : Fld := ⟨SB_ERR_2, 8, 8⟩
def SB_ERR_2_COLL : Fld := ⟨SB_ERR_2, 0, 8⟩
def SB_FLAGS : Nat := 0x4080060
def SB_FLAGS_HALTED : Fld := ⟨SB_FLAGS, 6, 1⟩
def SB_FLAGS_COLL : Fld := ⟨SB_FLAGS, 5, 1⟩
def SB_FLAGS_MODE_ABANDONED : Fld := ⟨SB_FLAGS, 4, 1⟩
def SB_FLAGS_MODE_SWITCHED : Fld := ⟨SB_FLAGS, 3, 1⟩
def SB_FLAGS_MASTER_CHG : Fld := ⟨SB_FLAGS, 2, 1⟩
def SB_FLAGS_TRUNC : Fld := ⟨SB_FLAGS, 1, 1⟩
def SB_FLAGS_REF_MISS : Fld := ⟨SB_FLAGS, 0, 1⟩
def SB_CP (a : Nat) : Nat := 0x4080100 + 0x4 * a
def SB_CP_EN (a : Nat) : Fld := ⟨SB_CP a, 31, 1⟩
def SB_CP_ROUTE (a : Nat) : Fld := ⟨SB_CP a, 30, 1⟩
def SB_CP_SYNC (a : Nat) : Fld := ⟨SB_CP a, 29, 1⟩
def SB_CP_REP (a : Nat) : Fld := ⟨SB_CP a, 26, 3⟩
def SB_CP_BASE (a : Nat) : Fld := ⟨SB_CP a, 20, 6⟩
def SB_CP_OFF_US (a : Nat) : Fld := ⟨SB_CP a, 0, 15⟩
def SB_TRIG_W0 (a : Nat) : Nat := 0x4081000 + 0x10 * a
def SB_TRIG_W0_EN (a : Nat) : Fld := ⟨SB_TRIG_W0 a, 31, 1⟩
def SB_TRIG_W0_DIR (a : Nat) : Fld := ⟨SB_TRIG_W0 a, 30, 1⟩
def SB_TRIG_W0_SRC (a : Nat) : Fld := ⟨SB_TRIG_W0 a, 27, 3⟩
def SB_TRIG_W0_CMD (a : Nat) : Fld := ⟨SB_TRIG_W0 a, 26, 1⟩
def SB_TRIG_W0_FID (a : Nat) : Fld := ⟨SB_TRIG_W0 a, 16, 10⟩
def SB_TRIG_W0_REP (a : Nat) : Fld := ⟨SB_TRIG_W0 a, 11, 3⟩
def SB_TRIG_W0_BASE (a : Nat) : Fld := ⟨SB_TRIG_W0 a, 5, 6⟩
def SB_TRIG_W1 (a : Nat) : Nat := 0x4081004 + 0x10 * a
def SB_TRIG_W1_NODE (a : Nat) : Fld := ⟨SB_TRIG_W1 a, 25, 6⟩
def SB_TRIG_W1_LEN_U (a : Nat) : Fld := ⟨SB_TRIG_W1 a, 18, 7⟩
def SB_TRIG_W1_OFF (a : Nat) : Fld := ⟨SB_TRIG_W1 a, 0, 18⟩
def SB_TRIG_W2 (a : Nat) : Nat := 0x4081008 + 0x10 * a
def SB_TRIG_W2_LAST_OK (a : Nat) : Fld := ⟨SB_TRIG_W2 a, 31, 1⟩
def SB_TRIG_W2_AGE (a : Nat) : Fld := ⟨SB_TRIG_W2 a, 16, 8⟩
def SB_TRIG_W2_COUNT (a : Nat) : Fld := ⟨SB_TRIG_W2 a, 0, 16⟩
def SB_TRIG_W3 (a : Nat) : Nat := 0x408100c + 0x10 * a
def SB_WIN_A (a b : Nat) : Nat := 0x4082000 + 0x200 * a + 0x8 * b
def SB_WIN_A_TYPE (a b : Nat) : Fld := ⟨SB_WIN_A a b, 30, 2⟩
def SB_WIN_A_START_US (a b : Nat) : Fld := ⟨SB_WIN_A a b, 15, 15⟩
def SB_WIN_A_LEN_US (a b : Nat) : Fld := ⟨SB_WIN_A a b, 0, 15⟩
def SB_WIN_B (a b : Nat) : Nat := 0x4082004 + 0x200 * a + 0x8 * b
def SB_WIN_B_FID (a b : Nat) : Fld := ⟨SB_WIN_B a b, 16, 10⟩
def SB_WIN_B_FID_HI (a b : Nat) : Fld := ⟨SB_WIN_B a b, 0, 10⟩

/-! ## SBG -/
def SBG_CMD : Nat := 0x4090000
def SBG_CMD_OP : Fld := ⟨SBG_CMD, 24, 8⟩
def SBG_CMD_ARG : Fld := ⟨SBG_CMD, 0, 24⟩
def SBG_CMD_STATUS : Nat := 0x4090004
def SBG_CMD_STATUS_BUSY : Fld := ⟨SBG_CMD_STATUS, 31, 1⟩
def SBG_CMD_STATUS_SEQ : Fld := ⟨SBG_CMD_STATUS, 16, 8⟩
def SBG_CMD_STATUS_DROPPED : Fld := ⟨SBG_CMD_STATUS, 8, 1⟩
def SBG_CMD_STATUS_CODE : Fld := ⟨SBG_CMD_STATUS, 0, 3⟩
def SBG_CFG : Nat := 0x4090010
def SBG_CFG_EN : Fld := ⟨SBG_CFG, 31, 1⟩
def SBG_CFG_COLDSTART : Fld := ⟨SBG_CFG, 29, 1⟩
def SBG_CFG_NODE_ID : Fld := ⟨SBG_CFG, 0, 6⟩
def SBG_TIMING : Nat := 0x4090014
def SBG_TIMING_GUARD_NS : Fld := ⟨SBG_TIMING, 0, 15⟩
def SBG_MTX_CFG : Nat := 0x4090018
def SBG_MTX_CFG_M_3 : Fld := ⟨SBG_MTX_CFG, 12, 3⟩
def SBG_MTX_CFG_M_2 : Fld := ⟨SBG_MTX_CFG, 8, 3⟩
def SBG_MTX_CFG_M_1 : Fld := ⟨SBG_MTX_CFG, 4, 3⟩
def SBG_MTX_CFG_M_0 : Fld := ⟨SBG_MTX_CFG, 0, 3⟩
def SBG_WIN_CNT : Nat := 0x409001c
def SBG_WIN_CNT_CNT : Fld := ⟨SBG_WIN_CNT, 0, 32⟩
def SBG_SCHED_CRC : Nat := 0x4090020
def SBG_SCHED_CRC_CRC : Fld := ⟨SBG_SCHED_CRC, 0, 32⟩
def SBG_STAT : Nat := 0x4090024
def SBG_STAT_SCHED : Fld := ⟨SBG_STAT, 26, 2⟩
def SBG_STAT_CYCLE : Fld := ⟨SBG_STAT, 20, 6⟩
def SBG_STAT_GATE : Fld := ⟨SBG_STAT, 19, 1⟩
def SBG_STAT_CLOSE_CAUSE : Fld := ⟨SBG_STAT, 4, 4⟩
def SBG_STAT_STATE : Fld := ⟨SBG_STAT, 0, 3⟩
def SBG_CNT : Nat := 0x4090028
def SBG_CNT_BLOCKED : Fld := ⟨SBG_CNT, 16, 16⟩
def SBG_CNT_REFUSED : Fld := ⟨SBG_CNT, 8, 8⟩
def SBG_CNT_CUTS : Fld := ⟨SBG_CNT, 0, 8⟩
def SBG_WIN_A (a b : Nat) : Nat := 0x4092000 + 0x200 * a + 0x8 * b
def SBG_WIN_A_TYPE (a b : Nat) : Fld := ⟨SBG_WIN_A a b, 30, 2⟩
def SBG_WIN_A_START_US (a b : Nat) : Fld := ⟨SBG_WIN_A a b, 15, 15⟩
def SBG_WIN_A_LEN_US (a b : Nat) : Fld := ⟨SBG_WIN_A a b, 0, 15⟩
def SBG_WIN_B (a b : Nat) : Nat := 0x4092004 + 0x200 * a + 0x8 * b
def SBG_WIN_B_OWN (a b : Nat) : Fld := ⟨SBG_WIN_B a b, 31, 1⟩
def SBG_WIN_B_REP (a b : Nat) : Fld := ⟨SBG_WIN_B a b, 28, 3⟩
def SBG_WIN_B_BASE (a b : Nat) : Fld := ⟨SBG_WIN_B a b, 22, 6⟩

/-! ## ETH -/
def ETH_CMD : Nat := 0x40a0000
def ETH_CMD_OP : Fld := ⟨ETH_CMD, 24, 8⟩
def ETH_CMD_ARG : Fld := ⟨ETH_CMD, 0, 24⟩
def ETH_CMD_STATUS : Nat := 0x40a0004
def ETH_CMD_STATUS_BUSY : Fld := ⟨ETH_CMD_STATUS, 31, 1⟩
def ETH_CMD_STATUS_SEQ : Fld := ⟨ETH_CMD_STATUS, 16, 8⟩
def ETH_CMD_STATUS_DROPPED : Fld := ⟨ETH_CMD_STATUS, 8, 1⟩
def ETH_CMD_STATUS_CODE : Fld := ⟨ETH_CMD_STATUS, 0, 3⟩
def ETH_MDIO_ADDR : Nat := 0x40a0010
def ETH_MDIO_ADDR_C45 : Fld := ⟨ETH_MDIO_ADDR, 31, 1⟩
def ETH_MDIO_ADDR_PHYAD : Fld := ⟨ETH_MDIO_ADDR, 21, 5⟩
def ETH_MDIO_ADDR_DEVAD : Fld := ⟨ETH_MDIO_ADDR, 16, 5⟩
def ETH_MDIO_ADDR_REGAD : Fld := ⟨ETH_MDIO_ADDR, 0, 16⟩
def ETH_MDIO_DATA : Nat := 0x40a0014
def ETH_MDIO_DATA_DATA : Fld := ⟨ETH_MDIO_DATA, 0, 16⟩
def ETH_HQ : Nat := 0x40a0018
def ETH_HQ_EN : Fld := ⟨ETH_HQ, 31, 1⟩
def ETH_HQ_BASE : Fld := ⟨ETH_HQ, 0, 23⟩
def ETH_TSIMG : Nat := 0x40a001c
def ETH_TSIMG_EN : Fld := ⟨ETH_TSIMG, 31, 1⟩
def ETH_TSIMG_OFF : Fld := ⟨ETH_TSIMG, 0, 18⟩
def ETH_CFG (a : Nat) : Nat := 0x40a0100 + 0x40 * a
def ETH_CFG_EN (a : Nat) : Fld := ⟨ETH_CFG a, 31, 1⟩
def ETH_CFG_LATE_DROP (a : Nat) : Fld := ⟨ETH_CFG a, 30, 1⟩
def ETH_CFG_CAL_EN (a : Nat) : Fld := ⟨ETH_CFG a, 29, 1⟩
def ETH_CFG_HOSTQ (a : Nat) : Fld := ⟨ETH_CFG a, 28, 1⟩
def ETH_CFG_SPEED (a : Nat) : Fld := ⟨ETH_CFG a, 26, 2⟩
def ETH_CFG_LATE_TOL_NS (a : Nat) : Fld := ⟨ETH_CFG a, 0, 10⟩
def ETH_STAT (a : Nat) : Nat := 0x40a0104 + 0x40 * a
def ETH_STAT_CAL (a : Nat) : Fld := ⟨ETH_STAT a, 7, 1⟩
def ETH_STAT_CAL_FAIL (a : Nat) : Fld := ⟨ETH_STAT a, 6, 1⟩
def ETH_STAT_SENDING (a : Nat) : Fld := ⟨ETH_STAT a, 5, 1⟩
def ETH_STAT_LINK (a : Nat) : Fld := ⟨ETH_STAT a, 4, 1⟩
def ETH_STAT_SPEED (a : Nat) : Fld := ⟨ETH_STAT a, 0, 2⟩
def ETH_MAC_LO (a : Nat) : Nat := 0x40a0108 + 0x40 * a
def ETH_MAC_LO_MAC (a : Nat) : Fld := ⟨ETH_MAC_LO a, 0, 32⟩
def ETH_MAC_HI (a : Nat) : Nat := 0x40a010c + 0x40 * a
def ETH_MAC_HI_MAC (a : Nat) : Fld := ⟨ETH_MAC_HI a, 0, 16⟩
def ETH_LQ (a : Nat) : Nat := 0x40a0110 + 0x40 * a
def ETH_LQ_CNT (a : Nat) : Fld := ⟨ETH_LQ a, 18, 6⟩
def ETH_LQ_OFF (a : Nat) : Fld := ⟨ETH_LQ a, 0, 18⟩
def ETH_LAT (a : Nat) : Nat := 0x40a0114 + 0x40 * a
def ETH_LAT_TX_100PS (a : Nat) : Fld := ⟨ETH_LAT a, 16, 16⟩
def ETH_LAT_RX_100PS (a : Nat) : Fld := ⟨ETH_LAT a, 0, 16⟩
def ETH_CAL (a : Nat) : Nat := 0x40a0118 + 0x40 * a
def ETH_CAL_VALID (a : Nat) : Fld := ⟨ETH_CAL a, 31, 1⟩
def ETH_CAL_DELAY_PS (a : Nat) : Fld := ⟨ETH_CAL a, 0, 20⟩
def ETH_ERR (a : Nat) : Nat := 0x40a011c + 0x40 * a
def ETH_ERR_RXERR (a : Nat) : Fld := ⟨ETH_ERR a, 24, 8⟩
def ETH_ERR_LATE (a : Nat) : Fld := ⟨ETH_ERR a, 16, 8⟩
def ETH_ERR_REFUSED (a : Nat) : Fld := ⟨ETH_ERR a, 8, 8⟩
def ETH_ERR_NOMATCH (a : Nat) : Fld := ⟨ETH_ERR a, 0, 8⟩
def ETH_TXTS_STAT (a : Nat) : Nat := 0x40a0120 + 0x40 * a
def ETH_TXTS_STAT_VALID (a : Nat) : Fld := ⟨ETH_TXTS_STAT a, 31, 1⟩
def ETH_TXTS_STAT_DEPTH (a : Nat) : Fld := ⟨ETH_TXTS_STAT a, 24, 7⟩
def ETH_TXTS_STAT_OVF (a : Nat) : Fld := ⟨ETH_TXTS_STAT a, 16, 8⟩
def ETH_TXTS_STAT_TAG (a : Nat) : Fld := ⟨ETH_TXTS_STAT a, 0, 16⟩
def ETH_TXTS_LO (a : Nat) : Nat := 0x40a0124 + 0x40 * a
def ETH_TXTS_LO_TS (a : Nat) : Fld := ⟨ETH_TXTS_LO a, 0, 32⟩
def ETH_TXTS_HI (a : Nat) : Nat := 0x40a0128 + 0x40 * a
def ETH_TXTS_HI_TS (a : Nat) : Fld := ⟨ETH_TXTS_HI a, 0, 32⟩
def ETH_RXA (a : Nat) : Nat := 0x40a1000 + 0x8 * a
def ETH_RXA_EN (a : Nat) : Fld := ⟨ETH_RXA a, 31, 1⟩
def ETH_RXA_EVT (a : Nat) : Fld := ⟨ETH_RXA a, 30, 1⟩
def ETH_RXA_KIND (a : Nat) : Fld := ⟨ETH_RXA a, 29, 1⟩
def ETH_RXA_PORTS (a : Nat) : Fld := ⟨ETH_RXA a, 24, 3⟩
def ETH_RXA_VALUE (a : Nat) : Fld := ⟨ETH_RXA a, 0, 16⟩
def ETH_RXB (a : Nat) : Nat := 0x40a1004 + 0x8 * a
def ETH_RXB_LEN (a : Nat) : Fld := ⟨ETH_RXB a, 18, 11⟩
def ETH_RXB_OFF (a : Nat) : Fld := ⟨ETH_RXB a, 0, 18⟩

/-! ## TB -/
def TB_CMD : Nat := 0x40b0000
def TB_CMD_OP : Fld := ⟨TB_CMD, 24, 8⟩
def TB_CMD_ARG : Fld := ⟨TB_CMD, 0, 24⟩
def TB_CMD_STATUS : Nat := 0x40b0004
def TB_CMD_STATUS_BUSY : Fld := ⟨TB_CMD_STATUS, 31, 1⟩
def TB_CMD_STATUS_SEQ : Fld := ⟨TB_CMD_STATUS, 16, 8⟩
def TB_CMD_STATUS_DROPPED : Fld := ⟨TB_CMD_STATUS, 8, 1⟩
def TB_CMD_STATUS_CODE : Fld := ⟨TB_CMD_STATUS, 0, 3⟩
def TB_CFG : Nat := 0x40b0010
def TB_CFG_EXT_PORT : Fld := ⟨TB_CFG, 19, 1⟩
def TB_CFG_TRANSPORT : Fld := ⟨TB_CFG, 17, 2⟩
def TB_CFG_TWO_STEP : Fld := ⟨TB_CFG, 16, 1⟩
def TB_CFG_DOMAIN : Fld := ⟨TB_CFG, 8, 8⟩
def TB_CFG_SLAVE_ONLY : Fld := ⟨TB_CFG, 4, 1⟩
def TB_CFG_SRC : Fld := ⟨TB_CFG, 0, 2⟩
def TB_PORT (a : Nat) : Nat := 0x40b0014 + 0x4 * a
def TB_PORT_EN (a : Nat) : Fld := ⟨TB_PORT a, 31, 1⟩
def TB_PORT_P2P (a : Nat) : Fld := ⟨TB_PORT a, 30, 1⟩
def TB_PORT_EXT_STATE (a : Nat) : Fld := ⟨TB_PORT a, 28, 2⟩
def TB_PORT_STATE (a : Nat) : Fld := ⟨TB_PORT a, 0, 4⟩
def TB_INTV : Nat := 0x40b0020
def TB_INTV_LOG_SYNC : Fld := ⟨TB_INTV, 24, 8⟩
def TB_INTV_LOG_ANNOUNCE : Fld := ⟨TB_INTV, 16, 8⟩
def TB_INTV_LOG_DREQ : Fld := ⟨TB_INTV, 8, 8⟩
def TB_INTV_LOG_PDREQ : Fld := ⟨TB_INTV, 0, 8⟩
def TB_QUAL : Nat := 0x40b0024
def TB_QUAL_PRIORITY1 : Fld := ⟨TB_QUAL, 24, 8⟩
def TB_QUAL_CLASS : Fld := ⟨TB_QUAL, 16, 8⟩
def TB_QUAL_ACCURACY : Fld := ⟨TB_QUAL, 8, 8⟩
def TB_QUAL_PRIORITY2 : Fld := ⟨TB_QUAL, 0, 8⟩
def TB_QUAL2 : Nat := 0x40b0028
def TB_QUAL2_VARIANCE : Fld := ⟨TB_QUAL2, 0, 16⟩
def TB_SERVO : Nat := 0x40b0030
def TB_SERVO_KP_Q8 : Fld := ⟨TB_SERVO, 24, 8⟩
def TB_SERVO_KI_Q16 : Fld := ⟨TB_SERVO, 8, 16⟩
def TB_SERVO_DF : Fld := ⟨TB_SERVO, 4, 4⟩
def TB_SERVO_LOCK_CNT : Fld := ⟨TB_SERVO, 0, 4⟩
def TB_LIMITS : Nat := 0x40b0034
def TB_LIMITS_STEP_US : Fld := ⟨TB_LIMITS, 20, 12⟩
def TB_LIMITS_UNLOCK_10NS : Fld := ⟨TB_LIMITS, 10, 10⟩
def TB_LIMITS_LOCK_NS : Fld := ⟨TB_LIMITS, 0, 10⟩
def TB_STAT : Nat := 0x40b0040
def TB_STAT_GM : Fld := ⟨TB_STAT, 6, 1⟩
def TB_STAT_SLAVE_PORT : Fld := ⟨TB_STAT, 4, 2⟩
def TB_STAT_EVER_LOCKED : Fld := ⟨TB_STAT, 3, 1⟩
def TB_STAT_STATE : Fld := ⟨TB_STAT, 0, 3⟩
def TB_OFFSET : Nat := 0x40b0044
def TB_OFFSET_VALUE : Fld := ⟨TB_OFFSET, 0, 32⟩
def TB_RATE : Nat := 0x40b0048
def TB_RATE_VALUE : Fld := ⟨TB_RATE, 0, 32⟩
def TB_DELAY (a : Nat) : Nat := 0x40b0050 + 0x4 * a
def TB_DELAY_D_PS (a : Nat) : Fld := ⟨TB_DELAY a, 0, 32⟩
def TB_INC_LO : Nat := 0x40b0060
def TB_INC_LO_INC : Fld := ⟨TB_INC_LO, 0, 32⟩
def TB_INC_HI : Nat := 0x40b0064
def TB_INC_HI_INC : Fld := ⟨TB_INC_HI, 0, 8⟩
def TB_CLOCK_ID_LO : Nat := 0x40b0070
def TB_CLOCK_ID_LO_ID : Fld := ⟨TB_CLOCK_ID_LO, 0, 32⟩
def TB_CLOCK_ID_HI : Nat := 0x40b0074
def TB_CLOCK_ID_HI_ID : Fld := ⟨TB_CLOCK_ID_HI, 0, 32⟩
def TB_CAP_NS : Nat := 0x40b0080
def TB_CAP_NS_VALUE : Fld := ⟨TB_CAP_NS, 0, 30⟩
def TB_CAP_SEC_LO : Nat := 0x40b0084
def TB_CAP_SEC_LO_VALUE : Fld := ⟨TB_CAP_SEC_LO, 0, 32⟩
def TB_CAP_SEC_HI : Nat := 0x40b0088
def TB_CAP_SEC_HI_VALUE : Fld := ⟨TB_CAP_SEC_HI, 0, 16⟩
def TB_CAP_FRAC : Nat := 0x40b008c
def TB_CAP_FRAC_VALUE : Fld := ⟨TB_CAP_FRAC, 0, 32⟩
def TB_SET_NS : Nat := 0x40b0090
def TB_SET_NS_VALUE : Fld := ⟨TB_SET_NS, 0, 30⟩
def TB_SET_SEC_LO : Nat := 0x40b0094
def TB_SET_SEC_LO_VALUE : Fld := ⟨TB_SET_SEC_LO, 0, 32⟩
def TB_SET_SEC_HI : Nat := 0x40b0098
def TB_SET_SEC_HI_VALUE : Fld := ⟨TB_SET_SEC_HI, 0, 16⟩
def TB_PPS_CFG : Nat := 0x40b00a0
def TB_PPS_CFG_PPS_EN : Fld := ⟨TB_PPS_CFG, 31, 1⟩
def TB_PPS_CFG_PPS_ALWAYS : Fld := ⟨TB_PPS_CFG, 30, 1⟩
def TB_PPS_CFG_SYNC_SRC : Fld := ⟨TB_PPS_CFG, 16, 3⟩
def TB_PPS_CFG_PPS_WIDTH_MS : Fld := ⟨TB_PPS_CFG, 0, 9⟩
def TB_SYNC_PER : Nat := 0x40b00a4
def TB_SYNC_PER_SYNC_PERIOD_US : Fld := ⟨TB_SYNC_PER, 0, 25⟩
def TB_CNT : Nat := 0x40b00b0
def TB_CNT_RX_DISCARD : Fld := ⟨TB_CNT, 24, 8⟩
def TB_CNT_OUTLIER : Fld := ⟨TB_CNT, 16, 8⟩
def TB_CNT_MASTER_CHG : Fld := ⟨TB_CNT, 8, 8⟩
def TB_CNT_SYNC_LOSS : Fld := ⟨TB_CNT, 0, 8⟩

/-! ## SC -/
def SC_CMD : Nat := 0x40c0000
def SC_CMD_OP : Fld := ⟨SC_CMD, 24, 8⟩
def SC_CMD_ARG : Fld := ⟨SC_CMD, 0, 24⟩
def SC_CMD_STATUS : Nat := 0x40c0004
def SC_CMD_STATUS_BUSY : Fld := ⟨SC_CMD_STATUS, 31, 1⟩
def SC_CMD_STATUS_SEQ : Fld := ⟨SC_CMD_STATUS, 16, 8⟩
def SC_CMD_STATUS_DROPPED : Fld := ⟨SC_CMD_STATUS, 8, 1⟩
def SC_CMD_STATUS_CODE : Fld := ⟨SC_CMD_STATUS, 0, 3⟩
def SC_CFG : Nat := 0x40c0010
def SC_CFG_ACK_EN : Fld := ⟨SC_CFG, 31, 1⟩
def SC_CFG_ACK_OFF : Fld := ⟨SC_CFG, 0, 18⟩
def SC_SUBST_BASE : Nat := 0x40c0014
def SC_SUBST_BASE_EN : Fld := ⟨SC_SUBST_BASE, 31, 1⟩
def SC_SUBST_BASE_BASE : Fld := ⟨SC_SUBST_BASE, 0, 23⟩
def SC_STAT : Nat := 0x40c0018
def SC_STAT_N_STALE : Fld := ⟨SC_STAT, 18, 9⟩
def SC_STAT_N_LOST : Fld := ⟨SC_STAT, 9, 9⟩
def SC_STAT_N_FAULT : Fld := ⟨SC_STAT, 0, 9⟩
def SC_CNT : Nat := 0x40c001c
def SC_CNT_IDENT : Fld := ⟨SC_CNT, 24, 8⟩
def SC_CNT_CODE : Fld := ⟨SC_CNT, 16, 8⟩
def SC_CNT_TAG : Fld := ⟨SC_CNT, 8, 8⟩
def SC_CNT_SEQ_AGE : Fld := ⟨SC_CNT, 0, 8⟩
def SC_ACKREQ (a : Nat) : Nat := 0x40c0020 + 0x4 * a
def SC_ACKREQ_REQ (a : Nat) : Fld := ⟨SC_ACKREQ a, 0, 32⟩
def SC_KEY_IN (a : Nat) : Nat := 0x40c0040 + 0x4 * a
def SC_KEY_IN_KEY (a : Nat) : Fld := ⟨SC_KEY_IN a, 0, 32⟩
def SC_KEY_VALID_0 : Nat := 0x40c0050
def SC_KEY_VALID_0_VALID : Fld := ⟨SC_KEY_VALID_0, 0, 32⟩
def SC_KEY_VALID_1 : Nat := 0x40c0054
def SC_KEY_VALID_1_VALID : Fld := ⟨SC_KEY_VALID_1, 0, 32⟩
def SC_CONN_W0 (a : Nat) : Nat := 0x40c1000 + 0x20 * a
def SC_CONN_W0_CONN_ID (a : Nat) : Fld := ⟨SC_CONN_W0 a, 0, 32⟩
def SC_CONN_W1 (a : Nat) : Nat := 0x40c1004 + 0x20 * a
def SC_CONN_W1_EN (a : Nat) : Fld := ⟨SC_CONN_W1 a, 31, 1⟩
def SC_CONN_W1_TX (a : Nat) : Fld := ⟨SC_CONN_W1 a, 30, 1⟩
def SC_CONN_W1_DBIT (a : Nat) : Fld := ⟨SC_CONN_W1 a, 29, 1⟩
def SC_CONN_W1_SAFETY (a : Nat) : Fld := ⟨SC_CONN_W1 a, 28, 1⟩
def SC_CONN_W1_AUTH (a : Nat) : Fld := ⟨SC_CONN_W1 a, 27, 1⟩
def SC_CONN_W1_TIME_CHK (a : Nat) : Fld := ⟨SC_CONN_W1 a, 26, 1⟩
def SC_CONN_W1_EVT (a : Nat) : Fld := ⟨SC_CONN_W1 a, 25, 1⟩
def SC_CONN_W1_GROUP (a : Nat) : Fld := ⟨SC_CONN_W1 a, 20, 5⟩
def SC_CONN_W1_SUBST (a : Nat) : Fld := ⟨SC_CONN_W1 a, 18, 2⟩
def SC_CONN_W1_KEY_IDX (a : Nat) : Fld := ⟨SC_CONN_W1 a, 12, 6⟩
def SC_CONN_W1_LEN_W (a : Nat) : Fld := ⟨SC_CONN_W1 a, 6, 6⟩
def SC_CONN_W1_SEND_N (a : Nat) : Fld := ⟨SC_CONN_W1 a, 0, 6⟩
def SC_CONN_W2 (a : Nat) : Nat := 0x40c1008 + 0x20 * a
def SC_CONN_W2_N_OFF (a : Nat) : Fld := ⟨SC_CONN_W2 a, 0, 18⟩
def SC_CONN_W3 (a : Nat) : Nat := 0x40c100c + 0x20 * a
def SC_CONN_W3_REINT_N (a : Nat) : Fld := ⟨SC_CONN_W3 a, 28, 4⟩
def SC_CONN_W3_ERR_LIMIT (a : Nat) : Fld := ⟨SC_CONN_W3 a, 24, 4⟩
def SC_CONN_W3_S_OFF (a : Nat) : Fld := ⟨SC_CONN_W3 a, 0, 18⟩
def SC_CONN_W4 (a : Nat) : Nat := 0x40c1010 + 0x20 * a
def SC_CONN_W4_WD_MS (a : Nat) : Fld := ⟨SC_CONN_W4 a, 20, 12⟩
def SC_CONN_W4_MAX_AGE_10US (a : Nat) : Fld := ⟨SC_CONN_W4 a, 4, 16⟩
def SC_CONN_W4_MAX_GAP (a : Nat) : Fld := ⟨SC_CONN_W4 a, 0, 4⟩
def SC_CONN_W5 (a : Nat) : Nat := 0x40c1014 + 0x20 * a
def SC_CONN_W5_STATE (a : Nat) : Fld := ⟨SC_CONN_W5 a, 30, 2⟩
def SC_CONN_W5_ACK_REQ (a : Nat) : Fld := ⟨SC_CONN_W5 a, 29, 1⟩
def SC_CONN_W5_ACK_GIVEN (a : Nat) : Fld := ⟨SC_CONN_W5 a, 28, 1⟩
def SC_CONN_W5_SAFE_HOLD (a : Nat) : Fld := ⟨SC_CONN_W5 a, 27, 1⟩
def SC_CONN_W5_LAST_ERR (a : Nat) : Fld := ⟨SC_CONN_W5 a, 24, 3⟩
def SC_CONN_W5_RUN (a : Nat) : Fld := ⟨SC_CONN_W5 a, 20, 4⟩
def SC_CONN_W5_ERR_CONSEC (a : Nat) : Fld := ⟨SC_CONN_W5 a, 16, 4⟩
def SC_CONN_W5_TICKS (a : Nat) : Fld := ⟨SC_CONN_W5 a, 0, 16⟩
def SC_CONN_W6 (a : Nat) : Nat := 0x40c1018 + 0x20 * a
def SC_CONN_W6_SEQ (a : Nat) : Fld := ⟨SC_CONN_W6 a, 0, 32⟩
def SC_CONN_W7 (a : Nat) : Nat := 0x40c101c + 0x20 * a
def SC_CONN_W7_COUNT (a : Nat) : Fld := ⟨SC_CONN_W7 a, 16, 16⟩
def SC_CONN_W7_FAILED (a : Nat) : Fld := ⟨SC_CONN_W7 a, 0, 16⟩

/-! ## SF -/
def SF_CMD : Nat := 0x40d0000
def SF_CMD_OP : Fld := ⟨SF_CMD, 24, 8⟩
def SF_CMD_ARG : Fld := ⟨SF_CMD, 0, 24⟩
def SF_CMD_STATUS : Nat := 0x40d0004
def SF_CMD_STATUS_BUSY : Fld := ⟨SF_CMD_STATUS, 31, 1⟩
def SF_CMD_STATUS_SEQ : Fld := ⟨SF_CMD_STATUS, 16, 8⟩
def SF_CMD_STATUS_DROPPED : Fld := ⟨SF_CMD_STATUS, 8, 1⟩
def SF_CMD_STATUS_CODE : Fld := ⟨SF_CMD_STATUS, 0, 3⟩
def SF_STAT_POS : Nat := 0x40d0010
def SF_STAT_POS_EN : Fld := ⟨SF_STAT_POS, 31, 1⟩
def SF_STAT_POS_OFF : Fld := ⟨SF_STAT_POS, 0, 18⟩
def SF_REQ_POS : Nat := 0x40d0014
def SF_REQ_POS_EN : Fld := ⟨SF_REQ_POS, 31, 1⟩
def SF_REQ_POS_OFF : Fld := ⟨SF_REQ_POS, 0, 17⟩
def SF_PAIR_STAT : Nat := 0x40d0018
def SF_PAIR_STAT_DISC : Fld := ⟨SF_PAIR_STAT, 16, 16⟩
def SF_PAIR_STAT_RUN : Fld := ⟨SF_PAIR_STAT, 0, 16⟩
def SF_LOCK_STAT : Nat := 0x40d001c
def SF_LOCK_STAT_READY : Fld := ⟨SF_LOCK_STAT, 24, 8⟩
def SF_LOCK_STAT_RESET_LOW : Fld := ⟨SF_LOCK_STAT, 16, 8⟩
def SF_LOCK_STAT_CAUSE : Fld := ⟨SF_LOCK_STAT, 8, 8⟩
def SF_LOCK_STAT_LOCKED : Fld := ⟨SF_LOCK_STAT, 0, 8⟩
def SF_SLUICE_STAT : Nat := 0x40d0020
def SF_SLUICE_STAT_LOCK : Fld := ⟨SF_SLUICE_STAT, 16, 8⟩
def SF_SLUICE_STAT_TRIP : Fld := ⟨SF_SLUICE_STAT, 8, 4⟩
def SF_SLUICE_STAT_SUPPLY : Fld := ⟨SF_SLUICE_STAT, 4, 1⟩
def SF_SLUICE_STAT_TRIAD : Fld := ⟨SF_SLUICE_STAT, 3, 1⟩
def SF_SLUICE_STAT_WD : Fld := ⟨SF_SLUICE_STAT, 2, 1⟩
def SF_SLUICE_STAT_CE : Fld := ⟨SF_SLUICE_STAT, 1, 1⟩
def SF_SLUICE_STAT_START : Fld := ⟨SF_SLUICE_STAT, 0, 1⟩
def SF_SLUICE_FLAGS : Nat := 0x40d0024
def SF_SLUICE_FLAGS_FLAGS : Fld := ⟨SF_SLUICE_FLAGS, 0, 32⟩
def SF_GATE : Nat := 0x40d0028
def SF_GATE_DL : Fld := ⟨SF_GATE, 16, 8⟩
def SF_GATE_DO : Fld := ⟨SF_GATE, 0, 16⟩
def SF_CNT : Nat := 0x40d002c
def SF_CNT_DISC : Fld := ⟨SF_CNT, 24, 8⟩
def SF_CNT_LOCKS : Fld := ⟨SF_CNT, 16, 8⟩
def SF_CNT_RESETS_REJ : Fld := ⟨SF_CNT, 8, 8⟩
def SF_CNT_TRIPS : Fld := ⟨SF_CNT, 0, 8⟩
def SF_SEAL_STAT : Nat := 0x40d0030
def SF_SEAL_STAT_LOOP_OK : Fld := ⟨SF_SEAL_STAT, 31, 1⟩
def SF_SEAL_STAT_REVOKED : Fld := ⟨SF_SEAL_STAT, 30, 1⟩
def SF_SEAL_STAT_MATCH : Fld := ⟨SF_SEAL_STAT, 29, 1⟩
def SF_SEAL_STAT_ENTRY : Fld := ⟨SF_SEAL_STAT, 25, 2⟩
def SF_SEAL_STAT_PERM_NOW : Fld := ⟨SF_SEAL_STAT, 16, 7⟩
def SF_SEAL_STAT_PERM_START : Fld := ⟨SF_SEAL_STAT, 8, 7⟩
def SF_SEAL_STAT_PINS : Fld := ⟨SF_SEAL_STAT, 0, 8⟩
def SF_TEST : Nat := 0x40d0034
def SF_TEST_DONE : Fld := ⟨SF_TEST, 31, 1⟩
def SF_TEST_PASS : Fld := ⟨SF_TEST, 30, 1⟩
def SF_TEST_SOURCE : Fld := ⟨SF_TEST, 24, 5⟩
def SF_TEST_CHANNELS : Fld := ⟨SF_TEST, 0, 24⟩
def SF_SEAL_ENT (a : Nat) : Nat := 0x40d0060 + 0x4 * a
def SF_SEAL_ENT_EN (a : Nat) : Fld := ⟨SF_SEAL_ENT a, 31, 1⟩
def SF_SEAL_ENT_PERM (a : Nat) : Fld := ⟨SF_SEAL_ENT a, 16, 7⟩
def SF_SEAL_ENT_CODE (a : Nat) : Fld := ⟨SF_SEAL_ENT a, 0, 8⟩
def SF_TRIP_CFG (a : Nat) : Nat := 0x40d0080 + 0x4 * a
def SF_TRIP_CFG_EN (a : Nat) : Fld := ⟨SF_TRIP_CFG a, 31, 1⟩
def SF_TRIP_CFG_POL (a : Nat) : Fld := ⟨SF_TRIP_CFG a, 30, 1⟩
def SF_TRIP_CFG_FILT_US (a : Nat) : Fld := ⟨SF_TRIP_CFG a, 24, 4⟩
def SF_TRIP_CFG_MASK (a : Nat) : Fld := ⟨SF_TRIP_CFG a, 0, 24⟩
def SF_PAIR_CFG (a : Nat) : Nat := 0x40d0100 + 0x4 * a
def SF_PAIR_CFG_EN (a : Nat) : Fld := ⟨SF_PAIR_CFG a, 31, 1⟩
def SF_PAIR_CFG_ANTI (a : Nat) : Fld := ⟨SF_PAIR_CFG a, 30, 1⟩
def SF_PAIR_CFG_T_DISC_MS (a : Nat) : Fld := ⟨SF_PAIR_CFG a, 0, 11⟩
def SF_LOCKA (a : Nat) : Nat := 0x40d0200 + 0x10 * a
def SF_LOCKA_EN (a : Nat) : Fld := ⟨SF_LOCKA a, 31, 1⟩
def SF_LOCKA_REQ (a : Nat) : Fld := ⟨SF_LOCKA a, 30, 1⟩
def SF_LOCKA_START_LOCK (a : Nat) : Fld := ⟨SF_LOCKA a, 29, 1⟩
def SF_LOCKA_TRIP (a : Nat) : Fld := ⟨SF_LOCKA a, 24, 4⟩
def SF_LOCKA_RESET_DI (a : Nat) : Fld := ⟨SF_LOCKA a, 16, 5⟩
def SF_LOCKB (a : Nat) : Nat := 0x40d0204 + 0x10 * a
def SF_LOCKB_DEMAND (a : Nat) : Fld := ⟨SF_LOCKB a, 16, 16⟩
def SF_LOCKB_DISC (a : Nat) : Fld := ⟨SF_LOCKB a, 0, 16⟩
def SF_LOCKC (a : Nat) : Nat := 0x40d0208 + 0x10 * a
def SF_LOCKC_OUT (a : Nat) : Fld := ⟨SF_LOCKC a, 0, 24⟩

/-! ## FLD -/
def FLD_CMD : Nat := 0x40e0000
def FLD_CMD_OP : Fld := ⟨FLD_CMD, 24, 8⟩
def FLD_CMD_ARG : Fld := ⟨FLD_CMD, 0, 24⟩
def FLD_CMD_STATUS : Nat := 0x40e0004
def FLD_CMD_STATUS_BUSY : Fld := ⟨FLD_CMD_STATUS, 31, 1⟩
def FLD_CMD_STATUS_SEQ : Fld := ⟨FLD_CMD_STATUS, 16, 8⟩
def FLD_CMD_STATUS_DROPPED : Fld := ⟨FLD_CMD_STATUS, 8, 1⟩
def FLD_CMD_STATUS_CODE : Fld := ⟨FLD_CMD_STATUS, 0, 3⟩
def FLD_DI_GRP (a : Nat) : Nat := 0x40e0010 + 0x4 * a
def FLD_DI_GRP_DX (a : Nat) : Fld := ⟨FLD_DI_GRP a, 16, 2⟩
def FLD_DI_GRP_TYPE (a : Nat) : Fld := ⟨FLD_DI_GRP a, 12, 1⟩
def FLD_DI_GRP_MODE (a : Nat) : Fld := ⟨FLD_DI_GRP a, 8, 2⟩
def FLD_DI_GRP_TS (a : Nat) : Fld := ⟨FLD_DI_GRP a, 4, 2⟩
def FLD_DI_GRP_FILT_N (a : Nat) : Fld := ⟨FLD_DI_GRP a, 0, 4⟩
def FLD_DI_WB : Nat := 0x40e0020
def FLD_DI_WB_WB_EN : Fld := ⟨FLD_DI_WB, 0, 32⟩
def FLD_DI_VAL : Nat := 0x40e0024
def FLD_DI_VAL_VAL : Fld := ⟨FLD_DI_VAL, 0, 32⟩
def FLD_DI_BREAK : Nat := 0x40e0028
def FLD_DI_BREAK_BREAK : Fld := ⟨FLD_DI_BREAK, 0, 32⟩
def FLD_DT_CFG : Nat := 0x40e002c
def FLD_DT_CFG_DT_EVERY : Fld := ⟨FLD_DT_CFG, 16, 11⟩
def FLD_DT_CFG_DT_US : Fld := ⟨FLD_DT_CFG, 0, 9⟩
def FLD_DT_OFF : Nat := 0x40e0030
def FLD_DT_OFF_DT_OFF_US : Fld := ⟨FLD_DT_OFF, 0, 15⟩
def FLD_VF (a : Nat) : Nat := 0x40e0040 + 0x4 * a
def FLD_VF_STATE (a : Nat) : Fld := ⟨FLD_VF a, 16, 2⟩
def FLD_VF_V_10MV (a : Nat) : Fld := ⟨FLD_VF a, 0, 16⟩
def FLD_VFD : Nat := 0x40e0050
def FLD_VFD_VFD_LOW : Fld := ⟨FLD_VFD, 16, 1⟩
def FLD_VFD_V_MV : Fld := ⟨FLD_VFD, 0, 16⟩
def FLD_TEMP : Nat := 0x40e0054
def FLD_TEMP_T_01C : Fld := ⟨FLD_TEMP, 0, 16⟩
def FLD_CNT : Nat := 0x40e0058
def FLD_CNT_OVL : Fld := ⟨FLD_CNT, 24, 8⟩
def FLD_CNT_THERM : Fld := ⟨FLD_CNT, 16, 8⟩
def FLD_CNT_DT_FAIL : Fld := ⟨FLD_CNT, 8, 8⟩
def FLD_CNT_WB : Fld := ⟨FLD_CNT, 0, 8⟩
def FLD_IF_STAT : Nat := 0x40e005c
def FLD_IF_STAT_IF_ERR : Fld := ⟨FLD_IF_STAT, 16, 16⟩
def FLD_IF_STAT_KEEPALIVE : Fld := ⟨FLD_IF_STAT, 0, 1⟩
def FLD_CH_CFG (a : Nat) : Nat := 0x40e0100 + 0x4 * a
def FLD_CH_CFG_EN (a : Nat) : Fld := ⟨FLD_CH_CFG a, 31, 1⟩
def FLD_CH_CFG_SAFE (a : Nat) : Fld := ⟨FLD_CH_CFG a, 30, 1⟩
def FLD_CH_CFG_THERM_AUTO (a : Nat) : Fld := ⟨FLD_CH_CFG a, 29, 1⟩
def FLD_CH_CFG_OW_EN (a : Nat) : Fld := ⟨FLD_CH_CFG a, 28, 1⟩
def FLD_CH_CFG_OL_EN (a : Nat) : Fld := ⟨FLD_CH_CFG a, 27, 1⟩
def FLD_CH_CFG_DT_EN (a : Nat) : Fld := ⟨FLD_CH_CFG a, 26, 1⟩
def FLD_CH_CFG_OVL_MS (a : Nat) : Fld := ⟨FLD_CH_CFG a, 8, 8⟩
def FLD_CH_STAT (a : Nat) : Nat := 0x40e0200 + 0x4 * a
def FLD_CH_STAT_FLAGS (a : Nat) : Fld := ⟨FLD_CH_STAT a, 24, 8⟩
def FLD_CH_STAT_FAULT (a : Nat) : Fld := ⟨FLD_CH_STAT a, 16, 8⟩
def FLD_CH_STAT_I_MA (a : Nat) : Fld := ⟨FLD_CH_STAT a, 0, 16⟩

/-! ## SIG -/
def SIG_CMD : Nat := 0x40f0000
def SIG_CMD_OP : Fld := ⟨SIG_CMD, 24, 8⟩
def SIG_CMD_ARG : Fld := ⟨SIG_CMD, 0, 24⟩
def SIG_CMD_STATUS : Nat := 0x40f0004
def SIG_CMD_STATUS_BUSY : Fld := ⟨SIG_CMD_STATUS, 31, 1⟩
def SIG_CMD_STATUS_SEQ : Fld := ⟨SIG_CMD_STATUS, 16, 8⟩
def SIG_CMD_STATUS_DROPPED : Fld := ⟨SIG_CMD_STATUS, 8, 1⟩
def SIG_CMD_STATUS_CODE : Fld := ⟨SIG_CMD_STATUS, 0, 3⟩
def SIG_CFG : Nat := 0x40f0010
def SIG_CFG_SYNC_SRC : Fld := ⟨SIG_CFG, 16, 2⟩
def SIG_CFG_SPARE_EN : Fld := ⟨SIG_CFG, 8, 4⟩
def SIG_CFG_EDGE : Fld := ⟨SIG_CFG, 4, 4⟩
def SIG_CFG_GRP_EN : Fld := ⟨SIG_CFG, 0, 4⟩
def SIG_BANK : Nat := 0x40f0014
def SIG_BANK_SWAPS : Fld := ⟨SIG_BANK, 16, 16⟩
def SIG_BANK_PEND : Fld := ⟨SIG_BANK, 1, 1⟩
def SIG_BANK_ACTIVE : Fld := ⟨SIG_BANK, 0, 1⟩
def SIG_SWAP_POS : Nat := 0x40f0018
def SIG_SWAP_POS_EN : Fld := ⟨SIG_SWAP_POS, 31, 1⟩
def SIG_SWAP_POS_OFF : Fld := ⟨SIG_SWAP_POS, 0, 16⟩
def SIG_CAL_CFG : Nat := 0x40f001c
def SIG_CAL_CFG_ROT_S : Fld := ⟨SIG_CAL_CFG, 24, 8⟩
def SIG_CAL_CFG_CAL_MS : Fld := ⟨SIG_CAL_CFG, 16, 8⟩
def SIG_CAL_CFG_START_MS : Fld := ⟨SIG_CAL_CFG, 8, 8⟩
def SIG_CAL_CFG_MUX_US : Fld := ⟨SIG_CAL_CFG, 0, 8⟩
def SIG_CAL_LIM : Nat := 0x40f0020
def SIG_CAL_LIM_GAIN_TOL : Fld := ⟨SIG_CAL_LIM, 24, 8⟩
def SIG_CAL_LIM_OFF_TOL : Fld := ⟨SIG_CAL_LIM, 16, 8⟩
def SIG_CAL_LIM_MATCH_MAX : Fld := ⟨SIG_CAL_LIM, 0, 8⟩
def SIG_VREF : Nat := 0x40f0024
def SIG_VREF_VREF_NOM : Fld := ⟨SIG_VREF, 0, 32⟩
def SIG_GRP_STAT (a : Nat) : Nat := 0x40f0030 + 0x4 * a
def SIG_GRP_STAT_FAULT (a : Nat) : Fld := ⟨SIG_GRP_STAT a, 19, 5⟩
def SIG_GRP_STAT_START_DONE (a : Nat) : Fld := ⟨SIG_GRP_STAT a, 18, 1⟩
def SIG_GRP_STAT_SERVING (a : Nat) : Fld := ⟨SIG_GRP_STAT a, 17, 1⟩
def SIG_GRP_STAT_STOPPED (a : Nat) : Fld := ⟨SIG_GRP_STAT a, 16, 1⟩
def SIG_GRP_STAT_MODE (a : Nat) : Fld := ⟨SIG_GRP_STAT a, 5, 3⟩
def SIG_GRP_STAT_SLOT (a : Nat) : Fld := ⟨SIG_GRP_STAT a, 2, 3⟩
def SIG_GRP_STAT_J (a : Nat) : Fld := ⟨SIG_GRP_STAT a, 0, 2⟩
def SIG_CNT : Nat := 0x40f0040
def SIG_CNT_OVR : Fld := ⟨SIG_CNT, 24, 8⟩
def SIG_CNT_HANDOVERS : Fld := ⟨SIG_CNT, 16, 8⟩
def SIG_CNT_ABORTS : Fld := ⟨SIG_CNT, 8, 8⟩
def SIG_CNT_CALFAIL : Fld := ⟨SIG_CNT, 0, 8⟩
def SIG_FILTA (a : Nat) : Nat := 0x40f0080 + 0x4 * a
def SIG_FILTA_EN (a : Nat) : Fld := ⟨SIG_FILTA a, 31, 1⟩
def SIG_FILTA_NTAPS (a : Nat) : Fld := ⟨SIG_FILTA a, 0, 8⟩
def SIG_FILTB (a : Nat) : Nat := 0x40f00a0 + 0x4 * a
def SIG_FILTB_EN (a : Nat) : Fld := ⟨SIG_FILTB a, 31, 1⟩
def SIG_FILTB_NTAPS (a : Nat) : Fld := ⟨SIG_FILTB a, 0, 8⟩
def SIG_IN_CFG (a : Nat) : Nat := 0x40f0100 + 0x8 * a
def SIG_IN_CFG_EN (a : Nat) : Fld := ⟨SIG_IN_CFG a, 31, 1⟩
def SIG_IN_CFG_BANKED (a : Nat) : Fld := ⟨SIG_IN_CFG a, 30, 1⟩
def SIG_IN_CFG_DCB_EN (a : Nat) : Fld := ⟨SIG_IN_CFG a, 29, 1⟩
def SIG_IN_CFG_HOLD (a : Nat) : Fld := ⟨SIG_IN_CFG a, 28, 1⟩
def SIG_IN_CFG_MODE (a : Nat) : Fld := ⟨SIG_IN_CFG a, 26, 2⟩
def SIG_IN_CFG_FILT (a : Nat) : Fld := ⟨SIG_IN_CFG a, 24, 2⟩
def SIG_IN_CFG_SINC_K (a : Nat) : Fld := ⟨SIG_IN_CFG a, 20, 3⟩
def SIG_IN_CFG_FIR_D (a : Nat) : Fld := ⟨SIG_IN_CFG a, 18, 2⟩
def SIG_IN_CFG_DCB_K (a : Nat) : Fld := ⟨SIG_IN_CFG a, 13, 5⟩
def SIG_IN_CFG_NBUF (a : Nat) : Fld := ⟨SIG_IN_CFG a, 6, 7⟩
def SIG_IN_POS (a : Nat) : Nat := 0x40f0104 + 0x8 * a
def SIG_IN_POS_EXTRA (a : Nat) : Fld := ⟨SIG_IN_POS a, 16, 4⟩
def SIG_IN_POS_OFF (a : Nat) : Fld := ⟨SIG_IN_POS a, 0, 16⟩
def SIG_IN_STAT (a : Nat) : Nat := 0x40f0180 + 0x4 * a
def SIG_IN_STAT_STATUS (a : Nat) : Fld := ⟨SIG_IN_STAT a, 0, 32⟩
def SIG_MODCAL_OFF (a : Nat) : Nat := 0x40f0200 + 0x8 * a
def SIG_MODCAL_OFF_OFF (a : Nat) : Fld := ⟨SIG_MODCAL_OFF a, 0, 32⟩
def SIG_MODCAL_GAIN (a : Nat) : Nat := 0x40f0204 + 0x8 * a
def SIG_MODCAL_GAIN_GAIN (a : Nat) : Fld := ⟨SIG_MODCAL_GAIN a, 0, 32⟩
def SIG_OUT_CFG (a : Nat) : Nat := 0x40f0300 + 0x8 * a
def SIG_OUT_CFG_EN (a : Nat) : Fld := ⟨SIG_OUT_CFG a, 31, 1⟩
def SIG_OUT_CFG_BANKED (a : Nat) : Fld := ⟨SIG_OUT_CFG a, 30, 1⟩
def SIG_OUT_CFG_RAMP (a : Nat) : Fld := ⟨SIG_OUT_CFG a, 29, 1⟩
def SIG_OUT_CFG_FILT (a : Nat) : Fld := ⟨SIG_OUT_CFG a, 24, 3⟩
def SIG_OUT_CFG_IFACT (a : Nat) : Fld := ⟨SIG_OUT_CFG a, 22, 2⟩
def SIG_OUT_CFG_OUT_J (a : Nat) : Fld := ⟨SIG_OUT_CFG a, 18, 4⟩
def SIG_OUT_CFG_OFF (a : Nat) : Fld := ⟨SIG_OUT_CFG a, 0, 16⟩
def SIG_OUT_STAT (a : Nat) : Nat := 0x40f0304 + 0x8 * a
def SIG_OUT_STAT_CLAMP (a : Nat) : Fld := ⟨SIG_OUT_STAT a, 0, 1⟩
def SIG_THR_A (a : Nat) : Nat := 0x40f0400 + 0x10 * a
def SIG_THR_A_EN (a : Nat) : Fld := ⟨SIG_THR_A a, 31, 1⟩
def SIG_THR_A_DIR (a : Nat) : Fld := ⟨SIG_THR_A a, 30, 1⟩
def SIG_THR_A_CH (a : Nat) : Fld := ⟨SIG_THR_A a, 0, 4⟩
def SIG_THR_B (a : Nat) : Nat := 0x40f0404 + 0x10 * a
def SIG_THR_B_LEVEL (a : Nat) : Fld := ⟨SIG_THR_B a, 0, 32⟩
def SIG_THR_C (a : Nat) : Nat := 0x40f0408 + 0x10 * a
def SIG_THR_C_HYST (a : Nat) : Fld := ⟨SIG_THR_C a, 0, 32⟩
def SIG_COEF (a b c : Nat) : Nat := 0x40f4000 + 0x1000 * a + 0x200 * b + 0x4 * c
def SIG_COEF_COEF (a b c : Nat) : Fld := ⟨SIG_COEF a b c, 0, 32⟩

/-! ## NVM -/
def NVM_CMD : Nat := 0x4100000
def NVM_CMD_OP : Fld := ⟨NVM_CMD, 24, 8⟩
def NVM_CMD_ARG : Fld := ⟨NVM_CMD, 0, 24⟩
def NVM_CMD_STATUS : Nat := 0x4100004
def NVM_CMD_STATUS_BUSY : Fld := ⟨NVM_CMD_STATUS, 31, 1⟩
def NVM_CMD_STATUS_SEQ : Fld := ⟨NVM_CMD_STATUS, 16, 8⟩
def NVM_CMD_STATUS_DROPPED : Fld := ⟨NVM_CMD_STATUS, 8, 1⟩
def NVM_CMD_STATUS_CODE : Fld := ⟨NVM_CMD_STATUS, 0, 3⟩
def NVM_QUEUE : Nat := 0x4100010
def NVM_QUEUE_EN : Fld := ⟨NVM_QUEUE, 31, 1⟩
def NVM_QUEUE_BASE : Fld := ⟨NVM_QUEUE, 0, 23⟩
def NVM_GEOM : Nat := 0x4100014
def NVM_GEOM_KIND : Fld := ⟨NVM_GEOM, 31, 1⟩
def NVM_GEOM_TWO_TARGETS : Fld := ⟨NVM_GEOM, 30, 1⟩
def NVM_GEOM_PAGE : Fld := ⟨NVM_GEOM, 28, 2⟩
def NVM_GEOM_PPB : Fld := ⟨NVM_GEOM, 17, 9⟩
def NVM_GEOM_BLOCKS : Fld := ⟨NVM_GEOM, 0, 15⟩
def NVM_STAT : Nat := 0x4100018
def NVM_STAT_IF : Fld := ⟨NVM_STAT, 30, 2⟩
def NVM_STAT_TMODE : Fld := ⟨NVM_STAT, 24, 4⟩
def NVM_STAT_TMODE_MAX : Fld := ⟨NVM_STAT, 20, 4⟩
def NVM_STAT_DESC_OK : Fld := ⟨NVM_STAT, 7, 1⟩
def NVM_STAT_BT_OK : Fld := ⟨NVM_STAT, 6, 1⟩
def NVM_STAT_SCANNED : Fld := ⟨NVM_STAT, 5, 1⟩
def NVM_STAT_FROZEN : Fld := ⟨NVM_STAT, 4, 1⟩
def NVM_STAT_SAVE_BUSY : Fld := ⟨NVM_STAT, 3, 1⟩
def NVM_STAT_SCRUB_BUSY : Fld := ⟨NVM_STAT, 2, 1⟩
def NVM_STAT_Q_BUSY : Fld := ⟨NVM_STAT, 1, 1⟩
def NVM_STAT_READY : Fld := ⟨NVM_STAT, 0, 1⟩
def NVM_SCRUB : Nat := 0x410001c
def NVM_SCRUB_SCRUB_H : Fld := ⟨NVM_SCRUB, 24, 8⟩
def NVM_SCRUB_READ_LIMIT_K : Fld := ⟨NVM_SCRUB, 16, 8⟩
def NVM_SCRUB_REFRESH_BITS : Fld := ⟨NVM_SCRUB, 0, 6⟩
def NVM_ADDR : Nat := 0x4100020
def NVM_ADDR_REGION : Fld := ⟨NVM_ADDR, 24, 3⟩
def NVM_ADDR_LBLOCK : Fld := ⟨NVM_ADDR, 8, 16⟩
def NVM_ADDR_PAGE : Fld := ⟨NVM_ADDR, 0, 8⟩
def NVM_BUF : Nat := 0x4100024
def NVM_BUF_ADDR : Fld := ⟨NVM_BUF, 0, 23⟩
def NVM_CNT : Nat := 0x4100028
def NVM_CNT_RETIRED : Fld := ⟨NVM_CNT, 24, 8⟩
def NVM_CNT_REFRESHED : Fld := ⟨NVM_CNT, 16, 8⟩
def NVM_CNT_UNCORR : Fld := ⟨NVM_CNT, 8, 8⟩
def NVM_CNT_SAVES_FAILED : Fld := ⟨NVM_CNT, 0, 8⟩
def NVM_ECC_MAX : Nat := 0x410002c
def NVM_ECC_MAX_MAX : Fld := ⟨NVM_ECC_MAX, 0, 6⟩
def NVM_WEAR_3 : Nat := 0x4100030
def NVM_WEAR_3_MAX_8 : Fld := ⟨NVM_WEAR_3, 16, 16⟩
def NVM_WEAR_3_MIN_8 : Fld := ⟨NVM_WEAR_3, 0, 16⟩
def NVM_WEAR_4 : Nat := 0x4100034
def NVM_WEAR_4_MAX_8 : Fld := ⟨NVM_WEAR_4, 16, 16⟩
def NVM_WEAR_4_MIN_8 : Fld := ⟨NVM_WEAR_4, 0, 16⟩
def NVM_SAVE : Nat := 0x4100038
def NVM_SAVE_DUR_100US : Fld := ⟨NVM_SAVE, 16, 16⟩
def NVM_SAVE_RESULT : Fld := ⟨NVM_SAVE, 0, 4⟩
def NVM_RSEQ : Nat := 0x410003c
def NVM_RSEQ_RSEQ : Fld := ⟨NVM_RSEQ, 0, 32⟩
def NVM_REGA (a : Nat) : Nat := 0x4100100 + 0x8 * a
def NVM_REGA_START (a : Nat) : Fld := ⟨NVM_REGA a, 16, 16⟩
def NVM_REGA_COUNT (a : Nat) : Fld := ⟨NVM_REGA a, 0, 16⟩
def NVM_REGB (a : Nat) : Nat := 0x4100104 + 0x8 * a
def NVM_REGB_DAMAGED (a : Nat) : Fld := ⟨NVM_REGB a, 31, 1⟩
def NVM_REGB_EXHAUSTED (a : Nat) : Fld := ⟨NVM_REGB a, 30, 1⟩
def NVM_REGB_SPARES (a : Nat) : Fld := ⟨NVM_REGB a, 0, 16⟩

/-! ## LDR -/
def LDR_CMD : Nat := 0x4110000
def LDR_CMD_OP : Fld := ⟨LDR_CMD, 24, 8⟩
def LDR_CMD_ARG : Fld := ⟨LDR_CMD, 0, 24⟩
def LDR_CMD_STATUS : Nat := 0x4110004
def LDR_CMD_STATUS_BUSY : Fld := ⟨LDR_CMD_STATUS, 31, 1⟩
def LDR_CMD_STATUS_SEQ : Fld := ⟨LDR_CMD_STATUS, 16, 8⟩
def LDR_CMD_STATUS_DROPPED : Fld := ⟨LDR_CMD_STATUS, 8, 1⟩
def LDR_CMD_STATUS_CODE : Fld := ⟨LDR_CMD_STATUS, 0, 3⟩
def LDR_STAT : Nat := 0x4110010
def LDR_STAT_FORCE_COLD : Fld := ⟨LDR_STAT, 31, 1⟩
def LDR_STAT_ARMED : Fld := ⟨LDR_STAT, 30, 1⟩
def LDR_STAT_PKH_SET : Fld := ⟨LDR_STAT, 29, 1⟩
def LDR_STAT_SIG_REQ : Fld := ⟨LDR_STAT, 28, 1⟩
def LDR_STAT_BOOT_SRC : Fld := ⟨LDR_STAT, 26, 2⟩
def LDR_STAT_SLOT_RUN : Fld := ⟨LDR_STAT, 24, 2⟩
def LDR_STAT_ARMED_SLOT : Fld := ⟨LDR_STAT, 22, 2⟩
def LDR_STAT_RTYPE : Fld := ⟨LDR_STAT, 20, 2⟩
def LDR_STAT_CFG_COPY : Fld := ⟨LDR_STAT, 19, 1⟩
def LDR_STAT_NOSVC_CAUSE : Fld := ⟨LDR_STAT, 8, 8⟩
def LDR_SLOT_A : Nat := 0x4110014
def LDR_SLOT_A_ARMED : Fld := ⟨LDR_SLOT_A, 31, 1⟩
def LDR_SLOT_A_ACTIVATED : Fld := ⟨LDR_SLOT_A, 30, 1⟩
def LDR_SLOT_A_CANCELLED : Fld := ⟨LDR_SLOT_A, 29, 1⟩
def LDR_SLOT_A_REASON : Fld := ⟨LDR_SLOT_A, 16, 4⟩
def LDR_SLOT_A_SLOT_SEQ : Fld := ⟨LDR_SLOT_A, 0, 16⟩
def LDR_SLOT_B : Nat := 0x4110018
def LDR_SLOT_B_ARMED : Fld := ⟨LDR_SLOT_B, 31, 1⟩
def LDR_SLOT_B_ACTIVATED : Fld := ⟨LDR_SLOT_B, 30, 1⟩
def LDR_SLOT_B_CANCELLED : Fld := ⟨LDR_SLOT_B, 29, 1⟩
def LDR_SLOT_B_REASON : Fld := ⟨LDR_SLOT_B, 16, 4⟩
def LDR_SLOT_B_SLOT_SEQ : Fld := ⟨LDR_SLOT_B, 0, 16⟩
def LDR_BUNDLE_ID : Nat := 0x411001c
def LDR_BUNDLE_ID_ID : Fld := ⟨LDR_BUNDLE_ID, 0, 32⟩
def LDR_RET_VER : Nat := 0x4110020
def LDR_RET_VER_SRC_VER : Fld := ⟨LDR_RET_VER, 16, 16⟩
def LDR_RET_VER_RET_VER : Fld := ⟨LDR_RET_VER, 0, 16⟩
def LDR_CFG_SEQ : Nat := 0x4110024
def LDR_CFG_SEQ_SEQ : Fld := ⟨LDR_CFG_SEQ, 0, 32⟩
def LDR_ACT_LO : Nat := 0x4110028
def LDR_ACT_LO_TIME : Fld := ⟨LDR_ACT_LO, 0, 32⟩
def LDR_ACT_HI : Nat := 0x411002c
def LDR_ACT_HI_TIME : Fld := ⟨LDR_ACT_HI, 0, 32⟩
def LDR_START_US : Nat := 0x4110030
def LDR_START_US_US : Fld := ⟨LDR_START_US, 0, 32⟩
def LDR_SRC : Nat := 0x4110040
def LDR_SRC_VALUE : Fld := ⟨LDR_SRC, 0, 23⟩
def LDR_LEN : Nat := 0x4110044
def LDR_LEN_VALUE : Fld := ⟨LDR_LEN, 0, 23⟩
def LDR_BSRC : Nat := 0x4110048
def LDR_BSRC_VALUE : Fld := ⟨LDR_BSRC, 0, 23⟩
def LDR_WPTR (a : Nat) : Nat := 0x4110050 + 0x4 * a
def LDR_WPTR_PAGE (a : Nat) : Fld := ⟨LDR_WPTR a, 0, 20⟩
def LDR_MIG : Nat := 0x4110060
def LDR_MIG_MIG_BASE : Fld := ⟨LDR_MIG, 0, 7⟩
def LDR_KEPT : Nat := 0x4110064
def LDR_KEPT_VALID : Fld := ⟨LDR_KEPT, 31, 1⟩
def LDR_KEPT_BLOCK : Fld := ⟨LDR_KEPT, 0, 16⟩
def LDR_PKH (a : Nat) : Nat := 0x4110080 + 0x4 * a
def LDR_PKH_HASH (a : Nat) : Fld := ⟨LDR_PKH a, 0, 32⟩

/-! ## HP -/
def HP_CMD : Nat := 0x4120000
def HP_CMD_OP : Fld := ⟨HP_CMD, 24, 8⟩
def HP_CMD_ARG : Fld := ⟨HP_CMD, 0, 24⟩
def HP_CMD_STATUS : Nat := 0x4120004
def HP_CMD_STATUS_BUSY : Fld := ⟨HP_CMD_STATUS, 31, 1⟩
def HP_CMD_STATUS_SEQ : Fld := ⟨HP_CMD_STATUS, 16, 8⟩
def HP_CMD_STATUS_DROPPED : Fld := ⟨HP_CMD_STATUS, 8, 1⟩
def HP_CMD_STATUS_CODE : Fld := ⟨HP_CMD_STATUS, 0, 3⟩
def HP_LINK : Nat := 0x4120010
def HP_LINK_LINK_UP : Fld := ⟨HP_LINK, 31, 1⟩
def HP_LINK_BME : Fld := ⟨HP_LINK, 30, 1⟩
def HP_LINK_MSIX_EN : Fld := ⟨HP_LINK, 29, 1⟩
def HP_LINK_FUNC_MASK : Fld := ⟨HP_LINK, 28, 1⟩
def HP_LINK_D_STATE : Fld := ⟨HP_LINK, 26, 2⟩
def HP_LINK_WIDTH : Fld := ⟨HP_LINK, 16, 4⟩
def HP_LINK_SPEED : Fld := ⟨HP_LINK, 8, 4⟩
def HP_LINK_LINK_DOWNS : Fld := ⟨HP_LINK, 0, 8⟩
def HP_HWIN : Nat := 0x4120014
def HP_HWIN_WP_RET : Fld := ⟨HP_HWIN, 31, 1⟩
def HP_HWIN_SIZE_4K : Fld := ⟨HP_HWIN, 16, 12⟩
def HP_HWIN_BASE_4K : Fld := ⟨HP_HWIN, 0, 11⟩
def HP_WERR_ADDR : Nat := 0x4120020
def HP_WERR_ADDR_ADDR : Fld := ⟨HP_WERR_ADDR, 0, 32⟩
def HP_WERR_INFO : Nat := 0x4120024
def HP_WERR_INFO_VALID : Fld := ⟨HP_WERR_INFO, 31, 1⟩
def HP_WERR_INFO_COUNT : Fld := ⟨HP_WERR_INFO, 16, 8⟩
def HP_WERR_INFO_CAUSE : Fld := ⟨HP_WERR_INFO, 0, 4⟩
def HP_IRQ_STAT : Nat := 0x4120030
def HP_IRQ_STAT_CAUSE : Fld := ⟨HP_IRQ_STAT, 0, 32⟩
def HP_IRQ_EN : Nat := 0x4120034
def HP_IRQ_EN_EN : Fld := ⟨HP_IRQ_EN, 0, 32⟩
def HP_PINS : Nat := 0x4120038
def HP_PINS_SEAL : Fld := ⟨HP_PINS, 10, 8⟩
def HP_PINS_TRIP : Fld := ⟨HP_PINS, 6, 4⟩
def HP_PINS_PPS_IN : Fld := ⟨HP_PINS, 5, 1⟩
def HP_PINS_SYNCIN : Fld := ⟨HP_PINS, 4, 1⟩
def HP_PINS_SEAL_LOOP : Fld := ⟨HP_PINS, 3, 1⟩
def HP_PINS_FORCE_LED : Fld := ⟨HP_PINS, 2, 1⟩
def HP_PINS_LANE_OK : Fld := ⟨HP_PINS, 1, 1⟩
def HP_PINS_PFW_N : Fld := ⟨HP_PINS, 0, 1⟩
def HP_PIN_EN : Nat := 0x412003c
def HP_PIN_EN_SEAL : Fld := ⟨HP_PIN_EN, 10, 8⟩
def HP_PIN_EN_TRIP : Fld := ⟨HP_PIN_EN, 6, 4⟩
def HP_PIN_EN_PPS_IN : Fld := ⟨HP_PIN_EN, 5, 1⟩
def HP_PIN_EN_SYNCIN : Fld := ⟨HP_PIN_EN, 4, 1⟩
def HP_PIN_EN_SEAL_LOOP : Fld := ⟨HP_PIN_EN, 3, 1⟩
def HP_PIN_EN_FORCE_LED : Fld := ⟨HP_PIN_EN, 2, 1⟩
def HP_PIN_EN_LANE_OK : Fld := ⟨HP_PIN_EN, 1, 1⟩
def HP_PIN_EN_PFW_N : Fld := ⟨HP_PIN_EN, 0, 1⟩
def HP_DMA_SADDR : Nat := 0x4120040
def HP_DMA_SADDR_VALUE : Fld := ⟨HP_DMA_SADDR, 0, 23⟩
def HP_DMA_HADDR_LO : Nat := 0x4120044
def HP_DMA_HADDR_LO_VALUE : Fld := ⟨HP_DMA_HADDR_LO, 0, 32⟩
def HP_DMA_HADDR_HI : Nat := 0x4120048
def HP_DMA_HADDR_HI_VALUE : Fld := ⟨HP_DMA_HADDR_HI, 0, 32⟩
def HP_DMA_LEN : Nat := 0x412004c
def HP_DMA_LEN_VALUE : Fld := ⟨HP_DMA_LEN, 0, 17⟩
def HP_CPL_TMO : Nat := 0x4120050
def HP_CPL_TMO_TMO_MS : Fld := ⟨HP_CPL_TMO, 0, 10⟩
def HP_CNT : Nat := 0x4120054
def HP_CNT_CA_SENT : Fld := ⟨HP_CNT, 24, 8⟩
def HP_CNT_WERR : Fld := ⟨HP_CNT, 16, 8⟩
def HP_CNT_DMA_FAIL : Fld := ⟨HP_CNT, 8, 8⟩
def HP_CNT_ATOMIC : Fld := ⟨HP_CNT, 0, 8⟩
def HP_PCI_ID : Nat := 0x4120058
def HP_PCI_ID_DEVICE : Fld := ⟨HP_PCI_ID, 16, 16⟩
def HP_PCI_ID_VENDOR : Fld := ⟨HP_PCI_ID, 0, 16⟩
def HP_MSIX_ALO (a : Nat) : Nat := 0x4121000 + 0x10 * a
def HP_MSIX_ALO_V (a : Nat) : Fld := ⟨HP_MSIX_ALO a, 0, 32⟩
def HP_MSIX_AHI (a : Nat) : Nat := 0x4121004 + 0x10 * a
def HP_MSIX_AHI_V (a : Nat) : Fld := ⟨HP_MSIX_AHI a, 0, 32⟩
def HP_MSIX_DATA (a : Nat) : Nat := 0x4121008 + 0x10 * a
def HP_MSIX_DATA_V (a : Nat) : Fld := ⟨HP_MSIX_DATA a, 0, 32⟩
def HP_MSIX_CTRL (a : Nat) : Nat := 0x412100c + 0x10 * a
def HP_MSIX_CTRL_V (a : Nat) : Fld := ⟨HP_MSIX_CTRL a, 0, 32⟩
def HP_PBA (a : Nat) : Nat := 0x4122000 + 0x4 * a
def HP_PBA_PEND (a : Nat) : Fld := ⟨HP_PBA a, 0, 32⟩

/-! ## MB -/
def MB_CMD : Nat := 0x4130000
def MB_CMD_OP : Fld := ⟨MB_CMD, 24, 8⟩
def MB_CMD_ARG : Fld := ⟨MB_CMD, 0, 24⟩
def MB_CMD_STATUS : Nat := 0x4130004
def MB_CMD_STATUS_BUSY : Fld := ⟨MB_CMD_STATUS, 31, 1⟩
def MB_CMD_STATUS_SEQ : Fld := ⟨MB_CMD_STATUS, 16, 8⟩
def MB_CMD_STATUS_DROPPED : Fld := ⟨MB_CMD_STATUS, 8, 1⟩
def MB_CMD_STATUS_CODE : Fld := ⟨MB_CMD_STATUS, 0, 3⟩
def MB_H_PTR : Nat := 0x4130010
def MB_H_PTR_VALUE : Fld := ⟨MB_H_PTR, 0, 32⟩
def MB_H_LT : Nat := 0x4130014
def MB_H_LT_VALUE : Fld := ⟨MB_H_LT, 0, 32⟩
def MB_CNT : Nat := 0x4130018
def MB_CNT_SENT : Fld := ⟨MB_CNT, 24, 8⟩
def MB_CNT_REFUSED : Fld := ⟨MB_CNT, 16, 8⟩
def MB_CNT_ABORTED : Fld := ⟨MB_CNT, 8, 8⟩
def MB_CNT_CONTENDED : Fld := ⟨MB_CNT, 0, 8⟩
def MB_EP_W0 (a : Nat) : Nat := 0x4130100 + 0x20 * a
def MB_EP_W0_IN_PTR (a : Nat) : Fld := ⟨MB_EP_W0 a, 0, 32⟩
def MB_EP_W1 (a : Nat) : Nat := 0x4130104 + 0x20 * a
def MB_EP_W1_IN_LT (a : Nat) : Fld := ⟨MB_EP_W1 a, 0, 32⟩
def MB_EP_W2 (a : Nat) : Nat := 0x4130108 + 0x20 * a
def MB_EP_W2_VALID (a : Nat) : Fld := ⟨MB_EP_W2 a, 31, 1⟩
def MB_EP_W2_SENDER (a : Nat) : Fld := ⟨MB_EP_W2 a, 0, 5⟩
def MB_EP_W3 (a : Nat) : Nat := 0x413010c + 0x20 * a
def MB_EP_W3_OUT_STATE (a : Nat) : Fld := ⟨MB_EP_W3 a, 30, 2⟩
def MB_EP_W3_DEST (a : Nat) : Fld := ⟨MB_EP_W3 a, 16, 5⟩
def MB_EP_W3_CODE (a : Nat) : Fld := ⟨MB_EP_W3 a, 0, 16⟩
def MB_EP_W4 (a : Nat) : Nat := 0x4130110 + 0x20 * a
def MB_EP_W4_DB_PEND (a : Nat) : Fld := ⟨MB_EP_W4 a, 0, 32⟩
def MB_EP_W5 (a : Nat) : Nat := 0x4130114 + 0x20 * a
def MB_EP_W5_DB_SET (a : Nat) : Fld := ⟨MB_EP_W5 a, 0, 32⟩
def MB_EP_W6 (a : Nat) : Nat := 0x4130118 + 0x20 * a
def MB_EP_W6_DB_MASK (a : Nat) : Fld := ⟨MB_EP_W6 a, 0, 32⟩
def MB_EP_W7 (a : Nat) : Nat := 0x413011c + 0x20 * a
def MB_EP_W7_EPCFG_ACK_TMO_MS (a : Nat) : Fld := ⟨MB_EP_W7 a, 0, 16⟩
def HSEM (a : Nat) : Nat := 0x4130800 + 0x4 * a
def HSEM_ACQ (a : Nat) : Fld := ⟨HSEM a, 31, 1⟩
def HSEM_OWNER (a : Nat) : Fld := ⟨HSEM a, 16, 9⟩
def HSEM_REL (a : Nat) : Fld := ⟨HSEM a, 0, 1⟩
def MB_RES_CFG (a : Nat) : Nat := 0x4130a00 + 0x4 * a
def MB_RES_CFG_EN (a : Nat) : Fld := ⟨MB_RES_CFG a, 31, 1⟩
def MB_RES_CFG_RING (a : Nat) : Fld := ⟨MB_RES_CFG a, 29, 1⟩
def MB_RES_CFG_EP (a : Nat) : Fld := ⟨MB_RES_CFG a, 24, 5⟩
def MB_RES_CFG_BIT (a : Nat) : Fld := ⟨MB_RES_CFG a, 19, 5⟩
def MB_RES_CFG_OFF (a : Nat) : Fld := ⟨MB_RES_CFG a, 0, 18⟩
def MB_RES_REQ : Nat := 0x4130a40
def MB_RES_REQ_REQ : Fld := ⟨MB_RES_REQ, 0, 16⟩
def MB_RES_W0 (a : Nat) : Nat := 0x4131000 + 0x40 * a
def MB_RES_W0_VALID (a : Nat) : Fld := ⟨MB_RES_W0 a, 31, 1⟩
def MB_RES_W0_STALE (a : Nat) : Fld := ⟨MB_RES_W0 a, 30, 1⟩
def MB_RES_W0_SEQ (a : Nat) : Fld := ⟨MB_RES_W0 a, 0, 16⟩
def MB_RES_DATA (a b : Nat) : Nat := 0x4131004 + 0x40 * a + 0x4 * b
def MB_RES_DATA_DATA (a b : Nat) : Fld := ⟨MB_RES_DATA a b, 0, 32⟩

/-! ## EVR -/
def EVR_CMD : Nat := 0x4140000
def EVR_CMD_OP : Fld := ⟨EVR_CMD, 24, 8⟩
def EVR_CMD_ARG : Fld := ⟨EVR_CMD, 0, 24⟩
def EVR_CMD_STATUS : Nat := 0x4140004
def EVR_CMD_STATUS_BUSY : Fld := ⟨EVR_CMD_STATUS, 31, 1⟩
def EVR_CMD_STATUS_SEQ : Fld := ⟨EVR_CMD_STATUS, 16, 8⟩
def EVR_CMD_STATUS_DROPPED : Fld := ⟨EVR_CMD_STATUS, 8, 1⟩
def EVR_CMD_STATUS_CODE : Fld := ⟨EVR_CMD_STATUS, 0, 3⟩
def EVR_CFG : Nat := 0x4140010
def EVR_CFG_ARCH_EN : Fld := ⟨EVR_CFG, 31, 1⟩
def EVR_CFG_ARCH_SEV : Fld := ⟨EVR_CFG, 28, 3⟩
def EVR_CFG_FRZ_MS : Fld := ⟨EVR_CFG, 13, 11⟩
def EVR_CFG_HIGH : Fld := ⟨EVR_CFG, 0, 13⟩
def EVR_STAT : Nat := 0x4140014
def EVR_STAT_FROZEN : Fld := ⟨EVR_STAT, 31, 1⟩
def EVR_STAT_ABOVE_HIGH : Fld := ⟨EVR_STAT, 30, 1⟩
def EVR_STAT_ARCH_BUSY : Fld := ⟨EVR_STAT, 29, 1⟩
def EVR_STAT_SPILL : Fld := ⟨EVR_STAT, 16, 6⟩
def EVR_STAT_COUNT : Fld := ⟨EVR_STAT, 0, 13⟩
def EVR_ESEQ : Nat := 0x4140018
def EVR_ESEQ_NEXT : Fld := ⟨EVR_ESEQ, 0, 32⟩
def EVR_LOSS : Nat := 0x414001c
def EVR_LOSS_ARCH_MISS : Fld := ⟨EVR_LOSS, 24, 8⟩
def EVR_LOSS_DROPPED : Fld := ⟨EVR_LOSS, 12, 12⟩
def EVR_LOSS_LOST : Fld := ⟨EVR_LOSS, 0, 12⟩
def EVR_COPY_FROM : Nat := 0x4140020
def EVR_COPY_FROM_FROM : Fld := ⟨EVR_COPY_FROM, 0, 32⟩
def EVR_COPY_DST : Nat := 0x4140024
def EVR_COPY_DST_FORM : Fld := ⟨EVR_COPY_DST, 31, 1⟩
def EVR_COPY_DST_DST : Fld := ⟨EVR_COPY_DST, 0, 23⟩
def EVR_COPY_RES : Nat := 0x4140028
def EVR_COPY_RES_COPIED : Fld := ⟨EVR_COPY_RES, 16, 13⟩
def EVR_COPY_RES_MAX : Fld := ⟨EVR_COPY_RES, 0, 13⟩
def EVR_COPY_NEXT : Nat := 0x414002c
def EVR_COPY_NEXT_NEXT : Fld := ⟨EVR_COPY_NEXT, 0, 32⟩
def EVR_CLEAR_KEY : Nat := 0x4140030
def EVR_CLEAR_KEY_KEY : Fld := ⟨EVR_CLEAR_KEY, 0, 32⟩
def EVR_RING : Nat := 0x4140034
def EVR_RING_EN : Fld := ⟨EVR_RING, 31, 1⟩
def EVR_RING_BASE : Fld := ⟨EVR_RING, 0, 23⟩
def EVR_ARCH : Nat := 0x4140038
def EVR_ARCH_LAST : Fld := ⟨EVR_ARCH, 0, 32⟩
def EVR_CODE (a : Nat) : Nat := 0x4141000 + 0x4 * a
def EVR_CODE_EN (a : Nat) : Fld := ⟨EVR_CODE a, 31, 1⟩
def EVR_CODE_SEV (a : Nat) : Fld := ⟨EVR_CODE a, 24, 3⟩
def EVR_CODE_RATE_W (a : Nat) : Fld := ⟨EVR_CODE a, 16, 3⟩
def EVR_CODE_RATE_N (a : Nat) : Fld := ⟨EVR_CODE a, 8, 4⟩
def EVR_CODE_SNAP (a : Nat) : Fld := ⟨EVR_CODE a, 0, 8⟩

/-! ## PWR -/
def PWR_CMD : Nat := 0x4150000
def PWR_CMD_OP : Fld := ⟨PWR_CMD, 24, 8⟩
def PWR_CMD_ARG : Fld := ⟨PWR_CMD, 0, 24⟩
def PWR_CMD_STATUS : Nat := 0x4150004
def PWR_CMD_STATUS_BUSY : Fld := ⟨PWR_CMD_STATUS, 31, 1⟩
def PWR_CMD_STATUS_SEQ : Fld := ⟨PWR_CMD_STATUS, 16, 8⟩
def PWR_CMD_STATUS_DROPPED : Fld := ⟨PWR_CMD_STATUS, 8, 1⟩
def PWR_CMD_STATUS_CODE : Fld := ⟨PWR_CMD_STATUS, 0, 3⟩
def PWR_CFG : Nat := 0x4150010
def PWR_CFG_PFW_INT : Fld := ⟨PWR_CFG, 31, 1⟩
def PWR_CFG_ALARM_EN : Fld := ⟨PWR_CFG, 30, 1⟩
def PWR_CFG_T_WARN : Fld := ⟨PWR_CFG, 16, 8⟩
def PWR_CFG_AGE_WARN_PPM : Fld := ⟨PWR_CFG, 0, 16⟩
def PWR_WEIR (a : Nat) : Nat := 0x4150020 + 0x4 * a
def PWR_WEIR_INR_US (a : Nat) : Fld := ⟨PWR_WEIR a, 24, 4⟩
def PWR_WEIR_BUD_10MA (a : Nat) : Fld := ⟨PWR_WEIR a, 0, 12⟩
def PWR_INR (a : Nat) : Nat := 0x4150030 + 0x4 * a
def PWR_INR_CLASS (a : Nat) : Fld := ⟨PWR_INR a, 0, 32⟩
def PWR_WEIR_STAT : Nat := 0x415003c
def PWR_WEIR_STAT_LAST_2 : Fld := ⟨PWR_WEIR_STAT, 16, 7⟩
def PWR_WEIR_STAT_LAST_1 : Fld := ⟨PWR_WEIR_STAT, 8, 7⟩
def PWR_WEIR_STAT_LAST_0 : Fld := ⟨PWR_WEIR_STAT, 0, 7⟩
def PWR_WEIR_CNT : Nat := 0x4150040
def PWR_WEIR_CNT_NAND_HELD : Fld := ⟨PWR_WEIR_CNT, 24, 8⟩
def PWR_WEIR_CNT_OVER_2 : Fld := ⟨PWR_WEIR_CNT, 16, 8⟩
def PWR_WEIR_CNT_OVER_1 : Fld := ⟨PWR_WEIR_CNT, 8, 8⟩
def PWR_WEIR_CNT_OVER_0 : Fld := ⟨PWR_WEIR_CNT, 0, 8⟩
def PWR_SUP_STAT : Nat := 0x4150050
def PWR_SUP_STAT_FD_HOT : Fld := ⟨PWR_SUP_STAT, 13, 1⟩
def PWR_SUP_STAT_HOT : Fld := ⟨PWR_SUP_STAT, 12, 1⟩
def PWR_SUP_STAT_TJ_WARN : Fld := ⟨PWR_SUP_STAT, 11, 1⟩
def PWR_SUP_STAT_STBY_LOW : Fld := ⟨PWR_SUP_STAT, 10, 1⟩
def PWR_SUP_STAT_PFW : Fld := ⟨PWR_SUP_STAT, 9, 1⟩
def PWR_SUP_STAT_VIO33 : Fld := ⟨PWR_SUP_STAT, 6, 3⟩
def PWR_SUP_STAT_VSERDES : Fld := ⟨PWR_SUP_STAT, 3, 1⟩
def PWR_SUP_STAT_VCORE : Fld := ⟨PWR_SUP_STAT, 0, 3⟩
def PWR_SUP_STAT_VPLL : Fld := ⟨PWR_SUP_STAT, 5, 1⟩
def PWR_SUP_STAT_VIO18 : Fld := ⟨PWR_SUP_STAT, 4, 1⟩
def PWR_SUP_FLAGS : Nat := 0x4150054
def PWR_SUP_FLAGS_FD_HOT : Fld := ⟨PWR_SUP_FLAGS, 13, 1⟩
def PWR_SUP_FLAGS_HOT : Fld := ⟨PWR_SUP_FLAGS, 12, 1⟩
def PWR_SUP_FLAGS_TJ_WARN : Fld := ⟨PWR_SUP_FLAGS, 11, 1⟩
def PWR_SUP_FLAGS_STBY_LOW : Fld := ⟨PWR_SUP_FLAGS, 10, 1⟩
def PWR_SUP_FLAGS_PFW : Fld := ⟨PWR_SUP_FLAGS, 9, 1⟩
def PWR_SUP_FLAGS_VIO33 : Fld := ⟨PWR_SUP_FLAGS, 6, 3⟩
def PWR_SUP_FLAGS_VSERDES : Fld := ⟨PWR_SUP_FLAGS, 3, 1⟩
def PWR_SUP_FLAGS_VCORE : Fld := ⟨PWR_SUP_FLAGS, 0, 3⟩
def PWR_SUP_FLAGS_VPLL : Fld := ⟨PWR_SUP_FLAGS, 5, 1⟩
def PWR_SUP_FLAGS_VIO18 : Fld := ⟨PWR_SUP_FLAGS, 4, 1⟩
def PWR_VMON (a : Nat) : Nat := 0x4150060 + 0x4 * a
def PWR_VMON_MV (a : Nat) : Fld := ⟨PWR_VMON a, 0, 16⟩
def PWR_TEMP (a : Nat) : Nat := 0x4150080 + 0x4 * a
def PWR_TEMP_MAX_01C (a : Nat) : Fld := ⟨PWR_TEMP a, 16, 16⟩
def PWR_TEMP_T_01C (a : Nat) : Fld := ⟨PWR_TEMP a, 0, 16⟩
def PWR_PMON (a : Nat) : Nat := 0x41500a0 + 0x4 * a
def PWR_PMON_SLOW_PPM (a : Nat) : Fld := ⟨PWR_PMON a, 0, 32⟩
def PWR_STBY_STAT : Nat := 0x41500d0
def PWR_STBY_STAT_VALID : Fld := ⟨PWR_STBY_STAT, 31, 1⟩
def PWR_STBY_STAT_WAKE : Fld := ⟨PWR_STBY_STAT, 30, 1⟩
def PWR_STBY_STAT_FRAC : Fld := ⟨PWR_STBY_STAT, 0, 15⟩
def PWR_STBY_SEC_LO : Nat := 0x41500d4
def PWR_STBY_SEC_LO_SEC : Fld := ⟨PWR_STBY_SEC_LO, 0, 32⟩
def PWR_STBY_SEC_HI : Nat := 0x41500d8
def PWR_STBY_SEC_HI_SEC : Fld := ⟨PWR_STBY_SEC_HI, 0, 16⟩
def PWR_ALARM_LO : Nat := 0x41500e0
def PWR_ALARM_LO_SEC : Fld := ⟨PWR_ALARM_LO, 0, 32⟩
def PWR_ALARM_HI : Nat := 0x41500e4
def PWR_ALARM_HI_SEC : Fld := ⟨PWR_ALARM_HI, 0, 16⟩

/-! ## DBG -/
def DBG_STATUS : Nat := 0x4160000
def DBG_STATUS_EXTEST_EN : Fld := ⟨DBG_STATUS, 2, 1⟩
def DBG_STATUS_DEBUG_PERM : Fld := ⟨DBG_STATUS, 1, 1⟩
def DBG_STATUS_TAP_ACCESS : Fld := ⟨DBG_STATUS, 0, 1⟩

/-! ## Access and reset rows -/

/-- A register (or a repeated register): its offset in the block, its repetitions (count, stride), the bits
that a write sets (RW, RWS), that it sets until the seal (RWL), that writing 1 clears (W1C), and the reset value. -/
structure Row where
  off : Nat
  dims : List (Nat × Nat)
  rw : Nat
  rwl : Nat
  w1c : Nat
  reset : Nat
deriving DecidableEq, Repr

def rowsSYS : List Row :=
  [⟨0x8, [], 0x0, 0x0, 0x0, 0x0⟩,
   ⟨0x10, [], 0x0, 0x0, 0x0, 0x0⟩,
   ⟨0x14, [], 0x0, 0x0, 0x100, 0x0⟩,
   ⟨0x0, [], 0x0, 0x0, 0x0, 0x82600000⟩,
   ⟨0x4, [], 0x0, 0x0, 0x0, 0x0⟩,
   ⟨0x20, [], 0x0, 0x0, 0xfff, 0x0⟩,
   ⟨0x24, [], 0x0, 0x0, 0x0, 0x0⟩,
   ⟨0x28, [], 0x0, 0x0, 0x0, 0x0⟩,
   ⟨0x30, [], 0x0, 0x0, 0x0, 0x0⟩,
   ⟨0x34, [], 0x0, 0x0, 0x7f, 0x0⟩,
   ⟨0x40, [], 0x0, 0x0, 0x0, 0x0⟩]

def rowsTICK : List Row :=
  [⟨0x0, [], 0x0, 0x0, 0x0, 0x0⟩,
   ⟨0x4, [], 0x0, 0x0, 0x100, 0x0⟩,
   ⟨0x10, [], 0x0, 0x1f0, 0x0, 0x42⟩,
   ⟨0x14, [], 0x0, 0x7fff, 0x0, 0x3e8⟩,
   ⟨0x18, [], 0x0, 0x1ff7fff, 0x0, 0x285514⟩,
   ⟨0x1c, [], 0x0, 0x7, 0x0, 0x0⟩,
   ⟨0x20, [], 0x0, 0xff, 0x0, 0x96⟩,
   ⟨0x24, [], 0x0, 0x0, 0x0, 0x0⟩,
   ⟨0x28, [], 0x0, 0x0, 0x7f, 0x0⟩,
   ⟨0x2c, [], 0x0, 0x0, 0x0, 0x0⟩,
   ⟨0x30, [], 0x0, 0x0, 0x0, 0x0⟩,
   ⟨0x34, [], 0x0, 0x0, 0x0, 0x0⟩,
   ⟨0x40, [], 0x0, 0x0, 0x0, 0x0⟩]

def rowsCE : List Row :=
  [⟨0x0, [(24, 0x400)], 0x0, 0x0, 0x0, 0x0⟩,
   ⟨0x4, [(24, 0x400)], 0x0, 0x0, 0x100, 0x0⟩,
   ⟨0x10, [(24, 0x400)], 0x0, 0x0, 0x0, 0x0⟩,
   ⟨0x14, [(24, 0x400)], 0x0, 0x0, 0x0, 0x0⟩,
   ⟨0x18, [(24, 0x400)], 0x0, 0x0, 0x0, 0x0⟩,
   ⟨0x20, [(24, 0x400)], 0x0, 0x0, 0x0, 0x0⟩,
   ⟨0x24, [(24, 0x400)], 0x0, 0x0, 0x1f0000, 0x0⟩,
   ⟨0x28, [(24, 0x400)], 0xff000000, 0x0, 0x0, 0x0⟩,
   ⟨0x30, [(24, 0x400)], 0xffffffff, 0x0, 0x0, 0x0⟩,
   ⟨0x34, [(24, 0x400)], 0x0, 0x0, 0x0, 0x0⟩,
   ⟨0x40, [(24, 0x400), (4, 0x4)], 0x801f7fff, 0x0, 0x0, 0x0⟩,
   ⟨0x8000, [], 0x0, 0x1ff, 0x0, 0x110⟩,
   ⟨0x8004, [], 0x0, 0x0, 0x0, 0x0⟩,
   ⟨0x8008, [], 0x0, 0x0, 0x0, 0x0⟩,
   ⟨0x800c, [], 0x0, 0x0, 0x0, 0x0⟩,
   ⟨0x60, [(24, 0x400)], 0x0, 0x0, 0x0, 0x0⟩,
   ⟨0x64, [(24, 0x400)], 0x0, 0x0, 0x0, 0x0⟩,
   ⟨0x68, [(24, 0x400)], 0x0, 0x0, 0x0, 0x0⟩]

def rowsTASK : List Row :=
  [⟨0x8000, [], 0x0, 0x0, 0x0, 0x0⟩,
   ⟨0x8004, [], 0x0, 0x0, 0x100, 0x0⟩,
   ⟨0x8010, [], 0x0, 0x3fff, 0x0, 0x500⟩,
   ⟨0x8014, [], 0x0, 0x0, 0x0, 0x0⟩,
   ⟨0x8100, [(32, 0x4)], 0x0, 0x80000fff, 0x0, 0x0⟩,
   ⟨0x9000, [(256, 0x4)], 0x0, 0x80001f0f, 0x0, 0x0⟩,
   ⟨0x0, [(24, 0x400), (16, 0x20)], 0x0, 0xffc07fff, 0x0, 0x0⟩,
   ⟨0x4, [(24, 0x400), (16, 0x20)], 0x0, 0x7ff03ff, 0x0, 0x0⟩,
   ⟨0x8, [(24, 0x400), (16, 0x20)], 0x0, 0x7fff, 0x0, 0x0⟩,
   ⟨0xc, [(24, 0x400), (16, 0x20)], 0x0, 0x0, 0x0, 0x0⟩,
   ⟨0x10, [(24, 0x400), (16, 0x20)], 0x0, 0x0, 0x0, 0x0⟩,
   ⟨0x14, [(24, 0x400), (16, 0x20)], 0x0, 0x0, 0x0, 0x0⟩,
   ⟨0x200, [(24, 0x400)], 0x0, 0x11f, 0x0, 0x0⟩,
   ⟨0x204, [(24, 0x400)], 0x0, 0xffffffff, 0x0, 0x0⟩,
   ⟨0x208, [(24, 0x400)], 0x0, 0xffff, 0x0, 0x0⟩,
   ⟨0x210, [(24, 0x400)], 0x0, 0x0, 0x0, 0x0⟩,
   ⟨0x214, [(24, 0x400)], 0x0, 0x0, 0x0, 0x0⟩]

def rowsIMG : List Row :=
  [⟨0x0, [], 0x0, 0x0, 0x0, 0x0⟩,
   ⟨0x4, [], 0x0, 0x0, 0x100, 0x0⟩,
   ⟨0x10, [], 0x0, 0x7ffffff, 0x0, 0x0⟩,
   ⟨0x14, [], 0x0, 0x0, 0x0, 0x0⟩,
   ⟨0x18, [], 0x0, 0x0, 0x0, 0x0⟩,
   ⟨0x20, [], 0xef1fffff, 0x0, 0x0, 0x0⟩,
   ⟨0x24, [], 0xffffffff, 0x0, 0x0, 0x0⟩,
   ⟨0x28, [], 0x0, 0x0, 0x0, 0x0⟩,
   ⟨0x30, [], 0x7fffff, 0x0, 0x0, 0x0⟩,
   ⟨0x34, [], 0xffffffff, 0x0, 0x0, 0x0⟩,
   ⟨0x38, [], 0xffffffff, 0x0, 0x0, 0x0⟩,
   ⟨0x3c, [], 0x0, 0x0, 0x0, 0x0⟩,
   ⟨0x40, [], 0x0, 0x0, 0x0, 0x0⟩,
   ⟨0x44, [], 0x0, 0x0, 0x0, 0x0⟩,
   ⟨0x400, [(64, 0x8)], 0x0, 0xdfffffff, 0x0, 0x0⟩,
   ⟨0x404, [(64, 0x8)], 0x0, 0xfffff, 0x0, 0x0⟩,
   ⟨0x1000, [(1024, 0x8)], 0x0, 0x0, 0x0, 0x0⟩,
   ⟨0x1004, [(1024, 0x8)], 0x0, 0x0, 0x0, 0x0⟩]

def rowsKL : List Row :=
  [⟨0x0, [], 0x0, 0x0, 0x0, 0x0⟩,
   ⟨0x4, [], 0x0, 0x0, 0x100, 0x0⟩,
   ⟨0x100, [(3, 0x40)], 0x0, 0x1f1, 0x0, 0x0⟩,
   ⟨0x104, [(3, 0x40)], 0x0, 0x0, 0x0, 0x0⟩,
   ⟨0x108, [(3, 0x40)], 0x0, 0x0, 0x0, 0x0⟩,
   ⟨0x10c, [(3, 0x40)], 0x0, 0x0, 0x0, 0x0⟩,
   ⟨0x110, [(3, 0x40)], 0x0, 0x0, 0x0, 0x0⟩]

def rowsTRI : List Row :=
  [⟨0x0, [], 0x0, 0x0, 0x0, 0x0⟩,
   ⟨0x4, [], 0x0, 0x0, 0x100, 0x0⟩,
   ⟨0x10, [], 0x0, 0xf01e, 0x0, 0x3004⟩,
   ⟨0x14, [], 0x0, 0xfff, 0x0, 0x3e8⟩,
   ⟨0x18, [], 0x0, 0x0, 0x0, 0x77700⟩,
   ⟨0x20, [(3, 0x4)], 0x0, 0x0, 0x0, 0x0⟩,
   ⟨0x30, [], 0x0, 0x0, 0x0, 0x0⟩,
   ⟨0x34, [], 0x0, 0x0, 0x0, 0x0⟩,
   ⟨0x38, [], 0x0, 0x0, 0x0, 0x0⟩,
   ⟨0x40, [], 0x0, 0x3ffffff, 0x0, 0x4003e8⟩,
   ⟨0x44, [], 0x0, 0x0, 0x0, 0x0⟩,
   ⟨0x48, [], 0x0, 0x0, 0x0, 0x0⟩,
   ⟨0x4c, [], 0x0, 0x0, 0x0, 0x0⟩,
   ⟨0x50, [], 0x0, 0xffffffff, 0x0, 0x0⟩,
   ⟨0x54, [], 0x0, 0xffffffff, 0x0, 0x0⟩,
   ⟨0x58, [], 0x0, 0xffffffff, 0x0, 0x0⟩,
   ⟨0x400, [(64, 0x8)], 0x0, 0xf803ffff, 0x0, 0x0⟩,
   ⟨0x404, [(64, 0x8)], 0x0, 0xff07ffff, 0x0, 0x0⟩,
   ⟨0x800, [(32, 0x4)], 0x0, 0xf003ffff, 0x0, 0x0⟩]

def rowsFO : List Row :=
  [⟨0x0, [], 0x0, 0x0, 0x0, 0x0⟩,
   ⟨0x4, [], 0x0, 0x0, 0x100, 0x0⟩,
   ⟨0x10, [], 0x0, 0xfc30ff00, 0x0, 0x300800⟩,
   ⟨0x14, [], 0x0, 0x3ff03ff, 0x0, 0x0⟩,
   ⟨0x18, [], 0x0, 0x3ff03ff, 0x0, 0x0⟩,
   ⟨0x20, [], 0x0, 0x0, 0x0, 0x0⟩,
   ⟨0x24, [], 0x0, 0x0, 0x0, 0x0⟩,
   ⟨0x28, [], 0x0, 0x0, 0x0, 0x0⟩,
   ⟨0x2c, [], 0x0, 0x0, 0x0, 0x0⟩,
   ⟨0x30, [], 0x0, 0x0, 0x0, 0x0⟩,
   ⟨0x34, [], 0x0, 0x7fff, 0x0, 0x0⟩,
   ⟨0x38, [], 0x0, 0x3ffff, 0x0, 0x0⟩,
   ⟨0x40, [], 0x0, 0x31f00ff, 0x0, 0x10⟩,
   ⟨0x44, [], 0x0, 0x0, 0x0, 0x0⟩,
   ⟨0x48, [], 0x0, 0x0, 0x0, 0x0⟩,
   ⟨0x100, [(16, 0x8)], 0x0, 0x8f007fff, 0x0, 0x0⟩,
   ⟨0x104, [(16, 0x8)], 0x0, 0x3fff, 0x0, 0x0⟩,
   ⟨0x200, [(64, 0x8)], 0x0, 0xc3ff0fff, 0x0, 0x0⟩,
   ⟨0x204, [(64, 0x8)], 0x0, 0x3ffff, 0x0, 0x0⟩]

def rowsSB : List Row :=
  [⟨0x0, [], 0x0, 0x0, 0x0, 0x0⟩,
   ⟨0x4, [], 0x0, 0x0, 0x100, 0x0⟩,
   ⟨0x10, [], 0x0, 0xe0ff003f, 0x0, 0x80000⟩,
   ⟨0x14, [], 0x0, 0x7fff7fff, 0x0, 0x5dc09c4⟩,
   ⟨0x18, [], 0x0, 0xff, 0x0, 0x8⟩,
   ⟨0x1c, [], 0x0, 0x3f3f3f3f, 0x0, 0x0⟩,
   ⟨0x20, [], 0x0, 0x8003ffff, 0x0, 0x0⟩,
   ⟨0x24, [], 0x0, 0xffffffff, 0x0, 0x0⟩,
   ⟨0x28, [], 0x0, 0xffffffff, 0x0, 0x0⟩,
   ⟨0x30, [], 0x0, 0x0, 0x0, 0x30000⟩,
   ⟨0x34, [], 0x0, 0x0, 0x0, 0x0⟩,
   ⟨0x38, [], 0x0, 0x0, 0x0, 0x0⟩,
   ⟨0x40, [], 0x0, 0x37777, 0x0, 0x0⟩,
   ⟨0x44, [], 0x0, 0x7f7f7f7f, 0x0, 0x0⟩,
   ⟨0x48, [], 0x0, 0x0, 0x0, 0x0⟩,
   ⟨0x4c, [], 0x0, 0x0, 0x0, 0x0⟩,
   ⟨0x50, [], 0x0, 0x0, 0x0, 0x0⟩,
   ⟨0x54, [], 0x0, 0x0, 0x0, 0x0⟩,
   ⟨0x58, [], 0x0, 0x0, 0x0, 0x0⟩,
   ⟨0x60, [], 0x0, 0x0, 0x7f, 0x0⟩,
   ⟨0x100, [(32, 0x4)], 0x0, 0xfff07fff, 0x0, 0x0⟩,
   ⟨0x1000, [(256, 0x10)], 0x0, 0xffff3fe0, 0x0, 0x0⟩,
   ⟨0x1004, [(256, 0x10)], 0x0, 0x7fffffff, 0x0, 0x0⟩,
   ⟨0x1008, [(256, 0x10)], 0x0, 0x0, 0x0, 0x0⟩,
   ⟨0x100c, [(256, 0x10)], 0x0, 0x0, 0x0, 0x0⟩,
   ⟨0x2000, [(4, 0x200), (64, 0x8)], 0x0, 0xffffffff, 0x0, 0x0⟩,
   ⟨0x2004, [(4, 0x200), (64, 0x8)], 0x0, 0x3ff03ff, 0x0, 0x0⟩]

def rowsSBG : List Row :=
  [⟨0x0, [], 0x0, 0x0, 0x0, 0x0⟩,
   ⟨0x4, [], 0x0, 0x0, 0x100, 0x0⟩,
   ⟨0x10, [], 0x0, 0xa000003f, 0x0, 0x0⟩,
   ⟨0x14, [], 0x0, 0x7fff, 0x0, 0x0⟩,
   ⟨0x18, [], 0x0, 0x7777, 0x0, 0x0⟩,
   ⟨0x1c, [], 0x0, 0xffffffff, 0x0, 0x0⟩,
   ⟨0x20, [], 0x0, 0xffffffff, 0x0, 0x0⟩,
   ⟨0x24, [], 0x0, 0x0, 0x0, 0x0⟩,
   ⟨0x28, [], 0x0, 0x0, 0x0, 0x0⟩,
   ⟨0x2000, [(4, 0x200), (64, 0x8)], 0x0, 0xffffffff, 0x0, 0x0⟩,
   ⟨0x2004, [(4, 0x200), (64, 0x8)], 0x0, 0xffc00000, 0x0, 0x0⟩]

def rowsETH : List Row :=
  [⟨0x0, [], 0x0, 0x0, 0x0, 0x0⟩,
   ⟨0x4, [], 0x0, 0x0, 0x100, 0x0⟩,
   ⟨0x10, [], 0x83ffffff, 0x0, 0x0, 0x0⟩,
   ⟨0x14, [], 0xffff, 0x0, 0x0, 0x0⟩,
   ⟨0x18, [], 0x0, 0x807fffff, 0x0, 0x0⟩,
   ⟨0x1c, [], 0x0, 0x8003ffff, 0x0, 0x0⟩,
   ⟨0x100, [(3, 0x40)], 0x0, 0xfc0003ff, 0x0, 0x600003e8⟩,
   ⟨0x104, [(3, 0x40)], 0x0, 0x0, 0x0, 0x0⟩,
   ⟨0x108, [(3, 0x40)], 0x0, 0xffffffff, 0x0, 0x0⟩,
   ⟨0x10c, [(3, 0x40)], 0x0, 0xffff, 0x0, 0x0⟩,
   ⟨0x110, [(3, 0x40)], 0x0, 0xffffff, 0x0, 0x0⟩,
   ⟨0x114, [(3, 0x40)], 0x0, 0xffffffff, 0x0, 0x0⟩,
   ⟨0x118, [(3, 0x40)], 0x0, 0x0, 0x0, 0x0⟩,
   ⟨0x11c, [(3, 0x40)], 0x0, 0x0, 0x0, 0x0⟩,
   ⟨0x120, [(3, 0x40)], 0x0, 0x0, 0x80000000, 0x0⟩,
   ⟨0x124, [(3, 0x40)], 0x0, 0x0, 0x0, 0x0⟩,
   ⟨0x128, [(3, 0x40)], 0x0, 0x0, 0x0, 0x0⟩,
   ⟨0x1000, [(64, 0x8)], 0x0, 0xe700ffff, 0x0, 0x0⟩,
   ⟨0x1004, [(64, 0x8)], 0x0, 0x1fffffff, 0x0, 0x0⟩]

def rowsTB : List Row :=
  [⟨0x0, [], 0x0, 0x0, 0x0, 0x0⟩,
   ⟨0x4, [], 0x0, 0x0, 0x100, 0x0⟩,
   ⟨0x10, [], 0x0, 0xfff13, 0x0, 0x0⟩,
   ⟨0x14, [(3, 0x4)], 0x0, 0xf0000000, 0x0, 0x0⟩,
   ⟨0x20, [], 0x0, 0xffffffff, 0x0, 0x0⟩,
   ⟨0x24, [], 0x0, 0xffffffff, 0x0, 0x0⟩,
   ⟨0x28, [], 0x0, 0xffff, 0x0, 0x0⟩,
   ⟨0x30, [], 0x0, 0xffffffff, 0x0, 0xb3199a48⟩,
   ⟨0x34, [], 0x0, 0xffffffff, 0x0, 0x6419064⟩,
   ⟨0x40, [], 0x0, 0x0, 0x0, 0x30⟩,
   ⟨0x44, [], 0x0, 0x0, 0x0, 0x0⟩,
   ⟨0x48, [], 0x0, 0x0, 0x0, 0x0⟩,
   ⟨0x50, [(3, 0x4)], 0x0, 0x0, 0x0, 0x0⟩,
   ⟨0x60, [], 0x0, 0x0, 0x0, 0x0⟩,
   ⟨0x64, [], 0x0, 0x0, 0x0, 0x0⟩,
   ⟨0x70, [], 0x0, 0xffffffff, 0x0, 0x0⟩,
   ⟨0x74, [], 0x0, 0xffffffff, 0x0, 0x0⟩,
   ⟨0x80, [], 0x0, 0x0, 0x0, 0x0⟩,
   ⟨0x84, [], 0x0, 0x0, 0x0, 0x0⟩,
   ⟨0x88, [], 0x0, 0x0, 0x0, 0x0⟩,
   ⟨0x8c, [], 0x0, 0x0, 0x0, 0x0⟩,
   ⟨0x90, [], 0x3fffffff, 0x0, 0x0, 0x0⟩,
   ⟨0x94, [], 0xffffffff, 0x0, 0x0, 0x0⟩,
   ⟨0x98, [], 0xffff, 0x0, 0x0, 0x0⟩,
   ⟨0xa0, [], 0x0, 0xc00701ff, 0x0, 0x64⟩,
   ⟨0xa4, [], 0x0, 0x1ffffff, 0x0, 0x0⟩,
   ⟨0xb0, [], 0x0, 0x0, 0x0, 0x0⟩]

def rowsSC : List Row :=
  [⟨0x0, [], 0x0, 0x0, 0x0, 0x0⟩,
   ⟨0x4, [], 0x0, 0x0, 0x100, 0x0⟩,
   ⟨0x10, [], 0x0, 0x8003ffff, 0x0, 0x0⟩,
   ⟨0x14, [], 0x0, 0x807fffff, 0x0, 0x0⟩,
   ⟨0x18, [], 0x0, 0x0, 0x0, 0x0⟩,
   ⟨0x1c, [], 0x0, 0x0, 0x0, 0x0⟩,
   ⟨0x20, [(8, 0x4)], 0x0, 0x0, 0x0, 0x0⟩,
   ⟨0x40, [(4, 0x4)], 0x0, 0x0, 0x0, 0x0⟩,
   ⟨0x50, [], 0x0, 0x0, 0x0, 0x0⟩,
   ⟨0x54, [], 0x0, 0x0, 0x0, 0x0⟩,
   ⟨0x1000, [(256, 0x20)], 0x0, 0xffffffff, 0x0, 0x0⟩,
   ⟨0x1004, [(256, 0x20)], 0x0, 0xffffffff, 0x0, 0x0⟩,
   ⟨0x1008, [(256, 0x20)], 0x0, 0x3ffff, 0x0, 0x0⟩,
   ⟨0x100c, [(256, 0x20)], 0x0, 0xff03ffff, 0x0, 0x23000000⟩,
   ⟨0x1010, [(256, 0x20)], 0x0, 0xffffffff, 0x0, 0x8⟩,
   ⟨0x1014, [(256, 0x20)], 0x0, 0x0, 0x0, 0x0⟩,
   ⟨0x1018, [(256, 0x20)], 0x0, 0x0, 0x0, 0x0⟩,
   ⟨0x101c, [(256, 0x20)], 0x0, 0x0, 0x0, 0x0⟩]

def rowsSF : List Row :=
  [⟨0x0, [], 0x0, 0x0, 0x0, 0x0⟩,
   ⟨0x4, [], 0x0, 0x0, 0x100, 0x0⟩,
   ⟨0x10, [], 0x0, 0x8003ffff, 0x0, 0x0⟩,
   ⟨0x14, [], 0x0, 0x8001ffff, 0x0, 0x0⟩,
   ⟨0x18, [], 0x0, 0x0, 0x0, 0x0⟩,
   ⟨0x1c, [], 0x0, 0x0, 0x0, 0x0⟩,
   ⟨0x20, [], 0x0, 0x0, 0x0, 0x1⟩,
   ⟨0x24, [], 0x0, 0x0, 0xffffffff, 0x0⟩,
   ⟨0x28, [], 0x0, 0x0, 0x0, 0xffffff⟩,
   ⟨0x2c, [], 0x0, 0x0, 0x0, 0x0⟩,
   ⟨0x30, [], 0x0, 0x0, 0x0, 0x0⟩,
   ⟨0x34, [], 0x0, 0x0, 0x0, 0x0⟩,
   ⟨0x60, [(4, 0x4)], 0x0, 0x0, 0x0, 0x0⟩,
   ⟨0x80, [(4, 0x4)], 0x0, 0xcfffffff, 0x0, 0x0⟩,
   ⟨0x100, [(16, 0x4)], 0x0, 0xc00007ff, 0x0, 0x0⟩,
   ⟨0x200, [(8, 0x10)], 0x0, 0xef1f0000, 0x0, 0x0⟩,
   ⟨0x204, [(8, 0x10)], 0x0, 0xffffffff, 0x0, 0x0⟩,
   ⟨0x208, [(8, 0x10)], 0x0, 0xffffff, 0x0, 0x0⟩]

def rowsFLD : List Row :=
  [⟨0x0, [], 0x0, 0x0, 0x0, 0x0⟩,
   ⟨0x4, [], 0x0, 0x0, 0x100, 0x0⟩,
   ⟨0x10, [(4, 0x4)], 0x0, 0x3133f, 0x0, 0x13⟩,
   ⟨0x20, [], 0x0, 0xffffffff, 0x0, 0x0⟩,
   ⟨0x24, [], 0x0, 0x0, 0x0, 0x0⟩,
   ⟨0x28, [], 0x0, 0x0, 0x0, 0x0⟩,
   ⟨0x2c, [], 0x0, 0x7ff01ff, 0x0, 0x6400c8⟩,
   ⟨0x30, [], 0x0, 0x7fff, 0x0, 0xc8⟩,
   ⟨0x40, [(4, 0x4)], 0x0, 0x0, 0x0, 0x20000⟩,
   ⟨0x50, [], 0x0, 0x0, 0x0, 0x0⟩,
   ⟨0x54, [], 0x0, 0x0, 0x0, 0x0⟩,
   ⟨0x58, [], 0x0, 0x0, 0x0, 0x0⟩,
   ⟨0x5c, [], 0x0, 0x0, 0x0, 0x0⟩,
   ⟨0x100, [(24, 0x4)], 0x0, 0xfc00ff00, 0x0, 0xa00⟩,
   ⟨0x200, [(24, 0x4)], 0x0, 0x0, 0xff000000, 0x0⟩]

def rowsSIG : List Row :=
  [⟨0x0, [], 0x0, 0x0, 0x0, 0x0⟩,
   ⟨0x4, [], 0x0, 0x0, 0x100, 0x0⟩,
   ⟨0x10, [], 0x0, 0x30fff, 0x0, 0x0⟩,
   ⟨0x14, [], 0x0, 0x0, 0x0, 0x0⟩,
   ⟨0x18, [], 0x0, 0x8000ffff, 0x0, 0x0⟩,
   ⟨0x1c, [], 0x0, 0xffffffff, 0x0, 0x3c145032⟩,
   ⟨0x20, [], 0x0, 0xffff00ff, 0x0, 0x14050040⟩,
   ⟨0x24, [], 0x0, 0xffffffff, 0x0, 0x0⟩,
   ⟨0x30, [(4, 0x4)], 0x0, 0x0, 0x0, 0x0⟩,
   ⟨0x40, [], 0x0, 0x0, 0x0, 0x0⟩,
   ⟨0x80, [(8, 0x4)], 0x0, 0x800000ff, 0x0, 0x0⟩,
   ⟨0xa0, [(8, 0x4)], 0x0, 0x800000ff, 0x0, 0x0⟩,
   ⟨0x100, [(16, 0x8)], 0x0, 0xff7fffc0, 0x0, 0x0⟩,
   ⟨0x104, [(16, 0x8)], 0x0, 0xfffff, 0x0, 0x0⟩,
   ⟨0x180, [(16, 0x4)], 0x0, 0x0, 0x0, 0x0⟩,
   ⟨0x200, [(20, 0x8)], 0x0, 0x0, 0x0, 0x0⟩,
   ⟨0x204, [(20, 0x8)], 0x0, 0x0, 0x0, 0x0⟩,
   ⟨0x300, [(8, 0x8)], 0x0, 0xe7fcffff, 0x0, 0x0⟩,
   ⟨0x304, [(8, 0x8)], 0x0, 0x0, 0x1, 0x0⟩,
   ⟨0x400, [(32, 0x10)], 0x0, 0xc000000f, 0x0, 0x0⟩,
   ⟨0x404, [(32, 0x10)], 0x0, 0xffffffff, 0x0, 0x0⟩,
   ⟨0x408, [(32, 0x10)], 0x0, 0xffffffff, 0x0, 0x0⟩,
   ⟨0x4000, [(2, 0x1000), (8, 0x200), (128, 0x4)], 0x0, 0xffffffff, 0x0, 0x0⟩]

def rowsNVM : List Row :=
  [⟨0x0, [], 0x0, 0x0, 0x0, 0x0⟩,
   ⟨0x4, [], 0x0, 0x0, 0x100, 0x0⟩,
   ⟨0x10, [], 0x0, 0x807fffff, 0x0, 0x0⟩,
   ⟨0x14, [], 0x0, 0x0, 0x0, 0x0⟩,
   ⟨0x18, [], 0x0, 0xf00000, 0x0, 0xc0500000⟩,
   ⟨0x1c, [], 0x0, 0xffff003f, 0x0, 0x18320018⟩,
   ⟨0x20, [], 0x7ffffff, 0x0, 0x0, 0x0⟩,
   ⟨0x24, [], 0x7fffff, 0x0, 0x0, 0x0⟩,
   ⟨0x28, [], 0x0, 0x0, 0x0, 0x0⟩,
   ⟨0x2c, [], 0x0, 0x0, 0x0, 0x0⟩,
   ⟨0x30, [], 0x0, 0x0, 0x0, 0x0⟩,
   ⟨0x34, [], 0x0, 0x0, 0x0, 0x0⟩,
   ⟨0x38, [], 0x0, 0x0, 0x0, 0x0⟩,
   ⟨0x3c, [], 0x0, 0x0, 0x0, 0x0⟩,
   ⟨0x100, [(6, 0x8)], 0x0, 0x0, 0x0, 0x0⟩,
   ⟨0x104, [(6, 0x8)], 0x0, 0x0, 0x0, 0x0⟩]

def rowsLDR : List Row :=
  [⟨0x0, [], 0x0, 0x0, 0x0, 0x0⟩,
   ⟨0x4, [], 0x0, 0x0, 0x100, 0x0⟩,
   ⟨0x10, [], 0x0, 0x0, 0x0, 0x300000⟩,
   ⟨0x14, [], 0x0, 0x0, 0x0, 0x0⟩,
   ⟨0x18, [], 0x0, 0x0, 0x0, 0x0⟩,
   ⟨0x1c, [], 0x0, 0x0, 0x0, 0x0⟩,
   ⟨0x20, [], 0x0, 0x0, 0x0, 0x0⟩,
   ⟨0x24, [], 0x0, 0x0, 0x0, 0x0⟩,
   ⟨0x28, [], 0x0, 0x0, 0x0, 0x0⟩,
   ⟨0x2c, [], 0x0, 0x0, 0x0, 0x0⟩,
   ⟨0x30, [], 0x0, 0x0, 0x0, 0x0⟩,
   ⟨0x40, [], 0x7fffff, 0x0, 0x0, 0x0⟩,
   ⟨0x44, [], 0x7fffff, 0x0, 0x0, 0x0⟩,
   ⟨0x48, [], 0x7fffff, 0x0, 0x0, 0x0⟩,
   ⟨0x50, [(3, 0x4)], 0x0, 0x0, 0x0, 0x0⟩,
   ⟨0x60, [], 0x0, 0x7f, 0x0, 0x0⟩,
   ⟨0x64, [], 0x0, 0x0, 0x0, 0x0⟩,
   ⟨0x80, [(8, 0x4)], 0x0, 0x0, 0x0, 0x0⟩]

def rowsHP : List Row :=
  [⟨0x0, [], 0x0, 0x0, 0x0, 0x0⟩,
   ⟨0x4, [], 0x0, 0x0, 0x100, 0x0⟩,
   ⟨0x10, [], 0x0, 0x0, 0x0, 0x0⟩,
   ⟨0x14, [], 0x0, 0x8fff07ff, 0x0, 0x80000000⟩,
   ⟨0x20, [], 0x0, 0x0, 0x0, 0x0⟩,
   ⟨0x24, [], 0x0, 0x0, 0x80000000, 0x0⟩,
   ⟨0x30, [], 0x0, 0x0, 0xffffffff, 0x0⟩,
   ⟨0x34, [], 0xffffffff, 0x0, 0x0, 0x0⟩,
   ⟨0x38, [], 0x0, 0x0, 0x0, 0x0⟩,
   ⟨0x3c, [], 0x3ffff, 0x0, 0x0, 0x0⟩,
   ⟨0x40, [], 0x7fffff, 0x0, 0x0, 0x0⟩,
   ⟨0x44, [], 0xffffffff, 0x0, 0x0, 0x0⟩,
   ⟨0x48, [], 0xffffffff, 0x0, 0x0, 0x0⟩,
   ⟨0x4c, [], 0x1ffff, 0x0, 0x0, 0x0⟩,
   ⟨0x50, [], 0x3ff, 0x0, 0x0, 0xa⟩,
   ⟨0x54, [], 0x0, 0x0, 0x0, 0x0⟩,
   ⟨0x58, [], 0x0, 0x0, 0x0, 0x82600000⟩,
   ⟨0x1000, [(32, 0x10)], 0xffffffff, 0x0, 0x0, 0x0⟩,
   ⟨0x1004, [(32, 0x10)], 0xffffffff, 0x0, 0x0, 0x0⟩,
   ⟨0x1008, [(32, 0x10)], 0xffffffff, 0x0, 0x0, 0x0⟩,
   ⟨0x100c, [(32, 0x10)], 0xffffffff, 0x0, 0x0, 0x1⟩,
   ⟨0x2000, [(2, 0x4)], 0x0, 0x0, 0x0, 0x0⟩]

def rowsMB : List Row :=
  [⟨0x0, [], 0x0, 0x0, 0x0, 0x0⟩,
   ⟨0x4, [], 0x0, 0x0, 0x100, 0x0⟩,
   ⟨0x10, [], 0xffffffff, 0x0, 0x0, 0x0⟩,
   ⟨0x14, [], 0xffffffff, 0x0, 0x0, 0x0⟩,
   ⟨0x18, [], 0x0, 0x0, 0x0, 0x0⟩,
   ⟨0x100, [(32, 0x20)], 0x0, 0x0, 0x0, 0x0⟩,
   ⟨0x104, [(32, 0x20)], 0x0, 0x0, 0x0, 0x0⟩,
   ⟨0x108, [(32, 0x20)], 0x0, 0x0, 0x0, 0x0⟩,
   ⟨0x10c, [(32, 0x20)], 0x0, 0x0, 0x0, 0x0⟩,
   ⟨0x110, [(32, 0x20)], 0x0, 0x0, 0x0, 0x0⟩,
   ⟨0x114, [(32, 0x20)], 0x0, 0x0, 0x0, 0x0⟩,
   ⟨0x118, [(32, 0x20)], 0x0, 0xffffffff, 0x0, 0x0⟩,
   ⟨0x11c, [(32, 0x20)], 0x0, 0xffff, 0x0, 0x0⟩,
   ⟨0x800, [(64, 0x4)], 0x0, 0x0, 0x0, 0x0⟩,
   ⟨0xa00, [(16, 0x4)], 0x0, 0xbffbffff, 0x0, 0x0⟩,
   ⟨0xa40, [], 0x0, 0x0, 0x0, 0x0⟩,
   ⟨0x1000, [(16, 0x40)], 0x0, 0x0, 0x0, 0x0⟩,
   ⟨0x1004, [(16, 0x40), (15, 0x4)], 0x0, 0x0, 0x0, 0x0⟩]

def rowsEVR : List Row :=
  [⟨0x0, [], 0x0, 0x0, 0x0, 0x0⟩,
   ⟨0x4, [], 0x0, 0x0, 0x100, 0x0⟩,
   ⟨0x10, [], 0x0, 0xf0ffffff, 0x0, 0x500c8e00⟩,
   ⟨0x14, [], 0x0, 0x0, 0x0, 0x0⟩,
   ⟨0x18, [], 0x0, 0x0, 0x0, 0x0⟩,
   ⟨0x1c, [], 0x0, 0x0, 0x0, 0x0⟩,
   ⟨0x20, [], 0xffffffff, 0x0, 0x0, 0x0⟩,
   ⟨0x24, [], 0x807fffff, 0x0, 0x0, 0x0⟩,
   ⟨0x28, [], 0x1fff, 0x0, 0x0, 0x0⟩,
   ⟨0x2c, [], 0x0, 0x0, 0x0, 0x0⟩,
   ⟨0x30, [], 0x0, 0x0, 0x0, 0x0⟩,
   ⟨0x34, [], 0x0, 0x807fffff, 0x0, 0x0⟩,
   ⟨0x38, [], 0x0, 0x0, 0x0, 0x0⟩,
   ⟨0x1000, [(2048, 0x4)], 0x0, 0x87070fff, 0x0, 0x0⟩]

def rowsPWR : List Row :=
  [⟨0x0, [], 0x0, 0x0, 0x0, 0x0⟩,
   ⟨0x4, [], 0x0, 0x0, 0x100, 0x0⟩,
   ⟨0x10, [], 0x0, 0xc0ffffff, 0x0, 0x807861a8⟩,
   ⟨0x20, [(3, 0x4)], 0x0, 0xf000fff, 0x0, 0x40001f4⟩,
   ⟨0x30, [(3, 0x4)], 0x0, 0xffffffff, 0x0, 0x0⟩,
   ⟨0x3c, [], 0x0, 0x0, 0x0, 0x0⟩,
   ⟨0x40, [], 0x0, 0x0, 0x0, 0x0⟩,
   ⟨0x50, [], 0x0, 0x0, 0x0, 0x0⟩,
   ⟨0x54, [], 0x0, 0x0, 0x3fff, 0x0⟩,
   ⟨0x60, [(6, 0x4)], 0x0, 0x0, 0x0, 0x0⟩,
   ⟨0x80, [(4, 0x4)], 0xffff0000, 0x0, 0x0, 0x0⟩,
   ⟨0xa0, [(4, 0x4)], 0x0, 0x0, 0x0, 0x0⟩,
   ⟨0xd0, [], 0x0, 0x0, 0x0, 0x0⟩,
   ⟨0xd4, [], 0x0, 0x0, 0x0, 0x0⟩,
   ⟨0xd8, [], 0x0, 0x0, 0x0, 0x0⟩,
   ⟨0xe0, [], 0xffffffff, 0x0, 0x0, 0x0⟩,
   ⟨0xe4, [], 0xffff, 0x0, 0x0, 0x0⟩]

def rowsDBG : List Row :=
  [⟨0x0, [], 0x0, 0x0, 0x0, 0x0⟩]

/-- The rows of block b of R578. -/
def rows (b : Nat) : List Row :=
  match b with
  | 0 => rowsSYS
  | 1 => rowsTICK
  | 2 => rowsCE
  | 3 => rowsTASK
  | 4 => rowsIMG
  | 5 => rowsKL
  | 6 => rowsTRI
  | 7 => rowsFO
  | 8 => rowsSB
  | 9 => rowsSBG
  | 10 => rowsETH
  | 11 => rowsTB
  | 12 => rowsSC
  | 13 => rowsSF
  | 14 => rowsFLD
  | 15 => rowsSIG
  | 16 => rowsNVM
  | 17 => rowsLDR
  | 18 => rowsHP
  | 19 => rowsMB
  | 20 => rowsEVR
  | 21 => rowsPWR
  | 22 => rowsDBG
  | _ => []

/-! ## Default severities of the event codes (the event tables of the chapters, R35, R530) -/

def sev0 : List (Nat × Nat) :=
  [(0, 3), (1, 4), (2, 4), (3, 2), (4, 4), (5, 5), (6, 5), (7, 4), (8, 5), (9, 3), (11, 3)]
def sev1 : List (Nat × Nat) :=
  [(0, 3), (1, 4), (2, 4), (3, 2), (4, 2), (5, 4), (6, 2), (7, 4), (8, 4), (9, 6), (10, 3), (11, 5), (12, 7), (13, 2)]
def sev2 : List (Nat × Nat) :=
  [(0, 3), (1, 4), (2, 4), (3, 2), (4, 7), (5, 7), (6, 7), (7, 7), (8, 7), (9, 1), (10, 5), (11, 3), (12, 2), (14, 2), (16, 4), (17, 3), (18, 2)]
def sev3 : List (Nat × Nat) :=
  [(0, 3), (1, 4), (2, 4), (3, 2), (4, 3), (5, 2), (6, 4), (7, 6), (8, 3)]
def sev4 : List (Nat × Nat) :=
  [(0, 3), (1, 4), (2, 4), (3, 2), (4, 4), (5, 3), (6, 4), (7, 6), (8, 3), (9, 4), (10, 5), (11, 3), (12, 4), (13, 4), (14, 2)]
def sev5 : List (Nat × Nat) :=
  [(0, 3), (1, 4), (2, 4), (3, 2), (4, 1), (5, 3), (6, 5), (7, 6), (8, 6), (9, 3), (10, 6), (11, 3), (12, 4), (13, 3), (14, 3), (15, 6), (16, 6), (17, 5), (18, 4), (19, 4)]
def sev6 : List (Nat × Nat) :=
  [(0, 3), (1, 4), (2, 4), (3, 2), (4, 4), (5, 5), (6, 5), (7, 3), (8, 3), (9, 3), (10, 6), (11, 4), (12, 6), (13, 7), (14, 1), (15, 5)]
def sev7 : List (Nat × Nat) :=
  [(0, 3), (1, 4), (2, 4), (3, 2), (4, 3), (5, 4), (6, 3), (7, 4), (8, 4), (9, 5), (10, 6), (11, 3), (12, 4), (13, 5), (14, 4), (15, 2), (16, 5), (32, 5), (33, 7), (34, 4), (35, 6)]
def sev8 : List (Nat × Nat) :=
  [(0, 3), (1, 4), (2, 4), (3, 2), (4, 3), (5, 3), (6, 4), (7, 3), (8, 4), (9, 5), (10, 4), (11, 2), (12, 4), (13, 4), (14, 4), (15, 3)]
def sev9 : List (Nat × Nat) :=
  [(0, 3), (1, 4), (2, 4), (3, 2), (4, 4), (5, 3), (6, 6), (7, 4), (8, 5), (9, 5)]
def sev10 : List (Nat × Nat) :=
  [(0, 3), (1, 4), (2, 4), (3, 2), (4, 6), (5, 6), (6, 4), (7, 4), (8, 6), (10, 3), (11, 5), (12, 6), (13, 7)]
def sev11 : List (Nat × Nat) :=
  [(0, 3), (1, 4), (2, 4), (3, 2), (4, 5), (5, 7), (6, 3), (7, 5), (8, 5), (9, 3), (10, 6), (11, 5), (12, 2), (13, 5), (14, 7)]
def sev12 : List (Nat × Nat) :=
  [(0, 3), (1, 4), (2, 4), (3, 2), (4, 3), (5, 4), (6, 2), (7, 1), (8, 3), (9, 6), (10, 2), (11, 3), (12, 5)]
def sev13 : List (Nat × Nat) :=
  [(0, 3), (1, 4), (2, 4), (3, 2), (4, 4), (5, 3), (6, 6), (7, 2), (8, 4), (10, 4), (11, 7), (12, 6), (13, 7)]
def sev14 : List (Nat × Nat) :=
  [(0, 3), (1, 4), (2, 4), (3, 2), (4, 6), (5, 4), (6, 5), (7, 7), (8, 3), (9, 4), (10, 4), (11, 5), (12, 6), (13, 4), (14, 4), (15, 6)]
def sev15 : List (Nat × Nat) :=
  [(0, 3), (1, 4), (2, 4), (3, 2), (4, 4), (5, 3), (6, 4), (7, 4), (16, 3), (17, 3), (18, 3), (19, 2), (20, 2), (21, 3), (32, 6), (34, 4), (35, 3), (36, 3), (37, 5), (38, 5), (48, 6), (49, 6), (50, 4), (51, 6), (52, 3), (53, 5), (54, 3), (55, 3), (56, 3)]
/-- The severity that the event tables give a device code, or none where no chapter assigns the code. -/
def sevOf (code : Nat) : Option Nat :=
  match code / 64 with
  | 0 => sev0.lookup (code % 64)
  | 1 => sev1.lookup (code % 64)
  | 2 => sev2.lookup (code % 64)
  | 3 => sev3.lookup (code % 64)
  | 4 => sev4.lookup (code % 64)
  | 5 => sev5.lookup (code % 64)
  | 6 => sev6.lookup (code % 64)
  | 7 => sev7.lookup (code % 64)
  | 8 => sev8.lookup (code % 64)
  | 9 => sev9.lookup (code % 64)
  | 10 => sev10.lookup (code % 64)
  | 11 => sev11.lookup (code % 64)
  | 12 => sev12.lookup (code % 64)
  | 13 => sev13.lookup (code % 64)
  | 14 => sev14.lookup (code % 64)
  | 15 => sev15.lookup (code % 64)
  | _ => none

end Sys2Proof.Machine.Reg
end

