-- ==== Sys2Proof/Machine/State.lean ====
section
/-! DEFINITION. The state of the HX-8260: plain data. `Device` holds every register (one sparse map from fabric
addresses to words), every memory, and every further piece of state that the chapters of the spec name. `State` adds
the queue of waiting commands. The default of a field is its value in `State.reset`; INVENTORY.md lists each piece
with its rule and its reset value. -/

namespace Sys2Proof.Machine

/-! ## Engines (R69, R108), timer and counter cells (R154) -/

/-- The registers of one task context (R108). PC and call-stack entries hold the bank in [15]. -/
structure Ctx where
  la : Bool
  co : Bool
  ls : Word
  lse : Word
  lsp : Nat
  a : Word
  b : Word
  x : Word
  y : Word
  z : Bool
  n : Bool
  v : Bool
  c : Bool
  u : Bool
  pc : BitVec 16
  cs : SMap (BitVec 16)
  csp : Nat
deriving DecidableEq, Repr

/-- The register values at instance start (R108), with the PC given. -/
def Ctx.start (pc : BitVec 16) : Ctx :=
  ⟨false, true, 0, 0, 0, 0, 0, 0, 0, false, false, false, false, false, pc, [], 0⟩

/-- A timer cell (R154): preset, elapsed time and accumulator, kind and base of the last execution, Q, IN, RUN. -/
structure TCell where
  pt : Word
  et : Word
  acc : Nat
  kind : Nat
  base : Nat
  q : Bool
  inp : Bool
  run : Bool
deriving DecidableEq, Repr

/-- A cleared timer cell. -/
def TCell.zero : TCell := ⟨0, 0, 0, 0, 0, false, false, false⟩

/-- A counter cell (R154). -/
structure CCell where
  pv : Word
  cv : Word
  qu : Bool
  qd : Bool
  cum : Bool
  cdm : Bool
  ovf : Bool
deriving DecidableEq, Repr

/-- A cleared counter cell. -/
def CCell.zero : CCell := ⟨0, 0, false, false, false, false, false⟩

/-- An error in a stored codeword (R72–R74): correctable and not yet counted, correctable and counted,
uncorrectable in data or check bits, or in the folded address. -/
inductive Ecc where
  | clean
  | corr
  | counted
  | bad
  | badAddr
deriving DecidableEq, Repr

/-- A fabric access of DBG_ACCESS that is in progress (R104). -/
structure DbgAcc where
  op : Nat := 0
  waddr : Nat := 0
  data : Word := 0
deriving DecidableEq, Repr

/-- Engine state beside the registers: main and checker contexts (key 16e + c), replay queues (R95),
agreement stage (R86, key 5e + i), timer and counter cells, ECC errors (R72), and the TAP (R102, R104). -/
structure CeState where
  main : SMap Ctx := []
  chk : SMap Ctx := []
  replay : SMap (List (Nat × Nat × Word)) := []
  agreed : SMap Bool := []
  diff : SMap Nat := []
  tcells : SMap TCell := []
  ccells : SMap CCell := []
  ecc : SMap Ecc := []
  tapIr : Nat := 1
  dbgPrev : DbgAcc := {}
  dbgRun : Option DbgAcc := none
deriving DecidableEq, Repr

/-! ## Tasks (R176–R195) -/

/-- A release of a context (R178, R179): its kind and source for the release record, TICK_COUNT at the release, its
release time as TS64, the tick at whose t_VOTE its instance is due (DL_KIND VOTE), the entry of a start instance, and whether its overrun has been
counted. -/
structure Rel where
  kind : Nat
  source : Nat
  tick : Nat
  rtime : Nat
  due : Option Nat
  entry : Option Nat
  late : Bool
deriving DecidableEq, Repr

/-- A grid sample of one lane (R193): flagged sources, and the step count of each voted engine. -/
structure GridSample where
  flags : List Nat
  counts : List (Nat × Nat)
deriving DecidableEq, Repr

/-- Task state beside the registers. Contexts are keyed 16e + c, sources by their index. -/
structure TaskState where
  rel : SMap (Option Rel) := []
  latched : SMap (Option Rel) := []
  merged : SMap Nat := []
  unended : List (Nat × Nat) := []
  overdue : SMap Bool := []
  tick1 : Bool := false
  flags : List Nat := []
  flagAge : SMap Nat := []
  ignore : SMap Nat := []
  ownSample : Option GridSample := none
  peerSample : SMap (Option GridSample) := []
  agreedSet : List Nat := []
  boundarySet : List (Nat × Rel) := []
  mark : SMap (Option Nat) := []
  gridPoint : Nat := 0
  gridFormed : Bool := false
  timerFired : List Nat := []
deriving DecidableEq, Repr

/-! ## The tick (R41–R66) -/

/-- Tick generator state beside the registers: the generator is released, has placed a boundary; a source that SET_SOURCE
staged; e and c (R43, R241), whether an event came and was judged against the boundary that had passed, periods without
one, the length of the period in progress; the watchdog is armed; readiness and what it withholds; a freeze that waits
for the boundary; the phase (0 none, 1 from the boundary, 2 from t_HOP, 3 from t_VOTE, 4 from t_VEND); TS64 of the
boundary, the agreed one and the time in full microseconds; a first event came; event 0x049 was told. -/
structure TickState where
  released : Bool := false
  started : Bool := false
  pendSrc : Option Nat := none
  err : Int := 0
  corr : Int := 0
  evSeen : Bool := false
  noEv : Nat := 0
  nextNs : Int := 0
  wdArmed : Bool := false
  ready : Bool := false
  stopNext : Bool := false
  phase : Nat := 0
  late : Bool := false
  boundaryTs : Nat := 0
  noCommit : Bool := false
  copyRunning : Bool := false
  firstDue : Bool := false
  nr3Told : Bool := false
  tickT : Nat := 0
  tickUs : Nat := 0
  noState : Bool := false
deriving DecidableEq, Repr

/-! ## Images, forcing and online change (R203–R231) -/

/-- The loaded online change (R222–R226): engine mask, change number, package CRC, target tick, new ENTRY fields
(key 16e + c), relocation records, and the lane agreement of R225. -/
structure Olc where
  mask : Nat
  number : Nat
  crc : Word
  target : Nat
  entries : List (Nat × Nat)
  reloc : List (Nat × Nat)
  agreed : Bool
deriving DecidableEq, Repr

/-- Image state beside the memories and registers. Byte maps are keyed by fabric address: the raw inputs latched at
P0, the parts frozen at t_VOTE, the outbound content committed to the field, to Sahtu and to Ethernet, the committed
state regions and the committed retained area with its format version and commit sequence. -/
structure ImgState where
  force : SMap (Option (Word × Word)) := []
  staged : List ForceChg := []
  stagedOwn : Bool := false
  stagedAge : Nat := 0
  confirmed : Bool := false
  latch : SMap Byte := []
  frozen : SMap Byte := []
  committed : SMap Byte := []
  committedSb : SMap Byte := []
  committedEth : SMap Byte := []
  regions : SMap Byte := []
  retained : SMap Byte := []
  retVer : Nat := 0
  retSeq : Nat := 0
  retValid : Bool := false
  olc : Option Olc := none
  relocs : List (Nat × Nat) := []
deriving DecidableEq, Repr

/-! ## Event recorder (R527–R540) -/

/-- An event record (R527). -/
structure EvRec where
  eseq : Nat
  ts : Nat
  code : Nat
  sev : Nat
  restored : Bool
  eng : Nat
  ctx : Nat
  supp : Nat
  lane : Nat
  tick : Nat
  pos : Nat
  snaps : List Word
deriving DecidableEq, Repr

/-- A copy in progress (R539, R540): destination, first ESEQ, limit, form, the copied records' ESEQ, and the ring
slot that asked for it (none: the command COPY). -/
structure CopyJob where
  dst : Nat
  start : Nat
  max : Nat
  form : Nat
  slot : Option Nat
deriving DecidableEq, Repr

/-- Recorder state beside the registers. `used` counts the tokens taken from a code's bucket (R531); a COPY waits while a ring
request runs; a start of SYS level restores the log (R537). -/
structure EvrState where
  log : SMap (Option EvRec) := []
  inq : List EvRec := []
  spill : List EvRec := []
  used : SMap Nat := []
  supp : SMap Nat := []
  lostAt : Nat := 0
  archq : List EvRec := []
  archWarned : Bool := false
  keyIn : Word := 0
  key : Word := 0
  copy : Option CopyJob := none
  copyWait : Option CopyJob := none
  restoreDue : Bool := true
deriving DecidableEq, Repr

/-! ## Host port, mailboxes (R496–R523) -/

/-- A DMA command in progress (R505): direction, SDM and host addresses, length, bytes done, and whether the
flushing read is outstanding. -/
structure Dma where
  toHost : Bool
  saddr : Nat
  haddr : Nat
  len : Nat
  done : Nat
  flushing : Bool
deriving DecidableEq, Repr

/-- Host port state beside the registers. -/
structure HpState where
  ready : Bool := false
  mrrs : Nat := 0
  mps : Nat := 0
  dma : Option Dma := none
deriving DecidableEq, Repr

/-- Mailbox state beside the registers: the pointer q of each semaphore (R520) and the blocks published since
their last reset (R523). -/
structure MbState where
  q : SMap Nat := []
  published : SMap Bool := []
deriving DecidableEq, Repr

/-! ## Safety functions (R377–R397) -/

/-- State of one lockout group's deliberate reset (R382, R383): its reset input read 1 after the lock, a falling edge was
seen and not yet counted, a cause stood during the low time, the low time in ms, when the own notice and those of other
lanes were sent. -/
structure LockGrp where
  seenHigh : Bool
  fell : Bool
  causeSeen : Bool
  lowMs : Nat
  ownNotice : Option Nat
  peerNotice : List (Nat × Nat)
deriving DecidableEq, Repr

/-- The idle state of a group. -/
def LockGrp.idle : LockGrp := ⟨false, false, false, 0, none, []⟩

/-- Safety state beside the registers: groups, channels gated or that wait for a commit after their gate-off (R387), and
whether the field die sees no keepalive (R388). -/
structure SfState where
  grp : SMap LockGrp := []
  held : Nat := 0xFFFFFF
  keepaliveLost : Bool := false
deriving DecidableEq, Repr

/-! ## Field inputs and outputs (R403–R427), Weir (R568–R570) -/

/-- Field die state beside the registers, with channels as bits 0–23: gate drivers on, committed values, turn-ons that wait
for a grant, channels above their restart temperature, channels that restart at the next commit (R412) and when they did;
the dark test that runs, the tick of the last one, the last channel taken, STUCK_ON raised by dark tests, the last result;
outputs at or above 10 V and pins below 2 V. -/
structure FdState where
  on : Nat := 0
  value : Nat := 0
  queue : SMap (List Nat) := []
  claims : SMap (List (Nat × Nat)) := []
  head : SMap Nat := []
  overs : SMap Bool := []
  hot : Nat := 0
  restart : Nat := 0
  restarts : SMap (List Nat) := []
  dark : Option Nat := none
  darkTick : Option Nat := none
  darkLast : Nat := 23
  darkStuck : Nat := 0
  darkRes : Nat × Nat := (0, 0)
  doHigh : Nat := 0
  dlLow : Nat := 0
deriving DecidableEq, Repr

/-! ## Signal chain (R428–R447) -/

/-- A modulator's chain: its bits, newest first, the outputs of the sinc3 decimator in units of 2⁻²⁴, newest first, overrange,
the handover correction h, and the last samples corrected by its constants, newest first. -/
structure Chain where
  hist : List Bool
  line : List Int
  ovr : Bool
  h : Word
  ys : List Word
deriving DecidableEq, Repr

def Chain.zero : Chain := ⟨[], [], false, 0, []⟩

/-- An input channel: settling suppression, the estimate of the DC blocker, the valid z of the tick, oldest first, whether a
sample of the tick was suppressed or overrange, latches since VALID was 1, VAL and LAST of the last valid tick. -/
structure InCh where
  settling : Bool
  d : Word
  zs : List Word
  sawSet : Bool
  sawOvr : Bool
  age : Nat
  val : Word
  last : Word
deriving DecidableEq, Repr

def InCh.zero : InCh := ⟨false, 0, [], false, false, 0, 0, 0⟩

/-- An output chain: setpoint and the one before, stream values since the commit, SD_CLK periods, the delay line, newest
first, the held value, the modulator (R437), whether the last commit was clamped, and the bit on SD_OUT. -/
structure OutCh where
  u : Word
  prev : Word
  n : Nat
  cnt : Nat
  line : List Word
  v : Word
  a1 : Word
  a2 : Word
  fb : Word
  clamped : Bool
  bit : Bool
deriving DecidableEq, Repr

def OutCh.zero : OutCh := ⟨0, 0, 0, 0, [], 0, 0, 0, 0xBF800000, false, false⟩

/-- Calibration of a group: the point of start-up calibration, the step of the slot (0 none, 1 first match, 3 home zero,
4 home reference, 5 second match, 6 spare zero, 7 spare reference), whether rotation began, the zero reading, failed
matches in a row, the channel that the spare serves. -/
structure GrpRot where
  seq : Option Nat
  step : Nat
  begun : Bool
  x0 : Word
  spareFail : Nat
  homeFail : Nat
  served : Option Nat
deriving DecidableEq, Repr

def GrpRot.zero : GrpRot := ⟨none, 0, false, 0, 0, 0, none⟩

/-- Signal chain state beside the registers. -/
structure SigState where
  chain : SMap Chain := []
  inp : SMap InCh := []
  out : SMap OutCh := []
  rot : SMap GrpRot := []
  disarmed : SMap Bool := []
  synced : Bool := false
deriving DecidableEq, Repr

/-! ## Reset, clocks, power (R543–R577) -/

/-- Reset state (R544–R558): asserted sources, sources of this reset, level of the reset or release in progress
(0 none, 1 CORE, 2 SYS, 3 POR), next stage to release (9: none left), deferred sources (R546), requested internal sources (R544),
events that wait for EVR,
clocks that have locked once, the end of trim attempts (R555), and the fused key hash (R478). -/
structure SysState where
  asserted : Nat := 0
  during : Nat := 1
  level : Nat := 3
  stage : Nat := 0
  deferred : Nat := 0
  waiting : List (Nat × List Word) := []
  lockedOnce : Nat := 0
  trimStop : Bool := false
  request : Nat := 0
  pkh : Nat := 0
deriving DecidableEq, Repr

/-- Power state beside the registers (R560–R575): rail states, internal warnings that hold, whether one has started a
freeze, the standby crystal's part of 1/32,768 s, events that wait for the next start, sensors above T_WARN, monitors
reported as aged, and whether Weir withholds a NAND operation. -/
structure PwrState where
  rail : SMap Nat := []
  warnNow : Nat := 0
  warned : Bool := false
  stbyAcc : Nat := 0
  stbyWait : Option Nat := none
  wakeWait : Bool := false
  hot : Nat := 0
  aged : Nat := 0
  nandHeld : Bool := false
deriving DecidableEq, Repr

/-- A master that announces itself on a port (R343): port, sender, data set, times of its last Announce messages. -/
structure Foreign where
  port : Nat
  clock : Nat
  portNo : Nat
  set : AnnounceSet
  times : List Nat
deriving DecidableEq, Repr

/-- The time base (R337, R16): seconds, nanoseconds, fraction of 2⁻³² ns. The servo (R339–R341): the integral S in ns, RATE in
2⁻¹⁶ ppb, the last rates applied in LOCKED, the consecutive offsets within LOCK_NS and above UNLOCK_NS; per port d and the
asymmetry term in ps, whether the next measurement sets d, and the discards in a row; the two-step Sync that waits, t2 − t1 of
the last Sync in ps, and the Delay_Req and Pdelay_Req under way. The foreign masters and the parent (R343). PPS (R352). -/
structure TbState where
  sec : Nat := 0
  ns : Nat := 0
  frac : Nat := 0
  integral : Int := 0
  rate : Int := 0
  rates : List Int := []
  lockRun : Nat := 0
  overRun : Nat := 0
  delay : SMap Int := []
  asym : SMap Int := []
  settled : SMap Bool := []
  discards : SMap Nat := []
  syncWait : SMap (Option PtpMsg) := []
  syncDiff : SMap (Option Int) := []
  seqOut : SMap Nat := []
  dreq : SMap (Option (Nat × Nat)) := []
  preq : SMap (Option (Nat × Nat)) := []
  prespWait : SMap (Option PtpMsg) := []
  foreign : List Foreign := []
  parent : Option (Nat × Nat) := none
  ppsOffset : Int := 0
  ppsRise : Option Nat := none
deriving DecidableEq, Repr

/-! ## Ethernet (R332–R351) -/

/-- The frame in the shadow buffer of a receive entry: port, length, cut, TS64 of its SFD, bytes kept. -/
structure EthRx where
  port : Nat
  len : Nat
  trunc : Bool
  ts : Nat
  data : List Byte
deriving DecidableEq, Repr

/-- A launch entry in a port's transmit memory (R348): descriptor number, launch time, TAG, TSREQ, TSIMG, frame. -/
structure Launch where
  index : Nat
  time : Nat
  tag : Nat
  tsreq : Bool
  tsimg : Bool
  frame : List Byte
deriving DecidableEq, Repr

/-- A PTP message that a port sends: messageType, sequenceId, portNumber, the time that it carries as TS64. -/
structure PtpOut where
  kind : Nat
  seq : Nat
  portNo : Nat
  time : Nat
deriving DecidableEq, Repr

/-- Port state beside the registers. Per entry: shadow and buffer. Per port: transmit memory in order of sending, whether
its copy is complete, whether a frame is on the wire, PTP messages that wait (R342), the sending lane (3: none), whether it
calibrates, whether its link was up since start, timestamp queue. LINK of every lane (key 3 × lane + port) and when it
changed. The next slots of the host queue, the timestamps for the image block, and the MDIO transfer under way. -/
structure EthState where
  shadow : SMap (Option EthRx) := []
  last : SMap Nat := []
  age : SMap Nat := []
  queue : SMap (List Launch) := []
  copied : SMap Bool := []
  wire : SMap Bool := []
  ptp : SMap (List PtpOut) := []
  sender : SMap Nat := []
  calRun : SMap Bool := []
  wasUp : SMap Bool := []
  peerLink : SMap Bool := []
  linkAt : SMap Nat := []
  txts : SMap (List (Nat × Nat)) := []
  tsimg : SMap (List (Nat × Nat)) := []
  hqRx : Nat := 0
  hqTx : Nat := 0
  mdio : Option (Bool × Word) := none
deriving DecidableEq, Repr

/-! ## Kloul ports and the triad (R232–R267) -/

/-- A parcel (R233): TYPE, SEQ, REPLAY, payload. -/
structure Parcel where
  ptype : Nat
  seq : Nat
  replay : Bool
  payload : List Byte
deriving DecidableEq, Repr

/-- One port: next SEQ to send, next SEQ expected, times the oldest parcel was sent again (R238), the replay buffer of
32 parcels, parcels that wait for room, and the asymmetry of the link found at CAL (R235). -/
structure KlPort where
  tx : Nat := 0
  rx : Nat := 0
  resent : Nat := 0
  unacked : List Parcel := []
  waiting : List Parcel := []
  asym : Int := 0
deriving DecidableEq, Repr

/-- Triad state beside the registers. Lanes are 0 A, 1 B, 2 C. Offsets and phase errors are those of the TIME parcels
used at this boundary (R240); contributions, receipts and the agreed image are those of this tick (R249, R251). -/
structure TriState where
  laneOk : Bool := false
  offset : SMap (Option Int) := []
  phaseErr : SMap Int := []
  alignBad : SMap Nat := []
  twoBad : Nat := 0
  idents : SMap (Option Ident) := []
  incons : List Nat := []
  minLane : SMap Nat := []
  nrLane : SMap Nat := []
  joinTold : Bool := false
  deferTold : Bool := false
  startSet : List Nat := []
  donor : Option Nat := none
  startAt : Option Nat := none
  runBundle : Option Word := none
  runTick : Nat := 0
  contrib : SMap (Option (List Byte)) := []
  receipt : SMap (Option (List (Nat × Word))) := []
  own : List (Nat × Word) := []
  asked : List Nat := []
  agreed : SMap Byte := []
  agreedTs : Option Nat := none
  agreedLock : Bool := false
  lastAgreed : SMap Byte := []
  lastTrue : SMap Nat := []
  absent : SMap Nat := []
  discTicks : SMap Nat := []
  discSent : SMap Bool := []
  digest : Option (Nat × Word) := none
  votes : SMap (Option VoteMsg) := []
  fetched : SMap Bool := []
  noMaj : Nat := 0
  mismatch : Nat := 0
  lost : List Nat := []
  exitSeen : List Nat := []
  exclReq : List Nat := []
  exclAt : Option Nat := none
  readmitReq : Bool := false
  readmitTicks : Nat := 0
  donorFor : Option Nat := none
  snap : Option (SMap (List Byte)) := none
  finals : List (Nat × Nat) := []
  stateAt : SMap Nat := []
  xfer : SMap (List Byte) := []
  lastPerm : SMap Nat := []
deriving DecidableEq, Repr

/-- Kloul state beside the registers. -/
structure KlState where
  port : SMap KlPort := []
deriving DecidableEq, Repr

/-! ## Safe containers (R350–R376) -/

/-- Container state beside the registers. Per slot (key 64 + slot for transmit): last code, key, pending, raw and agreed
reception results, payload, age in microseconds, acknowledgement levels; the staged key (R361). -/
structure ScState where
  lastCode : SMap Word := []
  keys : SMap (List Byte) := []
  stage : Option (Nat × List Byte) := none
  stageOwn : Bool := false
  stageOk : Bool := false
  stageAge : Nat := 0
  pend : SMap (Option Nat) := []
  raw : SMap (Option Nat) := []
  result : SMap (Option Nat) := []
  payload : SMap (List Byte) := []
  ageUs : SMap Nat := []
  ackLow : SMap Bool := []
  ackReq : SMap Bool := []
  formed : List Nat := []
  fresh : List Nat := []
  solo : Bool := false
deriving DecidableEq, Repr

/-! ## Unit failover (R268–R290) -/

/-- A complete state copy of the active unit (R270, R271): sequence number, tick, CRC, granules, the lanes that passed it,
and whether it is a resynchronization. -/
structure CopyDone where
  seq : Nat
  tick : Nat
  crc : Word
  grans : List (Nat × List Byte)
  passed : Nat
  resync : Bool
deriving DecidableEq, Repr

/-- Failover state beside the registers: the content at the last copy and the marks of granules, the copy in reception, the
copies complete, the heartbeat of each lane and the claim counters, TAKE and DEMOTE votes, echoes, the station commands
and their age. -/
structure FoState where
  space : SMap (List Byte) := []
  marks : SMap Bool := []
  cseq : Nat := 0
  sentCopy : Option (Nat × List Nat) := none
  resyncTodo : List Nat := []
  resyncSeq : Option Nat := none
  resyncAt : Nat := 0
  rxSeq : Option Nat := none
  rxGrans : List (Nat × List Byte) := []
  rxBytes : List Byte := []
  gotCopy : Bool := false
  resyncMap : SMap (List Byte) := []
  resyncHave : SMap Bool := []
  toStale : Bool := false
  ready : List CopyDone := []
  peerCrc : List (Nat × (Nat × Word)) := []
  abandonDue : Bool := false
  hbNow : Bool := false
  peer : Option Heartbeat := none
  hb : SMap (Option Heartbeat) := []
  maxClaim : Nat := 0
  actClaim : Nat := 0
  take : Option Word := none
  demote : Option Word := none
  echo : SMap (Option Bool) := []
  echoLatched : SMap (Option Bool) := []
  noActive : Nat := 0
  prefMiss : Nat := 0
  grantNow : Option (Word × Nat) := none
  grantFor : Option (Word × Nat) := none
  withheldTold : Bool := false
  committedNow : Bool := false
  cmdRcvd : Bool := false
  cmdPrev : SMap (List Byte) := []
  anyCmd : Bool := false
  holdTold : Bool := false
  stnAge : SMap Nat := []
  stnPrev : SMap (List Byte) := []
  yieldAt : Nat := 0
deriving DecidableEq, Repr

/-! ## The Sahtu bus (R291–R322) -/

/-- A frame that is being received: sending node, length, cycle, payload. -/
structure SbRx where
  node : Nat
  len : Nat
  cycle : Nat
  payload : List Byte
deriving DecidableEq, Repr

/-- Bus state beside the registers: per-node state, shadow and buffer of each trigger entry, the frame in transmission
(a trigger entry; 256 the reference, 257 the startup frame), the exclusive window, arbitration, startup and gate. -/
structure SbState where
  peer : SMap Nat := []
  shadow : SMap (Option SbRx) := []
  buf : SMap (List Byte) := []
  last : SMap Nat := []
  committed : Bool := false
  sending : Option Nat := none
  window : Nat := 0
  slot : Nat := 0
  seen : List Nat := []
  blocked : Bool := false
  backoff : Bool := false
  truncNow : Bool := false
  truncs : Nat := 0
  missed : Nat := 0
  start : Nat := 0
  rxErr : Bool := false
  rxErrPrev : Bool := false
  prevRef : Option (Nat × Nat) := none
  acks : Nat := 0
  acks1 : Nat := 0
  lastByte : Nat := 0
  abandonNext : Bool := false
  ackDue : Bool := false
  starter : Bool := false
  request : Option Nat := none
  gdPrev : Option Nat := none
  gdBad : Nat := 0
  gdMiss : Nat := 0
deriving DecidableEq, Repr

/-! ## The store (R452–R471) -/

/-- An operation of a job on a logical block and page of a region; region 6 names physical blocks. `relocate` copies a block
to a spare and maps it in (R462, R464): the failed page, if any, and the failure (0 program, 1 erase; none: a refresh, with
its corrections). `record` writes a retention record (R466), `table` a block-table record (R460). -/
inductive NvmOp where
  | read (region lblock page : Nat)
  | prog (region lblock page : Nat) (data : List Byte)
  | erase (region lblock : Nat)
  | relocate (region lblock new : Nat) (failed : Option (Nat × List Byte)) (why : Option Nat) (corr : Nat)
  | record (lblock : Nat) (pages : List (List Byte))
  | table
deriving DecidableEq, Repr

/-- What a job of the manager is for (R465). -/
inductive NvmWork where
  | save
  | regionErase (target : Nat)
  | regionWrite (target pages : Nat)
  | arm (slot : Nat) (bundle : Word) (act : Nat)
  | disarm (slot : Nat)
  | commitCfg (seq : Nat)
  | activate (slot : Nat)
  | table
  | refresh
  | tidy
  | read (addr : Nat)
  | program
  | erase
  | desc
  | ring (slot op addr : Nat)
  | archive (recs : List EvRec)
  | scrub
deriving DecidableEq, Repr

/-- A job: its work and the operations that are left. -/
structure NvmJob where
  work : NvmWork
  ops : List NvmOp
deriving DecidableEq, Repr

/-- Manager state beside the registers: the devices and the one in use (0 none, 1 NAND, 2 NOR), block states (R460), blocks in
use and spares of each region, the record sequence of the block table, the copy written last and the next page of each
copy; reads since a block's last erase; the logical block of regions 3 and 4 written last, the page count of region 4's
block, the kept block (R487); jobs, the one whose operation runs, the result of a save that has not ended, and jobs of the loader that have ended. -/
structure NvmState where
  nand : Option Store := none
  nor : Option Store := none
  sel : Nat := 0
  bstate : SMap Nat := []
  map : SMap (List Nat) := []
  spares : SMap (List Nat) := []
  bseq : Nat := 0
  btLast : Nat := 1
  btPos : SMap Nat := []
  reads : SMap Nat := []
  pos : SMap (Option Nat) := []
  archPage : Nat := 0
  kept : Option Nat := none
  jobs : List NvmJob := []
  cur : Option NvmJob := none
  saved : Option Nat := none
  ended : List (NvmWork × Nat) := []
deriving DecidableEq, Repr

/-! ## Start and update (R471–R495) -/

/-- Loader state beside the registers: the armed bundle ID and its activation time (R267); where the start stands (0 before
step 1 ends, 1 waits for HOST_GO, 2 and 3 Kloul boot on K0 and K1, 4 steps 7 and 8 are due, 5 started, 6 no service); the
configuration image and bundle in use, the retained source with its version (R485), the activation time,
and whether step 4 has locked the fields that only the loader writes (R12). -/
structure LdrState where
  armed : Option (Word × Nat) := none
  phase : Nat := 0
  cfg : List Byte := []
  bundle : List Byte := []
  source : Option (Nat × SMap Byte) := none
  actTs : Nat := 0
  locked : Bool := false
deriving DecidableEq, Repr

/-- What leaves the device: the model's own trace, newest first (log 8). -/
inductive Sent where
  | msix (vec : Nat)
  | hostWrite (addr : Nat) (data : List Byte)
  | hostRead (addr len : Nat)
  | completion (data : List Byte) (abort : Bool)
  | unsupported
  | config (retry : Bool)
  | parcel (port : Nat) (p : Parcel)
  | sahtu (bytes : List Byte)
  | syncout
  | eth (port : Nat) (frame : List Byte)
  | ptp (port : Nat) (m : PtpOut)
  | mdio (write : Bool) (addr data : Word)
  | pps
deriving DecidableEq, Repr

/-- The whole device but for the queue of waiting commands. -/
structure Device where
  regs : SMap Word := []
  mem : List Host.Cell := []
  larea : SMap Byte := []
  prog : SMap Word := []
  ce : CeState := {}
  task : TaskState := {}
  tick : TickState := {}
  img : ImgState := {}
  evr : EvrState := {}
  hp : HpState := {}
  mb : MbState := {}
  sf : SfState := {}
  fd : FdState := {}
  sig : SigState := {}
  sys : SysState := {}
  pwr : PwrState := {}
  tb : TbState := {}
  kl : KlState := {}
  eth : EthState := {}
  tri : TriState := {}
  sc : ScState := {}
  fo : FoState := {}
  sb : SbState := {}
  nvm : NvmState := {}
  ldr : LdrState := {}
  freeCtr : Nat := 0
  sent : List Sent := []
deriving DecidableEq, Repr

/-- The state of the model: the device and the commands that wait, first in first out. -/
structure State where
  dev : Device
  pending : List Instr
deriving DecidableEq, Repr

/-- Reasons for which the machine stops. No command of the spec stops the device: every fault that it describes is a
next state. `unplaced` is raised by no command (safe). -/
inductive Fault where
  /-- An effect with no place in the device; no command raises it (safe). -/
  | unplaced
deriving DecidableEq, Repr

/-- Reasons for which a command has no meaning. -/
inductive Refusal where
  /-- The command of this mnemonic has no meaning yet; raised by `exec` alone (safe). -/
  | notModelled (mnemonic : String)
deriving DecidableEq, Repr

/-- The device right after the release of POR (R543, R12), with no reset source asserted, no stage of R550 released,
and nothing waiting (log 1). -/
def State.reset : State :=
  { dev := {}, pending := [] }

end Sys2Proof.Machine
end

