-- ==== Sys2Proof/Machine/Ops.lean ====
section
/-! DEFINITION. The shared operations over registers, events, causes, Sluice, commands and memory. -/

namespace Sys2Proof.Machine

/-! ## Registers (R11–R13, R580) -/

/-- An offset lies on one of the repetitions of a row. -/
def hitDims : List (Nat × Nat) → Nat → Bool
  | [], o => o == 0
  | (c, s) :: t, o => decide (o / s < c) && hitDims t (o % s)

/-- The row of the register at a fabric address (R578, R580). -/
def rowOf (a : Nat) : Option Reg.Row :=
  if a < 0x4000000 then none
  else
    let o := (a - 0x4000000) % 0x10000
    (Reg.rows ((a - 0x4000000) / 0x10000)).find? (fun r => decide (r.off ≤ o) && hitDims r.dims (o - r.off))

/-- The default word of EVR_CODE for a code (R530): EN = 1 and SNAP = 0xFF for an assigned code, N = 1 and W = 1 s
for the codes whose table states a limit of 1 per second. Program codes have SEV 3. -/
def evrCodeReset (code : Nat) : Word :=
  if 0x400 ≤ code then 0x830000FF
  else
    match Reg.sevOf code with
    | none => 0
    | some s =>
      BitVec.ofNat 32
        (0x800000FF + s * 0x1000000 +
          (if code = 0x1CF ∨ code = 0x245 ∨ code = 0x3C4 ∨ code = 0x3C5 then 0x20100 else 0))

/-- What a register that nothing has written reads as. -/
def regReset (a : Nat) : Word :=
  if 0x4141000 ≤ a ∧ a < 0x4143000 then evrCodeReset ((a - 0x4141000) / 4)
  else
    match rowOf a with
    | some r => BitVec.ofNat 32 r.reset
    | none => 0

/-- A stored register word. -/
def Device.rd (d : Device) (a : Nat) : Word :=
  sget regReset d.regs a

/-- Store a register word. -/
def Device.wr (d : Device) (a : Nat) (v : Word) : Device :=
  { d with regs := sput regReset d.regs a v }

/-- The value of a register field. -/
def Device.fld (d : Device) (f : Fld) : Nat :=
  bitsOf (d.rd f.addr) f.lo f.width

/-- A one-bit field read as a truth value. -/
def Device.bit (d : Device) (f : Fld) : Bool :=
  d.fld f != 0

/-- Bit i of a field. -/
def Device.bitAt (d : Device) (f : Fld) (i : Nat) : Bool :=
  (d.fld f).testBit i

/-- Write a register field. -/
def Device.setF (d : Device) (f : Fld) (v : Nat) : Device :=
  d.wr f.addr (withBits (d.rd f.addr) f.lo f.width v)

/-- A truth value as a bit. -/
def b2n (b : Bool) : Nat :=
  if b then 1 else 0

/-- Write a one-bit field. -/
def Device.setB (d : Device) (f : Fld) (b : Bool) : Device :=
  d.setF f (b2n b)

/-- A number with bit i set or cleared. -/
def putBit (n i : Nat) (b : Bool) : Nat :=
  if b then n ||| 2 ^ i else if n.testBit i then n - 2 ^ i else n

/-- Write bit i of a field. -/
def Device.setBitAt (d : Device) (f : Fld) (i : Nat) (b : Bool) : Device :=
  d.setF f (putBit (d.fld f) i b)

/-- Add to a counter field that saturates at all ones. -/
def Device.satAdd (d : Device) (f : Fld) (n : Nat) : Device :=
  d.setF f (min (d.fld f + n) (2 ^ f.width - 1))

/-- Count one in a saturating field. -/
def Device.inc (d : Device) (f : Fld) : Device :=
  d.satAdd f 1

/-- Count one in a field that wraps. -/
def Device.incMod (d : Device) (f : Fld) : Device :=
  d.setF f (d.fld f + 1)

/-- A field in which 0 counts as 1. -/
def Device.atLeast1 (d : Device) (f : Fld) : Nat :=
  max 1 (d.fld f)

/-- A word from a number, modulo 2³². -/
def wd (n : Nat) : Word := BitVec.ofNat 32 n

/-- A two's complement number as a word. -/
def wdi (i : Int) : Word := BitVec.ofInt 32 i

/-- A signed field. -/
def Device.sfld (d : Device) (f : Fld) : Int :=
  let v := d.fld f
  if v < 2 ^ (f.width - 1) then (v : Int) else (v : Int) - 2 ^ f.width

/-- The low bits of a signed number. -/
def lowBits (i : Int) (w : Nat) : Nat :=
  (i % (2 ^ w : Nat)).toNat

/-- Write a signed field. -/
def Device.setS (d : Device) (f : Fld) (i : Int) : Device :=
  d.setF f (lowBits i f.width)

/-! ## Role, time and free values -/

/-- The sampled role (R18, R19). -/
def Device.role (d : Device) : Nat := d.fld Reg.SYS_ROLE_STRAP_ROLE

/-- The device is a lane of a triad. -/
def Device.isLane (d : Device) : Bool := decide (1 ≤ d.role) && decide (d.role ≤ 3)

/-- The own lane: 0 A, 1 B, 2 C, 3 not a lane role (R527). -/
def Device.lane (d : Device) : Nat := if d.isLane then d.role - 1 else 3

/-- TS64 of the time base (R16). -/
def Device.ts64 (d : Device) : Nat := (d.tb.sec * 1000000000 + d.tb.ns) % 2 ^ 64

/-- TICK_COUNT (R66). -/
def Device.tickCount (d : Device) : Nat :=
  (d.rd Reg.TICK_COUNT_HI).toNat * 2 ^ 32 + (d.rd Reg.TICK_COUNT_LO).toNat

/-- A fresh free value (log 5). -/
def Device.free (d : Device) : Word × Device :=
  (Config.freeWord d.freeCtr, { d with freeCtr := d.freeCtr + 1 })

/-- What the Sahtu, Ethernet and Kloul controllers send of their own (R484). -/
def Sent.ofControllers : Sent → Bool
  | .parcel _ _ => true
  | .sahtu _ => true
  | .ptp _ _ => true
  | _ => false

/-- Record what leaves the device (log 8). In the no-service state the controllers transmit nothing of their own. -/
def Device.send (d : Device) (m : Sent) : Device :=
  if m.ofControllers && d.bit Reg.SYS_ROLE_NO_SERVICE then d else { d with sent := m :: d.sent }

/-! ## Events (R527–R532) -/

/-- EVR has been released (stage S3 of R550) and is not held in reset. -/
def Device.evrLive (d : Device) : Bool :=
  decide (d.sys.level < 2) || decide (4 ≤ d.sys.stage)

/-- The snapshot words whose bit of SNAP is set, closed up in order (R530). -/
def keepSnaps (mask : Nat) : Nat → List Word → List Word
  | _, [] => []
  | i, w :: t => if mask.testBit i then w :: keepSnaps mask (i + 1) t else keepSnaps mask (i + 1) t

/-- The record of an event as it enters the input queue; ESEQ is taken as it leaves (R527). -/
def Device.evRecord (d : Device) (eng ctx pos code : Nat) (snaps : List Word) : EvRec :=
  { eseq := 0, ts := d.ts64, code := code, sev := d.fld (Reg.EVR_CODE_SEV code), restored := false, eng := eng,
    ctx := ctx, supp := sget (fun _ => 0) d.evr.supp code, lane := d.lane,
    tick := d.tickCount % 2 ^ 32, pos := pos,
    snaps := keepSnaps (d.fld (Reg.EVR_CODE_SNAP code)) 0 (snaps.take 8) }

/-- Enter a record into the input queue of 64 entries, or count it as lost (R532). -/
def Device.enqueue (d : Device) (r : EvRec) : Device :=
  if d.evr.inq.length < 64 then
    { d with evr := { d.evr with inq := d.evr.inq ++ [r], supp := sput (fun _ => 0) d.evr.supp r.code 0 } }
  else d.inc Reg.EVR_LOSS_LOST

/-- Raise an event with its origin (R530–R532): a code with EN = 0 is never recorded, and an event that finds no token
is suppressed and counted. -/
def Device.raiseFrom (d : Device) (eng ctx pos code : Nat) (snaps : List Word) : Device :=
  if !d.evrLive || !d.bit (Reg.EVR_CODE_EN code) then d
  else
    let n := d.fld (Reg.EVR_CODE_RATE_N code)
    let u := sget (fun _ => 0) d.evr.used code
    if n = 0 then d.enqueue (d.evRecord eng ctx pos code snaps)
    else if n ≤ u then
      { d with evr := { d.evr with
          supp := sput (fun _ => 0) d.evr.supp code (min 255 (sget (fun _ => 0) d.evr.supp code + 1)) } }
    else
      ({ d with evr := { d.evr with used := sput (fun _ => 0) d.evr.used code (u + 1) } } : Device).enqueue
        (d.evRecord eng ctx pos code snaps)

/-- Raise a device event. -/
def Device.raise (d : Device) (code : Nat) (snaps : List Word) : Device :=
  d.raiseFrom 0xFF 0 0 code snaps

/-! ## Host interrupt causes (R506, R507) -/

/-- The Vector Control word of MSI-X vector k masks it. -/
def Device.vecMasked (d : Device) (k : Nat) : Bool :=
  (d.rd (Reg.HP_MSIX_CTRL k)).toNat.testBit 0

/-- The conditions under which a message becomes pending (R507, R497). -/
def Device.msixBlocked (d : Device) (k : Nat) : Bool :=
  d.vecMasked k || d.bit Reg.HP_LINK_FUNC_MASK || !d.bit Reg.HP_LINK_MSIX_EN || !d.bit Reg.HP_LINK_BME
    || d.fld Reg.HP_LINK_D_STATE != 0

/-- Send MSI-X vector k, or set its pending bit. -/
def Device.msix (d : Device) (k : Nat) : Device :=
  if d.msixBlocked k then d.setBitAt (Reg.HP_PBA_PEND 0) k true else d.send (.msix k)

/-- Raise host cause k: its bit is set, and a change from 0 to 1 with the cause enabled sends vector k once. -/
def Device.cause (d : Device) (k : Nat) : Device :=
  if d.bitAt Reg.HP_IRQ_STAT_CAUSE k then d
  else
    let d1 := d.setBitAt Reg.HP_IRQ_STAT_CAUSE k true
    if d.bitAt Reg.HP_IRQ_EN_EN k then d1.msix k else d1

/-! ## Sluice (R385–R387) -/

/-- Bits of SF_SLUICE_STAT. -/
def slStart : Nat := 0
def slCe : Nat := 1
def slWd : Nat := 2
def slTriad : Nat := 3
def slSupply : Nat := 4
def slTrip (n : Nat) : Nat := 8 + n
def slLock (g : Nat) : Nat := 16 + g

/-- The channels that a source of R385 gates off. -/
def Device.slChannels (d : Device) (i : Nat) : Nat :=
  if i < 8 then 0xFFFFFF
  else if i < 16 then d.fld (Reg.SF_TRIP_CFG_MASK (i - 8))
  else d.fld (Reg.SF_LOCKC_OUT (i - 16))

/-- The union of the channels of the asserted sources among bits i, i − 1, … of SF_SLUICE_STAT. -/
def Device.slGate (d : Device) : Nat → Nat
  | 0 => 0
  | i + 1 => (if (d.rd Reg.SF_SLUICE_STAT).toNat.testBit i then d.slChannels i else 0) ||| d.slGate i

/-- Every channel that a source gates off now. -/
def Device.gateNow (d : Device) : Nat := d.slGate 24

/-- The channels of a mask turn off: gate drivers, waiting turn-ons, and a dark test on one of them ends without result
(R387, R416, R570). -/
def Device.turnOff (d : Device) (mask : Nat) : Device :=
  { d with fd := { d.fd with
    on := (List.range 24).foldl (fun n c => if mask.testBit c then putBit n c false else n) d.fd.on
    queue := (d.fd.queue.map (fun e => (e.1, e.2.filter (fun c => !mask.testBit c)))).filter (fun e => !e.2.isEmpty)
    dark := d.fd.dark.filter (fun c => !mask.testBit c) } }

/-- Bring SF_GATE up to date: channels gated now, and channels that wait for the next commit (R387). -/
def Device.regate (d : Device) : Device :=
  let h := d.sf.held ||| d.gateNow
  (({ d with sf := { d.sf with held := h } } : Device).wr Reg.SF_GATE (wd h)).turnOff h

/-- What holds every output off in the field die: no keepalive (R388), VFD below its limit (R404), over-temperature
(R574). -/
def Device.fieldHeld (d : Device) : Bool :=
  d.sf.keepaliveLost || d.bit Reg.FLD_VFD_VFD_LOW || d.bit Reg.PWR_SUP_STAT_FD_HOT

/-- The fixed logic network between the core die and the gate drivers (R385, R387, R388): it acts after every effect of
a command, whatever that effect was. -/
def Device.sluice (d : Device) : Device :=
  if d.fieldHeld then d.regate.turnOff 0xFFFFFF else d.regate

/-- Assert source i of Sluice: flag, gate and event 0x288 (R387). -/
def Device.slAssert (d : Device) (i : Nat) : Device :=
  let st := d.rd Reg.SF_SLUICE_STAT
  if st.toNat.testBit i then d
  else
    let d1 := (d.wr Reg.SF_SLUICE_STAT (wd (putBit st.toNat i true))).regate
    let d2 := if i = slStart then d1
      else d1.wr Reg.SF_SLUICE_FLAGS (wd (putBit (d1.rd Reg.SF_SLUICE_FLAGS).toNat i true))
    d2.raise 0x288 [d2.rd Reg.SF_SLUICE_STAT, d2.rd Reg.SF_GATE]

/-- End source i of Sluice: its channels stay off until the next commit (R387). -/
def Device.slNegate (d : Device) (i : Nat) : Device :=
  let st := d.rd Reg.SF_SLUICE_STAT
  (d.wr Reg.SF_SLUICE_STAT (wd (putBit st.toNat i false))).regate

/-- A commit of the field image releases the channels whose last condition has ended (R387). -/
def Device.gateCommit (d : Device) : Device :=
  ({ d with sf := { d.sf with held := 0 } } : Device).regate

/-! ## Seal permissions (R391–R396) -/

/-- Permission bits of R392. -/
def permOlc : Nat := 0
def permForce : Nat := 1
def permDebug : Nat := 2
def permBundle : Nat := 3
def permClear : Nat := 4
def permArb : Nat := 5
def permKey : Nat := 6

/-- The seal grants permission k now. -/
def Device.perm (d : Device) (k : Nat) : Bool :=
  d.bitAt Reg.SF_SEAL_STAT_PERM_NOW k

/-! ## Commands (R27–R33) -/

/-- A command register: its CMD_STATUS address, the block's fabric base, the event range, and whether several blocks
share that range (R34, R35). -/
structure Port where
  stat : Nat
  base : Nat
  ev : Nat
  shared : Bool
deriving DecidableEq, Repr

def Port.busy (p : Port) : Fld := ⟨p.stat, 31, 1⟩
def Port.seq (p : Port) : Fld := ⟨p.stat, 16, 8⟩
def Port.dropped (p : Port) : Fld := ⟨p.stat, 8, 1⟩
def Port.code (p : Port) : Fld := ⟨p.stat, 0, 3⟩

/-- The snapshot words of an event at offsets 0x00–0x03 (R35). -/
def Port.words (p : Port) (ws : List Word) : List Word :=
  if p.shared then wd p.base :: ws else ws

/-- A command ends with a code: BUSY clears and SEQ advances (R27, R28). -/
def Device.endCmd (d : Device) (p : Port) (code : Nat) : Device :=
  ((d.setF p.busy 0).setF p.code code).incMod p.seq

/-- A command stays BUSY; CODE reads 1 (R28). -/
def Device.beginCmd (d : Device) (p : Port) : Device :=
  (d.setF p.busy 1).setF p.code 1

/-- A command that is running ends with a code. -/
def Device.finishCmd (d : Device) (p : Port) (code : Nat) : Device :=
  if d.bit p.busy then d.endCmd p code else d

/-- The three checks of R29 on a command: argument, seal, present state. -/
structure Checks where
  arg : Bool
  grant : Bool
  legal : Bool
deriving DecidableEq, Repr

/-- A write of CMD (R27–R31): discarded while BUSY, else the first failed check ends it, else its effect follows. -/
def Device.command (d : Device) (p : Port) (op arg : Nat) (blockState : Word) (k : Checks)
    (body : Device → Device) : Device :=
  let w := wd (op * 0x1000000 + arg)
  if d.bit p.busy then (d.setF p.dropped 1).raise (p.ev + 3) (p.words [w])
  else if !k.arg then d.endCmd p 2
  else if !k.grant then (d.endCmd p 4).raise (p.ev + 2) (p.words [w, wd (d.fld Reg.SF_SEAL_STAT_PERM_NOW)])
  else if !k.legal then (d.endCmd p 3).raise (p.ev + 0) (p.words [w, blockState])
  else body d

/-- A command whose effect is complete at once and ends with code 0. -/
def Device.commandNow (d : Device) (p : Port) (op arg : Nat) (blockState : Word) (k : Checks)
    (body : Device → Device) : Device :=
  d.command p op arg blockState k (fun d => (body d).endCmd p 0)

/-- A command that clears counters: ARG must be 0, no permission, any state. -/
def Device.clearCmd (d : Device) (p : Port) (arg : Nat) (body : Device → Device) : Device :=
  d.commandNow p 1 arg 0 ⟨arg == 0, true, true⟩ body

def portSYS : Port := ⟨Reg.SYS_CMD_STATUS, 0x4000000, 0x000, false⟩
def portTICK : Port := ⟨Reg.TICK_CMD_STATUS, 0x4010000, 0x040, false⟩
def portCE (e : Nat) : Port := ⟨Reg.CE_CMD_STATUS e, 0x4020000, 0x080, false⟩
def portTASK : Port := ⟨Reg.TASK_CMD_STATUS, 0x4030000, 0x0C0, false⟩
def portIMG : Port := ⟨Reg.IMG_CMD_STATUS, 0x4040000, 0x100, false⟩
def portKL : Port := ⟨Reg.KL_CMD_STATUS, 0x4050000, 0x140, true⟩
def portTRI : Port := ⟨Reg.TRI_CMD_STATUS, 0x4060000, 0x140, true⟩
def portFO : Port := ⟨Reg.FO_CMD_STATUS, 0x4070000, 0x180, false⟩
def portSB : Port := ⟨Reg.SB_CMD_STATUS, 0x4080000, 0x1C0, true⟩
def portSBG : Port := ⟨Reg.SBG_CMD_STATUS, 0x4090000, 0x1C0, true⟩
def portETH : Port := ⟨Reg.ETH_CMD_STATUS, 0x40A0000, 0x200, true⟩
def portTB : Port := ⟨Reg.TB_CMD_STATUS, 0x40B0000, 0x200, true⟩
def portSC : Port := ⟨Reg.SC_CMD_STATUS, 0x40C0000, 0x240, false⟩
def portSF : Port := ⟨Reg.SF_CMD_STATUS, 0x40D0000, 0x280, false⟩
def portFLD : Port := ⟨Reg.FLD_CMD_STATUS, 0x40E0000, 0x2C0, false⟩
def portSIG : Port := ⟨Reg.SIG_CMD_STATUS, 0x40F0000, 0x300, false⟩
def portNVM : Port := ⟨Reg.NVM_CMD_STATUS, 0x4100000, 0x340, false⟩
def portLDR : Port := ⟨Reg.LDR_CMD_STATUS, 0x4110000, 0x380, false⟩
def portHP : Port := ⟨Reg.HP_CMD_STATUS, 0x4120000, 0x3C0, true⟩
def portMB : Port := ⟨Reg.MB_CMD_STATUS, 0x4130000, 0x3C0, true⟩
def portEVR : Port := ⟨Reg.EVR_CMD_STATUS, 0x4140000, 0x3C0, true⟩
def portPWR : Port := ⟨Reg.PWR_CMD_STATUS, 0x4150000, 0x3C0, true⟩

end Sys2Proof.Machine
end

