-- ==== Sys2Proof/Machine/Router.lean ====
section
/-! DEFINITION. Releases and the event router (R178, R181, R183, R186, R188, R191, R195), Kloul sending (R233, R238),
lane states and exclusion (R243–R245, R257–R262). -/

namespace Sys2Proof.Machine

/-! ## Times of the tick (R50) -/

/-- The period in µs. -/
def Device.periodUs (d : Device) : Nat := d.fld Reg.TICK_PERIOD_PERIOD_US

/-- t_VOTE in µs after the boundary. -/
def Device.voteUs (d : Device) : Nat := d.periodUs * d.fld Reg.TICK_PHASE_VOTE_PCT / 100

/-- t_HOP in µs after the boundary: t_LATCH in the single and station roles. -/
def Device.hopUs (d : Device) : Nat := if d.isLane then d.fld Reg.TICK_PHASE_HOP_US else 3

/-! ## Releases -/

/-- Engine and context in one snapshot word (log 9). -/
def engCtx (e c : Nat) : Word := wd (16 * e + c)

def noRel (_ : Nat) : Option Rel := none
def zeroAt (_ : Nat) : Nat := 0
def falseAt (_ : Nat) : Bool := false

/-- Engine states (R88). -/
def stOff : Nat := 0
def stTest : Nat := 1
def stReady : Nat := 2
def stRun : Nat := 3
def stHalted : Nat := 4
def stStopped : Nat := 5
def stFault : Nat := 6

def Device.engState (d : Device) (e : Nat) : Nat := d.fld (Reg.CE_STATUS_STATE e)
def Device.ctxState (d : Device) (e c : Nat) : Nat := d.fld (Reg.TASK_STAT_STATE e c)

/-- The tick at whose t_VOTE a release with DL_KIND VOTE is due (R186): the last tick of its period for a periodic
task, the first t_VOTE at or after the release time + DL_US for an event or fault. -/
def Device.voteDue (d : Device) (e c kind rtime : Nat) : Nat :=
  let t := d.tickCount
  if kind = 0 then t + d.fld (Reg.TASK_PER_PERIOD_N e c) - 1
  else if 3 ≤ kind ∧ kind ≤ 5 then t
  else
    let at_ := (rtime - d.tick.boundaryTs) + 1000 * d.fld (Reg.TASK_DL_DL_US e c)
    let tv := 1000 * d.voteUs
    if at_ ≤ tv then t
    else t + (at_ - tv + 1000 * d.periodUs - 1) / (1000 * max 1 d.periodUs)

/-- The release record of a release that happens now. -/
def Device.mkRel (d : Device) (e c kind source rtime : Nat) (entry : Option Nat) : Rel :=
  { kind := kind, source := source, tick := d.tickCount, rtime := rtime,
    due := if (3 ≤ kind ∧ kind ≤ 5) ∨ d.fld (Reg.TASK_CFG_DL_KIND e c) = 0 then some (d.voteDue e c kind rtime)
      else none,
    entry := entry, late := false }

/-- A dropped release (R178): DROP, MERGED, event 0x0C5. -/
def Device.dropRelease (d : Device) (e c source : Nat) : Device :=
  let d1 := d.inc (Reg.TASK_CNT_DROP e c)
  let d2 : Device := { d1 with task := { d1.task with
    merged := sput zeroAt d1.task.merged (16 * e + c) (min 255 (sget zeroAt d1.task.merged (16 * e + c) + 1)) } }
  d2.raise 0x0C5 [engCtx e c, wd source]

/-- Set the pending release of a context. -/
def Device.setRel (d : Device) (e c : Nat) (r : Option Rel) : Device :=
  { d with task := { d.task with rel := sput noRel d.task.rel (16 * e + c) r } }

/-- A release of a context under the table of R178; engines that do not run take none (R188). -/
def Device.release (d : Device) (e c : Nat) (r : Rel) : Device :=
  let st := d.engState e
  if st = stStopped ∨ st = stFault then
    match r.due with
    | some t => { d with task := { d.task with unended := (16 * e + c, t) :: d.task.unended } }
    | none => d
  else if st ≠ stRun ∧ st ≠ stHalted then d
  else
    let cs := d.ctxState e c
    if cs = 0 then (d.setF (Reg.TASK_STAT_STATE e c) 1).setRel e c (some r)
    else if r.kind = 0 then
      (d.inc (Reg.TASK_CNT_SKIP e c)).raise 0x0C4 [engCtx e c, wd (d.tickCount % 2 ^ 32)]
    else if cs = 2 ∧ ¬ d.bit (Reg.TASK_STAT_LATCH e c) then
      let d1 := d.setF (Reg.TASK_STAT_LATCH e c) 1
      { d1 with task := { d1.task with latched := sput noRel d1.task.latched (16 * e + c) (some r) } }
    else d.dropRelease e c r.source

/-- An event release: before the release point of tick 1 it is dropped (R181). -/
def Device.eventRelease (d : Device) (e c source rtime : Nat) : Device :=
  if d.engState e = stStopped ∨ d.engState e = stFault then d.release e c (d.mkRel e c 1 source rtime none)
  else if !d.task.tick1 then d.dropRelease e c source
  else d.release e c (d.mkRel e c 1 source rtime none)

/-- A voted engine in the lane roles (R191). -/
def Device.voted (d : Device) (e : Nat) : Bool := d.isLane && d.bit (Reg.TASK_ENG_CFG_VOTED e)

/-- A router source fires (R183): one release, or in the lane roles one flag for a voted engine (R193, R195). -/
def Device.fire (d : Device) (src : Nat) : Device :=
  if !d.bit (Reg.TASK_ROUTE_EN src) then d
  else
    let e := d.fld (Reg.TASK_ROUTE_ENG src)
    let c := d.fld (Reg.TASK_ROUTE_CTX src)
    if d.voted e then
      if d.bit (Reg.TASK_ROUTE_LOCAL src) then d
      else if sget zeroAt d.task.ignore src ≠ 0 then
        ({ d with task := { d.task with ignore := sput zeroAt d.task.ignore src 0 } } : Device).inc
          Reg.TASK_GRID_STAT_SUPPRESSED
      else if d.task.flags.contains src then d
      else { d with task := { d.task with flags := src :: d.task.flags } }
    else d.eventRelease e c src d.ts64

/-! ## Kloul sending -/

def klPort0 (_ : Nat) : KlPort := {}

def Device.klPort (d : Device) (p : Nat) : KlPort := sget klPort0 d.kl.port p

def Device.setKlPort (d : Device) (p : Nat) (k : KlPort) : Device :=
  { d with kl := { d.kl with port := sput klPort0 d.kl.port p k } }

/-- KL_STAT states. -/
def klUp : Nat := 6

/-- Payloads are whole 8-byte words (R233). -/
def pad8 (l : List Byte) : List Byte := l ++ List.replicate ((8 - l.length % 8) % 8) 0

/-- Parcel types (R234). -/
def pTIME : Nat := 1
def pGRID : Nat := 2
def pACK : Nat := 3
def pNAK : Nat := 4
def pHOP : Nat := 5
def pRECEIPT : Nat := 6
def pVOTE : Nat := 7
def pSEGMENT : Nat := 8
def pCTRL : Nat := 9
def pIDENT : Nat := 10
def pXFER : Nat := 11
def pBOOT : Nat := 12
def pCOPY : Nat := 13

/-- Send a parcel: it takes the next SEQ and a place in the replay buffer, or waits for one (R238). Link
acknowledgements take no place (log 10). -/
def Device.parcelOut (d : Device) (p ptype : Nat) (data : List Byte) : Device :=
  if ptype = pACK ∨ ptype = pNAK then d.send (.parcel p ⟨ptype, 0, false, pad8 data⟩)
  else
    let k := d.klPort p
    let m : Parcel := ⟨ptype, k.tx, false, pad8 data⟩
    if k.unacked.length < 32 then
      (d.setKlPort p { k with tx := (k.tx + 1) % 65536, unacked := k.unacked ++ [m] }).send (.parcel p m)
    else d.setKlPort p { k with tx := (k.tx + 1) % 65536, waiting := k.waiting ++ [m] }

/-- Send a parcel on a port that is UP. -/
def Device.kloul (d : Device) (p ptype : Nat) (data : List Byte) : Device :=
  if d.fld (Reg.KL_STAT_STATE p) = klUp then d.parcelOut p ptype data else d

/-- Send a parcel on both ring ports. -/
def Device.ring (d : Device) (ptype : Nat) (data : List Byte) : Device :=
  (d.kloul 0 ptype data).kloul 1 ptype data

/-- A parcel arrives in order on a port: the next SEQ is expected, and an ACK names it (R238; log 10). -/
def Device.gotParcel (d : Device) (p : Nat) : Device :=
  let k := d.klPort p
  (d.setKlPort p { k with rx := (k.rx + 1) % 65536 }).parcelOut p pACK [BitVec.ofNat 8 (k.rx + 1), BitVec.ofNat 8 ((k.rx + 1) / 256)]

/-! ## Lane states (R243–R245, R257–R262) -/

def lsJoining : Nat := 0
def lsVoting : Nat := 1
def lsMinority : Nat := 2
def lsExcluded : Nat := 3
def lsShadow : Nat := 4
def lsReadmit : Nat := 5

/-- The register field of lane i's state as this lane sees it. -/
def laneFld (i : Nat) : Fld :=
  if i = 0 then Reg.TRI_LANE_STAT_STATE_A else if i = 1 then Reg.TRI_LANE_STAT_STATE_B
  else Reg.TRI_LANE_STAT_STATE_C

def Device.laneState (d : Device) (i : Nat) : Nat := d.fld (laneFld i)

/-- A lane counts as in VOTING, a lane in MINORITY included (R243). -/
def Device.votes (d : Device) (i : Nat) : Bool :=
  d.laneState i = lsVoting || d.laneState i = lsMinority

/-- The lanes that count as in VOTING. -/
def Device.votingLanes (d : Device) : List Nat := (List.range 3).filter (fun i => d.votes i)

/-- This lane counts as in VOTING. -/
def Device.votesSelf (d : Device) : Bool := d.isLane && d.votes d.lane

/-- The service level of R261. -/
def Device.serviceNow (d : Device) : Nat :=
  let n := d.votingLanes.length
  if n = 1 then (if d.bit Reg.TRI_CFG_ALLOW_1OO1 then 1 else 0) else n

/-- Bring SERVICE up to date (R261). -/
def Device.service (d : Device) : Device :=
  let old := d.fld Reg.TRI_LANE_STAT_SERVICE
  let new := d.serviceNow
  if old = new then d else (d.setF Reg.TRI_LANE_STAT_SERVICE new).raise 0x151 [wd old, wd new]

/-- The states in which the triad-exclusion input of Sluice stays released. -/
def inService (st : Nat) : Bool := st = lsVoting || st = lsMinority

/-- A lane takes a state (R244): event 0x149; the own lane leaving VOTING or MINORITY asserts its triad-exclusion
input, and LANE_OK changes with it (R245). -/
def Device.toLane (d : Device) (i st : Nat) : Device :=
  let old := d.laneState i
  if old = st then d
  else
    let d1 := d.setF (laneFld i) st
    let d1 : Device := { d1 with tri := { d1.tri with stateAt := sput zeroAt d1.tri.stateAt i d.ts64 } }
    let d2 := if i = d.lane then d1.setF Reg.TRI_LANE_STAT_STATE st else d1
    let d3 := d2.raise 0x149 [wd i, wd old, wd st]
    let d4 := if i = d.lane ∧ inService old ∧ ¬ inService st then
        ({ d3 with tri := { d3.tri with laneOk := false } } : Device).slAssert slTriad
      else d3
    d4.service

/-- CTRL notices: the first payload byte names the notice (log 8). -/
def ctrlExit (lane code : Nat) : List Byte := [0, BitVec.ofNat 8 lane, BitVec.ofNat 8 code]

/-- A lane is excluded with a cause of R257 (R258): from VOTING, MINORITY or READMIT. -/
def Device.excludeOne (d : Device) (i code : Nat) : Device :=
  let st := d.laneState i
  if !d.isLane || !(st = lsVoting || st = lsMinority || st = lsReadmit) then d
  else
    let d1 := if i = d.lane then
        let x := ((d.setF Reg.TRI_LANE_STAT_EXCL_CAUSE code).setF Reg.TRI_RDM_STAT_ATTEMPTS 0).setF
          Reg.TRI_RDM_STAT_PHASE 0
        ({ x with tri := { x.tri with exclAt := some x.tickCount } } : Device).ring pCTRL (ctrlExit i code)
      else d
    (d1.raise 0x14A [wd i, wd code, wd (d1.tickCount % 2 ^ 32)]).toLane i lsExcluded

/-- An exclusion, and its effect on the last lane in VOTING: without ALLOW_1OO1 it excludes itself with cause
TWO_LANE (R262). -/
def Device.exclude (d : Device) (i code : Nat) : Device :=
  let d1 := d.excludeOne i code
  if i ≠ d.lane ∧ d1.votesSelf ∧ d1.votingLanes = [d1.lane] ∧ !d1.bit Reg.TRI_CFG_ALLOW_1OO1 then
    d1.excludeOne d1.lane 10
  else d1

/-- The own lane excludes itself. -/
def Device.excludeSelf (d : Device) (code : Nat) : Device :=
  if d.isLane then d.exclude d.lane code else d

end Sys2Proof.Machine
end

