-- ==== Sys2Proof/Machine/Memory.lean ====
section
/-! DEFINITION. Memories: SDM and PIM by fabric address (R203, R206, R578), L areas, program banks, cell views
(R154), the force overlay (R215), error-correcting codes (R72–R76) and the areas of a program (R116, R135). -/

namespace Sys2Proof.Machine

/-! ## Bytes and numbers -/

/-- What an unlisted byte reads as (log 2). -/
def byte0 (_ : Nat) : Byte := 0

/-- The number that a list of bytes spells, lowest byte first. -/
def leNat : List Byte → Nat
  | [] => 0
  | b :: t => b.toNat + 256 * leNat t

/-- The n low bytes of a number, lowest first. -/
def leBytes : Nat → Nat → List Byte
  | 0, _ => []
  | n + 1, v => BitVec.ofNat 8 v :: leBytes n (v / 256)

/-- A byte of SDM or PIM as it stands in memory. -/
def Device.byte (d : Device) (a : Nat) : Byte := sget byte0 d.mem a

/-- Write a byte of SDM or PIM. -/
def Device.setByte (d : Device) (a : Nat) (v : Byte) : Device :=
  { d with mem := sput byte0 d.mem a v }

/-- n bytes from an address on. -/
def Device.bytes (d : Device) (a n : Nat) : List Byte :=
  (List.range n).map (fun i => d.byte (a + i))

/-- Write bytes from an address on. -/
def Device.setBytes (d : Device) (a : Nat) : List Byte → Device
  | [] => d
  | b :: t => (d.setByte a b).setBytes (a + 1) t

/-- The number in n bytes of memory. -/
def Device.num (d : Device) (a n : Nat) : Nat := leNat (d.bytes a n)

/-- Write a number into n bytes of memory. -/
def Device.setNum (d : Device) (a n v : Nat) : Device := d.setBytes a (leBytes n v)

/-- Keep the part of a byte map outside [a, a + n). -/
def dropRange (m : SMap Byte) (a n : Nat) : SMap Byte :=
  skeep (fun k => decide (k < a) || decide (a + n ≤ k)) m

/-- Keep the part of a byte map inside [a, a + n). -/
def takeRange (m : SMap Byte) (a n : Nat) : SMap Byte :=
  skeep (fun k => decide (a ≤ k) && decide (k < a + n)) m

/-- Merge two byte maps with rising keys, of which no key is in both. -/
def mergeMaps : SMap Byte → SMap Byte → SMap Byte
  | [], n => n
  | (k, v) :: m, n => sinsert k v (mergeMaps m n)

/-- A byte map with the range [a, a + n) taken from another. -/
def copyRange (dst src : SMap Byte) (a n : Nat) : SMap Byte :=
  mergeMaps (takeRange src a n) (dropRange dst a n)

/-! ## Areas (R116, R581) -/

def areaI : Nat := 0
def areaQ : Nat := 1
def areaM : Nat := 2
def areaD : Nat := 3
def areaL : Nat := 4
def areaT : Nat := 5
def areaC : Nat := 6
def areaS : Nat := 7
def areaN : Nat := 8
def areaA : Nat := 9
def areaP : Nat := 10
def areaH : Nat := 11

/-- The size of an area in bytes for word access (R116, R135, R501); codes 0xC–0xF have none. -/
def Device.areaSize (d : Device) (ar : Nat) : Nat :=
  if ar = areaI ∨ ar = areaQ ∨ ar = areaS then 0x20000
  else if ar = areaM ∨ ar = areaN then 0x40000
  else if ar = areaD then 0x800000
  else if ar = areaL then 0x1000
  else if ar = areaT ∨ ar = areaC ∨ ar = areaA ∨ ar = areaP then 0x10000
  else if ar = areaH then d.fld Reg.HP_HWIN_SIZE_4K * 4096
  else 0

/-- The size of an area in bits for bit access (R116): T and C have 8 status bits per cell. -/
def Device.areaBits (d : Device) (ar : Nat) : Nat :=
  if ar = areaT ∨ ar = areaC then 32768 else 8 * d.areaSize ar

/-- The fabric address of byte 0 of an area (R581). -/
def Device.areaBase (d : Device) (ar : Nat) : Nat :=
  if ar = areaI then 0x1000000
  else if ar = areaQ then 0x1020000
  else if ar = areaM then 0x1040000
  else if ar = areaS then 0x1080000
  else if ar = areaN then 0x10A0000
  else if ar = areaA then 0x10E0000
  else if ar = areaP then 0x7F0000
  else if ar = areaH then d.fld Reg.HP_HWIN_BASE_4K * 4096
  else 0

/-! ## Force overlay (R214, R215) -/

/-- A byte of PIM seen through one force entry. -/
def overlayOne (base : Nat → Nat) (a : Nat) (b : Byte) : Option (Word × Word) → Byte
  | none => b
  | some (w0, w1) =>
    let width := bitsOf w0 29 2
    let addr := bitsOf w0 0 21
    let start := base (bitsOf w0 24 4)
    if width = 0 then
      if start + addr / 8 = a then BitVec.ofNat 8 (putBit b.toNat (addr % 8) (w1.toNat.testBit 0)) else b
    else if start + addr ≤ a ∧ a < start + addr + 2 ^ (width - 1) then
      BitVec.ofNat 8 (w1.toNat / 256 ^ (a - (start + addr)))
    else b

/-- A byte of PIM seen through the force table. -/
def overlayAll (base : Nat → Nat) (a : Nat) (b : Byte) : SMap (Option (Word × Word)) → Byte
  | [] => b
  | (_, e) :: t => overlayAll base a (overlayOne base a b e) t

/-- A byte as every reader sees it: forced bits read the forced value. -/
def Device.seen (d : Device) (a : Nat) : Byte :=
  overlayAll d.areaBase a (d.byte a) d.img.force

/-- n bytes as every reader sees them. -/
def Device.seenBytes (d : Device) (a n : Nat) : List Byte :=
  (List.range n).map (fun i => d.seen (a + i))

/-! ## Error-correcting codes (R72–R76) -/

/-- Keys of codewords: SDM and PIM by fabric address / 8, program words, L-area words. -/
def eccShared (a : Nat) : Nat := a / 8
def eccProg (e bank idx : Nat) : Nat := 0x40000000 + (2 * e + bank) * 32768 + idx
def eccLocal (e c off : Nat) : Nat := 0x50000000 + (16 * e + c) * 1024 + off / 4

/-- Memory code of CE_MEM_ERR_INFO.MEM for a codeword key. -/
def eccMem (k : Nat) : Nat :=
  if k < 0x100000 then 0 else if k < 0x40000000 then 1 else if k < 0x50000000 then 2 else 3

/-- Engine of a program or L-area codeword. -/
def eccEng (k : Nat) : Nat :=
  if k < 0x40000000 then 0
  else if k < 0x50000000 then (k - 0x40000000) / 65536
  else (k - 0x50000000) / 16384

/-- The address that CE_MEM_ERR shows for a codeword. -/
def eccAddr (k : Nat) : Nat :=
  if k < 0x40000000 then 8 * k
  else if k < 0x50000000 then (k - 0x40000000) / 32768 % 2 * 65536 + (k - 0x40000000) % 32768
  else (k - 0x50000000) / 1024 % 16 * 65536 + (k - 0x50000000) % 1024

/-- A codeword's stored error; an unlisted codeword has none. -/
def eccNone (_ : Nat) : Ecc := .clean

/-- The error in a codeword. -/
def Device.ecc (d : Device) (k : Nat) : Ecc := sget eccNone d.ce.ecc k

/-- Set the error in a codeword. -/
def Device.setEcc (d : Device) (k : Nat) (x : Ecc) : Device :=
  { d with ce := { d.ce with ecc := sput eccNone d.ce.ecc k x } }

/-- An uncorrectable codeword (R74): the fault line into Sluice, the latch of the first fault, event 0x088; a lane is
excluded (R257 code 1). -/
def Device.memFault (d : Device) (master eng k kind : Nat) : Device :=
  let mem := eccMem k
  let d1 :=
    if d.bit Reg.CE_MEM_ERR_INFO_VALID then d
    else
      (((((d.wr Reg.CE_MEM_ERR (wd (eccAddr k))).setF Reg.CE_MEM_ERR_INFO_MASTER master).setF
        Reg.CE_MEM_ERR_INFO_KIND kind).setF Reg.CE_MEM_ERR_INFO_ENGINE
          (if 2 ≤ mem then eccEng k else if master = 0 then eng else 0)).setF
        Reg.CE_MEM_ERR_INFO_MEM mem).setF Reg.CE_MEM_ERR_INFO_VALID 1
  ((d1.slAssert slCe).raise 0x088 [d1.rd Reg.CE_MEM_ERR, d1.rd Reg.CE_MEM_ERR_INFO]).excludeSelf 1

/-- A read of one codeword (R73, R74): whether the data are good, and the device after it. -/
def Device.eccRead (d : Device) (master eng k : Nat) : Bool × Device :=
  match d.ecc k with
  | .clean => (true, d)
  | .counted => (true, d)
  | .corr =>
    let d1 := d.setEcc k .counted
    let d2 := if 2 ≤ eccMem k then d1.inc (Reg.CE_ECC_CNT_CORR (eccEng k)) else d1.inc Reg.CE_MEM_CORR_CNT_CORR
    (true, d2.raise 0x089 [wd (eccMem k), wd (eccAddr k)])
  | .bad => (false, d.memFault master eng k 0)
  | .badAddr => (false, d.memFault master eng k 1)

/-- Reads of codewords in order; the first bad one ends them. -/
def Device.eccReads (d : Device) (master eng : Nat) : List Nat → Bool × Device
  | [] => (true, d)
  | k :: t =>
    match d.eccRead master eng k with
    | (true, d1) => d1.eccReads master eng t
    | (false, d1) => (false, d1)

/-- The codewords of SDM or PIM that n bytes from an address on touch. -/
def sharedKeys (a n : Nat) : List Nat :=
  if n = 0 then [] else (List.range ((a + n - 1) / 8 - a / 8 + 1)).map (fun i => a / 8 + i)

/-- A write of n bytes to SDM or PIM (R76): a whole codeword replaces any error, a part of one reads it first. -/
def Device.eccWriteShared (d : Device) (master eng a n : Nat) : List Nat → Bool × Device
  | [] => (true, d)
  | k :: t =>
    if a ≤ 8 * k ∧ 8 * k + 8 ≤ a + n then (d.setEcc k .clean).eccWriteShared master eng a n t
    else
      match d.eccRead master eng k with
      | (true, d1) => (d1.setEcc k .clean).eccWriteShared master eng a n t
      | (false, d1) => (false, d1)

/-- A read of SDM or PIM by a fabric master other than an engine: the bytes seen, or an error. -/
def Device.busRead (d : Device) (master a n : Nat) : Option (List Byte) × Device :=
  match d.eccReads master 0 (sharedKeys a n) with
  | (true, d1) => (some (d1.seenBytes a n), d1)
  | (false, d1) => (none, d1)

/-- A write of SDM or PIM by a fabric master other than an engine; false reports an error. -/
def Device.busWrite (d : Device) (master a : Nat) (l : List Byte) : Bool × Device :=
  match d.eccWriteShared master 0 a l.length (sharedKeys a l.length) with
  | (true, d1) => (true, d1.setBytes a l)
  | (false, d1) => (false, d1)

/-! ## Timer and counter cells (R154) -/

def tcell0 (_ : Nat) : TCell := TCell.zero
def ccell0 (_ : Nat) : CCell := CCell.zero

/-- The status byte of a timer cell. -/
def TCell.status (t : TCell) : Nat :=
  b2n t.q + 2 * b2n t.inp + 4 * b2n t.run + 8 * t.kind + 32 * t.base

/-- The status byte of a counter cell. -/
def CCell.status (c : CCell) : Nat :=
  b2n c.qu + 2 * b2n c.qd + 4 * b2n c.cum + 8 * b2n c.cdm + 16 * b2n c.ovf

/-- Word i of a timer cell's view. -/
def TCell.word (t : TCell) (i : Nat) : Nat :=
  if i = 0 then t.pt.toNat else if i = 1 then t.et.toNat else if i = 2 then t.status else t.acc

/-- Word i of a counter cell's view. -/
def CCell.word (c : CCell) (i : Nat) : Nat :=
  if i = 0 then c.pv.toNat else if i = 1 then c.cv.toNat else if i = 2 then c.status else 0

def Device.tcell (d : Device) (n : Nat) : TCell := sget tcell0 d.ce.tcells n
def Device.ccell (d : Device) (n : Nat) : CCell := sget ccell0 d.ce.ccells n

def Device.setTcell (d : Device) (n : Nat) (t : TCell) : Device :=
  { d with ce := { d.ce with tcells := sput tcell0 d.ce.tcells n t } }

def Device.setCcell (d : Device) (n : Nat) (c : CCell) : Device :=
  { d with ce := { d.ce with ccells := sput ccell0 d.ce.ccells n c } }

/-- A byte of the word view of area T or C. -/
def Device.cellByte (d : Device) (ar off : Nat) : Byte :=
  let w := if ar = areaT then (d.tcell (off / 16)).word (off / 4 % 4) else (d.ccell (off / 16)).word (off / 4 % 4)
  BitVec.ofNat 8 (w / 256 ^ (off % 4))

/-! ## Accesses of an engine -/

/-- The key of a byte of an L area. -/
def larKey (e c off : Nat) : Nat := (16 * e + c) * 4096 + off

/-- A byte of an area as engine e in context c reads it. -/
def Device.areaByte (d : Device) (e c ar off : Nat) : Byte :=
  if ar = areaL then sget byte0 d.larea (larKey e c off)
  else if ar = areaT ∨ ar = areaC then d.cellByte ar off
  else d.seen (d.areaBase ar + off)

/-- The number in n bytes of an area. -/
def Device.areaNum (d : Device) (e c ar off n : Nat) : Nat :=
  leNat ((List.range n).map (fun i => d.areaByte e c ar (off + i)))

/-- The codewords behind n bytes of an area; the cells have none. -/
def Device.areaKeys (d : Device) (e c ar off n : Nat) : List Nat :=
  if ar = areaL then
    if n = 0 then [] else (List.range ((off + n - 1) / 4 - off / 4 + 1)).map (fun i => eccLocal e c (off + 4 * i))
  else if ar = areaT ∨ ar = areaC then []
  else sharedKeys (d.areaBase ar + off) n

/-- A read of n bytes of an area (R73–R75): the number, or none at an uncorrectable codeword. -/
def Device.areaRead (d : Device) (e c ar off n : Nat) : Option Nat × Device :=
  match d.eccReads 0 e (d.areaKeys e c ar off n) with
  | (true, d1) => (some (d1.areaNum e c ar off n), d1)
  | (false, d1) => (none, d1)

/-- Write the bytes of an L area. -/
def Device.setLarea (d : Device) (k : Nat) : List Byte → Device
  | [] => d
  | b :: t => ({ d with larea := sput byte0 d.larea k b } : Device).setLarea (k + 1) t

/-- Write the n low bytes of a number into an area, errors aside. -/
def Device.areaPut (d : Device) (e c ar off n v : Nat) : Device :=
  if ar = areaL then d.setLarea (larKey e c off) (leBytes n v) else d.setNum (d.areaBase ar + off) n v

/-- A write of n bytes of an area (R76): false where the read of the rest of the codeword meets a memory fault. -/
def Device.areaWrite (d : Device) (e c ar off n v : Nat) : Bool × Device :=
  let r :=
    if ar = areaL then
      if n = 4 then (true, d.setEcc (eccLocal e c off) .clean)
      else
        match d.eccRead 0 e (eccLocal e c off) with
        | (true, d1) => (true, d1.setEcc (eccLocal e c off) .clean)
        | (false, d1) => (false, d1)
    else d.eccWriteShared 0 e (d.areaBase ar + off) n (sharedKeys (d.areaBase ar + off) n)
  if r.1 then (true, r.2.areaPut e c ar off n v) else r

/-- A bit of an area as engine e in context c reads it (R116). -/
def Device.areaBit (d : Device) (e c ar ba : Nat) : Bool :=
  if ar = areaT then (d.tcell (ba / 8)).status.testBit (ba % 8)
  else if ar = areaC then (d.ccell (ba / 8)).status.testBit (ba % 8)
  else (d.areaByte e c ar (ba / 8)).toNat.testBit (ba % 8)

/-- The codewords behind a bit. -/
def Device.bitKeys (d : Device) (e c ar ba : Nat) : List Nat := d.areaKeys e c ar (ba / 8) 1

/-- The byte that a partial write merges with: what lies underneath the overlay (R215). -/
def Device.underByte (d : Device) (e c ar off : Nat) : Byte :=
  if ar = areaL then sget byte0 d.larea (larKey e c off) else d.byte (d.areaBase ar + off)

/-- A bit write (R120): a read-modify-write of one codeword. -/
def Device.writeBit (d : Device) (e c ar ba : Nat) (v : Bool) : Bool × Device :=
  d.areaWrite e c ar (ba / 8) 1 (putBit (d.underByte e c ar (ba / 8)).toNat (ba % 8) v)

end Sys2Proof.Machine
end

