-- ==== Sys2Proof/Machine/Mailbox.lean ====
section
/-! DEFINITION. Operations of the mailboxes, doorbells and semaphores that engines and the host share
(R512–R521, R161). -/

namespace Sys2Proof.Machine

/-- Outbound states of MB_OUT (R514). -/
def outNone : Nat := 0
def outPending : Nat := 1
def outAcked : Nat := 2
def outAborted : Nat := 3

/-- A SEND from endpoint s to d would be accepted (R512). -/
def Device.mbCanSend (d : Device) (s r : Nat) : Bool :=
  decide (r ≤ 24) && decide (r ≠ s) && !d.bit (Reg.MB_EP_W2_VALID r)
    && decide (d.fld (Reg.MB_EP_W3_OUT_STATE s) ≠ outPending)
    && (decide (r = 24) || decide (d.engState r = stReady) || decide (d.engState r = stRun)
      || decide (d.engState r = stHalted))

/-- SEND a notice (R512): whether it was accepted. -/
def Device.mbSend (d : Device) (s r : Nat) (ptr lt : Word) : Bool × Device :=
  if d.mbCanSend s r then
    let d1 := (((d.wr (Reg.MB_EP_W0 r) ptr).wr (Reg.MB_EP_W1 r) lt).setF (Reg.MB_EP_W2_VALID r) 1).setF
      (Reg.MB_EP_W2_SENDER r) s
    let d2 := (((d1.setF (Reg.MB_EP_W3_OUT_STATE s) outPending).setF (Reg.MB_EP_W3_DEST s) r).setF
      (Reg.MB_EP_W3_CODE s) 0).inc Reg.MB_CNT_SENT
    (true, if r ≤ 23 then d2.fire (0xC0 + r) else d2.cause 1)
  else (false, d.inc Reg.MB_CNT_REFUSED)

/-- Remove the inbound notice of an endpoint. -/
def Device.mbClearIn (d : Device) (r : Nat) : Device :=
  ((d.wr (Reg.MB_EP_W0 r) 0).wr (Reg.MB_EP_W1 r) 0).wr (Reg.MB_EP_W2 r) 0

/-- The outbound state of a sender ends; the host's raises cause 3. -/
def Device.mbOut (d : Device) (s st code : Nat) : Device :=
  let d1 := (d.setF (Reg.MB_EP_W3_OUT_STATE s) st).setF (Reg.MB_EP_W3_CODE s) code
  if s = 24 then d1.cause 3 else d1

/-- ACK the inbound notice of endpoint r (R513): whether one was present. -/
def Device.mbAck (d : Device) (r code : Nat) : Bool × Device :=
  if d.bit (Reg.MB_EP_W2_VALID r) then
    (true, (d.mbClearIn r).mbOut (d.fld (Reg.MB_EP_W2_SENDER r)) outAcked code)
  else (false, d)

/-- The tag of the inbound notice of an endpoint. -/
def Device.mbTag (d : Device) (r : Nat) : Nat := bitsOf (d.rd (Reg.MB_EP_W1 r)) 16 16

/-- A PENDING notice of sender s ends ABORTED (R515), with the event that says why. -/
def Device.mbAbort (d : Device) (s ev : Nat) : Device :=
  if d.fld (Reg.MB_EP_W3_OUT_STATE s) = outPending then
    let r := d.fld (Reg.MB_EP_W3_DEST s)
    (((d.mbClearIn r).mbOut s outAborted 0xFFFF).inc Reg.MB_CNT_ABORTED).raise ev [wd s, wd r, wd (d.mbTag r)]
  else d

/-- Reset an endpoint (R515). -/
def Device.epReset (d : Device) (n : Nat) : Device :=
  let d1 := if d.bit (Reg.MB_EP_W2_VALID n) then d.mbAbort (d.fld (Reg.MB_EP_W2_SENDER n)) 0x3D1 else d
  let d2 := d1.wr (Reg.MB_EP_W4 n) 0
  let d3 := if d2.fld (Reg.MB_EP_W3_OUT_STATE n) = outPending then
      let r := d2.fld (Reg.MB_EP_W3_DEST n)
      (d2.mbClearIn r).raise 0x3D2 [wd n, wd r, wd (d2.mbTag r)]
    else d2
  d3.wr (Reg.MB_EP_W3 n) 0

/-- Raise causes 8–31 for the bits of a ring of E_24 (R506). -/
def Device.ringCauses (d : Device) (bits : Nat) : Nat → Device
  | 0 => d
  | k + 1 =>
    let d1 := d.ringCauses bits k
    if 8 ≤ k ∧ bits.testBit k then d1.cause k else d1

/-- Ring doorbell bits of endpoint n (R517). -/
def Device.doorbell (d : Device) (n : Nat) (bits : Word) : Device :=
  if n > 24 then d
  else
    let old := d.rd (Reg.MB_EP_W4 n)
    let fresh := bits &&& ~~~ old &&& ~~~ d.rd (Reg.MB_EP_W6 n)
    let d1 := d.wr (Reg.MB_EP_W4 n) (old ||| bits)
    if fresh = 0 then d1
    else if n ≤ 23 then d1.fire (0xC0 + n)
    else
      let d2 := if fresh.toNat % 256 ≠ 0 then d1.cause 2 else d1
      d2.ringCauses fresh.toNat 32

/-! ## Semaphores (R518–R521) -/

/-- Owner codes (R518). -/
def ownerFree : Nat := 0
def ownerEng (e c : Nat) : Nat := 0x40 + 16 * e + c
def ownerHost : Nat := 0x1C0
def ownerDbg : Nat := 0x1C1

def Device.semOwner (d : Device) (s : Nat) : Nat := d.fld (Reg.HSEM_OWNER s)

/-- The owner code of a requester that tries in a contended cycle. -/
def Device.rivalCode (d : Device) (i : Nat) : Nat :=
  if i = 24 then ownerHost else if i = 25 then ownerDbg else ownerEng i (d.fld (Reg.CE_STATUS_ACTIVE_CTX i))

/-- The index of least rank (i − q) mod 32 among requesters (R520). -/
def semWinner (q : Nat) : List Nat → Nat → Nat
  | [], best => best
  | i :: t, best => semWinner q t (if (i + 32 - q) % 32 < (best + 32 - q) % 32 then i else best)

/-- An acquire attempt by requester i with an owner code, contended by the rivals that try in the same cycle
(R519, R520). -/
def Device.semTry (d : Device) (s i code : Nat) (rivals : List Nat) : Device :=
  if d.semOwner s ≠ ownerFree then d
  else
    let others := rivals.filter (fun r => decide (r ≠ i) && decide (r ≤ 25))
    if others = [] then d.setF (Reg.HSEM_OWNER s) code
    else
      let q := sget zeroAt d.mb.q s
      let w := semWinner q others i
      let d1 := d.setF (Reg.HSEM_OWNER s) (if w = i then code else d.rivalCode w)
      ({ d1 with mb := { d1.mb with q := sput zeroAt d1.mb.q s ((q + 1) % 32) } } : Device).inc
        Reg.MB_CNT_CONTENDED

/-- Free a semaphore. -/
def Device.semFree (d : Device) (s : Nat) : Device := d.setF (Reg.HSEM_OWNER s) ownerFree

/-- Release every semaphore below n that context c of engine e owns, with event 0x092 for each (R161). -/
def Device.semRelease (d : Device) (e c : Nat) : Nat → Device
  | 0 => d
  | n + 1 =>
    let d1 := d.semRelease e c n
    if d1.semOwner n = ownerEng e c then (d1.semFree n).raise 0x092 [wd n, wd e, wd c] else d1

end Sys2Proof.Machine
end

