-- ==== Sys2Proof/Machine/Engine.lean ====
section
/-! DEFINITION. Engines: contexts, instance start and end (R108, R178, R179, R189), traps and their reactions
(R168–R172, R185), stopping an engine (R89, R171), engine faults (R79, R89), bank drain (R226). -/

namespace Sys2Proof.Machine

def ctx0 (_ : Nat) : Ctx := Ctx.start 0

/-- A context of the main copy. -/
def Device.ctx (d : Device) (e c : Nat) : Ctx := sget ctx0 d.ce.main (16 * e + c)

/-- Write a context of both copies: the checker follows the main copy (R69, R70). -/
def Device.setCtx (d : Device) (e c : Nat) (x : Ctx) : Device :=
  { d with ce := { d.ce with main := sput ctx0 d.ce.main (16 * e + c) x, chk := sput ctx0 d.ce.chk (16 * e + c) x } }

/-- The current bank of an engine (R221). -/
def Device.bank (d : Device) (e : Nat) : Nat := b2n (d.bitAt Reg.IMG_BANK_CUR e)

/-- The highest context below n that is PENDING or ACTIVE (R177). -/
def Device.pickCtx (d : Device) (e : Nat) : Nat → Option Nat
  | 0 => none
  | n + 1 => if d.ctxState e n = 1 ∨ d.ctxState e n = 2 then some n else d.pickCtx e n

/-- The release that an instance of a context runs. -/
def Device.relOf (d : Device) (e c : Nat) : Option Rel := sget noRel d.task.rel (16 * e + c)

/-- A PENDING context first runs (R179): registers at their start values, and the release record. -/
def Device.startInst (d : Device) (e c : Nat) : Device :=
  let r := (d.relOf e c).getD ⟨0, 0, 0, 0, none, none, false⟩
  let entry := r.entry.getD (d.fld (Reg.TASK_CFG_ENTRY e c))
  let merged := sget zeroAt d.task.merged (16 * e + c)
  let d1 := d.setCtx e c (Ctx.start (BitVec.ofNat 16 (32768 * d.bank e + entry)))
  let d2 := (d1.areaPut e c areaL 4088 4 (r.kind * 2 ^ 24 + merged * 2 ^ 16 + r.source % 256)).areaPut e c areaL
    4092 4 (r.tick % 2 ^ 32)
  let d3 : Device := { d2 with task := { d2.task with merged := sput zeroAt d2.task.merged (16 * e + c) 0 } }
  d3.setF (Reg.TASK_STAT_STATE e c) 2

/-- Record the response time of an ended instance in CE cycles of 2 ns (TASK_MAXRUN). -/
def Device.maxRun (d : Device) (e c : Nat) : Device :=
  match d.relOf e c with
  | some r => d.setF (Reg.TASK_MAXRUN_MAX_CYC e c)
      (max (d.fld (Reg.TASK_MAXRUN_MAX_CYC e c)) (min ((d.ts64 - r.rtime) / 2) (2 ^ 32 - 1)))
  | none => d

/-- An engine holds a PC or call-stack entry in a bank: an ACTIVE context whose PC or stack lies there (R226). -/
def Ctx.inBank (x : Ctx) (b : Nat) : Bool :=
  decide (x.pc.toNat / 32768 = b) || (List.range x.csp).any (fun i => decide ((sget (fun _ => 0) x.cs i).toNat / 32768 = b))

/-- An instance ends (R161, R178): semaphores go, the longest response is kept, a latched release becomes PENDING. -/
def Device.endInst (d : Device) (e c : Nat) : Device :=
  let d0 := d.semRelease e c 64
  let d1 := if d.ctxState e c = 2 then d0.maxRun e c else d0
  if d1.bit (Reg.TASK_STAT_LATCH e c) then
    let r := sget noRel d1.task.latched (16 * e + c)
    let d2 := ((d1.setF (Reg.TASK_STAT_LATCH e c) 0).setF (Reg.TASK_STAT_STATE e c) 1).setRel e c r
    { d2 with task := { d2.task with latched := sput noRel d2.task.latched (16 * e + c) none } }
  else (d1.setF (Reg.TASK_STAT_STATE e c) 0).setRel e c none

/-- A release that an engine stop leaves without an end: it counts at its t_VOTE (R171, R188). -/
def Device.leaveUnended (d : Device) (e c : Nat) (r : Option Rel) : Device :=
  match r with
  | some ⟨_, _, _, _, some t, _, _⟩ => { d with task := { d.task with unended := (16 * e + c, t) :: d.task.unended } }
  | _ => d

/-- Every context below n of an engine ends, latched releases with it. -/
def Device.endContexts (d : Device) (e : Nat) : Nat → Device
  | 0 => d
  | n + 1 =>
    let d1 := d.endContexts e n
    let d2 := (d1.leaveUnended e n (d1.relOf e n)).leaveUnended e n (sget noRel d1.task.latched (16 * e + n))
    let d3 := (((d2.semRelease e n 64).setF (Reg.TASK_STAT_LATCH e n) 0).setF (Reg.TASK_STAT_STATE e n) 0).setRel e n none
    { d3 with task := { d3.task with latched := sput noRel d3.task.latched (16 * e + n) none } }

/-- An engine stops (R89, R171): all contexts end, its endpoint is reset (R515), a debug command in progress ends with
code 5 (R90). -/
def Device.stopEngine (d : Device) (e st : Nat) : Device :=
  (((d.endContexts e 16).setF (Reg.CE_STATUS_STATE e) st).epReset e).finishCmd (portCE e) 5

/-- Release the fault context of an engine (R185). -/
def Device.faultRelease (d : Device) (e trapCtx : Nat) : Device :=
  if d.bit (Reg.TASK_ENG_CFG_FAULT_EN e) then
    let f := d.fld (Reg.TASK_ENG_CFG_FAULT_CTX e)
    if f = trapCtx then d else d.release e f (d.mkRel e f 2 trapCtx d.ts64 none)
  else d

/-- Trap causes (R168). -/
def tIllegal : Nat := 1
def tLsOver : Nat := 2
def tLsUnder : Nat := 3
def tCsOver : Nat := 4
def tCsUnder : Nat := 5
def tMisalign : Nat := 6
def tBound : Nat := 7
def tWriteI : Nat := 8
def tDiv0 : Nat := 9
def tFloat : Nat := 10
def tEcc : Nat := 11
def tProgram : Nat := 12

/-- The area code of a trap without an operand area (R172). -/
def noArea : Nat := 15

/-- The reaction LANE_FAULT or STOP_ENGINE (R171): the engine stops; LANE_FAULT excludes a lane at once. -/
def Device.stopReact (d : Device) (e react : Nat) : Device :=
  let d1 := d.stopEngine e stStopped
  if react = 2 then d1.excludeSelf 2 else d1

/-- Source bits of R544 that the device raises itself. -/
def srcSwSys : Nat := 6
def srcSwCore : Nat := 7
def srcTriAuto : Nat := 8
def srcActivate : Nat := 9
def srcMigFail : Nat := 10
def srcPfailResume : Nat := 11

/-- A block of the device requests a reset; `RESET_SOURCE_ASSERT` then asserts the source (log 11). -/
def Device.requestReset (d : Device) (src : Nat) : Device :=
  { d with sys := { d.sys with request := putBit d.sys.request src true } }

/-- A failing migrate start (R486): nothing is committed at boundary 1, event 0x38C, FORCE_COLD, a CORE reset. -/
def Device.migFail (d : Device) (e cause : Nat) : Device :=
  let d1 := (d.raise 0x38C [wd e, wd cause]).setF Reg.LDR_STAT_FORCE_COLD 1
  ({ d1 with tick := { d1.tick with noCommit := true, noState := true } } : Device).requestReset srcMigFail

/-- A context runs a migrate instance. -/
def Device.migrating (d : Device) (e c : Nat) : Bool :=
  match d.relOf e c with
  | some r => decide (r.kind = 5)
  | none => false

/-- A trap (R170): the trap registers, event 0x090 and the task's reaction. -/
def Device.trap (d : Device) (e c cause area addr code pc : Nat) : Device :=
  let react := if d.fld (Reg.TASK_CFG_TRAP_REACT e c) = 3 then 0 else d.fld (Reg.TASK_CFG_TRAP_REACT e c)
  let d1 := (((d.wr (Reg.CE_TRAP_0 e) (wd (code * 65536 + c * 4096 + react * 1024 + cause))).setF
    (Reg.CE_TRAP_1_AREA e) area).setF ⟨Reg.CE_TRAP_1 e, 0, 16⟩ pc).inc (Reg.CE_TRAP_1_COUNT e)
  let dm := if d1.migrating e c then d1.migFail e cause else d1
  let d2 := (dm.wr (Reg.CE_TRAP_2 e) (wd addr)).raiseFrom e c pc 0x090
    [wd e, d1.rd (Reg.CE_TRAP_0 e), d1.rd (Reg.CE_TRAP_1 e), wd addr]
  if react = 0 then
    let inFault := d2.bit (Reg.TASK_ENG_CFG_FAULT_EN e) && decide (d2.fld (Reg.TASK_ENG_CFG_FAULT_CTX e) = c)
    let d3 := d2.endInst e c
    if inFault then d3 else d3.faultRelease e c
  else d2.stopReact e react

/-- An engine fault (R79, R89): the first fault latches CE_FAULT and CE_FAULT_PC and records one event. Causes: bit
index in CE_FAULT; `extra` adds the comparator bits and the group. -/
def Device.engineFault (d : Device) (e first causes extra : Nat) (ev : Nat) (snaps : Word → List Word) : Device :=
  if d.engState e = stFault then
    d.wr (Reg.CE_FAULT e) (d.rd (Reg.CE_FAULT e) ||| wd causes)
  else
    let c := d.fld (Reg.CE_STATUS_ACTIVE_CTX e)
    let pc := (d.ctx e c).pc.toNat
    let d1 := (d.wr (Reg.CE_FAULT e) (wd (causes + first * 256 + extra))).wr (Reg.CE_FAULT_PC e) (wd (c * 65536 + pc))
    let d2 := d1.raiseFrom e c pc ev (snaps (wd (c * 65536 + pc)))
    let d3 := d2.stopEngine e stFault
    (d3.slAssert slCe).excludeSelf 1

end Sys2Proof.Machine
end

