-- ==== Sys2Proof/Machine/Operands.lean ====
section
/-! DEFINITION. Operand addresses of the B and W formats (R117–R119, R134, R135) and what an instruction answers. -/

namespace Sys2Proof.Machine

/-- What an instruction answers: it completes and goes on with the next index or at a given position; a block move
has copied a number of elements and is done or preempted; the instance ends; or it traps, with the operand area and
address, and the program trap code. -/
inductive Res where
  | ok (d : Device) (x : Ctx)
  | goto (d : Device) (x : Ctx) (bank : Nat) (idx : Int)
  | moved (d : Device) (x : Ctx) (steps : Nat) (done : Bool)
  | fin (d : Device)
  | trap (cause area addr code : Nat) (d : Device) (x : Ctx)

/-- A formed operand address, or a trap. -/
inductive Place where
  | at (d : Device) (ar pos : Nat)
  | bad (cause ar addr : Nat) (d : Device)

/-- An index register added to an offset without wrap. -/
def indexed (f : Nat) (mode : Nat) (x : Ctx) : Int :=
  if mode = 1 then (f : Int) + x.x.toInt else if mode = 2 then (f : Int) + x.y.toInt else f

/-- Bound an address: the area must exist and hold s units from it on (R118, R134). -/
def bounded (d : Device) (ar : Nat) (a : Int) (s size : Nat) : Place :=
  if 12 ≤ ar ∨ a < 0 ∨ (size : Int) < a + s then .bad tBound ar (lowBits a 32) d else .at d ar a.toNat

/-- The pointer word of mode 3 at byte f of an area (R117, R118). -/
def pointer (d : Device) (e c ar f : Nat) : Place :=
  if f % 4 ≠ 0 then .bad tMisalign ar 0 d
  else if d.areaSize ar < f + 4 then .bad tBound ar 0 d
  else
    match d.areaRead e c ar f 4 with
    | (some p, d1) => .at d1 (p / 2 ^ 28) (p % 2 ^ 28)
    | (none, d1) => .bad tEcc ar f d1

/-- The target of a B-format instruction (R118). -/
def bitPlace (d : Device) (e c : Nat) (x : Ctx) (mode ar f : Nat) : Place :=
  if mode = 3 then
    match pointer d e c ar f with
    | .at d1 ar1 p => bounded d1 ar1 p 1 (d1.areaBits ar1)
    | .bad k a p d1 => .bad k a p d1
  else bounded d ar (indexed f mode x) 1 (d.areaBits ar)

/-- Alignment against w, then the bound against s bytes (R134). -/
def aligned (d : Device) (ar : Nat) (a : Int) (w s : Nat) : Place :=
  if a % (w : Int) ≠ 0 then .bad tMisalign ar (lowBits a 32) d else bounded d ar a s (d.areaSize ar)

/-- The target of a W-format instruction of width w that reads s bytes (R134). -/
def wordPlace (d : Device) (e c : Nat) (x : Ctx) (mode ar f w s : Nat) : Place :=
  if mode = 3 then
    match pointer d e c ar f with
    | .at d1 ar1 p =>
      if p % 8 ≠ 0 then .bad tMisalign ar1 (p / 8) d1 else aligned d1 ar1 ((p / 8 : Nat) : Int) w s
    | .bad k a p d1 => .bad k a p d1
  else aligned d ar (indexed f mode x) w s

/-- The encodings of R113 that B and W formats share: an unassigned area, or mode 3 with area T or C. -/
def badArea (mode ar : Nat) : Bool :=
  decide (12 ≤ ar) || (decide (mode = 3) && (decide (ar = areaT) || decide (ar = areaC)))

/-- An illegal opcode: no operand area, no address. -/
def illegal (d : Device) (x : Ctx) : Res := .trap tIllegal noArea 0 0 d x

/-- A trap found while an address was formed. -/
def placeTrap (x : Ctx) (k ar p : Nat) (d : Device) : Res := .trap k ar p 0 d x

/-- The access width of a width code (R134). -/
def widthOf (w : Nat) : Nat := if w = 0 then 1 else if w = 1 then 2 else 4

end Sys2Proof.Machine
end

