-- ==== Sys2Proof/Machine/Flags.lean ====
section
/-! DEFINITION. The accumulator stack, the flags of R142 and the logic chain of R122. -/

namespace Sys2Proof.Machine

/-- A push: B takes the old A, A the value. -/
def Ctx.push (x : Ctx) (v : Word) : Ctx := { x with b := x.a, a := v }

/-- Write the five flags, Z and N from a 32-bit result (R142). -/
def Ctx.flags (x : Ctx) (r : Word) (v c u : Bool) : Ctx :=
  { x with z := r == 0, n := r.msb, v := v, c := c, u := u }

/-- A takes a result that writes the flags. -/
def Ctx.result (x : Ctx) (r : Word) (v c u : Bool) : Ctx :=
  { x.flags r v c u with a := r }

/-- The combine operators (R123). -/
inductive BitOp where
  | and
  | or
  | xor
deriving DecidableEq, Repr

def BitOp.apply : BitOp → Bool → Bool → Bool
  | .and, p, q => p && q
  | .or, p, q => p || q
  | .xor, p, q => p != q

/-- A combine (R122): it starts a chain with CO = 1, folds with CO = 0. -/
def Ctx.combine (x : Ctx) (op : BitOp) (v : Bool) : Ctx :=
  { x with la := if x.co then v else op.apply x.la v, co := false }

/-- Signed overflow of a sum. -/
def addV (p q : Word) : Bool := (p.toInt + q.toInt) ≠ (p + q).toInt

/-- Carry out of bit 31 of a sum. -/
def addC (p q : Word) : Bool := decide (2 ^ 32 ≤ p.toNat + q.toNat)

/-- Signed overflow of a difference. -/
def subV (p q : Word) : Bool := (p.toInt - q.toInt) ≠ (p - q).toInt

/-- Borrow of a difference. -/
def subC (p q : Word) : Bool := decide (p.toNat < q.toNat)

end Sys2Proof.Machine
end

