-- ==== Sys2Proof/Machine/AzRun.lean ====
section
/-! DEFINITION. Running one Aznum instruction on an engine (R108, R115, R119, R170, R177, R179, R192). The command
names the engine and the instruction's fields; the engine's state decides the context that runs it (log 12). -/

namespace Sys2Proof.Machine

/-- A command with an effect on the device alone; Sluice and the field die's own hold act on what it leaves. -/
def run (f : Device → Device) (s : State) : Host.Outcome State Fault Refusal :=
  .next { s with dev := (f s.dev).sluice }

/-- Count executed steps in the 64-bit TASK_ENG_RETIRED (R192). -/
def Device.retire (d : Device) (e n : Nat) : Device :=
  let v := (d.rd (Reg.TASK_ENG_RETIRED_HI e)).toNat * 2 ^ 32 + (d.rd (Reg.TASK_ENG_RETIRED_LO e)).toNat + n
  (d.wr (Reg.TASK_ENG_RETIRED_LO e) (wd v)).wr (Reg.TASK_ENG_RETIRED_HI e) (wd (v / 2 ^ 32))

/-- The instruction has completed; the next position is (bank, idx), or a trap "area bound" that reports the producing
index (R115). -/
def Device.advance (d : Device) (e c : Nat) (x : Ctx) (bank : Nat) (idx : Int) : Device :=
  if 0 ≤ idx ∧ idx < 32768 then
    d.setCtx e c { x with pc := BitVec.ofNat 16 (bank * 32768 + idx.toNat) }
  else (d.setCtx e c x).trap e c tBound noArea 0 0 x.pc.toNat

/-- Bring an instruction's answer into the device. -/
def Device.settle (e c : Nat) (pc : BitVec 16) : Res → Device
  | .ok d x => (d.retire e 1).advance e c x (pc.toNat / 32768) (pc.toNat % 32768 + 1)
  | .goto d x bank idx => (d.retire e 1).advance e c x bank idx
  | .moved d x n true => (d.retire e (max n 1)).advance e c x (pc.toNat / 32768) (pc.toNat % 32768 + 1)
  | .moved d x n false => (d.retire e n).setCtx e c x
  | .fin d => (d.retire e 1).endInst e c
  | .trap k ar addr code d x => ((d.setCtx e c x).retire e 1).trap e c k ar addr code pc.toNat

/-- Dispatch (R177, R179): the highest PENDING or ACTIVE context becomes the one that runs. -/
def Device.dispatch (d : Device) (e c : Nat) : Device :=
  (if d.ctxState e c = 1 then d.startInst e c else d).setF (Reg.CE_STATUS_ACTIVE_CTX e) c

/-- The codeword of the instruction that a context fetches. -/
def fetchKey (e : Nat) (pc : BitVec 16) : Nat := eccProg e (pc.toNat / 32768) (pc.toNat % 32768)

/-- An engine that runs executes one instruction in the context that the dispatcher selects. -/
def azStep (e : Eng) (f : Device → Nat → Ctx → Res) (d : Device) : Device :=
  if d.engState e ≠ stRun then d
  else
    match d.pickCtx e 16 with
    | none => d
    | some c =>
      let d1 := d.dispatch e c
      let x := d1.ctx e c
      match d1.eccRead 0 e (fetchKey e x.pc) with
      | (true, d2) => Device.settle e c x.pc (f d2 c x)
      | (false, d2) => Device.settle e c x.pc (.trap tEcc noArea 0 0 d2 x)

/-- An instruction that changes registers only. -/
def regOp (legal : Bool) (g : Ctx → Ctx) (d : Device) (_ : Nat) (x : Ctx) : Res :=
  if legal then .ok d (g x) else illegal d x

end Sys2Proof.Machine
end

