-- ==== Sys2Proof/Machine/AzLogic.lean ====
section
/-! DEFINITION. Bit logic, branches, jumps, calls, loops, task end and index instructions (R112–R133). -/

namespace Sys2Proof.Machine

/-! ## Bit instructions (R116–R125) -/

/-- The target of a bit instruction, with the checks of R119 for one that writes; then its effect. -/
def onBit (e : Eng) (mode : BitVec 2) (area : BitVec 4) (ba : BitVec 20) (stores : Bool)
    (k : Device → Nat → Nat → Res) (d : Device) (c : Nat) (x : Ctx) : Res :=
  if badArea mode.toNat area.toNat then illegal d x
  else
    match bitPlace d e c x mode.toNat area.toNat ba.toNat with
    | .bad t a p d1 => placeTrap x t a p d1
    | .at d1 ar p =>
      if stores && (ar == areaT || ar == areaC) then placeTrap x tBound ar p d1
      else if stores && ar == areaI then placeTrap x tWriteI ar p d1
      else k d1 ar p

/-- Read the target bit, or trap "uncorrectable ECC". -/
def readBit (e c : Nat) (x : Ctx) (d : Device) (ar p : Nat) (k : Device → Bool → Res) : Res :=
  match d.eccReads 0 e (d.bitKeys e c ar p) with
  | (true, d1) => k d1 (d1.areaBit e c ar p)
  | (false, d1) => placeTrap x tEcc ar p d1

/-- Write the target bit, or trap "uncorrectable ECC" (R76). -/
def storeBit (e c : Nat) (x : Ctx) (d : Device) (ar p : Nat) (v : Bool) (k : Device → Res) : Res :=
  match d.writeBit e c ar p v with
  | (true, d1) => k d1
  | (false, d1) => placeTrap x tEcc ar p d1

/-- AND, ANDN, OR, ORN, XOR, XORN. -/
def combineOp (op : BitOp) (neg : Bool) (e : Eng) (mode : BitVec 2) (area : BitVec 4) (ba : BitVec 20)
    (d : Device) (c : Nat) (x : Ctx) : Res :=
  onBit e mode area ba false (fun d1 ar p => readBit e c x d1 ar p (fun d2 v => .ok d2 (x.combine op (v != neg))))
    d c x

/-- STO and STON. -/
def storeOp (neg : Bool) (e : Eng) (mode : BitVec 2) (area : BitVec 4) (ba : BitVec 20)
    (d : Device) (c : Nat) (x : Ctx) : Res :=
  onBit e mode area ba true
    (fun d1 ar p => storeBit e c x d1 ar p (x.la != neg) (fun d2 => .ok d2 { x with co := true })) d c x

/-- SET and RST. -/
def setOp (v : Bool) (e : Eng) (mode : BitVec 2) (area : BitVec 4) (ba : BitVec 20)
    (d : Device) (c : Nat) (x : Ctx) : Res :=
  onBit e mode area ba true
    (fun d1 ar p =>
      if x.la then storeBit e c x d1 ar p v (fun d2 => .ok d2 { x with co := true })
      else .ok d1 { x with co := true }) d c x

/-- EDGR and EDGF: the edge bit records LA each time (R125). -/
def edgeOp (falling : Bool) (e : Eng) (mode : BitVec 2) (area : BitVec 4) (ba : BitVec 20)
    (d : Device) (c : Nat) (x : Ctx) : Res :=
  onBit e mode area ba true
    (fun d1 ar p => readBit e c x d1 ar p (fun d2 m => storeBit e c x d2 ar p x.la (fun d3 =>
      .ok d3 { x with la := if falling then !x.la && m else x.la && !m }))) d c x

def execAzAnd (e : Eng) (mode : BitVec 2) (area : BitVec 4) (ba : BitVec 20) (s : State) :
    Host.Outcome State Fault Refusal := run (azStep e (combineOp .and false e mode area ba)) s
def execAzAndn (e : Eng) (mode : BitVec 2) (area : BitVec 4) (ba : BitVec 20) (s : State) :
    Host.Outcome State Fault Refusal := run (azStep e (combineOp .and true e mode area ba)) s
def execAzOr (e : Eng) (mode : BitVec 2) (area : BitVec 4) (ba : BitVec 20) (s : State) :
    Host.Outcome State Fault Refusal := run (azStep e (combineOp .or false e mode area ba)) s
def execAzOrn (e : Eng) (mode : BitVec 2) (area : BitVec 4) (ba : BitVec 20) (s : State) :
    Host.Outcome State Fault Refusal := run (azStep e (combineOp .or true e mode area ba)) s
def execAzXor (e : Eng) (mode : BitVec 2) (area : BitVec 4) (ba : BitVec 20) (s : State) :
    Host.Outcome State Fault Refusal := run (azStep e (combineOp .xor false e mode area ba)) s
def execAzXorn (e : Eng) (mode : BitVec 2) (area : BitVec 4) (ba : BitVec 20) (s : State) :
    Host.Outcome State Fault Refusal := run (azStep e (combineOp .xor true e mode area ba)) s
def execAzSto (e : Eng) (mode : BitVec 2) (area : BitVec 4) (ba : BitVec 20) (s : State) :
    Host.Outcome State Fault Refusal := run (azStep e (storeOp false e mode area ba)) s
def execAzSton (e : Eng) (mode : BitVec 2) (area : BitVec 4) (ba : BitVec 20) (s : State) :
    Host.Outcome State Fault Refusal := run (azStep e (storeOp true e mode area ba)) s
def execAzSet (e : Eng) (mode : BitVec 2) (area : BitVec 4) (ba : BitVec 20) (s : State) :
    Host.Outcome State Fault Refusal := run (azStep e (setOp true e mode area ba)) s
def execAzRst (e : Eng) (mode : BitVec 2) (area : BitVec 4) (ba : BitVec 20) (s : State) :
    Host.Outcome State Fault Refusal := run (azStep e (setOp false e mode area ba)) s
def execAzEdgr (e : Eng) (mode : BitVec 2) (area : BitVec 4) (ba : BitVec 20) (s : State) :
    Host.Outcome State Fault Refusal := run (azStep e (edgeOp false e mode area ba)) s
def execAzEdgf (e : Eng) (mode : BitVec 2) (area : BitVec 4) (ba : BitVec 20) (s : State) :
    Host.Outcome State Fault Refusal := run (azStep e (edgeOp true e mode area ba)) s

/-! ## Branches and LA control (R126, R127) -/

/-- BR: push LA and EMPTY = CO. -/
def branchOpen (imm : BitVec 22) (d : Device) (_ : Nat) (x : Ctx) : Res :=
  if imm ≠ 0 then illegal d x
  else if x.lsp = 32 then .trap tLsOver noArea 0 0 d x
  else .ok d { x with ls := wd (putBit x.ls.toNat x.lsp x.la), lse := wd (putBit x.lse.toNat x.lsp x.co),
                      lsp := x.lsp + 1, co := true }

/-- The operator and negation of JOIN kind k: AND, ANDN, OR, ORN, XOR, XORN. -/
def joinOp (k : Nat) : BitOp := if k / 2 = 0 then .and else if k / 2 = 1 then .or else .xor

/-- JOIN: pop and fold the branch result. -/
def branchJoin (k : Fin 6) (imm : BitVec 22) (d : Device) (_ : Nat) (x : Ctx) : Res :=
  if imm ≠ 0 then illegal d x
  else if x.lsp = 0 then .trap tLsUnder noArea 0 0 d x
  else
    let p := x.lsp - 1
    let r := x.la != decide (k.val % 2 = 1)
    .ok d { x with lsp := p, co := false,
                   la := if x.lse.toNat.testBit p then r else (joinOp k).apply (x.ls.toNat.testBit p) r }

def execAzBr (e : Eng) (imm : BitVec 22) (s : State) : Host.Outcome State Fault Refusal :=
  run (azStep e (branchOpen imm)) s
def execAzNot (e : Eng) (imm : BitVec 22) (s : State) : Host.Outcome State Fault Refusal :=
  run (azStep e (regOp (imm == 0) (fun x => { x with la := !x.la }))) s
def execAzSetla (e : Eng) (imm : BitVec 22) (s : State) : Host.Outcome State Fault Refusal :=
  run (azStep e (regOp (imm == 0) (fun x => { x with la := true, co := false }))) s
def execAzJoin (e : Eng) (k : Fin 6) (imm : BitVec 22) (s : State) : Host.Outcome State Fault Refusal :=
  run (azStep e (branchJoin k imm)) s
def execAzClrla (e : Eng) (imm : BitVec 22) (s : State) : Host.Outcome State Fault Refusal :=
  run (azStep e (regOp (imm == 0) (fun x => { x with la := false, co := false }))) s
def execAzChain (e : Eng) (imm : BitVec 22) (s : State) : Host.Outcome State Fault Refusal :=
  run (azStep e (regOp (imm == 0) (fun x => { x with co := true }))) s

/-! ## Jumps, calls, loops (R128–R130) -/

/-- The condition of a J-format instruction (R128). -/
def condMet (x : Ctx) (k : Nat) : Bool :=
  if k = 0 then true
  else if k = 1 then x.la
  else if k = 2 then !x.la
  else if k = 3 then x.z
  else if k = 4 then !x.z
  else if k = 5 then x.n
  else if k = 6 then !x.n
  else if k = 7 then x.v
  else if k = 8 then x.c
  else if k = 9 then !x.c
  else if k = 10 then x.u
  else if k = 11 then !x.z && x.n == x.v && !x.u
  else if k = 12 then x.n == x.v && !x.u
  else if k = 13 then x.n != x.v && !x.u
  else (x.z || x.n != x.v) && !x.u

/-- A condition that tests LA sets CO. -/
def condCo (x : Ctx) (k : Nat) : Ctx := if k = 1 ∨ k = 2 then { x with co := true } else x

/-- The target index, in the bank of the PC (R129). -/
def jumpTo (x : Ctx) (target : BitVec 22) : Int := (x.pc.toNat % 32768 : Nat) + target.toInt

def jumpOp (cond : BitVec 4) (target : BitVec 22) (d : Device) (_ : Nat) (x : Ctx) : Res :=
  if cond = 15 then illegal d x
  else if condMet x cond.toNat then .goto d (condCo x cond.toNat) (x.pc.toNat / 32768) (jumpTo x target)
  else .ok d (condCo x cond.toNat)

/-- Push the return position: the bank and the next index in 15 bits (R108, log 13). -/
def Ctx.pushCall (x : Ctx) : Ctx :=
  { x with
    cs := sput (fun _ => 0) x.cs x.csp
      (BitVec.ofNat 16 (x.pc.toNat / 32768 * 32768 + (x.pc.toNat + 1) % 32768)),
    csp := x.csp + 1 }

def callOp (cond : BitVec 4) (target : BitVec 22) (d : Device) (_ : Nat) (x : Ctx) : Res :=
  if cond = 15 then illegal d x
  else if condMet x cond.toNat then
    if x.csp = 16 then .trap tCsOver noArea 0 0 d x
    else .goto d (condCo x cond.toNat).pushCall (x.pc.toNat / 32768) (jumpTo x target)
  else .ok d (condCo x cond.toNat)

/-- DECJ on X (r = 0) or Y (r = 1). -/
def decjOp (r : BitVec 4) (target : BitVec 22) (d : Device) (_ : Nat) (x : Ctx) : Res :=
  if r = 0 then
    if 1 < x.x.toInt then .goto d { x with x := x.x - 1 } (x.pc.toNat / 32768) (jumpTo x target)
    else .ok d { x with x := 0 }
  else if r = 1 then
    if 1 < x.y.toInt then .goto d { x with y := x.y - 1 } (x.pc.toNat / 32768) (jumpTo x target)
    else .ok d { x with y := 0 }
  else illegal d x

def execAzJmp (e : Eng) (cond : BitVec 4) (target : BitVec 22) (s : State) : Host.Outcome State Fault Refusal :=
  run (azStep e (jumpOp cond target)) s
def execAzCall (e : Eng) (cond : BitVec 4) (target : BitVec 22) (s : State) : Host.Outcome State Fault Refusal :=
  run (azStep e (callOp cond target)) s
def execAzDecj (e : Eng) (r : BitVec 4) (target : BitVec 22) (s : State) : Host.Outcome State Fault Refusal :=
  run (azStep e (decjOp r target)) s

/-! ## Returns and task end (R131, R132) -/

/-- A return: pop the position and continue there, in its bank. -/
def returnTo (d : Device) (x : Ctx) : Res :=
  if x.csp = 0 then .trap tCsUnder noArea 0 0 d x
  else
    let p := (sget (fun _ => 0) x.cs (x.csp - 1)).toNat
    .goto d { x with csp := x.csp - 1 } (p / 32768) (p % 32768 : Nat)

def retOp (imm : BitVec 22) (d : Device) (_ : Nat) (x : Ctx) : Res :=
  if imm ≠ 0 then illegal d x else returnTo d x

/-- RETLA: a return that is taken with LA = 1; CO is 1 after it, unless it traps. -/
def retlaOp (imm : BitVec 22) (d : Device) (_ : Nat) (x : Ctx) : Res :=
  if imm ≠ 0 then illegal d x
  else if x.la then
    (if x.csp = 0 then .trap tCsUnder noArea 0 0 d x else returnTo d { x with co := true })
  else .ok d { x with co := true }

def endOp (imm : BitVec 22) (d : Device) (_ : Nat) (x : Ctx) : Res :=
  if imm ≠ 0 then illegal d x else .fin d

def endlaOp (imm : BitVec 22) (d : Device) (_ : Nat) (x : Ctx) : Res :=
  if imm ≠ 0 then illegal d x else if x.la then .fin d else .ok d { x with co := true }

def execAzRet (e : Eng) (imm : BitVec 22) (s : State) : Host.Outcome State Fault Refusal :=
  run (azStep e (retOp imm)) s
def execAzRetla (e : Eng) (imm : BitVec 22) (s : State) : Host.Outcome State Fault Refusal :=
  run (azStep e (retlaOp imm)) s
def execAzEnd (e : Eng) (imm : BitVec 22) (s : State) : Host.Outcome State Fault Refusal :=
  run (azStep e (endOp imm)) s
def execAzEndla (e : Eng) (imm : BitVec 22) (s : State) : Host.Outcome State Fault Refusal :=
  run (azStep e (endlaOp imm)) s
def execAzNop (e : Eng) (imm : BitVec 22) (s : State) : Host.Outcome State Fault Refusal :=
  run (azStep e (regOp (imm == 0) (fun x => x))) s

/-! ## Index instructions (R133) -/

def execAzSetx (e : Eng) (imm : BitVec 22) (s : State) : Host.Outcome State Fault Refusal :=
  run (azStep e (regOp true (fun x => { x with x := imm.signExtend 32 }))) s
def execAzSety (e : Eng) (imm : BitVec 22) (s : State) : Host.Outcome State Fault Refusal :=
  run (azStep e (regOp true (fun x => { x with y := imm.signExtend 32 }))) s
def execAzAddx (e : Eng) (imm : BitVec 22) (s : State) : Host.Outcome State Fault Refusal :=
  run (azStep e (regOp true (fun x => { x with x := x.x + imm.signExtend 32 }))) s
def execAzAddy (e : Eng) (imm : BitVec 22) (s : State) : Host.Outcome State Fault Refusal :=
  run (azStep e (regOp true (fun x => { x with y := x.y + imm.signExtend 32 }))) s

end Sys2Proof.Machine
end

