-- ==== Sys2Proof/Machine/AzSys.lean ====
section
/-! DEFINITION. Timers, counters, semaphores, mailboxes, doorbells, events, time and traps of the engines
(R153–R167), and an illegal instruction (R112–R114, R136). -/

namespace Sys2Proof.Machine

/-! ## Timers (R156, R157) -/

def kTON : Nat := 1
def kTOF : Nat := 2
def kTP : Nat := 3

/-- The base of a timer in µs. -/
def baseUs (b : Nat) : Nat := if b = 0 then 1 else if b = 1 then 1000 else 100000

/-- Elapsed time in base units, at most the preset. -/
def TCell.elapsed (t : TCell) : Word := wd (min t.pt.toNat (t.acc / baseUs t.base))

/-- TON. -/
def TCell.ton (t : TCell) (inp : Bool) : TCell :=
  if inp then
    let t1 := if t.inp then t else { t with acc := 0 }
    { t1 with run := true, et := t1.elapsed, q := decide (t1.pt.toNat ≤ t1.elapsed.toNat) }
  else { t with run := false, acc := 0, et := 0, q := false }

/-- A cell that runs takes its elapsed time and ends at the preset. -/
def TCell.runOut (t : TCell) : TCell :=
  let t1 := { t with et := t.elapsed }
  if t1.pt.toNat ≤ t1.et.toNat then { t1 with q := false, run := false } else t1

/-- TOF. -/
def TCell.tof (t : TCell) (inp : Bool) : TCell :=
  if inp then { t with run := false, acc := 0, et := 0, q := true }
  else
    let t1 := if t.inp then { t with acc := 0, run := true } else t
    if t1.run then t1.runOut else t1

/-- TP, not retriggerable. -/
def TCell.tp (t : TCell) (inp : Bool) : TCell :=
  let t1 := if inp && !t.inp && !t.run then { t with acc := 0, run := true, q := true } else t
  if t1.run then t1.runOut else if inp then t1 else { t1 with et := 0 }

/-- The cell bound of TMR and CTR: "area bound" on an index of 4,096 or above. -/
def onCell (idx : BitVec 16) (legal : Bool) (k : Res) (d : Device) (x : Ctx) : Res :=
  if !legal then illegal d x
  else if 4096 ≤ idx.toNat then .trap tBound noArea idx.toNat 0 d x
  else k

/-- TON, TOF and TP on a cell: a change of kind clears it first, with event 0x091. -/
def timerOp (e : Eng) (kind : Nat) (f : TCell → Bool → TCell) (sub6 : BitVec 6) (idx : BitVec 16)
    (d : Device) (c : Nat) (x : Ctx) : Res :=
  let base := sub6.toNat / 16
  let n := idx.toNat
  let old := d.tcell n
  let other := decide (old.kind ≠ 0) && decide (old.kind ≠ kind)
  let d1 := if other then d.raiseFrom e c x.pc.toNat 0x091 [wd n, wd old.kind, wd kind, engCtx e c] else d
  let t0 := { (if other then TCell.zero else old) with kind := kind, base := base, pt := x.a }
  let t1 := { f t0 x.la with inp := x.la }
  onCell idx (decide (sub6.toNat % 16 = 0) && decide (base < 3))
    (.ok (d1.setTcell n t1) { x with la := t1.q, co := false }) d x

/-- TRST. -/
def trstOp (sub6 : BitVec 6) (idx : BitVec 16) (d : Device) (_ : Nat) (x : Ctx) : Res :=
  onCell idx (sub6 == 0)
    (.ok (if x.la then d.setTcell idx.toNat TCell.zero else d) { x with co := true }) d x

def execAzTon (e : Eng) (sub6 : BitVec 6) (idx : BitVec 16) (s : State) : Host.Outcome State Fault Refusal :=
  run (azStep e (timerOp e kTON TCell.ton sub6 idx)) s
def execAzTof (e : Eng) (sub6 : BitVec 6) (idx : BitVec 16) (s : State) : Host.Outcome State Fault Refusal :=
  run (azStep e (timerOp e kTOF TCell.tof sub6 idx)) s
def execAzTp (e : Eng) (sub6 : BitVec 6) (idx : BitVec 16) (s : State) : Host.Outcome State Fault Refusal :=
  run (azStep e (timerOp e kTP TCell.tp sub6 idx)) s
def execAzTrst (e : Eng) (sub6 : BitVec 6) (idx : BitVec 16) (s : State) : Host.Outcome State Fault Refusal :=
  run (azStep e (trstOp sub6 idx)) s

/-! ## Counters (R159) -/

/-- The outputs of a counter follow its count. -/
def CCell.outputs (c : CCell) : CCell :=
  { c with qu := decide (c.pv.toInt ≤ c.cv.toInt), qd := decide (c.cv.toInt ≤ 0) }

/-- CU: count up on a rising LA. -/
def CCell.cu (c : CCell) (pv : Word) (la : Bool) : CCell :=
  let c1 := { c with pv := pv }
  let c2 := if la && !c1.cum then
      (if c1.cv = 0x7FFFFFFF then { c1 with ovf := true } else { c1 with cv := c1.cv + 1 }) else c1
  ({ c2 with cum := la } : CCell).outputs

/-- CD: count down on a rising LA. -/
def CCell.cd (c : CCell) (pv : Word) (la : Bool) : CCell :=
  let c1 := { c with pv := pv }
  let c2 := if la && !c1.cdm then
      (if c1.cv = 0x80000000 then { c1 with ovf := true } else { c1 with cv := c1.cv - 1 }) else c1
  ({ c2 with cdm := la } : CCell).outputs

/-- CU and CD: LA takes an output. -/
def countOp (f : CCell → Word → Bool → CCell) (out : CCell → Bool) (sub6 : BitVec 6) (idx : BitVec 16)
    (d : Device) (_ : Nat) (x : Ctx) : Res :=
  let c1 := f (d.ccell idx.toNat) x.a x.la
  onCell idx (sub6 == 0) (.ok (d.setCcell idx.toNat c1) { x with la := out c1, co := false }) d x

/-- CR and CLD: with LA = 1 the count and preset are set and OVF clears. -/
def countSet (f : CCell → Word → CCell) (sub6 : BitVec 6) (idx : BitVec 16) (d : Device) (_ : Nat) (x : Ctx) : Res :=
  let c1 := ({ f (d.ccell idx.toNat) x.a with ovf := false } : CCell).outputs
  onCell idx (sub6 == 0) (.ok (if x.la then d.setCcell idx.toNat c1 else d) { x with co := true }) d x

def execAzCu (e : Eng) (sub6 : BitVec 6) (idx : BitVec 16) (s : State) : Host.Outcome State Fault Refusal :=
  run (azStep e (countOp CCell.cu CCell.qu sub6 idx)) s
def execAzCd (e : Eng) (sub6 : BitVec 6) (idx : BitVec 16) (s : State) : Host.Outcome State Fault Refusal :=
  run (azStep e (countOp CCell.cd CCell.qd sub6 idx)) s
def execAzCr (e : Eng) (sub6 : BitVec 6) (idx : BitVec 16) (s : State) : Host.Outcome State Fault Refusal :=
  run (azStep e (countSet (fun c _ => { c with cv := 0 }) sub6 idx)) s
def execAzCld (e : Eng) (sub6 : BitVec 6) (idx : BitVec 16) (s : State) : Host.Outcome State Fault Refusal :=
  run (azStep e (countSet (fun c a => { c with pv := a, cv := a }) sub6 idx)) s

/-! ## Semaphores, mailboxes, doorbells (R160–R163) -/

/-- An S-format instruction whose resource index has a bound; an index at or above it traps "area bound". -/
def onIndex (bound : Nat) (sub6 : BitVec 6) (idx : BitVec 16) (k : Device → Nat → Ctx → Res)
    (d : Device) (c : Nat) (x : Ctx) : Res :=
  if sub6 ≠ 0 then illegal d x
  else if bound ≤ idx.toNat then .trap tBound noArea idx.toNat 0 d x
  else k d c x

/-- An S-format instruction whose resource index must be 0 (R113). -/
def onZero (sub6 : BitVec 6) (idx : BitVec 16) (k : Device → Nat → Ctx → Res)
    (d : Device) (c : Nat) (x : Ctx) : Res :=
  if sub6 ≠ 0 ∨ idx ≠ 0 then illegal d x else k d c x

/-- LA set directly, CO = 0. -/
def Ctx.box (x : Ctx) (la : Bool) : Ctx := { x with la := la, co := false }

/-- SEM TRY; `rivals` are the other requesters that try in the same fabric cycle (R520). -/
def semTryOp (e : Eng) (sub6 : BitVec 6) (idx : BitVec 16) (rivals : List Nat) : Device → Nat → Ctx → Res :=
  onIndex 64 sub6 idx (fun d c x =>
    let d1 := d.semTry idx.toNat e (ownerEng e c) rivals
    .ok d1 (x.box (d1.semOwner idx.toNat == ownerEng e c)))

def semRelOp (e : Eng) (sub6 : BitVec 6) (idx : BitVec 16) : Device → Nat → Ctx → Res :=
  onIndex 64 sub6 idx (fun d c x =>
    if d.semOwner idx.toNat = ownerEng e c then .ok (d.semFree idx.toNat) (x.box true) else .ok d (x.box false))

def semOwnOp (e : Eng) (sub6 : BitVec 6) (idx : BitVec 16) : Device → Nat → Ctx → Res :=
  onIndex 64 sub6 idx (fun d c x => .ok d (x.box (d.semOwner idx.toNat == ownerEng e c)))

def mbxSendOp (e : Eng) (sub6 : BitVec 6) (idx : BitVec 16) : Device → Nat → Ctx → Res :=
  onIndex 25 sub6 idx (fun d _ x =>
    let r := d.mbSend e idx.toNat x.a x.b
    .ok r.2 (x.box r.1))

def mbxRecvOp (e : Eng) (sub6 : BitVec 6) (idx : BitVec 16) : Device → Nat → Ctx → Res :=
  onZero sub6 idx (fun d _ x =>
    if d.bit (Reg.MB_EP_W2_VALID e) then
      .ok d ({ x with a := d.rd (Reg.MB_EP_W0 e), b := d.rd (Reg.MB_EP_W1 e) }.box true)
    else .ok d ({ x with a := 0, b := 0 }.box false))

/-- MBX ACK: 0xFFFF is delivered as 0xFFFE with event 0x3D3 (R513). -/
def mbxAckOp (e : Eng) (sub6 : BitVec 6) (idx : BitVec 16) : Device → Nat → Ctx → Res :=
  onZero sub6 idx (fun d _ x =>
    let code := x.a.toNat % 65536
    let d1 := if code = 0xFFFF ∧ d.bit (Reg.MB_EP_W2_VALID e) then
        d.raise 0x3D3 [wd e, wd (d.fld (Reg.MB_EP_W2_SENDER e))] else d
    let r := d1.mbAck e (if code = 0xFFFF then 0xFFFE else code)
    .ok r.2 (x.box r.1))

def mbxStatOp (e : Eng) (sub6 : BitVec 6) (idx : BitVec 16) : Device → Nat → Ctx → Res :=
  onZero sub6 idx (fun d _ x =>
    .ok d ((x.push (wd (d.fld (Reg.MB_EP_W3_CODE e)))).box (decide (2 ≤ d.fld (Reg.MB_EP_W3_OUT_STATE e)))))

def dblRingOp (sub6 : BitVec 6) (idx : BitVec 16) : Device → Nat → Ctx → Res :=
  onIndex 25 sub6 idx (fun d _ x => .ok (d.doorbell idx.toNat x.a) x)

/-- DBL TAKE: the pending unmasked bits are loaded and cleared in one operation. -/
def dblTakeOp (e : Eng) (sub6 : BitVec 6) (idx : BitVec 16) : Device → Nat → Ctx → Res :=
  onZero sub6 idx (fun d _ x =>
    let pend := d.rd (Reg.MB_EP_W4 e)
    let take := pend &&& ~~~ d.rd (Reg.MB_EP_W6 e)
    .ok (d.wr (Reg.MB_EP_W4 e) (pend &&& ~~~ take)) ((x.push take).box (take != 0)))

def execAzSemTry (e : Eng) (sub6 : BitVec 6) (idx : BitVec 16) (rivals : List Nat) (s : State) :
    Host.Outcome State Fault Refusal := run (azStep e (semTryOp e sub6 idx rivals)) s
def execAzSemRel (e : Eng) (sub6 : BitVec 6) (idx : BitVec 16) (s : State) : Host.Outcome State Fault Refusal :=
  run (azStep e (semRelOp e sub6 idx)) s
def execAzSemOwn (e : Eng) (sub6 : BitVec 6) (idx : BitVec 16) (s : State) : Host.Outcome State Fault Refusal :=
  run (azStep e (semOwnOp e sub6 idx)) s
def execAzMbxSend (e : Eng) (sub6 : BitVec 6) (idx : BitVec 16) (s : State) : Host.Outcome State Fault Refusal :=
  run (azStep e (mbxSendOp e sub6 idx)) s
def execAzMbxRecv (e : Eng) (sub6 : BitVec 6) (idx : BitVec 16) (s : State) : Host.Outcome State Fault Refusal :=
  run (azStep e (mbxRecvOp e sub6 idx)) s
def execAzMbxAck (e : Eng) (sub6 : BitVec 6) (idx : BitVec 16) (s : State) : Host.Outcome State Fault Refusal :=
  run (azStep e (mbxAckOp e sub6 idx)) s
def execAzMbxStat (e : Eng) (sub6 : BitVec 6) (idx : BitVec 16) (s : State) : Host.Outcome State Fault Refusal :=
  run (azStep e (mbxStatOp e sub6 idx)) s
def execAzDblRing (e : Eng) (sub6 : BitVec 6) (idx : BitVec 16) (s : State) : Host.Outcome State Fault Refusal :=
  run (azStep e (dblRingOp sub6 idx)) s
def execAzDblTake (e : Eng) (sub6 : BitVec 6) (idx : BitVec 16) (s : State) : Host.Outcome State Fault Refusal :=
  run (azStep e (dblTakeOp e sub6 idx)) s

/-! ## Events, time and traps (R164–R167) -/

/-- EVW: sub 0 none, 1 A, 2 A and B, 3 A, B, X and Y. -/
def evwOp (e : Eng) (sub : BitVec 4) (sub6 : BitVec 6) (idx : BitVec 16) (d : Device) (c : Nat) (x : Ctx) : Res :=
  if 4 ≤ sub.toNat then illegal d x
  else
    onIndex 1024 sub6 idx (fun d c x =>
      let ws := if sub = 0 then [] else if sub = 1 then [x.a] else if sub = 2 then [x.a, x.b] else [x.a, x.b, x.x, x.y]
      .ok (d.raiseFrom e c x.pc.toNat (0x400 + idx.toNat) ws) x) d c x

def ticktOp (sub6 : BitVec 6) (idx : BitVec 16) : Device → Nat → Ctx → Res :=
  onZero sub6 idx (fun d _ x =>
    .ok d { x with a := wd d.tick.tickT, b := wd (d.tick.tickT / 2 ^ 32) })

def nowOp (sub6 : BitVec 6) (idx : BitVec 16) : Device → Nat → Ctx → Res :=
  onZero sub6 idx (fun d _ x => .ok d { x with a := wd d.ts64, b := wd (d.ts64 / 2 ^ 32) })

def tickusOp (sub6 : BitVec 6) (idx : BitVec 16) : Device → Nat → Ctx → Res :=
  onZero sub6 idx (fun d _ x => .ok d (x.push (wd d.tick.tickUs)))

def trapOp (sub6 : BitVec 6) (idx : BitVec 16) (d : Device) (_ : Nat) (x : Ctx) : Res :=
  if sub6 ≠ 0 then illegal d x else .trap tProgram noArea idx.toNat idx.toNat d x

def tinfoOp (e : Eng) (sub6 : BitVec 6) (idx : BitVec 16) : Device → Nat → Ctx → Res :=
  onZero sub6 idx (fun d _ x => .ok d { x with a := d.rd (Reg.CE_TRAP_0 e), b := d.rd (Reg.CE_TRAP_1 e) })

def execAzEvw (e : Eng) (sub : BitVec 4) (sub6 : BitVec 6) (idx : BitVec 16) (s : State) :
    Host.Outcome State Fault Refusal := run (azStep e (evwOp e sub sub6 idx)) s
def execAzTickt (e : Eng) (sub6 : BitVec 6) (idx : BitVec 16) (s : State) : Host.Outcome State Fault Refusal :=
  run (azStep e (ticktOp sub6 idx)) s
def execAzNow (e : Eng) (sub6 : BitVec 6) (idx : BitVec 16) (s : State) : Host.Outcome State Fault Refusal :=
  run (azStep e (nowOp sub6 idx)) s
def execAzTickus (e : Eng) (sub6 : BitVec 6) (idx : BitVec 16) (s : State) : Host.Outcome State Fault Refusal :=
  run (azStep e (tickusOp sub6 idx)) s
def execAzTrap (e : Eng) (sub6 : BitVec 6) (idx : BitVec 16) (s : State) : Host.Outcome State Fault Refusal :=
  run (azStep e (trapOp sub6 idx)) s
def execAzTinfo (e : Eng) (sub6 : BitVec 6) (idx : BitVec 16) (s : State) : Host.Outcome State Fault Refusal :=
  run (azStep e (tinfoOp e sub6 idx)) s

/-! ## Illegal instructions (R112–R114, R136) -/

/-- The immediate of a K-format word is one that its sub-operation allows. -/
def kLegal (op sub imm : Nat) : Bool :=
  if op = 0x10 then imm = 0 && (sub = 0 || decide (6 ≤ sub))
  else if op = 0x1B then imm = 0 && decide (sub ≤ 4)
  else if op = 0x1C then decide (sub ≤ 3)
  else if op = 0x28 then decide (sub ≤ 3) && (sub ≠ 1 || decide (imm < 2 ^ 16))
  else if op = 0x29 then imm = 0 && decide (sub ≤ 8)
  else if op = 0x2A then imm = 0 && decide (sub ≤ 12)
  else if op = 0x2B then imm = 0 && decide (sub ≤ 6)
  else if op = 0x2C then imm = 0
  else if op = 0x2D then decide (sub ≤ 4) && shfImm imm
  else if op = 0x2E then imm = 0 && decide (sub ≤ 8)
  else op = 0x2F && imm = 0 && decide (sub ≤ 2)
where
  /-- The immediate of SHF (R149). -/
  shfImm (imm : Nat) : Bool := decide (imm < 64) && (!imm.testBit 5 || decide (imm % 32 = 0))

/-- The fields of an S-format word are ones that its sub-operation allows. -/
def sLegal (op sub sub6 idx : Nat) : Bool :=
  if op = 0x30 then
    decide (sub ≤ 3) && sub6 % 16 = 0 && decide (sub6 / 16 < 3) && (sub ≠ 3 || sub6 = 0)
  else if op = 0x31 then decide (sub ≤ 3) && sub6 = 0
  else if op = 0x32 then decide (sub ≤ 2) && sub6 = 0
  else if op = 0x33 then decide (sub ≤ 3) && sub6 = 0 && (sub = 0 || idx = 0)
  else if op = 0x34 then decide (sub ≤ 1) && sub6 = 0 && (sub = 0 || idx = 0)
  else if op = 0x35 then decide (sub ≤ 3) && sub6 = 0
  else if op = 0x36 then decide (sub ≤ 2) && sub6 = 0 && idx = 0
  else op = 0x37 && decide (sub ≤ 1) && sub6 = 0 && (sub = 0 || idx = 0)

/-- A program word is one that the chapters assign a meaning. -/
def wordLegal (w : Nat) : Bool :=
  let op := w / 2 ^ 26
  let sub := w / 2 ^ 22 % 16
  let mode := w / 2 ^ 24 % 4
  let ar := w / 2 ^ 20 % 16
  let width := w / 2 ^ 18 % 4
  if 1 ≤ op ∧ op ≤ 12 then !badArea mode ar
  else if op = 0x18 ∨ op = 0x19 then sub ≠ 15
  else if op = 0x1A then decide (sub ≤ 1)
  else if op = 0x20 ∨ op = 0x21 then !badArea mode ar
  else if op = 0x22 ∨ op = 0x23 then !badArea mode ar && width ≠ 3
  else if op = 0x24 then !badArea mode ar && width = 0
  else if op = 0x25 then !badArea mode ar && decide (2 ≤ width)
  else if op = 0x26 then !badArea mode ar && width = 3
  else if op = 0x10 ∨ op = 0x1B ∨ op = 0x1C ∨ (0x28 ≤ op ∧ op ≤ 0x2F) then kLegal op sub (w % 2 ^ 22)
  else 0x30 ≤ op && op ≤ 0x37 && sLegal op sub (w / 2 ^ 16 % 64) (w % 2 ^ 16)

/-- The engine fetches a word that no chapter assigns; a word that has a meaning is no illegal instruction. -/
def execIllegalInstruction (e : Eng) (w : Word) (s : State) : Host.Outcome State Fault Refusal :=
  run (fun d => if wordLegal w.toNat then d else azStep e (fun d _ x => illegal d x) d) s

end Sys2Proof.Machine
end

