-- ==== Sys2Proof/Machine/Float.lean ====
section
/-! DEFINITION. IEEE 754 binary32 arithmetic with round to nearest, ties to even (R145): operands become exact
integers times powers of two, the result is computed exactly (or with a sticky remainder) and rounded once. -/

namespace Sys2Proof.Machine

/-- The number of bits of n, n below 2^fuel. -/
def bitLen : Nat → Nat → Nat
  | 0, _ => 0
  | f + 1, n => if n = 0 then 0 else 1 + bitLen f (n / 2)

def fExp (w : Word) : Nat := w.toNat / 2 ^ 23 % 256
def fFrac (w : Word) : Nat := w.toNat % 2 ^ 23
def fNeg (w : Word) : Bool := w.msb
def fIsNaN (w : Word) : Bool := decide (fExp w = 255) && decide (fFrac w ≠ 0)
def fIsInf (w : Word) : Bool := decide (fExp w = 255) && decide (fFrac w = 0)
def fFinite (w : Word) : Bool := decide (fExp w ≠ 255)
def fIsZero (w : Word) : Bool := decide (fExp w = 0) && decide (fFrac w = 0)

/-- A finite float is fMant × 2^fPow, its sign aside. -/
def fMant (w : Word) : Nat := if fExp w = 0 then fFrac w else fFrac w + 2 ^ 23
def fPow (w : Word) : Int := if fExp w = 0 then -149 else (fExp w : Int) - 150

def fPack (neg : Bool) (ex frac : Nat) : Word :=
  BitVec.ofNat 32 ((if neg then 2 ^ 31 else 0) + ex * 2 ^ 23 + frac)

def fInf (neg : Bool) : Word := fPack neg 255 0
def fZero (neg : Bool) : Word := fPack neg 0 0

/-- Encode q × 2^e with q below 2^24, and at least 2^23 unless e = −149. -/
def fEncode (neg : Bool) (q : Nat) (e : Int) : Word :=
  if q < 2 ^ 23 then fPack neg 0 q
  else if 255 ≤ e + 150 then fInf neg
  else fPack neg (e + 150).toNat (q - 2 ^ 23)

/-- Round m × 2^e, plus a positive amount below one unit of m when sticky. -/
def fRound (neg : Bool) (m : Nat) (e : Int) (sticky : Bool) : Word :=
  if m = 0 then fZero neg
  else
    let t := max ((bitLen 700 m : Int) + e - 24) (-149)
    if t ≤ e then fEncode neg (m * 2 ^ (e - t).toNat) t
    else
      let s := (t - e).toNat
      let q := m / 2 ^ s
      let r := m % 2 ^ s
      let half := 2 ^ (s - 1)
      let up := decide (half < r) || (decide (r = half) && (sticky || q % 2 == 1))
      let q1 := if up then q + 1 else q
      if q1 = 2 ^ 24 then fEncode neg (2 ^ 23) (t + 1) else fEncode neg q1 t

/-- A finite float as a signed multiple of 2^e, e at most its own power. -/
def fAt (w : Word) (e : Int) : Int :=
  let v : Int := (fMant w * 2 ^ (fPow w - e).toNat : Nat)
  if fNeg w then -v else v

/-- p + q; none where the sum is invalid (R147). -/
def fAdd (p q : Word) : Option Word :=
  if fIsNaN p || fIsNaN q then none
  else if fIsInf p then (if fIsInf q && (fNeg p != fNeg q) then none else some p)
  else if fIsInf q then some q
  else
    let e := min (fPow p) (fPow q)
    let s := fAt p e + fAt q e
    if s = 0 then some (fZero (fNeg p && fNeg q))
    else some (fRound (decide (s < 0)) s.natAbs e false)

/-- The float with its sign inverted. -/
def fNegate (w : Word) : Word := w ^^^ 0x80000000

def fSub (p q : Word) : Option Word := if fIsNaN q then none else fAdd p (fNegate q)

def fMul (p q : Word) : Option Word :=
  let neg := fNeg p != fNeg q
  if fIsNaN p || fIsNaN q then none
  else if fIsInf p || fIsInf q then (if fIsZero p || fIsZero q then none else some (fInf neg))
  else some (fRound neg (fMant p * fMant q) (fPow p + fPow q) false)

/-- p / q. -/
def fDiv (p q : Word) : Option Word :=
  let neg := fNeg p != fNeg q
  if fIsNaN p || fIsNaN q then none
  else if fIsInf p then (if fIsInf q then none else some (fInf neg))
  else if fIsInf q then some (fZero neg)
  else if fIsZero q then (if fIsZero p then none else some (fInf neg))
  else
    let n := fMant p * 2 ^ 64
    some (fRound neg (n / fMant q) (fPow p - fPow q - 64) (decide (n % fMant q ≠ 0)))

/-- The integer square root, built from bit b down. -/
def isqrtFrom : Nat → Nat → Nat → Nat
  | 0, _, r => r
  | b + 1, n, r => isqrtFrom b n (if (r + 2 ^ b) * (r + 2 ^ b) ≤ n then r + 2 ^ b else r)

/-- The square root: −0 gives −0, a value below −0 is invalid. -/
def fSqrt (p : Word) : Option Word :=
  if fIsNaN p then none
  else if fIsZero p then some p
  else if fNeg p then none
  else if fIsInf p then some p
  else
    let odd : Nat := if fPow p % 2 = 0 then 0 else 1
    let n := fMant p * 2 ^ (60 + odd)
    let r := isqrtFrom 44 n 0
    some (fRound false r ((fPow p - odd - 60) / 2) (decide (r * r ≠ n)))

/-- A signed integer as a float (R150). -/
def fOfInt (i : Int) : Word := fRound (decide (i < 0)) i.natAbs 0 false

/-- The order of two floats, NaN aside: +0 equals −0. -/
def fKey (w : Word) : Int :=
  let m : Int := (w.toNat % 2 ^ 31 : Nat)
  if fNeg w then -m else m

def fEq (p q : Word) : Bool := !fIsNaN p && !fIsNaN q && decide (fKey p = fKey q)
def fLt (p q : Word) : Bool := !fIsNaN p && !fIsNaN q && decide (fKey p < fKey q)

/-- A finite float to an integer, toward zero, or to nearest with ties to even. -/
def fToInt (w : Word) (nearest : Bool) : Int :=
  let m := fMant w
  let v : Nat :=
    if 0 ≤ fPow w then m * 2 ^ (fPow w).toNat
    else
      let s := (-fPow w).toNat
      let q := m / 2 ^ s
      let r := m % 2 ^ s
      if nearest && (decide (2 ^ s < 2 * r) || (decide (2 * r = 2 ^ s) && q % 2 == 1)) then q + 1 else q
  if fNeg w then -(v : Int) else v

end Sys2Proof.Machine
end

