-- ==== Sys2Proof/Machine/AzWord.lean ====
section
/-! DEFINITION. Loads, stores, moves, arithmetic, compare, shift, conversion, limit and scale instructions
(R134–R152). -/

namespace Sys2Proof.Machine

/-! ## Loads and stores (R134–R137) -/

/-- The target of a word instruction; `legal` holds what R113, R137, R151 and R152 ask of its width. -/
def onWord (e : Eng) (mode : BitVec 2) (area : BitVec 4) (legal : Bool) (w n : Nat) (off : BitVec 18)
    (k : Device → Nat → Nat → Res) (d : Device) (c : Nat) (x : Ctx) : Res :=
  if badArea mode.toNat area.toNat || !legal then illegal d x
  else
    match wordPlace d e c x mode.toNat area.toNat off.toNat w n with
    | .bad t a p d1 => placeTrap x t a p d1
    | .at d1 ar p => k d1 ar p

/-- A load of w bytes that changes registers. -/
def loadOp (e : Eng) (mode : BitVec 2) (area : BitVec 4) (legal : Bool) (w : Nat) (off : BitVec 18)
    (g : Word → Ctx → Ctx) (d : Device) (c : Nat) (x : Ctx) : Res :=
  onWord e mode area legal w w off (fun d1 ar p =>
    match d1.areaRead e c ar p w with
    | (some v, d2) => .ok d2 (g (wd v) x)
    | (none, d2) => placeTrap x tEcc ar p d2) d c x

/-- ST. -/
def storeWord (e : Eng) (mode : BitVec 2) (area : BitVec 4) (w : Nat) (off : BitVec 18)
    (d : Device) (c : Nat) (x : Ctx) : Res :=
  onWord e mode area true w w off (fun d1 ar p =>
    if ar = areaT ∨ ar = areaC then placeTrap x tBound ar p d1
    else if ar = areaI then placeTrap x tWriteI ar p d1
    else
      match d1.areaWrite e c ar p w x.a.toNat with
      | (true, d2) => .ok d2 x
      | (false, d2) => placeTrap x tEcc ar p d2) d c x

def execAzLd (e : Eng) (mode : BitVec 2) (area : BitVec 4) (width : BitVec 2) (off : BitVec 18) (s : State) :
    Host.Outcome State Fault Refusal :=
  run (azStep e (loadOp e mode area true (widthOf width.toNat) off (fun v x => x.push v))) s
def execAzSt (e : Eng) (mode : BitVec 2) (area : BitVec 4) (width : BitVec 2) (off : BitVec 18) (s : State) :
    Host.Outcome State Fault Refusal :=
  run (azStep e (storeWord e mode area (widthOf width.toNat) off)) s
def execAzLdx (e : Eng) (mode : BitVec 2) (area : BitVec 4) (width : BitVec 2) (off : BitVec 18) (s : State) :
    Host.Outcome State Fault Refusal :=
  run (azStep e (loadOp e mode area (width != 3) (widthOf width.toNat) off (fun v x => { x with x := v }))) s
def execAzLdy (e : Eng) (mode : BitVec 2) (area : BitVec 4) (width : BitVec 2) (off : BitVec 18) (s : State) :
    Host.Outcome State Fault Refusal :=
  run (azStep e (loadOp e mode area (width != 3) (widthOf width.toNat) off (fun v x => { x with y := v }))) s
/-- LEA: the pointer word of the formed address. -/
def leaOp (e : Eng) (mode : BitVec 2) (area : BitVec 4) (width : BitVec 2) (off : BitVec 18)
    (d : Device) (c : Nat) (x : Ctx) : Res :=
  onWord e mode area (width == 0) 1 1 off (fun d1 ar p => .ok d1 (x.push (wd (ar * 2 ^ 28 + p * 8)))) d c x

def execAzLea (e : Eng) (mode : BitVec 2) (area : BitVec 4) (width : BitVec 2) (off : BitVec 18) (s : State) :
    Host.Outcome State Fault Refusal := run (azStep e (leaOp e mode area width off)) s

/-! ## Constants and moves (R138, R139) -/

def execAzLit (e : Eng) (imm : BitVec 22) (s : State) : Host.Outcome State Fault Refusal :=
  run (azStep e (regOp true (fun x => x.push (imm.signExtend 32)))) s
def execAzLith (e : Eng) (imm : BitVec 22) (s : State) : Host.Outcome State Fault Refusal :=
  run (azStep e (regOp (decide (imm.toNat < 2 ^ 16))
    (fun x => { x with a := wd (imm.toNat * 65536 + x.a.toNat % 65536) }))) s
def execAzAddk (e : Eng) (imm : BitVec 22) (s : State) : Host.Outcome State Fault Refusal :=
  run (azStep e (regOp true (fun x =>
    let k := imm.signExtend 32
    x.result (k + x.a) (addV k x.a) (addC k x.a) false))) s
def execAzLitf (e : Eng) (imm : BitVec 22) (s : State) : Host.Outcome State Fault Refusal :=
  run (azStep e (regOp true (fun x => x.push (wd (imm.toNat * 1024))))) s

def execAzSwap (e : Eng) (imm : BitVec 22) (s : State) : Host.Outcome State Fault Refusal :=
  run (azStep e (regOp (imm == 0) (fun x => { x with a := x.b, b := x.a }))) s
def execAzPop (e : Eng) (imm : BitVec 22) (s : State) : Host.Outcome State Fault Refusal :=
  run (azStep e (regOp (imm == 0) (fun x => { x with a := x.b }))) s
def execAzPush (e : Eng) (imm : BitVec 22) (s : State) : Host.Outcome State Fault Refusal :=
  run (azStep e (regOp (imm == 0) (fun x => { x with b := x.a }))) s
def execAzTax (e : Eng) (imm : BitVec 22) (s : State) : Host.Outcome State Fault Refusal :=
  run (azStep e (regOp (imm == 0) (fun x => { x with x := x.a }))) s
def execAzTay (e : Eng) (imm : BitVec 22) (s : State) : Host.Outcome State Fault Refusal :=
  run (azStep e (regOp (imm == 0) (fun x => { x with y := x.a }))) s
def execAzTxa (e : Eng) (imm : BitVec 22) (s : State) : Host.Outcome State Fault Refusal :=
  run (azStep e (regOp (imm == 0) (fun x => x.push x.x))) s
def execAzTya (e : Eng) (imm : BitVec 22) (s : State) : Host.Outcome State Fault Refusal :=
  run (azStep e (regOp (imm == 0) (fun x => x.push x.y))) s
def execAzLaa (e : Eng) (imm : BitVec 22) (s : State) : Host.Outcome State Fault Refusal :=
  run (azStep e (regOp (imm == 0) (fun x => x.push (if x.la then 1 else 0)))) s
def execAzAla (e : Eng) (imm : BitVec 22) (s : State) : Host.Outcome State Fault Refusal :=
  run (azStep e (regOp (imm == 0) (fun x => x.combine .and (x.a != 0)))) s

/-! ## Block move (R140, R141) -/

/-- The check of the whole remaining range, in the order of R119. -/
def bmovCheck (d : Device) (x : Ctx) (w : Nat) : Option (Nat × Nat × Nat) :=
  let sa := x.a.toNat / 2 ^ 28
  let sb := x.a.toNat % 2 ^ 28
  let da := x.b.toNat / 2 ^ 28
  let db := x.b.toNat % 2 ^ 28
  let n := x.x.toNat * w
  if sb % (8 * w) ≠ 0 then some (tMisalign, sa, sb / 8)
  else if db % (8 * w) ≠ 0 then some (tMisalign, da, db / 8)
  else if 12 ≤ sa ∨ d.areaSize sa < sb / 8 + n then some (tBound, sa, sb / 8)
  else if 12 ≤ da ∨ da = areaT ∨ da = areaC ∨ d.areaSize da < db / 8 + n then some (tBound, da, db / 8)
  else if da = areaI then some (tWriteI, da, db / 8)
  else none

/-- Copy n more elements of the X that remain; `k` have been copied. -/
def bmovCopy (e c w : Nat) : Nat → Nat → Device → Ctx → Res
  | 0, k, d, x => .moved d x k (x.x == 0)
  | n + 1, k, d, x =>
    if x.x = 0 then .moved d x k true
    else
      let sa := x.a.toNat / 2 ^ 28
      let sp := x.a.toNat % 2 ^ 28 / 8
      let da := x.b.toNat / 2 ^ 28
      let dp := x.b.toNat % 2 ^ 28 / 8
      match d.areaRead e c sa sp w with
      | (none, d1) => .trap tEcc sa sp 0 (d1.retire e k) x
      | (some v, d1) =>
        match d1.areaWrite e c da dp w v with
        | (false, d2) => .trap tEcc da dp 0 (d2.retire e k) x
        | (true, d2) =>
          bmovCopy e c w n (k + 1) d2
            { x with a := x.a + wd (8 * w), b := x.b + wd (8 * w), x := x.x - 1 }

/-- BMOV; `elems` is the number of elements after which a preemption takes place (R141). -/
def bmovOp (e : Eng) (sub : BitVec 4) (imm : BitVec 22) (elems : Nat) (d : Device) (c : Nat) (x : Ctx) : Res :=
  if imm ≠ 0 ∨ 3 ≤ sub.toNat then illegal d x
  else if x.x = 0 then .ok d x
  else
    let w := widthOf sub.toNat
    match bmovCheck d x w with
    | some (t, ar, p) => .trap t ar p 0 d x
    | none => bmovCopy e c w (min elems x.x.toNat) 0 d x

def execAzBmov (e : Eng) (sub : BitVec 4) (imm : BitVec 22) (elems : Nat) (s : State) :
    Host.Outcome State Fault Refusal := run (azStep e (bmovOp e sub imm elems)) s

/-! ## Integer arithmetic (R142–R144) -/

def execAzAdd (e : Eng) (imm : BitVec 22) (s : State) : Host.Outcome State Fault Refusal :=
  run (azStep e (regOp (imm == 0) (fun x => x.result (x.b + x.a) (addV x.b x.a) (addC x.b x.a) false))) s
def execAzSub (e : Eng) (imm : BitVec 22) (s : State) : Host.Outcome State Fault Refusal :=
  run (azStep e (regOp (imm == 0) (fun x => x.result (x.b - x.a) (subV x.b x.a) (subC x.b x.a) false))) s
def execAzMul (e : Eng) (imm : BitVec 22) (s : State) : Host.Outcome State Fault Refusal :=
  run (azStep e (regOp (imm == 0) (fun x =>
    x.result (x.b * x.a) (x.b.toInt * x.a.toInt ≠ (x.b * x.a).toInt) false false))) s

/-- DIV, MOD, DIVU, MODU: the quotient or remainder, or with A = 0 the saturated result or the trap (R144). -/
def divOp (e : Eng) (imm : BitVec 22) (sat : Word → Word) (f : Word → Word → Word × Bool)
    (d : Device) (c : Nat) (x : Ctx) : Res :=
  if imm ≠ 0 then illegal d x
  else if x.a = 0 then
    if d.bit (Reg.TASK_CFG_DIV0_SAT e c) then .ok d (x.result (sat x.b) true false false)
    else .trap tDiv0 noArea 0 0 d x
  else .ok d (x.result (f x.b x.a).1 (f x.b x.a).2 false false)

/-- Signed quotient, truncated; the smallest number by −1 saturates. -/
def divS (b a : Word) : Word × Bool :=
  if b = 0x80000000 ∧ a = 0xFFFFFFFF then (0x7FFFFFFF, true) else (wdi (b.toInt.tdiv a.toInt), false)

def execAzDiv (e : Eng) (imm : BitVec 22) (s : State) : Host.Outcome State Fault Refusal :=
  run (azStep e (divOp e imm (fun b => if b.msb then 0x80000000 else 0x7FFFFFFF) divS)) s
def execAzMod (e : Eng) (imm : BitVec 22) (s : State) : Host.Outcome State Fault Refusal :=
  run (azStep e (divOp e imm (fun b => b) (fun b a => (wdi (b.toInt.tmod a.toInt), false)))) s
def execAzDivu (e : Eng) (imm : BitVec 22) (s : State) : Host.Outcome State Fault Refusal :=
  run (azStep e (divOp e imm (fun _ => 0xFFFFFFFF) (fun b a => (wd (b.toNat / a.toNat), false)))) s
def execAzModu (e : Eng) (imm : BitVec 22) (s : State) : Host.Outcome State Fault Refusal :=
  run (azStep e (divOp e imm (fun b => b) (fun b a => (wd (b.toNat % a.toNat), false)))) s

def execAzIntAnd (e : Eng) (imm : BitVec 22) (s : State) : Host.Outcome State Fault Refusal :=
  run (azStep e (regOp (imm == 0) (fun x => x.result (x.b &&& x.a) false false false))) s
def execAzIntOr (e : Eng) (imm : BitVec 22) (s : State) : Host.Outcome State Fault Refusal :=
  run (azStep e (regOp (imm == 0) (fun x => x.result (x.b ||| x.a) false false false))) s
def execAzIntXor (e : Eng) (imm : BitVec 22) (s : State) : Host.Outcome State Fault Refusal :=
  run (azStep e (regOp (imm == 0) (fun x => x.result (x.b ^^^ x.a) false false false))) s
def execAzNeg (e : Eng) (imm : BitVec 22) (s : State) : Host.Outcome State Fault Refusal :=
  run (azStep e (regOp (imm == 0) (fun x => x.result (-x.a) (x.a == 0x80000000) false false))) s
def execAzAbs (e : Eng) (imm : BitVec 22) (s : State) : Host.Outcome State Fault Refusal :=
  run (azStep e (regOp (imm == 0) (fun x =>
    x.result (if x.a.msb then -x.a else x.a) (x.a == 0x80000000) false false))) s
def execAzInv (e : Eng) (imm : BitVec 22) (s : State) : Host.Outcome State Fault Refusal :=
  run (azStep e (regOp (imm == 0) (fun x => x.result (~~~x.a) false false false))) s

/-! ## Floating point (R145–R147) -/

/-- The flags of a float result: V for an infinity out of finite operands, U for a NaN (R142). -/
def Ctx.fresult (x : Ctx) (r : Word) (finite : Bool) : Ctx :=
  { x with a := r, z := fIsZero r, n := r.msb && !fIsNaN r, v := fIsInf r && finite, c := false, u := fIsNaN r }

/-- A float operation on B and A; an invalid one traps. -/
def floatOp (imm : BitVec 22) (f : Word → Word → Option Word) (d : Device) (_ : Nat) (x : Ctx) : Res :=
  if imm ≠ 0 then illegal d x
  else
    match f x.b x.a with
    | some r => .ok d (x.fresult r (fFinite x.b && fFinite x.a))
    | none => .trap tFloat noArea 0 0 d x

/-- A float operation on A alone. -/
def floatOp1 (imm : BitVec 22) (f : Word → Option Word) (d : Device) (_ : Nat) (x : Ctx) : Res :=
  if imm ≠ 0 then illegal d x
  else
    match f x.a with
    | some r => .ok d (x.fresult r (fFinite x.a))
    | none => .trap tFloat noArea 0 0 d x

def execAzAddf (e : Eng) (imm : BitVec 22) (s : State) : Host.Outcome State Fault Refusal :=
  run (azStep e (floatOp imm fAdd)) s
def execAzSubf (e : Eng) (imm : BitVec 22) (s : State) : Host.Outcome State Fault Refusal :=
  run (azStep e (floatOp imm fSub)) s
def execAzMulf (e : Eng) (imm : BitVec 22) (s : State) : Host.Outcome State Fault Refusal :=
  run (azStep e (floatOp imm fMul)) s
def execAzDivf (e : Eng) (imm : BitVec 22) (s : State) : Host.Outcome State Fault Refusal :=
  run (azStep e (floatOp imm fDiv)) s
def execAzNegf (e : Eng) (imm : BitVec 22) (s : State) : Host.Outcome State Fault Refusal :=
  run (azStep e (floatOp1 imm (fun a => some (fNegate a)))) s
def execAzAbsf (e : Eng) (imm : BitVec 22) (s : State) : Host.Outcome State Fault Refusal :=
  run (azStep e (floatOp1 imm (fun a => some (a &&& 0x7FFFFFFF)))) s
def execAzSqrtf (e : Eng) (imm : BitVec 22) (s : State) : Host.Outcome State Fault Refusal :=
  run (azStep e (floatOp1 imm fSqrt)) s

/-! ## Compare (R148) -/

/-- The relation of a CMP sub-operation. -/
def cmpRel (k : Nat) (b a : Word) : Bool :=
  if k = 0 then b == a
  else if k = 1 then b != a
  else if k = 2 then decide (a.toInt < b.toInt)
  else if k = 3 then decide (a.toInt ≤ b.toInt)
  else if k = 4 then decide (b.toInt < a.toInt)
  else if k = 5 then decide (b.toInt ≤ a.toInt)
  else if k = 6 then fEq b a
  else if k = 7 then !fEq b a
  else if k = 8 then fLt a b
  else if k = 9 then fLt a b || fEq b a
  else if k = 10 then fLt b a
  else if k = 11 then fLt b a || fEq b a
  else if k = 12 then decide (a.toNat < b.toNat)
  else if k = 13 then decide (a.toNat ≤ b.toNat)
  else if k = 14 then decide (b.toNat < a.toNat)
  else decide (b.toNat ≤ a.toNat)

/-- CMP: flags of a difference or of a float compare; the relation joins the chain as an AND. -/
def cmpCtx (k : Nat) (x : Ctx) : Ctx :=
  let x1 :=
    if 6 ≤ k ∧ k ≤ 11 then
      { x with z := fEq x.b x.a, n := fLt x.b x.a, v := false, c := false, u := fIsNaN x.b || fIsNaN x.a }
    else x.flags (x.b - x.a) (subV x.b x.a) (subC x.b x.a) false
  x1.combine .and (cmpRel k x.b x.a)

def execAzCmp (e : Eng) (sub : BitVec 4) (imm : BitVec 22) (s : State) : Host.Outcome State Fault Refusal :=
  run (azStep e (regOp (imm == 0) (cmpCtx sub.toNat))) s

/-! ## Shifts and conversions (R149, R150) -/

/-- The immediate of SHF is legal: [21:6] = 0, and [4:0] = 0 when [5] selects B. -/
def shfLegal (imm : BitVec 22) : Bool :=
  decide (imm.toNat < 64) && (!imm.toNat.testBit 5 || decide (imm.toNat % 32 = 0))

/-- The shift amount. -/
def shfAmount (imm : BitVec 22) (x : Ctx) : Nat :=
  if imm.toNat.testBit 5 then x.b.toNat % 32 else imm.toNat % 32

/-- A shift: `f` gives the result, `out` the bit shifted out last for an amount above 0. -/
def shiftOp (imm : BitVec 22) (f : Word → Nat → Word) (out : Nat → Nat) : Device → Nat → Ctx → Res :=
  regOp (shfLegal imm) (fun x =>
    let n := shfAmount imm x
    x.result (f x.a n) false (decide (n ≠ 0) && x.a.toNat.testBit (out n)) false)

def execAzShl (e : Eng) (imm : BitVec 22) (s : State) : Host.Outcome State Fault Refusal :=
  run (azStep e (shiftOp imm (fun a n => a <<< n) (fun n => 32 - n))) s
def execAzShr (e : Eng) (imm : BitVec 22) (s : State) : Host.Outcome State Fault Refusal :=
  run (azStep e (shiftOp imm (fun a n => a >>> n) (fun n => n - 1))) s
def execAzSar (e : Eng) (imm : BitVec 22) (s : State) : Host.Outcome State Fault Refusal :=
  run (azStep e (shiftOp imm (fun a n => a.sshiftRight n) (fun n => n - 1))) s
def execAzRol (e : Eng) (imm : BitVec 22) (s : State) : Host.Outcome State Fault Refusal :=
  run (azStep e (shiftOp imm (fun a n => a.rotateLeft n) (fun n => 32 - n))) s
def execAzRor (e : Eng) (imm : BitVec 22) (s : State) : Host.Outcome State Fault Refusal :=
  run (azStep e (shiftOp imm (fun a n => a.rotateRight n) (fun n => n - 1))) s

/-- ITF and UTF: a float result writes the flags of a CONV. -/
def convFloat (x : Ctx) (r : Word) : Ctx :=
  { x with a := r, z := fIsZero r, n := r.msb, v := false, c := false, u := false }

/-- FTI and FTIR: values outside the range saturate with V = 1, NaN traps (R147). -/
def toIntOp (imm : BitVec 22) (nearest : Bool) (d : Device) (_ : Nat) (x : Ctx) : Res :=
  if imm ≠ 0 then illegal d x
  else if fIsNaN x.a then .trap tFloat noArea 0 0 d x
  else
    let i := fToInt x.a nearest
    if fIsInf x.a ∨ 2 ^ 31 ≤ i ∨ i < -(2 ^ 31) then
      .ok d (x.result (if fNeg x.a then 0x80000000 else 0x7FFFFFFF) true false false)
    else .ok d (x.result (wdi i) false false false)

def execAzItf (e : Eng) (imm : BitVec 22) (s : State) : Host.Outcome State Fault Refusal :=
  run (azStep e (regOp (imm == 0) (fun x => convFloat x (fOfInt x.a.toInt)))) s
def execAzUtf (e : Eng) (imm : BitVec 22) (s : State) : Host.Outcome State Fault Refusal :=
  run (azStep e (regOp (imm == 0) (fun x => convFloat x (fOfInt (x.a.toNat : Int))))) s
def execAzFti (e : Eng) (imm : BitVec 22) (s : State) : Host.Outcome State Fault Refusal :=
  run (azStep e (toIntOp imm false)) s
def execAzFtir (e : Eng) (imm : BitVec 22) (s : State) : Host.Outcome State Fault Refusal :=
  run (azStep e (toIntOp imm true)) s

/-- A conversion of the bits of A. -/
def convOp (imm : BitVec 22) (f : Word → Word) : Device → Nat → Ctx → Res :=
  regOp (imm == 0) (fun x => x.result (f x.a) false false false)

def execAzSx8 (e : Eng) (imm : BitVec 22) (s : State) : Host.Outcome State Fault Refusal :=
  run (azStep e (convOp imm (fun a => (a.setWidth 8).signExtend 32))) s
def execAzSx16 (e : Eng) (imm : BitVec 22) (s : State) : Host.Outcome State Fault Refusal :=
  run (azStep e (convOp imm (fun a => (a.setWidth 16).signExtend 32))) s
def execAzZx8 (e : Eng) (imm : BitVec 22) (s : State) : Host.Outcome State Fault Refusal :=
  run (azStep e (convOp imm (fun a => (a.setWidth 8).setWidth 32))) s
def execAzZx16 (e : Eng) (imm : BitVec 22) (s : State) : Host.Outcome State Fault Refusal :=
  run (azStep e (convOp imm (fun a => (a.setWidth 16).setWidth 32))) s
def execAzBswap (e : Eng) (imm : BitVec 22) (s : State) : Host.Outcome State Fault Refusal :=
  run (azStep e (convOp imm (fun a =>
    wd (a.toNat % 256 * 2 ^ 24 + a.toNat / 2 ^ 8 % 256 * 2 ^ 16 + a.toNat / 2 ^ 16 % 256 * 2 ^ 8
      + a.toNat / 2 ^ 24)))) s

/-! ## Limit and scale (R151, R152) -/

/-- LIM: clamp A to the block's lo and hi. -/
def limCtx (isFloat : Bool) (lo hi : Word) (x : Ctx) : Ctx :=
  let lt (p q : Word) : Bool := if isFloat then fLt p q else decide (p.toInt < q.toInt)
  let r := if lt x.a lo then lo else if lt hi x.a then hi else x.a
  let c := lt x.a lo
  let v := !lt x.a lo && lt hi x.a
  if isFloat then { x with a := r, z := fIsZero r, n := r.msb, v := v, c := c, u := false }
  else x.result r v c false

def limOp (e : Eng) (mode : BitVec 2) (area : BitVec 4) (width : BitVec 2) (off : BitVec 18)
    (d : Device) (c : Nat) (x : Ctx) : Res :=
  onWord e mode area (decide (2 ≤ width.toNat)) 4 8 off (fun d1 ar p =>
    match d1.areaRead e c ar p 8 with
    | (none, d2) => placeTrap x tEcc ar p d2
    | (some v, d2) =>
      let lo := wd v
      let hi := wd (v / 2 ^ 32)
      if width = 3 ∧ (fIsNaN x.a ∨ fIsNaN lo ∨ fIsNaN hi) then placeTrap x tFloat ar p d2
      else .ok d2 (limCtx (width == 3) lo hi x)) d c x

/-- The steps of SCL, each rounded; none where one is invalid or in_hi equals in_lo. -/
def sclValue (a inLo inHi outLo outHi : Word) : Option Word :=
  match fSub a inLo, fSub outHi outLo, fSub inHi inLo with
  | some t1, some t2, some t3 =>
    if fIsZero t3 then none
    else
      match fMul t1 t2 with
      | some t4 =>
        match fDiv t4 t3 with
        | some t5 => fAdd t5 outLo
        | none => none
      | none => none
  | _, _, _ => none

def sclOp (e : Eng) (mode : BitVec 2) (area : BitVec 4) (width : BitVec 2) (off : BitVec 18)
    (d : Device) (c : Nat) (x : Ctx) : Res :=
  onWord e mode area (width == 3) 4 16 off (fun d1 ar p =>
    match d1.areaRead e c ar p 16 with
    | (none, d2) => placeTrap x tEcc ar p d2
    | (some v, d2) =>
      let q (i : Nat) := wd (v / 2 ^ (32 * i))
      match sclValue x.a (q 0) (q 1) (q 2) (q 3) with
      | none => placeTrap x tFloat ar p d2
      | some r =>
        .ok d2 (x.fresult r (fFinite x.a && fFinite (q 0) && fFinite (q 1) && fFinite (q 2) && fFinite (q 3)))) d c x

def execAzLim (e : Eng) (mode : BitVec 2) (area : BitVec 4) (width : BitVec 2) (off : BitVec 18) (s : State) :
    Host.Outcome State Fault Refusal := run (azStep e (limOp e mode area width off)) s
def execAzScl (e : Eng) (mode : BitVec 2) (area : BitVec 4) (width : BitVec 2) (off : BitVec 18) (s : State) :
    Host.Outcome State Fault Refusal := run (azStep e (sclOp e mode area width off)) s

end Sys2Proof.Machine
end

