-- ==== Sys2Proof/Machine/AzDecode.lean ====
section
/-! DEFINITION. The instruction that a program-bank word holds (R111–R113, R136), for STEP, which executes the word at
the PC (R96). -/

namespace Sys2Proof.Machine

/-- The operation of a logic, index or move sub-operation on registers alone; none where it is not one. -/
def subRegOp (op sub : Nat) (imm : BitVec 22) : Option (Ctx → Ctx) :=
  if op = 0x10 then
    (if sub = 6 then some (fun x => { x with la := !x.la })
     else if sub = 7 then some (fun x => { x with la := true, co := false })
     else if sub = 14 then some (fun x => { x with la := false, co := false })
     else if sub = 15 then some (fun x => { x with co := true }) else none)
  else if op = 0x1C then
    (if sub = 0 then some (fun x => { x with x := imm.signExtend 32 })
     else if sub = 1 then some (fun x => { x with y := imm.signExtend 32 })
     else if sub = 2 then some (fun x => { x with x := x.x + imm.signExtend 32 })
     else some (fun x => { x with y := x.y + imm.signExtend 32 }))
  else if op = 0x28 then
    (if sub = 0 then some (fun x => x.push (imm.signExtend 32))
     else if sub = 1 then some (fun x => { x with a := wd (imm.toNat * 65536 + x.a.toNat % 65536) })
     else if sub = 2 then some (fun x => let k := imm.signExtend 32; x.result (k + x.a) (addV k x.a) (addC k x.a) false)
     else some (fun x => x.push (wd (imm.toNat * 1024))))
  else if op = 0x29 then
    (if sub = 0 then some (fun x => { x with a := x.b, b := x.a })
     else if sub = 1 then some (fun x => { x with a := x.b })
     else if sub = 2 then some (fun x => { x with b := x.a })
     else if sub = 3 then some (fun x => { x with x := x.a })
     else if sub = 4 then some (fun x => { x with y := x.a })
     else if sub = 5 then some (fun x => x.push x.x)
     else if sub = 6 then some (fun x => x.push x.y)
     else if sub = 7 then some (fun x => x.push (if x.la then 1 else 0))
     else some (fun x => x.combine .and (x.a != 0)))
  else none

/-- INT (0x2A). -/
def intSub (e : Eng) (sub : Nat) : Device → Nat → Ctx → Res :=
  if sub = 0 then regOp true (fun x => x.result (x.b + x.a) (addV x.b x.a) (addC x.b x.a) false)
  else if sub = 1 then regOp true (fun x => x.result (x.b - x.a) (subV x.b x.a) (subC x.b x.a) false)
  else if sub = 2 then regOp true (fun x =>
    x.result (x.b * x.a) (x.b.toInt * x.a.toInt ≠ (x.b * x.a).toInt) false false)
  else if sub = 3 then divOp e 0 (fun b => if b.msb then 0x80000000 else 0x7FFFFFFF) divS
  else if sub = 4 then divOp e 0 (fun b => b) (fun b a => (wdi (b.toInt.tmod a.toInt), false))
  else if sub = 5 then divOp e 0 (fun _ => 0xFFFFFFFF) (fun b a => (wd (b.toNat / a.toNat), false))
  else if sub = 6 then divOp e 0 (fun b => b) (fun b a => (wd (b.toNat % a.toNat), false))
  else if sub = 7 then regOp true (fun x => x.result (x.b &&& x.a) false false false)
  else if sub = 8 then regOp true (fun x => x.result (x.b ||| x.a) false false false)
  else if sub = 9 then regOp true (fun x => x.result (x.b ^^^ x.a) false false false)
  else if sub = 10 then regOp true (fun x => x.result (-x.a) (x.a == 0x80000000) false false)
  else if sub = 11 then regOp true (fun x =>
    x.result (if x.a.msb then -x.a else x.a) (x.a == 0x80000000) false false)
  else regOp true (fun x => x.result (~~~x.a) false false false)

/-- FLT (0x2B). -/
def fltSub (sub : Nat) : Device → Nat → Ctx → Res :=
  if sub = 0 then floatOp 0 fAdd
  else if sub = 1 then floatOp 0 fSub
  else if sub = 2 then floatOp 0 fMul
  else if sub = 3 then floatOp 0 fDiv
  else if sub = 4 then floatOp1 0 (fun a => some (fNegate a))
  else if sub = 5 then floatOp1 0 (fun a => some (a &&& 0x7FFFFFFF))
  else floatOp1 0 fSqrt

/-- SHF (0x2D). -/
def shfSub (sub : Nat) (imm : BitVec 22) : Device → Nat → Ctx → Res :=
  if sub = 0 then shiftOp imm (fun a n => a <<< n) (fun n => 32 - n)
  else if sub = 1 then shiftOp imm (fun a n => a >>> n) (fun n => n - 1)
  else if sub = 2 then shiftOp imm (fun a n => a.sshiftRight n) (fun n => n - 1)
  else if sub = 3 then shiftOp imm (fun a n => a.rotateLeft n) (fun n => 32 - n)
  else shiftOp imm (fun a n => a.rotateRight n) (fun n => n - 1)

/-- CONV (0x2E). -/
def convSub (sub : Nat) : Device → Nat → Ctx → Res :=
  if sub = 0 then regOp true (fun x => convFloat x (fOfInt x.a.toInt))
  else if sub = 1 then regOp true (fun x => convFloat x (fOfInt (x.a.toNat : Int)))
  else if sub = 2 then toIntOp 0 false
  else if sub = 3 then toIntOp 0 true
  else if sub = 4 then convOp 0 (fun a => (a.setWidth 8).signExtend 32)
  else if sub = 5 then convOp 0 (fun a => (a.setWidth 16).signExtend 32)
  else if sub = 6 then convOp 0 (fun a => (a.setWidth 8).setWidth 32)
  else if sub = 7 then convOp 0 (fun a => (a.setWidth 16).setWidth 32)
  else convOp 0 (fun a =>
    wd (a.toNat % 256 * 2 ^ 24 + a.toNat / 2 ^ 8 % 256 * 2 ^ 16 + a.toNat / 2 ^ 16 % 256 * 2 ^ 8 + a.toNat / 2 ^ 24))

/-- The S-format instructions. -/
def sysSub (e : Eng) (op : Nat) (sub : BitVec 4) (sub6 : BitVec 6) (idx : BitVec 16) : Device → Nat → Ctx → Res :=
  if op = 0x30 then
    (if sub = 0 then timerOp e kTON TCell.ton sub6 idx
     else if sub = 1 then timerOp e kTOF TCell.tof sub6 idx
     else if sub = 2 then timerOp e kTP TCell.tp sub6 idx else trstOp sub6 idx)
  else if op = 0x31 then
    (if sub = 0 then countOp CCell.cu CCell.qu sub6 idx
     else if sub = 1 then countOp CCell.cd CCell.qd sub6 idx
     else if sub = 2 then countSet (fun c _ => { c with cv := 0 }) sub6 idx
     else countSet (fun c a => { c with pv := a, cv := a }) sub6 idx)
  else if op = 0x32 then
    (if sub = 0 then semTryOp e sub6 idx [] else if sub = 1 then semRelOp e sub6 idx else semOwnOp e sub6 idx)
  else if op = 0x33 then
    (if sub = 0 then mbxSendOp e sub6 idx else if sub = 1 then mbxRecvOp e sub6 idx
     else if sub = 2 then mbxAckOp e sub6 idx else mbxStatOp e sub6 idx)
  else if op = 0x34 then (if sub = 0 then dblRingOp sub6 idx else dblTakeOp e sub6 idx)
  else if op = 0x35 then evwOp e sub sub6 idx
  else if op = 0x36 then
    (if sub = 0 then ticktOp sub6 idx else if sub = 1 then nowOp sub6 idx else tickusOp sub6 idx)
  else if sub = 0 then trapOp sub6 idx else tinfoOp e sub6 idx

/-- The bit instructions 0x01–0x0C. -/
def bitSub (e : Eng) (op : Nat) (mode : BitVec 2) (area : BitVec 4) (ba : BitVec 20) : Device → Nat → Ctx → Res :=
  if op = 1 then combineOp .and false e mode area ba
  else if op = 2 then combineOp .and true e mode area ba
  else if op = 3 then combineOp .or false e mode area ba
  else if op = 4 then combineOp .or true e mode area ba
  else if op = 5 then combineOp .xor false e mode area ba
  else if op = 6 then combineOp .xor true e mode area ba
  else if op = 7 then storeOp false e mode area ba
  else if op = 8 then storeOp true e mode area ba
  else if op = 9 then setOp true e mode area ba
  else if op = 10 then setOp false e mode area ba
  else if op = 11 then edgeOp false e mode area ba
  else edgeOp true e mode area ba

/-- The W-format instructions. -/
def wordSub (e : Eng) (op : Nat) (mode : BitVec 2) (area : BitVec 4) (width : BitVec 2) (off : BitVec 18) :
    Device → Nat → Ctx → Res :=
  let w := widthOf width.toNat
  if op = 0x20 then loadOp e mode area true w off (fun v x => x.push v)
  else if op = 0x21 then storeWord e mode area w off
  else if op = 0x22 then loadOp e mode area (width != 3) w off (fun v x => { x with x := v })
  else if op = 0x23 then loadOp e mode area (width != 3) w off (fun v x => { x with y := v })
  else if op = 0x24 then leaOp e mode area width off
  else if op = 0x25 then limOp e mode area width off
  else sclOp e mode area width off

/-- The effect of a legal program word. -/
def wordOp (e : Eng) (w : Word) : Device → Nat → Ctx → Res :=
  let op := w.toNat / 2 ^ 26
  let sub := w.extractLsb' 22 4
  let imm := w.extractLsb' 0 22
  let mode := w.extractLsb' 24 2
  let area := w.extractLsb' 20 4
  if op ≤ 12 then bitSub e op mode area (w.extractLsb' 0 20)
  else if op = 0x18 then jumpOp sub imm
  else if op = 0x19 then callOp sub imm
  else if op = 0x1A then decjOp sub imm
  else if op = 0x1B then
    (if sub = 0 then retOp imm else if sub = 1 then retlaOp imm else if sub = 2 then endOp imm
     else if sub = 3 then endlaOp imm else regOp true (fun x => x))
  else if op ≤ 0x26 ∧ 0x20 ≤ op then wordSub e op mode area (w.extractLsb' 18 2) (w.extractLsb' 0 18)
  else if op = 0x2A then intSub e sub.toNat
  else if op = 0x2B then fltSub sub.toNat
  else if op = 0x2C then regOp true (cmpCtx sub.toNat)
  else if op = 0x2D then shfSub sub.toNat imm
  else if op = 0x2E then convSub sub.toNat
  else if op = 0x2F then bmovOp e sub imm (2 ^ 32)
  else if 0x30 ≤ op then sysSub e op sub (w.extractLsb' 16 6) (w.extractLsb' 0 16)
  else if op = 0x10 ∧ sub = 0 then branchOpen imm
  else if op = 0x10 ∧ 8 ≤ sub.toNat ∧ sub.toNat ≤ 13 then branchJoin (Fin.ofNat 6 (sub.toNat - 8)) imm
  else
    match subRegOp op sub.toNat imm with
    | some g => regOp true g
    | none => fun d _ x => illegal d x

/-- The program word that a context fetches. -/
def Device.fetched (d : Device) (e : Nat) (pc : BitVec 16) : Word :=
  sget (fun _ => 0) d.prog ((2 * e + pc.toNat / 32768) * 32768 + pc.toNat % 32768)

/-- One instruction of the loaded program: the word at the PC, illegal or legal. -/
def progOp (e : Eng) (d : Device) (c : Nat) (x : Ctx) : Res :=
  let w := d.fetched e x.pc
  if wordLegal w.toNat then wordOp e w d c x else illegal d x

end Sys2Proof.Machine
end

