-- ==== Sys2Proof/Machine/Ce.lean ====
section
/-! DEFINITION. Memory correction, engine faults, the agreement stage, debug commands, breakpoints and the TAP
(R73–R107). -/

namespace Sys2Proof.Machine

/-! ## Memories (R73, R77) -/

/-- The corrected codeword is written back (R73). -/
def execEccWriteback (key : Nat) (s : State) : Host.Outcome State Fault Refusal :=
  run (fun d => if d.ecc key = .counted then d.setEcc key .clean else d) s

/-- What a decoder finds marks the codeword; good data leave a mark that stands. -/
def Device.found (d : Device) (key : Nat) : Codeword → Device
  | .good => d
  | .correctable => if d.ecc key = .clean then d.setEcc key .corr else d
  | .badData => d.setEcc key .bad
  | .badAddress => d.setEcc key .badAddr

/-- The scrubber reads a codeword (R77): corrected under R73, or a memory fault with MASTER = scrubber. -/
def execScrubberRead (key : Nat) (found : Codeword) (s : State) : Host.Outcome State Fault Refusal :=
  run (fun d => if d.bit Reg.CE_SCRUB_CFG_EN then ((d.found key found).eccRead 1 0 key).2 else d) s

/-! ## Engine faults (R78, R79, R86, R87) -/

/-- The comparators of an engine that is not held in reset flag a difference in a signal group. -/
def execEngineFault (e : Eng) (cmp0 : Bool) (cmp1 : Bool) (group : Fin 9) (s : State) :
    Host.Outcome State Fault Refusal :=
  run (fun d =>
    if (!cmp0 && !cmp1) || d.engState e == stOff then d
    else
      let extra := group.val * 65536 + b2n cmp0 * 4096 + b2n cmp1 * 8192
      if cmp0 && cmp1 then
        d.engineFault e 0 1 extra 0x084 (fun pc => [wd e, wd group, pc])
      else
        d.engineFault e 1 3 extra 0x085 (fun _ => [wd e, wd (b2n cmp1), wd group])) s

/-- A run of cycles in which the synchronisers of a signal differ (R86): seen, and a fault at the fifth; a shorter run
ends with the level that both then show. -/
def execAgreeFault (e : Eng) (sig : Fin 5) (cycles : Nat) (level : Bool) (s : State) :
    Host.Outcome State Fault Refusal :=
  run (fun d =>
    let k := 5 * e.val + sig.val
    if cycles = 0 ∨ d.engState e = stOff then d
    else
      let d1 := (d.setBitAt (Reg.CE_AGREE_STAT_DIFF_SEEN e) sig true).setF (Reg.CE_AGREE_STAT_MAX_DIFF e)
        (max (d.fld (Reg.CE_AGREE_STAT_MAX_DIFF e)) (min cycles 5))
      if 5 ≤ cycles then
        let d2 : Device := { d1 with ce := { d1.ce with diff := sput zeroAt d1.ce.diff k 5 } }
        (d2.setBitAt (Reg.CE_AGREE_STAT_FAULT e) sig true).engineFault e 2 4 0 0x086 (fun _ => [wd e, wd sig])
      else
        { d1 with ce := { d1.ce with diff := sput zeroAt d1.ce.diff k 0,
                                     agreed := sput falseAt d1.ce.agreed k level } }) s

/-! ## Halting (R92–R97, R100) -/

/-- HALT, STEP and breakpoints act in this lane state (R100). -/
def Device.debugLane (d : Device) : Bool :=
  !d.isLane || d.fld Reg.TRI_LANE_STAT_STATE == lsExcluded || d.fld Reg.TRI_LANE_STAT_STATE == lsShadow

/-- The PC of every context, as event 0x08B holds it. -/
def Device.pcs (d : Device) (e : Nat) : List Word :=
  (List.range 16).map (fun c => wd (d.ctx e c).pc.toNat)

/-- The engine halts (R93): HALTED, DBG_TOUCHED, event 0x08B. -/
def Device.haltEngine (d : Device) (e : Nat) : Device :=
  ((d.setF (Reg.CE_STATUS_STATE e) stHalted).setF (Reg.CE_STATUS_DBG_TOUCHED e) 1).raise 0x08B (wd e :: d.pcs e)

/-- A block-state word of an engine command. -/
def Device.ceState (d : Device) (e : Nat) : Word := d.rd (Reg.CE_STATUS e)

def Device.cmdHalt (d : Device) (e arg : Nat) : Device :=
  d.commandNow (portCE e) 1 arg (d.ceState e) ⟨arg == 0, d.perm permDebug, d.engState e == stRun && d.debugLane⟩
    (fun d => d.haltEngine e)

/-- Registers by debug index (R99), as the checker and the main copy are compared and written. -/
def Ctx.dbgRead (x : Ctx) (i : Nat) : Option Word :=
  if i = 0 then
    some (wd (b2n x.z + 2 * b2n x.n + 4 * b2n x.v + 8 * b2n x.c + 16 * b2n x.u + 32 * b2n x.la + 64 * b2n x.co))
  else if i = 1 then some x.a
  else if i = 2 then some x.b
  else if i = 3 then some x.x
  else if i = 4 then some x.y
  else if i = 5 then some (wd x.pc.toNat)
  else if i = 6 then some x.ls
  else if i = 7 then some (wd (x.lsp + 256 * x.csp))
  else if i = 8 then some x.lse
  else if 16 ≤ i ∧ i < 32 then some (wd (sget (fun _ => (0 : BitVec 16)) x.cs (i - 16)).toNat)
  else none

/-- Write a register by debug index (R99): the bits used. -/
def Ctx.dbgWrite (x : Ctx) (i : Nat) (v : Word) : Ctx :=
  let n := v.toNat
  if i = 0 then
    { x with z := n.testBit 0, n := n.testBit 1, v := n.testBit 2, c := n.testBit 3, u := n.testBit 4,
             la := n.testBit 5, co := n.testBit 6 }
  else if i = 1 then { x with a := v }
  else if i = 2 then { x with b := v }
  else if i = 3 then { x with x := v }
  else if i = 4 then { x with y := v }
  else if i = 5 then { x with pc := BitVec.ofNat 16 n }
  else if i = 6 then { x with ls := v }
  else if i = 7 then { x with lsp := min (n % 64) 32, csp := min (n / 256 % 32) 16 }
  else if i = 8 then { x with lse := v }
  else if 16 ≤ i ∧ i < 32 then { x with cs := sput (fun _ => 0) x.cs (i - 16) (BitVec.ofNat 16 n) }
  else x

/-- Apply the replay queue to the checker, in the order of the writes (R96). -/
def applyReplay (e : Nat) (chk : SMap Ctx) : List (Nat × Nat × Word) → SMap Ctx
  | [] => chk
  | (c, i, v) :: t => applyReplay e (sput ctx0 chk (16 * e + c) ((sget ctx0 chk (16 * e + c)).dbgWrite i v)) t

/-- The first register in which the copies of a context differ. -/
def firstDiff (m k : Ctx) : Option Nat :=
  ((List.range 9) ++ (List.range 16).map (fun i => 16 + i)).find? (fun i => decide (m.dbgRead i ≠ k.dbgRead i))

/-- The first context and register in which the copies of an engine differ. -/
def copiesDiffer (e : Nat) (main chk : SMap Ctx) : Nat → Option (Nat × Nat)
  | 0 => none
  | n + 1 =>
    match copiesDiffer e main chk n with
    | some r => some r
    | none => (firstDiff (sget ctx0 main (16 * e + n)) (sget ctx0 chk (16 * e + n))).map (fun i => (n, i))

def noReplay (_ : Nat) : List (Nat × Nat × Word) := []

/-- RESUME and STEP bring the checker up to date and compare; a difference is an engine fault REPLAY (R96). -/
def Device.replay (d : Device) (e : Nat) (go : Device → Device) : Device :=
  let chk := applyReplay e d.ce.chk (sget noReplay d.ce.replay e)
  let d1 : Device := { d with ce := { d.ce with chk := chk } }
  match copiesDiffer e d.ce.main chk 16 with
  | some (c, i) => d1.engineFault e 3 8 0 0x087 (fun _ => [wd e, wd c, wd i])
  | none =>
    go ((({ d1 with ce := { d1.ce with replay := sput noReplay d1.ce.replay e [] } }) : Device).setF
      (Reg.CE_REPLAY_STAT_DEPTH e) 0)

/-- An overrun that a halted engine could not react to takes its reaction now (R188). -/
def Device.overrunReact (d : Device) (e c : Nat) : Device :=
  let react := d.fld (Reg.TASK_CFG_OVR_REACT e c)
  if react = 1 then
    let pc := if d.ctxState e c = 1 then d.fld (Reg.TASK_CFG_ENTRY e c) else (d.ctx e c).pc.toNat
    ((d.inc (Reg.TASK_CNT_ABORTED e c)).raiseFrom e c pc 0x0C6 [engCtx e c, wd pc]).endInst e c
  else if react = 2 ∨ react = 3 then d.stopReact e (react - 1)
  else d

/-- The overdue contexts below n of an engine that returns to RUN. -/
def Device.overdueReact (d : Device) (e : Nat) : Nat → Device
  | 0 => d
  | n + 1 =>
    let d1 := d.overdueReact e n
    if sget falseAt d1.task.overdue (16 * e + n) then
      let d2 : Device := { d1 with task := { d1.task with
        overdue := sput falseAt d1.task.overdue (16 * e + n) false } }
      if d2.ctxState e n = 0 then d2 else d2.overrunReact e n
    else d1

def Device.cmdResume (d : Device) (e arg : Nat) : Device :=
  d.command (portCE e) 2 arg (d.ceState e) ⟨arg == 0, d.perm permDebug, d.engState e == stHalted⟩ (fun d =>
    let applied := (sget noReplay d.ce.replay e).length
    (d.beginCmd (portCE e)).replay e (fun d1 =>
      (((d1.setF (Reg.CE_STATUS_STATE e) stRun).raise 0x08C [wd e, wd applied]).endCmd (portCE e) 0).overdueReact
        e 16))

/-- STEP executes the program word at the PC of the selected context, then halts (R96). -/
def Device.cmdStep (d : Device) (e : Eng) (arg : Nat) : Device :=
  d.command (portCE e) 3 arg (d.ceState e)
    ⟨arg == 0, d.perm permDebug, d.engState e == stHalted && d.debugLane⟩ (fun d =>
      (d.beginCmd (portCE e)).replay e (fun d1 =>
        let d2 := azStep e (progOp e) (d1.setF (Reg.CE_STATUS_STATE e) stRun)
        if d2.engState e = stRun then (d2.haltEngine e).endCmd (portCE e) 0 else d2))

/-- The register index of ARG is one of R99 and the unused bits are 0. -/
def dbgArg (arg : Nat) : Bool := decide (arg < 4096) && ((Ctx.start 0).dbgRead (arg % 256)).isSome

def Device.cmdRegRead (d : Device) (e arg : Nat) : Device :=
  d.commandNow (portCE e) 4 arg (d.ceState e) ⟨dbgArg arg, d.perm permDebug, d.engState e == stHalted⟩
    (fun d => d.wr (Reg.CE_DBG_DATA e) (((d.ctx e (arg / 256)).dbgRead (arg % 256)).getD 0))

/-- REG_WRITE reaches the main copy and the replay queue of 64 entries (R95). -/
def Device.cmdRegWrite (d : Device) (e arg : Nat) : Device :=
  d.commandNow (portCE e) 5 arg (d.ceState e)
    ⟨dbgArg arg, d.perm permDebug,
     d.engState e == stHalted && decide ((sget noReplay d.ce.replay e).length < 64)⟩ (fun d =>
      let c := arg / 256
      let v := d.rd (Reg.CE_DBG_DATA e)
      let q := sget noReplay d.ce.replay e ++ [(c, arg % 256, v)]
      ({ d with ce := { d.ce with
          main := sput ctx0 d.ce.main (16 * e + c) ((d.ctx e c).dbgWrite (arg % 256) v),
          replay := sput noReplay d.ce.replay e q } } : Device).setF (Reg.CE_REPLAY_STAT_DEPTH e) q.length)

def Device.cmdCeClear (d : Device) (e arg : Nat) : Device :=
  d.commandNow (portCE e) 6 arg (d.ceState e) ⟨arg == 0, true, true⟩ (fun d =>
    (((d.setF (Reg.CE_ECC_CNT_CORR e) 0).setF (Reg.CE_AGREE_STAT_MAX_DIFF e) 0).setF
      (Reg.CE_TRAP_1_COUNT e) 0).wr Reg.CE_MEM_CORR_CNT 0)

def execHalt (e : Eng) (arg : BitVec 24) (s : State) : Host.Outcome State Fault Refusal :=
  run (fun d => d.cmdHalt e arg.toNat) s
def execResume (e : Eng) (arg : BitVec 24) (s : State) : Host.Outcome State Fault Refusal :=
  run (fun d => d.cmdResume e arg.toNat) s
def execStep (e : Eng) (arg : BitVec 24) (s : State) : Host.Outcome State Fault Refusal :=
  run (fun d => d.cmdStep e arg.toNat) s
def execRegRead (e : Eng) (arg : BitVec 24) (s : State) : Host.Outcome State Fault Refusal :=
  run (fun d => d.cmdRegRead e arg.toNat) s
def execRegWrite (e : Eng) (arg : BitVec 24) (s : State) : Host.Outcome State Fault Refusal :=
  run (fun d => d.cmdRegWrite e arg.toNat) s
def execCeClearCounters (e : Eng) (arg : BitVec 24) (s : State) : Host.Outcome State Fault Refusal :=
  run (fun d => d.cmdCeClear e arg.toNat) s

/-- Breakpoint n matches the next instruction of context c (R97). -/
def Device.bpMatch (d : Device) (e n c : Nat) : Bool :=
  d.bit (Reg.CE_BP_EN e n) && decide ((d.ctx e c).pc.toNat % 32768 = d.fld (Reg.CE_BP_PC e n))
    && (d.bit (Reg.CE_BP_ANY_CTX e n) || d.fld (Reg.CE_BP_CTX e n) == c)

/-- The engine halts before the matched instruction, with event 0x08E (R97, R100). -/
def execBreakpointHit (e : Eng) (n : Fin 4) (s : State) : Host.Outcome State Fault Refusal :=
  run (fun d =>
    if d.engState e ≠ stRun ∨ !d.debugLane then d
    else
      match d.pickCtx e 16 with
      | none => d
      | some c =>
        let d1 := d.dispatch e c
        if d1.bpMatch e n c then (d1.haltEngine e).raise 0x08E [wd e, wd n, wd c, wd (d1.ctx e c).pc.toNat] else d) s

/-- The bits of CE_BP that a write sets. -/
def bpMask : Word := 0x801F7FFF

/-- A write of a breakpoint needs DEBUG; without it event 0x082 (R92). -/
def Device.bpWrite (d : Device) (e n : Nat) (val : Word) : Device :=
  if d.perm permDebug then d.wr (Reg.CE_BP e n) (val &&& bpMask)
  else d.raise 0x082 [val, wd (d.fld Reg.SF_SEAL_STAT_PERM_NOW)]

def execBreakpointWrite (e : Eng) (n : Fin 4) (val : Word) (s : State) : Host.Outcome State Fault Refusal :=
  run (fun d => d.bpWrite e n val) s

/-! ## TAP (R102–R104) -/

def irExtest : Nat := 0
def irIdcode : Nat := 1
def irSample : Nat := 2
def irAccess : Nat := 8
def irBypass : Nat := 15

/-- EXTEST is available: DEBUG granted and the device in the no-service state (R102). -/
def Device.extestEn (d : Device) : Bool := d.perm permDebug && d.bit Reg.SYS_ROLE_NO_SERVICE

/-- The instruction in effect: one that is not available, and every unlisted code, acts as BYPASS. -/
def Device.tapEffective (d : Device) (ir : Nat) : Nat :=
  if ir = irIdcode then ir
  else if ir = irExtest then (if d.extestEn then ir else irBypass)
  else if ir = irSample ∨ ir = irAccess then (if d.perm permDebug then ir else irBypass)
  else irBypass

/-- TMS high for 5 TCK cycles resets the TAP: IDCODE is selected. -/
def execTapReset (s : State) : Host.Outcome State Fault Refusal :=
  run (fun d => { d with ce := { d.ce with tapIr := irIdcode } }) s

def execTapInstructionUpdate (ir : BitVec 4) (s : State) : Host.Outcome State Fault Refusal :=
  run (fun d => { d with ce := { d.ce with tapIr := ir.toNat } }) s

/-- The IDCODE of R103: the version field holds the low four bits of the stepping code. -/
def Device.idcode (d : Device) : Word :=
  wd (d.fld Reg.DEV_ID_STEP % 16 * 2 ^ 28 + 0x8260 * 2 ^ 12 + 0x1D3 * 2 + 1)

/-- Update-DR of DBG_ACCESS (R104): an access starts, or is refused (status 3), discarded while one runs (status 1), or
an error for OP 3 (status 2). -/
def execDbgAccess (dr : BitVec 64) (s : State) : Host.Outcome State Fault Refusal :=
  run (fun d =>
    let op := dr.toNat / 2 ^ 62
    let wa := dr.toNat / 2 ^ 32 % 2 ^ 30
    if d.tapEffective d.ce.tapIr ≠ irAccess ∧ d.ce.tapIr = irAccess then
      { d with ce := { d.ce with dbgPrev := { op := 3, waddr := wa, data := 0 } } }
    else if d.ce.tapIr ≠ irAccess then d
    else
      match d.ce.dbgRun with
      | some r => { d with ce := { d.ce with dbgPrev := { op := 1, waddr := r.waddr, data := 0 } } }
      | none =>
        if op = 0 then d
        else if op = 3 then { d with ce := { d.ce with dbgPrev := { op := 2, waddr := wa, data := 0 } } }
        else
          { d with ce := { d.ce with dbgRun := some { op := op, waddr := wa, data := wd dr.toNat } } }) s

end Sys2Proof.Machine
end

