-- ==== Sys2Proof/Machine/Crc.lean ====
section
/-! DEFINITION. The cyclic redundancy checks that the spec names: CRC-32C (reflected, all ones before and after, the
iSCSI form; log 15), and bitwise checks with a given polynomial, most significant bit first. -/

namespace Sys2Proof.Machine

/-- One bit of a reflected CRC with polynomial p. -/
def crcBitR (p c : Nat) : Nat := if c % 2 = 1 then (c / 2) ^^^ p else c / 2

/-- n bits of a reflected CRC. -/
def crcBitsR (p : Nat) : Nat → Nat → Nat
  | 0, c => c
  | n + 1, c => crcBitsR p n (crcBitR p c)

/-- The register of a reflected CRC over bytes. -/
def crcR (p : Nat) : Nat → List Byte → Nat
  | c, [] => c
  | c, b :: t => crcR p (crcBitsR p 8 (c ^^^ b.toNat)) t

/-- CRC-32C of a list of bytes. -/
def crc32c (l : List Byte) : Word := BitVec.ofNat 32 (crcR 0x82F63B78 0xFFFFFFFF l ^^^ 0xFFFFFFFF)

/-- One bit of a CRC of width w, most significant bit first. -/
def crcBitM (w p c : Nat) (b : Bool) : Nat :=
  let top := c.testBit (w - 1)
  let sh := c * 2 % 2 ^ w
  if top != b then sh ^^^ p else sh

/-- The register of such a CRC over bits. -/
def crcM (w p : Nat) : Nat → List Bool → Nat
  | c, [] => c
  | c, b :: t => crcM w p (crcBitM w p c b) t

/-- The n low bits of a number, most significant first. -/
def bitsMsb : Nat → Nat → List Bool
  | 0, _ => []
  | n + 1, v => v.testBit n :: bitsMsb n v

/-- The bits of bytes, most significant first within each byte. -/
def byteBits (l : List Byte) : List Bool := (l.map (fun b => bitsMsb 8 b.toNat)).flatten

end Sys2Proof.Machine
end

