-- ==== Sys2Proof/Machine/Crypto.lean ====
section
/-! DEFINITION. The cryptographic functions that the spec names: AES-128-CMAC (R359), SHA-256 and ECDSA over P-256
(R478). Their definitions are those of the public standards (log 17). -/

namespace Sys2Proof.Machine

/-! ## AES-128 -/

/-- Doubling in the field of AES. -/
def gfDouble (a : Nat) : Nat := if 128 ≤ a then (2 * a) % 256 ^^^ 0x1B else 2 * a

/-- Product in the field of AES, over the n low bits of the second factor. -/
def gfMul (a : Nat) : Nat → Nat → Nat
  | 0, _ => 0
  | n + 1, b => (if b % 2 = 1 then a else 0) ^^^ gfMul (gfDouble a) n (b / 2)

/-- The power 2ⁿ⁺¹ − 2 of an element: its inverse for n = 7. -/
def gfPow (a : Nat) : Nat → Nat
  | 0 => 1
  | n + 1 => let r := gfPow a n; gfMul (gfMul (gfMul r 8 r) 8 1) 8 (gfMul a 8 a)

/-- A byte rotated left by n. -/
def rotl8 (a n : Nat) : Nat := (a * 2 ^ n) % 256 + a / 2 ^ (8 - n)

/-- The substitution box. -/
def sbox (a : Nat) : Nat :=
  let v := gfPow a 7
  v ^^^ rotl8 v 1 ^^^ rotl8 v 2 ^^^ rotl8 v 3 ^^^ rotl8 v 4 ^^^ 0x63

/-- Byte i of a list of numbers. -/
def nth (l : List Nat) (i : Nat) : Nat := l.getD i 0

/-- Exclusive or, byte by byte. -/
def xorBytes (l m : List Nat) : List Nat := List.zipWith (fun a b => a ^^^ b) l m

/-- The next round key. -/
def nextKey (k : List Nat) (rcon : Nat) : List Nat :=
  let t := [sbox (nth k 13) ^^^ rcon, sbox (nth k 14), sbox (nth k 15), sbox (nth k 12)]
  let a := xorBytes (k.take 4) t
  let b := xorBytes ((k.drop 4).take 4) a
  let c := xorBytes ((k.drop 8).take 4) b
  a ++ b ++ c ++ xorBytes ((k.drop 12).take 4) c

/-- SubBytes and ShiftRows. -/
def subShift (s : List Nat) : List Nat :=
  (List.range 16).map (fun i => sbox (nth s ((i + 4 * (i % 4)) % 16)))

/-- MixColumns on one column. -/
def mixCol (s : List Nat) (c : Nat) : List Nat :=
  (List.range 4).map (fun r =>
    gfDouble (nth s (4 * c + r)) ^^^ (gfDouble (nth s (4 * c + (r + 1) % 4)) ^^^ nth s (4 * c + (r + 1) % 4))
      ^^^ nth s (4 * c + (r + 2) % 4) ^^^ nth s (4 * c + (r + 3) % 4))

/-- Rounds of AES-128; the last one has no MixColumns. -/
def aesRounds (s k : List Nat) (rcon : Nat) : Nat → List Nat
  | 0 => s
  | n + 1 =>
    let k1 := nextKey k rcon
    let t := subShift s
    let u := if n = 0 then t else mixCol t 0 ++ mixCol t 1 ++ mixCol t 2 ++ mixCol t 3
    aesRounds (xorBytes u k1) k1 (gfDouble rcon) n

/-- AES-128 of a block. -/
def aes128 (key block : List Nat) : List Nat := aesRounds (xorBytes block key) key 1 10

/-- A number of 16 bytes, most significant first, as a list. -/
def bytes16 (v : Nat) : List Nat := (List.range 16).map (fun i => v / 256 ^ (15 - i) % 256)

/-- The number that bytes spell, most significant first. -/
def beNat (l : List Nat) : Nat := l.foldl (fun n b => 256 * n + b) 0

/-- A CMAC subkey from the block before it. -/
def cmacDouble (v : Nat) : Nat := if 2 ^ 127 ≤ v then (2 * v) % 2 ^ 128 ^^^ 0x87 else 2 * v

/-- The chain of CMAC over the message; n bounds the blocks. -/
def cmacChain (key : List Nat) (k1 k2 : Nat) (x : List Nat) : Nat → List Nat → List Nat
  | 0, _ => x
  | n + 1, m =>
    if 16 < m.length then
      cmacChain key k1 k2 (aes128 key (xorBytes x (m.take 16))) n (m.drop 16)
    else if m.length = 16 then aes128 key (xorBytes x (xorBytes m (bytes16 k1)))
    else aes128 key (xorBytes x (xorBytes (m ++ [0x80] ++ List.replicate (15 - m.length) 0) (bytes16 k2)))

/-- AES-128-CMAC: key bytes and message bytes to 16 tag bytes. -/
def cmac (key m : List Nat) : List Nat :=
  let l := beNat (aes128 key (List.replicate 16 0))
  cmacChain key (cmacDouble l) (cmacDouble (cmacDouble l)) (List.replicate 16 0) (m.length / 16 + 1) m

/-! ## SHA-256 -/

def shaK0 : List Nat :=
  [0x428a2f98, 0x71374491, 0xb5c0fbcf, 0xe9b5dba5, 0x3956c25b, 0x59f111f1, 0x923f82a4, 0xab1c5ed5,
   0xd807aa98, 0x12835b01, 0x243185be, 0x550c7dc3, 0x72be5d74, 0x80deb1fe, 0x9bdc06a7, 0xc19bf174]
def shaK1 : List Nat :=
  [0xe49b69c1, 0xefbe4786, 0x0fc19dc6, 0x240ca1cc, 0x2de92c6f, 0x4a7484aa, 0x5cb0a9dc, 0x76f988da,
   0x983e5152, 0xa831c66d, 0xb00327c8, 0xbf597fc7, 0xc6e00bf3, 0xd5a79147, 0x06ca6351, 0x14292967]
def shaK2 : List Nat :=
  [0x27b70a85, 0x2e1b2138, 0x4d2c6dfc, 0x53380d13, 0x650a7354, 0x766a0abb, 0x81c2c92e, 0x92722c85,
   0xa2bfe8a1, 0xa81a664b, 0xc24b8b70, 0xc76c51a3, 0xd192e819, 0xd6990624, 0xf40e3585, 0x106aa070]
def shaK3 : List Nat :=
  [0x19a4c116, 0x1e376c08, 0x2748774c, 0x34b0bcb5, 0x391c0cb3, 0x4ed8aa4a, 0x5b9cca4f, 0x682e6ff3,
   0x748f82ee, 0x78a5636f, 0x84c87814, 0x8cc70208, 0x90befffa, 0xa4506ceb, 0xbef9a3f7, 0xc67178f2]

/-- A 32-bit rotation to the right. -/
def rotr32 (a n : Nat) : Nat := a / 2 ^ n + a % 2 ^ n * 2 ^ (32 - n)

/-- The next word of the message schedule from the last 16, oldest first. -/
def shaNext (w : List Nat) : Nat :=
  let a := nth w 1
  let b := nth w 14
  ((rotr32 b 17 ^^^ rotr32 b 19 ^^^ b / 1024) + nth w 9 + (rotr32 a 7 ^^^ rotr32 a 18 ^^^ a / 8) + nth w 0) % 2 ^ 32

/-- Rounds of SHA-256 over the constants given. -/
def shaRounds (h w : List Nat) : List Nat → List Nat
  | [] => h
  | k :: ks =>
    let e := nth h 4
    let a := nth h 0
    let t1 := nth h 7 + (rotr32 e 6 ^^^ rotr32 e 11 ^^^ rotr32 e 25)
      + ((e &&& nth h 5) ^^^ ((2 ^ 32 - 1 - e) &&& nth h 6)) + k + nth w 0
    let t2 := (rotr32 a 2 ^^^ rotr32 a 13 ^^^ rotr32 a 22)
      + ((a &&& nth h 1) ^^^ (a &&& nth h 2) ^^^ (nth h 1 &&& nth h 2))
    shaRounds [(t1 + t2) % 2 ^ 32, a, nth h 1, nth h 2, (nth h 3 + t1) % 2 ^ 32, e, nth h 5, nth h 6]
      (w.drop 1 ++ [shaNext w]) ks

/-- Words of a block, most significant byte first. -/
def beWords (l : List Nat) : List Nat := (List.range 16).map (fun i => beNat ((l.drop (4 * i)).take 4))

/-- Blocks of SHA-256; n bounds their number. -/
def shaBlocks (h : List Nat) : Nat → List Nat → List Nat
  | 0, _ => h
  | n + 1, m =>
    let r := shaRounds h (beWords (m.take 64)) (shaK0 ++ shaK1 ++ shaK2 ++ shaK3)
    shaBlocks (List.zipWith (fun a b => (a + b) % 2 ^ 32) h r) n (m.drop 64)

/-- SHA-256 of bytes, as a number of 256 bits. -/
def sha256 (m : List Nat) : Nat :=
  let z := (119 - m.length % 64) % 64
  let pad := m ++ [0x80] ++ List.replicate z 0 ++ (List.range 8).map (fun i => 8 * m.length / 256 ^ (7 - i) % 256)
  (shaBlocks [0x6a09e667, 0xbb67ae85, 0x3c6ef372, 0xa54ff53a, 0x510e527f, 0x9b05688c, 0x1f83d9ab, 0x5be0cd19]
    (pad.length / 64) pad).foldl (fun n w => 2 ^ 32 * n + w) 0

/-! ## ECDSA over P-256 -/

def p256p : Nat := 0xffffffff00000001000000000000000000000000ffffffffffffffffffffffff
def p256n : Nat := 0xffffffff00000000ffffffffffffffffbce6faada7179e84f3b9cac2fc632551
def p256b : Nat := 0x5ac635d8aa3a93e7b3ebbd55769886bc651d06b0cc53b0f63bce3c3e27d2604b
def p256gx : Nat := 0x6b17d1f2e12c4247f8bce6e563a440f277037d812deb33a0f4a13945d898c296
def p256gy : Nat := 0x4fe342e2fe1a7f9b8ee7eb4a7c0f9e162bce33576b315ececbb6406837bf51f5

/-- a to the power of the n low bits of e, modulo m. -/
def powMod (a m : Nat) : Nat → Nat → Nat
  | 0, _ => 1 % m
  | n + 1, e => let r := powMod (a * a % m) m n (e / 2); if e % 2 = 1 then a * r % m else r

/-- The inverse modulo a prime. -/
def invMod (a m : Nat) : Nat := powMod (a % m) m 256 (m - 2)

/-- A sum of points; none is the point at infinity. -/
def ecAdd (p q : Option (Nat × Nat)) : Option (Nat × Nat) :=
  match p, q with
  | none, q => q
  | p, none => p
  | some (x1, y1), some (x2, y2) =>
    if x1 = x2 ∧ (y1 + y2) % p256p = 0 then none
    else
      let l :=
        if x1 = x2 then (3 * x1 * x1 + (p256p - 3)) * invMod (2 * y1) p256p % p256p
        else (y2 + p256p - y1) * invMod (x2 + p256p - x1) p256p % p256p
      let x3 := (l * l + 2 * p256p - x1 - x2) % p256p
      some (x3, (l * (x1 + p256p - x3) + p256p - y1) % p256p)

/-- The multiple of a point by the n low bits of k. -/
def ecMul (p : Option (Nat × Nat)) : Nat → Nat → Option (Nat × Nat)
  | 0, _ => none
  | n + 1, k => let r := ecMul (ecAdd p p) n (k / 2); if k % 2 = 1 then ecAdd p r else r

/-- A signature (r, s) verifies for the hash h and the public key (x, y). -/
def ecdsaOk (h r s x y : Nat) : Bool :=
  let onCurve := decide (x < p256p) && decide (y < p256p)
    && decide (y * y % p256p = (x * x * x + (p256p - 3) * x + p256b) % p256p)
  if !onCurve || r == 0 || s == 0 || decide (p256n ≤ r) || decide (p256n ≤ s) then false
  else
    let w := invMod s p256n
    match ecAdd (ecMul (some (p256gx, p256gy)) 256 (h * w % p256n)) (ecMul (some (x, y)) 256 (r * w % p256n)) with
    | none => false
    | some (v, _) => v % p256n == r

/-- Bytes as numbers. -/
def natsOf (l : List Byte) : List Nat := l.map (fun b => b.toNat)

end Sys2Proof.Machine
end

