-- ==== Sys2Proof/Machine/Task.lean ====
section
/-! DEFINITION. Tasks (R176–R202): periodic and start releases, deadlines, delivery at grid points in the lane roles,
and the commands of the TASK block. -/

namespace Sys2Proof.Machine

/-! ## Releases of a tick (R180, R181, R184) -/

/-- Apply a function for i = 0 to n − 1 in turn. -/
def forN (n : Nat) (f : Nat → Device → Device) (d : Device) : Device :=
  match n with
  | 0 => d
  | k + 1 => f k (forN k f d)

/-- A tick, timer or start release: at once, or into the set of grid point 0 for a voted engine (R193). -/
def Device.tickRelease (d : Device) (e c : Nat) (r : Rel) : Device :=
  if d.voted e then { d with task := { d.task with boundarySet := d.task.boundarySet ++ [(16 * e + c, r)] } }
  else d.release e c r

/-- A context of KIND periodic that this boundary releases (R180). -/
def Device.periodicNow (d : Device) (e c : Nat) : Bool :=
  d.bit (Reg.TASK_CFG_EN e c) && d.fld (Reg.TASK_CFG_KIND e c) == 0 && decide (1 ≤ d.tickCount)
    && decide (d.tickCount % max 1 (d.fld (Reg.TASK_PER_PERIOD_N e c)) = d.fld (Reg.TASK_PER_PHASE e c))

/-- The periodic releases of this boundary. -/
def Device.periodicReleases (d : Device) : Device :=
  forN 24 (fun e => forN 16 (fun c d =>
    if d.periodicNow e c then d.tickRelease e c (d.mkRel e c 0 0 d.tick.boundaryTs none) else d)) d

/-- The start entry of an engine for the restart type that the loader decided (R181). -/
def Device.startEntry (d : Device) (e : Nat) : Option (Nat × Nat) :=
  let t := d.fld Reg.LDR_STAT_RTYPE
  if t = 0 ∧ d.bit (Reg.TASK_ENG_START_COLD_EN e) then some (3, d.fld (Reg.TASK_ENG_START_COLD_IDX e))
  else if t = 1 ∧ d.bit (Reg.TASK_ENG_START_WARM_EN e) then some (4, d.fld (Reg.TASK_ENG_START_WARM_IDX e))
  else if t = 2 ∧ d.bit (Reg.TASK_ENG_MIG_MIG_EN e) then some (5, d.fld (Reg.TASK_ENG_MIG_MIG_IDX e))
  else none

/-- The releases of the start tick: context 15 of each engine. -/
def Device.startReleases (d : Device) : Device :=
  forN 24 (fun e d =>
    match d.startEntry e with
    | some (kind, idx) => d.tickRelease e 15 (d.mkRel e 15 kind 0 d.tick.boundaryTs (some idx))
    | none => d) d

/-- A timer-expiry source takes effect with the periodic releases of its boundary (R184). -/
def Device.timerReleases (d : Device) : List Nat → Device
  | [] => d
  | src :: t =>
    let e := d.fld (Reg.TASK_ROUTE_ENG src)
    let c := d.fld (Reg.TASK_ROUTE_CTX src)
    let d1 :=
      if !d.bit (Reg.TASK_ROUTE_EN src) then d
      else if d.voted e then d.tickRelease e c (d.mkRel e c 1 src d.tick.boundaryTs none)
      else d.eventRelease e c src d.tick.boundaryTs
    d1.timerReleases t

/-- The release point of a tick: t_HOP. The releases of its boundary take effect, or wait for grid point 0. A lane in
READMIT takes none (R243). -/
def Device.releasePoint (d : Device) : Device :=
  let d0 : Device := { d with task := { d.task with boundarySet := [], timerFired := [] } }
  if d.isLane && d.fld Reg.TRI_LANE_STAT_STATE == lsReadmit then d0
  else if d.tickCount = 0 then d0.startReleases
  else
    let d1 : Device := { d0 with task := { d0.task with tick1 := true } }
    d1.periodicReleases.timerReleases d.task.timerFired

/-! ## Deadlines (R186–R188) -/

/-- Mark a release as overrun. -/
def Rel.overrun (r : Rel) : Rel := { r with late := true }

/-- A latched release is discarded with LATCH cleared (R187). -/
def Device.dropLatched (d : Device) (e c : Nat) : Device :=
  let d1 := d.setF (Reg.TASK_STAT_LATCH e c) 0
  { d1 with task := { d1.task with latched := sput noRel d1.task.latched (16 * e + c) none } }

/-- The reaction to an overrun of a latched release. -/
def Device.latchedReact (d : Device) (e c : Nat) : Device :=
  let react := d.fld (Reg.TASK_CFG_OVR_REACT e c)
  if react = 1 then
    let pc := d.fld (Reg.TASK_CFG_ENTRY e c)
    ((d.inc (Reg.TASK_CNT_ABORTED e c)).raiseFrom e c pc 0x0C6 [engCtx e c, wd pc]).dropLatched e c
  else if react = 2 ∨ react = 3 then d.stopReact e (react - 1)
  else d

/-- Count an overrun and signal it to the TICK block (R61, R187). -/
def Device.countOverrun (d : Device) (e c : Nat) : Device :=
  (((d.inc (Reg.TASK_CNT_OVR e c)).setF Reg.TICK_FLAGS_OVERRUN 1).inc Reg.TICK_ERR_CNT_OVR).raise 0x047 []

/-- The deadline of an instance passes (R186, R187): one with DL_KIND VOTE at the t_VOTE of its tick, one with REL at
the moment of the command (log 14); an instance overruns once. -/
def Device.deadline (d : Device) (e c : Nat) (ofLatched : Bool) : Device :=
  let r := if ofLatched then sget noRel d.task.latched (16 * e + c) else d.relOf e c
  match r with
  | none => d
  | some r =>
    let votes := r.due.isSome
    let passed := match r.due with
      | some t => decide (t ≤ d.tickCount)
      | none => d.fld (Reg.TASK_CFG_DL_KIND e c) == 1
    if r.late || !passed then d
    else
      let d1 := d.countOverrun e c
      let d2 : Device := if votes then d1.leaveUnended e c (some r) else d1
      let d3 : Device :=
        if ofLatched then { d2 with task := { d2.task with
          latched := sput noRel d2.task.latched (16 * e + c) (some r.overrun) } }
        else d2.setRel e c (some r.overrun)
      if d3.engState e = stHalted then
        { d3 with task := { d3.task with overdue := sput falseAt d3.task.overdue (16 * e + c) true } }
      else if ofLatched then d3.latchedReact e c
      else d3.overrunReact e c

def execDeadlineOverrun (e : Eng) (c : CtxNo) (ofLatched : Bool) (s : State) : Host.Outcome State Fault Refusal :=
  run (fun d => d.deadline e c ofLatched) s

/-! ## Delivery in the lane roles (R191–R195) -/

def noSample (_ : Nat) : Option GridSample := none
def noMark (_ : Nat) : Option Nat := none

/-- The 64-bit step count of an engine. -/
def Device.retired (d : Device) (e : Nat) : Nat :=
  (d.rd (Reg.TASK_ENG_RETIRED_HI e)).toNat * 2 ^ 32 + (d.rd (Reg.TASK_ENG_RETIRED_LO e)).toNat

/-- The lanes whose samples form the agreed set here: the lanes in VOTING, or the own lane alone. -/
def Device.gridLanes (d : Device) : List Nat :=
  let st := d.fld Reg.TRI_LANE_STAT_STATE
  if d.votesSelf || st == lsShadow || st == lsReadmit then d.votingLanes else [d.lane]

/-- The sample of a lane at this grid point. -/
def Device.sampleOf (d : Device) (lane : Nat) : Option GridSample :=
  if lane = d.lane then d.task.ownSample else sget noSample d.task.peerSample lane

/-- The number of lanes whose sample flags a source. -/
def countFlags (l : List (Option GridSample)) (src : Nat) : Nat :=
  (l.filter (fun x => match x with
    | some g => g.flags.contains src
    | none => false)).length

/-- The highest sampled step count of an engine. -/
def topCount (e : Nat) : List (Option GridSample) → Nat
  | [] => 0
  | none :: t => topCount e t
  | some g :: t =>
    max (((g.counts.filter (fun p => decide (p.1 = e))).map (fun p => p.2)).foldl max 0) (topCount e t)

/-- A lane's missed mark (R194): event 0x0C7 and exclusion as under LANE_FAULT; not in SHADOW (R263). -/
def Device.markMissed (d : Device) (e m : Nat) : Device :=
  if d.votesSelf then (d.raise 0x0C7 [wd e, wd m, d.rd (Reg.TASK_ENG_RETIRED_LO e)]).exclude d.lane 3 else d

/-- Form the agreed set and the marks of a grid point (R193 steps 3 to 5, R195). -/
def Device.formGrid (d : Device) : Device :=
  let samples := d.gridLanes.map (fun i => d.sampleOf i)
  let need := if d.gridLanes.length = 1 then 1 else 2
  let agreed := (List.range 256).filter (fun src => decide (need ≤ countFlags samples src))
  let late := agreed.filter (fun src => !d.task.flags.contains src)
  let d1 : Device := { d with task := { d.task with
    gridFormed := true, agreedSet := agreed,
    flags := d.task.flags.filter (fun f => !agreed.contains f),
    flagAge := skeep (fun f => !agreed.contains f) d.task.flagAge,
    ignore := late.foldl (fun m src => sput zeroAt m src 3) d.task.ignore } }
  forN 24 (fun e d =>
    if d.voted e then
      let m := topCount e samples + max 1040 (d.fld Reg.TASK_GRID_CFG_SLACK)
      let d2 : Device := { d with task := { d.task with mark := sput noMark d.task.mark e (some m) } }
      if m < d2.retired e then d2.markMissed e m else d2
    else d) d1

/-- The samples of every lane that takes part have arrived. -/
def Device.gridComplete (d : Device) : Bool :=
  d.gridLanes.all (fun i => (d.sampleOf i).isSome)

/-- A grid point (R193 steps 1 and 2): the own sample is taken and sent; flags that stay unagreed grow older. -/
def execGridPoint (j : Nat) (s : State) : Host.Outcome State Fault Refusal :=
  run (fun d =>
    if !d.isLane then d
    else
      let own : GridSample :=
        { flags := d.task.flags,
          counts := ((List.range 24).filter (fun e => d.voted e)).map (fun e => (e, d.retired e)) }
      let d1 : Device := { d with task := { d.task with
        gridPoint := j, gridFormed := false, ownSample := some own, peerSample := [], agreedSet := [], mark := [],
        boundarySet := if j = 0 then d.task.boundarySet else [],
        flagAge := d.task.flags.foldl (fun m f => sput zeroAt m f (sget zeroAt d.task.flagAge f + 1)) [],
        ignore := (d.task.ignore.map (fun p => (p.1, p.2 - 1))).filter (fun p => decide (p.2 ≠ 0)) } }
      let d2 := if d1.votesSelf then
          d1.ring pGRID (own.flags.map (fun f => BitVec.ofNat 8 f)
            ++ (own.counts.map (fun p => BitVec.ofNat 8 p.1 :: leBytes 8 p.2)).flatten)
        else d1
      if d2.gridComplete then d2.formGrid else d2) s

/-- Another lane's samples arrive (R193). -/
def execGridParcelReceived (port : Fin 3) (lane : Fin 3) (flags : List Nat) (counts : List (Nat × Nat)) (s : State) :
    Host.Outcome State Fault Refusal :=
  run (fun d =>
    if !d.isLane || lane.val == d.lane || port.val == 2 then d
    else
      let d := d.gotParcel port.val
      let d1 : Device := { d with task := { d.task with
        peerSample := sput noSample d.task.peerSample lane (some { flags := flags, counts := counts }) } }
      if d1.gridComplete && !d1.task.gridFormed && d1.task.ownSample.isSome then d1.formGrid else d1) s

/-- The release time of the sources of a grid point (R194). -/
def Device.gridTime (d : Device) : Nat :=
  d.tick.boundaryTs + (d.hopUs + 10 * d.task.gridPoint) * 1000

/-- Deliver the tick releases of grid point 0 to engine e. -/
def Device.deliverTick (d : Device) (e : Nat) : List (Nat × Rel) → Device
  | [] => d
  | (k, r) :: t => (if k / 16 = e then d.release e (k % 16) r else d).deliverTick e t

/-- Deliver the agreed sources to engine e, in index order. -/
def Device.deliverEvents (d : Device) (e : Nat) : List Nat → Device
  | [] => d
  | src :: t =>
    (if d.bit (Reg.TASK_ROUTE_EN src) ∧ d.fld (Reg.TASK_ROUTE_ENG src) = e then
        d.eventRelease e (d.fld (Reg.TASK_ROUTE_CTX src)) src d.gridTime else d).deliverEvents e t

/-- The agreed releases reach a voted engine at its mark, or at once on an idle engine below it (R194); a lane in
SHADOW that has passed the mark delivers at once (R263). -/
def execGridDelivery (e : Eng) (s : State) : Host.Outcome State Fault Refusal :=
  run (fun d =>
    match sget noMark d.task.mark e with
    | none => d
    | some m =>
      let n := d.retired e
      let shadow := d.fld Reg.TRI_LANE_STAT_STATE == lsShadow
      let done : Device := { d with task := { d.task with mark := sput noMark d.task.mark e none } }
      if n = m ∨ (n < m ∧ (d.pickCtx e 16).isNone) ∨ (m < n ∧ shadow) then
        (done.deliverTick e d.task.boundarySet).deliverEvents e d.task.agreedSet
      else if m < n then done.markMissed e m
      else d) s

/-- A flag that stayed outside the agreed set for 3 grid points is cleared (R195). -/
def execFlagUnagreed (src : Fin 256) (s : State) : Host.Outcome State Fault Refusal :=
  run (fun d =>
    if 3 ≤ sget zeroAt d.task.flagAge src ∧ d.task.flags.contains src.val then
      let lanes := (List.range 3).foldl (fun n i =>
        match d.sampleOf i with
        | some g => if g.flags.contains src.val then n + 2 ^ i else n
        | none => n) 0
      let d1 : Device := { d with task := { d.task with
        flags := d.task.flags.filter (fun f => decide (f ≠ src.val)),
        flagAge := sput zeroAt d.task.flagAge src 0 } }
      (d1.inc Reg.TASK_GRID_STAT_UNAGREED).raise 0x0C8 [wd src, wd lanes]
    else d) s

/-! ## Commands (R202) -/

def Device.cmdTaskClear (d : Device) (arg : Nat) : Device :=
  d.clearCmd portTASK arg (fun d =>
    (forN 24 (fun e => forN 16 (fun c d => (d.wr (Reg.TASK_CNT e c) 0).wr (Reg.TASK_MAXRUN e c) 0)) d).wr
      Reg.TASK_GRID_STAT 0)

/-- The block-state word of a TASK command: the state of the named context. -/
def Device.cmdTrigger (d : Device) (arg : Nat) : Device :=
  let e := arg / 256 % 32
  let c := arg % 16
  d.commandNow portTASK 2 arg (d.rd (Reg.TASK_STAT e c))
    ⟨decide (arg < 2 ^ 13) && decide (arg / 16 % 16 = 0) && decide (e ≤ 23), true,
     d.bit (Reg.TASK_CFG_EN e c) && d.fld (Reg.TASK_CFG_KIND e c) == 1 && d.engState e == stRun && d.task.tick1
       && !d.voted e⟩
    (fun d => d.release e c (d.mkRel e c 6 0 d.ts64 none))

def execTaskClearCounters (arg : BitVec 24) (s : State) : Host.Outcome State Fault Refusal :=
  run (fun d => d.cmdTaskClear arg.toNat) s
def execTrigger (arg : BitVec 24) (s : State) : Host.Outcome State Fault Refusal :=
  run (fun d => d.cmdTrigger arg.toNat) s

end Sys2Proof.Machine
end

