-- ==== Sys2Proof/Machine/Img.lean ====
section
/-! DEFINITION. Process images, copy lists, forcing and online change (R203–R231). -/

namespace Sys2Proof.Machine

/-! ## Inbound and outbound parts (R203) -/

/-- The length of the inbound part of an area. -/
def Device.inLen (d : Device) (ar : Nat) : Nat :=
  if ar = areaN then 1024 * d.fld Reg.IMG_SPLIT_N_IN
  else if ar = areaS then 1024 * d.fld Reg.IMG_SPLIT_S_IN
  else if ar = areaA then 1024 * d.fld Reg.IMG_SPLIT_A_IN
  else 0

/-- The ranges of the outbound parts: area base, first byte, length. -/
def Device.outParts (d : Device) : List (Nat × Nat) :=
  [areaQ, areaS, areaN, areaA].map (fun ar => (d.areaBase ar + d.inLen ar, d.areaSize ar - d.inLen ar))

/-- The area that a two-bit AREA code of a copy or hopper entry names: 0 N, 1 S, 2 A. -/
def netArea (k : Nat) : Nat := if k = 0 then areaN else if k = 1 then areaS else areaA

/-! ## Copy lists (R213) -/

/-- The length of copy entry i. -/
def Device.copyLen (d : Device) (i : Nat) : Nat :=
  let n := d.fld (Reg.IMG_COPYA_LEN i)
  if n = 0 then 4096 else n

/-- Write bytes into a byte map. -/
def mapPut (m : SMap Byte) (a : Nat) : List Byte → SMap Byte
  | [] => m
  | b :: t => mapPut (sput byte0 m a b) (a + 1) t

/-- n bytes of a byte map. -/
def mapGet (m : SMap Byte) (a n : Nat) : List Byte := (List.range n).map (fun i => sget byte0 m (a + i))

/-- The in-copies, in entry order: an uncorrectable read skips its entry. -/
def Device.inCopies (d : Device) : Device :=
  forN 64 (fun i d =>
    if d.bit (Reg.IMG_COPYA_EN i) ∧ ¬ d.bit (Reg.IMG_COPYA_DIR i) then
      let n := d.copyLen i
      match d.busRead 7 (d.areaBase (netArea (d.fld (Reg.IMG_COPYB_AREA i))) + d.fld (Reg.IMG_COPYB_AREA_OFF i)) n with
      | (some l, d1) => d1.setBytes (d1.areaBase areaI + d.fld (Reg.IMG_COPYA_LOC_OFF i)) l
      | (none, d1) => d1
    else d) d

/-- The out-copies, in entry order: from the frozen Q into the frozen outbound parts. -/
def Device.outCopies (d : Device) : Device :=
  forN 64 (fun i d =>
    if d.bit (Reg.IMG_COPYA_EN i) ∧ d.bit (Reg.IMG_COPYA_DIR i) then
      let n := d.copyLen i
      let src := d.areaBase areaQ + d.fld (Reg.IMG_COPYA_LOC_OFF i)
      match d.eccReads 7 0 (sharedKeys src n) with
      | (true, d1) =>
        let dst := d1.areaBase (netArea (d.fld (Reg.IMG_COPYB_AREA i))) + d.fld (Reg.IMG_COPYB_AREA_OFF i)
        { d1 with img := { d1.img with frozen := mapPut d1.img.frozen dst (mapGet d1.img.frozen src n) } }
      | (false, d1) => d1
    else d) d

/-! ## Freeze at t_VOTE (R54, R207, R215) -/

/-- The bytes that a force entry covers: first byte and length. -/
def Device.forceSpan (d : Device) (w0 : Word) : Nat × Nat :=
  let width := bitsOf w0 29 2
  let addr := bitsOf w0 0 21
  let base := d.areaBase (bitsOf w0 24 4)
  if width = 0 then (base + addr / 8, 1) else (base + addr, 2 ^ (width - 1))

/-- Bytes of a byte map replaced by what a reader sees, over the spans of the force table. -/
def Device.overlayMap (d : Device) (m : SMap Byte) : SMap (Option (Word × Word)) → SMap Byte
  | [] => m
  | (_, none) :: t => d.overlayMap m t
  | (_, some (w0, _)) :: t =>
    d.overlayMap (mapPut m (d.forceSpan w0).1 (d.seenBytes (d.forceSpan w0).1 (d.forceSpan w0).2)) t

/-- The parts of memory in a list of ranges. -/
def takeRanges (m : SMap Byte) : List (Nat × Nat) → SMap Byte
  | [] => []
  | (a, n) :: t => mergeMaps (takeRange m a n) (takeRanges m t)

/-- Freeze the outbound parts as read through the overlay, then run the out-copies. -/
def Device.freezeImages (d : Device) : Device :=
  let m := takeRanges (d.overlayMap d.mem d.img.force) d.outParts
  ({ d with img := { d.img with frozen := m } } : Device).outCopies

/-! ## The force table (R214–R220) -/

def noForce (_ : Nat) : Option (Word × Word) := none

/-- Word 0 and 1 of force entry i as in effect. -/
def Device.forceEntry (d : Device) (i : Nat) : Word × Word := (sget noForce d.img.force i).getD (0, 0)

/-- IMG_FORCE_CRC (R220): 0 for an empty table. -/
def forceCrc (f : SMap (Option (Word × Word))) : Word :=
  if f = [] then 0
  else
    crc32c ((List.range 1024).map (fun i =>
        let e := (sget noForce f i).getD (0, 0)
        leBytes 4 e.1.toNat ++ leBytes 4 e.2.toNat)).flatten
      ^^^ crc32c (List.replicate 8192 0)

/-- The status of the force table follows it: count, FORCE_LED, CRC. -/
def Device.forceStatus (d : Device) : Device :=
  ((d.setF Reg.IMG_STAT_FORCE_CNT d.img.force.length).setB Reg.IMG_STAT_FORCE_ACTIVE
    (decide (d.img.force ≠ []))).wr Reg.IMG_FORCE_CRC (forceCrc d.img.force)

/-- The bits of a force entry: first and last bit address in its area. -/
def forceBits (w0 : Word) : Nat × Nat :=
  let width := bitsOf w0 29 2
  let addr := bitsOf w0 0 21
  if width = 0 then (addr, addr) else (8 * addr, 8 * addr + 8 * 2 ^ (width - 1) - 1)

/-- Two entries force a common bit. -/
def forceOverlap (p q : Word) : Bool :=
  decide (bitsOf p 24 4 = bitsOf q 24 4) && decide ((forceBits p).1 ≤ (forceBits q).2)
    && decide ((forceBits q).1 ≤ (forceBits p).2)

/-- An entry overlaps an enabled entry other than entry i. -/
def forceClash (f : SMap (Option (Word × Word))) (i : Nat) (w0 : Word) : Bool :=
  f.any (fun e => decide (e.1 ≠ i) && match e.2 with
    | some (v0, _) => forceOverlap w0 v0
    | none => false)

/-- The entry in IMG_FORCE_ARG0 and ARG1 is one that FORCE_SET takes. -/
def Device.forceArgs (d : Device) : Bool :=
  let w0 := d.rd Reg.IMG_FORCE_ARG0
  let ar := bitsOf w0 24 4
  let width := bitsOf w0 29 2
  let addr := bitsOf w0 0 21
  w0.msb && (ar == areaI || ar == areaQ || ar == areaM || ar == areaN || ar == areaA)
    && (if width = 0 then decide (addr < 8 * d.areaSize ar)
        else decide (addr % 2 ^ (width - 1) = 0) && decide (addr + 2 ^ (width - 1) ≤ d.areaSize ar))
    && decide ((d.rd Reg.IMG_FORCE_ARG1).toNat < 2 ^ (if width = 0 then 1 else 8 * 2 ^ (width - 1)))

/-- Stage a force change of this device: the command stays BUSY (R216, R231). -/
def Device.stageForce (d : Device) (x : ForceChg) : Device :=
  let d1 := (d.beginCmd portIMG).setF Reg.IMG_STAT_FORCE_PEND 1
  { d1 with img := { d1.img with staged := d1.img.staged ++ [x], stagedOwn := true, stagedAge := 0,
                                 confirmed := false } }

/-- Every lane in VOTING reported a permission in the last vote exchange (R396). -/
def Device.permLanes (d : Device) (k : Nat) : Bool :=
  d.perm k && (!d.isLane || d.votingLanes.all (fun i => (sget zeroAt d.tri.lastPerm i).testBit k))

/-- One staged change takes effect. -/
def Device.applyForce (d : Device) : ForceChg → Device
  | .set i w0 w1 =>
    ({ d with img := { d.img with force := sput noForce d.img.force i (some (w0, w1)) } } : Device).raise 0x104
      [wd i, w0, w1]
  | .clear i =>
    match sget noForce d.img.force i with
    | some (w0, _) =>
      ({ d with img := { d.img with force := serase i d.img.force } } : Device).raise 0x105 [wd i, w0]
    | none => d
  | .clearAll cause =>
    ({ d with img := { d.img with force := [] } } : Device).raise 0x106 [wd cause]

/-- Staged changes in order. -/
def Device.applyForces (d : Device) : List ForceChg → Device
  | [] => d
  | x :: t => (d.applyForce x).applyForces t

/-- An old location of a relocation record as an entry's AREA and ADDR: area in [31:28], address in [20:0]. -/
def relocHit (w0 : Word) (old : Nat) : Bool :=
  decide (bitsOf w0 24 4 = old / 2 ^ 28) && decide (bitsOf w0 0 21 = old % 2 ^ 21)

/-- Word 0 moved to a new location. -/
def relocated (w0 : Word) (new : Nat) : Word := withBits (withBits w0 24 4 (new / 2 ^ 28)) 0 21 (new % 2 ^ 21)

/-- Relocate the entries of a table in index order; every record is compared with the table as it was (R227). -/
def Device.relocate (d : Device) (recs : List (Nat × Nat)) : SMap (Option (Word × Word)) → Device
  | [] => d
  | (i, some (w0, w1)) :: t =>
    let d1 :=
      match recs.find? (fun r => relocHit w0 r.1) with
      | none => d
      | some r =>
        let n := relocated w0 r.2
        if r.2 / 2 ^ 28 = 15 ∨ forceClash d.img.force i n then
          ({ d with img := { d.img with force := serase i d.img.force } } : Device).raise 0x10C [wd i, w0]
        else
          ({ d with img := { d.img with force := sput noForce d.img.force i (some (n, w1)) } } : Device).raise 0x10B
            [wd i, w0, n]
    d1.relocate recs t
  | (_, none) :: t => d.relocate recs t

/-- Step 3 of t_HOP (R207, R216, R226): relocation records and staged changes take effect, and a FORCE command ends. -/
def Device.forcesAtHop (d : Device) : Device :=
  let d0 := ({ d with img := { d.img with relocs := [] } } : Device).relocate d.img.relocs d.img.force
  if d0.img.staged = [] ∨ (d0.isLane ∧ !d0.img.confirmed) then d0.forceStatus
  else
    let own := d0.img.stagedOwn
    let d1 := ((d0.applyForces d0.img.staged).setF Reg.IMG_STAT_FORCE_PEND 0).forceStatus
    let d2 : Device := { d1 with img := { d1.img with staged := [], stagedOwn := false, confirmed := false } }
    if own then d2.finishCmd portIMG 0 else d2

/-- The block-state word of an IMG command. -/
def Device.imgState (d : Device) : Word := d.rd Reg.IMG_OLC_STAT

def Device.cmdForceSet (d : Device) (arg : Nat) : Device :=
  let w0 := d.rd Reg.IMG_FORCE_ARG0
  d.command portIMG 1 arg d.imgState
    ⟨decide (arg < 1024) && d.forceArgs, d.permLanes permForce, !forceClash d.img.force arg w0⟩
    (fun d => d.stageForce (.set arg w0 (d.rd Reg.IMG_FORCE_ARG1)))

def Device.cmdForceClear (d : Device) (arg : Nat) : Device :=
  d.command portIMG 2 arg d.imgState ⟨decide (arg < 1024), true, true⟩ (fun d =>
    if (sget noForce d.img.force arg).isSome then d.stageForce (.clear arg) else d.endCmd portIMG 0)

def Device.cmdForceClearAll (d : Device) (arg : Nat) : Device :=
  d.command portIMG 3 arg d.imgState ⟨arg == 0, true, true⟩ (fun d => d.stageForce (.clearAll 0))

/-- The lanes have not confirmed within 4 ticks: no lane applies the change, code 6 (R216). -/
def execForceConfirmTimeout (s : State) : Host.Outcome State Fault Refusal :=
  run (fun d =>
    if d.isLane ∧ d.img.staged ≠ [] ∧ !d.img.confirmed ∧ 4 ≤ d.img.stagedAge then
      let own := d.img.stagedOwn
      let d1 : Device := { d with img := { d.img with staged := [], stagedOwn := false, stagedAge := 0 } }
      let d2 := d1.setF Reg.IMG_STAT_FORCE_PEND 0
      if own then d2.finishCmd portIMG 6 else d2
    else if d.isLane ∧ d.sc.stage.isSome ∧ 4 ≤ d.sc.stageAge then
      let d1 : Device := { d with sc := { d.sc with stage := none, stageOwn := false, stageAge := 0 } }
      if d.sc.stageOwn then d1.finishCmd portSC 6 else d1
    else d) s

def execForceSet (arg : BitVec 24) (s : State) : Host.Outcome State Fault Refusal :=
  run (fun d => d.cmdForceSet arg.toNat) s
def execForceClear (arg : BitVec 24) (s : State) : Host.Outcome State Fault Refusal :=
  run (fun d => d.cmdForceClear arg.toNat) s
def execForceClearAll (arg : BitVec 24) (s : State) : Host.Outcome State Fault Refusal :=
  run (fun d => d.cmdForceClearAll arg.toNat) s

/-! ## Online change (R221–R228) -/

def olcIdle : Nat := 0
def olcLoading : Nat := 1
def olcLoaded : Nat := 2
def olcArmed : Nat := 3
def olcDraining : Nat := 4

def Device.olcState (d : Device) : Nat := d.fld Reg.IMG_OLC_STAT_STATE

def Device.cmdOlcLoad (d : Device) (arg : Nat) : Device :=
  d.command portIMG 4 arg d.imgState
    ⟨arg == 0 && decide ((d.rd Reg.IMG_OLC_SRC).toNat % 4 = 0), d.permLanes permOlc,
     d.olcState == olcIdle || d.olcState == olcLoaded⟩
    (fun d => (d.beginCmd portIMG).setF Reg.IMG_OLC_STAT_STATE olcLoading)

/-- The target of OLC_ARM. -/
def Device.olcTarget (d : Device) : Nat :=
  (d.rd Reg.IMG_OLC_TICK_HI).toNat * 2 ^ 32 + (d.rd Reg.IMG_OLC_TICK_LO).toNat

def Device.cmdOlcArm (d : Device) (arg : Nat) : Device :=
  d.commandNow portIMG 5 arg d.imgState
    ⟨arg == 0 && decide (d.tickCount + (if d.isLane then 4 else 2) ≤ d.olcTarget), d.permLanes permOlc,
     d.olcState == olcLoaded⟩
    (fun d =>
      ({ d with img := { d.img with olc := d.img.olc.map (fun o => { o with target := d.olcTarget, agreed := false }) } }
        : Device).setF Reg.IMG_OLC_STAT_STATE olcArmed)

def Device.cmdOlcDisarm (d : Device) (arg : Nat) : Device :=
  d.commandNow portIMG 6 arg d.imgState ⟨arg == 0, true, d.olcState == olcArmed⟩
    (fun d => d.setF Reg.IMG_OLC_STAT_STATE olcLoaded)

/-- A little-endian number inside a list of bytes. -/
def numAt (l : List Byte) (off n : Nat) : Nat := leNat ((l.drop off).take n)

/-- The descriptors of masked engines: code and entry table lie within the package. -/
def olcDescOk (l : List Byte) (mask len : Nat) (e : Nat) : Bool :=
  if mask.testBit e then
    let o := 24 + 16 * e
    let code := numAt l o 4
    let clen := numAt l (o + 4) 4
    let tab := numAt l (o + 8) 4
    decide (clen % 4 = 0) && decide (clen ≤ 131072) && decide (code + clen + 4 ≤ len) && decide (tab + 36 ≤ len)
      && decide (numAt l (o + 12) 4 = 0)
  else true

/-- The REASON that a package is refused with, in the order of the codes (R222, R223); 0 for none. -/
def Device.olcReason (d : Device) (l : List Byte) (len : Nat) : Nat :=
  let mask := numAt l 12 4
  if numAt l 0 4 ≠ 0x314C4F43 ∨ len < 412 + 8 * numAt l 16 2 ∨ 256 < numAt l 16 2 ∨ l.length ≠ len then 1
  else if crc32c (l.take (len - 4)) ≠ wd (numAt l (len - 4) 4) then 2
  else if wd (numAt l 4 4) ≠ d.rd Reg.LDR_BUNDLE_ID then 3
  else if numAt l 8 2 ≤ d.fld Reg.IMG_OLC_STAT_CHANGE_NO then 4
  else if numAt l 10 2 ≠ d.fld Reg.LDR_RET_VER_RET_VER then 5
  else if 2 ^ 24 ≤ mask ∨ !((List.range 24).all (olcDescOk l mask len)) then 6
  else if d.bit Reg.LDR_STAT_SIG_REQ then 7
  else 0

/-- Program words from bytes. -/
def bytesToWords : Nat → List Byte → List Word
  | 0, _ => []
  | n + 1, l => wd (leNat (l.take 4)) :: bytesToWords n (l.drop 4)

/-- Write words into a word map, leaving out zeros. -/
def wordsPut (m : SMap Word) (k : Nat) : List Word → SMap Word
  | [] => m
  | w :: t => wordsPut (sput (fun _ => 0) m k w) (k + 1) t

/-- Load a program bank: the words given, the rest 0 (R114); errors in it are gone. -/
def Device.loadBank (d : Device) (e bank : Nat) (ws : List Word) : Device :=
  let base := (2 * e + bank) * 32768
  let keep := skeep (fun k => decide (k < base) || decide (base + 32768 ≤ k)) d.prog
  { d with
    prog := wordsPut keep base ws,
    ce := { d.ce with ecc := skeep (fun k =>
      decide (k < eccProg e bank 0) || decide (eccProg e bank 0 + 32768 ≤ k)) d.ce.ecc } }

/-- Load the non-current bank of each masked engine. -/
def Device.olcBanks (d : Device) (l : List Byte) : Device :=
  forN 24 (fun e d =>
    if (numAt l 12 4).testBit e then
      let o := 24 + 16 * e
      let n := numAt l (o + 4) 4 / 4
      d.loadBank e (1 - d.bank e) (bytesToWords n (l.drop (numAt l o 4)))
    else d) d

/-- The new ENTRY fields of the masked engines. -/
def olcEntries (l : List Byte) : List (Nat × Nat) :=
  ((List.range 384).filter (fun k => (numAt l 12 4).testBit (k / 16))).filterMap (fun k =>
    let v := numAt l (numAt l (24 + 16 * (k / 16) + 8) 4 + 2 * (k % 16)) 2
    if v.testBit 15 then some (k, v % 32768) else none)

/-- The relocation records. -/
def olcReloc (l : List Byte) : List (Nat × Nat) :=
  (List.range (numAt l 16 2)).map (fun i => (numAt l (408 + 8 * i) 4, numAt l (412 + 8 * i) 4))

/-- The load of OLC_LOAD ends (R223): the checks in the order of REASON, then the banks and event 0x108. An
uncorrectable read of the package counts as a CRC failure (log 16). -/
def execOlcLoadDone (s : State) : Host.Outcome State Fault Refusal :=
  run (fun d =>
    if d.olcState ≠ olcLoading then d
    else
      let src := (d.rd Reg.IMG_OLC_SRC).toNat % 2 ^ 23
      let back := if d.img.olc.isSome then olcLoaded else olcIdle
      let len := leNat (d.seenBytes (src + 20) 4)
      let n := if src + len ≤ 0x800000 then len else 0
      let r := d.busRead 7 src n
      let reason := match r.1 with
        | some l => r.2.olcReason l len
        | none => 2
      let d1 := r.2.setF Reg.IMG_OLC_STAT_REASON reason
      if reason = 0 then
        let l := r.1.getD []
        let o : Olc := { mask := numAt l 12 4, number := numAt l 8 2, crc := wd (numAt l (len - 4) 4), target := 0,
                         entries := olcEntries l, reloc := olcReloc l, agreed := false }
        let d2 := (d1.olcBanks l).setF Reg.IMG_OLC_STAT_STATE olcLoaded
        (({ d2 with img := { d2.img with olc := some o } } : Device).raise 0x108 [wd o.number, wd o.mask]).finishCmd
          portIMG 0
      else
        (d1.setF Reg.IMG_OLC_STAT_STATE back).finishCmd portIMG
          (if reason = 1 ∨ reason = 2 ∨ reason = 6 then 2 else 3)) s

/-- New ENTRY fields are the device's own update (R226). -/
def Device.setEntries (d : Device) : List (Nat × Nat) → Device
  | [] => d
  | (k, v) :: t => (d.setF (Reg.TASK_CFG_ENTRY (k / 16) (k % 16)) v).setEntries t

/-- The swap at the target boundary (R226); in the lane roles the lanes have agreed to it (R225). -/
def execOlcSwap (s : State) : Host.Outcome State Fault Refusal :=
  run (fun d =>
    match d.img.olc with
    | none => d
    | some o =>
      if d.olcState ≠ olcArmed ∨ d.tickCount ≠ o.target ∨ (d.isLane ∧ !o.agreed) then d
      else
        let d1 := (d.setF Reg.IMG_BANK_CUR (d.fld Reg.IMG_BANK_CUR ^^^ o.mask)).setEntries o.entries
        let d2 := (d1.setF Reg.IMG_OLC_STAT_CHANGE_NO o.number).setF Reg.IMG_OLC_STAT_STATE olcDraining
        ({ d2 with img := { d2.img with relocs := o.reloc } } : Device).raise 0x109
          [wd o.number, wd o.mask, wd (d.tickCount % 2 ^ 32)]) s

/-- Engine e holds a PC or call-stack entry in its old bank while draining (IMG_OLC_DRAIN). -/
def Device.draining (d : Device) (e : Nat) : Bool :=
  match d.img.olc with
  | some o => d.olcState == olcDraining && o.mask.testBit e
      && (List.range 16).any (fun c => d.ctxState e c == 2 && (d.ctx e c).inBank (1 - d.bank e))
  | none => false

/-- The old banks are drained (R226): IDLE, event 0x10E. -/
def execOlcDrained (s : State) : Host.Outcome State Fault Refusal :=
  run (fun d =>
    match d.img.olc with
    | none => d
    | some o =>
      if d.olcState ≠ olcDraining ∨ (List.range 24).any (fun e => d.draining e) then d
      else
        (({ d with img := { d.img with olc := none } } : Device).setF Reg.IMG_OLC_STAT_STATE olcIdle).raise 0x10E
          [wd o.mask]) s

def execOlcLoad (arg : BitVec 24) (s : State) : Host.Outcome State Fault Refusal :=
  run (fun d => d.cmdOlcLoad arg.toNat) s
def execOlcArm (arg : BitVec 24) (s : State) : Host.Outcome State Fault Refusal :=
  run (fun d => d.cmdOlcArm arg.toNat) s
def execOlcDisarm (arg : BitVec 24) (s : State) : Host.Outcome State Fault Refusal :=
  run (fun d => d.cmdOlcDisarm arg.toNat) s

end Sys2Proof.Machine
end

