-- ==== Sys2Proof/Machine/Sc.lean ====
section
/-! DEFINITION. Safe containers (R357–R376): forming, verifying and judging containers, the key store and the
commands of SC. -/

namespace Sys2Proof.Machine

/-! ## Connections and containers (R357–R359) -/

def scOK : Nat := 0
def scSTALE : Nat := 1
def scLOST : Nat := 2
def scFAULT : Nat := 3

/-- An enabled connection that sends. -/
def Device.scTx (d : Device) (n : Nat) : Bool := d.bit (Reg.SC_CONN_W1_EN n) && d.bit (Reg.SC_CONN_W1_TX n)

/-- An enabled connection that receives. -/
def Device.scRx (d : Device) (n : Nat) : Bool := d.bit (Reg.SC_CONN_W1_EN n) && !d.bit (Reg.SC_CONN_W1_TX n)

/-- The length of a connection's container in bytes (R357). -/
def Device.scLen (d : Device) (n : Nat) : Nat :=
  20 + 4 * d.fld (Reg.SC_CONN_W1_LEN_W n) + (if d.bit (Reg.SC_CONN_W1_AUTH n) then 8 else 0)

/-- CODE over the header and payload of a connection's container (R358). -/
def Device.scCode (d : Device) (n : Nat) (l : List Byte) : Nat :=
  crcM 32 0x741B8CD7 (d.fld (Reg.SC_CONN_W0_CONN_ID n) ^^^ (d.fld (Reg.SC_CONN_W1_DBIT n) * 0x80000000)) (byteBits l)

def key0 (_ : Nat) : List Byte := List.replicate 16 0

/-- TAG over header, payload and CODE (R359). -/
def Device.scTag (d : Device) (n : Nat) (l : List Byte) : List Byte :=
  ((cmac (natsOf (sget key0 d.sc.keys (d.fld (Reg.SC_CONN_W1_KEY_IDX n)))) (natsOf l)).take 8).map
    (fun b => BitVec.ofNat 8 b)

/-- The verification result of a container's bytes (R367): 0, or the first failing check. -/
def Device.scVerify (d : Device) (n : Nat) (l : List Byte) : Nat :=
  let k := 16 + 4 * d.fld (Reg.SC_CONN_W1_LEN_W n)
  let auth := d.fld (Reg.SC_CONN_W1_AUTH n)
  if numAt l 0 4 ≠ d.fld (Reg.SC_CONN_W0_CONN_ID n) ∨ numAt l 12 1 ≠ d.fld (Reg.SC_CONN_W1_LEN_W n)
      ∨ numAt l 13 1 ≠ 0x10 + auth ∨ numAt l 14 2 ≠ 0 then 1
  else if numAt l k 4 ≠ d.scCode n (l.take k) then 2
  else if auth = 1 ∧ ((l.drop (k + 4)).take 8) ≠ d.scTag n (l.take (k + 4)) then 3
  else 0

def noRes (_ : Nat) : Option Nat := none

/-- Verify the containers whose range lies in a received buffer at byte `off` of N (R367). -/
def Device.scFrame (d : Device) (off : Nat) (buf : List Byte) : Device :=
  forN 256 (fun n d =>
    let o := d.fld (Reg.SC_CONN_W2_N_OFF n)
    if d.scRx n ∧ off ≤ o ∧ o + d.scLen n ≤ off + buf.length then
      { d with sc := { d.sc with
        pend := sput noRes d.sc.pend n (some (d.scVerify n ((buf.drop (o - off)).take (d.scLen n)))) } }
    else d) d

/-- At the P0 latch the verification results follow their frames. -/
def Device.scLatch (d : Device) : Device :=
  { d with sc := { d.sc with
    raw := d.sc.pend.foldl (fun m p => sput noRes m p.1 p.2) d.sc.raw
    pend := [] } }

/-! ## Sending (R364–R366, R371) -/

/-- 1oo1 service in a lane role. -/
def Device.solo (d : Device) : Bool := d.isLane && d.fld Reg.TRI_LANE_STAT_SERVICE == 1

/-- A TX connection is due at this t_VOTE. -/
def Device.scDue (d : Device) (n : Nat) : Bool :=
  d.scTx n && decide (d.tickCount % d.atLeast1 (Reg.SC_CONN_W1_SEND_N n) = 0)
    && !((sget byte0 d.img.frozen (d.areaBase areaS + d.fld (Reg.SC_CONN_W3_S_OFF n))).toNat.testBit 0)
    && !(d.solo && d.bit (Reg.SC_CONN_W1_SAFETY n))

/-- The bytes of the next container of a connection. -/
def Device.scBytes (d : Device) (n : Nat) : List Byte :=
  let len := d.fld (Reg.SC_CONN_W1_LEN_W n)
  let auth := d.fld (Reg.SC_CONN_W1_AUTH n)
  let body := leBytes 4 (d.fld (Reg.SC_CONN_W0_CONN_ID n)) ++ leBytes 4 ((d.fld (Reg.SC_CONN_W6_SEQ n) + 1) % 2 ^ 32)
    ++ leBytes 4 d.tick.tickUs ++ [BitVec.ofNat 8 len, BitVec.ofNat 8 (0x10 + auth), 0, 0]
    ++ mapGet d.img.frozen (d.areaBase areaS + d.fld (Reg.SC_CONN_W3_S_OFF n) + 4) (4 * len)
  let coded := body ++ leBytes 4 (d.scCode n body)
  if auth = 1 then coded ++ d.scTag n coded else coded

/-- Form one container into the frozen N image. -/
def Device.scForm (d : Device) (n : Nat) : Device :=
  let d1 := (d.incMod (Reg.SC_CONN_W6_SEQ n)).incMod (Reg.SC_CONN_W7_COUNT n)
  { d1 with
    img := { d1.img with frozen := mapPut d1.img.frozen (d.areaBase areaN + d.fld (Reg.SC_CONN_W2_N_OFF n)) (d.scBytes n) }
    sc := { d1.sc with formed := d1.sc.formed ++ [n] } }

/-- Form every due container, in index order. -/
def Device.scFormAll (d : Device) : Device :=
  forN 256 (fun n d => if d.scDue n then d.scForm n else d)
    { d with sc := { d.sc with formed := [] } }

/-- Read the acknowledge bitmap from the frozen image at a ready t_VOTE (R370). -/
def Device.scAckRead (d : Device) : Device :=
  if !d.bit Reg.SC_CFG_ACK_EN then d
  else
    forN 256 (fun n d =>
      let now := (sget byte0 d.img.frozen (d.areaBase areaS + d.fld Reg.SC_CFG_ACK_OFF + n / 8)).toNat.testBit (n % 8)
      let req := d.bit (Reg.SC_CONN_W5_ACK_REQ n)
      let d1 := if now && req && sget falseAt d.sc.ackLow n && sget falseAt d.sc.ackReq n
        then d.setF (Reg.SC_CONN_W5_ACK_GIVEN n) 1 else d
      { d1 with sc := { d1.sc with ackLow := sput falseAt d1.sc.ackLow n (!now)
                                   ackReq := sput falseAt d1.sc.ackReq n req } }) d

/-! ## Receiving (R368, R369) -/

def noBytes (_ : Nat) : List Byte := []

/-- A connection takes a state: event 0x244. -/
def Device.scTo (d : Device) (n st : Nat) : Device :=
  let old := d.fld (Reg.SC_CONN_W5_STATE n)
  if old = st then d
  else (d.setF (Reg.SC_CONN_W5_STATE n) st).raise 0x244
    [wd n, wd old, wd st, wd (d.fld (Reg.SC_CONN_W5_LAST_ERR n))]

/-- RUN, ACK_REQ and ACK_GIVEN return to 0. -/
def Device.scNoRun (d : Device) (n : Nat) : Device :=
  ((d.setF (Reg.SC_CONN_W5_RUN n) 0).setF (Reg.SC_CONN_W5_ACK_REQ n) 0).setF (Reg.SC_CONN_W5_ACK_GIVEN n) 0

/-- The age of a stamp in µs. -/
def Device.scAge (d : Device) (c : List Byte) : Word := wd d.tick.tickUs - wd (numAt c 8 4)

/-- deliver(c): the payload, its age, and NEW for this t_HOP. -/
def Device.scDeliver (d : Device) (n : Nat) (c : List Byte) : Device :=
  { d with sc := { d.sc with
    payload := sput noBytes d.sc.payload n ((c.drop 16).take (4 * d.fld (Reg.SC_CONN_W1_LEN_W n)))
    ageUs := sput zeroAt d.sc.ageUs n (d.scAge c).toNat
    fresh := n :: d.sc.fresh } }

/-- A passing container. -/
def Device.scPass (d : Device) (n : Nat) (c : List Byte) : Device :=
  let d1 := ((((d.setF (Reg.SC_CONN_W6_SEQ n) (numAt c 4 4)).setF (Reg.SC_CONN_W5_TICKS n) 0).setF
    (Reg.SC_CONN_W5_ERR_CONSEC n) 0)).incMod (Reg.SC_CONN_W7_COUNT n)
  let st := d1.fld (Reg.SC_CONN_W5_STATE n)
  if st ≤ scSTALE then (d1.scDeliver n c).scTo n scOK
  else
    let run := min (d1.fld (Reg.SC_CONN_W5_RUN n) + 1) 15
    let d2 := d1.setF (Reg.SC_CONN_W5_RUN n) run
    let given := d2.bit (Reg.SC_CONN_W5_ACK_GIVEN n)
    if d2.atLeast1 (Reg.SC_CONN_W3_REINT_N n) ≤ run then
      if st = scLOST ∨ !d2.bit (Reg.SC_CONN_W1_SAFETY n) ∨ given then
        let d3 := (((d2.scDeliver n c).scTo n scOK).scNoRun n)
        if st = scFAULT ∧ given then d3.raise 0x247 [wd n, wd (numAt c 4 4)] else d3
      else d2.setF (Reg.SC_CONN_W5_ACK_REQ n) 1
    else d2

/-- A failing container. -/
def Device.scFail (d : Device) (n err : Nat) (c : List Byte) : Device :=
  let d1 := ((d.setF (Reg.SC_CONN_W5_LAST_ERR n) err).setF (Reg.SC_CONN_W5_ERR_CONSEC n)
    (min (d.fld (Reg.SC_CONN_W5_ERR_CONSEC n) + 1) 15)).scNoRun n
  let d2 := (d1.inc (Reg.SC_CONN_W7_FAILED n)).inc
    (if err = 1 then Reg.SC_CNT_IDENT else if err = 2 then Reg.SC_CNT_CODE else if err = 3 then Reg.SC_CNT_TAG
     else Reg.SC_CNT_SEQ_AGE)
  let d3 := if err = 3 then d2.raise 0x246 [wd n, wd (numAt c 4 4)]
    else d2.raise 0x245 [wd n, wd err, wd (numAt c 4 4)]
  if err = 3 ∨ d3.atLeast1 (Reg.SC_CONN_W3_ERR_LIMIT n) ≤ d3.fld (Reg.SC_CONN_W5_ERR_CONSEC n) then d3.scTo n scFAULT
  else d3

/-- The judgement of a fresh container: none for a repeat of the last passing one, else 0 or the failure code. -/
def Device.scJudge (d : Device) (n v : Nat) (c : List Byte) : Option Nat :=
  let dseq := (wd (numAt c 4 4) - wd (d.fld (Reg.SC_CONN_W6_SEQ n))).toNat
  let age := (d.scAge c).toInt
  if v ≠ 0 then some v
  else if dseq = 0 then none
  else if d.atLeast1 (Reg.SC_CONN_W4_MAX_GAP n) < dseq
      ∧ ¬ (scLOST ≤ d.fld (Reg.SC_CONN_W5_STATE n) ∧ d.fld (Reg.SC_CONN_W5_RUN n) = 0) then some 4
  else if d.bit (Reg.SC_CONN_W1_TIME_CHK n)
      ∧ ((d.fld Reg.TB_STAT_STATE ≠ 2 ∧ d.fld Reg.TB_STAT_STATE ≠ 3) ∨ age < 0
        ∨ (10 * d.fld (Reg.SC_CONN_W4_MAX_AGE_10US n) : Nat) < age) then some 5
  else some 0

/-- An OK connection at EXP_N ticks becomes STALE. -/
def Device.scStale (d : Device) (n : Nat) : Device :=
  if d.fld (Reg.SC_CONN_W5_STATE n) = scOK ∧ d.atLeast1 (Reg.SC_CONN_W1_SEND_N n) ≤ d.fld (Reg.SC_CONN_W5_TICKS n) then
    d.scTo n scSTALE
  else d

/-- The watchdog WD_MS. -/
def Device.scWatch (d : Device) (n : Nat) : Device :=
  if d.fld (Reg.SC_CONN_W4_WD_MS n) * 1000 < d.fld (Reg.SC_CONN_W5_TICKS n) * d.periodUs then
    (if d.fld (Reg.SC_CONN_W5_STATE n) ≤ scSTALE then d.scTo n scLOST else d).scNoRun n
  else d

/-- R368 for one RX connection, with the container in N and its verification result; none: no new container. -/
def Device.scProcess (d : Device) (n : Nat) (c : List Byte) (v : Option Nat) : Device :=
  let code := wd (numAt c (16 + 4 * d.fld (Reg.SC_CONN_W1_LEN_W n)) 4)
  let fresh := v.isSome && code != sget (fun _ => 0) d.sc.lastCode n
  let d1 : Device := if fresh then { d with sc := { d.sc with lastCode := sput (fun _ => 0) d.sc.lastCode n code } } else d
  let j := if fresh then d1.scJudge n (v.getD 0) c else none
  let d2 := match j with
    | some 0 => d1.scPass n c
    | some e => d1.scFail n e c
    | none => d1
  let d3 := if j = some 0 then d2 else d2.inc (Reg.SC_CONN_W5_TICKS n)
  (d3.scStale n).scWatch n

/-- The payload that the S block shows while the connection is substituted (R369, R371). -/
def Device.scSubst (d : Device) (n : Nat) : Device :=
  let hold := d.bit (Reg.SC_CONN_W5_SAFE_HOLD n)
  let len := 4 * d.fld (Reg.SC_CONN_W1_LEN_W n)
  let sel := d.fld (Reg.SC_CONN_W1_SUBST n)
  let sel1 := if hold ∧ sel = 0 then 1 else sel
  if (scLOST ≤ d.fld (Reg.SC_CONN_W5_STATE n) ∨ hold) ∧ (sel1 = 1 ∨ sel1 = 2) then
    let p := if sel1 = 1 then List.replicate len 0 else d.bytes (d.fld Reg.SC_SUBST_BASE_BASE + 256 * n) len
    { d with sc := { d.sc with payload := sput noBytes d.sc.payload n p } }
  else d

/-- Write the S block of a connection (R369). -/
def Device.scBlock (d : Device) (n : Nat) : Device :=
  let d1 := d.scSubst n
  let len := 4 * d1.fld (Reg.SC_CONN_W1_LEN_W n)
  let new := b2n (d1.sc.fresh.contains n)
  let st := d1.fld (Reg.SC_CONN_W5_STATE n) * 2 ^ 30 + d1.fld (Reg.SC_CONN_W5_ACK_REQ n) * 2 ^ 29
    + d1.fld (Reg.SC_CONN_W5_SAFE_HOLD n) * 2 ^ 28 + new * 2 ^ 27 + d1.fld (Reg.SC_CONN_W5_TICKS n)
  let p := sget noBytes d1.sc.payload n
  d1.setBytes (d1.areaBase areaS + d1.fld (Reg.SC_CONN_W3_S_OFF n))
    (leBytes 4 st ++ leBytes 4 (sget zeroAt d1.sc.ageUs n) ++ p ++ List.replicate (len - p.length) 0)

/-- SAFE_HOLD of a connection follows the service (R371). -/
def Device.scHold (d : Device) (n : Nat) : Device :=
  if d.solo ∧ d.bit (Reg.SC_CONN_W1_SAFETY n) then d.setF (Reg.SC_CONN_W5_SAFE_HOLD n) 1
  else if 2 ≤ d.fld Reg.TRI_LANE_STAT_SERVICE then d.setF (Reg.SC_CONN_W5_SAFE_HOLD n) 0
  else d

/-- The number of enabled connections with a property. -/
def countConn (p : Nat → Bool) : Nat := ((List.range 256).filter p).length

/-- SC_STAT and SC_ACKREQ follow the contexts. -/
def Device.scStatus (d : Device) : Device :=
  let cnt := fun st => countConn (fun n => d.scRx n && d.fld (Reg.SC_CONN_W5_STATE n) == st)
  forN 8 (fun i d =>
    d.wr (Reg.SC_ACKREQ i) (wd ((List.range 32).foldl (fun a b =>
      if d.bit (Reg.SC_CONN_W5_ACK_REQ (32 * i + b)) then a + 2 ^ b else a) 0)))
    (((d.setF Reg.SC_STAT_N_STALE (cnt scSTALE)).setF Reg.SC_STAT_N_LOST (cnt scLOST)).setF Reg.SC_STAT_N_FAULT
      (cnt scFAULT))

/-- Entry into 1oo1 service records event 0x249. -/
def Device.scSolo (d : Device) : Device :=
  let d1 : Device := { d with sc := { d.sc with solo := d.solo } }
  if d.solo ∧ !d.sc.solo then
    d1.raise 0x249 [wd (countConn (fun n => d.scTx n && d.bit (Reg.SC_CONN_W1_SAFETY n))),
      wd (countConn (fun n => d.scRx n && d.bit (Reg.SC_CONN_W1_SAFETY n)))]
  else d1

/-- The verification result in force for connection n at t_HOP: of its frame, or in the lane roles the agreed one. -/
def Device.scResult (d : Device) (n : Nat) (c : List Byte) : Option Nat :=
  if d.isLane then sget noRes d.sc.result n
  else some ((sget noRes d.sc.raw n).getD (d.scVerify n c))

/-- The SC step of t_HOP: every RX connection in index order, its S block, and the group sources (R368, R369). -/
def Device.scHop (d : Device) : Device :=
  let d0 : Device := ({ d with sc := { d.sc with fresh := [] } } : Device).scSolo
  let d1 := forN 256 (fun n d =>
    if d.scRx n then
      let c := d.bytes (d.areaBase areaN + d.fld (Reg.SC_CONN_W2_N_OFF n)) (d.scLen n)
      ((d.scHold n).scProcess n c (d.scResult n c)).scBlock n
    else d) d0
  let d2 := forN 32 (fun g d =>
    if d.sc.fresh.any (fun n => d.bit (Reg.SC_CONN_W1_EVT n) && d.fld (Reg.SC_CONN_W1_GROUP n) == g) then
      d.fire (0x60 + g)
    else d) d1
  d2.scStatus

def execScStale (n : Fin 256) (s : State) : Host.Outcome State Fault Refusal :=
  run (fun d => if d.scRx n then (d.scStale n).scStatus else d) s
def execScWatchdogLost (n : Fin 256) (s : State) : Host.Outcome State Fault Refusal :=
  run (fun d => if d.scRx n then (d.scWatch n).scStatus else d) s

/-! ## Key store and commands (R360, R361, R376) -/

/-- Write a key slot. -/
def Device.setKey (d : Device) (slot : Nat) (key : List Byte) : Device :=
  let d1 : Device := { d with sc := { d.sc with keys := sput key0 d.sc.keys slot key } }
  if slot < 32 then d1.setBitAt Reg.SC_KEY_VALID_0_VALID slot true
  else d1.setBitAt Reg.SC_KEY_VALID_1_VALID (slot - 32) true

/-- The key in SC_KEY_IN_0 to SC_KEY_IN_3. -/
def Device.keyIn (d : Device) : List Byte :=
  ((List.range 4).map (fun i => leBytes 4 (d.rd (Reg.SC_KEY_IN i)).toNat)).flatten

/-- The input words are cleared. -/
def Device.clearKeyIn (d : Device) : Device := forN 4 (fun i d => d.wr (Reg.SC_KEY_IN i) 0) d

/-- A staged key takes effect at t_HOP (R361); in the lane roles once the lanes have confirmed it. -/
def Device.keyAtHop (d : Device) : Device :=
  match d.sc.stage with
  | none => d
  | some (slot, key) =>
    if d.isLane ∧ !d.sc.stageOk then d
    else
      let d1 := (d.setKey slot key).raise 0x248 [wd slot]
      let d2 : Device := { d1 with sc := { d1.sc with stage := none, stageOwn := false, stageOk := false } }
      if d.sc.stageOwn then (d2.finishCmd portSC 0).clearKeyIn else d2

def Device.cmdScClear (d : Device) (arg : Nat) : Device :=
  d.clearCmd portSC arg (fun d =>
    forN 256 (fun n d => d.setF (Reg.SC_CONN_W7_FAILED n) 0) (d.wr Reg.SC_CNT 0))

def Device.cmdKeySet (d : Device) (arg : Nat) : Device :=
  d.command portSC 2 arg (d.rd Reg.SC_STAT) ⟨decide (arg < 64), d.permLanes permKey, true⟩
    (fun d =>
      { d.beginCmd portSC with sc := { d.sc with
        stage := some (arg, d.keyIn), stageOwn := true, stageOk := false, stageAge := 0 } })

def execScClearCounters (arg : BitVec 24) (s : State) : Host.Outcome State Fault Refusal :=
  run (fun d => d.cmdScClear arg.toNat) s
def execKeySet (arg : BitVec 24) (s : State) : Host.Outcome State Fault Refusal :=
  run (fun d => d.cmdKeySet arg.toNat) s

end Sys2Proof.Machine
end

