-- ==== Sys2Proof/Machine/Kl.lean ====
section
/-! DEFINITION. Kloul ports (R232–R239): bring-up, checks of the peer, acknowledgement and replay, and the commands of
KL. -/

namespace Sys2Proof.Machine

/-! ## Port states (R235) -/

def klDown : Nat := 0
def klTrain : Nat := 1
def klLock : Nat := 2
def klDeskew : Nat := 3
def klIdent : Nat := 4
def klCal : Nat := 5
def klMiswired : Nat := 7

def Device.klState (d : Device) (p : Nat) : Nat := d.fld (Reg.KL_STAT_STATE p)

/-- The lane at the far end of a ring port: K0 faces the next lane, K1 the previous one (R236). -/
def Device.peerLane (d : Device) (p : Nat) : Nat :=
  if !d.isLane ∨ p = 2 then d.lane else if p = 0 then (d.lane + 1) % 3 else (d.lane + 2) % 3

/-- The port that leads to another lane. -/
def Device.portTo (d : Device) (i : Nat) : Nat := if i = (d.lane + 1) % 3 then 0 else 1

/-- K2 in extended reach. -/
def Device.klXr (d : Device) (p : Nat) : Bool := decide (p = 2) && d.bit (Reg.KL_CFG_XR p)

/-- The channels that a port uses. -/
def Device.klChannels (d : Device) (p : Nat) : Nat := if d.klXr p then 1 else 15

/-- Readmission is abandoned (R265): the lane returns to SHADOW with event 0x14C. Reasons are the model's: 1 timeout,
2 no donor, 3 link lost, 4 activation (log 18). -/
def Device.abandonReadmit (d : Device) (reason : Nat) : Device :=
  if d.isLane ∧ d.fld Reg.TRI_LANE_STAT_STATE = lsReadmit then
    let d1 := d.raise 0x14C [wd d.lane, wd reason, d.rd Reg.TRI_RDM_STAT]
    let d2 := (d1.setF Reg.TRI_RDM_STAT_PHASE 0).setF Reg.TRI_RDM_STAT_KIB_LEFT 0
    ({ d2 with tri := { d2.tri with xfer := [], finals := [] } } : Device).toLane d.lane lsShadow
  else d

/-- A lost link (R238, R259, R265): a lane in 2oo3 service that loses both ring links excludes itself. -/
def Device.lostLink (d : Device) (p : Nat) : Device :=
  if d.isLane ∧ p < 2 then
    let d1 : Device := { d with tri := { d.tri with lost := p :: d.tri.lost.filter (fun q => decide (q ≠ p)) } }
    let d2 := if d1.votesSelf ∧ d1.votingLanes.length = 3 ∧ d1.tri.lost.length = 2 then d1.excludeSelf 7 else d1
    d2.abandonReadmit 3
  else d

/-- A port returns to step 1 of R235. -/
def Device.klRetrain (d : Device) (p : Nat) : Device :=
  let st := d.klState p
  if st = klDown ∨ st = klMiswired then d
  else
    let d1 := if st = klUp then
        (d.raise 0x145 [wd p, d.rd (Reg.KL_STAT p), d.rd (Reg.KL_ERR p)]).lostLink p
      else d
    (((d1.setF (Reg.KL_STAT_STATE p) klTrain).setF (Reg.KL_STAT_CH_LOCK p) 0).inc (Reg.KL_ERR_RETRAIN p)).setKlPort p
      { d1.klPort p with resent := 0 }

/-- A port with EN = 1 starts bring-up at the release of its domain. -/
def Device.klStart (d : Device) (p : Nat) : Device :=
  if d.bit (Reg.KL_CFG_EN p) then d.setF (Reg.KL_STAT_STATE p) klTrain else d

/-- A channel locks on 64 valid sync headers, or 3 commas (step 2). -/
def execKlChannelLock (port : Fin 3) (ch : Fin 4) (s : State) : Host.Outcome State Fault Refusal :=
  run (fun d =>
    let p := port.val
    if (d.klState p = klTrain ∨ d.klState p = klLock) ∧ (d.klChannels p).testBit ch then
      let d1 := d.setBitAt (Reg.KL_STAT_CH_LOCK p) ch true
      d1.setF (Reg.KL_STAT_STATE p) (if d1.fld (Reg.KL_STAT_CH_LOCK p) = d.klChannels p then klDeskew else klLock)
    else d) s

/-- The retained commit sequence and the CRC of the retained area, as IDENT carries them. -/
def Device.retainedCrc (d : Device) : Word := crc32c (mapGet d.img.retained 0x7F0000 65536)

/-- The payload of an IDENT parcel (R235; layout of log 8). -/
def Device.identBytes (d : Device) (p : Nat) : List Byte :=
  leBytes 4 (d.rd Reg.DEV_ID).toNat ++ [BitVec.ofNat 8 d.role, BitVec.ofNat 8 p]
    ++ leBytes 4 (d.rd Reg.TRI_JOIN_CRC).toNat ++ leBytes 4 (d.rd Reg.LDR_BUNDLE_ID).toNat
    ++ [BitVec.ofNat 8 (d.fld Reg.LDR_STAT_RTYPE)] ++ leBytes 4 d.img.retSeq
    ++ leBytes 4 d.retainedCrc.toNat ++ [BitVec.ofNat 8 (d.fld Reg.FO_CFG_EN + 2 * d.fld Reg.FO_CFG_UNIT)]

/-- All channels are deskewed (step 3): the port sends IDENT. -/
def execKlDeskewComplete (port : Fin 3) (s : State) : Host.Outcome State Fault Refusal :=
  run (fun d =>
    let p := port.val
    if d.klState p = klDeskew then
      (d.setF (Reg.KL_STAT_STATE p) klIdent).parcelOut p pIDENT (d.identBytes p)
    else d) s

/-- A step of bring-up does not end within 1 ms. -/
def execKlStepTimeout (port : Fin 3) (s : State) : Host.Outcome State Fault Refusal :=
  run (fun d =>
    if klTrain ≤ d.klState port.val ∧ d.klState port.val ≤ klCal then d.klRetrain port.val else d) s

/-! ## The peer (R236, R237) -/

def noIdent (_ : Nat) : Option Ident := none

/-- The peer of a port breaks a rule: 0x146 or 0x147; 0 for none. -/
def Device.miswire (d : Device) (p : Nat) (x : Ident) : Nat :=
  if d.isLane ∧ p < 2 then
    if x.role = d.role then 0x147
    else if x.role = d.peerLane p + 1 ∧ x.port = 1 - p then 0
    else 0x146
  else if p = 2 ∧ d.bit Reg.FO_CFG_EN then
    if x.port = 2 ∧ x.foEn ∧ x.foUnit ≠ d.fld Reg.FO_CFG_UNIT ∧ (x.foUnit = 1 ∨ x.foUnit = 2)
        ∧ (if d.isLane then x.role = d.role else x.role = 0) then 0
    else 0x146
  else 0

/-- The peer's IDENT arrives: its identity is kept and checked, it is acknowledged, and step 5 follows. -/
def execIdentReceived (port : Fin 3) (x : Ident) (s : State) : Host.Outcome State Fault Refusal :=
  run (fun d =>
    let p := port.val
    if d.klState p ≠ klIdent then d
    else
      let d1 := ((d.wr (Reg.KL_PEER p) x.devId).setF (Reg.KL_STAT_PEER_PORT p) x.port).setF
        (Reg.KL_STAT_PEER_ROLE p) x.role
      let bad := d1.miswire p x
      if bad = 0x147 then (d1.setF (Reg.KL_STAT_STATE p) klMiswired).raise 0x147 [wd p, wd (x.role - 1)]
      else if bad ≠ 0 then
        (d1.setF (Reg.KL_STAT_STATE p) klMiswired).raise 0x146 [wd p, wd (x.role + 256 * x.port)]
      else
        let d2 : Device := if d1.isLane ∧ p < 2 then
            { d1 with tri := { d1.tri with idents := sput noIdent d1.tri.idents (d1.peerLane p) (some x) } }
          else d1
        (d2.gotParcel p).setF (Reg.KL_STAT_STATE p) klCal) s

/-! ## The link delay (R239) and UP -/

/-- d in ps from a round trip, the peer's turnaround and the asymmetry term. -/
def linkDelay (trip turn : Nat) (asym : Int) : Nat := (((trip : Int) - turn) / 2 + asym).toNat

/-- Waiting parcels take the free places of the replay buffer; n bounds their number. -/
def Device.klFill (d : Device) (p : Nat) : Nat → Device
  | 0 => d
  | n + 1 =>
    let k := d.klPort p
    match k.waiting with
    | [] => d
    | m :: t =>
      if k.unacked.length < 32 then
        ((d.setKlPort p { k with unacked := k.unacked ++ [m], waiting := t }).send (.parcel p m)).klFill p n
      else d

/-- The CAL step ends: 256 round trips have set the delay and the asymmetry term. -/
def execKlCalComplete (port : Fin 3) (trip turn : Nat) (asym : Int) (s : State) : Host.Outcome State Fault Refusal :=
  run (fun d =>
    let p := port.val
    if d.klState p = klCal then
      let d1 := (((d.setF (Reg.KL_DELAY_DELAY_PS p) (linkDelay trip turn asym)).setF (Reg.KL_DELAY_CAL p) 1).setF
        (Reg.KL_STAT_STATE p) klUp).setKlPort p { d.klPort p with asym := asym }
      let d2 : Device := { d1 with tri := { d1.tri with lost := d1.tri.lost.filter (fun q => decide (q ≠ p)) } }
      (d2.raise 0x144 [wd p, wd (d2.peerLane p), d2.rd (Reg.KL_DELAY p)]).klFill p 32
    else d) s

/-! ## Acknowledgement and replay (R238) -/

/-- Parcels before a SEQ, modulo 65,536, within the window of the replay buffer. -/
def seqBefore (a b : Nat) : Bool := decide ((b + 65536 - a) % 65536 ≤ 32) && decide (a ≠ b)

/-- An ACK: every parcel before `seq` has arrived (log 10). -/
def execAckReceived (port : Fin 3) (seq : Nat) (s : State) : Host.Outcome State Fault Refusal :=
  run (fun d =>
    let p := port.val
    let k := d.klPort p
    let rest := k.unacked.filter (fun m => !seqBefore m.seq seq)
    let gone := decide (rest.length < k.unacked.length)
    (d.setKlPort p { k with unacked := rest, resent := if gone then 0 else k.resent }).klFill p 32) s

/-- Send parcels again, in order, with REPLAY = 1. -/
def Device.klAgain (d : Device) (p : Nat) : List Parcel → Device
  | [] => d
  | m :: t => (d.send (.parcel p { m with replay := true })).klAgain p t

/-- A replay from the first parcel that is not before `seq`; after four of them the port retrains (log 19). -/
def Device.klReplay (d : Device) (p seq : Nat) : Device :=
  let k := d.klPort p
  let l := k.unacked.filter (fun m => !seqBefore m.seq seq)
  if l = [] then d
  else if 4 ≤ k.resent then d.klRetrain p
  else ((d.setKlPort p { k with resent := k.resent + 1 }).inc (Reg.KL_ERR_REPLAY p)).klAgain p l

def execNakReceived (port : Fin 3) (seq : Nat) (s : State) : Host.Outcome State Fault Refusal :=
  run (fun d => d.klReplay port.val seq) s

/-- The oldest parcel is not acknowledged within 4 µs. -/
def execParcelAckTimeout (port : Fin 3) (s : State) : Host.Outcome State Fault Refusal :=
  run (fun d =>
    match (d.klPort port.val).unacked with
    | [] => d
    | m :: _ => d.klReplay port.val m.seq) s

/-- 16 invalid sync headers within 64 blocks, or two missing alignment markers. -/
def execKlLinkErrorRetrain (port : Fin 3) (s : State) : Host.Outcome State Fault Refusal :=
  run (fun d => d.klRetrain port.val) s

/-- A parcel arrives with a CRC error (kind 0), a gap in SEQ (kind 1) or an unlisted TYPE (kind 2): NAK names the first
SEQ that is missing; a code error is discarded and counted (R234). -/
def execKlParcelError (port : Fin 3) (kind : Fin 3) (s : State) : Host.Outcome State Fault Refusal :=
  run (fun d =>
    let p := port.val
    if d.klState p < klIdent ∨ d.klState p = klMiswired then d
    else
      let d1 := if kind = 1 then d else d.inc (Reg.KL_ERR_CRC p)
      if kind = 2 then d1 else d1.parcelOut p pNAK (leBytes 2 (d1.klPort p).rx)) s

/-! ## Commands (R269) -/

/-- A port carries a link between two lanes in VOTING. -/
def Device.klVoting (d : Device) (p : Nat) : Bool :=
  d.isLane && decide (p < 2) && d.klState p == klUp && d.votesSelf && d.votes (d.peerLane p)

def Device.cmdRetrain (d : Device) (arg : Nat) : Device :=
  d.commandNow portKL 1 arg (d.rd (Reg.KL_STAT (arg % 4))) ⟨decide (arg < 3), true, !d.klVoting arg⟩
    (fun d => d.klRetrain arg)

def Device.cmdKlClear (d : Device) (arg : Nat) : Device :=
  d.commandNow portKL 2 arg 0 ⟨arg == 0, true, true⟩ (fun d => forN 3 (fun p d => d.wr (Reg.KL_ERR p) 0) d)

def execRetrain (arg : BitVec 24) (s : State) : Host.Outcome State Fault Refusal :=
  run (fun d => d.cmdRetrain arg.toNat) s
def execKlClearCounters (arg : BitVec 24) (s : State) : Host.Outcome State Fault Refusal :=
  run (fun d => d.cmdKlClear arg.toNat) s

end Sys2Proof.Machine
end

