-- ==== Sys2Proof/Machine/Mb.lean ====
section
/-! DEFINITION. Commands of the mailbox block: notices of the host, semaphores, doorbells and result blocks
(R512–R526). -/

namespace Sys2Proof.Machine

/-- The block-state word of an MB command: the outbound state of E_24. -/
def Device.mbState (d : Device) : Word := d.rd (Reg.MB_EP_W3 24)

/-- SEND of the host (R512, R526): a refused SEND counts and ends with code 3. -/
def Device.cmdMbSend (d : Device) (arg : Nat) : Device :=
  let argOk := decide (arg ≤ 23)
  let can := d.mbCanSend 24 arg
  let d0 := if argOk && !can && !d.bit portMB.busy then d.inc Reg.MB_CNT_REFUSED else d
  d0.commandNow portMB 2 arg d.mbState ⟨argOk, true, can⟩
    (fun d => (d.mbSend 24 arg (d.rd Reg.MB_H_PTR) (d.rd Reg.MB_H_LT)).2)

/-- ACK of the host (R513). -/
def Device.cmdMbAck (d : Device) (arg : Nat) : Device :=
  d.commandNow portMB 3 arg d.mbState ⟨decide (arg < 0xFFFF), true, d.bit (Reg.MB_EP_W2_VALID 24)⟩
    (fun d => (d.mbAck 24 arg).2)

def Device.cmdEpReset (d : Device) (arg : Nat) : Device :=
  d.commandNow portMB 4 arg d.mbState ⟨arg == 0, true, true⟩ (fun d => d.epReset 24)

def Device.cmdMbClear (d : Device) (arg : Nat) : Device :=
  d.clearCmd portMB arg (fun d => d.wr Reg.MB_CNT 0)

def execMbSend (arg : BitVec 24) (s : State) : Host.Outcome State Fault Refusal :=
  run (fun d => d.cmdMbSend arg.toNat) s
def execMbAck (arg : BitVec 24) (s : State) : Host.Outcome State Fault Refusal :=
  run (fun d => d.cmdMbAck arg.toNat) s
def execEpReset (arg : BitVec 24) (s : State) : Host.Outcome State Fault Refusal :=
  run (fun d => d.cmdEpReset arg.toNat) s
def execMbClearCounters (arg : BitVec 24) (s : State) : Host.Outcome State Fault Refusal :=
  run (fun d => d.cmdMbClear arg.toNat) s

/-- The acknowledge timeout of a sender passes (R515). -/
def execAckTimeout (ep : Fin 25) (s : State) : Host.Outcome State Fault Refusal :=
  run (fun d => if d.fld (Reg.MB_EP_W7_EPCFG_ACK_TMO_MS ep) = 0 then d else d.mbAbort ep 0x3D0) s

/-- The requester index and owner code of the host or DBG. -/
def busIndex (byDbg : Bool) : Nat := if byDbg then 25 else 24
def busOwner (byDbg : Bool) : Nat := if byDbg then ownerDbg else ownerHost

/-- What a read of HSEM returns after its acquire attempt (R519). -/
def Device.hsemValue (d : Device) (sem : Nat) (byDbg : Bool) : Word :=
  wd ((if d.semOwner sem = busOwner byDbg then 2 ^ 31 else 0) + d.semOwner sem * 65536)

/-- A read of HSEM by the host or DBG (R519). -/
def Device.hsemRead (d : Device) (sem : Nat) (byDbg : Bool) (rivals : List Nat) : Device :=
  d.semTry sem (busIndex byDbg) (busOwner byDbg) rivals

def execHsemReadAcquire (sem : Fin 64) (byDbg : Bool) (rivals : List Nat) (s : State) :
    Host.Outcome State Fault Refusal :=
  run (fun d =>
    let d1 := d.hsemRead sem byDbg rivals
    d1.send (.completion (leBytes 4 (d1.hsemValue sem byDbg).toNat) false)) s

/-- A write of HSEM by the host or DBG (R521). -/
def Device.hsemWrite (d : Device) (sem : Nat) (byDbg rel : Bool) : Device :=
  if !rel then d
  else if d.semOwner sem = busOwner byDbg then d.semFree sem
  else d.raise 0x3D4 [wd sem, wd (busOwner byDbg), wd (d.semOwner sem)]

def execHsemReleaseWrite (sem : Fin 64) (byDbg : Bool) (rel : Bool) (s : State) :
    Host.Outcome State Fault Refusal := run (fun d => d.hsemWrite sem byDbg rel) s

def execDoorbellSetWrite (ep : Fin 32) (bits : Word) (s : State) : Host.Outcome State Fault Refusal :=
  run (fun d => d.doorbell ep bits) s

/-- The host clears bits of E_24's doorbell (R517). -/
def Device.doorbellClear (d : Device) (bits : Word) : Device :=
  d.wr (Reg.MB_EP_W4 24) (d.rd (Reg.MB_EP_W4 24) &&& ~~~ bits)

def execDoorbellClearWrite (bits : Word) (s : State) : Host.Outcome State Fault Refusal :=
  run (fun d => d.doorbellClear bits) s

/-! ## Result blocks (R522, R523) -/

/-- Publish block r if its committed source is ready with a new SEQ. -/
def Device.publishOne (d : Device) (r : Nat) : Device :=
  let src := d.areaBase areaN + d.fld (Reg.MB_RES_CFG_OFF r)
  let w (i : Nat) := wd (leNat (mapGet d.img.committed (src + 4 * i) 4))
  let seq := (w 0).toNat % 65536
  if d.bit (Reg.MB_RES_CFG_EN r) ∧ (w 0).msb ∧ seq ≠ d.fld (Reg.MB_RES_W0_SEQ r) then
    let d1 := forN 15 (fun i d => d.wr (Reg.MB_RES_DATA r i) (w (i + 1))) d
    let d2 := d1.wr (Reg.MB_RES_W0 r) (wd (2 ^ 31 + seq))
    ({ d2 with mb := { d2.mb with published := sput falseAt d2.mb.published r true } } : Device).cause 5
  else d

/-- Publish every ready block after a commit of the field output image. -/
def Device.publishResults (d : Device) : Device := forN 16 (fun r d => d.publishOne r) d

/-- A block is not ready: VALID 0, and STALE 1 if it has been published. -/
def Device.unpublish (d : Device) (r : Nat) : Device :=
  let d1 := d.setF (Reg.MB_RES_W0_VALID r) 0
  if sget falseAt d.mb.published r then d1.setF (Reg.MB_RES_W0_STALE r) 1 else d1

/-- A host write of MB_RES_REQ (R523): with RING = 1 a doorbell is rung. -/
def Device.resultRequest (d : Device) (bits : Nat) : Device :=
  forN 16 (fun r d =>
    if bits.testBit r then
      let d1 := d.unpublish r
      if d.bit (Reg.MB_RES_CFG_EN r) ∧ d.bit (Reg.MB_RES_CFG_RING r) then
        d1.doorbell (d.fld (Reg.MB_RES_CFG_EP r)) (wd (2 ^ d.fld (Reg.MB_RES_CFG_BIT r)))
      else d1
    else d) d

def execResultRequestWrite (bits : BitVec 16) (s : State) : Host.Outcome State Fault Refusal :=
  run (fun d => d.resultRequest bits.toNat) s

end Sys2Proof.Machine
end

