-- ==== Sys2Proof/Machine/TickCmd.lean ====
section
/-! DEFINITION. The tick generator's sources and watchdog (R42–R48, R59, R60, R63, R64) and the commands of TICK. -/

namespace Sys2Proof.Machine

def srcFREE : Nat := 0
def srcSYNCIN : Nat := 1
def srcNETTIME : Nat := 2
def srcSAHTU : Nat := 3

def lockFREE : Nat := 0
def lockLOCKED : Nat := 1
def lockSLEWING : Nat := 2
def lockLOST : Nat := 3

/-- The source in effect. -/
def Device.srcAct (d : Device) : Nat := d.fld Reg.TICK_STATUS_SRC_ACT

/-- The source counts as lost (R46). -/
def Device.srcLost (d : Device) : Bool := d.fld Reg.TICK_STATUS_LOCK == lockLOST

/-- The clamp of R44, in ns. -/
def clampNs (i : Int) : Int := max (-2000) (min 2000 i)

/-- LOCK while the source is present (R44): SLEWING while the correction is clamped. -/
def Device.lockOf (d : Device) : Nat :=
  if d.srcAct = srcFREE then lockFREE
  else if clampNs (d.tick.err + d.tick.corr) = d.tick.err + d.tick.corr then lockLOCKED else lockSLEWING

/-- Boundaries are being placed: released, and neither frozen nor in the no-service state (R65). -/
def Device.ticking (d : Device) : Bool :=
  d.tick.released && !d.bit Reg.TICK_STATUS_FROZEN && !d.bit Reg.SYS_ROLE_NO_SERVICE

/-- The source is lost (R46): LOCK, flag, event 0x045; SYNCIN and SAHTU run on with e = 0. -/
def Device.loseSource (d : Device) : Device :=
  if d.srcLost then d
  else
    let d1 := (d.setF Reg.TICK_STATUS_LOCK lockLOST).setF Reg.TICK_FLAGS_SRC_LOST 1
    let d2 : Device := if d1.srcAct = srcNETTIME then d1 else { d1 with tick := { d1.tick with err := 0 } }
    (d2.raise 0x045 []).fire 0xEE

/-- The source is back (R46): flag, event 0x046, and slewing under R44. -/
def Device.regainSource (d : Device) : Device :=
  if d.srcLost then
    ((d.setF Reg.TICK_STATUS_LOCK d.lockOf).setF Reg.TICK_FLAGS_SRC_REGAINED 1).raise 0x046 []
  else d

/-- The phase error of an event at time t: to the nearest boundary scheduled, the later one if both are equally
near (R43, R46). -/
def Device.phaseOf (d : Device) (t : Nat) : Int :=
  let a : Int := (t : Int) - d.tick.boundaryTs
  let b : Int := a - d.tick.nextNs
  if b.natAbs ≤ a.natAbs then b else a

/-- The period in progress is PERIOD_US with the correction of R44, and LOCK says whether that is clamped. -/
def Device.planPeriod (d : Device) : Device :=
  let d1 : Device := { d with tick := { d.tick with
    nextNs := (1000 * d.periodUs : Nat) + clampNs (d.tick.err + d.tick.corr) } }
  if d1.srcLost then d1 else d1.setF Reg.TICK_STATUS_LOCK d1.lockOf

/-- A SYNCIN or SAHTU source event at time t, time-stamped with 4 ns resolution (R43, R45, R46). One that is
judged against the boundary that has passed corrects the period in progress (log 30). -/
def Device.sourceEvent (d : Device) (src t : Nat) : Device :=
  if !d.ticking || d.srcAct != src then d
  else if !d.tick.started then { d with tick := { d.tick with firstDue := true } }
  else
    let e := d.phaseOf (t / 4 * 4)
    if d.srcLost || decide (4 * e.natAbs ≤ 1000 * d.periodUs) then
      let late := decide (e = ((t / 4 * 4 : Nat) : Int) - d.tick.boundaryTs)
      let d1 := (({ d with tick := { d.tick with err := e, evSeen := true, noEv := 0, late := late } } : Device).setS
        Reg.TICK_PHASE_ERR_ERR_NS e).regainSource
      if late then d1.planPeriod else d1
    else ((d.setF Reg.TICK_FLAGS_EDGE_REJECT 1).inc Reg.TICK_ERR_CNT_REJ).raise 0x044 []

/-- An edge of SYNCIN: the one that TICK_CFG.SYNC_EDGE selects is a source event. -/
def execSyncinEdge (falling : Bool) (s : State) : Host.Outcome State Fault Refusal :=
  run (fun d => if d.bit Reg.TICK_CFG_SYNC_EDGE = falling then d.sourceEvent srcSYNCIN d.ts64 else d) s

/-- The time base is locked: TB_STAT.STATE reads LOCKED (R341). -/
def Device.tbLocked (d : Device) : Bool := d.fld Reg.TB_STAT_STATE == 2

/-- A source counts as lost (R46): after LOSS_CNT periods without a valid event, or while the time base is not
locked. -/
def execSourceLost (s : State) : Host.Outcome State Fault Refusal :=
  run (fun d =>
    let src := d.srcAct
    if d.ticking && d.tick.started
        && (((src == srcSYNCIN || src == srcSAHTU) && decide (d.atLeast1 Reg.TICK_CFG_LOSS_CNT ≤ d.tick.noEv))
          || (src == srcNETTIME && !d.tbLocked)) then
      d.loseSource
    else d) s

/-- No source event within LOSS_CNT periods after release: the first boundary falls now, and the source is lost (R45). -/
def execFirstBoundaryTimeout (s : State) : Host.Outcome State Fault Refusal :=
  run (fun d =>
    if d.ticking && !d.tick.started && !d.tick.firstDue && (d.srcAct == srcSYNCIN || d.srcAct == srcSAHTU) then
      ({ d with tick := { d.tick with firstDue := true } } : Device).loseSource
    else d) s

/-- SET_SOURCE (R48): BUSY until the next boundary. -/
def Device.cmdSetSource (d : Device) (arg : Nat) : Device :=
  d.command portTICK 1 arg (d.rd Reg.TICK_STATUS) ⟨decide (arg < 4), true, !d.isLane && d.ticking⟩
    (fun d => ({ d with tick := { d.tick with pendSrc := some arg } } : Device).beginCmd portTICK)

def Device.cmdTickClear (d : Device) (arg : Nat) : Device :=
  d.commandNow portTICK 2 arg 0 ⟨arg == 0, true, true⟩ (fun d => d.wr Reg.TICK_ERR_CNT 0)

def execSetSource (arg : BitVec 24) (s : State) : Host.Outcome State Fault Refusal :=
  run (fun d => d.cmdSetSource arg.toNat) s
def execTickClearCounters (arg : BitVec 24) (s : State) : Host.Outcome State Fault Refusal :=
  run (fun d => d.cmdTickClear arg.toNat) s

/-- Not ready at three consecutive t_VOTE (R59, R60): event 0x049 once, and a lane is excluded. -/
def execNotReady3Consec (s : State) : Host.Outcome State Fault Refusal :=
  run (fun d =>
    if 3 ≤ d.fld Reg.TICK_STATUS_NR_CONSEC ∧ !d.tick.nr3Told then
      (({ d with tick := { d.tick with nr3Told := true } } : Device).raise 0x049 []).excludeSelf 4
    else d) s

/-- A trip of the armed watchdog (R64): Sluice, WD_TRIP, event 0x04C; a lane is excluded (R257 code 1). -/
def execTickWatchdogTrip (s : State) : Host.Outcome State Fault Refusal :=
  run (fun d =>
    if d.tick.wdArmed then
      (((d.slAssert slWd).setF Reg.TICK_FLAGS_WD_TRIP 1).raise 0x04C []).excludeSelf 1
    else d) s

end Sys2Proof.Machine
end

