-- ==== Sys2Proof/Machine/Tri.lean ====
section
/-! DEFINITION. The triad: tick alignment (R240–R242), starting (R246–R248), the hopper (R249–R253), lane notices and
the commands of TRI. -/

namespace Sys2Proof.Machine

/-! ## Alignment (R240–R242) -/

def noInt (_ : Nat) : Option Int := none
def int0 (_ : Nat) : Int := 0

/-- A TIME parcel: the link delay, and the offset of the sender if the parcel came within 5 µs of the own boundary. -/
def execTimeParcelReceived (port : Fin 3) (boundary tx : Nat) (e : Int) (trip : Option (Nat × Nat)) (s : State) :
    Host.Outcome State Fault Refusal :=
  run (fun d =>
    let p := port.val
    if d.klState p < klCal ∨ d.klState p = klMiswired then d
    else
      let d0 := d.gotParcel p
      let d1 := match trip with
        | some (t, u) => d0.setF (Reg.KL_DELAY_DELAY_PS p) (linkDelay t u (d0.klPort p).asym)
        | none => d0
      if !d1.isLane ∨ p = 2 then d1
      else
        let own := d1.phaseOf d1.ts64
        let o : Int := own - (d1.fld (Reg.KL_DELAY_DELAY_PS p) / 1000 : Nat) - ((tx : Int) - boundary)
        if own.natAbs ≤ 5000 then
          let i := d1.peerLane p
          ({ d1 with tri := { d1.tri with
              offset := sput noInt d1.tri.offset i (some o), phaseErr := sput int0 d1.tri.phaseErr i e } } : Device).setS
            (Reg.TRI_OFFSET_OFFSET_NS i) o
        else d1) s

/-- Insert into a sorted list. -/
def insInt (x : Int) : List Int → List Int
  | [] => [x]
  | y :: t => if x ≤ y then x :: y :: t else y :: insInt x t

/-- Sort. -/
def sortInt : List Int → List Int
  | [] => []
  | x :: t => insInt x (sortInt t)

/-- The median of R241: of two values their mean (rounded down, log 20), of one that value. -/
def median (l : List Int) : Int :=
  match sortInt l with
  | [] => 0
  | [x] => x
  | [x, y] => Int.fdiv (x + y) 2
  | _ :: y :: _ => y

/-- The other lanes in VOTING whose TIME was used. -/
def Device.timedLanes (d : Device) : List Nat :=
  d.votingLanes.filter (fun i => decide (i ≠ d.lane) && (sget noInt d.tri.offset i).isSome)

/-- The correction c of R241. -/
def Device.alignC (d : Device) : Int :=
  let offs := d.timedLanes.map (fun i => (sget noInt d.tri.offset i).getD 0)
  let errs := d.timedLanes.map (fun i => sget int0 d.tri.phaseErr i)
  if d.solo ∨ !d.isLane then 0
  else if d.votesSelf then median (0 :: offs) + median (d.tick.err :: errs) - d.tick.err
  else if offs = [] then 0
  else median offs + median errs - d.tick.err

/-- Count, for each lane in VOTING, the boundaries in a row beyond LIMIT_NS (R242). -/
def Device.alignJudge (d : Device) : Device :=
  let lim : Int := (d.fld Reg.TRI_ALIGN_LIMIT_NS : Nat)
  let pos := fun i => if i = d.lane then (0 : Int) else (sget noInt d.tri.offset i).getD 0
  let v := d.votingLanes
  let known := decide (v.length = d.timedLanes.length + 1)
  let m := median (v.map pos)
  let bad := fun i => d.votesSelf && known && decide (v.length = 3) && v.contains i && decide (lim < (pos i - m).natAbs)
  let two := d.votesSelf && known && decide (v.length = 2) && v.any (fun i => decide (2 * lim < (pos i).natAbs))
  { d with tri := { d.tri with
    alignBad := (List.range 3).foldl (fun a i => sput zeroAt a i (if bad i then sget zeroAt d.tri.alignBad i + 1 else 0)) [],
    twoBad := if two then d.tri.twoBad + 1 else 0 } }

/-- ALIGN_CORRECTION: c for the next period, the counts of R242, and the own TIME parcels (R240). -/
def Device.alignBoundary (d : Device) : Device :=
  if !d.isLane then d
  else
    let c := d.alignC
    let d1 := ({ d with tick := { d.tick with corr := c } } : Device).setS Reg.TRI_ALIGN_C_NS (max (-32768) (min 32767 c))
    let d2 := d1.alignJudge
    let d3 := forN 3 (fun i d => if (sget noInt d.tri.offset i).isNone then d.wr (Reg.TRI_OFFSET i) 0 else d) d2
    let d4 : Device := { d3 with tri := { d3.tri with offset := [], phaseErr := [] } }
    d4.ring pTIME (leBytes 8 d4.tick.boundaryTs ++ leBytes 8 d4.ts64 ++ leBytes 4 (lowBits d4.tick.err 32))

/-- A lane beyond LIMIT_NS at 3 boundaries in a row is excluded; in 2oo2 service both lanes are. -/
def execAlignExclusion (lane : Fin 3) (s : State) : Host.Outcome State Fault Refusal :=
  run (fun d =>
    if !d.votesSelf then d
    else if d.votingLanes.length = 2 ∧ 3 ≤ d.tri.twoBad then
      d.votingLanes.foldl (fun d i => d.excludeOne i 10) d
    else if 3 ≤ sget zeroAt d.tri.alignBad lane ∧ d.votes lane then d.exclude lane 6
    else d) s

/-! ## Starting a triad (R246–R248) -/

/-- The own identity at the rendezvous. -/
def Device.ownIdent (d : Device) : Ident :=
  { devId := d.rd Reg.DEV_ID, role := d.role, port := 0, join := d.rd Reg.TRI_JOIN_CRC, bundle := d.rd Reg.LDR_BUNDLE_ID,
    rtype := d.fld Reg.LDR_STAT_RTYPE, seq := d.img.retSeq, retCrc := d.retainedCrc,
    foEn := d.bit Reg.FO_CFG_EN, foUnit := d.fld Reg.FO_CFG_UNIT }

/-- The identity of a lane at the rendezvous. -/
def Device.identOf (d : Device) (i : Nat) : Option Ident :=
  if i = d.lane then some d.ownIdent else sget noIdent d.tri.idents i

/-- The lanes with the bundle ID and TRI_JOIN_CRC of this lane. -/
def Device.matching (d : Device) : List Nat :=
  (List.range 3).filter (fun i => match d.identOf i with
    | some x => x.bundle == d.rd Reg.LDR_BUNDLE_ID && x.join == d.rd Reg.TRI_JOIN_CRC
    | none => false)

/-- The retained commit sequence of a lane. -/
def Device.seqOf (d : Device) (i : Nat) : Nat :=
  match d.identOf i with
  | some x => x.seq
  | none => 0

/-- The donor: the highest sequence, a tie to the lowest letter (R247). -/
def Device.pickDonor (d : Device) : List Nat → Option Nat
  | [] => none
  | i :: t =>
    match d.pickDonor t with
    | none => some i
    | some j => if d.seqOf j ≤ d.seqOf i then some i else some j

/-- A boundary time at least 2 periods ahead: for NETTIME the next multiple of the period (R248). -/
def Device.startTime (d : Device) : Nat :=
  let t := d.ts64 + 2000 * d.periodUs
  if d.srcAct = srcNETTIME then (t + 1000 * d.periodUs - 1) / (1000 * max 1 d.periodUs) * (1000 * d.periodUs) else t

/-- The member with the lowest letter sends START. -/
def Device.sendStart (d : Device) : Device :=
  if d.isLane ∧ d.tri.startSet.head? = some d.lane ∧ d.tri.startAt.isNone then
    ({ d with tri := { d.tri with startAt := some d.startTime } } : Device).ring pCTRL
      ([4, BitVec.ofNat 8 d.lane] ++ leBytes 8 d.startTime)
  else d

/-- The start set and the donor are fixed; a member that is not the donor takes its restart type. -/
def execRendezvousFix (s : State) : Host.Outcome State Fault Refusal :=
  run (fun d =>
    if !d.isLane ∨ d.fld Reg.TRI_LANE_STAT_STATE ≠ lsJoining ∨ d.tri.startSet ≠ [] then d
    else
      let m := d.matching
      if m.length < 2 then d
      else
        let donor := d.pickDonor m
        let d1 : Device := { d with tri := { d.tri with startSet := m, donor := donor } }
        match donor with
        | some i =>
          (if i = d.lane then
            d1.ring pXFER (mapGet d1.img.retained 0x7F0000 65536)
          else d1.setF Reg.LDR_STAT_RTYPE ((d1.identOf i).map (fun x => x.rtype) |>.getD 0)).sendStart
        | none => d1) s

/-- START of the member with the lowest letter. -/
def execStartReceived (lane : Fin 3) (time : Nat) (s : State) : Host.Outcome State Fault Refusal :=
  run (fun d =>
    if d.isLane ∧ lane.val ≠ d.lane then
      let d1 := d.gotParcel (d.portTo lane)
      if d1.tri.startSet.head? = some lane.val then { d1 with tri := { d1.tri with startAt := some time } } else d1
    else d) s

/-! ## Contributions and receipts (R249) -/

def noData (_ : Nat) : Option (List Byte) := none
def noRcpt (_ : Nat) : Option (List (Nat × Word)) := none

/-- The enabled hopper entries, in index order. -/
def Device.hmap (d : Device) : List Nat := (List.range 64).filter (fun i => d.bit (Reg.TRI_HMAPA_EN i))

/-- The fabric address of a hopper entry's range. -/
def Device.hmapAt (d : Device) (i : Nat) : Nat :=
  d.areaBase (netArea (d.fld (Reg.TRI_HMAPA_AREA i))) + d.fld (Reg.TRI_HMAPA_OFF i)

/-- The RX connections whose verification results a contribution carries (R367). -/
def Device.scRxList (d : Device) : List Nat := (List.range 256).filter (fun n => d.scRx n)

/-- The place of entry i in a contribution. -/
def Device.hmapPos (d : Device) (i : Nat) : Nat :=
  13 + d.scRxList.length + ((d.hmap.filter (fun j => decide (j < i))).map (fun j => d.fld (Reg.TRI_HMAPB_LEN j))).sum

/-- The own contribution: DI_00–DI_31, the LOCKED bit, the boundary TS64, the verification results, and the raw
content of every entry. -/
def Device.contribution (d : Device) : List Byte :=
  mapGet d.img.latch (d.areaBase areaI + 4) 4
    ++ [if d.fld Reg.TICK_STATUS_LOCK = lockLOCKED then 1 else 0] ++ leBytes 8 d.tick.boundaryTs
    ++ d.scRxList.map (fun n => BitVec.ofNat 8 ((sget noRes d.sc.raw n).getD 255))
    ++ (d.hmap.map (fun i => mapGet d.img.latch (d.hmapAt i) (d.fld (Reg.TRI_HMAPB_LEN i)))).flatten

/-- t + 3 µs: the contribution is formed, and a lane in VOTING or MINORITY sends it. -/
def Device.hopSend (d : Device) : Device :=
  if !d.isLane then d
  else
    let c := d.contribution
    let d1 : Device := { d with tri := { d.tri with
      contrib := sput noData [] d.lane (some c), receipt := [], incons := [] } }
    if d1.votesSelf then d1.ring pHOP c else d1

/-- Another lane's contribution arrives complete. -/
def execHopParcelReceived (lane : Fin 3) (data : List Byte) (s : State) : Host.Outcome State Fault Refusal :=
  run (fun d =>
    if d.isLane ∧ lane.val ≠ d.lane then
      let d1 := d.gotParcel (d.portTo lane)
      if d1.votes lane then
        { d1 with tri := { d1.tri with contrib := sput noData d1.tri.contrib lane (some data) } }
      else d1
    else d) s

/-- What a RECEIPT lists: the CRC-32C of each contribution received complete. -/
def Device.ownReceipt (d : Device) : List (Nat × Word) :=
  d.tri.contrib.filterMap (fun p => p.2.map (fun l => (p.1, crc32c l)))

/-- t_HOP − 2 µs: each lane sends its RECEIPT; a standby lane adds the MARKER CRC of its copy (R280). -/
def execReceiptSend (s : State) : Host.Outcome State Fault Refusal :=
  run (fun d =>
    if !d.isLane then d
    else
      let r := d.ownReceipt
      let d1 : Device := { d with tri := { d.tri with receipt := sput noRcpt d.tri.receipt d.lane (some r) } }
      let copies := d1.fo.ready.map (fun x => leBytes 2 x.seq ++ leBytes 4 x.crc.toNat)
      d1.ring pRECEIPT ((r.map (fun p => BitVec.ofNat 8 p.1 :: leBytes 4 p.2.toNat)).flatten ++ copies.flatten)) s

/-- Another lane's RECEIPT arrives: contribution CRCs, and the MARKER CRCs of its copies. -/
def execReceiptReceived (lane : Fin 3) (list : List (Nat × Word)) (copies : List (Nat × Word)) (s : State) :
    Host.Outcome State Fault Refusal :=
  run (fun d =>
    if d.isLane ∧ lane.val ≠ d.lane then
      let d1 := d.gotParcel (d.portTo lane)
      { d1 with
        tri := { d1.tri with receipt := sput noRcpt d1.tri.receipt lane (some list) }
        fo := { d1.fo with peerCrc := d1.fo.peerCrc ++ copies.map (fun c => (lane.val, c)) } }
    else d) s

/-! ## The agreed image (R250, R251) -/

/-- The CRC that a lane's receipt lists for a contribution. -/
def Device.listed (d : Device) (lane i : Nat) : Option Word :=
  match sget noRcpt d.tri.receipt lane with
  | some l => (l.find? (fun p => decide (p.1 = i))).map (fun p => p.2)
  | none => none

/-- A contribution is used: its CRC stands, equal, in the own receipt and in that of every other lane in VOTING; a
receipt not received lists nothing (log 21). -/
def Device.hopUsed (d : Device) (i : Nat) : Bool :=
  match sget noData d.tri.contrib i with
  | none => false
  | some l => (d.lane :: d.votingLanes).all (fun j => d.listed j i == some (crc32c l))

/-- The lanes whose contributions are used; a lane outside the triad's service uses its own alone (R243). -/
def Device.usedLanes (d : Device) : List Nat :=
  let st := d.fld Reg.TRI_LANE_STAT_STATE
  if d.votesSelf || st == lsShadow || st == lsReadmit then d.votingLanes.filter (fun i => d.hopUsed i) else [d.lane]

/-- Bytes of a lane's contribution. -/
def Device.contribAt (d : Device) (lane pos n : Nat) : List Byte :=
  (((sget noData d.tri.contrib lane).getD []).drop pos).take n

/-- An agreed bit (TRIPLE): majority, AND or OR of two, or the only value. -/
def agreeBit (rule : Bool) (l : List Bool) : Bool :=
  match l with
  | [] => false
  | [x] => x
  | [x, y] => if rule then x || y else x && y
  | x :: y :: z :: _ => (x && y) || (x && z) || (y && z)

/-- Order of a word by TYPE; a NaN stands above +∞. -/
def typeKey (ty v : Nat) : Int :=
  if ty = 2 then (if v < 2 ^ 15 then (v : Int) else (v : Int) - 2 ^ 16)
  else if ty = 4 then (if v < 2 ^ 31 then (v : Int) else (v : Int) - 2 ^ 32)
  else if ty = 5 then
    if 0x7F800000 < v % 2 ^ 31 then 2 ^ 32
    else if v < 2 ^ 31 then (v : Int) else -((v % 2 ^ 31 : Nat) : Int)
  else (v : Int)

/-- Insert a word in the order of its type. -/
def insWord (ty x : Nat) : List Nat → List Nat
  | [] => [x]
  | y :: t => if typeKey ty x ≤ typeKey ty y then x :: y :: t else y :: insWord ty x t

/-- Words in the order of their type. -/
def sortWords (ty : Nat) : List Nat → List Nat
  | [] => []
  | x :: t => insWord ty x (sortWords ty t)

/-- An agreed word (TRIPLE): the median, the lower or higher of two, or the only value. -/
def agreeWord (ty : Nat) (rule : Bool) (l : List Nat) : Nat :=
  match sortWords ty l with
  | [] => 0
  | [x] => x
  | [x, y] => if rule then y else x
  | _ :: y :: _ => y

/-- The bytes of a word of a type. -/
def typeBytes (ty : Nat) : Nat := if ty = 1 ∨ ty = 2 then 2 else if 3 ≤ ty ∧ ty ≤ 5 then 4 else 1

/-- The agreed bytes of a TRIPLE range of bits. -/
def agreeBits (rule : Bool) (ls : List (List Byte)) (n : Nat) : List Byte :=
  (List.range n).map (fun k => BitVec.ofNat 8 ((List.range 8).foldl (fun a b =>
    if agreeBit rule (ls.map (fun l => (l.getD k 0).toNat.testBit b)) then a + 2 ^ b else a) 0))

/-- The agreed bytes of a TRIPLE range of words. -/
def agreeWords (ty : Nat) (rule : Bool) (ls : List (List Byte)) (n : Nat) : List Byte :=
  let w := typeBytes ty
  ((List.range (n / w)).map (fun k => leBytes w (agreeWord ty rule (ls.map (fun l => numAt l (w * k) w))))).flatten

/-- Free bytes (log 5). -/
def Device.freeBytes (d : Device) (n : Nat) : List Byte :=
  (List.range n).map (fun i => BitVec.ofNat 8 (Config.freeWord (d.freeCtr + i)).toNat)

/-- Content that at least two match, or the only content. -/
def identOk (ls : List (List Byte)) : Option (List Byte) :=
  match ls with
  | [] => none
  | [x] => some x
  | [x, y] => if x = y then some x else none
  | x :: y :: z :: _ => if x = y ∨ x = z then some x else if y = z then some y else none

/-- The agreed content of an entry, if the tick gives one. With no contribution used the spec gives a TRIPLE input no
value, and it is free (log 21). -/
def Device.agreeEntry (d : Device) (i : Nat) (used : List Nat) : Option (List Byte) :=
  let n := d.fld (Reg.TRI_HMAPB_LEN i)
  let pos := d.hmapPos i
  let ls := used.map (fun j => d.contribAt j pos n)
  let cls := d.fld (Reg.TRI_HMAPA_CLASS i)
  let ty := d.fld (Reg.TRI_HMAPB_TYPE i)
  let rule := d.bit (Reg.TRI_HMAPB_RULE2 i)
  if cls = 0 then
    if used = [] then none
    else if ty = 0 then some (agreeBits rule ls n) else some (agreeWords ty rule ls n)
  else if cls = 1 then
    let o := d.fld (Reg.TRI_HMAPB_OWNER i)
    if used.contains o then some (d.contribAt o pos n) else none
  else identOk ls

/-- What stands in an entry's range without an agreed value. -/
def Device.hopSubst (d : Device) (i : Nat) (used : List Nat) : List Byte :=
  let n := d.fld (Reg.TRI_HMAPB_LEN i)
  if d.fld (Reg.TRI_HMAPA_CLASS i) = 0 ∧ used = [] then d.freeBytes n
  else if d.bit (Reg.TRI_HMAPB_SUBST i) then List.replicate n 0
  else mapGet d.tri.lastAgreed (d.hmapAt i) n

/-- Agree on one entry: its bytes, and its status word. -/
def Device.hopEntry (d : Device) (used : List Nat) (i : Nat) : Device :=
  let n := d.fld (Reg.TRI_HMAPB_LEN i)
  let v := d.agreeEntry i used
  let l := v.getD (d.hopSubst i used)
  let age := if v.isSome then 0 else min (sget zeroAt d.tri.lastTrue i + 1) (2 ^ 31 - 1)
  let out := if d.bit (Reg.TRI_HMAPB_STAT i) then
      l.take (n - 4) ++ leBytes 4 ((if v.isSome then 2 ^ 31 else 0) + age)
    else l
  let at_ := d.hmapAt i
  { d with
    freeCtr := d.freeCtr + n
    tri := { d.tri with
      agreed := mapPut d.tri.agreed at_ out
      lastAgreed := if v.isSome then mapPut d.tri.lastAgreed at_ l else d.tri.lastAgreed
      lastTrue := sput zeroAt d.tri.lastTrue i age } }

/-- The class of DI i: 0 TRIPLE, else 1 + owner. -/
def Device.diClass (d : Device) (i : Nat) : Nat :=
  if i < 16 then bitsOf (d.rd Reg.TRI_DI_CLASS_0) (2 * i) 2 else bitsOf (d.rd Reg.TRI_DI_CLASS_1) (2 * (i - 16)) 2

/-- DI i in a lane's contribution. -/
def Device.contribDi (d : Device) (lane i : Nat) : Bool := (numAt (d.contribAt lane 0 4) 0 4).testBit i

/-- The agreed value of DI i; a SINGLE input without its owner keeps its last agreed value. -/
def Device.agreeDi (d : Device) (used : List Nat) (i : Nat) : Bool :=
  let c := d.diClass i
  if c = 0 then
    if used = [] then (Config.freeWord d.freeCtr).toNat.testBit i
    else agreeBit ((d.rd Reg.TRI_DI_RULE2).toNat.testBit i) (used.map (fun j => d.contribDi j i))
  else if used.contains (c - 1) then d.contribDi (c - 1) i
  else (leNat (mapGet d.tri.lastAgreed (d.areaBase areaI + 4) 4)).testBit i

/-- Agree on DI_00–DI_31. -/
def Device.hopDi (d : Device) (used : List Nat) : Device :=
  let v := (List.range 32).foldl (fun a i => if d.agreeDi used i then a + 2 ^ i else a) 0
  let at_ := d.areaBase areaI + 4
  { d with
    freeCtr := d.freeCtr + 1
    tri := { d.tri with agreed := mapPut d.tri.agreed at_ (leBytes 4 v)
                        lastAgreed := mapPut d.tri.lastAgreed at_ (leBytes 4 v) } }

/-- The agreed boundary time: the median of those used, the lower of two. -/
def Device.agreeTs (d : Device) (used : List Nat) : Option Nat :=
  match sortWords 3 (used.map (fun j => numAt (d.contribAt j 5 8) 0 8)) with
  | [] => none
  | [x] => some x
  | [x, _] => some x
  | _ :: y :: _ => some y

/-- The number of a discrepancy: DI i, or bit b of entry e. -/
def discKey (lane k : Nat) : Nat := 3 * k + lane
def discEntry (e b : Nat) : Nat := 32 + e * 2 ^ 22 + b

/-- Count the ticks in a row at which a TRIPLE bit of a lane differs from the agreed one (R253). -/
def Device.discCount (d : Device) (lane k : Nat) (differs : Bool) : Device :=
  let key := discKey lane k
  if differs then
    { d with tri := { d.tri with discTicks := sput zeroAt d.tri.discTicks key (sget zeroAt d.tri.discTicks key + 1) } }
  else { d with tri := { d.tri with discTicks := sput zeroAt d.tri.discTicks key 0
                                    discSent := sput falseAt d.tri.discSent key false } }

/-- The discrepancies of a lane's inputs. -/
def Device.discLane (d : Device) (lane : Nat) : Device :=
  let di := leNat (mapGet d.tri.agreed (d.areaBase areaI + 4) 4)
  let d1 := forN 32 (fun i d =>
    if d.diClass i = 0 then d.discCount lane i (d.contribDi lane i != di.testBit i) else d) d
  d1.hmap.foldl (fun d e =>
    if d.fld (Reg.TRI_HMAPA_CLASS e) = 0 then
      let n := d.fld (Reg.TRI_HMAPB_LEN e)
      let own := leNat (d.contribAt lane (d.hmapPos e) n)
      let agr := leNat (mapGet d.tri.agreed (d.hmapAt e) n)
      forN (8 * (if d.bit (Reg.TRI_HMAPB_STAT e) then n - 4 else n)) (fun b d =>
        d.discCount lane (discEntry e b) (own.testBit b != agr.testBit b)) d
    else d) d1

/-- ABSENT of the lanes in VOTING (R250). -/
def Device.absentCount (d : Device) (used : List Nat) : Device :=
  d.votingLanes.foldl (fun d i =>
    if used.contains i then { d with tri := { d.tri with absent := sput zeroAt d.tri.absent i 0 } }
    else
      (({ d with tri := { d.tri with absent := sput zeroAt d.tri.absent i (sget zeroAt d.tri.absent i + 1) } }
        : Device).inc Reg.TRI_CNT_ABSENT).raise 0x14E [wd i]) d

/-- A lane whose contribution the other two lanes list with different CRCs (R250). -/
def Device.inconsistent (d : Device) (i : Nat) : Bool :=
  match (List.range 3).filter (fun j => decide (j ≠ i)) with
  | [a, b] => (d.listed a i).isSome && (d.listed b i).isSome && d.listed a i != d.listed b i
  | _ => false

/-- The agreed verification results of SC (R367): of a lane whose content equals the agreed one. -/
def Device.hopVerify (d : Device) (used : List Nat) : Device :=
  let l := d.scRxList
  { d with sc := { d.sc with result := (List.range l.length).foldl (fun m k =>
      let n := l.getD k 0
      let o := d.areaBase areaN + d.fld (Reg.SC_CONN_W2_N_OFF n)
      let agr := mapGet d.tri.agreed o (d.scLen n)
      let e := d.hmap.find? (fun e => decide (d.hmapAt e ≤ o) && decide (o < d.hmapAt e + d.fld (Reg.TRI_HMAPB_LEN e)))
      let same := fun j => match e with
        | some e => d.contribAt j (d.hmapPos e + (o - d.hmapAt e)) (d.scLen n) == agr
        | none => false
      match used.find? same with
      | some j =>
        let r := numAt (d.contribAt j (13 + k) 1) 0 1
        sput noRes m n (if r = 255 ∨ (e.map (fun e => sget zeroAt d.tri.lastTrue e)).getD 1 ≠ 0 then none else some r)
      | none => sput noRes m n none) [] } }

/-- t_HOP − 1 µs: the agreed image is formed. -/
def execHopperAgree (s : State) : Host.Outcome State Fault Refusal :=
  run (fun d =>
    if !d.isLane then d
    else
      let used := d.usedLanes
      let d0 : Device := { d with tri := { d.tri with
        agreed := [], agreedTs := d.agreeTs used,
        agreedLock := agreeBit false (used.map (fun j => numAt (d.contribAt j 4 1) 0 1 == 1)),
        incons := if d.votesSelf then d.votingLanes.filter (fun i => d.inconsistent i) else [] } }
      let d1 := d0.hmap.foldl (fun d i => d.hopEntry used i) (d0.hopDi used)
      let d2 := used.foldl (fun d j => d.discLane j) d1
      let d3 := if d2.votesSelf then d2.absentCount used else d2
      (d3.hopVerify used).setF Reg.TRI_HOP_STAT_DONE_US (d3.fld Reg.TICK_PHASE_HOP_US - 1)) s

/-- The exclusions that t_HOP decides: inconsistent contributions, lost links (R250, R259). -/
def Device.hopExclude (d : Device) : Device :=
  if !d.votesSelf then d else d.tri.incons.foldl (fun d i => d.exclude i 8) d

/-- A lost link between two lanes in VOTING excludes the lane at its K1 end (R259); the last partner gone without EXIT
excludes the own lane (R262). -/
def Device.linkExclude (d : Device) : Device :=
  let own := d.tri.lost.contains 1 && d.votesSelf && d.votes (d.peerLane 1)
  let peer := d.tri.lost.contains 0 && d.votesSelf && d.votes (d.peerLane 0)
  let last := decide (d.votingLanes.length = 2)
  if own then d.exclude d.lane 7
  else if peer ∧ last ∧ !d.tri.exitSeen.contains (d.peerLane 0) then d.exclude d.lane 10
  else if peer then d.exclude (d.peerLane 0) 7
  else d

/-- A contribution not used at three ticks in a row (R250). -/
def execAbsentExclusion (lane : Fin 3) (s : State) : Host.Outcome State Fault Refusal :=
  run (fun d =>
    if d.votesSelf ∧ d.votes lane ∧ 3 ≤ sget zeroAt d.tri.absent lane then
      ({ d with tri := { d.tri with absent := sput zeroAt d.tri.absent lane 0 } } : Device).exclude lane 7
    else d) s

/-- A bit that differs on one lane at 10 ticks in a row: event 0x14D once (R253). -/
def execDiDiscrepancy (lane : Fin 3) (k : Nat) (s : State) : Host.Outcome State Fault Refusal :=
  run (fun d =>
    let key := discKey lane k
    if 10 ≤ sget zeroAt d.tri.discTicks key ∧ !sget falseAt d.tri.discSent key then
      (({ d with tri := { d.tri with discSent := sput falseAt d.tri.discSent key true } } : Device).inc
        Reg.TRI_CNT_DISC).raise 0x14D [wd (if k < 32 then k else 32 + (k - 32) / 2 ^ 22), wd lane]
    else d) s

/-! ## Lane notices (R234, R258) -/

/-- CTRL EXIT: the other lanes ignore the lane's CRCs and contributions from now on. -/
def execCtrlExitReceived (lane : Fin 3) (code : Nat) (s : State) : Host.Outcome State Fault Refusal :=
  run (fun d =>
    if d.isLane ∧ lane.val ≠ d.lane then
      let d1 := d.gotParcel (d.portTo lane)
      let d2 : Device := { d1 with tri := { d1.tri with
        contrib := sput noData d1.tri.contrib lane none, votes := serase lane.val d1.tri.votes,
        exitSeen := lane.val :: d1.tri.exitSeen.filter (fun i => decide (i ≠ lane.val)) } }
      if d2.votes lane then d2.exclude lane code else d2
    else d) s

/-! ## Commands (R263, R270) -/

/-- No engine of the lane is HALTED, STOPPED or FAULT. -/
def Device.enginesFit (d : Device) : Bool :=
  (List.range 24).all (fun e => d.engState e != stHalted && d.engState e != stStopped && d.engState e != stFault)

/-- No Sluice source of R257 code 1 is asserted. -/
def Device.sluiceFit (d : Device) : Bool :=
  !(d.rd Reg.SF_SLUICE_STAT).toNat.testBit slCe && !(d.rd Reg.SF_SLUICE_STAT).toNat.testBit slWd

/-- The bundle ID of the lanes in VOTING, as their last exchange gave it. -/
def Device.triadBundle (d : Device) : Option Word := d.tri.runBundle

/-- The conditions of R263 for readmission. -/
def Device.readmitOk (d : Device) : Bool :=
  let st := d.fld Reg.TRI_LANE_STAT_STATE
  d.isLane && (st == lsExcluded || st == lsShadow) && d.triadBundle == some (d.rd Reg.LDR_BUNDLE_ID)
    && d.enginesFit && d.sluiceFit && !d.votingLanes.isEmpty

/-- Ask the lanes in VOTING for readmission in the next vote exchange (R264 step 1). -/
def Device.askReadmit (d : Device) : Device := { d with tri := { d.tri with readmitReq := true } }

def Device.cmdExclude (d : Device) (arg : Nat) : Device :=
  d.commandNow portTRI 1 arg (d.rd Reg.TRI_LANE_STAT)
    ⟨decide (arg < 3), true, d.votesSelf && d.votes arg && decide (3 ≤ d.votingLanes.length)⟩
    (fun d => { d with tri := { d.tri with exclReq := arg :: d.tri.exclReq } })

def Device.cmdShadow (d : Device) (arg : Nat) : Device :=
  d.commandNow portTRI 2 arg (d.rd Reg.TRI_LANE_STAT)
    ⟨arg == 0, true, d.isLane && d.fld Reg.TRI_LANE_STAT_STATE == lsExcluded⟩ (fun d => d.toLane d.lane lsShadow)

def Device.cmdReadmit (d : Device) (arg : Nat) : Device :=
  d.commandNow portTRI 3 arg (d.rd Reg.TRI_LANE_STAT) ⟨arg == 0, true, d.readmitOk⟩ (fun d => d.askReadmit)

def Device.cmdTriClear (d : Device) (arg : Nat) : Device :=
  d.commandNow portTRI 4 arg 0 ⟨arg == 0, true, true⟩ (fun d => (d.wr Reg.TRI_CNT 0).wr Reg.TRI_SHADOW_DIFF 0)

def execExclude (arg : BitVec 24) (s : State) : Host.Outcome State Fault Refusal :=
  run (fun d => d.cmdExclude arg.toNat) s
def execShadow (arg : BitVec 24) (s : State) : Host.Outcome State Fault Refusal :=
  run (fun d => d.cmdShadow arg.toNat) s
def execReadmit (arg : BitVec 24) (s : State) : Host.Outcome State Fault Refusal :=
  run (fun d => d.cmdReadmit arg.toNat) s
def execTriClearCounters (arg : BitVec 24) (s : State) : Host.Outcome State Fault Refusal :=
  run (fun d => d.cmdTriClear arg.toNat) s

/-- AUTO_READMIT: at most 3 requests after each exclusion (R263). -/
def execAutoReadmitRequest (s : State) : Host.Outcome State Fault Refusal :=
  run (fun d =>
    if d.bit Reg.TRI_CFG_AUTO_READMIT ∧ d.readmitOk ∧ d.fld Reg.TRI_RDM_STAT_ATTEMPTS < 3 ∧ !d.tri.readmitReq then
      (d.inc Reg.TRI_RDM_STAT_ATTEMPTS).askReadmit
    else d) s

/-- AUTO_RESET: a CORE reset of the own device 100 ticks after the exclusion (R263). -/
def execAutoResetRequest (s : State) : Host.Outcome State Fault Refusal :=
  run (fun d =>
    let bad := !d.sluiceFit || (List.range 24).any (fun e => d.engState e == stStopped || d.engState e == stFault)
    match d.tri.exclAt with
    | some t =>
      if d.isLane ∧ d.bit Reg.TRI_CFG_AUTO_RESET ∧ d.fld Reg.TRI_LANE_STAT_STATE = lsExcluded ∧ bad
          ∧ t + 100 ≤ d.tickCount then d.requestReset srcTriAuto
      else d
    | none => d) s

end Sys2Proof.Machine
end

