-- ==== Sys2Proof/Machine/Vote.lean ====
section
/-! DEFINITION. The voter (R254–R262), what the vote exchange carries (R216, R220, R225, R264, R266, R361, R396), and
joining a running triad (R244). -/

namespace Sys2Proof.Machine

def noVote (_ : Nat) : Option VoteMsg := none

/-! ## Vote elements (R254) -/

/-- A segment of the vote map: element number, SAFETY, fabric address. -/
structure Seg where
  id : Nat
  safety : Bool
  addr : Nat
deriving DecidableEq, Repr

/-- The area of a vote map entry: 0 Q, 1 S, 2 N, 3 A. -/
def voteArea (k : Nat) : Nat := if k = 0 then areaQ else if k = 1 then areaS else if k = 2 then areaN else areaA

/-- The 1 KiB segments that enabled vote map entries cover. -/
def Device.segs (d : Device) : List Seg :=
  ((List.range 32).filter (fun i => d.bit (Reg.TRI_VMAP_EN i))).flatMap (fun i =>
    (List.range (d.fld (Reg.TRI_VMAP_LEN_KIB i))).map (fun j =>
      let k := d.fld (Reg.TRI_VMAP_OFF_KIB i) + j
      let ar := d.fld (Reg.TRI_VMAP_AREA i)
      { id := 512 * ar + k, safety := d.bit (Reg.TRI_VMAP_SAFETY i), addr := d.areaBase (voteArea ar) + 1024 * k }))

/-- Element numbers beside the segments: containers, the table of forces, the online change, the state digest of a
commit (log 22). -/
def elCont (n : Nat) : Nat := 0x1000 + n
def elForce : Nat := 0x2000
def elOlc : Nat := 0x2001
def elDigest (tick : Nat) : Nat := 0x10000 + tick

/-- The online change values of R225. -/
def Device.olcVote (d : Device) : Option (Word × Nat × Word × Nat) :=
  if d.olcState = olcArmed then
    d.img.olc.map (fun o => (d.rd Reg.LDR_BUNDLE_ID, o.number, o.crc, o.target))
  else none

/-- Those values as one CRC. -/
def olcCrc (o : Option (Word × Nat × Word × Nat)) : Word :=
  match o with
  | some (b, n, c, t) => crc32c (leBytes 4 b.toNat ++ leBytes 2 n ++ leBytes 4 c.toNat ++ leBytes 8 t)
  | none => 0

/-- The content of an element that lies in the frozen parts: address and length. -/
def Device.elemRange (d : Device) (id : Nat) : Option (Nat × Nat) :=
  if 0x1000 ≤ id ∧ id < 0x1100 then
    some (d.areaBase areaN + d.fld (Reg.SC_CONN_W2_N_OFF (id - 0x1000)), d.scLen (id - 0x1000))
  else ((d.segs.find? (fun x => decide (x.id = id))).map (fun x => (x.addr, 1024)))

/-- The CRC-32C of every element of this lane. -/
def Device.elements (d : Device) : List (Nat × Word) :=
  d.segs.map (fun x => (x.id, crc32c (mapGet d.img.frozen x.addr 1024)))
    ++ d.sc.formed.map (fun n =>
      (elCont n, crc32c (mapGet d.img.frozen (d.areaBase areaN + d.fld (Reg.SC_CONN_W2_N_OFF n)) (d.scLen n))))
    ++ (match d.tri.digest with
      | some (t, w) => [(elDigest t, w)]
      | none => [])
    ++ [(elForce, d.rd Reg.IMG_FORCE_CRC), (elOlc, olcCrc d.olcVote)]

/-- This lane's part of the vote exchange. -/
def Device.ownVote (d : Device) : VoteMsg :=
  { crcs := if d.tick.ready then d.tri.own else []
    ready := d.tick.ready
    state := d.fld Reg.TRI_LANE_STAT_STATE
    forces := if d.img.stagedOwn then d.img.staged else []
    confirmed := decide (d.img.staged ≠ [])
    exclude := d.tri.exclReq
    readmit := d.tri.readmitReq
    armed := d.ldr.armed
    bundle := d.rd Reg.LDR_BUNDLE_ID
    olc := d.olcVote
    key := if d.sc.stageOwn then d.sc.stage else none
    keyOk := d.sc.stage.isSome
    perm := d.fld Reg.SF_SEAL_STAT_PERM_NOW
    tick := d.tickCount }

/-- A vote exchange as parcel payload (layout of log 8). -/
def voteBytes (m : VoteMsg) : List Byte :=
  [BitVec.ofNat 8 m.state, BitVec.ofNat 8 (b2n m.ready + 2 * b2n m.confirmed + 4 * b2n m.readmit + 8 * b2n m.keyOk),
    BitVec.ofNat 8 m.perm] ++ leBytes 8 m.tick ++ leBytes 4 m.bundle.toNat
    ++ (m.crcs.map (fun p => leBytes 8 p.1 ++ leBytes 4 p.2.toNat)).flatten
    ++ m.exclude.map (fun i => BitVec.ofNat 8 i)

/-- t_VOTE in a lane: the element CRCs are computed, and the exchange starts (R254, R256). -/
def Device.voteSend (d : Device) : Device :=
  if !d.isLane then d
  else
    let d1 : Device := { d with tri := { d.tri with own := d.elements } }
    let m := d1.ownVote
    let d1 : Device := match d1.tri.digest with
      | some x => d1.wr Reg.TRI_STATE_DIG x.2
      | none => d1
    let d2 : Device := { d1 with tri := { d1.tri with
      votes := sput noVote [] d1.lane (some m), digest := none, exclReq := [], fetched := [], asked := [] } }
    let d3 : Device := { d2 with tri := { d2.tri with lastPerm := sput zeroAt d2.tri.lastPerm d2.lane m.perm } }
    d3.ring pVOTE (voteBytes m)

/-! ## Majority (R254, R255, R261) -/

/-- The CRC that a lane sent for an element. -/
def Device.crcOf (d : Device) (lane id : Nat) : Option Word :=
  match sget noVote d.tri.votes lane with
  | some m => (m.crcs.find? (fun p => decide (p.1 = id))).map (fun p => p.2)
  | none => none

/-- Every element that a lane in VOTING sent. -/
def Device.elemIds (d : Device) : List Nat :=
  (d.votingLanes.flatMap (fun i => match sget noVote d.tri.votes i with
    | some m => m.crcs.map (fun p => p.1)
    | none => [])).eraseDups

/-- The majority CRC of an element: two of three, both of two, or the only one. -/
def Device.majority (d : Device) (id : Nat) : Option Word :=
  match d.votingLanes.map (fun i => d.crcOf i id) with
  | [a] => a
  | [a, b] => if a = b then a else none
  | [a, b, c] =>
    if a.isSome ∧ (a = b ∨ a = c) then a else if b.isSome ∧ b = c then b else none
  | _ => none

/-- A lane in VOTING is in the minority for an element. -/
def Device.minorityFor (d : Device) (lane id : Nat) : Bool :=
  match d.majority id with
  | some w => d.crcOf lane id != some w
  | none => false

/-- The elements that this lane must fetch: in the frozen parts, with a majority that its own content does not have. -/
def Device.toFetch (d : Device) : List Nat :=
  if d.votesSelf then
    d.elemIds.filter (fun id => d.minorityFor d.lane id && (d.elemRange id).isSome && !sget falseAt d.tri.fetched id)
  else []

/-- Ask a majority lane for each such element (R255). -/
def Device.askSegs (d : Device) : List Nat → Device
  | [] => d
  | id :: t =>
    if d.tri.asked.contains id then d.askSegs t
    else
      match d.votingLanes.find? (fun i => decide (i ≠ d.lane) && !d.minorityFor i id) with
      | some i =>
        (({ d with tri := { d.tri with asked := id :: d.tri.asked } } : Device).kloul (d.portTo i) pSEGMENT
          (0 :: leBytes 8 id)).askSegs t
      | none => d.askSegs t

/-- A SEGMENT parcel: a request (no data), answered from the frozen parts, or the majority content of an element. -/
def execSegmentParcelReceived (lane : Fin 3) (id : Nat) (data : Option (List Byte)) (s : State) :
    Host.Outcome State Fault Refusal :=
  run (fun d =>
    if !d.isLane ∨ lane.val = d.lane then d
    else
      let d1 := d.gotParcel (d.portTo lane)
      match d1.elemRange id, data with
      | some (a, n), none => d1.kloul (d1.portTo lane) pSEGMENT (1 :: leBytes 8 id ++ mapGet d1.img.frozen a n)
      | some (a, n), some l =>
        if d1.toFetch.contains id ∧ l.length = n ∧ d1.majority id = some (crc32c l) then
          { d1 with img := { d1.img with frozen := mapPut d1.img.frozen a l }
                    tri := { d1.tri with fetched := sput falseAt d1.tri.fetched id true } }
        else d1
      | none, _ => d1) s

/-! ## Receiving the exchange; joining a running triad (R244, R266) -/

/-- A lane in JOINING that hears a running triad. -/
def Device.joinRunning (d : Device) (lane : Nat) (m : VoteMsg) : Device :=
  let peer := ((sget noIdent d.tri.idents lane).map (fun x => x.join)).getD (d.rd Reg.TRI_JOIN_CRC)
  if d.fld Reg.TRI_LANE_STAT_STATE ≠ lsJoining ∨ !d.tick.released ∨ d.tri.startSet.contains d.lane then d
  else
    if peer ≠ d.rd Reg.TRI_JOIN_CRC then
      if d.tri.joinTold then d
      else ({ d with tri := { d.tri with joinTold := true } } : Device).raise 0x148
        [d.rd Reg.TRI_JOIN_CRC, peer]
    else if m.bundle = d.rd Reg.LDR_BUNDLE_ID ∧ d.bit Reg.TRI_CFG_AUTO_READMIT then
      d.askReadmit.toLane d.lane lsReadmit
    else
      let d2 := if m.bundle = d.rd Reg.LDR_BUNDLE_ID then d else d.raise 0x153 [d.rd Reg.LDR_BUNDLE_ID, m.bundle]
      d2.toLane d.lane lsShadow

/-- The VOTE parcels of another lane. -/
def execVoteParcelReceived (lane : Fin 3) (m : VoteMsg) (s : State) : Host.Outcome State Fault Refusal :=
  run (fun d =>
    if !d.isLane ∨ lane.val = d.lane then d
    else
      let d1 := d.gotParcel (d.portTo lane)
      let votes := decide (m.state = lsVoting) || decide (m.state = lsMinority)
      if votes && d1.tri.exitSeen.contains lane.val && !d1.votes lane && decide (m.tick ≤ d1.tickCount) then d1
      else
        let d2 : Device := { d1 with
          tri := { d1.tri with
            votes := sput noVote d1.tri.votes lane (some m)
            lastPerm := sput zeroAt d1.tri.lastPerm lane m.perm
            runBundle := if votes then some m.bundle else d1.tri.runBundle
            runTick := if votes then m.tick else d1.tri.runTick
            exitSeen := if votes then d1.tri.exitSeen.filter (fun i => decide (i ≠ lane.val)) else d1.tri.exitSeen }
          img := if m.forces ≠ [] ∧ d1.img.staged = [] then
              { d1.img with staged := m.forces, stagedOwn := false, stagedAge := 0, confirmed := false }
            else d1.img
          sc := if m.key.isSome ∧ d1.sc.stage.isNone then
              { d1.sc with stage := m.key, stageOwn := false, stageAge := 0, stageOk := false }
            else d1.sc }
        let d3 := if d2.img.staged ≠ [] then d2.setF Reg.IMG_STAT_FORCE_PEND 1 else d2
        let d4 := if inService m.state && inService (d3.laneState lane) then d3 else d3.toLane lane m.state
        let d5 := if votes then d4.joinRunning lane m else d4
        d5.askSegs d5.toFetch) s

/-! ## t_VEND (R255, R256, R261) -/

/-- MIN_CONSEC of a lane, as every lane counts it. -/
def Device.minOf (d : Device) (i : Nat) : Nat := sget zeroAt d.tri.minLane i

/-- A lane's minority count of this tick: a lane without CRCs counts (R256). -/
def Device.inMinority (d : Device) (i : Nat) : Bool :=
  match sget noVote d.tri.votes i with
  | some m => !m.ready || d.elemIds.any (fun id => d.minorityFor i id)
  | none => true

/-- The counts and the states VOTING and MINORITY of one lane. -/
def Device.judgeLane (d : Device) (i : Nat) : Device :=
  let bad := decide (d.votingLanes.length = 3) && d.inMinority i
  let n := if bad then min 15 (d.minOf i + 1) else 0
  let nr := match sget noVote d.tri.votes i with
    | some m => if m.ready then 0 else sget zeroAt d.tri.nrLane i + 1
    | none => sget zeroAt d.tri.nrLane i + 1
  let d1 : Device := { d with tri := { d.tri with minLane := sput zeroAt d.tri.minLane i n
                                                  nrLane := sput zeroAt d.tri.nrLane i nr } }
  let d2 := if i = d.lane then
      let x := d1.setF Reg.TRI_LANE_STAT_MIN_CONSEC n
      if bad then x.inc Reg.TRI_CNT_MINORITY else x
    else d1
  d2.toLane i (if bad then lsMinority else lsVoting)

/-- The CRCs of an element, one of each lane in VOTING, as snapshot words. -/
def Device.crcWords (d : Device) (id : Nat) : List Word :=
  d.votingLanes.map (fun i => (d.crcOf i id).getD 0)

/-- The content of a range as committed before: of N as the transmit buffers took it. -/
def Device.prevContent (d : Device) (a n : Nat) : List Byte :=
  if d.areaBase areaN ≤ a ∧ a < d.areaBase areaA then mapGet d.img.committedSb a n else mapGet d.img.committed a n

/-- A range of the frozen parts keeps its previous committed content. -/
def Device.keepPrevious (d : Device) (a n : Nat) : Device :=
  { d with img := { d.img with frozen := mapPut d.img.frozen a (d.prevContent a n) } }

/-- A range of the frozen parts commits as 0. -/
def Device.commitZero (d : Device) (a n : Nat) : Device :=
  { d with img := { d.img with frozen := mapPut d.img.frozen a (List.replicate n 0) } }

/-- The voted content of one element: with no majority among three it stays as it was; in 2oo2 service a segment that
does not match commits as 0 if safety-relevant, else it stays; in 1oo1 service safety-relevant segments commit as 0. -/
def Device.resolve (d : Device) (id : Nat) : Device :=
  let n := d.votingLanes.length
  let safety := d.segs.any (fun x => x.id == id && x.safety)
  match d.elemRange id with
  | none => d
  | some (a, len) =>
    if n = 1 then (if safety then d.commitZero a len else d)
    else if (d.majority id).isSome then d
    else if n = 2 ∧ safety then d.commitZero a len
    else d.keepPrevious a len

/-- The elements without a majority. -/
def Device.noMajority (d : Device) : List Nat := d.elemIds.filter (fun id => (d.majority id).isNone)

/-- Counts and events of elements without majority (three lanes) or without a match (two lanes). -/
def Device.judgeElems (d : Device) : Device :=
  let bad := d.noMajority
  let n := d.votingLanes.length
  if n = 3 then
    let d1 := bad.foldl (fun d id => (d.inc Reg.TRI_CNT_NOMAJ).raise 0x14F (wd id :: d.crcWords id)) d
    { d1 with tri := { d1.tri with noMaj := if bad = [] then 0 else d1.tri.noMaj + 1, mismatch := 0 } }
  else if n = 2 then
    let d1 := bad.foldl (fun d id => d.raise 0x150 [wd id]) d
    { d1 with tri := { d1.tri with mismatch := if bad = [] then 0 else d1.tri.mismatch + 1, noMaj := 0 } }
  else { d with tri := { d.tri with mismatch := 0, noMaj := 0 } }

/-- The lanes that requests name in this exchange. -/
def Device.askedOut (d : Device) : List Nat :=
  (List.range 3).filter (fun i => d.votingLanes.any (fun j => match sget noVote d.tri.votes j with
    | some m => m.exclude.contains i
    | none => false))

/-- A cause with a lower code excludes a lane at this t_VEND. -/
def Device.dueLow (d : Device) (i : Nat) : Bool :=
  decide (d.atLeast1 Reg.TRI_CFG_MIN_LIMIT ≤ d.minOf i) || decide (3 ≤ sget zeroAt d.tri.nrLane i)

/-- Every lane in VOTING satisfies a test on its exchange. -/
def Device.allVotes (d : Device) (p : VoteMsg → Bool) : Bool :=
  d.votingLanes.all (fun i => match sget noVote d.tri.votes i with
    | some m => p m
    | none => false)

/-- Confirmation of staged force changes and keys; both grow older until then (R216, R361). -/
def Device.confirmStaged (d : Device) : Device :=
  let fo := d.img.staged ≠ [] ∧ d.allVotes (fun m => m.confirmed)
  let ke := d.sc.stage.isSome ∧ d.allVotes (fun m => m.keyOk)
  { d with
    img := { d.img with confirmed := d.img.confirmed || decide fo
                        stagedAge := if d.img.staged ≠ [] ∧ !d.img.confirmed then d.img.stagedAge + 1 else 0 }
    sc := { d.sc with stageOk := d.sc.stageOk || decide ke
                      stageAge := if d.sc.stage.isSome ∧ !d.sc.stageOk then d.sc.stageAge + 1 else 0 } }

/-- OLC_AGREE (R225): at t_VEND of the tick before the target. -/
def Device.olcAgree (d : Device) : Device :=
  match d.img.olc with
  | none => d
  | some o =>
    if d.olcState ≠ olcArmed ∨ d.tickCount + 1 ≠ o.target then d
    else
      let ok := d.allVotes (fun m => m.olc == d.olcVote)
      if ok then { d with img := { d.img with olc := some { o with agreed := true } } }
      else if d.votesSelf then
        ((d.setF Reg.IMG_OLC_STAT_STATE olcLoaded).setF Reg.IMG_OLC_STAT_REASON 8).raise 0x10A [wd o.number]
      else d

/-- A lane asks for readmission, and the lanes in VOTING accept it (R264 step 1). -/
def Device.acceptReadmit (d : Device) : Device :=
  let heard := d.votingLanes.any (fun i => (sget noVote d.tri.votes i).isSome && decide (i ≠ d.lane))
  let st := d.fld Reg.TRI_LANE_STAT_STATE
  if d.votesSelf then
    (List.range 3).foldl (fun d i => match sget noVote d.tri.votes i with
      | some m =>
        if m.readmit ∧ i ≠ d.lane ∧ !d.votes i then
          ({ d with tri := { d.tri with donorFor := some i, snap := none } } : Device).toLane i lsReadmit
        else d
      | none => d) d
  else if d.tri.readmitReq ∧ heard ∧ (st = lsExcluded ∨ st = lsShadow ∨ st = lsReadmit) then
    let d1 : Device := { d with tri := { d.tri with readmitReq := false, readmitTicks := 0, xfer := [], finals := [] } }
    (d1.setF Reg.TRI_RDM_STAT_PHASE 1).toLane d1.lane lsReadmit
  else d

/-- Shadow running (R263): the elements that differ from the majority. -/
def Device.shadowDiff (d : Device) : Device :=
  if d.fld Reg.TRI_LANE_STAT_STATE = lsShadow then
    d.satAdd Reg.TRI_SHADOW_DIFF_COUNT ((d.tri.own.filter (fun p => match d.majority p.1 with
      | some w => decide (w ≠ p.2)
      | none => false)).length)
  else d

/-- t_VEND in a lane: the vote result stands. -/
def Device.voteEnd (d : Device) : Device :=
  if !d.isLane then d
  else
    let d1 := d.shadowDiff
    let d2 := if d1.votesSelf then
        let missing := decide (d1.toFetch ≠ [])
        let r := d1.elemIds.foldl (fun d id => d.resolve id) d1.judgeElems
        { r with tick := { r.tick with noCommit := r.tick.noCommit || missing, noState := r.tick.noState || missing } }
      else d1
    let v := d2.votingLanes
    let d3 := v.foldl (fun d i => d.judgeLane i) d2
    let d4 := d3.confirmStaged.olcAgree
    let out := d4.askedOut.filter (fun i => d4.votes i && !d4.dueLow i)
    let d5 := out.foldl (fun d i => d.exclude i 9) d4.linkExclude
    let d6 := d5.acceptReadmit
    { d6 with tick := { d6.tick with
      noCommit := d6.tick.noCommit || (d6.dueLow d6.lane || decide (3 ≤ d6.tri.noMaj) || decide (3 ≤ d6.tri.mismatch)) } }

/-! ## Exclusions decided at t_VEND (R257) -/

/-- MIN_CONSEC of a lane reaches MIN_LIMIT. -/
def execMinorityExclusion (lane : Fin 3) (s : State) : Host.Outcome State Fault Refusal :=
  run (fun d =>
    if d.votesSelf ∧ d.votes lane ∧ d.atLeast1 Reg.TRI_CFG_MIN_LIMIT ≤ d.minOf lane then
      (({ d with tri := { d.tri with minLane := sput zeroAt d.tri.minLane lane 0 } } : Device)).exclude lane
        (if 3 ≤ sget zeroAt d.tri.nrLane lane then 4 else 5)
    else d) s

/-- An element has no majority at three ticks in a row: every lane is excluded. -/
def execNomajExclusion (s : State) : Host.Outcome State Fault Refusal :=
  run (fun d =>
    if d.votesSelf ∧ 3 ≤ d.tri.noMaj then
      d.votingLanes.foldl (fun d i => d.excludeOne i 11) { d with tri := { d.tri with noMaj := 0 } }
    else d) s

/-- A mismatch at three ticks in a row in 2oo2 service: both lanes are excluded. -/
def execTwoLaneMismatchExclusion (s : State) : Host.Outcome State Fault Refusal :=
  run (fun d =>
    if d.votesSelf ∧ 3 ≤ d.tri.mismatch then
      d.votingLanes.foldl (fun d i => d.excludeOne i 10) { d with tri := { d.tri with mismatch := 0 } }
    else d) s

end Sys2Proof.Machine
end

