-- ==== Sys2Proof/Machine/Fo.lean ====
section
/-! DEFINITION. Hot standby (R271–R290): unit states, state copy, the arbiter, stations, and the commands of FO. In the
lane roles a received heartbeat, grant or echo stands for the agreed one (R275; log 23). -/

namespace Sys2Proof.Machine

/-! ## Unit states (R272, R273) -/

def foINIT : Nat := 0
def foSTANDBY : Nat := 1
def foSTALE : Nat := 2
def foACTIVE : Nat := 3
def foNONE : Nat := 4

def Device.foState (d : Device) : Nat := d.fld Reg.FO_STAT_STATE

/-- The unit withholds its outputs (R273). -/
def Device.withheld (d : Device) : Bool := d.bit Reg.FO_CFG_EN && d.foState != foACTIVE

/-- The unit takes a state: event 0x184. -/
def Device.foTo (d : Device) (st : Nat) : Device :=
  let old := d.foState
  if old = st then d
  else (d.setF Reg.FO_STAT_STATE st).raise 0x184 [wd old, wd st, d.rd Reg.FO_CLAIM]

/-- The highest claim seen. -/
def Device.seeClaim (d : Device) (c : Word) : Device :=
  if (d.rd Reg.FO_HIGH_CLAIM).toNat < c.toNat then d.wr Reg.FO_HIGH_CLAIM c else d

/-! ## The copy space (R276, R277) -/

/-- A part of the copy space: 0 memory from an address on, 1 the cells, 2 the SC contexts; length in granules. -/
structure Part where
  kind : Nat
  base : Nat
  grans : Nat
deriving DecidableEq, Repr

/-- The declared state regions. -/
def Device.regionParts (d : Device) : List Part :=
  ((List.range 16).filter (fun i => d.bit (Reg.FO_SREGA_EN i))).map (fun i =>
    ⟨0, d.areaBase (d.fld (Reg.FO_SREGA_AREA i)) + 256 * d.fld (Reg.FO_SREGA_OFF_GR i), d.fld (Reg.FO_SREGB_LEN_GR i)⟩)

/-- The parts of the copy space in order. -/
def Device.copyParts (d : Device) : List Part :=
  ⟨0, 0x7F0000, 256⟩ :: d.regionParts
    ++ (if d.bit Reg.FO_CFG_CELLS then [⟨1, 0, 512⟩] else [])
    ++ (if d.bit Reg.FO_CFG_SC then [⟨2, 0, 16⟩] else [])

/-- The bytes of an SC connection context (R362). -/
def Device.scContext (d : Device) (n : Nat) : List Byte :=
  leBytes 4 (d.rd (Reg.SC_CONN_W5 n)).toNat ++ leBytes 4 (d.rd (Reg.SC_CONN_W6 n)).toNat
    ++ leBytes 4 (d.rd (Reg.SC_CONN_W7 n)).toNat ++ leBytes 4 (sget (fun _ => 0) d.sc.lastCode n).toNat

/-- Write an SC connection context. -/
def Device.setScContext (d : Device) (n : Nat) (l : List Byte) : Device :=
  let d1 := ((d.wr (Reg.SC_CONN_W5 n) (wd (numAt l 0 4))).wr (Reg.SC_CONN_W6 n) (wd (numAt l 4 4))).wr
    (Reg.SC_CONN_W7 n) (wd (numAt l 8 4))
  { d1 with sc := { d1.sc with lastCode := sput (fun _ => 0) d1.sc.lastCode n (wd (numAt l 12 4)) } }

/-- The 16 bytes of a cell: timer cells 0–4095, then counter cells. -/
def Device.cellBytes (d : Device) (n : Nat) : List Byte :=
  if n < 4096 then ((List.range 4).map (fun i => leBytes 4 ((d.tcell n).word i))).flatten
  else ((List.range 4).map (fun i => leBytes 4 ((d.ccell (n - 4096)).word i))).flatten

/-- Write the 16 bytes of a cell. -/
def Device.setCellBytes (d : Device) (n : Nat) (l : List Byte) : Device :=
  let st := numAt l 8 4
  if n < 4096 then
    d.setTcell n { pt := wd (numAt l 0 4), et := wd (numAt l 4 4), acc := numAt l 12 4, kind := st / 8 % 4,
                   base := st / 32 % 4, q := st.testBit 0, inp := st.testBit 1, run := st.testBit 2 }
  else
    d.setCcell (n - 4096) { pv := wd (numAt l 0 4), cv := wd (numAt l 4 4), qu := st.testBit 0, qd := st.testBit 1,
                            cum := st.testBit 2, cdm := st.testBit 3, ovf := st.testBit 4 }

/-- The bytes of a granule of a part as it stands. -/
def Device.partGran (d : Device) (p : Part) (g : Nat) : List Byte :=
  if p.kind = 0 then d.bytes (p.base + 256 * g) 256
  else if p.kind = 1 then ((List.range 16).map (fun i => d.cellBytes (16 * g + i))).flatten
  else ((List.range 16).map (fun i => d.scContext (16 * g + i))).flatten

/-- Write a granule of a part. -/
def Device.setPartGran (d : Device) (p : Part) (g : Nat) (l : List Byte) : Device :=
  if p.kind = 0 then d.setBytes (p.base + 256 * g) l
  else if p.kind = 1 then forN 16 (fun i d => d.setCellBytes (16 * g + i) ((l.drop (16 * i)).take 16)) d
  else forN 16 (fun i d => d.setScContext (16 * g + i) ((l.drop (16 * i)).take 16)) d

/-- The part of a granule, and its place there. -/
def findPart : List Part → Nat → Option (Part × Nat)
  | [], _ => none
  | p :: t, g => if g < p.grans then some (p, g) else findPart t (g - p.grans)

/-- The number of granules of the copy space. -/
def Device.copySize (d : Device) : Nat := (d.copyParts.map (fun p => p.grans)).sum

/-- A granule of the copy space as it stands. -/
def Device.gran (d : Device) (g : Nat) : List Byte :=
  match findPart d.copyParts g with
  | some (p, k) => d.partGran p k
  | none => []

/-- Copy a granule into place. -/
def Device.setGran (d : Device) (g : Nat) (l : List Byte) : Device :=
  match findPart d.copyParts g with
  | some (p, k) => d.setPartGran p k l
  | none => d

def noGran (_ : Nat) : List Byte := List.replicate 256 0

/-- The state commit of a boundary (R211, R278): the granules as committed, and a mark on each that changed. -/
def Device.foCommit (d : Device) : Device :=
  if !d.bit Reg.FO_CFG_EN then d
  else
    forN d.copySize (fun g d =>
      let l := d.gran g
      if l = sget noGran d.fo.space g then d
      else { d with fo := { d.fo with space := sput noGran d.fo.space g l
                                      marks := sput falseAt d.fo.marks g true } }) d

/-! ## Sending copies (R278, R279, R281) -/

/-- The header of a COPY parcel. -/
def copyHead (tick seq kind resync idx cnt : Nat) : List Byte :=
  leBytes 8 tick ++ leBytes 2 seq ++ [BitVec.ofNat 8 kind, BitVec.ofNat 8 resync] ++ leBytes 2 idx
    ++ [BitVec.ofNat 8 cnt, 0]

/-- A DATA payload with one granule. -/
def Device.copyData (d : Device) (resync g : Nat) : List Byte :=
  copyHead d.tickCount (d.fo.cseq) 0 resync g 1 ++ sget noGran d.fo.space g

/-- The active unit sends on K2 (R278). -/
def Device.foSends (d : Device) : Bool :=
  d.bit Reg.FO_CFG_EN && d.foState == foACTIVE && (!d.isLane || d.votesSelf)

/-- STATE_COPY_SEND: the marked granules as committed, the resync granules still to send, and the MARKER. -/
def Device.copySend (d : Device) : Device :=
  if !d.foSends then d
  else
    let d0 : Device := { d with fo := { d.fo with cseq := (d.fo.cseq + 1) % 65536 } }
    let gs := (d0.fo.marks.filter (fun p => p.2)).map (fun p => p.1)
    let payloads := gs.map (fun g => d0.copyData 0 g)
    let d1 := payloads.foldl (fun d l => d.kloul 2 pCOPY l) d0
    let d2 := d1.fo.resyncTodo.foldl (fun d g => d.kloul 2 pCOPY (d.copyData 1 g)) d1
    let mark := copyHead d2.tickCount d2.fo.cseq 1 0 gs.length 0 ++ leBytes 4 (crc32c payloads.flatten).toNat
    let d3 := d2.kloul 2 pCOPY mark
    { d3 with
      fo := { d3.fo with sentCopy := some (d3.fo.cseq, gs), resyncTodo := [],
                         resyncSeq := if d3.fo.resyncSeq.isNone ∧ d3.bit Reg.FO_STAT_RESYNC then some d3.fo.cseq
                           else d3.fo.resyncSeq }
      tick := { d3.tick with copyRunning := true } }

/-- A resync starts (R281): every granule is to be sent, event 0x187. -/
def Device.startResync (d : Device) : Device :=
  let d1 : Device := { d with fo := { d.fo with resyncTodo := List.range d.copySize, resyncSeq := none,
                                                resyncAt := d.tickCount } }
  (d1.setF Reg.FO_STAT_RESYNC 1).raise 0x187 [wd d.copySize]

/-- The standby acknowledges a copy: its marks clear, and a resync ends with it. -/
def Device.copyAcked (d : Device) (seq : Nat) : Device :=
  match d.fo.sentCopy with
  | none => d
  | some (q, gs) =>
    if q ≠ seq then d
    else
      let d1 : Device := { d with
        fo := { d.fo with sentCopy := none, marks := gs.foldl (fun m g => sput falseAt m g false) d.fo.marks }
        tick := { d.tick with copyRunning := false } }
      let d2 := ((d1.setF Reg.TICK_STATUS_ABN_CONSEC 0).setF Reg.FO_COPY_STAT_CSEQ seq).setF Reg.FO_COPY_STAT_GRAN
        gs.length
      if d2.bit Reg.FO_STAT_RESYNC ∧ d2.fo.resyncSeq.isSome then
        (({ d2 with fo := { d2.fo with resyncSeq := none } } : Device).setF Reg.FO_STAT_RESYNC 0).raise 0x188
          [wd (d2.tickCount - d2.fo.resyncAt)]
      else d2

def execCopyAckReceived (seq : Nat) (s : State) : Host.Outcome State Fault Refusal :=
  run (fun d => if d.foSends then (d.gotParcel 2).copyAcked seq else d) s

/-! ## Receiving copies (R279, R280) -/

/-- The unit takes copies. -/
def Device.foTakes (d : Device) : Bool := d.bit Reg.FO_CFG_EN && (d.foState == foSTANDBY || d.foState == foSTALE)

/-- DATA goes into the copy buffer only; resync content is kept apart until its copy completes. -/
def execCopyDataReceived (tick seq : Nat) (resync : Bool) (first : Nat) (data : List Byte) (s : State) :
    Host.Outcome State Fault Refusal :=
  run (fun d =>
    if !d.foTakes then d
    else
      let d0 := d.gotParcel 2
      let n := data.length / 256
      let d1 := d0.setBytes (256 * (d0.fld Reg.FO_BUF_BASE_GR + first)) data
      let gs := (List.range n).map (fun k => (first + k, (data.drop (256 * k)).take 256))
      if resync then
        { d1 with fo := { d1.fo with
          resyncMap := gs.foldl (fun m p => sput noGran m p.1 p.2) d1.fo.resyncMap
          resyncHave := gs.foldl (fun m p => sput falseAt m p.1 true) d1.fo.resyncHave
          toStale := d1.fo.toStale || d1.foState == foSTANDBY } }
      else
        let old := if d1.fo.rxSeq = some seq then (d1.fo.rxGrans, d1.fo.rxBytes) else ([], [])
        { d1 with fo := { d1.fo with
          rxSeq := some seq
          rxGrans := old.1 ++ gs
          rxBytes := old.2 ++ copyHead tick seq 0 0 first n ++ data } }) s

/-- The resync content covers the copy space. -/
def Device.resyncFull (d : Device) : Bool :=
  (List.range d.copySize).all (fun g => sget falseAt d.fo.resyncHave g)

/-- A MARKER whose count and CRC match: the commit marker is written, and ACK returned. -/
def execCopyMarkerReceived (tick seq count : Nat) (crc : Word) (s : State) : Host.Outcome State Fault Refusal :=
  run (fun d =>
    if !d.foTakes then d
    else
      let d0 := d.gotParcel 2
      let rx := if d0.fo.rxSeq = some seq then (d0.fo.rxGrans, d0.fo.rxBytes) else ([], [])
      if rx.1.length ≠ count ∨ crc32c rx.2 ≠ crc then d0
      else
        let d1 : Device := { d0 with fo := { d0.fo with rxSeq := none, rxGrans := [], rxBytes := [], gotCopy := true } }
        let d2 := (((d1.setF Reg.TICK_STATUS_ABN_CONSEC 0).setF Reg.FO_COPY_STAT_CSEQ seq).setF
          Reg.FO_COPY_STAT_GRAN count).kloul 2 pCOPY (copyHead tick seq 2 0 0 0)
        if d2.foState = foSTANDBY then
          { d2 with fo := { d2.fo with ready := d2.fo.ready ++ [⟨seq, tick, crc, rx.1, 0, false⟩] } }
        else
          let m := rx.1.foldl (fun m p => sput noGran m p.1 p.2) d2.fo.resyncMap
          let d3 : Device := { d2 with fo := { d2.fo with resyncMap := m } }
          if d3.resyncFull then
            let all := (List.range d3.copySize).map (fun g => (g, sget noGran m g))
            { d3 with fo := { d3.fo with ready := d3.fo.ready ++ [⟨seq, tick, crc, all, 0, true⟩],
                                         resyncMap := [], resyncHave := [] } }
          else d3) s

/-- A complete copy may be applied: in the lane roles its CRC stands in the receipts of every standby lane in VOTING,
at least two of them (R280). -/
def Device.copyAgreed (d : Device) (c : CopyDone) : Bool :=
  !d.isLane || (decide (2 ≤ d.votingLanes.length)
    && d.votingLanes.all (fun i => i == d.lane || d.fo.peerCrc.contains (i, (c.seq, c.crc))))

/-- Apply one copy whole. -/
def Device.copyPut (d : Device) (c : CopyDone) : Device :=
  let d1 := c.grans.foldl (fun d p => d.setGran p.1 p.2) d
  let t := c.tick + c.passed
  let d2 := (d1.wr Reg.TICK_COUNT_LO (wd t)).wr Reg.TICK_COUNT_HI (wd (t / 2 ^ 32))
  let d3 := if 1 ≤ c.passed then (d2.inc Reg.FO_CNT_LATE).raise 0x18E [wd c.seq] else d2
  if c.resync then (d3.setF Reg.TICK_STATUS_ABN_CONSEC 0).foTo foSTANDBY else d3

/-- COPY_APPLY: at t_HOP, before step 1 of R207, in CSEQ order. -/
def Device.copyApply (d : Device) : Device :=
  if !d.foTakes then d
  else
    let go := d.fo.ready.filter (fun c => d.copyAgreed c)
    let d1 : Device := { d with fo := { d.fo with ready := d.fo.ready.filter (fun c => !d.copyAgreed c), peerCrc := [] } }
    go.foldl (fun d c => d.copyPut c) d1

/-! ## Abandoned copies (R62, R279) -/

/-- At a boundary: a copy of the tick before is not complete. -/
def Device.copyDue (d : Device) : Device :=
  let act := d.foState == foACTIVE && d.tick.copyRunning
  let peer := match d.fo.peer with
    | some h => h.committed
    | none => true
  let sby := d.foState == foSTANDBY && !d.fo.gotCopy && (!d.fo.hbNow || peer)
  { d with
    fo := { d.fo with abandonDue := d.bit Reg.FO_CFG_EN && (act || sby), gotCopy := false
                      ready := d.fo.ready.map (fun c => { c with passed := c.passed + 1 }) }
    tick := { d.tick with copyRunning := false } }

def execStateCopyAbandon (s : State) : Host.Outcome State Fault Refusal :=
  run (fun d =>
    if d.fo.abandonDue then
      let d1 : Device := { d with fo := { d.fo with abandonDue := false, rxSeq := none, rxGrans := [], rxBytes := [] } }
      ((((d1.setF Reg.TICK_FLAGS_ABANDON 1).inc Reg.TICK_ERR_CNT_ABN).inc Reg.TICK_STATUS_ABN_CONSEC).raise 0x04A []).fire 0xED
    else d) s

/-- The standby's ABN_CONSEC reaches 4: it is stale. -/
def execStandbyStale (s : State) : Host.Outcome State Fault Refusal :=
  run (fun d =>
    if d.bit Reg.FO_CFG_EN ∧ d.foState = foSTANDBY ∧ 4 ≤ d.fld Reg.TICK_STATUS_ABN_CONSEC then
      (d.raise 0x04B []).foTo foSTALE
    else d) s

/-! ## Heartbeats, grants, echoes (R282–R284) -/

/-- The arbiter function is in effect. -/
def Device.arbiter (d : Device) : Bool := d.bit Reg.SYS_ROLE_ARBITER

def noHb (_ : Nat) : Option Heartbeat := none

/-- The arbiter takes note of claims. -/
def Device.arbClaim (d : Device) (c : Word) : Device :=
  if d.arbiter ∧ d.fo.maxClaim < c.toNat then { d with fo := { d.fo with maxClaim := c.toNat } } else d

/-- The arbiter's active unit: the last to report ACTIVE with the higher claim. -/
def Device.arbActive (d : Device) (h : Heartbeat) : Device :=
  if d.arbiter ∧ h.state = foACTIVE ∧ d.fo.actClaim ≤ h.claim.toNat then
    ({ d with fo := { d.fo with actClaim := h.claim.toNat } } : Device).setF Reg.FO_ARB_STAT_ACTIVE_UNIT h.unit
  else d

/-- The other unit's heartbeat at this unit. -/
def Device.peerHb (d : Device) (h : Heartbeat) : Device :=
  if d.bit Reg.FO_CFG_EN ∧ h.unit ≠ d.fld Reg.FO_CFG_UNIT then
    let d1 : Device := { d with fo := { d.fo with
      peer := some h, hbNow := true
      toStale := d.fo.toStale || (d.foState == foINIT && h.state == foACTIVE)
      demote := if d.foState = foACTIVE ∧ h.state = foACTIVE ∧ (d.rd Reg.FO_CLAIM).toNat < h.claim.toNat
        then some h.claim else d.fo.demote } }
    let d2 := (d1.setF Reg.FO_STAT_PEER_STATE h.state).seeClaim h.claim
    if d2.foSends ∧ (h.state = foINIT ∨ h.state = foSTALE) ∧ !d2.bit Reg.FO_STAT_RESYNC then d2.startResync else d2
  else d

def execHeartbeatReceived (h : Heartbeat) (s : State) : Host.Outcome State Fault Refusal :=
  run (fun d =>
    let d1 : Device := if d.arbiter then { d with fo := { d.fo with hb := sput noHb d.fo.hb h.unit (some h) } } else d
    (((d1.arbClaim h.claim).arbClaim h.high).arbActive h).peerHb h) s

/-- A grant: accepted by the unit it names from INIT or STANDBY, source 0xEC; a demotion for the other unit. -/
def execGrantReceived (claim : Word) (unit : Nat) (s : State) : Host.Outcome State Fault Refusal :=
  run (fun d =>
    let own := d.fld Reg.FO_CFG_UNIT
    if !d.bit Reg.FO_CFG_EN then d
    else if unit = own then
      if (d.foState = foINIT ∨ d.foState = foSTANDBY) ∧ (d.rd Reg.FO_HIGH_CLAIM).toNat < claim.toNat then
        ({ d with fo := { d.fo with take := some claim } } : Device).fire 0xEC
      else d
    else if d.foState = foACTIVE ∧ (d.rd Reg.FO_CLAIM).toNat < claim.toNat then
      { d with fo := { d.fo with demote := some claim } }
    else d) s

def noEcho (_ : Nat) : Option Bool := none

/-- A station's echo: claims for the arbiter, RCVD for supervision. -/
def execEchoReceived (stn : Fin 64) (high : Word) (rcvd : Bool) (s : State) : Host.Outcome State Fault Refusal :=
  run (fun d =>
    let d1 := d.arbClaim high
    if d1.bit (Reg.FO_STNA_EN stn) ∧ stn ≠ 0 then
      { d1 with fo := { d1.fo with echo := sput noEcho d1.fo.echo stn (some rcvd) } }
    else d1) s

/-- The FO changes of a boundary: UNIT_ACTIVATE, DEMOTION, INIT or STANDBY to STALE (R272, R283, R284). -/
def Device.foBoundary (d : Device) : Device :=
  if !d.bit Reg.FO_CFG_EN then d
  else
    let d0 := ({ d with fo := { d.fo with take := none, demote := none, toStale := false, hbNow := false } } : Device).setB
      Reg.FO_STAT_PEER_SEEN d.fo.hbNow
    match d.fo.take, d.fo.demote with
    | some c, _ =>
      if d.foState = foINIT ∨ d.foState = foSTANDBY then ((d0.wr Reg.FO_CLAIM c).seeClaim c).foTo foACTIVE else d0
    | none, some c =>
      if d.foState = foACTIVE then
        let d1 := ((d0.setF Reg.FO_STAT_YIELD 0).setF Reg.FO_STAT_RESYNC 0).raise 0x186 [d0.rd Reg.FO_CLAIM, c]
        let d2 := (d1.seeClaim c).foTo foSTALE
        if d.bit Reg.FO_STAT_YIELD then d2.finishCmd portFO 0 else d2
      else d0
    | none, none =>
      if d.fo.toStale ∧ (d.foState = foINIT ∨ d.foState = foSTANDBY) then d0.foTo foSTALE else d0

/-! ## The arbiter (R282) -/

/-- The other unit. -/
def otherUnit (u : Nat) : Nat := 3 - u

/-- MISS of a unit. -/
def missFld (u : Nat) : Fld := if u = 1 then Reg.FO_ARB_STAT_MISS_U1 else Reg.FO_ARB_STAT_MISS_U2

/-- Count MISS of a unit at this check. -/
def Device.arbMiss (d : Device) (u : Nat) : Device :=
  let ok := match sget noHb d.fo.hb u with
    | some h => decide (d.fld Reg.FO_ARB_STAT_ACTIVE_UNIT ≠ u) || h.state == foACTIVE
    | none => false
  if ok then d.setF (missFld u) 0 else d.inc (missFld u)

/-- The unit that this check grants to, and whether the takeover case holds without a candidate. -/
def Device.arbChoice (d : Device) : Option Nat × Bool :=
  let a := d.fld Reg.FO_ARB_STAT_ACTIVE_UNIT
  let miss := d.atLeast1 Reg.FO_CFG_HB_MISS
  let hb := fun u => sget noHb d.fo.hb u
  let yields : Bool := match hb a with
    | some h => h.yield
    | none => false
  let g := otherUnit a
  let ovr : Bool := (decide (a = 1) || decide (a = 2)) && (decide (miss ≤ d.fld (missFld a)) || yields)
  let standby : Bool := match hb g with
    | some h => h.state == foSTANDBY
    | none => false
  let pref := d.fld Reg.FO_ARB_CFG_PREF
  let cand : Nat := if (hb pref).isSome then pref
    else if d.atLeast1 Reg.FO_ARB_CFG_START_WAIT ≤ d.fo.prefMiss then otherUnit pref else 0
  let candOk : Bool := match hb cand with
    | some h => h.state == foINIT || h.state == foSTANDBY
    | none => false
  if ovr ∧ standby then (some g, false)
  else if miss ≤ d.fo.noActive ∧ cand ≠ 0 ∧ candOk then (some cand, false)
  else (none, ovr)

/-- Send, or repeat, a grant to unit g. -/
def Device.arbGrant (d : Device) (g : Nat) : Device :=
  let top := max d.fo.maxClaim (d.rd Reg.FO_ARB_CLAIM).toNat
  let miss := [d.rd Reg.FO_ARB_STAT |> fun w => wd (bitsOf w 16 8), wd (d.fld Reg.FO_ARB_STAT_MISS_U2)]
  match d.fo.grantFor with
  | some (c, u) =>
    if u = g then (({ d with fo := { d.fo with grantNow := some (c, u) } } : Device)).inc Reg.FO_CNT_GRANTS
    else if top + 1 < 2 ^ 32 then
      ((({ d with fo := { d.fo with grantFor := some (wd (top + 1), g), grantNow := some (wd (top + 1), g) } } : Device).wr
        Reg.FO_ARB_CLAIM (wd (top + 1))).inc Reg.FO_CNT_GRANTS).raise 0x185 ([wd g, wd (top + 1)] ++ miss)
    else d.raise 0x18D [wd top]
  | none =>
    if top + 1 < 2 ^ 32 then
      ((({ d with fo := { d.fo with grantFor := some (wd (top + 1), g), grantNow := some (wd (top + 1), g) } } : Device).wr
        Reg.FO_ARB_CLAIM (wd (top + 1))).inc Reg.FO_CNT_GRANTS).raise 0x185 ([wd g, wd (top + 1)] ++ miss)
    else d.raise 0x18D [wd top]

/-- The granted unit has reported ACTIVE with the granted claim. -/
def Device.grantDone (d : Device) : Bool :=
  match d.fo.grantFor with
  | some (c, u) => match sget noHb d.fo.hb u with
    | some h => h.state == foACTIVE && h.claim == c
    | none => false
  | none => false

/-- The check at cycle point CHK. -/
def execArbiterCheck (s : State) : Host.Outcome State Fault Refusal :=
  run (fun d =>
    if !d.arbiter then d
    else
      let anyAct := [1, 2].any (fun u => match sget noHb d.fo.hb u with
        | some h => h.state == foACTIVE
        | none => false)
      let d1 := (d.arbMiss 1).arbMiss 2
      let d2 : Device := { d1 with fo := { d1.fo with
        noActive := if anyAct then 0 else d1.fo.noActive + 1
        prefMiss := if (sget noHb d.fo.hb (d.fld Reg.FO_ARB_CFG_PREF)).isSome then 0 else d1.fo.prefMiss + 1
        grantNow := none, grantFor := if d1.grantDone then none else d1.fo.grantFor } }
      let c := d2.arbChoice
      let d3 := match c.1 with
        | some g => ({ d2 with fo := { d2.fo with withheldTold := false } } : Device).arbGrant g
        | none =>
          let d3 : Device := { d2 with fo := { d2.fo with grantFor := none } }
          if c.2 then
            if d3.fo.withheldTold then d3
            else
              let st := match sget noHb d3.fo.hb (otherUnit (d3.fld Reg.FO_ARB_STAT_ACTIVE_UNIT)) with
                | some h => wd h.state
                | none => wd 255
              ({ d3 with fo := { d3.fo with withheldTold := true } } : Device).raise 0x18C
                [st, wd (d3.fld Reg.FO_ARB_STAT_MISS_U1), wd (d3.fld Reg.FO_ARB_STAT_MISS_U2)]
          else { d3 with fo := { d3.fo with withheldTold := false } }
      { d3 with fo := { d3.fo with hb := [] } }) s

/-! ## Payloads that the FO block builds (R282) -/

def Device.hbPayload (d : Device) : List Byte :=
  leBytes 4 (d.rd Reg.FO_CLAIM).toNat ++ [BitVec.ofNat 8 (d.foState % 4),
    BitVec.ofNat 8 (d.fld Reg.FO_STAT_YIELD + 2 * b2n d.fo.committedNow), BitVec.ofNat 8 (d.fld Reg.FO_CFG_UNIT),
    BitVec.ofNat 8 (d.fld Reg.TICK_STATUS_ABN_CONSEC)] ++ leBytes 4 (d.rd Reg.FO_HIGH_CLAIM).toNat
    ++ leBytes 4 (d.tickCount % 2 ^ 32)

/-- The grant of the last check, if it sends one. -/
def Device.grantPayload (d : Device) : Option (List Byte) :=
  d.fo.grantNow.map (fun g => leBytes 4 g.1.toNat ++ [BitVec.ofNat 8 g.2, 0, 0, 0])

def Device.echoPayload (d : Device) : List Byte :=
  leBytes 4 (d.rd Reg.FO_HIGH_CLAIM).toNat
    ++ [BitVec.ofNat 8 (b2n d.fo.cmdRcvd + 2 * d.fld Reg.FO_STAT_ST_EXPIRED), BitVec.ofNat 8 (d.fld Reg.FO_STAT_ST_AGE), 0, 0]

/-! ## Stations (R286–R288) -/

/-- The RX entries that are command frames. -/
def Device.cmdEntries (d : Device) : List Nat :=
  (List.range 256).filter (fun e => d.bit (Reg.SB_TRIG_W0_EN e) && !d.bit (Reg.SB_TRIG_W0_DIR e)
    && d.bit (Reg.SB_TRIG_W0_CMD e))

/-- The buffer of an entry in N: address and length with the status word. -/
def Device.sbBufAt (d : Device) (e : Nat) : Nat := d.areaBase areaN + d.fld (Reg.SB_TRIG_W1_OFF e)
def Device.sbBufLen (d : Device) (e : Nat) : Nat := 4 + 4 * d.fld (Reg.SB_TRIG_W1_LEN_U e)

/-- STATION_ACCEPT: the command frames latched at this boundary with the highest claim are accepted. -/
def Device.stationAccept (d : Device) : Device :=
  if !d.bit Reg.FO_CFG_ST_EN then d
  else
    let new := d.cmdEntries.filter (fun e => (d.num (d.sbBufAt e) 4).testBit 31)
    let claim := fun e => d.num (d.sbBufAt e + 4) 4
    let m := (new.map claim).foldl max 0
    let d1 := d.seeClaim (wd m)
    let high := (d1.rd Reg.FO_HIGH_CLAIM).toNat
    let d2 := new.foldl (fun d e =>
      let c := claim e
      if c = high then
        { d with fo := { d.fo with cmdPrev := sput noBytes d.fo.cmdPrev e (d.bytes (d.sbBufAt e) (d.sbBufLen e)) } }
      else
        let old := sget noBytes d.fo.cmdPrev e
        let l := old ++ List.replicate (d.sbBufLen e - old.length) 0
        let d3 := d.setBytes (d.sbBufAt e) l
        let d4 : Device := { d3 with sb := { d3.sb with buf := sput noBytes d3.sb.buf e (l.drop 4) } }
        (d4.inc Reg.FO_CNT_REJECT).raise 0x189 [wd (d.fld (Reg.SB_TRIG_W0_FID e)), wd c, wd high]) d1
    let d5 := if new.any (fun e => claim e == high) then
        ({ d2 with fo := { d2.fo with anyCmd := true, holdTold := false } } : Device).setF Reg.FO_STAT_ST_AGE 0
      else d2.inc Reg.FO_STAT_ST_AGE
    d5.setB Reg.FO_STAT_ST_EXPIRED
      (!d5.fo.anyCmd || decide (d5.atLeast1 Reg.FO_CFG_HOLD_TICKS < d5.fld Reg.FO_STAT_ST_AGE))

/-- ST_AGE exceeds HOLD_TICKS for the first time (R287). -/
def execHoldExpired (s : State) : Host.Outcome State Fault Refusal :=
  run (fun d =>
    if d.bit Reg.FO_CFG_ST_EN ∧ d.atLeast1 Reg.FO_CFG_HOLD_TICKS < d.fld Reg.FO_STAT_ST_AGE ∧ !d.fo.holdTold then
      (({ d with fo := { d.fo with holdTold := true } } : Device).setF Reg.FO_STAT_ST_EXPIRED 1).raise 0x18A
        [wd (d.fld Reg.FO_STAT_ST_AGE), d.rd Reg.FO_HIGH_CLAIM]
    else d) s

/-- The station holds its field outputs off (R287). -/
def Device.stationOff (d : Device) : Bool := d.bit Reg.FO_CFG_ST_EN && d.bit Reg.FO_STAT_ST_EXPIRED

/-- STATION_INPUT_SUPERVISION of one station (R288). -/
def Device.superviseOne (d : Device) (i : Nat) : Device :=
  let at_ := d.areaBase areaN + d.fld (Reg.FO_STNB_OFF i)
  let len := 4 * d.fld (Reg.FO_STNA_LEN_W i)
  let valid := sget noEcho d.fo.echoLatched i == some true
  let age := if valid then 0 else min 65535 (sget zeroAt d.fo.stnAge i + 1)
  let d1 : Device := { d with fo := { d.fo with stnAge := sput zeroAt d.fo.stnAge i age } }
  let word := d1.areaBase areaN + d1.fld Reg.FO_STN_BASE_OFF + 4 * i
  let d2 := d1.setNum word 4 ((if valid then 2 ^ 31 else 0) + age)
  if valid then
    { d2 with fo := { d2.fo with stnPrev := sput noBytes d2.fo.stnPrev i (d2.bytes at_ len) } }
  else
    let old := sget noBytes d2.fo.stnPrev i
    let l := if d2.bit (Reg.FO_STNA_SUBST i) then List.replicate len 0 else old ++ List.replicate (len - old.length) 0
    let d3 := (d2.setBytes at_ l).inc Reg.FO_CNT_SUBST
    if age = 1 then d3.raise 0x18B [wd i] else d3

/-- Every supervised station, in index order. -/
def Device.supervise (d : Device) : Device :=
  forN 64 (fun i d => if d.bit (Reg.FO_STNA_EN i) ∧ i ≠ 0 then d.superviseOne i else d) d

/-! ## Commands (R284, R290) -/

def Device.cmdSwitchover (d : Device) (arg : Nat) : Device :=
  d.command portFO 1 arg (d.rd Reg.FO_STAT)
    ⟨arg == 0, true, d.foState == foACTIVE && d.fld Reg.FO_STAT_PEER_STATE == foSTANDBY⟩
    (fun d => (({ d with fo := { d.fo with yieldAt := d.tickCount } } : Device).setF Reg.FO_STAT_YIELD 1).beginCmd portFO)

def Device.cmdFoResync (d : Device) (arg : Nat) : Device :=
  d.commandNow portFO 2 arg (d.rd Reg.FO_STAT) ⟨arg == 0, true, d.foState == foACTIVE⟩ (fun d => d.startResync)

def Device.cmdFoClear (d : Device) (arg : Nat) : Device :=
  d.commandNow portFO 3 arg 0 ⟨arg == 0, true, true⟩ (fun d => d.wr Reg.FO_CNT 0)

def execSwitchover (arg : BitVec 24) (s : State) : Host.Outcome State Fault Refusal :=
  run (fun d => d.cmdSwitchover arg.toNat) s
def execFoResync (arg : BitVec 24) (s : State) : Host.Outcome State Fault Refusal :=
  run (fun d => d.cmdFoResync arg.toNat) s
def execFoClearCounters (arg : BitVec 24) (s : State) : Host.Outcome State Fault Refusal :=
  run (fun d => d.cmdFoClear arg.toNat) s

/-- No demotion within 16 ticks: YIELD clears, code 6 (R284). -/
def execSwitchoverTimeout (s : State) : Host.Outcome State Fault Refusal :=
  run (fun d =>
    if d.bit Reg.FO_STAT_YIELD ∧ d.fo.yieldAt + 16 ≤ d.tickCount then
      (d.setF Reg.FO_STAT_YIELD 0).finishCmd portFO 6
    else d) s

end Sys2Proof.Machine
end

