-- ==== Sys2Proof/Machine/Rdm.lean ====
section
/-! DEFINITION. Readmission of a lane (R263–R265): the transfer space, the donors, the quiet boundary, completion and
timeout. -/

namespace Sys2Proof.Machine

/-! ## The transfer space (R264) -/

/-- What a readmission carries, in granules of 256 bytes: SDM; PIM except I; the cells; the SC contexts (kinds of
`Part`); L areas (3); table of forces (4); ENTRY fields (5); banks, online change and FO state (6); entries and
relocations of a loaded change (7, 8); program banks (9). -/
def xferParts : List Part :=
  [⟨0, 0, 32768⟩, ⟨0, 0x1020000, 3584⟩, ⟨1, 0, 512⟩, ⟨2, 0, 16⟩, ⟨3, 0, 6144⟩, ⟨4, 0, 32⟩, ⟨5, 0, 3⟩, ⟨6, 0, 1⟩,
   ⟨7, 0, 3⟩, ⟨8, 0, 8⟩, ⟨9, 0, 24576⟩]

/-- The number of granules of the transfer space. -/
def xferSize : Nat := (xferParts.map (fun p => p.grans)).sum

/-- The words of the single state granule. -/
def Device.miscBytes (d : Device) : List Byte :=
  let o := d.img.olc
  leBytes 4 (d.rd Reg.IMG_BANK).toNat ++ leBytes 4 (d.rd Reg.IMG_OLC_STAT).toNat ++ leBytes 4 (d.rd Reg.FO_STAT).toNat
    ++ leBytes 4 (d.rd Reg.FO_CLAIM).toNat ++ leBytes 4 (d.rd Reg.FO_HIGH_CLAIM).toNat
    ++ leBytes 4 (b2n o.isSome) ++ leBytes 4 ((o.map (fun x => x.mask)).getD 0)
    ++ leBytes 4 ((o.map (fun x => x.number)).getD 0) ++ leBytes 4 ((o.map (fun x => x.crc.toNat)).getD 0)
    ++ leBytes 4 ((o.map (fun x => x.reloc.length)).getD 0)

/-- Take over the single state granule. -/
def Device.setMisc (d : Device) (l : List Byte) : Device :=
  let w := fun i => numAt l (4 * i) 4
  let d1 := ((((d.wr Reg.IMG_BANK (wd (w 0))).wr Reg.IMG_OLC_STAT (wd (w 1))).wr Reg.FO_STAT (wd (w 2))).wr
    Reg.FO_CLAIM (wd (w 3))).wr Reg.FO_HIGH_CLAIM (wd (w 4))
  { d1 with img := { d1.img with
    olc := if w 5 = 1 then
        some { mask := w 6, number := w 7, crc := wd (w 8), target := 0, entries := [],
               reloc := List.replicate (w 9) (0, 0), agreed := false }
      else none } }

/-- ENTRY field k of the loaded online change, with [15] set where it is replaced. -/
def Device.olcEntry (d : Device) (k : Nat) : Nat :=
  match d.img.olc with
  | some o => match o.entries.find? (fun p => decide (p.1 = k)) with
    | some (_, v) => 32768 + v
    | none => 0
  | none => 0

/-- Program word k of the banks, 2 banks of 32,768 words for each engine. -/
def Device.progWord (d : Device) (k : Nat) : Word := sget (fun _ => 0) d.prog k

/-- A granule of the transfer space as it stands. -/
def Device.xferGran (d : Device) (g : Nat) : List Byte :=
  match findPart xferParts g with
  | none => []
  | some (p, k) =>
    if p.kind ≤ 2 then d.partGran p k
    else if p.kind = 3 then (List.range 256).map (fun i => sget byte0 d.larea (256 * k + i))
    else if p.kind = 4 then
      ((List.range 32).map (fun i => leBytes 4 (d.forceEntry (32 * k + i)).1.toNat
        ++ leBytes 4 (d.forceEntry (32 * k + i)).2.toNat)).flatten
    else if p.kind = 5 then
      ((List.range 128).map (fun i => leBytes 2 (d.fld (Reg.TASK_CFG_ENTRY ((128 * k + i) / 16) ((128 * k + i) % 16))))).flatten
    else if p.kind = 6 then d.miscBytes
    else if p.kind = 7 then ((List.range 128).map (fun i => leBytes 2 (d.olcEntry (128 * k + i)))).flatten
    else if p.kind = 8 then
      ((List.range 32).map (fun i =>
        let r := ((d.img.olc.map (fun o => o.reloc)).getD []).getD (32 * k + i) (0, 0)
        leBytes 4 r.1 ++ leBytes 4 r.2)).flatten
    else ((List.range 64).map (fun i => leBytes 4 (d.progWord (64 * k + i)).toNat)).flatten

/-- The loaded online change takes a field. -/
def Device.mapOlc (d : Device) (f : Olc → Olc) : Device := { d with img := { d.img with olc := d.img.olc.map f } }

/-- Replace element i of a list. -/
def putNth (l : List (Nat × Nat)) (i : Nat) (v : Nat × Nat) : List (Nat × Nat) :=
  if i < l.length then l.take i ++ [v] ++ l.drop (i + 1) else l

/-- Take over a granule of the transfer space. -/
def Device.setXferGran (d : Device) (g : Nat) (l : List Byte) : Device :=
  match findPart xferParts g with
  | none => d
  | some (p, k) =>
    if p.kind ≤ 2 then d.setPartGran p k l
    else if p.kind = 3 then d.setLarea (256 * k) l
    else if p.kind = 4 then
      forN 32 (fun i d =>
        let w0 := wd (numAt l (8 * i) 4)
        let v := if w0.msb then some (w0, wd (numAt l (8 * i + 4) 4)) else none
        { d with img := { d.img with force := sput noForce d.img.force (32 * k + i) v } }) d
    else if p.kind = 5 then
      forN 128 (fun i d => d.setF (Reg.TASK_CFG_ENTRY ((128 * k + i) / 16) ((128 * k + i) % 16)) (numAt l (2 * i) 2)) d
    else if p.kind = 6 then d.setMisc l
    else if p.kind = 7 then
      forN 128 (fun i d =>
        let v := numAt l (2 * i) 2
        if v.testBit 15 then d.mapOlc (fun o => { o with entries := o.entries ++ [(128 * k + i, v % 32768)] }) else d) d
    else if p.kind = 8 then
      forN 32 (fun i d => d.mapOlc (fun o =>
        { o with reloc := putNth o.reloc (32 * k + i) (numAt l (8 * i) 4, numAt l (8 * i + 4) 4) })) d
    else
      forN 64 (fun i d => { d with prog := sput (fun _ => 0) d.prog (64 * k + i) (wd (numAt l (4 * i) 4)) }) d

/-! ## Donors (R264 steps 2 to 4) -/

/-- The granules that this donor sends to lane r: a single donor all, else the lane at K0 the even ones. -/
def Device.mine (d : Device) (r g : Nat) : Bool :=
  if d.votingLanes.length ≤ 1 then true
  else if d.lane = (r + 1) % 3 then g % 2 == 0 else g % 2 == 1

/-- Granules that changed since they were last sent: all of them before the bulk pass. -/
def Device.marked (d : Device) (r : Nat) : List Nat :=
  (List.range xferSize).filter (fun g => d.mine r g && match d.tri.snap with
    | none => true
    | some m => d.xferGran g != sget noBytes m g)

/-- Send granules to lane r as XFER parcels, and keep what was sent. -/
def Device.sendGrans (d : Device) (r : Nat) : List Nat → Device
  | [] => d
  | g :: t =>
    let l := d.xferGran g
    let d1 : Device := { d with tri := { d.tri with snap := some (sput noBytes (d.tri.snap.getD []) g l) } }
    (d1.kloul (d1.portTo r) pXFER (leBytes 4 g ++ l)).sendGrans r t

/-- Every context of every voted engine is IDLE. -/
def Device.votedIdle (d : Device) : Bool :=
  (List.range 24).all (fun e => !d.voted e || (List.range 16).all (fun c => d.ctxState e c == 0))

/-- The conditions of a quiet boundary, for a delta of n granules. -/
def Device.quiet (d : Device) (n : Nat) : Bool :=
  d.tri.snap.isSome && decide (n * 256 ≤ d.fld Reg.TRI_RDM_CFG_FINAL_KIB * 1024) && d.votedIdle
    && d.olcState != olcArmed && d.olcState != olcDraining && decide (d.img.staged = [])

/-- The donor's part of a boundary: the bulk pass, then the deltas, and FINAL at a quiet boundary. -/
def Device.donate (d : Device) : Device :=
  match d.tri.donorFor with
  | none => d
  | some r =>
    if !d.votesSelf ∨ d.laneState r ≠ lsReadmit then { d with tri := { d.tri with donorFor := none, snap := none } }
    else
      let gs := d.marked r
      let q := d.quiet gs.length
      let d1 := d.sendGrans r gs
      if q then d1.kloul (d1.portTo r) pXFER (leBytes 4 0xFFFFFFFF ++ leBytes 8 d1.tickCount) else d1

/-! ## The readmitting lane (R264 steps 5 and 6, R265) -/

/-- XFER parcels: granules, or FINAL with the TICK_COUNT of its boundary. Before a start, a member of the start set
takes the donor's retained area (R247). -/
def execXferParcelReceived (lane : Fin 3) (grans : List (Nat × List Byte)) (final : Option Nat) (s : State) :
    Host.Outcome State Fault Refusal :=
  run (fun d =>
    if !d.isLane ∨ lane.val = d.lane then d
    else
      let d1 := d.gotParcel (d.portTo lane)
      if d1.fld Reg.TRI_LANE_STAT_STATE = lsReadmit then
        let d2 : Device := { d1 with tri := { d1.tri with
          xfer := grans.foldl (fun m p => sput noBytes m p.1 p.2) d1.tri.xfer
          finals := match final with
            | some t => (lane.val, t) :: d1.tri.finals.filter (fun p => decide (p.1 ≠ lane.val))
            | none => d1.tri.finals } }
        (d2.setF Reg.TRI_RDM_STAT_PHASE (if final.isSome then 3 else if d2.tri.readmitTicks = 0 then 1 else 2)).setF
          Reg.TRI_RDM_STAT_KIB_LEFT (min 16383 ((xferSize - d2.tri.xfer.length) / 4))
      else if d1.tri.donor = some lane.val ∧ !d1.tick.started then
        { d1 with img := { d1.img with
          retained := grans.foldl (fun m p => mapPut m (256 * p.1) p.2) d1.img.retained } }
      else d1) s

/-- Every donor has sent FINAL for this tick. -/
def Device.finalFor (d : Device) : Bool :=
  !d.votingLanes.isEmpty && d.votingLanes.all (fun i => d.tri.finals.contains (i, d.tickCount))

/-- The readmitting lane at a boundary: it counts the ticks, and without a donor the attempt ends. -/
def Device.readmitTick (d : Device) : Device :=
  if d.isLane ∧ d.fld Reg.TRI_LANE_STAT_STATE = lsReadmit then
    let d1 : Device := { d with tri := { d.tri with readmitTicks := d.tri.readmitTicks + 1 } }
    if d1.votingLanes = [] then d1.abandonReadmit 2 else d1
  else d

/-- READMIT_COMPLETE: before t_HOP the final delta and TICK_COUNT are applied whole; at t_HOP the lane enters VOTING. -/
def Device.readmitDone (d : Device) : Device :=
  if d.isLane ∧ d.fld Reg.TRI_LANE_STAT_STATE = lsReadmit ∧ d.finalFor then
    let d1 := d.tri.xfer.foldl (fun d p => d.setXferGran p.1 p.2) d
    let d2 := forN 24 (fun e d => d.setF (Reg.CE_STATUS_DBG_TOUCHED e) 0) d1.forceStatus
    let d3 := (d2.setF Reg.TRI_RDM_STAT_PHASE 0).setF Reg.TRI_RDM_STAT_KIB_LEFT 0
    let d4 := (({ d3 with tri := { d3.tri with xfer := [], finals := [] } } : Device).toLane d3.lane lsVoting)
    d4.raise 0x14B [wd d4.lane, wd d4.tri.readmitTicks]
  else d

/-- No quiet boundary within TIMEOUT_TICKS (R265). -/
def execReadmitTimeout (s : State) : Host.Outcome State Fault Refusal :=
  run (fun d =>
    if d.atLeast1 Reg.TRI_RDM_CFG_TIMEOUT_TICKS ≤ d.tri.readmitTicks then d.abandonReadmit 1 else d) s

end Sys2Proof.Machine
end

