-- ==== Sys2Proof/Machine/Sb.lean ====
section
/-! DEFINITION. The Sahtu bus (R291–R331): frames, windows, references, node states, the schedule switch, the guardian,
and the commands of SB and SBG. -/

namespace Sys2Proof.Machine

def sbOFF : Nat := 0
def sbLISTEN : Nat := 1
def sbINTEGRATING : Nat := 2
def sbACTIVE : Nat := 3
def sbPASSIVE : Nat := 4
def sbHALT : Nat := 5

def gdOFF : Nat := 0
def gdLISTEN : Nat := 1
def gdSYNC : Nat := 2
def gdLOST : Nat := 3
def gdCLOSED : Nat := 4

def Device.sbState (d : Device) : Nat := d.fld Reg.SB_STAT_STATE
def Device.gdState (d : Device) : Nat := d.fld Reg.SBG_STAT_STATE

/-- G in ns. -/
def Device.guardNs (d : Device) : Nat := d.fld Reg.SB_TIMING_GUARD_NS

/-- m and the window count of a schedule, in the controller and in the guardian. -/
def Device.sbM (d : Device) (s : Nat) : Nat := bitsOf (d.rd Reg.SB_MTX_CFG) (4 * s) 3
def Device.sbCnt (d : Device) (s : Nat) : Nat := bitsOf (d.rd Reg.SB_WIN_CNT) (8 * s) 7
def Device.gdM (d : Device) (s : Nat) : Nat := bitsOf (d.rd Reg.SBG_MTX_CFG) (4 * s) 3
def Device.gdCnt (d : Device) (s : Nat) : Nat := bitsOf (d.rd Reg.SBG_WIN_CNT) (8 * s) 7

def Device.sched (d : Device) : Nat := d.fld Reg.SB_STAT_ACTIVE_SCHED
def Device.cycle (d : Device) : Nat := d.fld Reg.SB_STAT_CYCLE

/-! ## The sending lane of a triad node (R322, R323) -/

/-- Lane i qualifies: in VOTING or MINORITY, and its SB state is ACTIVE. -/
def Device.sbQualifies (d : Device) (i : Nat) : Bool :=
  d.votes i && (if i = d.lane then d.sbState else sget zeroAt d.sb.peer i) == sbACTIVE

/-- The sending lane that the rules give; 3 for none. -/
def Device.sbSender (d : Device) : Nat := ((List.range 3).find? (fun i => d.sbQualifies i)).getD 3

/-- Bring SENDER up to date: a change to a lower letter waits for the next boundary. -/
def Device.sbElect (d : Device) (boundary : Bool) : Device :=
  if !d.isLane then d
  else
    let old := d.fld Reg.SB_STAT_SENDER
    let new := d.sbSender
    if old = new ∨ (!boundary ∧ new < old ∧ d.sbQualifies old) then d
    else (d.setF Reg.SB_STAT_SENDER new).raise 0x1CE [wd old, wd new]

/-- This device drives the bus: the only device of its node, or the sending lane. -/
def Device.sbDrives (d : Device) : Bool := !d.isLane || d.fld Reg.SB_STAT_SENDER == d.lane

/-- Cold start is run by the sending lane alone; before any lane is ACTIVE, by the lowest lane in VOTING. -/
def Device.sbStarts (d : Device) : Bool :=
  !d.isLane || (d.votesSelf && d.votingLanes.head? == some d.lane)

/-- The node takes a state: event 0x1C4, and in a lane a CTRL notice. -/
def Device.sbTo (d : Device) (st : Nat) : Device :=
  let old := d.sbState
  if old = st then d
  else
    let d1 := (d.setF Reg.SB_STAT_STATE st).raise 0x1C4 [wd old, wd st]
    let d2 := if d1.isLane then d1.ring pCTRL [1, BitVec.ofNat 8 d1.lane, BitVec.ofNat 8 st] else d1
    d2.sbElect false

def execCtrlSbStateReceived (lane : Fin 3) (st : Fin 6) (s : State) : Host.Outcome State Fault Refusal :=
  run (fun d =>
    if d.isLane ∧ lane.val ≠ d.lane then
      let d1 := d.gotParcel (d.portTo lane)
      ({ d1 with sb := { d1.sb with peer := sput zeroAt d1.sb.peer lane st } } : Device).sbElect false
    else d) s

/-! ## Frames (R293–R296) -/

/-- A header without its HCRC: NODE_ID, FID, LEN, CYCLE and flags REF, STARTUP, NULL, STATUS, CMD. -/
def sbHeader (node fid len cycle flags : Nat) : Nat :=
  node % 64 * 2 ^ 42 + fid % 1024 * 2 ^ 32 + len % 256 * 2 ^ 24 + cycle % 64 * 2 ^ 18 + flags % 32 * 2 ^ 13

/-- HCRC over header bits [47:11] (R295). -/
def hcrc (h : Nat) : Nat := crcM 11 0x385 0x7FF (bitsMsb 37 (h / 2 ^ 11))

/-- The 6 header bytes, most significant first. -/
def headBytes (h : Nat) : List Byte := (List.range 6).map (fun i => BitVec.ofNat 8 (h / 256 ^ (5 - i)))

/-- A frame as it is sent: header bytes and payload bytes. The frame CRC follows them on the line (R296). -/
def sbFrame (h : Nat) (payload : List Byte) : List Byte := headBytes (h + hcrc h) ++ payload

/-- The window of index w in the active schedule. -/
def Device.winType (d : Device) (w : Nat) : Nat := d.fld (Reg.SB_WIN_A_TYPE d.sched w)
def Device.winFid (d : Device) (w : Nat) : Nat := d.fld (Reg.SB_WIN_B_FID d.sched w)

/-- A trigger entry acts in the current basic cycle (R303). -/
def Device.trigActs (d : Device) (e : Nat) : Bool :=
  d.bit (Reg.SB_TRIG_W0_EN e) && decide (d.cycle % 2 ^ d.fld (Reg.SB_TRIG_W0_REP e) = d.fld (Reg.SB_TRIG_W0_BASE e))

/-- The enabled entry of a direction for a frame ID that acts now. -/
def Device.trigFor (d : Device) (tx : Bool) (fid : Nat) : Option Nat :=
  (List.range 256).find? (fun e => d.trigActs e && d.bit (Reg.SB_TRIG_W0_DIR e) == tx
    && d.fld (Reg.SB_TRIG_W0_FID e) == fid)

/-! ## The guardian's gate (R320) -/

/-- The guardian's gate in window w of its schedule. -/
def Device.gateOpen (d : Device) (w : Nat) : Bool :=
  let s := d.fld Reg.SBG_STAT_SCHED
  let ty := d.fld (Reg.SBG_WIN_A_TYPE s w)
  d.bit Reg.SBG_CFG_EN && d.gdState == gdSYNC
    && (if ty = 0 then d.bit Reg.SBG_CFG_COLDSTART
        else if ty = 1 then d.bit (Reg.SBG_WIN_B_OWN s w)
          && decide (d.fld Reg.SBG_STAT_CYCLE % 2 ^ d.fld (Reg.SBG_WIN_B_REP s w) = d.fld (Reg.SBG_WIN_B_BASE s w))
        else ty == 2)

/-- GATE as both blocks show it. -/
def Device.showGate (d : Device) (b : Bool) : Device := (d.setB Reg.SBG_STAT_GATE b).setB Reg.SB_STAT_GATE b

/-- GUARDIAN_BLOCK: a transmit request at a shut gate is refused; counted once per basic cycle. -/
def Device.guardBlock (d : Device) (w : Nat) : Device :=
  if d.sb.blocked then d
  else (({ d with sb := { d.sb with blocked := true } } : Device).inc Reg.SBG_CNT_BLOCKED).raise 0x1E0
    [wd w, d.rd Reg.SBG_STAT]

/-! ## Transmission (R300, R301, R305, R306) -/

/-- The buffer of a TX entry meets the container of an enabled TX connection; a unit that is not active forms none, and the
entry carries nothing (R273, R306). -/
def Device.carriesContainer (d : Device) (e : Nat) : Bool :=
  let a := d.sbBufAt e
  (List.range 256).any (fun n => d.scTx n
    && decide (a < d.areaBase areaN + d.fld (Reg.SC_CONN_W2_N_OFF n) + d.scLen n)
    && decide (d.areaBase areaN + d.fld (Reg.SC_CONN_W2_N_OFF n) < a + 4 * d.fld (Reg.SB_TRIG_W1_LEN_U e)))

/-- The payload of a TX entry at its action point, and whether it is a null frame; none: no frame is sent. -/
def Device.txPayload (d : Device) (e : Nat) : Option (List Byte × Bool) :=
  let len := 4 * d.fld (Reg.SB_TRIG_W1_LEN_U e)
  let src := d.fld (Reg.SB_TRIG_W0_SRC e)
  let cmd := d.bit (Reg.SB_TRIG_W0_CMD e)
  if cmd ∧ d.withheld then none
  else if src = 0 then
    if d.sb.committed ∧ ¬ (d.withheld ∧ d.carriesContainer e) then
      let l := mapGet d.img.committedSb (d.sbBufAt e) len
      let claim := if d.bit Reg.FO_CFG_EN then (d.rd Reg.FO_CLAIM).toNat else 0
      some (if cmd then leBytes 4 claim ++ l.drop 4 else l, false)
    else if cmd then none
    else some ([], true)
  else if src = 1 then some (d.hbPayload, false)
  else if src = 2 then d.grantPayload.map (fun l => (l, false))
  else if src = 3 then some (d.echoPayload, false)
  else if src = 4 then
    some ([BitVec.ofNat 8 d.sbState, BitVec.ofNat 8 (128 * b2n d.sb.ackDue + d.fld Reg.SB_MODE_STAT_NEXT),
      BitVec.ofNat 8 (b2n d.sb.rxErrPrev), 0] ++ leBytes 4 (d.rd Reg.SB_MTX_COUNT).toNat, false)
  else none

/-- Put a frame on the bus. -/
def Device.sbSend (d : Device) (what : Nat) (l : List Byte) : Device :=
  ({ d with sb := { d.sb with sending := some what } } : Device).send (.sahtu l)

/-- Send the frame of TX entry e in window w, through the guardian. -/
def Device.txEntry (d : Device) (e w : Nat) : Device :=
  match d.txPayload e with
  | none => d
  | some (l, null) =>
    let d0 := d.showGate (d.gateOpen w)
    if !d0.gateOpen w then (d0.setF (Reg.SB_TRIG_W2_LAST_OK e) 0).guardBlock w
    else
      let src := d0.fld (Reg.SB_TRIG_W0_SRC e)
      let flags := 4 * b2n null + 2 * b2n (src == 4) + d0.fld (Reg.SB_TRIG_W0_CMD e)
      let h := sbHeader (d0.fld Reg.SB_CFG_NODE_ID) (d0.fld (Reg.SB_TRIG_W0_FID e)) (l.length / 4) d0.cycle flags
      let d1 := ((d0.sbSend e (sbFrame h l)).setF (Reg.SB_TRIG_W2_LAST_OK e) 1).incMod (Reg.SB_TRIG_W2_COUNT e)
      let d2 : Device := { d1 with sb := { d1.sb with window := w } }
      let d3 := if src = 4 ∧ d2.sb.ackDue then d2.setF Reg.SB_MODE_STAT_ACKED 1 else d2
      if src = 3 then d3.setB Reg.FO_STAT_ST_RCVD d3.fo.cmdRcvd else d3

/-- The node may transmit. -/
def Device.sbMaySend (d : Device) : Bool :=
  d.sbState == sbACTIVE && !d.bit Reg.SB_CFG_LISTEN_ONLY && d.sbDrives

/-- The action point of window w: the frame of an EXCL window that this node owns. -/
def execFrameTransmit (w : Fin 64) (s : State) : Host.Outcome State Fault Refusal :=
  run (fun d =>
    if d.sbMaySend ∧ w.val < d.sbCnt d.sched ∧ d.winType w = 1 then
      match d.trigFor true (d.winFid w) with
      | some e => d.txEntry e w
      | none => d
    else d) s

/-- The minislot counter of ARB window w advances, or starts at FID_LO; a pending frame of that ID starts if the window
end lies far enough ahead. -/
def execArbMinislot (w : Fin 64) (first room : Bool) (s : State) : Host.Outcome State Fault Refusal :=
  run (fun d =>
    if !(d.sbState == sbACTIVE || d.sbState == sbPASSIVE) || d.winType w != 2 || decide (d.sbCnt d.sched ≤ w.val) then d
    else
      let slot := if first then d.winFid w else d.sb.slot + 1
      let d1 : Device := { d with sb := { d.sb with slot := slot } }
      if d1.sbMaySend ∧ slot ≤ d1.fld (Reg.SB_WIN_B_FID_HI d1.sched w) then
        match d1.trigFor true slot with
        | some e =>
          if room then d1.txEntry e w
          else (d1.inc Reg.SB_ERR_2_ARB_LATE).raise 0x1CF [wd slot]
        | none => d1
      else d1) s

/-! ## Reception (R304, R308, R328) -/

/-- A receive error: counted, and reported by the status frame of the next basic cycle. -/
def Device.rxError (d : Device) (f : Fld) : Device :=
  ({ d with sb := { d.sb with rxErr := true } } : Device).inc f

/-- The frame ID that window w, or its minislot counter, expects. -/
def Device.fidFits (d : Device) (w fid : Nat) : Bool :=
  if d.winType w = 2 then fid == d.sb.slot || fid + 1 == d.sb.slot else decide (d.winType w = 1) && fid == d.winFid w

def noShadow (_ : Nat) : Option SbRx := none

/-- A valid frame: the master collects acknowledgements; the entry's shadow takes it. -/
def Device.rxFrame (d : Device) (h : Nat) (payload : List Byte) : Device :=
  let node := h / 2 ^ 42 % 64
  let fid := h / 2 ^ 32 % 1024
  let len := h / 2 ^ 24 % 256
  let cyc := h / 2 ^ 18 % 64
  let null := (h / 2 ^ 15) % 2 == 1
  let status := (h / 2 ^ 14) % 2 == 1
  let d1 : Device :=
    if status ∧ numAt payload 1 1 / 128 = 1 ∧ numAt payload 1 1 % 4 = d.fld Reg.SB_MODE_STAT_NEXT
        ∧ numAt payload 4 4 = (d.rd Reg.SB_MTX_COUNT).toNat then
      { d with sb := { d.sb with acks := d.sb.acks ||| 2 ^ node } }
    else d
  match d1.trigFor false fid with
  | none => d1
  | some e =>
    let want := d1.fld (Reg.SB_TRIG_W1_NODE e)
    if !(len = d1.fld (Reg.SB_TRIG_W1_LEN_U e) ∨ (null ∧ len = 0)) then
      (d1.setF (Reg.SB_TRIG_W2_LAST_OK e) 0).rxError Reg.SB_ERR_1_TIMING
    else if want ≠ 0 ∧ want ≠ node then d1.setF (Reg.SB_TRIG_W2_LAST_OK e) 0
    else
      let d2 := (d1.setF (Reg.SB_TRIG_W2_LAST_OK e) 1).incMod (Reg.SB_TRIG_W2_COUNT e)
      if null then d2
      else
        let d3 : Device := { d2 with sb := { d2.sb with
          shadow := sput noShadow d2.sb.shadow e (some ⟨node, len, cyc, payload⟩) } }
        let d4 : Device := if d3.bit (Reg.SB_TRIG_W0_CMD e) ∧ (d3.rd Reg.FO_HIGH_CLAIM).toNat ≤ numAt payload 0 4 then
            { d3 with fo := { d3.fo with cmdRcvd := true } }
          else d3
        d4.scFrame (d4.fld (Reg.SB_TRIG_W1_OFF e)) (leBytes 4 0 ++ payload)

/-- A frame in window w: header bits, payload, frame CRC as received; whether the coding and the timing are good. -/
def execFrameReceived (w : Fin 64) (header : BitVec 48) (payload : List Byte) (fcrc : Word) (codeOk timingOk : Bool)
    (s : State) : Host.Outcome State Fault Refusal :=
  run (fun d =>
    let h := header.toNat
    let len := h / 2 ^ 24 % 256
    let fid := h / 2 ^ 32 % 1024
    if !(d.sbState == sbACTIVE || d.sbState == sbPASSIVE) ∨ h / 2 ^ 42 = d.fld Reg.SB_CFG_NODE_ID then d
    else
      let d0 : Device := { d with sb := { d.sb with seen := w.val :: d.sb.seen } }
      if hcrc h ≠ h % 2 ^ 11 then d0.rxError Reg.SB_ERR_0_HCRC
      else if !codeOk ∨ 64 < len ∨ payload.length ≠ 4 * len then d0.rxError Reg.SB_ERR_1_CODE
      else if !timingOk ∨ !d.fidFits w fid ∨ (d.sb.seen.contains w.val ∧ d.winType w ≠ 2) then
        d0.rxError Reg.SB_ERR_1_TIMING
      else if crc32c (headBytes h ++ payload) ≠ fcrc then d0.rxError Reg.SB_ERR_0_FCRC
      else
        let d1 : Device := if d0.winType w = 2 then { d0 with sb := { d0.sb with slot := fid } } else d0
        d1.rxFrame h payload) s

/-- The RX buffers of the P0 latch (R304): status word and payload into the raw input image. -/
def Device.sbLatch (d : Device) : Device :=
  let d1 := forN 256 (fun e d =>
    if !d.bit (Reg.SB_TRIG_W0_EN e) || d.bit (Reg.SB_TRIG_W0_DIR e) then d
    else
      let d1 : Device := match sget noShadow d.sb.shadow e with
        | some f =>
          (({ d with sb := { d.sb with
              buf := sput noBytes d.sb.buf e f.payload
              last := sput zeroAt d.sb.last e (f.node * 2 ^ 24 + f.len * 2 ^ 16 + f.cycle * 2 ^ 10) } } : Device).setF
            (Reg.SB_TRIG_W2_AGE e) 0)
        | none => d.inc (Reg.SB_TRIG_W2_AGE e)
      let new := (sget noShadow d.sb.shadow e).isSome
      let word := (if new then 2 ^ 31 else 0) + sget zeroAt d1.sb.last e + d1.fld (Reg.SB_TRIG_W2_AGE e)
      { d1 with img := { d1.img with
        latch := mapPut d1.img.latch (d1.sbBufAt e) (leBytes 4 word ++ sget noBytes d1.sb.buf e) } }) d
  { d1 with sb := { d1.sb with shadow := [] } }

/-! ## Truncation, start-up collision, halt (R292, R313, R316) -/

/-- A start-up reference fails read-back: it is aborted, and the back-off begins. -/
def Device.sbCollide (d : Device) : Device :=
  ((({ d with sb := { d.sb with sending := none, backoff := true } } : Device).inc Reg.SB_ERR_2_COLL).setF
    Reg.SB_FLAGS_COLL 1) |> fun d => d.raise 0x1C6 [wd (d.fld Reg.SB_ERR_2_COLL)]

/-- TRUNCATION of an own frame. -/
def Device.sbTruncate (d : Device) (what : Nat) : Device :=
  let n := if d.sb.truncNow then d.sb.truncs else d.sb.truncs + 1
  let fid := if what < 256 then d.fld (Reg.SB_TRIG_W0_FID what) else 0
  let d1 : Device := { d with sb := { d.sb with sending := none, truncNow := true, truncs := n } }
  let d2 := ((d1.inc Reg.SB_ERR_2_TRUNC).setF Reg.SB_STAT_TRUNC_CONSEC (min 63 n)).setF Reg.SB_FLAGS_TRUNC 1
  let d3 := if what < 256 then d2.setF (Reg.SB_TRIG_W2_LAST_OK what) 0 else d2
  ((d3.raise 0x1C9 [wd fid, wd d3.sb.window, wd n])).sbTo sbPASSIVE

/-- SB_RX differs from SB_TX during an own transmission. `cut` says that the guardian shut its gate. -/
def execReadbackFailure (cut : Bool) (s : State) : Host.Outcome State Fault Refusal :=
  run (fun d =>
    match d.sb.sending with
    | none => d
    | some what =>
      let d1 := if cut then d.inc Reg.SBG_CNT_CUTS else d
      if what = 257 then d1.sbCollide
      else if d1.sbState = sbACTIVE then d1.sbTruncate what
      else d1) s

/-- TRUNC_CONSEC reaches TRUNC_LIMIT. -/
def execNodeHalt (s : State) : Host.Outcome State Fault Refusal :=
  run (fun d =>
    if (d.sbState = sbACTIVE ∨ d.sbState = sbPASSIVE) ∧ d.atLeast1 Reg.SB_CFG_TRUNC_LIMIT ≤ d.sb.truncs then
      ((d.setF Reg.SB_FLAGS_HALTED 1).raise 0x1CA [wd (d.fld Reg.SB_ERR_2_TRUNC)]).sbTo sbHALT
    else d) s

/-! ## References (R309–R315) -/

/-- A basic cycle begins: what counts once per basic cycle starts anew. -/
def Device.newBasicCycle (d : Device) (start cyc : Nat) : Device :=
  let d1 : Device := { d with
    sb := { d.sb with start := start, truncs := if d.sb.truncNow then d.sb.truncs else 0, truncNow := false
                      seen := [], blocked := false, rxErrPrev := d.sb.rxErr, rxErr := false, missed := 0
                      sending := none, slot := 0 }
    fo := { d.fo with cmdRcvd := false } }
  (d1.setF Reg.SB_STAT_TRUNC_CONSEC (min 63 d1.sb.truncs)).setF Reg.SB_STAT_CYCLE cyc

/-- The time master changes: event 0x1C7; an announcement in progress is abandoned (R311). -/
def Device.newMaster (d : Device) (m delay : Nat) : Device :=
  let old := d.fld Reg.SB_STAT_MASTER_ID
  let d1 := d.setB Reg.SB_STAT_IS_MASTER (m == d.fld Reg.SB_CFG_NODE_ID)
  if old = m then d1
  else
    let d2 := ((d1.setF Reg.SB_STAT_MASTER_ID m).setF Reg.SB_FLAGS_MASTER_CHG 1).raise 0x1C7 [wd old, wd m, wd delay]
    { d2 with sb := { d2.sb with abandonNext := d2.sb.abandonNext || d2.fld Reg.SB_MODE_STAT_ANNOUNCE != 0
                                 request := none } }
      |>.setF Reg.SB_MODE_STAT_ANNOUNCE 0

/-- What a reference says of the schedule, at the first one of a matrix cycle (R327). -/
def Device.modeRef (d : Device) (r : SbRef) : Device :=
  if r.cycle ≠ 0 then d
  else
    let old := d.sched
    let holds := decide (d.sbCnt r.next ≠ 0) && decide (d.gdCnt r.next ≠ 0) && d.gdState != gdCLOSED
    let d1 := ((d.setF Reg.SB_MODE_STAT_NEXT r.next).setF Reg.SB_MODE_STAT_ANNOUNCE (if r.valid then r.announce else 0)).setF
      Reg.SB_MODE_STAT_ACKED 0
    let d2 : Device := { d1 with sb := { d1.sb with ackDue := r.valid && holds } }
    let d3 := if r.valid ∧ r.announce = 1 then d2.raise 0x1CB [wd r.next, wd r.mtx] else d2
    let d4 := if r.active ≠ old then
        (((d3.setF Reg.SB_STAT_ACTIVE_SCHED r.active).inc Reg.SB_MODE_STAT_SWITCHES).setF Reg.SB_FLAGS_MODE_SWITCHED 1).raise
          0x1CC [wd old, wd r.active, wd r.mtx]
      else d3
    if r.abandon then
      ((d4.inc Reg.SB_MODE_STAT_ABANDONS).setF Reg.SB_FLAGS_MODE_ABANDONED 1).raise 0x1CD
        [wd r.next, wd r.ack, wd (r.ack / 2 ^ 32)]
    else d4

/-- The registers that a valid reference sets, and the source event of the tick (R310). -/
def Device.takeRef (d : Device) (r : SbRef) (start : Nat) : Device :=
  let d1 := (((d.newBasicCycle start r.cycle).newMaster r.master r.delay).wr Reg.SB_MTX_COUNT (wd r.mtx)).wr
    Reg.SB_REF_TIME_LO (wd r.ts)
  ((d1.wr Reg.SB_REF_TIME_HI (wd (r.ts / 2 ^ 32))).modeRef r).sourceEvent srcSAHTU start

/-- Two references follow each other (R314). -/
def Device.refFollows (d : Device) (r : SbRef) (start : Nat) : Bool :=
  match d.sb.prevRef with
  | none => false
  | some (s0, c0) =>
    let diff : Int := (start : Int) - s0 - 1000 * d.periodUs
    decide (diff.natAbs ≤ 2 * d.fld Reg.SB_TIMING_ACC_WIN_NS) && decide (d.sbCnt r.active ≠ 0)
      && decide (r.cycle = (c0 + 1) % 2 ^ d.sbM r.active)

/-- A valid regular reference; its start delimiter is received now. -/
def execReferenceReceived (r : SbRef) (s : State) : Host.Outcome State Fault Refusal :=
  run (fun d =>
    let start := d.ts64 - (2 * d.guardNs + 1000 * r.delay)
    let st := d.sbState
    if st = sbLISTEN then
      (({ d with sb := { d.sb with prevRef := some (start, r.cycle), backoff := false } } : Device).sbTo sbINTEGRATING)
    else if st = sbINTEGRATING then
      let d1 : Device := { d with sb := { d.sb with prevRef := some (start, r.cycle) } }
      if d.refFollows r start then
        ((d1.setF Reg.SB_STAT_ACTIVE_SCHED r.active).takeRef r start).sbTo
          (if d.bit Reg.SB_CFG_LISTEN_ONLY then sbPASSIVE else sbACTIVE)
      else d1
    else if st = sbACTIVE ∨ st = sbPASSIVE then
      let d1 := d.takeRef r start
      if d1.sbCnt r.active = 0 then (d1.raise 0x1D0 [wd r.active]).sbTo sbLISTEN
      else if st = sbPASSIVE ∧ !d.bit Reg.SB_CFG_LISTEN_ONLY then d1.sbTo sbACTIVE
      else d1
    else d) s

/-- The 32 payload bytes of a reference. -/
def sbRefPayload (r : SbRef) : List Byte :=
  [BitVec.ofNat 8 r.master, BitVec.ofNat 8 (r.active + 4 * b2n r.locked)] ++ leBytes 2 r.delay ++ leBytes 4 r.mtx
    ++ leBytes 8 r.ts
    ++ [BitVec.ofNat 8 (128 * b2n r.valid + 64 * b2n r.abandon + 16 * r.announce + r.next), 0, 0, 0, 0, 0, 0, 0]
    ++ leBytes 8 r.ack

/-- Every node of the required set acknowledged. -/
def Device.allAcked (d : Device) (acks : Nat) : Bool :=
  let need := (d.rd Reg.SB_MODE_REQ_LO).toNat + (d.rd Reg.SB_MODE_REQ_HI).toNat * 2 ^ 32
  (List.range 64).all (fun n => !(need.testBit n) || acks.testBit n)

/-- The request byte of R325, as committed last. -/
def Device.modeByte (d : Device) : Nat :=
  (sget byte0 d.img.committedSb (d.areaBase areaN + d.fld Reg.SB_MODE_CFG_REQ_OFF)).toNat

/-- The master's decision at the first reference of a matrix cycle (R325, R327): the next mode fields. -/
def Device.modeNext (d : Device) (r : SbRef) : SbRef :=
  let ann := d.fld Reg.SB_MODE_STAT_ANNOUNCE
  let next := d.fld Reg.SB_MODE_STAT_NEXT
  if d.sb.abandonNext then { r with abandon := true, next := next, ack := d.sb.acks }
  else if ann = 1 then { r with valid := true, announce := 2, next := next, ack := d.sb.acks }
  else if ann = 2 then
    if d.allAcked d.sb.acks ∧ d.allAcked d.sb.acks1 then { r with active := next, next := next, ack := d.sb.acks }
    else { r with abandon := true, next := next, ack := d.sb.acks }
  else
    let b := d.modeByte
    if d.bit Reg.SB_MODE_CFG_EN ∧ b ≠ d.sb.lastByte ∧ 128 ≤ b ∧ b % 4 ≠ d.sched then
      { r with valid := true, announce := 1, next := b % 4 }
    else r

/-- The time master sends a reference with its delay: a backup takes over with delay > 0. -/
def Device.sendRef (d : Device) (delay : Nat) : Device :=
  let first := d.sb.starter
  let cyc := if first then 0 else (d.cycle + 1) % 2 ^ d.sbM d.sched
  let mtx := if first then 0 else if cyc = 0 then ((d.rd Reg.SB_MTX_COUNT).toNat + 1) % 2 ^ 32
    else (d.rd Reg.SB_MTX_COUNT).toNat
  let start := d.tick.boundaryTs
  let base : SbRef := {
    master := d.fld Reg.SB_CFG_NODE_ID, active := d.sched, locked := d.tbLocked, delay := delay,
    mtx := mtx, ts := start, valid := false, abandon := false, announce := 0, next := 0, ack := 0, cycle := cyc }
  let r := if cyc = 0 then d.modeNext base else
    { base with valid := decide (d.fld Reg.SB_MODE_STAT_ANNOUNCE ≠ 0), announce := d.fld Reg.SB_MODE_STAT_ANNOUNCE
                next := d.fld Reg.SB_MODE_STAT_NEXT, ack := d.sb.acks1 }
  if !d.gateOpen 0 ∧ !first then (d.showGate false).guardBlock 0
  else
    let d1 := (d.showGate true).takeRef r start
    let d2 : Device := if cyc = 0 then
        { d1 with sb := { d1.sb with acks1 := d.sb.acks, acks := 0, lastByte := d.modeByte, abandonNext := false } }
      else d1
    ({ d2 with sb := { d2.sb with starter := false, window := 0 } } : Device).sbSend 256
      (sbFrame (sbHeader r.master 0 8 cyc 16) (sbRefPayload r))

/-- The time master's reference at its expected time. -/
def execReferenceSend (s : State) : Host.Outcome State Fault Refusal :=
  run (fun d => if d.sbMaySend ∧ d.bit Reg.SB_STAT_IS_MASTER then d.sendRef 0 else d) s

/-- The potential masters in rank order, without the current one. -/
def Device.backups (d : Device) : List Nat :=
  ([d.fld Reg.SB_MASTERS_RANK_0, d.fld Reg.SB_MASTERS_RANK_1, d.fld Reg.SB_MASTERS_RANK_2,
    d.fld Reg.SB_MASTERS_RANK_3].filter (fun n => decide (n ≠ 0) && n != d.fld Reg.SB_STAT_MASTER_ID))

/-- Backup k sends the reference when none has appeared by k × REF_GAP_US. -/
def execBackupReferenceSend (s : State) : Host.Outcome State Fault Refusal :=
  run (fun d =>
    match (d.backups.zipIdx).find? (fun p => p.1 == d.fld Reg.SB_CFG_NODE_ID) with
    | some (_, i) =>
      if d.sbMaySend ∧ !d.bit Reg.SB_STAT_IS_MASTER then
        (d.newMaster (d.fld Reg.SB_CFG_NODE_ID) ((i + 1) * d.fld Reg.SB_REF_CFG_REF_GAP_US)).sendRef
          ((i + 1) * d.fld Reg.SB_REF_CFG_REF_GAP_US)
      else d
    | none => d) s

/-- No valid reference by the deadline (R312): the node completes the basic cycle on its own timer; at the second
consecutive miss it enters LISTEN. -/
def execReferenceMissing (s : State) : Host.Outcome State Fault Refusal :=
  run (fun d =>
    if d.sbState ≠ sbACTIVE ∧ d.sbState ≠ sbPASSIVE then d
    else
      let cyc := (d.cycle + 1) % 2 ^ d.sbM d.sched
      let n := d.sb.missed + 1
      let mtx := if cyc = 0 then ((d.rd Reg.SB_MTX_COUNT).toNat + 1) % 2 ^ 32 else (d.rd Reg.SB_MTX_COUNT).toNat
      let d1 := ((d.inc Reg.SB_ERR_2_REF_MISS).setF Reg.SB_FLAGS_REF_MISS 1).raise 0x1C8 [wd mtx, wd cyc]
      let d2 := d1.newBasicCycle (d.sb.start + 1000 * d.periodUs) cyc
      let d3 : Device := { d2 with sb := { d2.sb with missed := n
                                                      abandonNext := d2.sb.abandonNext
                                                        || d2.fld Reg.SB_MODE_STAT_ANNOUNCE != 0 } }
      let d4 := d3.setF Reg.SB_MODE_STAT_ANNOUNCE 0
      if 2 ≤ n then (d4.setF Reg.SB_STAT_IS_MASTER 0).sbTo sbLISTEN else d4) s

/-- A cold-start node sends a startup reference after its listen time; `ok` says that no read-back failure occurred. -/
def execStartupReferenceSend (ok : Bool) (s : State) : Host.Outcome State Fault Refusal :=
  run (fun d =>
    if d.sbState ≠ sbLISTEN ∨ !d.bit Reg.SB_CFG_COLDSTART ∨ d.bit Reg.SB_CFG_LISTEN_ONLY ∨ !d.sbStarts
        ∨ d.sb.backoff then d
    else
      let node := d.fld Reg.SB_CFG_NODE_ID
      let sch := d.fld Reg.SB_MTX_CFG_INIT_SCHED
      if !d.bit Reg.SBG_CFG_EN ∨ !d.bit Reg.SBG_CFG_COLDSTART ∨ !(d.gdState = gdLISTEN ∨ d.gdState = gdLOST) then
        d.guardBlock 0
      else
        let r : SbRef := {
          master := node, active := sch, locked := d.tbLocked, delay := 0, mtx := 0, ts := d.ts64,
          valid := false, abandon := false, announce := 0, next := 0, ack := 0, cycle := 0 }
        let d1 := d.sbSend 257 (sbFrame (sbHeader node 0 8 0 24) (sbRefPayload r))
        if !ok then d1.sbCollide
        else
          let d2 : Device := { d1 with sb := { d1.sb with sending := none, starter := true } }
          let d3 := ((d2.raise 0x1C5 [wd node, wd sch]).newMaster node 0).setF Reg.SB_STAT_ACTIVE_SCHED sch
          ((d3.setF Reg.SB_STAT_CYCLE 0).wr Reg.SB_MTX_COUNT 0).sbTo sbACTIVE) s

/-- A startup reference of another node: it starts no basic cycle. -/
def execStartupReferenceReceived (s : State) : Host.Outcome State Fault Refusal :=
  run (fun d =>
    if d.sbState = sbLISTEN then
      ({ d with sb := { d.sb with prevRef := none, backoff := false } } : Device).sbTo sbINTEGRATING
    else d) s

/-- The collision back-off of NODE_ID × 16 µs ends; the node listens again. -/
def execBackoffEnd (s : State) : Host.Outcome State Fault Refusal :=
  run (fun d => { d with sb := { d.sb with backoff := false } }) s

/-- No valid reference in time while integrating. -/
def execIntegrationTimeout (s : State) : Host.Outcome State Fault Refusal :=
  run (fun d =>
    if d.sbState = sbINTEGRATING then ({ d with sb := { d.sb with prevRef := none } } : Device).sbTo sbLISTEN else d) s

/-! ## The guardian (R317–R321) -/

/-- The guardian takes a state that holds its gate shut: event 0x1E3. -/
def Device.gdShut (d : Device) (st cause : Nat) : Device :=
  (((d.showGate false).setF Reg.SBG_STAT_STATE st).setF Reg.SBG_STAT_CLOSE_CAUSE cause).raise 0x1E3 [wd cause, wd st]

/-- The CRC-32C over SBG_MTX_CFG, SBG_WIN_CNT and the window tables, in offset order (R318). -/
def Device.gdCrc (d : Device) : Word :=
  crc32c (leBytes 4 (d.rd Reg.SBG_MTX_CFG).toNat ++ leBytes 4 (d.rd Reg.SBG_WIN_CNT).toNat
    ++ ((List.range 256).map (fun i => leBytes 4 (d.rd (Reg.SBG_WIN_A (i / 64) (i % 64))).toNat
      ++ leBytes 4 (d.rd (Reg.SBG_WIN_B (i / 64) (i % 64))).toNat)).flatten)

/-- The check of the guardian's schedule. -/
def Device.gdCheck (d : Device) : Device :=
  let c := d.gdCrc
  if !d.bit Reg.SBG_CFG_EN ∨ (d.gdState = gdCLOSED ∧ d.fld Reg.SBG_STAT_CLOSE_CAUSE ≠ 3)
      ∨ c = d.rd Reg.SBG_SCHED_CRC then d
  else (d.raise 0x1E1 [c, d.rd Reg.SBG_SCHED_CRC]).gdShut gdCLOSED 1

def execGuardianCrcCheck (s : State) : Host.Outcome State Fault Refusal :=
  run (fun d => d.gdCheck) s

/-- The release of the guardian: CONFIG compare, schedule check, LISTEN (R317, R318). -/
def Device.gdStart (d : Device) : Device :=
  if !d.bit Reg.SBG_CFG_EN then d
  else
    let d1 := d.setF Reg.SBG_STAT_STATE gdLISTEN
    if d1.fld Reg.SBG_CFG_NODE_ID ≠ d1.fld Reg.SB_CFG_NODE_ID
        ∨ d1.fld Reg.SBG_CFG_COLDSTART ≠ d1.fld Reg.SB_CFG_COLDSTART
        ∨ d1.fld Reg.SBG_TIMING_GUARD_NS ≠ d1.fld Reg.SB_TIMING_GUARD_NS then d1.gdShut gdCLOSED 2
    else d1.gdCheck

/-- An accepted summary: the guardian's cycle, its schedule at CYCLE 0 (R321), and integration. -/
def Device.gdAccept (d : Device) (cyc active implied : Nat) : Device :=
  let prev := d.sb.gdPrev
  let d1 := (({ d with sb := { d.sb with gdBad := 0, gdMiss := 0, gdPrev := some implied } } : Device).setF
    Reg.SBG_STAT_CYCLE cyc)
  let st := d1.gdState
  if st = gdCLOSED then
    if d1.gdCnt active ≠ 0 then
      ((d1.setF Reg.SBG_STAT_SCHED active).setF Reg.SBG_STAT_CLOSE_CAUSE 0).setF Reg.SBG_STAT_STATE gdSYNC
    else d1
  else if st = gdSYNC then
    if cyc = 0 ∧ active ≠ d1.fld Reg.SBG_STAT_SCHED then
      if d1.gdCnt active ≠ 0 then d1.setF Reg.SBG_STAT_SCHED active else d1.gdShut gdCLOSED 3
    else d1
  else
    match prev with
    | some p =>
      let diff : Int := (implied : Int) - p - 1000 * d.periodUs
      if diff.natAbs ≤ 2 * d.guardNs then (d1.setF Reg.SBG_STAT_SCHED active).setF Reg.SBG_STAT_STATE gdSYNC else d1
    | none => d1

/-- A refused summary: at the second in a row the guardian is LOST. -/
def Device.gdRefuse (d : Device) (cyc implied observed : Nat) : Device :=
  let n := d.sb.gdBad + 1
  let d1 := ((({ d with sb := { d.sb with gdBad := n } } : Device).inc Reg.SBG_CNT_REFUSED).raise 0x1E2
    [wd cyc, wd implied, wd observed])
  if 2 ≤ n ∧ d1.gdState = gdSYNC then
    ({ d1 with sb := { d1.sb with gdPrev := none, gdBad := 0 } } : Device).gdShut gdLOST (d1.fld Reg.SBG_STAT_CLOSE_CAUSE)
  else d1

/-- The controller's summary of a reference: the start it implies and the first edge that the detector saw, both on the
guardian's timer in ns; whether its CRC-8 holds. -/
def execGuardianSummary (cyc : Fin 64) (active : Fin 4) (startup : Bool) (implied observed : Nat) (crcOk : Bool)
    (s : State) : Host.Outcome State Fault Refusal :=
  run (fun d =>
    let st := d.gdState
    if !d.bit Reg.SBG_CFG_EN ∨ st = gdOFF ∨ (st = gdCLOSED ∧ d.fld Reg.SBG_STAT_CLOSE_CAUSE ≠ 3) ∨ startup then d
    else
      let diff : Int := (implied : Int) - observed
      let next := (d.fld Reg.SBG_STAT_CYCLE + 1) % 2 ^ d.gdM (d.fld Reg.SBG_STAT_SCHED)
      let cycOk := decide (cyc.val = next) || decide (cyc.val = 0) || decide (st ≠ gdSYNC)
      if crcOk ∧ diff.natAbs ≤ d.fld Reg.SBG_TIMING_GUARD_NS ∧ cycOk then d.gdAccept cyc active implied
      else d.gdRefuse cyc implied observed) s

/-- No summary arrives for a reference: at the second in a row the guardian is LOST. -/
def execGuardianSummaryMissing (s : State) : Host.Outcome State Fault Refusal :=
  run (fun d =>
    if d.gdState ≠ gdSYNC then d
    else
      let n := d.sb.gdMiss + 1
      let next := (d.fld Reg.SBG_STAT_CYCLE + 1) % 2 ^ d.gdM (d.fld Reg.SBG_STAT_SCHED)
      let d1 := ({ d with sb := { d.sb with gdMiss := n } } : Device).setF Reg.SBG_STAT_CYCLE next
      if 2 ≤ n then
        ({ d1 with sb := { d1.sb with gdMiss := 0, gdPrev := none } } : Device).gdShut gdLOST
          (d1.fld Reg.SBG_STAT_CLOSE_CAUSE)
      else d1) s

/-! ## Cycle points and commands (R324, R330, R331) -/

/-- Cycle point i fires. -/
def execCyclePoint (i : Fin 32) (s : State) : Host.Outcome State Fault Refusal :=
  run (fun d =>
    if d.bit (Reg.SB_CP_EN i) ∧ (d.sbState = sbACTIVE ∨ d.sbState = sbPASSIVE)
        ∧ d.cycle % 2 ^ d.fld (Reg.SB_CP_REP i) = d.fld (Reg.SB_CP_BASE i) then
      let d1 := if d.bit (Reg.SB_CP_ROUTE i) then d.fire (0x40 + i.val) else d
      if d1.bit (Reg.SB_CP_SYNC i) ∧ d1.fld Reg.TB_PPS_CFG_SYNC_SRC = 2 then d1.send .syncout else d1
    else d) s

def Device.cmdSbClear (d : Device) (arg : Nat) : Device :=
  d.clearCmd portSB arg (fun d => ((d.wr Reg.SB_ERR_0 0).wr Reg.SB_ERR_1 0).wr Reg.SB_ERR_2 0)

def Device.cmdSbResume (d : Device) (arg : Nat) : Device :=
  d.commandNow portSB 2 arg (d.rd Reg.SB_STAT) ⟨arg == 0, true, d.sbState == sbHALT⟩ (fun d =>
    (({ d with sb := { d.sb with truncs := 0, truncNow := false } } : Device).setF Reg.SB_STAT_TRUNC_CONSEC 0).sbTo sbLISTEN)

def Device.cmdListenOnly (d : Device) (arg : Nat) : Device :=
  d.commandNow portSB 3 arg (d.rd Reg.SB_STAT)
    ⟨decide (arg < 2), true, d.sbState == sbACTIVE || d.sbState == sbPASSIVE || d.sbState == sbINTEGRATING⟩
    (fun d =>
      let d1 := d.setF Reg.SB_CFG_LISTEN_ONLY arg
      if arg = 1 ∧ d1.sbState = sbACTIVE then d1.sbTo sbPASSIVE
      else if arg = 0 ∧ d1.sbState = sbPASSIVE then d1.sbTo sbACTIVE
      else d1)

def Device.cmdSbgClear (d : Device) (arg : Nat) : Device :=
  d.clearCmd portSBG arg (fun d => d.wr Reg.SBG_CNT 0)

def execSbClearCounters (arg : BitVec 24) (s : State) : Host.Outcome State Fault Refusal :=
  run (fun d => d.cmdSbClear arg.toNat) s
def execSbResume (arg : BitVec 24) (s : State) : Host.Outcome State Fault Refusal :=
  run (fun d => d.cmdSbResume arg.toNat) s
def execListenOnly (arg : BitVec 24) (s : State) : Host.Outcome State Fault Refusal :=
  run (fun d => d.cmdListenOnly arg.toNat) s
def execSbgClearCounters (arg : BitVec 24) (s : State) : Host.Outcome State Fault Refusal :=
  run (fun d => d.cmdSbgClear arg.toNat) s

end Sys2Proof.Machine
end

