-- ==== Sys2Proof/Machine/Eth.lean ====
section
/-! DEFINITION. Ethernet ports (R332–R336, R342, R346, R348–R351, R355): receive table, host queue, sending lane, launch
queues, timestamps, calibration, and the commands of ETH. -/

namespace Sys2Proof.Machine

/-! ## Links and the sending lane (R334) -/

def Device.ethLink (d : Device) (p : Nat) : Bool := d.bit (Reg.ETH_STAT_LINK p)

/-- LINK of port p in lane i. -/
def Device.linkIn (d : Device) (i p : Nat) : Bool :=
  if i = d.lane then d.ethLink p else sget falseAt d.eth.peerLink (3 * i + p)

/-- A lane qualifies as sender on a port: it counts as in VOTING, and its port reports LINK = 1. -/
def Device.ethFit (d : Device) (i p : Nat) : Bool := d.votes i && d.linkIn i p

/-- The lowest lane that qualifies; 3: none. -/
def Device.ethBest (d : Device) (p : Nat) : Nat := ((List.range 3).find? (fun i => d.ethFit i p)).getD 3

def noLane (_ : Nat) : Nat := 3

/-- The sending lane in effect on a port; 3: none. -/
def Device.ethSender (d : Device) (p : Nat) : Nat := sget noLane d.eth.sender p

/-- This device sends on the port. -/
def Device.sends (d : Device) (p : Nat) : Bool := if d.isLane then d.ethSender p == d.lane else d.ethLink p

/-- A new sending lane: event 0x20D, and SENDING. -/
def Device.setSender (d : Device) (p i : Nat) : Device :=
  let old := d.ethSender p
  if old = i then d
  else
    let d1 : Device := { d with eth := { d.eth with sender := sput noLane d.eth.sender p i } }
    (d1.setB (Reg.ETH_STAT_SENDING p) (i == d.lane)).raise 0x20D [wd p, wd old, wd i]

/-- When the lanes learned of the last change that concerns the sender of a port. -/
def Device.senderAt (d : Device) (p : Nat) : Nat :=
  let i := d.ethSender p
  max (sget zeroAt d.tri.stateAt i) (sget zeroAt d.eth.linkAt (3 * i + p))

/-- A change away from a lane that has stopped qualifying, at a launch time at least 5 µs after it was learned. -/
def Device.senderAway (d : Device) (p : Nat) : Device :=
  if d.isLane ∧ !d.ethFit (d.ethSender p) p ∧ (d.ethSender p = 3 ∨ d.senderAt p + 5000 ≤ d.ts64) then
    d.setSender p (d.ethBest p)
  else d

/-- A boundary: a lane of lower letter takes over, and a change away takes effect (log 25). -/
def Device.ethBoundary (d : Device) : Device :=
  forN 3 (fun p d =>
    if !d.isLane then d
    else if d.ethBest p < d.ethSender p ∧ d.ethFit (d.ethSender p) p then d.setSender p (d.ethBest p)
    else d.senderAway p) d

/-- CTRL link notice: kind 2 (log 8). -/
def ctrlLink (lane port : Nat) (up : Bool) : List Byte :=
  [2, BitVec.ofNat 8 lane, BitVec.ofNat 8 port, BitVec.ofNat 8 (b2n up)]

/-- A port's link goes up or down (R334, R346): event 0x204, a CTRL notice to the other lanes, the calibration after the
first link-up. -/
def execEthLinkChange (port : Fin 3) (up : Bool) (speed : Fin 3) (s : State) : Host.Outcome State Fault Refusal :=
  run (fun d =>
    let p := port.val
    if !d.bit (Reg.ETH_CFG_EN p) then d
    else
      let d1 := (d.setB (Reg.ETH_STAT_LINK p) up).setF (Reg.ETH_STAT_SPEED p)
        (if p = 2 then d.fld (Reg.ETH_CFG_SPEED 2) else speed.val)
      let d2 := d1.raise 0x204 [wd p, wd (b2n up), wd (d1.fld (Reg.ETH_STAT_SPEED p))]
      let cal := up && !sget falseAt d2.eth.wasUp p && d2.bit (Reg.ETH_CFG_CAL_EN p)
      let d3 : Device := { d2 with eth := { d2.eth with
        wire := if up then d2.eth.wire else sput falseAt d2.eth.wire p false
        wasUp := if up then sput falseAt d2.eth.wasUp p true else d2.eth.wasUp
        calRun := if cal then sput falseAt d2.eth.calRun p true else d2.eth.calRun
        linkAt := sput zeroAt d2.eth.linkAt (3 * d2.lane + p) d2.ts64 } }
      if d3.isLane then d3.ring pCTRL (ctrlLink d3.lane p up) else d3.setB (Reg.ETH_STAT_SENDING p) up) s

/-- A link notice of another lane. -/
def execCtrlLinkStateReceived (lane port : Fin 3) (up : Bool) (s : State) : Host.Outcome State Fault Refusal :=
  run (fun d =>
    if d.isLane ∧ lane.val ≠ d.lane then
      let d1 := d.gotParcel (d.portTo lane)
      { d1 with eth := { d1.eth with
        peerLink := sput falseAt d1.eth.peerLink (3 * lane.val + port.val) up
        linkAt := sput zeroAt d1.eth.linkAt (3 * lane.val + port.val) d1.ts64 } }
    else d) s

/-! ## Reception (R333, R335, R336, R338) -/

/-- The number in n bytes of a frame, first byte highest. -/
def beAt (l : List Byte) (o n : Nat) : Nat := leNat ((l.drop o).take n).reverse

/-- The offset of the EtherType: behind one IEEE 802.1Q tag if present. -/
def typeAt (l : List Byte) : Nat := if beAt l 12 2 = 0x8100 then 16 else 12

def etherType (l : List Byte) : Nat := beAt l (typeAt l) 2

/-- The UDP destination port of an IPv4 datagram with no options and no fragmentation. -/
def udpPort (l : List Byte) : Option Nat :=
  let o := typeAt l + 2
  if etherType l = 0x0800 ∧ beAt l o 1 = 0x45 ∧ beAt l (o + 9) 1 = 17 ∧ beAt l (o + 6) 2 % 0x4000 = 0 then
    some (beAt l (o + 22) 2)
  else none

/-- The place of a PTP message in a frame of the configured transport (R343). -/
def Device.ptpAt (d : Device) (l : List Byte) : Option Nat :=
  if d.fld Reg.TB_CFG_TRANSPORT = 0 then (if etherType l = 0x88F7 then some (typeAt l + 2) else none)
  else if udpPort l = some 319 ∨ udpPort l = some 320 then some (typeAt l + 30) else none

/-- The own address of a port as bytes. -/
def Device.macOf (d : Device) (p : Nat) : List Byte :=
  leBytes 4 (d.rd (Reg.ETH_MAC_LO p)).toNat ++ leBytes 2 (d.fld (Reg.ETH_MAC_HI_MAC p))

/-- The destination is the port's own address, broadcast or multicast. -/
def Device.forPort (d : Device) (p : Nat) (l : List Byte) : Bool := l.take 6 == d.macOf p || beAt l 0 1 % 2 == 1

/-- Entry e takes a frame of port p. -/
def Device.rxMatch (d : Device) (p : Nat) (l : List Byte) (e : Nat) : Bool :=
  d.bit (Reg.ETH_RXA_EN e) && d.bitAt (Reg.ETH_RXA_PORTS e) p &&
    (if d.bit (Reg.ETH_RXA_KIND e) then udpPort l == some (d.fld (Reg.ETH_RXA_VALUE e))
     else etherType l == d.fld (Reg.ETH_RXA_VALUE e))

/-- A timestamp at the MII boundary corrected by the receive latency of the PHY (R338; log 26). -/
def Device.rxTime (d : Device) (p mii : Nat) : Nat := mii - d.fld (Reg.ETH_LAT_RX_100PS p) / 10

/-- A timestamp at the MII boundary corrected by the transmit latency of the PHY (R338; log 26). -/
def Device.txTime (d : Device) (p mii : Nat) : Nat := mii + d.fld (Reg.ETH_LAT_TX_100PS p) / 10

def noEth (_ : Nat) : Option EthRx := none

/-- The status word of a buffer but for NEW and AGE. -/
def EthRx.word (f : EthRx) : Nat := 2 ^ 30 * b2n f.trunc + 2 ^ 28 * f.port + f.len % 2048

/-- The fabric address of an entry's buffer. -/
def Device.ethBufAt (d : Device) (e : Nat) : Nat := d.areaBase areaN + d.fld (Reg.ETH_RXB_OFF e)

/-- A frame goes into the shadow of entry e; containers in it are verified (R367); EVT fires the port's source. -/
def Device.ethStore (d : Device) (p e ts : Nat) (l : List Byte) : Device :=
  let n := d.fld (Reg.ETH_RXB_LEN e)
  let f : EthRx := ⟨p, l.length, decide (n < l.length), ts, l.take n⟩
  let d1 : Device := { d with eth := { d.eth with shadow := sput noEth d.eth.shadow e (some f) } }
  let d2 := d1.scFrame (d1.fld (Reg.ETH_RXB_OFF e)) (leBytes 4 f.word ++ leBytes 8 ts ++ f.data)
  if d2.bit (Reg.ETH_RXA_EVT e) then d2.fire (0xD8 + p) else d2

/-- The first byte of a receive slot of the host queue. -/
def Device.hqRxAt (d : Device) : Nat := d.fld Reg.ETH_HQ_BASE + 2048 * d.eth.hqRx

/-- The first byte of a transmit slot of the host queue. -/
def Device.hqTxAt (d : Device) : Nat := d.fld Reg.ETH_HQ_BASE + 2048 * (32 + d.eth.hqTx)

/-- A frame for the host: the next receive slot takes it while OWN = 0 (R336). -/
def Device.hostRx (d : Device) (l : List Byte) : Device :=
  match d.busRead 7 d.hqRxAt 4 with
  | (none, d1) => d1.inc (Reg.ETH_ERR_NOMATCH 2)
  | (some w, d1) =>
    if (leNat w).testBit 31 then d1.inc (Reg.ETH_ERR_NOMATCH 2)
    else
      let d2 := (d1.busWrite 7 (d1.hqRxAt + 4) l).2
      let d3 := (d2.busWrite 7 d2.hqRxAt (leBytes 4 (2 ^ 31 + l.length % 2048))).2
      { d3 with eth := { d3.eth with hqRx := (d3.eth.hqRx + 1) % 32 } }

/-- PTP message kinds that the engine supports (R343): Sync, Delay_Req, Pdelay_Req, Pdelay_Resp, Follow_Up, Delay_Resp,
Pdelay_Resp_Follow_Up, Announce. -/
def ptpKinds : List Nat := [0, 1, 2, 3, 8, 9, 10, 11]

/-- A received frame: bytes from the destination address, FCS excluded; whether its FCS is good; the time of its SFD at
the MII boundary. A PTP message of a supported kind acts by its own command. -/
def execEthFrameReceived (port : Fin 3) (frame : List Byte) (fcsOk : Bool) (mii : Nat) (s : State) :
    Host.Outcome State Fault Refusal :=
  run (fun d =>
    let p := port.val
    if !d.bit (Reg.ETH_CFG_EN p) || !d.ethLink p then d
    else if !fcsOk ∨ frame.length + 4 < 64 ∨ 1522 < frame.length + 4 then d.inc (Reg.ETH_ERR_RXERR p)
    else if beAt frame 12 2 = 0x8808 then d
    else if !d.forPort p frame then d.inc (Reg.ETH_ERR_NOMATCH p)
    else
      match d.ptpAt frame with
      | some o => if ptpKinds.contains (beAt frame o 1 % 16) then d else d.inc Reg.TB_CNT_RX_DISCARD
      | none =>
        match (List.range 64).find? (fun e => d.rxMatch p frame e) with
        | some e => d.ethStore p e (d.rxTime p mii) frame
        | none =>
          if p = 2 ∧ d.bit (Reg.ETH_CFG_HOSTQ 2) ∧ d.bit Reg.ETH_HQ_EN then d.hostRx frame
          else d.inc (Reg.ETH_ERR_NOMATCH p)) s

/-- The timestamp image block of R351: 8 slots of 12 bytes per port. -/
def tsBlock (m : SMap (List (Nat × Nat))) : List Byte :=
  ((List.range 3).map (fun p => ((List.range 8).map (fun k =>
    match (sget (fun _ => []) m p)[k]? with
    | some (tag, ts) => leBytes 8 ts ++ leBytes 2 tag ++ [0, 0x80]
    | none => List.replicate 12 (0 : Byte))).flatten)).flatten

def noTs (_ : Nat) : List (Nat × Nat) := []

/-- The P0 latch (R335, R351): buffers of receive entries, and the timestamp block. -/
def Device.ethLatch (d : Device) : Device :=
  let d1 := forN 64 (fun e d =>
    if !d.bit (Reg.ETH_RXA_EN e) then d
    else
      match sget noEth d.eth.shadow e with
      | some f =>
        { d with
          eth := { d.eth with last := sput zeroAt d.eth.last e f.word, age := sput zeroAt d.eth.age e 0 }
          img := { d.img with latch := mapPut d.img.latch (d.ethBufAt e) (leBytes 4 (2 ^ 31 + f.word) ++ leBytes 8 f.ts ++ f.data) } }
      | none =>
        let a := min 255 (sget zeroAt d.eth.age e + 1)
        { d with
          eth := { d.eth with age := sput zeroAt d.eth.age e a }
          img := { d.img with latch := mapPut d.img.latch (d.ethBufAt e) (leBytes 4 (sget zeroAt d.eth.last e + 2 ^ 16 * a)) } }) d
  let d2 : Device := if d1.bit Reg.ETH_TSIMG_EN then
      { d1 with img := { d1.img with
        latch := mapPut d1.img.latch (d1.areaBase areaN + d1.fld Reg.ETH_TSIMG_OFF) (tsBlock d1.eth.tsimg) } }
    else d1
  { d2 with eth := { d2.eth with shadow := [], tsimg := [] } }

/-! ## Launch queues (R348–R351) -/

def noLaunch (_ : Nat) : List Launch := []

def Device.launches (d : Device) (p : Nat) : List Launch := sget noLaunch d.eth.queue p

def Device.setLaunches (d : Device) (p : Nat) (l : List Launch) : Device :=
  { d with eth := { d.eth with queue := sput noLaunch d.eth.queue p l } }

/-- Descriptor k of port p in the committed image: VALID, and the entry. -/
def Device.descriptor (d : Device) (p k : Nat) : Bool × Nat × Nat × Launch :=
  let a := d.areaBase areaN + d.fld (Reg.ETH_LQ_OFF p) + 16 * k
  let l := mapGet d.img.committedEth a 16
  let n := numAt l 8 2
  let off := 4 * numAt l 14 2
  let fl := numAt l 12 1
  (fl % 2 == 1, off, n,
    ⟨k, numAt l 0 8, numAt l 10 2, fl / 2 % 2 == 1, fl / 4 % 2 == 1, mapGet d.img.committedEth (d.areaBase areaN + off) n⟩)

/-- The port refuses an entry (R349); `used` bytes of the transmit memory are taken. -/
def Device.refuses (d : Device) (bc used off n : Nat) (e : Launch) : Bool :=
  decide (e.time ≠ 0 ∧ e.time < bc) || decide (bc + 1000 * d.periodUs ≤ e.time) || decide (off < d.inLen areaN)
    || decide (d.areaSize areaN < off + n) || decide (65536 < used + n) || decide (n < 14) || decide (1518 < n)

/-- Insert an entry in order of launch time; 0 starts first, and equal times keep descriptor order. -/
def insLaunch (e : Launch) : List Launch → List Launch
  | [] => [e]
  | x :: t => if e.time < x.time then e :: x :: t else x :: insLaunch e t

/-- A commit of the launch queues at instant bc (R349): the new set replaces the previous one. -/
def Device.ethCommit (d : Device) (bc : Nat) : Device :=
  forN 3 (fun p d =>
    if !d.bit (Reg.ETH_CFG_EN p) then d
    else
      let d1 := (d.satAdd (Reg.ETH_ERR_LATE p) (d.launches p).length).setLaunches p []
      let d2 : Device := { d1 with eth := { d1.eth with copied := sput falseAt d1.eth.copied p false } }
      forN (min 32 (d2.fld (Reg.ETH_LQ_CNT p))) (fun k d =>
        let (valid, off, n, e) := d.descriptor p k
        if !valid then d
        else if d.refuses bc ((d.launches p).map (fun x => x.frame.length)).sum off n e then
          (d.inc (Reg.ETH_ERR_REFUSED p)).raise 0x206 [wd p, wd k, wd e.time]
        else d.setLaunches p (insLaunch e (d.launches p))) d2) d

/-- The time in ns that a frame of n bytes occupies a port: padding, FCS, preamble, SFD and gap (R333). -/
def Device.wireNs (d : Device) (p n : Nat) : Nat :=
  (max 60 n + 24) * 8 * 10 ^ (2 - d.fld (Reg.ETH_STAT_SPEED p))

def Device.onWire (d : Device) (p : Nat) : Bool := sget falseAt d.eth.wire p

def Device.setWire (d : Device) (p : Nat) (b : Bool) : Device :=
  { d with eth := { d.eth with wire := sput falseAt d.eth.wire p b } }

/-- Show the head of a port's timestamp queue. -/
def Device.showTxts (d : Device) (p : Nat) : Device :=
  let q := sget noTs d.eth.txts p
  let h := q.headD (0, 0)
  ((((d.setB (Reg.ETH_TXTS_STAT_VALID p) (!q.isEmpty)).setF (Reg.ETH_TXTS_STAT_DEPTH p) q.length).setF
    (Reg.ETH_TXTS_STAT_TAG p) h.1).wr (Reg.ETH_TXTS_LO p) (wd h.2)).wr (Reg.ETH_TXTS_HI p) (wd (h.2 / 2 ^ 32))

/-- A transmit timestamp (R351): the queue of 64, and with TSIMG the next free of 8 image slots. -/
def Device.txStamp (d : Device) (p ts : Nat) (e : Launch) : Device :=
  if !e.tsreq then d
  else
    let q := sget noTs d.eth.txts p
    let d1 := if q.length < 64 then
        ({ d with eth := { d.eth with txts := sput noTs d.eth.txts p (q ++ [(e.tag, ts)]) } } : Device).showTxts p
      else (d.inc (Reg.ETH_TXTS_STAT_OVF p)).raise 0x207 [wd p, wd e.tag]
    let im := sget noTs d1.eth.tsimg p
    if e.tsimg ∧ im.length < 8 then
      { d1 with eth := { d1.eth with tsimg := sput noTs d1.eth.tsimg p (im ++ [(e.tag, ts)]) } }
    else d1

/-- The first entry of a port starts. -/
def Device.launch (d : Device) (p mii : Nat) (e : Launch) : Device :=
  ((((d.setLaunches p ((d.launches p).drop 1)).setWire p true).send (.eth p e.frame))).txStamp p (d.txTime p mii) e

/-- Launch entries may start on a port: copied, link up, wire free, not withheld, and this device sends (R349). -/
def Device.mayLaunch (d : Device) (p : Nat) : Bool :=
  sget falseAt d.eth.copied p && d.ethLink p && !d.onWire p && !d.withheld && d.sends p
    && !d.bit Reg.SYS_ROLE_NO_SERVICE

/-- The copy into the transmit memory completes; the first entry with L = 0 starts (R349). -/
def execLaunchCopyDone (port : Fin 3) (mii : Nat) (s : State) : Host.Outcome State Fault Refusal :=
  run (fun d =>
    let p := port.val
    let d1 : Device := { d with eth := { d.eth with copied := sput falseAt d.eth.copied p true } }
    match d1.launches p with
    | [] => d1
    | e :: _ => if e.time = 0 ∧ d1.mayLaunch p then d1.launch p mii e else d1) s

/-- The first entry of a port starts at its launch time, or after the ones before it within LATE_TOL_NS. A change of the
sending lane may take effect here (R334). -/
def execLaunchEntryStart (port : Fin 3) (mii : Nat) (s : State) : Host.Outcome State Fault Refusal :=
  run (fun d =>
    let p := port.val
    let d1 := d.senderAway p
    match d1.launches p with
    | [] => d1
    | e :: t =>
      if !d1.mayLaunch p then
        (if d1.isLane ∧ !d1.sends p ∧ e.time ≠ 0 ∧ e.time ≤ d1.ts64 then d1.setLaunches p t else d1)
      else if e.time = 0 ∨ (e.time ≤ d1.ts64 ∧ d1.ts64 ≤ e.time + max 8 (d1.fld (Reg.ETH_CFG_LATE_TOL_NS p))) then
        d1.launch p mii e
      else d1) s

/-- An entry that could start only now is late (R350). -/
def execLaunchLate (port : Fin 3) (mii : Nat) (s : State) : Host.Outcome State Fault Refusal :=
  run (fun d =>
    let p := port.val
    match d.launches p with
    | [] => d
    | e :: t =>
      if d.mayLaunch p ∧ e.time ≠ 0 ∧ e.time + max 8 (d.fld (Reg.ETH_CFG_LATE_TOL_NS p)) < d.ts64 then
        let d1 := (d.inc (Reg.ETH_ERR_LATE p)).raise 0x205 [wd p, wd e.index, wd (d.ts64 - e.time)]
        if d1.bit (Reg.ETH_CFG_LATE_DROP p) then d1.setLaunches p t else d1.launch p mii e
      else d) s

/-! ## PTP and host frames (R342) -/

/-- A frame of n bytes may start now: no launch entry waits that is due, and it ends 1 µs before the next launch time. -/
def Device.fits (d : Device) (p n : Nat) : Bool :=
  d.ethLink p && !d.onWire p &&
    (match (if d.sends p then d.launches p else []) with
    | [] => true
    | e :: _ => decide (d.ts64 + d.wireNs p n + 1000 ≤ e.time))

/-- The bytes of a PTP message on the configured transport: 44 bytes for an Announce's 64, with the headers. -/
def Device.ptpLen (d : Device) (kind : Nat) : Nat :=
  (if kind = 11 then 64 else if kind = 0 ∨ kind = 1 ∨ kind = 8 then 44 else 54)
    + (if d.fld Reg.TB_CFG_TRANSPORT = 0 then 14 else 42)

def noPtp (_ : Nat) : List PtpOut := []

/-- A PTP message starts at once, carrying its actual time, or waits. -/
def Device.ptpSend (d : Device) (p : Nat) (m : PtpOut) : Device :=
  if d.fits p (d.ptpLen m.kind) ∧ sget noPtp d.eth.ptp p = [] then (d.setWire p true).send (.ptp p m)
  else { d with eth := { d.eth with ptp := sput noPtp d.eth.ptp p (sget noPtp d.eth.ptp p ++ [m]) } }

/-- The first PTP message that waits starts if it fits; a Sync carries its actual transmit time. -/
def Device.ptpNext (d : Device) (p : Nat) : Device :=
  match sget noPtp d.eth.ptp p with
  | [] => d
  | m :: t =>
    if d.fits p (d.ptpLen m.kind) then
      (({ d with eth := { d.eth with ptp := sput noPtp d.eth.ptp p t } } : Device).setWire p true).send
        (.ptp p (if m.kind = 0 then { m with time := d.ts64 } else m))
    else d

/-- A frame leaves the wire: the port is free. -/
def execEthTxDone (port : Fin 3) (s : State) : Host.Outcome State Fault Refusal :=
  run (fun d => (d.setWire port.val false).ptpNext port.val) s

/-- The next transmit slot of the host queue with OWN = 1 is sent on E2 (R336). -/
def execHostTxSend (s : State) : Host.Outcome State Fault Refusal :=
  run (fun d =>
    if !d.bit Reg.ETH_HQ_EN || !d.bit (Reg.ETH_CFG_HOSTQ 2) || !d.bit (Reg.ETH_CFG_EN 2) then d
    else
      match d.busRead 7 d.hqTxAt 4 with
      | (none, d1) => d1
      | (some w, d1) =>
        let n := leNat w % 2048
        if (leNat w).testBit 31 ∧ d1.fits 2 n then
          match d1.busRead 7 (d1.hqTxAt + 4) n with
          | (none, d2) => d2
          | (some l, d2) =>
            let d3 := ((d2.setWire 2 true).send (.eth 2 l)).busWrite 7 d2.hqTxAt (leBytes 4 (leNat w % 2 ^ 31)) |>.2
            { d3 with eth := { d3.eth with hqTx := (d3.eth.hqTx + 1) % 16 } }
        else d1) s

/-- A write of 1 to VALID removes the head timestamp (R351). -/
def Device.txtsPop (d : Device) (p : Nat) : Device :=
  ({ d with eth := { d.eth with txts := sput noTs d.eth.txts p ((sget noTs d.eth.txts p).drop 1) } } : Device).showTxts p

def execTxtsPop (port : Fin 3) (s : State) : Host.Outcome State Fault Refusal :=
  run (fun d => d.txtsPop port.val) s

/-! ## Calibration (R346) -/

/-- The median of a list of numbers; of an even count the lower half of the sum of the middle two. -/
def medianNat (l : List Nat) : Nat :=
  let x := sortInt (l.map (fun n => (n : Int)))
  ((x.getD ((x.length - 1) / 2) 0 + x.getD (x.length / 2) 0) / 2).toNat

/-- A calibration ends: link delays in ps of the exchanges that succeeded, and the measured lane alignment in ps. -/
def execEthCalibrationDone (port : Fin 3) (trips : List Nat) (align : Int) (s : State) :
    Host.Outcome State Fault Refusal :=
  run (fun d =>
    let p := port.val
    if !sget falseAt d.eth.calRun p then d
    else
      let d1 : Device := { d with eth := { d.eth with calRun := sput falseAt d.eth.calRun p false } }
      let l := trips.take 256
      if l.length < 192 then
        (d1.setF (Reg.ETH_STAT_CAL_FAIL p) 1).raise 0x20C [wd p, wd l.length]
      else
        let lat := 100 * (d1.fld (Reg.ETH_LAT_TX_100PS p) + d1.fld (Reg.ETH_LAT_RX_100PS p))
        let v := ((medianNat l : Int) - lat - align).toNat
        let d2 := (((d1.setF (Reg.ETH_STAT_CAL_FAIL p) 0).setF (Reg.ETH_STAT_CAL p) 1).setF
          (Reg.ETH_CAL_DELAY_PS p) v).setF (Reg.ETH_CAL_VALID p) 1
        let d3 : Device := { d2 with tb := { d2.tb with
          delay := sput int0 d2.tb.delay p (d2.fld (Reg.ETH_CAL_DELAY_PS p))
          asym := sput int0 d2.tb.asym p (Config.asymmetry (d2.fld (Reg.ETH_CAL_DELAY_PS p)) align)
          settled := sput falseAt d2.tb.settled p false } }
        (d3.wr (Reg.TB_DELAY p) (wd (d2.fld (Reg.ETH_CAL_DELAY_PS p)))).raise 0x20B [wd p, d3.rd (Reg.ETH_CAL p)]) s

/-! ## Commands (R355) -/

def Device.cmdEthClear (d : Device) (arg : Nat) : Device :=
  d.clearCmd portETH arg (forN 3 (fun p d => (d.wr (Reg.ETH_ERR p) 0).setF (Reg.ETH_TXTS_STAT_OVF p) 0))

/-- MDIO commands are BUSY until the frame on MDC completes. -/
def Device.cmdMdio (d : Device) (op : Nat) (write : Bool) (arg : Nat) : Device :=
  d.command portETH op arg 0 ⟨arg == 0, true, true⟩ (fun d =>
    ({ d with eth := { d.eth with mdio := some (write, d.rd Reg.ETH_MDIO_DATA) } } : Device).beginCmd portETH)

def Device.cmdMdioRead (d : Device) (arg : Nat) : Device := d.cmdMdio 2 false arg
def Device.cmdMdioWrite (d : Device) (arg : Nat) : Device := d.cmdMdio 3 true arg

def Device.cmdCalibrate (d : Device) (arg : Nat) : Device :=
  d.commandNow portETH 4 arg (d.rd (Reg.ETH_STAT arg)) ⟨decide (arg < 3), true, d.ethLink arg && !sget falseAt d.eth.calRun arg⟩
    (fun d => { d with eth := { d.eth with calRun := sput falseAt d.eth.calRun arg true } })

/-- The MDIO frame completes; a PHY answers a read with `data`. -/
def execMdioTransferDone (data : BitVec 16) (s : State) : Host.Outcome State Fault Refusal :=
  run (fun d =>
    match d.eth.mdio with
    | none => d
    | some (write, w) =>
      let d1 : Device := { d with eth := { d.eth with mdio := none } }
      let d2 := if write then d1 else d1.setF Reg.ETH_MDIO_DATA_DATA data.toNat
      (d2.send (.mdio write (d2.rd Reg.ETH_MDIO_ADDR) (if write then w else wd data.toNat))).finishCmd portETH 0) s

def execEthClearCounters (arg : BitVec 24) (s : State) : Host.Outcome State Fault Refusal :=
  run (fun d => d.cmdEthClear arg.toNat) s
def execMdioRead (arg : BitVec 24) (s : State) : Host.Outcome State Fault Refusal :=
  run (fun d => d.cmdMdioRead arg.toNat) s
def execMdioWrite (arg : BitVec 24) (s : State) : Host.Outcome State Fault Refusal :=
  run (fun d => d.cmdMdioWrite arg.toNat) s
def execCalibrate (arg : BitVec 24) (s : State) : Host.Outcome State Fault Refusal :=
  run (fun d => d.cmdCalibrate arg.toNat) s

end Sys2Proof.Machine
end

