-- ==== Sys2Proof/Machine/Tb.lean ====
section
/-! DEFINITION. The time base and its servo (R337–R341), the PTP subset (R343–R345), PPS and SYNCOUT (R352, R353), and the
commands of TB (R356). -/

namespace Sys2Proof.Machine

def tbFREE : Nat := 0
def tbACQUIRE : Nat := 1
def tbLOCKED : Nat := 2
def tbHOLDOVER : Nat := 3

def Device.tbState (d : Device) : Nat := d.fld Reg.TB_STAT_STATE

/-! ## The counter (R337) -/

/-- INC in 2⁻³² ns for a RATE in 2⁻¹⁶ ppb. -/
def incOf (rate : Int) : Nat := (2 ^ 34 + Int.fdiv (2 ^ 34 * rate) 65536000000000).toNat

/-- One cycle of the TB clock: the time base advances by INC. -/
def Device.tbCycle (d : Device) : Device :=
  let f := d.tb.frac + d.fld Reg.TB_INC_HI_INC * 2 ^ 32 + (d.rd Reg.TB_INC_LO).toNat
  let n := d.tb.ns + f / 2 ^ 32
  { d with tb := { d.tb with
    frac := f % 2 ^ 32, ns := n % 1000000000, sec := (d.tb.sec + n / 1000000000) % 2 ^ 48 } }

/-- The time base as one number of ns. -/
def Device.tbNs (d : Device) : Int := (d.tb.sec * 1000000000 + d.tb.ns : Nat)

/-- The time base set to a number of ns; the boundary that periods are measured from moves with it (log 27). -/
def Device.tbSet (d : Device) (t : Int) : Device :=
  let n := (t % (2 ^ 48 * 1000000000 : Nat)).toNat
  { d with
    tb := { d.tb with sec := n / 1000000000, ns := n % 1000000000 }
    tick := { d.tick with boundaryTs := ((d.tick.boundaryTs : Int) + (t - d.tbNs)).toNat } }

/-- RATE takes effect: TB_RATE in 1/16 ppb, and the increment. -/
def Device.setRate (d : Device) (r : Int) : Device :=
  let d1 : Device := { d with tb := { d.tb with rate := r } }
  ((d1.wr Reg.TB_RATE (wdi (Int.fdiv r 4096))).wr Reg.TB_INC_LO (wd (incOf r))).setF Reg.TB_INC_HI_INC (incOf r / 2 ^ 32)

/-! ## States (R339) -/

/-- A state change of the time base: event 0x208; ACQUIRE clears the integral, HOLDOVER holds RATE (R340). -/
def Device.tbTo (d : Device) (st : Nat) (theta : Int) : Device :=
  let old := d.tbState
  if old = st then d
  else
    let d1 := (d.setF Reg.TB_STAT_STATE st).raise 0x208 [wd old, wd st, wdi theta]
    let d2 : Device := { d1 with tb := { d1.tb with lockRun := 0, overRun := 0 } }
    if st = tbACQUIRE then { d2 with tb := { d2.tb with integral := 0 } }
    else if st = tbLOCKED then d2.setF Reg.TB_STAT_EVER_LOCKED 1
    else if st = tbHOLDOVER then
      let d3 := d2.inc Reg.TB_CNT_SYNC_LOSS
      if 16 ≤ d3.tb.rates.length then d3.setRate (Int.fdiv (d3.tb.rates.foldl (fun a r => a + r) 0) 16) else d3
    else d2

/-- The start of the time base: FREE or ACQUIRE by SRC, and the port states. -/
def Device.tbStart (d : Device) : Device :=
  let d1 := (d.setRate 0).tbTo (if d.fld Reg.TB_CFG_SRC = 0 then tbFREE else tbACQUIRE) 0
  forN 3 (fun p d =>
    if !d.bit (Reg.TB_PORT_EN p) then d.setF (Reg.TB_PORT_STATE p) 0
    else if d.bit Reg.TB_CFG_EXT_PORT then
      let x := d.fld (Reg.TB_PORT_EXT_STATE p)
      let d1 := d.setF (Reg.TB_PORT_STATE p) (if x = 1 then 6 else if x = 2 then 9 else 7)
      if x = 2 then d1.setF Reg.TB_STAT_SLAVE_PORT p else d1
    else d.setF (Reg.TB_PORT_STATE p) 4) d1

/-! ## Servo (R340) -/

/-- The limit of RATE in 2⁻¹⁶ ppb. -/
def rateMax : Int := 200000 * 65536

def clampRate (r : Int) : Int := max (-rateMax) (min rateMax r)

/-- The time base may step: outside the lane roles, and in JOINING. -/
def Device.stepAllowed (d : Device) : Bool := !d.isLane || d.fld Reg.TRI_LANE_STAT_STATE == lsJoining

/-- A signed number of ns as TB_OFFSET shows it: saturating. -/
def satWord (i : Int) : Word := wdi (max (-2147483648) (min 2147483647 i))

/-- The low and high word of a 64-bit two's complement number. -/
def wordsOf (i : Int) : List Word := [wd (lowBits i 64), wd (lowBits i 64 / 2 ^ 32)]

/-- Steering by an offset. -/
def Device.steer (d : Device) (theta : Int) : Device :=
  let kp : Int := d.fld Reg.TB_SERVO_KP_Q8
  let ki : Int := d.fld Reg.TB_SERVO_KI_Q16
  let r := 256 * kp * theta + ki * (d.tb.integral + theta)
  let d1 : Device := if decide (-rateMax ≤ r) && decide (r ≤ rateMax) then
      { d with tb := { d.tb with integral := d.tb.integral + theta } }
    else d
  let d2 := d1.setRate (clampRate r)
  if d2.tbState = tbLOCKED then
    { d2 with tb := { d2.tb with rates := (d2.tb.rate :: d2.tb.rates).take 16 } }
  else d2

/-- What an offset does to the state: LOCK_CNT in a row within LOCK_NS, 3 in a row above UNLOCK_NS. -/
def Device.tbJudge (d : Device) (theta : Int) : Device :=
  let within := decide (theta.natAbs ≤ d.fld Reg.TB_LIMITS_LOCK_NS)
  let above := decide (10 * d.fld Reg.TB_LIMITS_UNLOCK_10NS < theta.natAbs)
  let d1 : Device := { d with tb := { d.tb with
    lockRun := if within then d.tb.lockRun + 1 else 0, overRun := if above then d.tb.overRun + 1 else 0 } }
  if d1.tbState = tbACQUIRE ∧ d1.atLeast1 Reg.TB_SERVO_LOCK_CNT ≤ d1.tb.lockRun then
    let d2 := d1.tbTo tbLOCKED theta
    if d2.srcAct = srcNETTIME then d2.regainSource else d2
  else if d1.tbState = tbLOCKED ∧ 3 ≤ d1.tb.overRun then d1.tbTo tbACQUIRE theta
  else d1

/-- A step of the time base: event 0x209. -/
def Device.tbStep (d : Device) (theta : Int) : Device :=
  let d1 := d.tbSet (d.tbNs - theta)
  ({ d1 with tb := { d1.tb with integral := 0 } } : Device).raise 0x209 (wordsOf theta)

/-- An offset is formed. -/
def Device.offset (d : Device) (theta : Int) : Device :=
  let d1 := d.wr Reg.TB_OFFSET (satWord theta)
  if d1.tbState = tbACQUIRE ∧ !d1.bit Reg.TB_STAT_EVER_LOCKED ∧ 1000 * d1.fld Reg.TB_LIMITS_STEP_US < theta.natAbs
      ∧ d1.stepAllowed then
    d1.tbStep theta
  else (d1.steer theta).tbJudge theta

/-! ## PTP messages (R343, R344) -/

def Device.ptpState (d : Device) (p : Nat) : Nat := d.fld (Reg.TB_PORT_STATE p)

/-- The own clockIdentity. -/
def Device.clockId (d : Device) : Nat :=
  (d.rd Reg.TB_CLOCK_ID_HI).toNat * 2 ^ 32 + (d.rd Reg.TB_CLOCK_ID_LO).toNat

/-- A message of another domain or majorVersionPTP is discarded and counted; a port that is disabled takes none. -/
def Device.ptpTake (d : Device) (p : Nat) (m : PtpMsg) (body : Device → Device) : Device :=
  if !d.bit (Reg.TB_PORT_EN p) || !d.ethLink p then d
  else if m.domain ≠ d.fld Reg.TB_CFG_DOMAIN ∨ m.version ≠ 2 then d.inc Reg.TB_CNT_RX_DISCARD
  else body d

/-- portNumber of master messages. -/
def masterPort (p : Nat) : Nat := 1 + p

/-- portNumber of the messages that a lane sends on its own. -/
def Device.ownPort (d : Device) (p : Nat) : Nat := if d.isLane then 0x10 * (d.lane + 1) + p + 1 else masterPort p

/-- Ps of a correctionField in 2⁻¹⁶ ns. -/
def corrPs (c : Int) : Int := Int.fdiv (1000 * c) 65536

def noMsg (_ : Nat) : Option PtpMsg := none
def noPair (_ : Nat) : Option (Nat × Nat) := none

/-- A complete Sync: t1 and t2 in ns, corrections in ps. It steers under SRC = PTP in the port in SLAVE; in HOLDOVER it
brings ACQUIRE back, from which offsets are formed. -/
def Device.syncDone (d : Device) (p : Nat) (m : PtpMsg) (t1 : Nat) (corr : Int) : Device :=
  let diff : Int := 1000 * ((m.rx : Int) - t1) - corr
  let d1 : Device := { d with tb := { d.tb with syncDiff := sput noInt d.tb.syncDiff p (some diff) } }
  if d1.fld Reg.TB_CFG_SRC ≠ 1 ∨ d1.ptpState p ≠ 9 then d1
  else
    let d2 := if d1.tbState = tbHOLDOVER then d1.tbTo tbACQUIRE 0 else d1
    d2.offset (Int.fdiv (diff - sget int0 d2.tb.delay p - sget int0 d2.tb.asym p) 1000)

/-- A message comes from the parent of the port in SLAVE. -/
def Device.fromParent (d : Device) (p : Nat) (m : PtpMsg) : Bool :=
  d.ptpState p == 9 && d.tb.parent == some (m.clock, m.portNo)

/-- A Sync: `m.time` is its originTimestamp, `m.rx` its receipt; a two-step one waits for its Follow_Up. -/
def execPtpSync (port : Fin 3) (m : PtpMsg) (twoStep : Bool) (s : State) : Host.Outcome State Fault Refusal :=
  run (fun d => d.ptpTake port m (fun d =>
    if !d.fromParent port m then d
    else if twoStep then { d with tb := { d.tb with syncWait := sput noMsg d.tb.syncWait port (some m) } }
    else d.syncDone port m m.time (corrPs m.corr))) s

/-- A Follow_Up carries t1 of the Sync of the same sequenceId. -/
def execPtpFollowUp (port : Fin 3) (m : PtpMsg) (s : State) : Host.Outcome State Fault Refusal :=
  run (fun d => d.ptpTake port m (fun d =>
    match sget noMsg d.tb.syncWait port with
    | some x =>
      if d.fromParent port m ∧ x.seq = m.seq ∧ x.clock = m.clock ∧ x.portNo = m.portNo then
        ({ d with tb := { d.tb with syncWait := sput noMsg d.tb.syncWait port none } } : Device).syncDone port x m.time
          (corrPs x.corr + corrPs m.corr)
      else d
    | none => d)) s

/-! ## Path delay (R341) -/

/-- A delay measurement of a port, in ps. -/
def Device.delayIs (d : Device) (p : Nat) (m : Int) : Device :=
  let show_ := fun (d : Device) => d.wr (Reg.TB_DELAY p) (wdi (sget int0 d.tb.delay p))
  let old := sget int0 d.tb.delay p
  if !sget falseAt d.tb.settled p then
    show_ { d with tb := { d.tb with
      delay := sput int0 d.tb.delay p m, settled := sput falseAt d.tb.settled p true
      discards := sput zeroAt d.tb.discards p 0 } }
  else if (10000 * d.fld Reg.TB_LIMITS_UNLOCK_10NS : Nat) < (m - old).natAbs then
    let n := sget zeroAt d.tb.discards p + 1
    let d1 := d.inc Reg.TB_CNT_OUTLIER
    if n < 4 then { d1 with tb := { d1.tb with discards := sput zeroAt d1.tb.discards p n } }
    else
      (show_ { d1 with tb := { d1.tb with
        delay := sput int0 d1.tb.delay p m, discards := sput zeroAt d1.tb.discards p 0 } }).raise 0x20F
        [wd p, wdi old, wdi m]
  else
    show_ { d with tb := { d.tb with
      delay := sput int0 d.tb.delay p (old + Int.fdiv (m - old) (2 ^ d.fld Reg.TB_SERVO_DF : Nat))
      discards := sput zeroAt d.tb.discards p 0 } }

/-- A Delay_Resp: `m.time` is t4; it answers the Delay_Req of this sequenceId. -/
def execPtpDelayResp (port : Fin 3) (m : PtpMsg) (s : State) : Host.Outcome State Fault Refusal :=
  run (fun d => d.ptpTake port m (fun d =>
    match sget noPair d.tb.dreq port, sget noInt d.tb.syncDiff port with
    | some (seq, t3), some diff =>
      if d.fromParent port m ∧ seq = m.seq ∧ !d.bit (Reg.TB_PORT_P2P port) then
        ({ d with tb := { d.tb with dreq := sput noPair d.tb.dreq port none } } : Device).delayIs port
          (Int.fdiv (diff + 1000 * ((m.time : Int) - t3) - corrPs m.corr) 2)
      else d
    | _, _ => d)) s

/-- A Pdelay_Resp: `m.rx` is t4, `m.time` is t2 of a two-step responder; a one-step one carries the turnaround in its
correction. -/
def execPtpPdelayResp (port : Fin 3) (m : PtpMsg) (twoStep : Bool) (s : State) : Host.Outcome State Fault Refusal :=
  run (fun d => d.ptpTake port m (fun d =>
    match sget noPair d.tb.preq port with
    | some (seq, t1) =>
      if seq ≠ m.seq ∨ !d.bit (Reg.TB_PORT_P2P port) then d
      else if twoStep then { d with tb := { d.tb with prespWait := sput noMsg d.tb.prespWait port (some m) } }
      else
        ({ d with tb := { d.tb with preq := sput noPair d.tb.preq port none } } : Device).delayIs port
          (Int.fdiv (1000 * ((m.rx : Int) - t1) - corrPs m.corr) 2)
    | none => d)) s

/-- A Pdelay_Resp_Follow_Up: `m.time` is t3. -/
def execPtpPdelayRespFollowUp (port : Fin 3) (m : PtpMsg) (s : State) : Host.Outcome State Fault Refusal :=
  run (fun d => d.ptpTake port m (fun d =>
    match sget noPair d.tb.preq port, sget noMsg d.tb.prespWait port with
    | some (seq, t1), some x =>
      if seq = m.seq ∧ x.clock = m.clock then
        ({ d with tb := { d.tb with
            preq := sput noPair d.tb.preq port none, prespWait := sput noMsg d.tb.prespWait port none } } : Device).delayIs
          port (Int.fdiv (1000 * (((x.rx : Int) - t1) - ((m.time : Int) - x.time)) - corrPs x.corr - corrPs m.corr) 2)
      else d
    | _, _ => d)) s

/-- A port in MASTER answers a Delay_Req; master messages come from the sending lane alone. -/
def execPtpDelayReq (port : Fin 3) (m : PtpMsg) (s : State) : Host.Outcome State Fault Refusal :=
  run (fun d => d.ptpTake port m (fun d =>
    if d.ptpState port = 6 ∧ d.sends port then d.ptpSend port ⟨9, m.seq, masterPort port, m.rx⟩ else d)) s

/-- Every port answers a Pdelay_Req, unless DISABLED or FAULTY: one message, or two under TWO_STEP. -/
def execPtpPdelayReq (port : Fin 3) (m : PtpMsg) (s : State) : Host.Outcome State Fault Refusal :=
  run (fun d => d.ptpTake port m (fun d =>
    if d.ptpState port = 2 ∨ d.ptpState port = 3 then d
    else
      let d1 := d.ptpSend port ⟨3, m.seq, d.ownPort port, m.rx⟩
      if d1.bit Reg.TB_CFG_TWO_STEP then d1.ptpSend port ⟨10, m.seq, d1.ownPort port, d1.ts64⟩ else d1)) s

/-- Sequence numbers by port and kind. -/
def seqKey (p kind : Nat) : Nat := 16 * p + kind

/-- A port sends a message at its interval: Announce or Sync in MASTER and in the sending lane, Pdelay_Req, Delay_Req in
SLAVE with E2E. -/
def execPtpMessageSend (port : Fin 3) (kind : Fin 4) (s : State) : Host.Outcome State Fault Refusal :=
  run (fun d =>
    let p := port.val
    let code := if kind.val = 0 then 11 else if kind.val = 1 then 0 else if kind.val = 2 then 2 else 1
    let st := d.ptpState p
    let ok := if kind.val < 2 then st == 6 && d.sends p
      else if kind.val = 2 then st != 2 && st != 3 && (d.bit (Reg.TB_PORT_P2P p) || sget falseAt d.eth.calRun p)
      else st == 9 && !d.bit (Reg.TB_PORT_P2P p)
    if !d.bit (Reg.TB_PORT_EN p) || !d.ethLink p || !ok then d
    else
      let n := sget zeroAt d.tb.seqOut (seqKey p code)
      let now := d.ts64
      let d1 : Device := { d with tb := { d.tb with
        seqOut := sput zeroAt d.tb.seqOut (seqKey p code) ((n + 1) % 65536)
        preq := if kind.val = 2 then sput noPair d.tb.preq p (some (n, now)) else d.tb.preq
        dreq := if kind.val = 3 then sput noPair d.tb.dreq p (some (n, now)) else d.tb.dreq } }
      let no := if kind.val < 2 then masterPort p else d1.ownPort p
      let d2 := d1.ptpSend p ⟨code, n, no, now⟩
      if kind.val = 1 ∧ d2.bit Reg.TB_CFG_TWO_STEP then d2.ptpSend p ⟨8, n, no, now⟩ else d2) s

/-! ## Best master (R343, R344) -/

/-- The key of a data set for the comparison of Clause 9.3.4: the lower list is better. -/
def Foreign.key (f : Foreign) : List Nat :=
  [f.set.prio1, f.set.cls, f.set.acc, f.set.variance, f.set.prio2, f.set.gm, f.set.steps, f.clock, f.portNo, f.port]

/-- Lists in lexicographic order. -/
def lexLt : List Nat → List Nat → Bool
  | a :: s, b :: t => decide (a < b) || (a == b && lexLt s t)
  | _, _ => false

/-- The own data set. -/
def Device.ownKey (d : Device) : List Nat :=
  [d.fld Reg.TB_QUAL_PRIORITY1, d.fld Reg.TB_QUAL_CLASS, d.fld Reg.TB_QUAL_ACCURACY, d.fld Reg.TB_QUAL2_VARIANCE,
    d.fld Reg.TB_QUAL_PRIORITY2, d.clockId, 0, d.clockId, 0, 0]

/-- The announce interval in ns. -/
def Device.announceNs (d : Device) : Nat :=
  let l := d.sfld Reg.TB_INTV_LOG_ANNOUNCE
  if 0 ≤ l then 1000000000 * 2 ^ l.toNat else 1000000000 / 2 ^ (-l).toNat

/-- A foreign master qualifies with 2 Announce messages in 4 intervals. -/
def Device.qualified (d : Device) (f : Foreign) : Bool :=
  decide (2 ≤ (f.times.filter (fun t => decide (d.ts64 ≤ t + 4 * d.announceNs))).length)

/-- The best of the foreign masters that qualify. -/
def Device.bestForeign (d : Device) : Option Foreign :=
  (d.tb.foreign.filter (fun f => d.qualified f)).foldl (fun b f =>
    match b with
    | none => some f
    | some x => if lexLt f.key x.key then some f else b) none

/-- A new parent: counted, event 0x20A. -/
def Device.newParent (d : Device) (x : Option (Nat × Nat)) (p : Nat) : Device :=
  if d.tb.parent = x then d
  else
    let d1 : Device := { d with tb := { d.tb with parent := x, syncWait := [], syncDiff := [] } }
    let id := (x.getD (d.clockId, 0)).1
    (d1.inc Reg.TB_CNT_MASTER_CHG).raise 0x20A [wd id, wd (id / 2 ^ 32), wd p]

/-- Every enabled port gets a state. -/
def Device.portStates (d : Device) (f : Nat → Nat) : Device :=
  forN 3 (fun p d => if d.bit (Reg.TB_PORT_EN p) then d.setF (Reg.TB_PORT_STATE p) (f p) else d) d

/-- The best master comparison: one port in SLAVE and the others PASSIVE, or every port MASTER, LISTENING for a
slave-only clock. `own` lets the own clock win against no qualified master. -/
def Device.bmca (d : Device) (own : Bool) : Device :=
  if d.bit Reg.TB_CFG_EXT_PORT then d
  else
    match d.bestForeign with
    | some f =>
      if d.bit Reg.TB_CFG_SLAVE_ONLY ∨ lexLt f.key d.ownKey then
        (((d.portStates (fun p => if p = f.port then 9 else 7)).setF Reg.TB_STAT_SLAVE_PORT f.port).setF
          Reg.TB_STAT_GM 0).newParent (some (f.clock, f.portNo)) f.port
      else (((d.portStates (fun _ => 6)).setF Reg.TB_STAT_SLAVE_PORT 3).setF Reg.TB_STAT_GM 1).newParent none 3
    | none =>
      if !own then d
      else if d.bit Reg.TB_CFG_SLAVE_ONLY then
        (((d.portStates (fun _ => 4)).setF Reg.TB_STAT_SLAVE_PORT 3).setF Reg.TB_STAT_GM 0).newParent none 3
      else (((d.portStates (fun _ => 6)).setF Reg.TB_STAT_SLAVE_PORT 3).setF Reg.TB_STAT_GM 1).newParent none 3

/-- An Announce: the record of its sender, and the comparison. With external port configuration the port in SLAVE takes
its sender as the parent. -/
def execPtpAnnounce (port : Fin 3) (m : PtpMsg) (set : AnnounceSet) (s : State) : Host.Outcome State Fault Refusal :=
  run (fun d => d.ptpTake port m (fun d =>
    if m.clock = d.clockId then d
    else if d.bit Reg.TB_CFG_EXT_PORT then
      if d.ptpState port = 9 then d.newParent (some (m.clock, m.portNo)) port else d
    else
      let same := fun (f : Foreign) => decide (f.port = port.val) && decide (f.clock = m.clock) && decide (f.portNo = m.portNo)
      let times := ((d.tb.foreign.find? same).map (fun f => f.times)).getD []
      let f : Foreign := ⟨port, m.clock, m.portNo, set, (m.rx :: times).take 4⟩
      ({ d with tb := { d.tb with foreign := f :: d.tb.foreign.filter (fun x => !same x) } } : Device).bmca false)) s

/-- The reference is lost (R339): an announce receipt timeout, which also forgets the parent, or 3 Sync intervals without
a complete Sync. -/
def execPtpReferenceLost (announce : Bool) (s : State) : Host.Outcome State Fault Refusal :=
  run (fun d =>
    let d1 := if announce then
        let x := d.tb.parent
        ({ d with tb := { d.tb with foreign := d.tb.foreign.filter (fun f => some (f.clock, f.portNo) != x) } } : Device).bmca true
      else d
    if d1.fld Reg.TB_CFG_SRC = 1 ∧ (d1.tbState = tbLOCKED ∨ d1.tbState = tbACQUIRE) then
      d1.tbTo tbHOLDOVER (d1.sfld Reg.TB_OFFSET_VALUE)
    else d1) s

/-! ## PPS and SYNCOUT (R352, R353) -/

/-- The distance of the time base from its nearest full second, in ns. -/
def Device.secondOff (d : Device) : Int := if d.tb.ns ≤ 500000000 then d.tb.ns else (d.tb.ns : Int) - 1000000000

/-- A rising edge of PPS_IN. -/
def execPpsInEdge (s : State) : Host.Outcome State Fault Refusal :=
  run (fun d =>
    let theta := d.secondOff
    if d.fld Reg.TB_CFG_SRC ≠ 2 ∨ 250000000 < theta.natAbs then d
    else
      let d1 : Device := { d with tb := { d.tb with ppsOffset := theta } }
      let d2 := if d1.tbState = tbHOLDOVER then d1.tbTo tbACQUIRE 0 else d1
      d2.offset theta) s

/-- 3 s without a valid edge of PPS_IN: event 0x20E, HOLDOVER. -/
def execPpsInLost (s : State) : Host.Outcome State Fault Refusal :=
  run (fun d =>
    if d.fld Reg.TB_CFG_SRC = 2 ∧ (d.tbState = tbLOCKED ∨ d.tbState = tbACQUIRE) then
      (d.raise 0x20E [wdi d.tb.ppsOffset]).tbTo tbHOLDOVER (d.sfld Reg.TB_OFFSET_VALUE)
    else d) s

/-- A full second of the time base: PPS_OUT rises, and SYNCOUT copies it under SYNC_SRC 3. -/
def execPpsOutSecond (s : State) : Host.Outcome State Fault Refusal :=
  run (fun d =>
    if d.bit Reg.TB_PPS_CFG_PPS_EN ∧ (d.tbState = tbLOCKED ∨ d.bit Reg.TB_PPS_CFG_PPS_ALWAYS) then
      let d1 := ({ d with tb := { d.tb with ppsRise := some d.ts64 } } : Device).send .pps
      if d1.fld Reg.TB_PPS_CFG_SYNC_SRC = 3 then d1.send .syncout else d1
    else d) s

/-- The level of PPS_OUT: high for PPS_WIDTH_MS after its rise. -/
def Device.ppsOut (d : Device) : Bool :=
  match d.tb.ppsRise with
  | some t => decide (d.ts64 < t + 1000000 * d.fld Reg.TB_PPS_CFG_PPS_WIDTH_MS)
  | none => false

/-- A pulse of SYNCOUT at a tick boundary (SYNC_SRC 1) or at a multiple of SYNC_PERIOD_US (SYNC_SRC 4). -/
def execSyncoutPulse (s : State) : Host.Outcome State Fault Refusal :=
  run (fun d =>
    let x := d.fld Reg.TB_PPS_CFG_SYNC_SRC
    if x = 1 ∨ x = 4 then d.send .syncout else d) s

/-! ## Commands (R356) -/

def Device.cmdTbClear (d : Device) (arg : Nat) : Device := d.clearCmd portTB arg (fun d => d.wr Reg.TB_CNT 0)

def Device.cmdCapture (d : Device) (arg : Nat) : Device :=
  d.commandNow portTB 2 arg 0 ⟨arg == 0, true, true⟩ (fun d =>
    (((d.setF Reg.TB_CAP_NS_VALUE d.tb.ns).wr Reg.TB_CAP_SEC_LO (wd d.tb.sec)).setF Reg.TB_CAP_SEC_HI_VALUE
      (d.tb.sec / 2 ^ 32)).wr Reg.TB_CAP_FRAC (wd d.tb.frac))

/-- SET_TIME: event 0x209 with the offset that it takes away. -/
def Device.cmdSetTime (d : Device) (arg : Nat) : Device :=
  d.commandNow portTB 3 arg (d.rd Reg.TB_STAT) ⟨arg == 0 && decide ((d.rd Reg.TB_SET_NS).toNat ≤ 999999999), true,
      (d.tbState == tbFREE || (d.tbState == tbACQUIRE && !d.bit Reg.TB_STAT_EVER_LOCKED)) && d.stepAllowed⟩ (fun d =>
    let sec := (d.rd Reg.TB_SET_SEC_LO).toNat + 2 ^ 32 * d.fld Reg.TB_SET_SEC_HI_VALUE
    let t : Int := (sec * 1000000000 + d.fld Reg.TB_SET_NS_VALUE : Nat)
    let d1 := d.tbSet t
    ({ d1 with tb := { d1.tb with frac := 0 } } : Device).raise 0x209 (wordsOf (d.tbNs - t)))

def execTbClearCounters (arg : BitVec 24) (s : State) : Host.Outcome State Fault Refusal :=
  run (fun d => d.cmdTbClear arg.toNat) s
def execCapture (arg : BitVec 24) (s : State) : Host.Outcome State Fault Refusal :=
  run (fun d => d.cmdCapture arg.toNat) s
def execSetTime (arg : BitVec 24) (s : State) : Host.Outcome State Fault Refusal :=
  run (fun d => d.cmdSetTime arg.toNat) s

end Sys2Proof.Machine
end

