-- ==== Sys2Proof/Machine/Sf.lean ====
section
/-! DEFINITION. Safety functions (R377–R397, R402): dual-channel pairs, lockout with its deliberate reset, TRIP_IN, the
keepalive, the seal as read at start, the status block, and the command of SF. -/

namespace Sys2Proof.Machine

/-! ## Pairs (R377–R379) -/

/-- Filtered value of DI_i. -/
def Device.di (d : Device) (i : Nat) : Bool := d.bitAt Reg.FLD_DI_VAL_VAL i

/-- The channels of pair p stand in the run state. -/
def Device.pairRunState (d : Device) (p : Nat) : Bool :=
  d.di (2 * p) && (if d.bit (Reg.SF_PAIR_CFG_ANTI p) then !d.di (2 * p + 1) else d.di (2 * p + 1))

/-- The channels of pair p stand in the demand state. -/
def Device.pairDemandState (d : Device) (p : Nat) : Bool :=
  !d.di (2 * p) && (if d.bit (Reg.SF_PAIR_CFG_ANTI p) then d.di (2 * p + 1) else !d.di (2 * p + 1))

/-- The channels of pair p agree. -/
def Device.pairAgrees (d : Device) (p : Nat) : Bool :=
  if d.bit (Reg.SF_PAIR_CFG_ANTI p) then d.di (2 * p) != d.di (2 * p + 1) else d.di (2 * p) == d.di (2 * p + 1)

/-- Pair p follows its channels: DISC clears in the demand state, RUN holds in the run state without DISC. -/
def Device.pairUpdate (d : Device) (p : Nat) : Device :=
  if !d.bit (Reg.SF_PAIR_CFG_EN p) then d
  else
    let d1 := if d.pairDemandState p then d.setBitAt Reg.SF_PAIR_STAT_DISC p false else d
    d1.setBitAt Reg.SF_PAIR_STAT_RUN p (d1.pairRunState p && !d1.bitAt Reg.SF_PAIR_STAT_DISC p)

/-! ## Lockout (R380–R383) -/

def grp0 (_ : Nat) : LockGrp := LockGrp.idle

def Device.grp (d : Device) (g : Nat) : LockGrp := sget grp0 d.sf.grp g

def Device.setGrp (d : Device) (g : Nat) (x : LockGrp) : Device :=
  { d with sf := { d.sf with grp := sput grp0 d.sf.grp g x } }

/-- Bit g of the request byte in the field image committed last. -/
def Device.reqBit (d : Device) (g : Nat) : Bool :=
  d.bit Reg.SF_REQ_POS_EN && (sget byte0 d.img.committed (d.areaBase areaQ + d.fld Reg.SF_REQ_POS_OFF)).toNat.testBit g

/-- The triggers of group g that hold, in order: kind and index in one word (R381). -/
def Device.triggers (d : Device) (g : Nat) : List Nat :=
  ((List.range 16).filter (fun p => d.bitAt (Reg.SF_LOCKB_DEMAND g) p && d.bit (Reg.SF_PAIR_CFG_EN p)
      && !d.bitAt Reg.SF_PAIR_STAT_RUN p))
    ++ ((List.range 16).filter (fun p => d.bitAt (Reg.SF_LOCKB_DISC g) p && d.bitAt Reg.SF_PAIR_STAT_DISC p)).map (· + 0x100)
    ++ ((List.range 4).filter (fun n => d.bitAt (Reg.SF_LOCKA_TRIP g) n && d.bitAt Reg.SF_SLUICE_STAT_TRIP n)).map (· + 0x200)
    ++ (if d.bit (Reg.SF_LOCKA_REQ g) && d.reqBit g then [0x300 + g] else [])

def Device.locked (d : Device) (g : Nat) : Bool := d.bitAt Reg.SF_LOCK_STAT_LOCKED g
def Device.lockReady (d : Device) (g : Nat) : Bool := d.bitAt Reg.SF_LOCK_STAT_READY g
def Device.lockCause (d : Device) (g : Nat) : Bool := d.bitAt Reg.SF_LOCK_STAT_CAUSE g

/-- A group becomes locked by a trigger: event 0x285, and its channels are gated off. -/
def Device.lock (d : Device) (g trig : Nat) : Device :=
  let d1 := (d.setBitAt Reg.SF_LOCK_STAT_LOCKED g true).setGrp g
    { LockGrp.idle with seenHigh := d.di (d.fld (Reg.SF_LOCKA_RESET_DI g)) }
  (((d1.setBitAt Reg.SF_LOCK_STAT_READY g false).setBitAt Reg.SF_LOCK_STAT_RESET_LOW g false).inc Reg.SF_CNT_LOCKS).raise
    0x285 [wd g, wd trig] |>.slAssert (slLock g)

/-- An attempt is rejected: event 0x287. -/
def Device.rejectReset (d : Device) (g reason : Nat) : Device :=
  (d.inc Reg.SF_CNT_RESETS_REJ).raise 0x287 [wd g, wd reason, wd (d.grp g).lowMs]

/-- Group g follows its triggers: the cause locks a group that is not locked, spoils a running attempt, and takes the
readiness of a group that is release-ready. -/
def Device.grpUpdate (d : Device) (g : Nat) : Device :=
  if !d.bit (Reg.SF_LOCKA_EN g) then d
  else
    let t := d.triggers g
    let had := d.lockCause g
    let d1 := d.setBitAt Reg.SF_LOCK_STAT_CAUSE g (!t.isEmpty)
    match t with
    | [] => d1
    | w :: _ =>
      if !d1.locked g then (if had then d1 else d1.lock g w)
      else
        let d2 := d1.setGrp g { d1.grp g with causeSeen := true }
        if d2.lockReady g then
          let d3 := (d2.setBitAt Reg.SF_LOCK_STAT_READY g false).rejectReset g 3
          d3.setGrp g { d3.grp g with ownNotice := none, fell := false }
        else d2

/-- Every pair and every group follows its inputs. -/
def Device.sfUpdate (d : Device) : Device :=
  forN 8 (fun g d => d.grpUpdate g) (forN 16 (fun p d => d.pairUpdate p) d)

/-- What a filtered change of DI_i to v means to the groups that it resets: a high level after the lock, and a falling edge
after it. -/
def Device.resetInput (d : Device) (i : Nat) (v : Bool) : Device :=
  forN 8 (fun g d =>
    if d.bit (Reg.SF_LOCKA_EN g) && d.locked g && decide (d.fld (Reg.SF_LOCKA_RESET_DI g) = i) then
      let x := d.grp g
      d.setGrp g (if v then { x with seenHigh := true, fell := false } else { x with fell := x.seenHigh })
    else d) d

/-- Channels of a pair disagree longer than T_DISC_MS. -/
def execPairDiscrepancy (p : Fin 16) (s : State) : Host.Outcome State Fault Refusal :=
  run (fun d =>
    if d.bit (Reg.SF_PAIR_CFG_EN p) ∧ !d.pairAgrees p ∧ !d.bitAt Reg.SF_PAIR_STAT_DISC p then
      (((d.setBitAt Reg.SF_PAIR_STAT_DISC p true).inc Reg.SF_CNT_DISC).raise 0x284
        [wd p.val, wd (b2n (d.di (2 * p.val)) + 2 * b2n (d.di (2 * p.val + 1)))]).sfUpdate
    else d) s

/-- A falling edge of the reset input. `sameStep`: it fell in the 10 µs step in which the group locked, and does not
count (R382). -/
def execDeliberateResetFall (g : Fin 8) (sameStep : Bool) (s : State) : Host.Outcome State Fault Refusal :=
  run (fun d =>
    let x := d.grp g
    if d.locked g ∧ !d.lockReady g ∧ x.fell then
      let d1 := d.setGrp g { x with fell := false, causeSeen := d.lockCause g }
      if sameStep then d1 else d1.setBitAt Reg.SF_LOCK_STAT_RESET_LOW g true
    else d) s

/-- CTRL lock notice: kind 3 (log 8). -/
def ctrlLock (lane g : Nat) : List Byte := [3, BitVec.ofNat 8 lane, BitVec.ofNat 8 g]

/-- The rising edge judges the attempt: `low` is the low time in steps of 10 µs (R382). A ready lane sends its notice
(R383). -/
def execDeliberateResetRise (g : Fin 8) (low : Nat) (s : State) : Host.Outcome State Fault Refusal :=
  run (fun d =>
    if !d.bitAt Reg.SF_LOCK_STAT_RESET_LOW g || !d.di (d.fld (Reg.SF_LOCKA_RESET_DI g)) then d
    else
      let d1 := (d.setBitAt Reg.SF_LOCK_STAT_RESET_LOW g false).setGrp g { d.grp g with lowMs := low / 100 }
      if (d1.grp g).causeSeen ∨ d1.lockCause g then d1.rejectReset g 3
      else if low < 25000 then d1.rejectReset g 1
      else if 300000 < low then d1.rejectReset g 2
      else
        let d2 := d1.setBitAt Reg.SF_LOCK_STAT_READY g true
        if d2.isLane then
          (d2.setGrp g { d2.grp g with ownNotice := some d2.ts64 }).ring pCTRL (ctrlLock d2.lane g)
        else d2) s

/-- Another lane's notice for a group. -/
def execCtrlLockNoticeReceived (lane : Fin 3) (g : Fin 8) (s : State) : Host.Outcome State Fault Refusal :=
  run (fun d =>
    if d.isLane ∧ lane.val ≠ d.lane then
      let d1 := d.gotParcel (d.portTo lane)
      let x := d1.grp g
      d1.setGrp g { x with peerNotice := (lane.val, d1.ts64) :: x.peerNotice.filter (fun p => decide (p.1 ≠ lane.val)) }
    else d) s

/-- The own notice lapses after 500 ms without release: reason 4, and the group stays locked. -/
def execLockNoticeLapse (g : Fin 8) (s : State) : Host.Outcome State Fault Refusal :=
  run (fun d =>
    let x := d.grp g
    if d.isLane ∧ x.ownNotice.isSome ∧ d.lockReady g then
      ((d.setGrp g { x with ownNotice := none }).setBitAt Reg.SF_LOCK_STAT_READY g false).raise 0x287
        [wd g.val, 4, wd x.lowMs]
    else d) s

/-- Another lane in VOTING has sent the notice within the last 500 ms. -/
def Device.partnerNotice (d : Device) (g : Nat) : Bool :=
  (d.grp g).peerNotice.any (fun p => d.votes p.1 && decide (d.ts64 ≤ p.2 + 500000000))

/-- A release-ready group may release at a commit of the field output image (R383). -/
def Device.mayRelease (d : Device) (g : Nat) : Bool :=
  d.lockReady g && (!d.isLane || !d.votesSelf || d.solo || d.partnerNotice g)

/-- The releases of a commit. -/
def Device.lockCommit (d : Device) : Device :=
  forN 8 (fun g d =>
    if d.mayRelease g then
      let ms := (d.grp g).lowMs
      ((((d.setBitAt Reg.SF_LOCK_STAT_READY g false).setBitAt Reg.SF_LOCK_STAT_LOCKED g false).setGrp g
        LockGrp.idle).raise 0x286 [wd g, wd ms]).slNegate (slLock g)
    else d) d

/-- Groups with START_LOCK lock at every start, before the first boundary (R381). -/
def Device.startLocks (d : Device) : Device :=
  forN 8 (fun g d =>
    if d.bit (Reg.SF_LOCKA_EN g) && d.bit (Reg.SF_LOCKA_START_LOCK g) && !d.locked g then d.lock g 0x400
    else if d.bit (Reg.SF_LOCKA_EN g) && d.locked g then d.slAssert (slLock g)
    else d) d

/-! ## TRIP_IN and the keepalive (R386, R388) -/

/-- TRIP_IN_n held its asserted level for FILT_US. -/
def execTripInAssert (n : Fin 4) (s : State) : Host.Outcome State Fault Refusal :=
  run (fun d =>
    if d.bit (Reg.SF_TRIP_CFG_EN n) ∧ !d.bitAt Reg.SF_SLUICE_STAT_TRIP n then
      ((d.inc Reg.SF_CNT_TRIPS).slAssert (slTrip n)).sfUpdate
    else d) s

def execTripInNegate (n : Fin 4) (s : State) : Host.Outcome State Fault Refusal :=
  run (fun d => if d.bitAt Reg.SF_SLUICE_STAT_TRIP n then (d.slNegate (slTrip n)).sfUpdate else d) s

/-- No keepalive for 400 ns: the field die holds every output off. -/
def execKeepaliveLoss (s : State) : Host.Outcome State Fault Refusal :=
  run (fun d => ({ d with sf := { d.sf with keepaliveLost := true } } : Device).turnOff 0xFFFFFF) s

/-! ## The seal at start (R391) -/

/-- The loader reads SEAL_0–SEAL_7 and SEAL_LOOP. -/
def Device.sealRead (d : Device) (pins : Nat) (loopHigh : Bool) : Device :=
  let hit := (List.range 4).find? (fun i => d.bit (Reg.SF_SEAL_ENT_EN i) && decide (d.fld (Reg.SF_SEAL_ENT_CODE i) = pins))
  let p := match hit with
    | some i => if loopHigh then d.fld (Reg.SF_SEAL_ENT_PERM i) else 0
    | none => 0
  let d1 := ((((((d.setF Reg.SF_SEAL_STAT_PINS pins).setB Reg.SF_SEAL_STAT_LOOP_OK loopHigh).setF
    Reg.SF_SEAL_STAT_REVOKED 0).setB Reg.SF_SEAL_STAT_MATCH hit.isSome).setF Reg.SF_SEAL_STAT_ENTRY (hit.getD 0)).setF
      Reg.SF_SEAL_STAT_PERM_START p).setF Reg.SF_SEAL_STAT_PERM_NOW p
  let d2 := d1.raise 0x28A [wd pins, wd (hit.getD 0xFF), wd p]
  if hit.isNone then d2.raise 0x28B [wd pins] else d2

/-! ## Status block (R397) -/

/-- The status block at the P0 latch. -/
def Device.sfLatch (d : Device) : Device :=
  if !d.bit Reg.SF_STAT_POS_EN then d
  else
    { d with img := { d.img with
      latch := mapPut d.img.latch (d.areaBase areaN + d.fld Reg.SF_STAT_POS_OFF)
        (leBytes 2 (d.fld Reg.SF_PAIR_STAT_RUN) ++ leBytes 2 (d.fld Reg.SF_PAIR_STAT_DISC)
          ++ [BitVec.ofNat 8 (d.fld Reg.SF_LOCK_STAT_LOCKED), BitVec.ofNat 8 (d.fld Reg.SF_SLUICE_STAT_TRIP),
            BitVec.ofNat 8 (d.fld Reg.SF_SEAL_STAT_PERM_NOW), 0]) } }

/-! ## Commands (R402) -/

def Device.cmdSfClear (d : Device) (arg : Nat) : Device :=
  d.clearCmd portSF arg (fun d => (d.wr Reg.SF_CNT 0).wr Reg.SF_SLUICE_FLAGS 0)

def execSfClearCounters (arg : BitVec 24) (s : State) : Host.Outcome State Fault Refusal :=
  run (fun d => d.cmdSfClear arg.toNat) s

end Sys2Proof.Machine
end

