-- ==== Sys2Proof/Machine/Fld.lean ====
section
/-! DEFINITION. Field inputs and outputs (R403–R427), the field die's over-temperature (R574) and Weir (R568–R570). -/

namespace Sys2Proof.Machine

/-! ## Channels -/

/-- Fault bits (R422). -/
def fOVERLOAD : Nat := 0
def fTHERMAL : Nat := 1
def fOPENOFF : Nat := 2
def fOPENON : Nat := 3
def fSTUCKON : Nat := 4
def fSTUCKOFF : Nat := 5
def fSUPPLY : Nat := 6
def fLATCHED : Nat := 7

def Device.chFault (d : Device) (c k : Nat) : Bool := d.bitAt (Reg.FLD_CH_STAT_FAULT c) k
def Device.chEn (d : Device) (c : Nat) : Bool := d.bit (Reg.FLD_CH_CFG_EN c)
def Device.chOn (d : Device) (c : Nat) : Bool := d.fd.on.testBit c
def Device.vfdLow (d : Device) : Bool := d.bit Reg.FLD_VFD_VFD_LOW
def Device.fdHot (d : Device) : Bool := d.bit Reg.PWR_SUP_STAT_FD_HOT

/-- Supply states of a group (R420). -/
def vfMISSING : Nat := 2

def Device.vfMissing (d : Device) (g : Nat) : Bool := d.fld (Reg.FLD_VF_STATE g) == vfMISSING

/-- A fault bit of a channel sets: its flag, and the router source of its group (R425). -/
def Device.setFault (d : Device) (c k : Nat) : Device :=
  if d.chFault c k then d
  else
    ((d.setBitAt (Reg.FLD_CH_STAT_FAULT c) k true).setBitAt (Reg.FLD_CH_STAT_FLAGS c) k true).fire (0xE1 + c / 8)

def Device.clearBit (d : Device) (c k : Nat) : Device := d.setBitAt (Reg.FLD_CH_STAT_FAULT c) k false

/-- What keeps a channel off whatever its committed value: EN, Sluice, latched and thermal faults, its supply, VFD, the
keepalive, the field die's temperature (R404, R412, R419, R421, R574). -/
def Device.chBlocked (d : Device) (c : Nat) : Bool :=
  !d.chEn c || d.sf.held.testBit c || d.chFault c fLATCHED || d.chFault c fTHERMAL || d.vfMissing (c / 8) || d.vfdLow
    || d.sf.keepaliveLost || d.fdHot

/-! ## Inputs (R404–R409) -/

/-- The presented value of DI_i changes: router sources, pairs, groups. -/
def Device.diTo (d : Device) (i : Nat) (v : Bool) : Device :=
  if d.di i = v then d
  else
    let d1 := (d.setBitAt Reg.FLD_DI_VAL_VAL i v).fire (if v then i else 0x20 + i)
    (d1.resetInput i v).sfUpdate

/-- A change passes the filter of an input. -/
def execDiChange (i : Fin 32) (v : Bool) (s : State) : Host.Outcome State Fault Refusal :=
  run (fun d => if v && (d.vfdLow || d.vfMissing 3) then d else d.diTo i.val v) s

/-- 8 samples in a row set or clear the break of an input with WB_EN = 1. -/
def execWireBreak (i : Fin 32) (v : Bool) (s : State) : Host.Outcome State Fault Refusal :=
  run (fun d =>
    if !d.bitAt Reg.FLD_DI_WB_WB_EN i || d.vfdLow || d.vfMissing 3 || d.bitAt Reg.FLD_DI_BREAK_BREAK i == v then d
    else
      let d1 := d.setBitAt Reg.FLD_DI_BREAK_BREAK i v
      let d2 := if v then d1.inc Reg.FLD_CNT_WB else d1
      (d2.raise 0x2C6 [wd i.val, wd (b2n v)]).fire 0xE0) s

/-! ## Supplies and interface (R403, R404, R421, R574) -/

/-- VFD falls below V_FD_LOW: outputs off, and every input drops to 0 at once. -/
def execVfdLow (mv : BitVec 16) (s : State) : Host.Outcome State Fault Refusal :=
  run (fun d =>
    let d1 := d.setF Reg.FLD_VFD_V_MV mv.toNat
    if d1.vfdLow then d1
    else
      let d2 := ((d1.setF Reg.FLD_VFD_VFD_LOW 1).raise 0x2C5 [wd mv.toNat]).fire 0xDF
      forN 32 (fun i d => d.diTo i false) (d2.turnOff 0xFFFFFF)) s

/-- VFD recovers: channels take their values at the next commit, input filters restart from 0. -/
def execVfdRecover (mv : BitVec 16) (s : State) : Host.Outcome State Fault Refusal :=
  run (fun d => (d.setF Reg.FLD_VFD_V_MV mv.toNat).setF Reg.FLD_VFD_VFD_LOW 0) s

/-- The channels of output group g. -/
def grpMask (g : Nat) : Nat := 0xFF * 2 ^ (8 * g)

/-- The channels for which a test holds, below n. -/
def maskOf (p : Nat → Bool) : Nat → Nat
  | 0 => 0
  | n + 1 => putBit (maskOf p n) n (p n)

/-- A dark test ends without a result, and the channel turns on again where nothing holds it off (R416). -/
def Device.dropDark (d : Device) (g : Nat) : Device :=
  match d.fd.dark with
  | some c =>
    if c / 8 = g then
      let d1 : Device := { d with fd := { d.fd with dark := none } }
      if d1.chBlocked c || !d1.fd.value.testBit c then d1
      else { d1 with fd := { d1.fd with on := putBit d1.fd.on c true } }
    else d
  | none => d

/-- A field supply group changes state. -/
def execVfStateChange (g st : Fin 4) (v10 : BitVec 16) (s : State) : Host.Outcome State Fault Refusal :=
  run (fun d =>
    let old := d.fld (Reg.FLD_VF_STATE g)
    let d1 := d.setF (Reg.FLD_VF_V_10MV g) v10.toNat
    if old = st.val then d1
    else
      let d2 := ((d1.setF (Reg.FLD_VF_STATE g) st.val).raise 0x2C4 [wd g.val, wd old, wd st.val, wd v10.toNat]).fire
        (0xDB + g.val)
      if g.val = 3 then d2
      else if st.val = vfMISSING then
        forN 8 (fun k d => if d.chEn (8 * g.val + k) then d.setFault (8 * g.val + k) fSUPPLY else d)
          (d2.turnOff (grpMask g))
      else
        let d3 := if old = vfMISSING then forN 8 (fun k d => d.clearBit (8 * g.val + k) fSUPPLY) d2 else d2
        if st.val = 0 then d3 else d3.dropDark g) s

/-- 16 consecutive failed transfers: event 0x2CE, and the keepalive stops. -/
def execFldInterfaceFail (s : State) : Host.Outcome State Fault Refusal :=
  run (fun d =>
    let d1 := d.satAdd Reg.FLD_IF_STAT_IF_ERR 16
    (d1.raise 0x2CE [wd (d1.fld Reg.FLD_IF_STAT_IF_ERR)]).setF Reg.FLD_IF_STAT_KEEPALIVE 0) s

/-- The field die's temperature crosses 155 °C upwards or 140 °C downwards. -/
def execFdOvertemp (hot : Bool) (temp : BitVec 16) (s : State) : Host.Outcome State Fault Refusal :=
  run (fun d =>
    let d1 := d.setF Reg.FLD_TEMP_T_01C temp.toNat
    if d1.fdHot = hot then d1
    else
      let d2 := (d1.setB Reg.PWR_SUP_STAT_FD_HOT hot).raise 0x3F3 [wd (b2n hot), wd temp.toNat]
      if hot then (d2.setF Reg.PWR_SUP_FLAGS_FD_HOT 1).turnOff 0xFFFFFF else d2) s

/-! ## Overload and thermal shutdown (R412) -/

/-- A current limit lasted OVL_MS: the channel turns off with the latched fault OVERLOAD. -/
def execOverloadTrip (c : Fin 24) (ma : BitVec 16) (s : State) : Host.Outcome State Fault Refusal :=
  run (fun d =>
    if d.chOn c ∧ d.fld (Reg.FLD_CH_CFG_OVL_MS c) ≠ 0 then
      (((d.turnOff (2 ^ c.val)).inc Reg.FLD_CNT_OVL).raise 0x2C7 [wd c.val, wd ma.toNat]).setFault c fOVERLOAD
        |>.setFault c fLATCHED
    else d) s

/-- A channel's thermal shutdown; THERM_AUTO = 0 latches it. -/
def execThermalShutdown (c : Fin 24) (s : State) : Host.Outcome State Fault Refusal :=
  run (fun d =>
    if !d.chEn c then d
    else
      let auto := d.bit (Reg.FLD_CH_CFG_THERM_AUTO c)
      let d1 := ((d.turnOff (2 ^ c.val)).inc Reg.FLD_CNT_THERM).raise 0x2C8 [wd c.val, wd (b2n auto)]
      let d2 : Device := { d1 with fd := { d1.fd with hot := putBit d1.fd.hot c true } }
      let d3 := d2.setFault c fTHERMAL
      if auto then { d3 with fd := { d3.fd with restart := putBit d3.fd.restart c true } } else d3.setFault c fLATCHED) s

/-! ## Read-back (R413, R417) -/

/-- An off DO between V_OW and 6 V for 1 ms. -/
def execOpenOffDetect (c : Fin 16) (s : State) : Host.Outcome State Fault Refusal :=
  run (fun d =>
    if d.chEn c ∧ d.bit (Reg.FLD_CH_CFG_OW_EN c) ∧ !d.chOn c ∧ d.fd.dark = none ∧ !d.vfMissing (c.val / 8)
        ∧ !d.chFault c fOPENOFF then
      (d.setFault c fOPENOFF).raise 0x2C9 [wd c.val, 0]
    else d) s

/-- An on channel below I_OL for 1 ms. -/
def execOpenOnDetect (c : Fin 24) (s : State) : Host.Outcome State Fault Refusal :=
  run (fun d =>
    if d.chEn c ∧ d.bit (Reg.FLD_CH_CFG_OL_EN c) ∧ d.chOn c ∧ !d.vfMissing (c.val / 8) ∧ !d.chFault c fOPENON then
      (d.setFault c fOPENON).raise 0x2C9 [wd c.val, 1]
    else d) s

/-- An off channel, outside a dark test, that reads as conducting for 1 ms. -/
def execStuckOnDetect (c : Fin 24) (s : State) : Host.Outcome State Fault Refusal :=
  run (fun d =>
    if d.chEn c ∧ !d.chOn c ∧ d.fd.dark ≠ some c.val ∧ !d.vfMissing (c.val / 8) then d.setFault c fSTUCKON else d) s

/-- A channel commanded on that reads as off for 100 µs after t_OUT; `mv` is its pin voltage. -/
def execStuckOffDetect (c : Fin 24) (mv : BitVec 16) (s : State) : Host.Outcome State Fault Refusal :=
  run (fun d =>
    if d.chEn c ∧ d.fd.value.testBit c ∧ !d.sf.held.testBit c ∧ !d.chFault c fOVERLOAD ∧ !d.chFault c fTHERMAL
        ∧ !d.chFault c fSTUCKON ∧ !d.chFault c fSUPPLY ∧ !d.chFault c fLATCHED ∧ !d.chFault c fSTUCKOFF then
      (d.setFault c fSTUCKOFF).raise 0x2CB [wd c.val, wd mv.toNat]
    else d) s

/-- The condition of a fault that does not latch ends (0 OPEN_OFF, 1 OPEN_ON, 2 STUCK_ON, 3 STUCK_OFF), or the channel
cools below its restart temperature (4). A STUCK_ON of a dark test stays (R422). -/
def execFaultConditionEnd (c : Fin 24) (what : Fin 5) (s : State) : Host.Outcome State Fault Refusal :=
  run (fun d =>
    if what.val = 4 then
      let d1 : Device := { d with fd := { d.fd with hot := putBit d.fd.hot c false } }
      if d1.chFault c fLATCHED then d1 else d1.clearBit c fTHERMAL
    else if what.val = 2 ∧ d.fd.darkStuck.testBit c then d
    else d.clearBit c (2 + what.val)) s

/-! ## Dark tests (R415, R416) -/

/-- This tick is a dark-test tick of the device. -/
def Device.darkTick (d : Device) : Bool :=
  let n := d.atLeast1 Reg.FLD_DT_CFG_DT_EVERY
  decide (d.tickCount % n = 0) && (!d.isLane || decide (d.tickCount / n % 3 = d.lane))

/-- A channel that a dark test may take. -/
def Device.darkFit (d : Device) (c : Nat) : Bool :=
  d.bit (Reg.FLD_CH_CFG_DT_EN c) && d.chEn c && d.fd.value.testBit c && !d.sf.held.testBit c
    && d.fld (Reg.FLD_CH_STAT_FAULT c) == 0

/-- The next channel after the last one tested, wrapping. -/
def Device.darkNext (d : Device) : Option Nat :=
  ((List.range 24).map (fun k => (d.fd.darkLast + 1 + k) % 24)).find? (fun c => d.darkFit c)

/-- DT_OFF_US after the boundary of a dark-test tick: the next channel switches off. -/
def execDarkTestStart (s : State) : Host.Outcome State Fault Refusal :=
  run (fun d =>
    if !d.ticking || !d.tick.started || !d.darkTick || d.fd.dark.isSome || d.fd.darkTick == some d.tickCount then d
    else
      match d.darkNext with
      | none => d
      | some c => { d with fd := { d.fd with
          dark := some c, darkTick := some d.tickCount, darkLast := c, on := putBit d.fd.on c false } }) s

/-- The result of a dark test: 0 skipped, 1 pass, 2 fail. -/
def darkJudge (c mv ma : Nat) : Nat :=
  if c < 16 then (if mv < 4000 then 1 else 2)
  else if 8000 < mv then 1
  else if ma < 2 then 0 else 2

/-- The end of the pulse: pin voltage in mV and current in mA judge it, and the channel turns on again. -/
def execDarkTestEnd (mv ma : BitVec 16) (s : State) : Host.Outcome State Fault Refusal :=
  run (fun d =>
    match d.fd.dark with
    | none => d
    | some c =>
      let r := darkJudge c mv.toNat ma.toNat
      let d1 : Device := { d with fd := { d.fd with
        dark := none, on := putBit d.fd.on c (!d.chBlocked c && d.fd.value.testBit c)
        darkRes := if r = 0 then d.fd.darkRes else (c, r)
        darkStuck := if r = 2 then putBit d.fd.darkStuck c true else d.fd.darkStuck } }
      if r = 2 then
        (((d1.setFault c fSTUCKON).inc Reg.FLD_CNT_DT_FAIL).raise 0x2CA [wd c, wd mv.toNat, wd ma.toNat]).fire 0xE4
      else d1) s

/-! ## Latched faults (R423) -/

/-- The cause of a latched fault is present: above the restart temperature, or a supply of the channel MISSING. -/
def Device.faultCause (d : Device) (c : Nat) : Bool := d.fd.hot.testBit c || d.vfMissing (c / 8)

/-- A latched fault clears: event 0x2CC. -/
def Device.unlatch (d : Device) (c how : Nat) : Device :=
  if d.chFault c fLATCHED then
    (((d.clearBit c fLATCHED).clearBit c fOVERLOAD).clearBit c fTHERMAL).raise 0x2CC [wd c, wd how]
  else d

/-- A STUCK_ON of a dark test clears. -/
def Device.clearDark (d : Device) (c : Nat) : Device :=
  if d.fd.darkStuck.testBit c then
    ({ d with fd := { d.fd with darkStuck := putBit d.fd.darkStuck c false } } : Device).clearBit c fSTUCKON
  else d

def Device.cmdClearFault (d : Device) (arg : Nat) : Device :=
  let named := (List.range 24).filter (fun c => arg.testBit c)
  d.commandNow portFLD 2 arg 0 ⟨true, true, named.all (fun c => !d.faultCause c)⟩
    (fun d => named.foldl (fun d c => (d.unlatch c 1).clearDark c) d)

def Device.cmdFldClear (d : Device) (arg : Nat) : Device := d.clearCmd portFLD arg (fun d => d.wr Reg.FLD_CNT 0)

def execClearFault (arg : BitVec 24) (s : State) : Host.Outcome State Fault Refusal :=
  run (fun d => d.cmdClearFault arg.toNat) s
def execFldClearCounters (arg : BitVec 24) (s : State) : Host.Outcome State Fault Refusal :=
  run (fun d => d.cmdFldClear arg.toNat) s

/-! ## Commit and Weir (R419, R568–R570) -/

def noQueue (_ : Nat) : List Nat := []
def noClaims (_ : Nat) : List (Nat × Nat) := []

/-- INR_MA of a channel. -/
def Device.inrMa (d : Device) (c : Nat) : Nat := 50 * bitsOf (d.rd (Reg.PWR_INR (c / 8))) (4 * (c % 8)) 4

/-- The auto-restarts of a commit (R412): one that would be the eighth within 1 s latches instead. -/
def Device.autoRestart (d : Device) (c : Nat) : Device :=
  if !d.fd.restart.testBit c || d.fd.hot.testBit c then d
  else
    let l := (sget noQueue d.fd.restarts c).filter (fun t => decide (d.ts64 < t + 1000000000))
    let d1 : Device := { d with fd := { d.fd with restart := putBit d.fd.restart c false } }
    if !d1.fd.value.testBit c then d1
    else if 7 ≤ l.length then ((d1.setFault c fTHERMAL).setFault c fLATCHED).raise 0x2CD [wd c]
    else { d1 with fd := { d1.fd with restarts := sput noQueue d1.fd.restarts c (d1.ts64 :: l) } }

/-- A commit of the field output image at the field die: faults that the committed values clear, turn-offs, and the
turn-ons of each group in Weir's order. -/
def Device.fdCommit (d : Device) : Device :=
  let v := numAt (mapGet d.img.committed (d.areaBase areaQ + 0x1FF00) 3) 0 3
  let d1 : Device := { d with fd := { d.fd with value := v, on := d.fd.on &&& v } }
  let d2 := forN 24 (fun c d =>
    let x := if v.testBit c then d
      else
        let y := d.clearDark c
        if y.faultCause c then y else y.unlatch c 0
    x.autoRestart c) d1
  let ready := fun c => v.testBit c && !d2.chOn c && !d2.chBlocked c && d2.fd.dark != some c
  forN 3 (fun g d =>
    let cs := (List.range 8).map (fun k => 8 * g + k)
    let want := cs.filter ready
    let safe := want.filter (fun c => d.bit (Reg.FLD_CH_CFG_SAFE c))
    let rest := want.filter (fun c => !d.bit (Reg.FLD_CH_CFG_SAFE c))
    let steady := ((cs.filter (fun c => d.chOn c)).map (fun c => d.fld (Reg.FLD_CH_STAT_I_MA c))).sum
    { d with fd := { d.fd with
      queue := sput noQueue d.fd.queue g (safe ++ rest), claims := sput noClaims d.fd.claims g []
      head := sput zeroAt d.fd.head g (10 * d.fld (Reg.PWR_WEIR_BUD_10MA g) - steady)
      overs := sput falseAt d.fd.overs g false } }) d2

def weirLast (g : Nat) : Fld :=
  if g = 0 then Reg.PWR_WEIR_STAT_LAST_0 else if g = 1 then Reg.PWR_WEIR_STAT_LAST_1 else Reg.PWR_WEIR_STAT_LAST_2
def weirOver (g : Nat) : Fld :=
  if g = 0 then Reg.PWR_WEIR_CNT_OVER_0 else if g = 1 then Reg.PWR_WEIR_CNT_OVER_1 else Reg.PWR_WEIR_CNT_OVER_2

/-- Grants of group g at slot k: from the front of the queue while the first one fits (R569). -/
def Device.weirGrants (d : Device) (g k : Nat) : Nat → Device
  | 0 => d
  | n + 1 =>
    match sget noQueue d.fd.queue g with
    | [] => d
    | c :: t =>
      let claims := sget noClaims d.fd.claims g
      let fits := decide ((claims.map (fun p => p.2)).sum + d.inrMa c ≤ sget zeroAt d.fd.head g)
      if fits ∨ claims = [] ∨ (d.bit (Reg.FLD_CH_CFG_SAFE c) ∧ 5 ≤ k) ∨ k = 61 then
        let d1 : Device := { d with fd := { d.fd with
          queue := sput noQueue d.fd.queue g t, on := putBit d.fd.on c true
          claims := sput noClaims d.fd.claims g (claims ++ [(k, d.inrMa c)]) } }
        let d2 := d1.setF (weirLast g) k
        let d3 := if fits then d2
          else
            let x := d2.inc (weirOver g)
            if sget falseAt x.fd.overs g then x
            else ({ x with fd := { x.fd with overs := sput falseAt x.fd.overs g true } } : Device).raise 0x3F4 [wd g, wd c, wd k]
        d3.weirGrants g k n
      else d

/-- A Weir slot: claims older than INR_US drop, and the waiting turn-ons that fit are granted. -/
def execWeirGrant (slot : Fin 62) (s : State) : Host.Outcome State Fault Refusal :=
  run (fun d => forN 3 (fun g d =>
    let live := (sget noClaims d.fd.claims g).filter (fun p =>
      decide (slot.val < p.1 + d.atLeast1 (Reg.PWR_WEIR_INR_US g) ))
    let d1 : Device := { d with fd := { d.fd with claims := sput noClaims d.fd.claims g live } }
    d1.weirGrants g slot 8) d) s

/-! ## The P0 latch (R52, R424) -/

/-- The mirror of what the field die measures. -/
def Device.measure (d : Device) (m : FieldMeas) : Device :=
  let d1 := forN 24 (fun c d => d.setF (Reg.FLD_CH_STAT_I_MA c) (m.current.getD c 0)) d
  let d2 := forN 4 (fun g d => d.setF (Reg.FLD_VF_V_10MV g) (m.vf.getD g 0)) d1
  let d3 := (d2.setF Reg.FLD_VFD_V_MV m.vfd).setS Reg.FLD_TEMP_T_01C m.temp
  { d3 with fd := { d3.fd with doHigh := m.doHigh % 2 ^ 16, dlLow := m.dlLow % 2 ^ 8 } }

/-- The diagnostics of I bytes 0x1FF00–0x1FF63 (R424). -/
def Device.diagnostics (d : Device) : List Byte :=
  leBytes 4 (d.fld Reg.FLD_DI_BREAK_BREAK) ++ leBytes 2 d.fd.doHigh ++ leBytes 1 d.fd.dlLow
    ++ leBytes 1 (d.fld (Reg.FLD_VF_STATE 0) + 4 * d.fld (Reg.FLD_VF_STATE 1) + 16 * d.fld (Reg.FLD_VF_STATE 2)
        + 64 * d.fld (Reg.FLD_VF_STATE 3))
    ++ leBytes 8 (b2n d.vfdLow)
    ++ ((List.range 24).map (fun c => leBytes 1 (d.fld (Reg.FLD_CH_STAT_FAULT c)))).flatten
    ++ ((List.range 24).map (fun c => leBytes 2 (d.fld (Reg.FLD_CH_STAT_I_MA c)))).flatten
    ++ ((List.range 4).map (fun g => leBytes 2 (d.fld (Reg.FLD_VF_V_10MV g)))).flatten
    ++ leBytes 2 (d.fld Reg.FLD_TEMP_T_01C) ++ leBytes 1 d.fd.darkRes.1 ++ leBytes 1 d.fd.darkRes.2

/-- The field part of the P0 latch: filtered inputs and diagnostics. -/
def Device.fdLatch (d : Device) : Device :=
  { d with img := { d.img with
    latch := mapPut (mapPut d.img.latch (d.areaBase areaI + 4) (leBytes 4 (d.rd Reg.FLD_DI_VAL).toNat))
      (d.areaBase areaI + 0x1FF00) d.diagnostics } }

end Sys2Proof.Machine
end

