-- ==== Sys2Proof/Machine/Sig.lean ====
section
/-! DEFINITION. The bitstream signal chain (R428–R447): decimation, correction, DC blocker, thresholds, blocks, output
chains, coefficient swaps, calibration, rotation, and the command of SIG (R451). -/

namespace Sys2Proof.Machine

def chain0 (_ : Nat) : Chain := Chain.zero
def inCh0 (_ : Nat) : InCh := InCh.zero
def outCh0 (_ : Nat) : OutCh := OutCh.zero
def rot0 (_ : Nat) : GrpRot := GrpRot.zero

def Device.chain (d : Device) (m : Nat) : Chain := sget chain0 d.sig.chain m
def Device.setChain (d : Device) (m : Nat) (x : Chain) : Device :=
  { d with sig := { d.sig with chain := sput chain0 d.sig.chain m x } }
def Device.inCh (d : Device) (k : Nat) : InCh := sget inCh0 d.sig.inp k
def Device.setInCh (d : Device) (k : Nat) (x : InCh) : Device :=
  { d with sig := { d.sig with inp := sput inCh0 d.sig.inp k x } }
def Device.outCh (d : Device) (k : Nat) : OutCh := sget outCh0 d.sig.out k
def Device.setOutCh (d : Device) (k : Nat) (x : OutCh) : Device :=
  { d with sig := { d.sig with out := sput outCh0 d.sig.out k x } }
def Device.rot (d : Device) (g : Nat) : GrpRot := sget rot0 d.sig.rot g
def Device.setRot (d : Device) (g : Nat) (x : GrpRot) : Device :=
  { d with sig := { d.sig with rot := sput rot0 d.sig.rot g x } }

/-! ## Numbers -/

/-- A result of f32 arithmetic; an invalid one is a NaN. -/
def nanOr (x : Option Word) : Word := x.getD 0x7FC00000

/-- n / den × 2^e rounded once to f32. -/
def fRat (n : Int) (den : Nat) (e : Int) : Word :=
  let m := n.natAbs * 2 ^ 64
  fRound (decide (n < 0)) (m / max 1 den) (e - 64) (decide (m % max 1 den ≠ 0))

/-- The exact sum of finite floats, in units of 2⁻¹⁴⁹. -/
def fSumExact (l : List Word) : Int := (l.map (fun w => fAt w (-149))).sum

/-- The mean of floats, rounded once (log 28). -/
def fMean (l : List Word) : Word := fRat (fSumExact l) l.length (-149)

/-- The root mean square of floats, rounded once (log 28). -/
def fRms (l : List Word) : Word :=
  let n := (l.map (fun w => (fAt w (-149)).natAbs ^ 2)).sum * 2 ^ 128 / max 1 l.length
  let r := isqrtFrom 400 n 0
  fRound false r (-149 - 64) (decide (r * r ≠ n))

def fAbs (w : Word) : Word := w &&& 0x7FFFFFFF

/-- The largest absolute value. -/
def fMaxAbs (l : List Word) : Word := l.foldl (fun a w => if fLt a (fAbs w) then fAbs w else a) 0

/-- |w| is at most n / den. -/
def fWithin (w : Word) (n den : Nat) : Bool := fFinite w && decide ((fAt w (-149)).natAbs * den ≤ n * 2 ^ 149)

/-- A number of LSB (2⁻²³) as a float. -/
def lsbF (n : Int) : Word := fRat n 1 (-23)

/-- n / 2^k rounded to the nearest integer, ties to even. -/
def roundEven (n : Int) (k : Nat) : Int :=
  let q := Int.fdiv n (2 ^ k : Nat)
  let r := n - q * (2 ^ k : Nat)
  let half : Int := (2 ^ (k - 1) : Nat)
  if half < r ∨ (r = half ∧ q % 2 = 1) then q + 1 else q

/-! ## Decimation (R430, R438) -/

/-- Tap i of a sinc3 of ratio n: the ways to write i as a sum of three numbers below n. -/
def sincTap (n i : Nat) : Int :=
  let c := fun (k : Int) => if k < 0 then 0 else (k + 1) * (k + 2) / 2
  c i - 3 * c ((i : Int) - n) + 3 * c ((i : Int) - 2 * n)

/-- The sinc3 of ratio n over bits, newest first. -/
def sinc3 (n : Nat) (bits : List Bool) : Int :=
  (((bits.take (3 * n - 2)).zipIdx).map (fun p => if p.1 then sincTap n p.2 else -sincTap n p.2)).sum

/-- The channel whose filter and ratios modulator m runs under: its own, or for a spare the one handled. -/
def Device.chainCh (d : Device) (m : Nat) : Nat :=
  let g := m / 5
  if m % 5 < 4 then 4 * g + m % 5 else 4 * g + (d.rot g).served.getD (d.fld (Reg.SIG_GRP_STAT_J g))

/-- The bank that a filter of a chain uses. -/
def Device.coefBank (d : Device) (banked : Bool) : Nat := if banked then d.fld Reg.SIG_BANK_ACTIVE else 0

/-- Taps of filter f in a bank. -/
def Device.taps (d : Device) (bank f : Nat) : Nat :=
  min 128 (if bank = 0 then d.fld (Reg.SIG_FILTA_NTAPS f) else d.fld (Reg.SIG_FILTB_NTAPS f))

/-- Coefficient i of a filter, in units of 2⁻²². -/
def Device.coef (d : Device) (bank f i : Nat) : Int :=
  let c : Int := bitsOf (d.rd (Reg.SIG_COEF bank f i)) 0 24
  if c < 2 ^ 23 then c else c - 2 ^ 24

/-- The bits of one sample enter a chain: a sinc3 output for each D_S of them. -/
def sincIn (k : Nat) : Nat → List Bool → Chain → Chain
  | 0, _, x => x
  | n + 1, bits, x =>
    let hist := ((bits.take (2 ^ k)).reverse ++ x.hist).take (3 * 2 ^ k)
    sincIn k n (bits.drop (2 ^ k))
      { x with hist := hist, line := ((sinc3 (2 ^ k) hist * 2 ^ (24 - 3 * k)) :: x.line).take 128 }

/-- The FIR over the delay line: LSB, ties to even. -/
def Device.firOut (d : Device) (bank f : Nat) (line : List Int) : Int :=
  roundEven (((line.take (d.taps bank f)).zipIdx).map (fun p => d.coef bank f p.2 * p.1)).sum 23

/-! ## Settling suppression, overrange, rotation aborts (R433, R440, R447) -/

/-- Channel i of a group is on the spare. -/
def Device.onSpare (d : Device) (i : Nat) : Bool := (d.rot (i / 4)).served == some (i % 4)

def Device.sigMode (d : Device) (g mode j : Nat) : Device :=
  (d.setF (Reg.SIG_GRP_STAT_MODE g) mode).setF (Reg.SIG_GRP_STAT_J g) j

/-- The slot of a group aborts in its first steps. -/
def Device.slotAbort (d : Device) (g reason : Nat) : Device :=
  let d1 := (d.inc Reg.SIG_CNT_ABORTS).raise 0x308 [wd g, wd (4 * g + d.fld (Reg.SIG_GRP_STAT_J g)), wd reason]
  (d1.setRot g { d1.rot g with step := 0 }).sigMode g 0 (d1.fld (Reg.SIG_GRP_STAT_J g))

/-- A condition that disturbs the match of a group: it aborts the slot in steps 1–2; later the step starts anew. -/
def Device.disturb (d : Device) (g reason : Nat) : Device :=
  let x := d.rot g
  let m := 5 * g + d.fld (Reg.SIG_GRP_STAT_J g)
  if x.step = 1 then d.slotAbort g reason
  else if x.step = 5 then
    (d.setChain m { d.chain m with ys := [] }).setChain (5 * g + 4) { d.chain (5 * g + 4) with ys := [] }
  else d

/-- A channel enters settling suppression. -/
def Device.settleIn (d : Device) (i : Nat) : Device :=
  let d1 := d.setInCh i { d.inCh i with settling := true }
  if d1.fld (Reg.SIG_GRP_STAT_J (i / 4)) = i % 4 then d1.disturb (i / 4) 1 else d1

/-- The logical channel that reads a chain. -/
def Device.readerOf (d : Device) (m : Nat) : Option Nat :=
  let g := m / 5
  if m % 5 < 4 then (if d.onSpare (4 * g + m % 5) then none else some (4 * g + m % 5))
  else (d.rot g).served.map (fun j => 4 * g + j)

/-- A chain takes part in the slot of its group. -/
def Device.inSlot (d : Device) (m : Nat) : Bool :=
  m % 5 == 4 || m % 5 == d.fld (Reg.SIG_GRP_STAT_J (m / 5))

/-- 64 identical bits. -/
def execOverrangeStart (m : Fin 20) (s : State) : Host.Outcome State Fault Refusal :=
  run (fun d =>
    let x := d.chain m
    if x.ovr then d
    else
      let d1 := ((d.setChain m { x with ovr := true }).inc Reg.SIG_CNT_OVR).raise 0x305 [wd m.val, 1]
      if d1.inSlot m then d1.disturb (m.val / 5) 2 else d1) s

/-- The run ends: the channel that reads the chain settles. -/
def execOverrangeEnd (m : Fin 20) (s : State) : Host.Outcome State Fault Refusal :=
  run (fun d =>
    let x := d.chain m
    if !x.ovr then d
    else
      let d1 := (d.setChain m { x with ovr := false }).raise 0x305 [wd m.val, 0]
      match d1.readerOf m with
      | some i => d1.settleIn i
      | none => d1) s

/-- T_SET has passed; start-up calibration holds the suppression until its end (R444). -/
def execSettlingEnd (k : Fin 16) (s : State) : Host.Outcome State Fault Refusal :=
  run (fun d =>
    if d.bit (Reg.SIG_GRP_STAT_START_DONE (k.val / 4)) then d.setInCh k { d.inCh k with settling := false } else d) s

/-! ## Samples (R430–R435, R446) -/

/-- h moves towards 0 by 1 LSB, and stops at 0. -/
def drainH (h : Word) : Word :=
  if fWithin h 1 (2 ^ 23) then 0
  else if fNeg h then nanOr (fAdd h (lsbF 1)) else nanOr (fSub h (lsbF 1))

/-- A threshold sees a valid sample. -/
def Device.threshold (d : Device) (z : Word) (t : Nat) : Device :=
  let level := d.rd (Reg.SIG_THR_B t)
  let hyst := d.rd (Reg.SIG_THR_C t)
  let down := d.bit (Reg.SIG_THR_A_DIR t)
  let hit := if down then fLt z level else fLt level z
  let back := if down then fLt (nanOr (fAdd level hyst)) z else fLt z (nanOr (fSub level hyst))
  let off := sget falseAt d.sig.disarmed t
  if !off && hit then
    ({ d with sig := { d.sig with disarmed := sput falseAt d.sig.disarmed t true } } : Device).fire (0x80 + t)
  else if off && back then { d with sig := { d.sig with disarmed := sput falseAt d.sig.disarmed t false } }
  else d

/-- A sample y of the chain that channel i reads: DC blocker, statistics, thresholds. -/
def Device.channelSample (d : Device) (i m : Nat) (y : Word) : Device :=
  let c := d.inCh i
  let ovr := (d.chain m).ovr
  let valid := !c.settling && !ovr
  let dcb := d.bit (Reg.SIG_IN_CFG_DCB_EN i)
  let e := if valid && dcb then
      nanOr (fAdd c.d (nanOr (fMul (nanOr (fSub y c.d)) (fRat 1 (2 ^ d.fld (Reg.SIG_IN_CFG_DCB_K i)) 0))))
    else c.d
  let z := if dcb then nanOr (fSub y e) else y
  let d1 := d.setInCh i { c with
    d := e, zs := if valid then c.zs ++ [z] else c.zs, sawSet := c.sawSet || c.settling, sawOvr := c.sawOvr || ovr }
  if valid then
    forN 32 (fun t d =>
      if d.bit (Reg.SIG_THR_A_EN t) && decide (d.fld (Reg.SIG_THR_A_CH t) = i) then d.threshold z t else d) d1
  else d1

/-- A chain completes a sample: the bits since the last one, oldest first, D_S × D_F of them. A value outside 24 bits is
free (log 29). -/
def execSigSample (m : Fin 20) (bits : List Bool) (s : State) : Host.Outcome State Fault Refusal :=
  run (fun d =>
    if !d.bitAt Reg.SIG_CFG_GRP_EN (m.val / 5) then d
    else
      let i := d.chainCh m
      let x := sincIn (d.fld (Reg.SIG_IN_CFG_SINC_K i) + 1) (2 ^ d.fld (Reg.SIG_IN_CFG_FIR_D i)) bits (d.chain m)
      let v := d.firOut (d.coefBank (d.bit (Reg.SIG_IN_CFG_BANKED i))) (d.fld (Reg.SIG_IN_CFG_FILT i)) x.line
      let r : Word × Device := if -8388608 ≤ v ∧ v ≤ 8388607 then (lsbF v, d)
        else (lsbF ((bitsOf d.free.1 0 24 : Int) - 8388608), d.free.2)
      let y0 := nanOr (fMul (nanOr (fSub r.1 (d.rd (Reg.SIG_MODCAL_OFF m)))) (d.rd (Reg.SIG_MODCAL_GAIN m)))
      let d1 := r.2.setChain m { x with ys := (y0 :: x.ys).take 64, h := drainH x.h }
      match d1.readerOf m with
      | some k => if d1.bit (Reg.SIG_IN_CFG_EN k) then d1.channelSample k m (nanOr (fAdd y0 x.h)) else d1
      | none => d1) s

/-! ## Blocks at the P0 latch (R434) -/

/-- VAL over the valid samples. -/
def sigVal (mode : Nat) (l : List Word) : Word :=
  if mode = 0 then l.getLastD 0 else if mode = 1 then fMean l else if mode = 2 then fRms l else fMaxAbs l

/-- The block of channel i. -/
def Device.sigBlock (d : Device) (i : Nat) : Device :=
  let c := d.inCh i
  let valid := !c.zs.isEmpty
  let age := if valid then 0 else min 255 (c.age + 1)
  let val := if valid then sigVal (d.fld (Reg.SIG_IN_CFG_MODE i)) c.zs else c.val
  let last := if valid then c.zs.getLastD 0 else c.last
  let zero := !valid && d.bit (Reg.SIG_IN_CFG_HOLD i)
  let st := 2 ^ 31 * b2n valid + 2 ^ 30 * b2n c.sawSet + 2 ^ 29 * b2n c.sawOvr + 2 ^ 28 * b2n (d.onSpare i)
    + 2 ^ 27 * b2n (d.bitAt (Reg.SIG_GRP_STAT_FAULT (i / 4)) (i % 4))
    + 2 ^ 26 * d.coefBank (d.bit (Reg.SIG_IN_CFG_BANKED i)) + 2 ^ 16 * age + min 65535 c.zs.length
  let n := d.fld (Reg.SIG_IN_CFG_NBUF i)
  let kept := c.zs.drop (c.zs.length - n)
  let bytes := leBytes 4 st ++ leBytes 4 (if zero then 0 else val.toNat) ++ leBytes 4 (if zero then 0 else last.toNat)
    ++ leBytes 4 0 ++ ((List.range n).map (fun k => leBytes 4 ((kept.getD k 0).toNat))).flatten
  let d1 := (d.wr (Reg.SIG_IN_STAT i) (wd st)).setInCh i { c with
    zs := [], sawSet := false, sawOvr := false, age := age, val := val, last := last }
  { d1 with img := { d1.img with latch := mapPut d1.img.latch (d1.areaBase areaA + d1.fld (Reg.SIG_IN_POS_OFF i)) bytes } }

def Device.sigLatch (d : Device) : Device :=
  forN 16 (fun i d => if d.bit (Reg.SIG_IN_CFG_EN i) then d.sigBlock i else d) d

/-! ## Output chains (R436, R437) -/

/-- ±0.8, and ±1.0. -/
def f08 : Word := 0x3F4CCCCD
def fOne : Word := 0x3F800000

/-- A value outside ±0.8. -/
def fClips (u : Word) : Bool := fLt f08 (fAbs u)

/-- The clamp of the stream; a NaN is 0.0. -/
def fClamp (u : Word) : Word :=
  if fIsNaN u then 0 else if fClips u then (if fNeg u then fNegate f08 else f08) else u

/-- Setpoints and the swap request commit with the field output image; `zero`: every setpoint commits as 0.0. -/
def Device.sigCommit (d : Device) (zero : Bool) : Device :=
  let d1 := forN 8 (fun k d =>
    if !d.bit (Reg.SIG_OUT_CFG_EN k) then d
    else
      let u := if zero then 0 else wd (numAt (mapGet d.img.committed (d.areaBase areaA + d.fld (Reg.SIG_OUT_CFG_OFF k)) 4) 0 4)
      let x := d.outCh k
      let d1 := d.setOutCh k { x with u := u, prev := x.u, n := 0, clamped := fClips u }
      if fClips u then
        let d2 := d1.setF (Reg.SIG_OUT_STAT_CLAMP k) 1
        if x.clamped then d2 else d2.raise 0x30B [wd k, u]
      else d1) d
  if zero || !d1.bit Reg.SIG_SWAP_POS_EN then d1
  else
    let b := (sget byte0 d1.img.committed (d1.areaBase areaA + d1.fld Reg.SIG_SWAP_POS_OFF)).toNat
    if b.testBit 7 ∧ b % 2 ≠ d1.fld Reg.SIG_BANK_ACTIVE then d1.setF Reg.SIG_BANK_PEND 1 else d1

/-- The stream value n of an output: u, or the ramp from the setpoint before. -/
def Device.streamVal (d : Device) (k : Nat) (x : OutCh) (div : Nat) : Word :=
  let total := 20 * d.periodUs
  let at_ := x.n * div
  if !d.bit (Reg.SIG_OUT_CFG_RAMP k) || decide (total ≤ at_) || !fFinite x.u || !fFinite x.prev then fClamp x.u
  else
    let p := fAt x.prev (-149)
    fClamp (fRat (p * total + (fAt x.u (-149) - p) * at_) total (-149))

/-- The FIR of an output over its delay line, rounded once (log 28). -/
def Device.firF (d : Device) (bank f : Nat) (line : List Word) : Word :=
  fRat (((line.take (d.taps bank f)).zipIdx).map (fun p => d.coef bank f p.2 * fAt p.1 (-149))).sum 1 (-149 - 22)

/-- One SD_CLK period of output k. -/
def execOutputChainSample (k : Fin 8) (s : State) : Host.Outcome State Fault Refusal :=
  run (fun d =>
    let x := d.outCh k
    if !d.bit (Reg.SIG_OUT_CFG_EN k) then d.setOutCh k { x with bit := false }
    else
      let hold := 2 ^ d.fld (Reg.SIG_OUT_CFG_OUT_J k)
      let div := hold * 2 ^ d.fld (Reg.SIG_OUT_CFG_IFACT k)
      let take := x.cnt % div == 0
      let x1 : OutCh := if x.cnt % hold = 0 then
          let line := ((if take then d.streamVal k { x with n := x.n + 1 } div else 0) :: x.line).take 128
          { x with
            line := line, n := if take then x.n + 1 else x.n
            v := d.firF (d.coefBank (d.bit (Reg.SIG_OUT_CFG_BANKED k))) (d.fld (Reg.SIG_OUT_CFG_FILT k)) line }
        else x
      let a1 := nanOr (fSub (nanOr (fAdd x1.a1 x1.v)) x1.fb)
      let a2 := nanOr (fSub (nanOr (fAdd x1.a2 a1)) x1.fb)
      let b := !fIsNaN a2 && decide (0 ≤ fKey a2)
      d.setOutCh k { x1 with cnt := x1.cnt + 1, a1 := a1, a2 := a2, bit := b, fb := if b then fOne else fNegate fOne }) s

/-! ## Coefficient swap and resync (R429, R439) -/

/-- The swap point. -/
def execCoefSwapPoint (s : State) : Host.Outcome State Fault Refusal :=
  run (fun d =>
    if !d.bit Reg.SIG_BANK_PEND then d
    else
      let old := d.fld Reg.SIG_BANK_ACTIVE
      let d1 := (((d.setF Reg.SIG_BANK_PEND 0).setF Reg.SIG_BANK_ACTIVE (1 - old)).inc Reg.SIG_BANK_SWAPS).raise 0x304
        [wd old, wd (1 - old), wd d.tickCount]
      forN 16 (fun i d =>
        if d.bit (Reg.SIG_IN_CFG_EN i) && d.bit (Reg.SIG_IN_CFG_BANKED i) then
          (d.setInCh i { d.inCh i with zs := [] }).settleIn i
        else d) d1) s

/-- A resync source: `off` is the distance in SD_CLK periods from the nearest grid point of the slowest enabled chain. -/
def execSdSyncResync (off : Int) (s : State) : Host.Outcome State Fault Refusal :=
  run (fun d =>
    let src := d.fld Reg.SIG_CFG_SYNC_SRC
    if src = 0 ∨ (src ≠ 1 ∧ d.sig.synced) ∨ (src = 3 ∧ !d.tick.started) then d
    else
      let d1 : Device := { d with sig := { d.sig with synced := true } }
      if off.natAbs ≤ 1 then d1
      else
        forN 16 (fun i d => if d.bit (Reg.SIG_IN_CFG_EN i) then d.settleIn i else d) (d1.raise 0x306 [wdi off])) s

/-! ## Calibration and rotation (R442–R447) -/

/-- The rotation of a group stops: event 0x30C. -/
def Device.rotStop (d : Device) (g : Nat) : Device :=
  let d1 := d.setF (Reg.SIG_GRP_STAT_STOPPED g) 1
  (d1.setRot g { d1.rot g with step := 0 }).raise 0x30C [wd g, wd (d1.fld (Reg.SIG_GRP_STAT_FAULT g))]

/-- The constants of modulator m from its zero and reference readings; false: they fail the limits. -/
def Device.modCal (d : Device) (m : Nat) (x0 xr : Word) : Bool × Device :=
  let gain := nanOr (fDiv (d.rd Reg.SIG_VREF) (nanOr (fSub xr x0)))
  if fWithin x0 (d.atLeast1 Reg.SIG_CAL_LIM_OFF_TOL) 1000
      && fWithin (nanOr (fSub gain fOne)) (d.atLeast1 Reg.SIG_CAL_LIM_GAIN_TOL) 1000 then
    (true, (d.wr (Reg.SIG_MODCAL_OFF m) x0).wr (Reg.SIG_MODCAL_GAIN m) gain)
  else
    (false, ((d.setBitAt (Reg.SIG_GRP_STAT_FAULT (m / 5)) (m % 5) true).inc Reg.SIG_CNT_CALFAIL).raise 0x309 [wd m, gain, x0])

/-- The number of points of a group's start-up calibration. -/
def Device.startPoints (d : Device) (g : Nat) : Nat := if d.bitAt Reg.SIG_CFG_SPARE_EN g then 10 else 8

/-- CAL_SEL for point n of start-up calibration. -/
def Device.startPoint (d : Device) (g n : Nat) : Device :=
  if n < 8 then d.sigMode g (if n % 2 = 0 then 4 else 3) (n / 2) else d.sigMode g (n - 8) 0

/-- The release of the SIG domain: start-up calibration of every enabled group, and every channel settles (R444). -/
def Device.sigStart (d : Device) : Device :=
  let d0 := forN 16 (fun i d => d.setInCh i { InCh.zero with settling := true }) d
  let d1 := forN 20 (fun m d => d.setChain m Chain.zero) { d0 with sig := { d0.sig with synced := false, disarmed := [], out := [] } }
  forN 4 (fun g d =>
    let d2 := d.wr (Reg.SIG_GRP_STAT g) 0
    if d2.bitAt Reg.SIG_CFG_GRP_EN g then (d2.setRot g { GrpRot.zero with seq := some 0 }).startPoint g 0
    else d2.setRot g GrpRot.zero) d1

/-- Start-up calibration of a group ends. -/
def Device.startCalEnd (d : Device) (g : Nat) : Device :=
  let us := d.startPoints g * (10000 * d.atLeast1 Reg.SIG_CAL_CFG_START_MS + 10 * d.atLeast1 Reg.SIG_CAL_CFG_MUX_US + 384)
  ((d.setRot g { d.rot g with seq := none }).setF (Reg.SIG_GRP_STAT_START_DONE g) 1).sigMode g 0 0
    |>.raise 0x30A [wd (2 ^ g), wd (us / 10000)]

/-- A point of start-up calibration. -/
def Device.startCal (d : Device) (g n : Nat) (x : Word) : Device :=
  let m := 5 * g + n / 2
  let d1 := if n % 2 = 0 then d.setRot g { d.rot g with x0 := x } else (d.modCal m (d.rot g).x0 x).2
  if n + 1 < d1.startPoints g then (d1.setRot g { d1.rot g with seq := some (n + 1) }).startPoint g (n + 1)
  else d1.startCalEnd g

/-- Clear the samples that a match collects. -/
def Device.collect (d : Device) (g j : Nat) : Device :=
  (d.setChain (5 * g + j) { d.chain (5 * g + j) with ys := [] }).setChain (5 * g + 4)
    { d.chain (5 * g + 4) with ys := [] }

/-- A measurement of the rotation ends in a step. -/
def Device.rotCal (d : Device) (g : Nat) (x : Word) : Device :=
  let r := d.rot g
  let j := d.fld (Reg.SIG_GRP_STAT_J g)
  if r.step = 3 then (d.setRot g { r with step := 4, x0 := x }).sigMode g 3 j
  else if r.step = 4 then
    let c := d.modCal (5 * g + j) r.x0 x
    if c.1 then ((c.2.setRot g { r with step := 5, homeFail := 0 }).sigMode g 2 j).collect g j
    else c.2.rotStop g
  else if r.step = 6 then (d.setRot g { r with step := 7, x0 := x }).sigMode g 1 j
  else if r.step = 7 then
    let c := d.modCal (5 * g + 4) r.x0 x
    if c.1 then (c.2.setRot g { r with step := 0 }).sigMode g 0 j else c.2.rotStop g
  else d

/-- A calibration measurement of group g ends with the averaged reading x. In steps 3–5 it waits while the channel settles
or a chain involved is overrange. -/
def execCalPointDone (g : Fin 4) (x : Word) (s : State) : Host.Outcome State Fault Refusal :=
  run (fun d =>
    let r := d.rot g
    let j := d.fld (Reg.SIG_GRP_STAT_J g)
    match r.seq with
    | some n => d.startCal g n x
    | none =>
      if (r.step = 3 ∨ r.step = 4) ∧ ((d.inCh (4 * g.val + j)).settling ∨ (d.chain (5 * g.val + 4)).ovr) then d
      else d.rotCal g x) s

/-- A rotation slot begins; a slot that is past its first match goes on instead. -/
def execRotationSlotStart (g : Fin 4) (s : State) : Host.Outcome State Fault Refusal :=
  run (fun d =>
    if !d.bitAt Reg.SIG_CFG_SPARE_EN g || !d.bit (Reg.SIG_GRP_STAT_START_DONE g) || d.bit (Reg.SIG_GRP_STAT_STOPPED g)
        || decide (2 ≤ (d.rot g).step) then d
    else if d.bitAt (Reg.SIG_GRP_STAT_FAULT g) 4 then d.rotStop g
    else
      let d1 := if (d.rot g).step = 1 then d.slotAbort g 4 else d
      let slot := if (d1.rot g).begun then (d1.fld (Reg.SIG_GRP_STAT_SLOT g) + 1) % 5 else 0
      let d2 := d1.setF (Reg.SIG_GRP_STAT_SLOT g) slot
      if slot < 4 then
        let i := 4 * g.val + slot
        let d3 := (((d2.setRot g { d2.rot g with step := 1, begun := true }).sigMode g 2 slot).collect g slot)
        if (d3.inCh i).settling then d3.slotAbort g 1
        else if (d3.chain (5 * g.val + slot)).ovr || (d3.chain (5 * g.val + 4)).ovr then d3.slotAbort g 2
        else d3
      else (d2.setRot g { d2.rot g with step := 6, begun := true }).sigMode g 0 (d2.fld (Reg.SIG_GRP_STAT_J g))) s

/-- The mean of the differences of 64 paired samples. -/
def pairMean (a b : List Word) : Word := fRat (fSumExact a - fSumExact b) a.length (-149)

/-- A float in LSB, to the nearest. -/
def toLsb (w : Word) : Int := roundEven (fAt w (-149)) 126

/-- 64 paired samples are compared (steps 2 and 5). -/
def execHandoverMatch (g : Fin 4) (s : State) : Host.Outcome State Fault Refusal :=
  run (fun d =>
    let r := d.rot g
    let j := d.fld (Reg.SIG_GRP_STAT_J g)
    let home := d.chain (5 * g.val + j)
    let spare := d.chain (5 * g.val + 4)
    if home.ys.length < 64 ∨ spare.ys.length < 64 ∨ (d.inCh (4 * g.val + j)).settling ∨ home.ovr ∨ spare.ovr then d
    else if r.step = 1 then
      let x := pairMean home.ys spare.ys
      if fWithin x (d.atLeast1 Reg.SIG_CAL_LIM_MATCH_MAX) (2 ^ 23) then
        let d1 := (d.setChain (5 * g.val + 4) { spare with h := x }).setRot g
          { r with step := 3, served := some j, spareFail := 0 }
        (((d1.setF (Reg.SIG_GRP_STAT_SERVING g) 1).inc Reg.SIG_CNT_HANDOVERS).sigMode g 4 j).raise 0x307
          [wd g.val, wd (4 * g.val + j), 0, wdi (toLsb x)]
      else
        let d1 := d.slotAbort g 3
        let n := r.spareFail + 1
        let d2 := d1.setRot g { d1.rot g with spareFail := n }
        if 3 ≤ n then (d2.setBitAt (Reg.SIG_GRP_STAT_FAULT g) 4 true).rotStop g else d2
    else if r.step = 5 then
      let x := pairMean spare.ys home.ys
      if fWithin x (d.atLeast1 Reg.SIG_CAL_LIM_MATCH_MAX) (2 ^ 23) then
        let d1 := ((d.setChain (5 * g.val + j) { home with h := x }).setChain (5 * g.val + 4)
          { spare with h := 0 }).setRot g { r with step := 0, served := none, homeFail := 0 }
        (((d1.setF (Reg.SIG_GRP_STAT_SERVING g) 0).inc Reg.SIG_CNT_HANDOVERS).sigMode g 0 j).raise 0x307
          [wd g.val, wd (4 * g.val + j), 1, wdi (toLsb x)]
      else
        let n := r.homeFail + 1
        let d1 := (((d.inc Reg.SIG_CNT_ABORTS).raise 0x308 [wd g.val, wd (4 * g.val + j), 3]).setRot g
          { r with homeFail := n }).collect g j
        if 3 ≤ n then (d1.setBitAt (Reg.SIG_GRP_STAT_FAULT g) j true).rotStop g else d1
    else d) s

/-! ## Commands (R451) -/

def Device.cmdSigClear (d : Device) (arg : Nat) : Device := d.clearCmd portSIG arg (fun d => d.wr Reg.SIG_CNT 0)

def execSigClearCounters (arg : BitVec 24) (s : State) : Host.Outcome State Fault Refusal :=
  run (fun d => d.cmdSigClear arg.toNat) s

end Sys2Proof.Machine
end

