-- ==== Sys2Proof/Machine/Evr.lean ====
section
/-! DEFINITION. The event recorder: the log, freeze, clear, copies and the archive queue (R527–R542). -/

namespace Sys2Proof.Machine

def evMark : Nat := 0x4B524D45

/-- A list of bytes cut or filled with zeros to n bytes. -/
def fitBytes (n : Nat) (l : List Byte) : List Byte := (l ++ List.replicate n 0).take n

/-- The bytes of words, lowest byte first. -/
def wordBytes (ws : List Word) : List Byte := (ws.map (fun w => leBytes 4 w.toNat)).flatten

/-- The native layout of a record (R527). -/
def EvRec.native (r : EvRec) : List Byte :=
  leBytes 4 r.eseq ++ leBytes 8 r.ts ++ leBytes 2 (r.code % 2048 + r.sev % 8 * 2048 + b2n r.restored * 16384)
    ++ leBytes 1 r.snaps.length ++ leBytes 1 r.eng ++ leBytes 1 r.ctx ++ leBytes 1 r.supp ++ leBytes 1 r.lane
    ++ leBytes 1 0 ++ leBytes 4 r.tick ++ leBytes 4 r.pos ++ leBytes 4 evMark ++ fitBytes 32 (wordBytes r.snaps)

/-- The HX-4140 layout of a record (R529). -/
def EvRec.form4140 (r : EvRec) : List Byte :=
  let l := leBytes 2 (r.code % 2048) ++ leBytes 1 r.sev ++ leBytes 1 r.snaps.length ++ leBytes 4 r.eseq
    ++ leBytes 8 (r.ts / 1000) ++ fitBytes 32 (wordBytes r.snaps) ++ List.replicate 12 0
  l ++ leBytes 4 (crc32c l).toNat

/-- The record that 64 bytes in native layout hold. -/
def EvRec.ofNative (l : List Byte) : EvRec :=
  { eseq := numAt l 0 4, ts := numAt l 4 8, code := numAt l 12 2 % 2048, sev := numAt l 12 2 / 2048 % 8,
    restored := (numAt l 12 2).testBit 14, eng := numAt l 15 1, ctx := numAt l 16 1, supp := numAt l 17 1,
    lane := numAt l 18 1 % 4, tick := numAt l 20 4, pos := numAt l 24 4,
    snaps := (List.range (min 8 (numAt l 14 1))).map (fun k => wd (numAt l (32 + 4 * k) 4)) }

/-- The records of the log by slot. -/
def Device.logRecs (d : Device) : List (Nat × EvRec) :=
  d.evr.log.filterMap (fun e => e.2.map (fun r => (e.1, r)))

def noRec (_ : Nat) : Option EvRec := none

/-- Put a record in a slot, and show the number of records. -/
def Device.putSlot (d : Device) (k : Nat) (r : EvRec) : Device :=
  let l := sput noRec d.evr.log k (some r)
  ({ d with evr := { d.evr with log := l } } : Device).setF Reg.EVR_STAT_COUNT l.length

/-- The lowest free slot from k on. -/
def freeSlot (l : SMap (Option EvRec)) (k : Nat) : Nat → Option Nat
  | 0 => none
  | n + 1 => if sget noRec l k = none then some k else freeSlot l (k + 1) n

/-- The slot with the lowest ESEQ. -/
def lowestSlot : List (Nat × EvRec) → Option (Nat × EvRec)
  | [] => none
  | x :: t =>
    match lowestSlot t with
    | none => some x
    | some y => if y.2.eseq < x.2.eseq then some y else some x

/-- The count rises above HIGH (R534): source 0xF0 and cause 6, once. -/
def Device.highMark (d : Device) : Device :=
  if d.fld Reg.EVR_CFG_HIGH < d.fld Reg.EVR_STAT_COUNT ∧ !d.bit Reg.EVR_STAT_ABOVE_HIGH then
    ((d.setF Reg.EVR_STAT_ABOVE_HIGH 1).fire 0xF0).cause 6
  else d

/-- Records of an archive page (R538). -/
def Device.archPer (d : Device) : Nat := 2048 * 2 ^ d.fld Reg.NVM_GEOM_PAGE / 64 - 1

/-- A record that entered the log is queued for the archive, or counts as missed (R538). -/
def Device.archive (d : Device) (r : EvRec) : Device :=
  if !d.bit Reg.EVR_CFG_ARCH_EN || decide (r.sev < d.fld Reg.EVR_CFG_ARCH_SEV) then d
  else if d.evr.archq.length < 2 * d.archPer then { d with evr := { d.evr with archq := d.evr.archq ++ [r] } }
  else
    let d1 := d.inc Reg.EVR_LOSS_ARCH_MISS
    if d1.evr.archWarned then d1
    else
      ({ d1 with evr := { d1.evr with archWarned := true } } : Device).raise 0x3E5
        [0, wd (d1.fld Reg.EVR_LOSS_ARCH_MISS)]

/-- A record goes into a free slot, overwrites a record of a full log, or is dropped (R533). -/
def Device.place (d : Device) (r : EvRec) : Device :=
  let enter := fun (k : Nat) => (d.putSlot k r).highMark.archive r
  match freeSlot d.evr.log 0 4096 with
  | some k => enter k
  | none =>
    match lowestSlot (d.logRecs.filter (fun x => decide (x.2.sev < r.sev))) with
    | some x => enter x.1
    | none =>
      if 6 ≤ r.sev then
        match lowestSlot (d.logRecs.filter (fun x => x.2.sev == r.sev)) with
        | some x => enter x.1
        | none => d.inc Reg.EVR_LOSS_DROPPED
      else d.inc Reg.EVR_LOSS_DROPPED

/-- A record takes the next ESEQ and enters the log, or the spill queue of a frozen log (R527, R533, R535). -/
def Device.enterRec (d : Device) (r0 : EvRec) : Device :=
  let r := { r0 with eseq := (d.rd Reg.EVR_ESEQ).toNat }
  let d1 := d.incMod Reg.EVR_ESEQ_NEXT
  if !d1.bit Reg.EVR_STAT_FROZEN then d1.place r
  else if d1.evr.spill.length < 32 then
    ({ d1 with evr := { d1.evr with spill := d1.evr.spill ++ [r] } } : Device).setF Reg.EVR_STAT_SPILL
      (d1.evr.spill.length + 1)
  else d1.inc Reg.EVR_LOSS_LOST

/-- The oldest record of the input queue leaves it (R532). -/
def Device.recordEnter (d : Device) : Device :=
  match d.evr.inq with
  | [] => d
  | r :: t => ({ d with evr := { d.evr with inq := t } } : Device).enterRec r

def execEventRecordEnter (s : State) : Host.Outcome State Fault Refusal :=
  run (fun d => if d.evrLive then d.recordEnter else d) s

/-- A token comes back to a code's bucket (R531). -/
def execRateTokenAdd (code : BitVec 11) (s : State) : Host.Outcome State Fault Refusal :=
  run (fun d => { d with evr := { d.evr with
    used := sput zeroAt d.evr.used code.toNat (sget zeroAt d.evr.used code.toNat - 1) } }) s

/-! ## Freeze (R535) -/

/-- Place records in order. -/
def Device.placeAll (d : Device) : List EvRec → Device
  | [] => d
  | r :: t => (d.place r).placeAll t

/-- The spill queue enters the log and the log is no longer frozen. -/
def Device.unfreezeLog (d : Device) : Device :=
  if !d.bit Reg.EVR_STAT_FROZEN then d
  else
    let sp := d.evr.spill
    let d1 := ({ d with evr := { d.evr with spill := [] } } : Device).placeAll sp
    let d2 := (d1.setF Reg.EVR_STAT_FROZEN 0).setF Reg.EVR_STAT_SPILL 0
    let lost := d2.fld Reg.EVR_LOSS_LOST
    if d2.evr.lostAt < lost then d2.raise 0x3E2 [wd d2.evr.lostAt, wd lost] else d2

def Device.evrState (d : Device) : Word := d.rd Reg.EVR_STAT

def Device.cmdFreeze (d : Device) (arg : Nat) : Device :=
  d.commandNow portEVR 2 arg d.evrState ⟨arg == 0, true, !d.bit Reg.EVR_STAT_FROZEN⟩ (fun d =>
    ({ d with evr := { d.evr with lostAt := d.fld Reg.EVR_LOSS_LOST } } : Device).setF Reg.EVR_STAT_FROZEN 1)

def Device.cmdUnfreeze (d : Device) (arg : Nat) : Device :=
  d.commandNow portEVR 3 arg d.evrState ⟨arg == 0, true, d.bit Reg.EVR_STAT_FROZEN⟩ (fun d => d.unfreezeLog)

def execFreeze (arg : BitVec 24) (s : State) : Host.Outcome State Fault Refusal :=
  run (fun d => d.cmdFreeze arg.toNat) s
def execUnfreeze (arg : BitVec 24) (s : State) : Host.Outcome State Fault Refusal :=
  run (fun d => d.cmdUnfreeze arg.toNat) s

/-- A freeze has lasted FRZ_MS. -/
def execFreezeTimeout (s : State) : Host.Outcome State Fault Refusal :=
  run (fun d =>
    if d.bit Reg.EVR_STAT_FROZEN then d.unfreezeLog.raise 0x3E3 [wd d.evr.spill.length] else d) s

/-! ## Clear (R536) -/

def lowEseq : List EvRec → Nat
  | [] => 0
  | [r] => r.eseq
  | r :: t => min r.eseq (lowEseq t)

def highEseq : List EvRec → Nat
  | [] => 0
  | r :: t => max r.eseq (highEseq t)

/-- Discard the log: the first record afterwards is event 0x3E0. The lowest and highest ESEQ of an empty log are free. -/
def Device.clearLog (d : Device) (req : Nat) : Device :=
  let recs := d.logRecs.map (fun x => x.2) ++ d.evr.spill
  let (lo, da) := d.free
  let (hi, db) := da.free
  let ws : List Word := if recs.isEmpty then [0, lo, hi, wd req]
    else [wd recs.length, wd (lowEseq recs), wd (highEseq recs), wd req]
  let q := db.evr.inq
  let d1 : Device := { db with evr := { db.evr with log := [], spill := [], inq := [], keyIn := 0 } }
  let d2 := (d1.setF Reg.EVR_STAT_COUNT 0).setF Reg.EVR_STAT_SPILL 0
  let d3 := (d2.setF Reg.EVR_STAT_ABOVE_HIGH 0).raise 0x3E0 ws
  let d4 := d3.recordEnter
  { d4 with evr := { d4.evr with inq := d4.evr.inq ++ q } }

/-- CLEAR by a requester (R510): a key that does not match ends it with code 2 and event 0x3E6. -/
def Device.cmdClear (d : Device) (arg req : Nat) : Device :=
  let keyOk := d.evr.key != 0 && d.evr.keyIn == d.evr.key
  let d0 := if d.bit portEVR.busy || keyOk then d else d.raise 0x3E6 [wd req]
  d0.commandNow portEVR 5 arg d.evrState ⟨arg == 0 && keyOk, d.perm permClear, !d.bit Reg.EVR_STAT_FROZEN⟩
    (fun d => d.clearLog req)

def execClear (arg : BitVec 24) (byDbg : Bool) (s : State) : Host.Outcome State Fault Refusal :=
  run (fun d => d.cmdClear arg.toNat (busIndex byDbg)) s

/-- CLEAR_COUNTERS: a freeze compares LOST with the cleared count from then on. -/
def Device.cmdEvrClear (d : Device) (arg : Nat) : Device :=
  d.clearCmd portEVR arg (fun d =>
    ({ d with evr := { d.evr with lostAt := 0 } } : Device).wr Reg.EVR_LOSS 0)

def execEvrClearCounters (arg : BitVec 24) (s : State) : Host.Outcome State Fault Refusal :=
  run (fun d => d.cmdEvrClear arg.toNat) s

/-! ## Copies (R539, R540) -/

/-- Insert a record by its distance ahead of a start. -/
def insertBy (start : Nat) (r : EvRec) : List EvRec → List EvRec
  | [] => [r]
  | x :: t =>
    if (r.eseq + 2 ^ 32 - start) % 2 ^ 32 ≤ (x.eseq + 2 ^ 32 - start) % 2 ^ 32 then r :: x :: t
    else x :: insertBy start r t

/-- Records in ascending order from a start. -/
def sortFrom (start : Nat) : List EvRec → List EvRec
  | [] => []
  | r :: t => insertBy start r (sortFrom start t)

/-- The records that a copy takes. -/
def Device.copySet (d : Device) (j : CopyJob) : List EvRec :=
  (sortFrom j.start ((d.logRecs.map (fun x => x.2)).filter
    (fun r => decide ((r.eseq + 2 ^ 32 - j.start) % 2 ^ 32 ≤ 2 ^ 31 - 1)))).take j.max

/-- The arguments of a copy are legal. -/
def copyArgs (dst mx : Nat) : Bool :=
  dst % 64 == 0 && decide (1 ≤ mx) && decide (dst + 64 * mx ≤ 0x800000)

/-- The number of records that a copy of this job writes, the ESEQ that follows, and the device with them in SDM. -/
def Device.copyOut (d : Device) (j : CopyJob) : Nat × Nat × Device :=
  let rs := d.copySet j
  let data := (rs.map (fun r => if j.form = 0 then r.native else r.form4140)).flatten
  (rs.length, match rs.getLast? with
    | some r => (r.eseq + 1) % 2 ^ 32
    | none => j.start, (d.busWrite 7 j.dst data).2)

/-- The address of a slot of the program read ring. -/
def Device.evrSlot (d : Device) (k : Nat) : Nat := d.fld Reg.EVR_RING_BASE + 16 * k

/-- The results of a ring request, then STATE 3. -/
def Device.slotDone (d : Device) (k code copied next : Nat) : Device :=
  let a := d.evrSlot k
  let d1 := (d.busWrite 7 (a + 2) (leBytes 1 code)).2
  let d2 := (d1.busWrite 7 (a + 4) (leBytes 4 next)).2
  let d3 := (d2.busWrite 7 (a + 14) (leBytes 2 copied)).2
  (d3.busWrite 7 a [3]).2

/-- The EVR takes the lowest slot in STATE 1 among slots k, k + 1, …: a request with illegal arguments ends at once. -/
def Device.evrTake (d : Device) (k : Nat) : Nat → Device
  | 0 => d
  | n + 1 =>
    if !d.bit Reg.EVR_RING_EN || d.evr.copy.isSome then d
    else
      let l := d.bytes (d.evrSlot k) 16
      if numAt l 0 1 = 1 then
        let d1 := (d.busWrite 7 (d.evrSlot k) [2]).2
        if copyArgs (numAt l 8 4) (numAt l 12 2) && decide (numAt l 1 1 < 2) then
          { d1 with evr := { d1.evr with copy := some ⟨numAt l 8 4, numAt l 4 4, numAt l 12 2, numAt l 1 1, some k⟩ } }
        else (d1.slotDone k 2 0 (numAt l 4 4)).evrTake (k + 1) n
      else d.evrTake (k + 1) n

/-- The ring at t_HOP and at the end of a request. -/
def Device.evrRing (d : Device) : Device := if d.evrLive then d.evrTake 0 4 else d

def Device.cmdCopy (d : Device) (arg : Nat) : Device :=
  let dst := d.fld Reg.EVR_COPY_DST_DST
  let mx := d.fld Reg.EVR_COPY_RES_MAX
  d.command portEVR 4 arg d.evrState ⟨arg == 0 && copyArgs dst mx, true, true⟩ (fun d =>
    let j : CopyJob := ⟨dst, (d.rd Reg.EVR_COPY_FROM).toNat, mx, d.fld Reg.EVR_COPY_DST_FORM, none⟩
    ((if d.evr.copy.isSome then { d with evr := { d.evr with copyWait := some j } }
      else { d with evr := { d.evr with copy := some j } }) : Device).beginCmd portEVR)

def execCopy (arg : BitVec 24) (s : State) : Host.Outcome State Fault Refusal :=
  run (fun d => d.cmdCopy arg.toNat) s

/-- The copy that runs ends; a waiting COPY is next, else a ring slot. -/
def execEvrCopyDone (s : State) : Host.Outcome State Fault Refusal :=
  run (fun d =>
    match d.evr.copy with
    | none => d
    | some j =>
      let (n, next, d1) := d.copyOut j
      let d2 : Device := { d1 with evr := { d1.evr with copy := d1.evr.copyWait, copyWait := none } }
      let d3 := match j.slot with
        | some k => d2.slotDone k 0 n next
        | none =>
          ((d2.setF Reg.EVR_COPY_RES_COPIED n).wr Reg.EVR_COPY_NEXT (wd next)).finishCmd portEVR 0
      d3.evrRing) s

/-! ## Restored records (R537) -/

/-- Restore records in ESEQ order; the next ESEQ follows the highest. Event 0x3E4 gives count, range and RSEQ. -/
def Device.restoreLog (d : Device) (rs : List EvRec) (rseq : Nat) : Device :=
  let (lo, da) := d.free
  let (hi, db) := da.free
  let put := rs.foldl (fun (dk : Device × Nat) r =>
    (dk.1.putSlot ((freeSlot dk.1.evr.log 0 4096).getD 0) { r with restored := true }, dk.2 + 1))
  let d1 := (put ((if rs.isEmpty then db else d), 0)).1.highMark
  let d2 := d1.wr Reg.EVR_ESEQ (if rs.isEmpty then 0 else wd (highEseq rs + 1))
  d2.raise 0x3E4 (if rs.isEmpty then [0, lo, hi, wd rseq]
    else [wd rs.length, wd (lowEseq rs), wd (highEseq rs), wd rseq])

end Sys2Proof.Machine
end

