-- ==== Sys2Proof/Machine/Nvm.lean ====
section
/-! DEFINITION. The NVM manager: the store device and its codewords (R452–R456), boot descriptor (R457–R459), block table
(R460–R462), wear levelling (R463), scrubbing (R464), precedence (R465), power-fail save (R466, R467), the request ring
(R469), the archive pages (R538) and the commands of NVM (R471). Command bits of ONFI, SFDP and of the BCH code are below
this model: an operation ends with a status and with the bit errors that the decoder finds. -/

namespace Sys2Proof.Machine

/-! ## The device: pages, codewords, blocks -/

def noPage (_ : Nat) : List Byte := []
def noBlocks (_ : Nat) : List Nat := []
def goodAt (_ : Nat) : Nat := 3
def noPos (_ : Nat) : Option Nat := none

/-- The store in use. -/
def Device.store (d : Device) : Option Store :=
  if d.nvm.sel = 1 then d.nvm.nand else if d.nvm.sel = 2 then d.nvm.nor else none

def Device.setStore (d : Device) (x : Store) : Device :=
  if d.nvm.sel = 1 then { d with nvm := { d.nvm with nand := some x } }
  else if d.nvm.sel = 2 then { d with nvm := { d.nvm with nor := some x } }
  else d

def storeBlocks (x : Store) : Nat := x.bpt * x.targets
def pageKey (b p : Nat) : Nat := 256 * b + p

/-- The data bytes of a page; an erased page reads as 0xFF. -/
def pageBytes (x : Store) (k : Nat) : List Byte :=
  (sget noPage x.pages k ++ List.replicate x.page 0xFF).take x.page

/-- The bit errors of the codewords of a page; NOR has no codewords (R453). -/
def pageErrs (x : Store) (k : Nat) : List Nat :=
  if x.nor then [] else (List.range (x.page / 1024)).map (fun i => sget zeroAt x.errs (8 * k + i))

/-- More corrections than the code has (R455, R456); an erased codeword takes up to 8 bits at 0. -/
def badWord (x : Store) (k e : Nat) : Bool :=
  if (sget noPage x.pages k).isEmpty then decide (8 < e) && decide (40 < e) else decide (40 < e)

/-- Pages b of a block that are programmed, in ascending order. -/
def progPages (x : Store) (b : Nat) : List Nat :=
  x.pages.filterMap (fun e => if e.1 / 256 = b then some (e.1 % 256) else none)

def blockErased (x : Store) (b : Nat) : Bool := (progPages x b).isEmpty

/-- Program a page: its codewords are rewritten. -/
def storeProg (x : Store) (b p : Nat) (data : List Byte) : Store :=
  { x with
    pages := sput noPage x.pages (pageKey b p) ((data ++ List.replicate x.page 0xFF).take x.page)
    errs := skeep (fun i => i / 8 != pageKey b p) x.errs }

/-- Erase a block. -/
def storeErase (x : Store) (b : Nat) : Store :=
  { x with
    pages := skeep (fun k => k / 256 != b) x.pages
    errs := skeep (fun i => i / 2048 != b) x.errs
    erases := sput zeroAt x.erases b (sget zeroAt x.erases b + 1) }

/-- Change the store in use. -/
def Device.onStore (d : Device) (f : Store → Store) : Device :=
  match d.store with
  | some x => d.setStore (f x)
  | none => d

/-- Count the codewords of a page that was read: NVM_ECC_MAX, and event 0x346 for each uncorrectable one (R456). -/
def Device.eccPage (d : Device) (x : Store) (b p : Nat) (i : Nat) : List Nat → Device
  | [] => d
  | e :: t =>
    let d1 :=
      if badWord x (pageKey b p) e then (d.inc Reg.NVM_CNT_UNCORR).raise 0x346 [wd b, wd p, wd i]
      else if (sget noPage x.pages (pageKey b p)).isEmpty then d
      else d.setF Reg.NVM_ECC_MAX_MAX (max (d.fld Reg.NVM_ECC_MAX_MAX) e)
    d1.eccPage x b p (i + 1) t

/-- Read a page of a physical block: none if a codeword is uncorrectable. -/
def Device.readPage (d : Device) (b p : Nat) : Option (List Byte) × Device :=
  match d.store with
  | none => (none, d)
  | some x =>
    let k := pageKey b p
    let es := pageErrs x k
    let d1 := (({ d with nvm := { d.nvm with
      reads := sput zeroAt d.nvm.reads b (sget zeroAt d.nvm.reads b + 1) } } : Device)).eccPage x b p 0 es
    (if es.any (fun e => badWord x k e) then none else some (pageBytes x k), d1)

/-- Read consecutive pages of one block. -/
def Device.readPages (d : Device) (b p : Nat) : Nat → Option (List Byte) × Device
  | 0 => (some [], d)
  | n + 1 =>
    match d.readPage b p with
    | (none, d1) => (none, d1)
    | (some l, d1) =>
      match d1.readPages b (p + 1) n with
      | (none, d2) => (none, d2)
      | (some m, d2) => (some (l ++ m), d2)

/-! ## Descriptor (R457, R458) -/

def descFirst (l : List Byte) (r : Nat) : Nat := numAt l (32 + 16 * r) 4
def descUse (l : List Byte) (r : Nat) : Nat := numAt l (36 + 16 * r) 4
def descSpare (l : List Byte) (r : Nat) : Nat := numAt l (40 + 16 * r) 2
def descFlags (l : List Byte) (r : Nat) : Nat := numAt l (42 + 16 * r) 2

/-- Two ranges (first, length) share a block. -/
def rangesMeet (a b : Nat × Nat) : Bool :=
  decide (0 < a.2) && decide (0 < b.2) && decide (a.1 < b.1 + b.2) && decide (b.1 < a.1 + a.2)

/-- Some two of a list of ranges share a block. -/
def anyMeet : List (Nat × Nat) → Bool
  | [] => false
  | a :: t => t.any (fun b => rangesMeet a b) || anyMeet t

/-- Pages that a retention record with e events takes beside its commit page (R466, R468). -/
def recordPages (page e : Nat) : Nat := (65600 + 64 * e + page - 1) / max 1 page

/-- What R458 asks of a descriptor beside MAGIC, VERSION and CRC. -/
def descFits (x : Store) (l : List Byte) : Bool :=
  let regions := (List.range 6).map (fun r => (descFirst l r, descUse l r + descSpare l r))
  let all := regions ++ [(numAt l 24 2, 1), (numAt l 26 2, 1)]
  numAt l 12 2 == x.page && numAt l 14 2 == x.ppb && numAt l 16 4 == x.bpt && numAt l 20 1 == x.targets
    && numAt l 21 1 == b2n x.nor && all.all (fun a => a.2 == 0 || decide (4 ≤ a.1)) && !anyMeet all
    && (descFlags l 3).testBit 0 && (descFlags l 4).testBit 0 && decide (4 ≤ descUse l 3) && decide (1 ≤ descSpare l 3)
    && decide (recordPages x.page 512 + 1 ≤ x.ppb)

/-- A descriptor copy is valid. -/
def descValid (x : Store) (l : List Byte) : Bool :=
  numAt l 0 4 == 0x31435344 && numAt l 4 2 == 1 && numAt l 128 4 == (crc32c (l.take 128)).toNat && descFits x l

/-- The descriptor copies of a store, read without counting. -/
def descCopy (x : Store) (c : Nat) : List Byte :=
  if (pageErrs x (pageKey c 0)).any (fun e => badWord x (pageKey c 0) e) then []
  else (pageBytes x (pageKey c 0)).take 132

/-- The valid copy with the highest DSEQ. -/
def bestDesc (x : Store) : List Nat → Option (List Byte)
  | [] => none
  | c :: t =>
    let rest := bestDesc x t
    let l := descCopy x c
    if descValid x l then
      match rest with
      | some m => if numAt l 8 4 < numAt m 8 4 then some m else some l
      | none => some l
    else rest

/-- The descriptor in use. -/
def Device.descNow (d : Device) : Option (List Byte) :=
  match d.store with
  | some x => bestDesc x [0, 1, 2, 3]
  | none => none

/-! ## Block table (R460, R461) -/

def Device.blockState (d : Device) (b : Nat) : Nat := sget goodAt d.nvm.bstate b

/-- The byte of the state map that holds blocks 4j to 4j + 3. -/
def Device.stateByte (d : Device) (j : Nat) : Byte :=
  BitVec.ofNat 8 (((List.range 4).map (fun i => d.blockState (4 * j + i) * 4 ^ i)).sum)

/-- The block-table record that the manager would write next. -/
def Device.tableRecord (d : Device) (n : Nat) : List Byte :=
  let body := leBytes 4 0x31544242 ++ leBytes 4 (d.nvm.bseq + 1) ++ leBytes 2 n ++ leBytes 2 0
    ++ (List.range ((n + 3) / 4)).map (fun j => d.stateByte j)
    ++ ((List.range 6).map (fun r =>
        let m := sget noBlocks d.nvm.map r
        leBytes 2 m.length ++ (m.map (fun b => leBytes 2 b)).flatten)).flatten
  body ++ leBytes 4 (crc32c body).toNat

/-- The lists of regions that stand at an offset of a record, and the offset after them. -/
def tableLists (l : List Byte) (off : Nat) : Nat → List (List Nat) × Nat
  | 0 => ([], off)
  | r + 1 =>
    let c := numAt l off 2
    let (t, e) := tableLists l (off + 2 + 2 * c) r
    ((List.range c).map (fun i => numAt l (off + 2 + 2 * i) 2) :: t, e)

/-- A complete record at the start of some bytes: BSEQ, block states, region lists, length in bytes. -/
def tableParse (n : Nat) (l : List Byte) : Option (Nat × List Nat × List (List Nat) × Nat) :=
  if numAt l 0 4 ≠ 0x31544242 ∨ numAt l 8 2 ≠ n then none
  else
    let (lists, e) := tableLists l (12 + (n + 3) / 4) 6
    if e + 4 ≤ l.length ∧ numAt l e 4 = (crc32c (l.take e)).toNat then
      some (numAt l 4 4, (List.range n).map (fun b => numAt l (12 + b / 4) 1 / 4 ^ (b % 4) % 4), lists, e + 4)
    else none

/-- The readable bytes of a block from a page on, up to the first unreadable page. -/
def blockBytes (x : Store) (b p : Nat) : Nat → List Byte
  | 0 => []
  | n + 1 =>
    if (pageErrs x (pageKey b p)).any (fun e => badWord x (pageKey b p) e) then []
    else pageBytes x (pageKey b p) ++ blockBytes x b (p + 1) n

/-- The best complete record of a table block from page p on, with the page after it. -/
def tableBest (x : Store) (b p : Nat) : Nat → Option (Nat × List Nat × List (List Nat) × Nat)
  | 0 => none
  | n + 1 =>
    let rest := tableBest x b (p + 1) n
    match tableParse (storeBlocks x) (blockBytes x b p (n + 1)) with
    | none => rest
    | some (q, st, ls, len) =>
      let me := (q, st, ls, p + (len + x.page - 1) / max 1 x.page)
      match rest with
      | some m => if q < m.1 then some m else some me
      | none => some me

/-- The physical block of a logical block of a region; region 6 names physical blocks. -/
def Device.phys (d : Device) (r lb : Nat) : Option Nat :=
  if r = 6 then some lb else (sget noBlocks d.nvm.map r)[lb]?

/-- The good blocks of a range. -/
def Device.goodRange (d : Device) (total first len : Nat) : List Nat :=
  ((List.range len).map (fun i => first + i)).filter (fun b => decide (b < total) && d.blockState b == 3)

/-- Set the map and the spares of a region. -/
def Device.setMap (d : Device) (r : Nat) (m sp : List Nat) : Device :=
  { d with nvm := { d.nvm with map := sput noBlocks d.nvm.map r m, spares := sput noBlocks d.nvm.spares r sp } }

/-- Build a region's map afresh from the good blocks of its range (R461). -/
def Device.buildRegion (d : Device) (total : Nat) (l : List Byte) (r : Nat) : Device :=
  let good := d.goodRange total (descFirst l r) (descUse l r + descSpare l r)
  let d1 := d.setMap r (good.take (descUse l r)) (good.drop (descUse l r))
  if good.length < descUse l r then d1.setF (Reg.NVM_REGB_EXHAUSTED r) 1 else d1

/-- Take a region's map from a record; a region whose range has changed is built afresh (R459). -/
def Device.takeRegion (d : Device) (total : Nat) (l : List Byte) (lists : List (List Nat)) (r : Nat) : Device :=
  let m := (lists[r]?).getD []
  let first := descFirst l r
  let len := descUse l r + descSpare l r
  if m.length ≤ descUse l r ∧ m.all (fun b => decide (first ≤ b) && decide (b < first + len)) ∧ (m ≠ [] ∨ descUse l r = 0) then
    d.setMap r m ((d.goodRange total first len).filter (fun b => !m.contains b))
  else d.buildRegion total l r

/-- Show the good spare blocks of each region, and the erase counts of regions 3 and 4. -/
def Device.showNvm (d : Device) : Device :=
  let d1 := forN 6 (fun r d => d.setF (Reg.NVM_REGB_SPARES r) (sget noBlocks d.nvm.spares r).length) d
  match d1.store with
  | none => d1
  | some x =>
    let counts := fun r => ((sget noBlocks d1.nvm.map r).filter (fun b => d1.blockState b == 3)).map
      (fun b => sget zeroAt x.erases b)
    let hi := fun r => (counts r).foldl max 0
    let lo := fun r => match counts r with
      | [] => 0
      | c :: t => t.foldl min c
    (((d1.setF Reg.NVM_WEAR_3_MAX_8 (hi 3 / 8)).setF Reg.NVM_WEAR_3_MIN_8 (lo 3 / 8)).setF Reg.NVM_WEAR_4_MAX_8
      (hi 4 / 8)).setF Reg.NVM_WEAR_4_MIN_8 (lo 4 / 8)

/-- Write a block-table record into the copy that was not written last (R460); a program or erase failure leaves it
incomplete. -/
def Device.writeTable (d : Device) (fail : Bool) : Device :=
  match d.store, d.descNow with
  | some x, some l =>
    if fail then d.setF Reg.NVM_STAT_BT_OK 0
    else
      let c := 1 - d.nvm.btLast
      let b := numAt l (24 + 2 * c) 2
      let data := d.tableRecord (storeBlocks x)
      let need := (data.length + x.page - 1) / max 1 x.page
      let full := decide (x.ppb < sget zeroAt d.nvm.btPos c + need)
      let x1 := if full then storeErase x b else x
      let p := if full then 0 else sget zeroAt d.nvm.btPos c
      let x2 := (List.range need).foldl (fun y i => storeProg y b (p + i) ((data.drop (i * x.page)).take x.page)) x1
      let d1 := d.setStore x2
      { d1 with nvm := { d1.nvm with
        bseq := d1.nvm.bseq + 1
        btLast := c
        btPos := sput zeroAt d1.nvm.btPos c (p + need) } }
  | _, _ => d

/-! ## Rotation of regions 3 and 4 (R463) -/

/-- The next good logical block of the rotation after the one written last. -/
def Device.nextBlock (d : Device) (r : Nat) : Option Nat :=
  let m := sget noBlocks d.nvm.map r
  let start := match sget noPos d.nvm.pos r with
    | some i => i + 1
    | none => 0
  ((List.range m.length).map (fun i => (start + i) % max 1 m.length)).find? (fun lb =>
    (match m[lb]? with
      | some b => d.blockState b == 3
      | none => false) && (r != 3 || d.nvm.kept != some lb))

def Device.setPos (d : Device) (r : Nat) (p : Option Nat) : Device :=
  { d with nvm := { d.nvm with pos := sput noPos d.nvm.pos r p } }

/-- The block that the next write of a rotation takes, if it is erased. -/
def Device.erasedNext (d : Device) (r : Nat) : Option Nat :=
  match d.store, d.nextBlock r with
  | some x, some lb =>
    match d.phys r lb with
    | some b => if blockErased x b then some lb else none
    | none => none
  | _, _ => none

def Device.pushJob (d : Device) (j : NvmJob) : Device :=
  { d with nvm := { d.nvm with jobs := d.nvm.jobs ++ [j] } }

/-- Keep the next block erased in advance. -/
def Device.preErase (d : Device) (r : Nat) : Device :=
  match d.nextBlock r with
  | some lb => if d.erasedNext r = some lb then d else d.pushJob ⟨.tidy, [.erase r lb]⟩
  | none => d

/-! ## Retention records (R466) -/

/-- The bytes that a block holds when read by the manager: none where a page is unreadable. -/
def recordBytes (x : Store) (b : Nat) : List Byte := blockBytes x b 0 x.ppb

/-- The valid retention record of a block: its RSEQ. -/
def recordValid (x : Store) (b : Nat) : Option Nat :=
  let l := recordBytes x b
  let e := numAt l 36 2
  let c := l.drop (recordPages x.page e * x.page)
  if numAt l 0 4 = 0x31544552 ∧ numAt c 0 4 = 0x31544D43 ∧ numAt c 4 4 = numAt l 4 4
      ∧ numAt c 8 4 = (crc32c (l.take 64)).toNat ∧ numAt c 12 4 = (crc32c (c.take 12)).toNat
      ∧ numAt l 40 4 = (crc32c ((l.drop 64).take 65536)).toNat
      ∧ numAt l 44 4 = (crc32c ((l.drop 65600).take (64 * e))).toNat then
    some (numAt l 4 4)
  else none

/-- The newest valid record: its RSEQ, logical block and bytes. -/
def Device.newestRecord (d : Device) : Option (Nat × Nat × List Byte) :=
  match d.store with
  | none => none
  | some x =>
    let m := sget noBlocks d.nvm.map 3
    (List.range m.length).foldl (fun best lb =>
      match m[lb]? with
      | none => best
      | some b =>
        match recordValid x b with
        | none => best
        | some q =>
          match best with
          | some (q0, _, _) => if q0 < q then some (q, lb, recordBytes x b) else best
          | none => some (q, lb, recordBytes x b)) none

/-- Cut bytes into pages. -/
def cutPages (page : Nat) (l : List Byte) : Nat → List (List Byte)
  | 0 => []
  | n + 1 => l.take page :: cutPages page (l.drop page) n

/-- The pages of a retention record of the retained area and events given, its commit page last. -/
def Device.recordOf (d : Device) (page : Nat) (area : List Byte) (ver : Nat) (evs : List EvRec) : List (List Byte) :=
  let rseq := (d.rd Reg.NVM_RSEQ).toNat + 1
  let log := (evs.map (fun r => r.native)).flatten
  let head := leBytes 4 0x31544552 ++ leBytes 4 rseq ++ leBytes 8 d.tickCount ++ leBytes 8 d.tick.boundaryTs
    ++ leBytes 4 (d.rd Reg.LDR_BUNDLE_ID).toNat ++ leBytes 2 ver ++ leBytes 2 0
    ++ leBytes 4 (d.rd Reg.IMG_P_SEQ).toNat ++ leBytes 2 evs.length ++ leBytes 2 0
    ++ leBytes 4 (crc32c area).toNat ++ leBytes 4 (crc32c log).toNat ++ List.replicate 16 0
  let com := leBytes 4 0x31544D43 ++ leBytes 4 rseq ++ leBytes 4 (crc32c head).toNat
  cutPages page (head ++ area ++ log) (recordPages page evs.length) ++ [com ++ leBytes 4 (crc32c com).toNat]

/-- The E most recent records of the log, oldest first. -/
def Device.recentEvents (d : Device) : List EvRec :=
  let all := sortFrom (((d.rd Reg.EVR_ESEQ).toNat + 2 ^ 31) % 2 ^ 32) (d.logRecs.map (fun x => x.2))
  all.drop (all.length - 512)

/-- Write a record into a block of region 3. -/
def Device.putRecord (d : Device) (lb : Nat) (pages : List (List Byte)) : Device :=
  match d.phys 3 lb with
  | none => d
  | some b =>
    let d1 := d.onStore (fun x =>
      (pages.foldl (fun (a : Store × Nat) p => (storeProg a.1 b a.2 p, a.2 + 1))
        ((if blockErased x b then x else storeErase x b), 0)).1)
    (d1.setPos 3 (some lb)).incMod Reg.NVM_RSEQ_RSEQ

/-! ## Retiring blocks (R462) -/

/-- A block retires: event 0x344 with its region and 0 for a program, 1 for an erase. -/
def Device.retire2 (d : Device) (b r why : Nat) : Device :=
  let d1 : Device := { d with nvm := { d.nvm with bstate := sput goodAt d.nvm.bstate b 2 } }
  let d2 := d1.onStore (fun x => { x with marks := if x.marks.contains b then x.marks else b :: x.marks })
  (d2.inc Reg.NVM_CNT_RETIRED).raise 0x344 [wd b, wd r, wd why]

/-- A region has no spare left (R462). -/
def Device.exhausted (d : Device) (r : Nat) : Device :=
  (d.setF (Reg.NVM_REGB_EXHAUSTED r) 1).raise 0x34C [wd r]

def Device.dropSpare (d : Device) (r b : Nat) : Device :=
  { d with nvm := { d.nvm with
    spares := sput noBlocks d.nvm.spares r ((sget noBlocks d.nvm.spares r).filter (fun k => decide (k ≠ b))) } }

/-- The region and logical block of a physical block in use. -/
def Device.ownerOf (d : Device) (b : Nat) : Option (Nat × Nat) :=
  (List.range 6).findSome? (fun r =>
    let m := sget noBlocks d.nvm.map r
    ((List.range m.length).find? (fun i => m[i]? == some b)).map (fun i => (r, i)))

/-- The pages of a copied block: uncorrectable codewords as they were read (free), the others corrected (R464). -/
def Device.copyPages (d : Device) (x : Store) (old new : Nat) : List Nat → Store × Device
  | [] => (x, d)
  | p :: t =>
    let k := pageKey old p
    let es := pageErrs x k
    let data := pageBytes x k
    let (l, d1) :=
      if es.any (fun e => badWord x k e) then
        (((List.range es.length).map (fun i =>
          if badWord x k ((es[i]?).getD 0) then ({ d with freeCtr := d.freeCtr + 1024 * i } : Device).freeBytes 1024
          else (data.drop (1024 * i)).take 1024)).flatten, ({ d with freeCtr := d.freeCtr + x.page } : Device))
      else (data, d)
    d1.copyPages (storeProg x new p l) old new t

/-- A relocation ends well: the new block is mapped in; the old one retires, or returns to the spares and is erased. -/
def Device.relocated (d : Device) (r lb new : Nat) (failed : Option (Nat × List Byte)) (why : Option Nat) (corr : Nat) :
    Device :=
  match d.store, d.phys r lb with
  | some x, some old =>
    let x0 := if blockErased x new then x else storeErase x new
    let (x1, d1) := if why = some 1 then (x0, d) else d.copyPages x0 old new (progPages x0 old)
    let x2 := match failed with
      | some (p, data) => storeProg x1 new p data
      | none => x1
    let d2 := d1.setStore x2
    let m := (sget noBlocks d2.nvm.map r).set lb new
    let d3 := (d2.setMap r m (sget noBlocks d2.nvm.spares r)).dropSpare r new
    let d4 := d3.pushJob ⟨.table, [.table]⟩
    match why with
    | some w => (d4.retire2 old r w).showNvm
    | none =>
      let d5 : Device := { d4 with nvm := { d4.nvm with
        spares := sput noBlocks d4.nvm.spares r (sget noBlocks d4.nvm.spares r ++ [old]) } }
      (((d5.pushJob ⟨.tidy, [.erase 6 old]⟩).inc Reg.NVM_CNT_REFRESHED).raise 0x347 [wd old, wd new, wd corr]).showNvm
  | _, _ => d

/-! ## Jobs (R465) -/

/-- Precedence, 1 first. An archive page counts as a host command (R538). -/
def precOf : NvmWork → Nat
  | .save => 1
  | .regionErase _ => 2
  | .regionWrite _ _ => 2
  | .arm _ _ _ => 2
  | .disarm _ => 2
  | .commitCfg _ => 2
  | .activate _ => 2
  | .table => 3
  | .refresh => 3
  | .tidy => 3
  | .read _ => 4
  | .program => 4
  | .erase => 4
  | .desc => 4
  | .archive _ => 4
  | .ring _ _ _ => 5
  | .scrub => 6

/-- A host command, or a ring request. -/
def isHostWork (w : NvmWork) : Bool :=
  match w with
  | .read _ => true
  | .program => true
  | .erase => true
  | .desc => true
  | _ => false

def isLoaderWork (w : NvmWork) : Bool := precOf w == 2

/-- The job of highest precedence, the oldest first, and the others. -/
def pickJob : List NvmJob → Option (NvmJob × List NvmJob)
  | [] => none
  | j :: t =>
    match pickJob t with
    | none => some (j, t)
    | some (k, rest) => if precOf k.work < precOf j.work then some (k, j :: rest) else some (j, t)

def Device.nvmSlot (d : Device) (k : Nat) : Nat := d.fld Reg.NVM_QUEUE_BASE + 16 * k

/-- A job ends with a code of R28. -/
def Device.jobEnd (d : Device) (w : NvmWork) (code : Nat) : Device :=
  match w with
  | .ring k _ _ =>
    let d1 := (d.busWrite 7 (d.nvmSlot k + 2) (leBytes 1 code)).2
    (d1.busWrite 7 (d1.nvmSlot k) [3]).2.setF Reg.NVM_STAT_Q_BUSY 0
  | .scrub => d.setF Reg.NVM_STAT_SCRUB_BUSY 0
  | .archive recs =>
    let d1 := d.setF Reg.EVR_STAT_ARCH_BUSY 0
    if code = 0 then
      let d2 := d1.wr Reg.EVR_ARCH (wd ((recs.getLast?.map (fun r => r.eseq)).getD 0))
      let d3 : Device := { d2 with
        evr := { d2.evr with archWarned := d2.evr.archWarned && !d2.evr.archq.isEmpty }
        nvm := { d2.nvm with archPage := d2.nvm.archPage + 1 } }
      d3.preErase 4
    else { d1 with evr := { d1.evr with archq := recs ++ d1.evr.archq } }
  | .save => { d with nvm := { d.nvm with saved := some (if code = 0 then 1 else 4) } }
  | .table => d.setF Reg.NVM_STAT_BT_OK (b2n (d.fld Reg.NVM_STAT_BT_OK = 1 || code = 0))
  | .refresh => d
  | .tidy => d
  | _ => if isHostWork w then d.finishCmd portNVM code
    else { d with nvm := { d.nvm with ended := d.nvm.ended ++ [(w, code)] } }

/-- VIO33 reads below WARN (R572). -/
def Device.vio33Low (d : Device) : Bool := sget zeroAt d.pwr.rail 3 == 1 || sget zeroAt d.pwr.rail 3 == 2

/-- Weir withholds an operation: once per episode a count and event 0x3F8 (R572). -/
def Device.nandHold (d : Device) : Device :=
  if d.pwr.nandHeld then d
  else
    (({ d with pwr := { d.pwr with nandHeld := true } } : Device).inc Reg.PWR_WEIR_CNT_NAND_HELD).raise 0x3F8
      [wd (d.fld (Reg.PWR_VMON_MV 3))]

/-- Start the next operation by precedence, at most n jobs with nothing left ending first. -/
def Device.nvmRun (d : Device) : Nat → Device
  | 0 => d
  | n + 1 =>
    if d.nvm.cur.isSome then d
    else
      match pickJob d.nvm.jobs with
      | none => d
      | some (j, rest) =>
        if j.ops.isEmpty then
          (({ d with nvm := { d.nvm with jobs := rest } } : Device).jobEnd j.work 0).nvmRun n
        else if 3 ≤ precOf j.work ∧ d.vio33Low then d.nandHold
        else { d with nvm := { d.nvm with jobs := rest, cur := some j } }

/-- Start what can start. -/
def Device.nvmKick (d : Device) : Device := d.nvmRun (d.nvm.jobs.length + 4)

/-! ## Ends of operations -/

/-- A read found a codeword that needs REFRESH_BITS or more corrections: its block is refreshed if a spare is left
(R464). -/
def Device.refreshIf (d : Device) (b corr : Nat) : Device :=
  if corr < min 40 (d.atLeast1 Reg.NVM_SCRUB_REFRESH_BITS) then d
  else
    match d.ownerOf b with
    | none => d
    | some (r, lb) =>
      let queued := d.nvm.jobs.any (fun j => j.work == .refresh && j.ops.any (fun o => match o with
        | .relocate r2 lb2 _ _ _ _ => r2 == r && lb2 == lb
        | _ => false))
      match sget noBlocks d.nvm.spares r with
      | [] => d
      | sp :: _ =>
        if queued || d.bit Reg.NVM_STAT_FROZEN then d
        else (d.dropSpare r sp).pushJob ⟨.refresh, [.relocate r lb sp none none corr]⟩

/-- The device goes on with a job. -/
def Device.goOn (d : Device) (w : NvmWork) (t : List NvmOp) : Device :=
  if (isHostWork w || (match w with
      | .ring _ _ _ => true
      | .archive _ => true
      | _ => false)) && d.bit Reg.NVM_STAT_FROZEN then d.jobEnd w 5
  else if t.isEmpty then d.jobEnd w 0
  else { d with nvm := { d.nvm with jobs := ⟨w, t⟩ :: d.nvm.jobs } }

/-- The failed page, or the erased block, of a region moves to a spare (R462); without a spare the job ends with
code 7. -/
def Device.moveOut (d : Device) (w : NvmWork) (r lb b why : Nat) (failed : Option (Nat × List Byte)) (t : List NvmOp) :
    Device :=
  if r = 6 then (if (d.ownerOf b).isNone && w != .desc then d.retire2 b 6 why else d).jobEnd w 7
  else if r = 4 ∨ (r = 3 ∧ w = .tidy) then
    let d1 := d.retire2 b r why
    let d2 := d1.pushJob ⟨.table, [.table]⟩
    match w with
    | .archive recs =>
      let d3 := d2.raise 0x3E5 [1, wd (d2.fld Reg.EVR_LOSS_ARCH_MISS)]
      match d3.nextBlock 4, failed with
      | some n, some (_, data) =>
        ({ (d3.setPos 4 (some n)) with nvm := { (d3.setPos 4 (some n)).nvm with
          archPage := 0
          jobs := ⟨.archive recs, (if d3.erasedNext 4 = some n then [] else [.erase 4 n]) ++ [.prog 4 n 0 data]⟩
            :: d3.nvm.jobs } } : Device)
      | _, _ => (d3.exhausted 4).jobEnd w 7
    | _ => (if (d2.nextBlock r).isSome then d2.preErase r else d2.exhausted r).jobEnd w 0
  else
    match sget noBlocks d.nvm.spares r with
    | [] => ((d.retire2 b r why).exhausted r).jobEnd w 7
    | sp :: _ =>
      ({ (d.dropSpare r sp) with nvm := { (d.dropSpare r sp).nvm with
        jobs := ⟨w, .relocate r lb sp failed (some why) 0 :: t⟩ :: d.nvm.jobs } } : Device)

/-- The data of a page read for a command or a ring request. -/
def Device.readEnd (d : Device) (w : NvmWork) (addr : Nat) (t : List NvmOp) : Option (List Byte) → Device
  | none => d.jobEnd w 7
  | some l => (d.busWrite 7 addr l).2.goOn w t

/-- The operation of a job ends: its status, and for a read the bit errors found in the page's codewords. -/
def Device.opEnd (d : Device) (j : NvmJob) (fail : Bool) (flips : List Nat) : Device :=
  match j.ops with
  | [] => d.jobEnd j.work 0
  | .read r lb p :: t =>
    match d.phys r lb with
    | none => d.jobEnd j.work 7
    | some b =>
      let d0 := d.onStore (fun x => if flips.isEmpty || x.nor then x else
        { x with errs := (List.range (min flips.length 8)).foldl (fun m i =>
            sput zeroAt m (8 * pageKey b p + i) ((flips[i]?).getD 0)) x.errs })
      let es := match d0.store with
        | some x => pageErrs x (pageKey b p)
        | none => []
      let (data, d1) := d0.readPage b p
      let d2 := d1.refreshIf b (es.foldl max 0)
      match j.work with
      | .read addr => d2.readEnd j.work addr t data
      | .ring _ _ addr => d2.readEnd j.work addr t data
      | .scrub =>
        let d3 := match data, d2.ownerOf b with
          | none, some (rr, _) => d2.setF (Reg.NVM_REGB_DAMAGED rr) 1
          | _, _ => d2
        d3.goOn .scrub t
      | w => d2.goOn w t
  | .prog r lb p data :: t =>
    match d.phys r lb with
    | none => d.jobEnd j.work 7
    | some b =>
      if fail then d.moveOut j.work r lb b 0 (some (p, data)) t
      else (d.onStore (fun x => storeProg x b p data)).goOn j.work t
  | .erase r lb :: t =>
    match d.phys r lb with
    | none => d.jobEnd j.work 7
    | some b =>
      if fail then d.moveOut j.work r lb b 1 none t
      else
        (({ (d.onStore (fun x => storeErase x b)) with
          nvm := { (d.onStore (fun x => storeErase x b)).nvm with reads := sput zeroAt d.nvm.reads b 0 } } :
            Device).showNvm).goOn j.work t
  | .relocate r lb new failed why corr :: t =>
    if why.isNone && d.bit Reg.NVM_STAT_FROZEN then d.jobEnd j.work 5
    else if fail then
      let d1 := d.retire2 new r 0
      match sget noBlocks d1.nvm.spares r with
      | [] =>
        match why, d1.phys r lb with
        | some w, some b => ((d1.retire2 b r w).exhausted r).jobEnd j.work 7
        | _, _ => d1.jobEnd j.work 7
      | sp :: _ =>
        ({ (d1.dropSpare r sp) with nvm := { (d1.dropSpare r sp).nvm with
          jobs := ⟨j.work, .relocate r lb sp failed why corr :: t⟩ :: d1.nvm.jobs } } : Device)
    else (d.relocated r lb new failed why corr).goOn j.work t
  | .record lb pages :: t =>
    if fail then
      match d.phys 3 lb with
      | none => d.jobEnd j.work 7
      | some b =>
        let d1 := ((d.retire2 b 3 0).setPos 3 (some lb)).pushJob ⟨.table, [.table]⟩
        match d1.nextBlock 3 with
        | some n => ({ d1 with nvm := { d1.nvm with jobs := ⟨j.work, .record n pages :: t⟩ :: d1.nvm.jobs } } : Device)
        | none => (d1.exhausted 3).jobEnd j.work 7
    else (d.putRecord lb pages).goOn j.work t
  | .table :: t => (d.writeTable fail).goOn j.work t

/-! ## Commands and the ring (R469, R471) -/

/-- What a request does to the store (R471): a code at once, or the operations of its job. -/
def Device.nvmRequest (d : Device) (op region lb page addr : Nat) : Nat ⊕ List NvmOp :=
  let x := d.store
  let ready := d.bit Reg.NVM_STAT_READY
  let size := (x.map (fun y => y.page)).getD 0
  let lenOk := !ready || (decide (lb < (sget noBlocks d.nvm.map region).length)
    && (op == 4 || (decide (page < (x.map (fun y => y.ppb)).getD 0) && decide (addr + size ≤ 0x800000))))
  if 5 < region ∨ addr % 4 ≠ 0 ∨ !lenOk then .inl 2
  else if !ready || d.bit Reg.NVM_STAT_FROZEN || (op != 2 && region != 5) then .inl 3
  else if op = 2 then .inr [.read region lb page]
  else if op = 3 then .inr [.prog region lb page ((d.busRead 7 addr size).1.getD [])]
  else .inr [.erase region lb]

/-- The read of a PROGRAM_PAGE's data from SDM: whether it fails, and the device after it. -/
def Device.bufRead (d : Device) (addr : Nat) : Bool × Device :=
  match d.store with
  | some x => ((d.busRead 7 addr x.page).1.isNone, (d.busRead 7 addr x.page).2)
  | none => (false, d)

/-- READ_PAGE, PROGRAM_PAGE and ERASE_BLOCK of the host. -/
def Device.cmdNvmPage (d : Device) (op arg : Nat) : Device :=
  let addr := d.fld Reg.NVM_BUF_ADDR
  let q := d.nvmRequest op (d.fld Reg.NVM_ADDR_REGION) (d.fld Reg.NVM_ADDR_LBLOCK) (d.fld Reg.NVM_ADDR_PAGE)
    (if op = 4 then 0 else addr)
  let work : NvmWork := if op = 2 then .read addr else if op = 3 then .program else .erase
  match q with
  | .inl code => d.command portNVM op arg (d.rd Reg.NVM_STAT) ⟨arg == 0 && code != 2, true, false⟩ (fun d => d)
  | .inr ops =>
    d.command portNVM op arg (d.rd Reg.NVM_STAT) ⟨arg == 0, true, true⟩ (fun d =>
      let (bad, d1) := if op = 3 then d.bufRead addr else (false, d)
      if bad then d1.endCmd portNVM 7 else ((d1.beginCmd portNVM).pushJob ⟨work, ops⟩).nvmKick)

def Device.cmdReadPage (d : Device) (arg : Nat) : Device := d.cmdNvmPage 2 arg
def Device.cmdProgramPage (d : Device) (arg : Nat) : Device := d.cmdNvmPage 3 arg
def Device.cmdEraseBlock (d : Device) (arg : Nat) : Device := d.cmdNvmPage 4 arg

def execReadPage (arg : BitVec 24) (s : State) : Host.Outcome State Fault Refusal :=
  run (fun d => d.cmdReadPage arg.toNat) s
def execProgramPage (arg : BitVec 24) (s : State) : Host.Outcome State Fault Refusal :=
  run (fun d => d.cmdProgramPage arg.toNat) s
def execEraseBlock (arg : BitVec 24) (s : State) : Host.Outcome State Fault Refusal :=
  run (fun d => d.cmdEraseBlock arg.toNat) s

/-- The descriptor that DESC_WRITE writes: DSEQ one above the highest valid one, with its CRC (R459). -/
def Device.newDesc (d : Device) : List Byte :=
  let l := (d.busRead 7 (d.fld Reg.NVM_BUF_ADDR) 132).1.getD []
  let dseq := match d.descNow with
    | some m => numAt m 8 4 + 1
    | none => 1
  let h := l.take 8 ++ leBytes 4 dseq ++ (l.drop 12).take 116
  h ++ leBytes 4 (crc32c h).toNat

def Device.cmdDescWrite (d : Device) (arg : Nat) : Device :=
  let l := d.newDesc
  let a := d.fld Reg.NVM_BUF_ADDR
  let fits := match d.store with
    | some x => descValid x l
    | none => true
  d.command portNVM 5 arg (d.rd Reg.NVM_STAT)
    ⟨arg == 0 && a % 4 == 0 && decide (a + 132 ≤ 0x800000) && fits, d.perm permBundle,
      d.store.isSome && !d.bit Reg.NVM_STAT_FROZEN⟩
    (fun d =>
      ((d.beginCmd portNVM).pushJob ⟨.desc, ([0, 1, 2, 3].map (fun c =>
        ([.erase 6 c, .prog 6 c 0 l] : List NvmOp))).flatten⟩).nvmKick)

def execDescWrite (arg : BitVec 24) (s : State) : Host.Outcome State Fault Refusal :=
  run (fun d => d.cmdDescWrite arg.toNat) s

/-- The reads of a scrub pass: every programmed page of every region. -/
def Device.scrubOps (d : Device) (only : Option Nat) : List NvmOp :=
  match d.store with
  | none => []
  | some x =>
    if x.nor then []
    else x.pages.filterMap (fun e =>
      let b := e.1 / 256
      if (d.ownerOf b).isSome && (match only with
          | some k => k == b
          | none => true) then some (.read 6 b (e.1 % 256)) else none)

/-- A scrub pass starts. -/
def Device.startScrub (d : Device) (only : Option Nat) : Device :=
  ((d.setF Reg.NVM_STAT_SCRUB_BUSY 1).pushJob ⟨.scrub, d.scrubOps only⟩).nvmKick

def Device.cmdScrubNow (d : Device) (arg : Nat) : Device :=
  d.commandNow portNVM 6 arg (d.rd Reg.NVM_STAT)
    ⟨arg == 0, true, d.nvm.sel != 0 && !d.bit Reg.NVM_STAT_SCRUB_BUSY && !d.bit Reg.NVM_STAT_FROZEN⟩
    (fun d => d.startScrub none)

def execScrubNow (arg : BitVec 24) (s : State) : Host.Outcome State Fault Refusal :=
  run (fun d => d.cmdScrubNow arg.toNat) s

/-- SCRUB_H hours have passed since the last pass, or a block has been read READ_LIMIT_K × 1,000 times (R464). -/
def execScrubPassStart (block : Option Nat) (s : State) : Host.Outcome State Fault Refusal :=
  run (fun d =>
    if !d.bit Reg.NVM_STAT_READY || d.bit Reg.NVM_STAT_FROZEN || d.bit Reg.NVM_STAT_SCRUB_BUSY then d
    else
      match block with
      | none => d.startScrub none
      | some b =>
        if 1000 * d.atLeast1 Reg.NVM_SCRUB_READ_LIMIT_K ≤ sget zeroAt d.nvm.reads b then d.startScrub (some b) else d) s

def Device.cmdNvmClear (d : Device) (arg : Nat) : Device :=
  d.clearCmd portNVM arg (fun d => (d.wr Reg.NVM_CNT 0).wr Reg.NVM_ECC_MAX 0)

def execNvmClearCounters (arg : BitVec 24) (s : State) : Host.Outcome State Fault Refusal :=
  run (fun d => d.cmdNvmClear arg.toNat) s

/-- The manager takes the lowest slot in STATE 1 among slots k, k + 1, … (R469). -/
def Device.nvmTake (d : Device) (k : Nat) : Nat → Device
  | 0 => d
  | n + 1 =>
    if !d.bit Reg.NVM_QUEUE_EN || d.bit Reg.NVM_STAT_Q_BUSY then d
    else
      let l := d.bytes (d.nvmSlot k) 16
      if numAt l 0 1 = 1 then
        let d1 := (d.busWrite 7 (d.nvmSlot k) [2]).2
        let op := numAt l 1 1
        let w := wd (numAt l 4 4)
        let addr := numAt l 8 4
        let wk : NvmWork := .ring k op addr
        if op < 2 ∨ 4 < op then (d1.jobEnd wk 2).nvmTake (k + 1) n
        else
          match d1.nvmRequest op (bitsOf w 24 8) (bitsOf w 8 16) (bitsOf w 0 8) addr with
          | .inl code => (d1.jobEnd wk code).nvmTake (k + 1) n
          | .inr ops => ((d1.setF Reg.NVM_STAT_Q_BUSY 1).pushJob ⟨wk, ops⟩).nvmKick
      else d.nvmTake (k + 1) n

/-- The ring at t_HOP and at the end of a request. -/
def Device.nvmRing (d : Device) : Device := d.nvmTake 0 8

/-- An operation ends, and the manager serves the next one by precedence. -/
def Device.nandDone (d : Device) (fail : Bool) (flips : List Nat) : Device :=
  match d.nvm.cur with
  | none => d
  | some j =>
    ((({ d with nvm := { d.nvm with cur := none } } : Device).opEnd j fail flips).nvmKick).nvmRing

/-! ## Power-fail save (R465–R467) -/

/-- The freeze takes effect: an erase that can be suspended is, waiting host commands and ring requests end with code 5,
refresh and scrubbing stop. -/
def Device.nvmFreeze (d : Device) : Device :=
  let d1 := d.setF Reg.NVM_STAT_FROZEN 1
  let canStop := (d1.store.map (fun x => x.suspend)).getD false
  let d2 : Device := match d1.nvm.cur with
    | some ⟨w, .erase r lb :: t⟩ =>
      if canStop then { d1 with nvm := { d1.nvm with cur := none, jobs := ⟨w, .erase r lb :: t⟩ :: d1.nvm.jobs } } else d1
    | _ => d1
  let ends := fun (j : NvmJob) => isHostWork j.work || (match j.work with
    | .ring _ _ _ => true
    | .archive _ => true
    | .scrub => true
    | .refresh => true
    | _ => false)
  let gone := d2.nvm.jobs.filter ends
  gone.foldl (fun d j => d.jobEnd j.work 5)
    ({ d2 with nvm := { d2.nvm with jobs := d2.nvm.jobs.filter (fun j => !ends j) } } : Device)

/-- The commit of the freeze is complete: the save of R466 begins, or is over at once with result 2 or 3. -/
def execPowerFailSaveStart (s : State) : Host.Outcome State Fault Refusal :=
  run (fun d =>
    if !d.bit Reg.NVM_STAT_FROZEN ∨ d.bit Reg.NVM_STAT_SAVE_BUSY ∨ d.fld Reg.NVM_SAVE_RESULT ≠ 0 then d
    else if !d.bit Reg.NVM_STAT_READY then d
    else
      let d1 := d.unfreezeLog.setF Reg.NVM_STAT_SAVE_BUSY 1
      let size := (d1.store.map (fun x => x.page)).getD 0
      if d1.rd Reg.IMG_P_SEQ = 0 then { d1 with nvm := { d1.nvm with saved := some 2 } }
      else
        match d1.erasedNext 3 with
        | none => { d1 with nvm := { d1.nvm with saved := some 3 } }
        | some lb =>
          let pages := d1.recordOf size (mapGet d1.img.retained 0x7F0000 65536) d1.img.retVer d1.recentEvents
          (d1.pushJob ⟨.save, [.record lb pages]⟩).nvmKick) s

/-- The save ends with its result; the duration in µs from the warning to the commit page is measured. -/
def Device.saveEnd (d : Device) (durUs : Nat) : Device :=
  match d.nvm.saved with
  | none => d
  | some r =>
    let d1 := (({ d with nvm := { d.nvm with saved := none } } : Device).setF Reg.NVM_STAT_SAVE_BUSY 0).setF
      Reg.NVM_SAVE_RESULT r
    if r = 1 then
      (d1.setF Reg.NVM_SAVE_DUR_100US (durUs / 100)).raise 0x34A
        [d1.rd Reg.NVM_RSEQ, wd d1.recentEvents.length, wd durUs]
    else (d1.inc Reg.NVM_CNT_SAVES_FAILED).raise 0x34B [wd r]

/-! ## Archive and restored log (R537, R538) -/

/-- The bytes of an archive page. -/
def Device.archBytes (page : Nat) (recs : List EvRec) : List Byte :=
  let body := (recs.map (fun r => r.native)).flatten
  let tr := leBytes 4 0x31484352 ++ leBytes 4 ((recs.head?.map (fun r => r.eseq)).getD 0)
    ++ leBytes 4 ((recs.getLast?.map (fun r => r.eseq)).getD 0) ++ leBytes 4 (page / 64 - 1) ++ List.replicate 44 0
  body ++ tr ++ leBytes 4 (crc32c (body ++ tr)).toNat

/-- R records are queued: their page goes to the next page of the current block of region 4, or to the next block. -/
def execArchivePageWrite (s : State) : Host.Outcome State Fault Refusal :=
  run (fun d =>
    match d.store with
    | none => d
    | some x =>
      let n := d.archPer
      if !d.bit Reg.NVM_STAT_READY || d.bit Reg.NVM_STAT_FROZEN || d.bit Reg.EVR_STAT_ARCH_BUSY
          || decide (d.evr.archq.length < n) || n == 0 then d
      else
        let recs := d.evr.archq.take n
        let d1 := ({ d with evr := { d.evr with archq := d.evr.archq.drop n } } : Device).setF Reg.EVR_STAT_ARCH_BUSY 1
        let data := Device.archBytes x.page recs
        match sget noPos d1.nvm.pos 4, decide (d1.nvm.archPage < x.ppb) with
        | some lb, true => (d1.pushJob ⟨.archive recs, [.prog 4 lb d1.nvm.archPage data]⟩).nvmKick
        | _, _ =>
          match d1.nextBlock 4 with
          | none => (d1.exhausted 4).jobEnd (.archive recs) 7
          | some lb =>
            let pre : List NvmOp := if d1.erasedNext 4 = some lb then [] else [.erase 4 lb]
            ((({ d1 with nvm := { d1.nvm with archPage := 0 } } : Device).setPos 4 (some lb)).pushJob
              ⟨.archive recs, pre ++ [.prog 4 lb 0 data]⟩).nvmKick) s

/-- After a start of SYS level or deeper, once the store is mapped, the events of the newest record are restored. -/
def execLogRestore (s : State) : Host.Outcome State Fault Refusal :=
  run (fun d =>
    if !d.evr.restoreDue || !d.evrLive || (decide (2 ≤ d.sys.level) && decide (d.sys.stage < 6)) then d
    else
      let d1 : Device := { d with evr := { d.evr with restoreDue := false } }
      match d1.newestRecord with
      | none => d1.restoreLog [] 0
      | some (q, _, l) =>
        d1.restoreLog ((List.range (numAt l 36 2)).map (fun i => EvRec.ofNative ((l.drop (65600 + 64 * i)).take 64))) q) s

/-! ## The start of the manager (R452, R454, R458, R460, R461) -/

/-- A device that R452 and R453 admit. -/
def storeUsable (x : Store) : Bool :=
  x.nor || ((x.page == 2048 || x.page == 4096 || x.page == 8192) && decide (64 ≤ x.ppb) && decide (x.ppb ≤ 256)
    && decide (1 ≤ x.targets) && decide (x.targets ≤ 2) && decide (2 + 70 * (x.page / 1024) ≤ x.spare))

/-- A device of an interface (0 NAND, 1 NOR) that can be used; one that cannot records event 0x34D, whose reason code the
spec does not state. -/
def Device.probe (d : Device) (kind : Nat) : Option Store × Device :=
  match (if kind = 0 then d.nvm.nand else d.nvm.nor) with
  | none => (none, d)
  | some x =>
    if storeUsable x then (some x, d)
    else
      let (w, d1) := d.free
      (none, d1.raise 0x34D [wd kind, w])

/-- Select the store: by BOOT, or the first device with a valid descriptor (R454). -/
def Device.findStore (d : Device) (boot : Nat) : Device :=
  let pick := fun (k : Nat) (d : Device) => ({ d with nvm := { d.nvm with sel := k } } : Device)
  if boot = 0 then match d.probe 0 with
    | (some _, d1) => pick 1 d1
    | (none, d1) => pick 0 d1
  else if boot = 1 then match d.probe 1 with
    | (some _, d1) => pick 2 d1
    | (none, d1) => pick 0 d1
  else
    match d.probe 0 with
    | (x0, d1) =>
      if (x0.bind (fun x => bestDesc x [0, 1, 2, 3])).isSome then pick 1 d1
      else
        match d1.probe 1 with
        | (x1, d2) => if (x1.bind (fun x => bestDesc x [0, 1, 2, 3])).isSome then pick 2 d2 else pick 0 d2

/-- Event 0x348 for each invalid descriptor copy. -/
def Device.descEvents (d : Device) (x : Store) : Device :=
  [0, 1, 2, 3].foldl (fun d c =>
    let l := descCopy x c
    if descValid x l then d else d.raise 0x348 [wd c, wd (numAt l 8 4)]) d

/-- The last block of region 4 that holds a page while the next one holds none, and its pages. -/
def Device.archFind (d : Device) (x : Store) : Device :=
  let m := sget noBlocks d.nvm.map 4
  let used := fun i => match m[i]? with
    | some b => !blockErased x b
    | none => false
  match (List.range m.length).find? (fun i => used i && !used ((i + 1) % m.length)) with
  | none => (d.setPos 4 (if m.any (fun b => !blockErased x b) then some (m.length - 1) else none))
  | some i =>
    let n := match m[i]? with
      | some b => (progPages x b).foldl (fun a p => max a (p + 1)) 0
      | none => 0
    ({ d with nvm := { d.nvm with archPage := n } } : Device).setPos 4 (some i)

/-- Map the store from its block table, or by a scan for factory-bad blocks. -/
def Device.mapStore (d : Device) (x : Store) (l : List Byte) : Device :=
  let total := storeBlocks x
  let ta := tableBest x (numAt l 24 2) 0 x.ppb
  let tb := tableBest x (numAt l 26 2) 0 x.ppb
  let best := match ta, tb with
    | some a, some b => if a.1 < b.1 then some (1, b) else some (0, a)
    | some a, none => some (0, a)
    | none, some b => some (1, b)
    | none, none => none
  let pos := sput zeroAt (sput zeroAt [] 0 ((ta.map (fun t => t.2.2.2)).getD x.ppb)) 1
    ((tb.map (fun t => t.2.2.2)).getD x.ppb)
  let d0 : Device := { d with nvm := { d.nvm with map := [], spares := [], btPos := pos } }
  match best with
  | some (c, q, states, lists, _) =>
    let d1 : Device := { d0 with nvm := { d0.nvm with
      bseq := q
      btLast := c
      bstate := (List.range states.length).foldl (fun m b => sput goodAt m b ((states[b]?).getD 3)) [] } }
    (forN 6 (fun r d => d.takeRegion total l lists r) d1).setF Reg.NVM_STAT_BT_OK (b2n (ta.isSome && tb.isSome))
  | none =>
    let bad := (List.range total).filter (fun b => x.marks.contains b)
    let d1 : Device := { d0 with nvm := { d0.nvm with
      bseq := 0
      btLast := 1
      bstate := bad.foldl (fun m b => sput goodAt m b 0) [] } }
    let d2 := forN 6 (fun r d => d.buildRegion total l r) d1
    ((((d2.writeTable false).writeTable false).setF Reg.NVM_STAT_BT_OK 1).setF Reg.NVM_STAT_SCANNED 1).raise 0x345
      [wd bad.length]

/-- The manager finds and maps the store (step 2 of R472). -/
def Device.nvmStart (d : Device) (boot : Nat) : Device :=
  let d0 := d.findStore boot
  match d0.store with
  | none => d0.setF Reg.NVM_STAT_IF 3
  | some x =>
    let d1 := ((((d0.setF Reg.NVM_GEOM_KIND (b2n x.nor)).setF Reg.NVM_GEOM_TWO_TARGETS (b2n (x.targets == 2))).setF
      Reg.NVM_GEOM_PAGE (if x.page = 2048 then 0 else if x.page = 4096 then 1 else 2)).setF Reg.NVM_GEOM_PPB x.ppb).setF
      Reg.NVM_GEOM_BLOCKS (storeBlocks x)
    let d2 := (d1.setF Reg.NVM_STAT_IF (if x.nor then 2 else if x.ddr2 then 1 else 0)).setF Reg.NVM_STAT_TMODE
      (if x.nor then 0 else min x.mode (d1.fld Reg.NVM_STAT_TMODE_MAX))
    let d3 := d2.descEvents x
    match bestDesc x [0, 1, 2, 3] with
    | none => d3.setF Reg.NVM_STAT_DESC_OK 0
    | some l =>
      let d4 := forN 6 (fun r d =>
        (d.setF (Reg.NVM_REGA_START r) (descFirst l r)).setF (Reg.NVM_REGA_COUNT r) (descUse l r))
        (d3.setF Reg.NVM_STAT_DESC_OK 1)
      let d5 := ((d4.mapStore x l).showNvm.setF Reg.NVM_STAT_READY 1).archFind x
      let d6 := match d5.newestRecord with
        | some (q, lb, _) => (d5.wr Reg.NVM_RSEQ (wd q)).setPos 3 (some lb)
        | none => d5.setPos 3 none
      ((d6.preErase 3).preErase 4).nvmKick

end Sys2Proof.Machine
end

