-- ==== Sys2Proof/Machine/Pwr.lean ====
section
/-! DEFINITION. Supplies, the standby domain, temperature and process monitors (R560–R577). Weir is in Fld.lean and
Nvm.lean. -/

namespace Sys2Proof.Machine

def srcPwrReq : Nat := 5

/-- Rails: 0 VCORE, 1 VSERDES, 2 VIO18, 3 VIO33, 4 VPLL, 5 VSTBY (R576). States: 0 within limits, 1 WARN (LOW for VSTBY),
2 UV, 3 OV. -/
def Device.railState (d : Device) (r : Nat) : Nat := sget zeroAt d.pwr.rail r

/-- The states that a rail has (R562). -/
def railHas (r st : Nat) : Bool :=
  st == 0 || (if r = 5 then st == 1 else st == 2 || st == 3 || (st == 1 && (r == 0 || r == 3)))

/-- The bits of PWR_SUP_STAT that a rail shows: below UV it is below WARN too. -/
def railBits (r st : Nat) : Nat :=
  if r = 0 then (if st = 1 then 1 else if st = 2 then 3 else if st = 3 then 4 else 0)
  else if r = 3 then (if st = 1 then 0x40 else if st = 2 then 0xC0 else if st = 3 then 0x100 else 0)
  else if st = 0 then 0
  else if r = 1 then 8
  else if r = 2 then 0x10
  else if r = 4 then 0x20
  else 0x400

/-- All bits that a rail owns. -/
def railMask (r : Nat) : Nat :=
  if r = 0 then 7 else if r = 3 then 0x1C0 else railBits r 1

/-- PWR_SUP_STAT.PFW shows whether an internal warning holds. -/
def Device.showPfw (d : Device) : Device := d.setB Reg.PWR_SUP_STAT_PFW (d.pwr.warnNow != 0)

/-- A core-side rail other than this one is out of its UV or OV limit. -/
def Device.railBad (d : Device) : Bool := (List.range 5).any (fun r => decide (2 ≤ d.railState r))

/-- What VSTBY below LOW clears: the standby counter, the wake logic and the alarm (R565–R567). -/
def Device.stbyClear (d : Device) : Device :=
  let d1 := ((((d.wr Reg.PWR_STBY_STAT 0).wr Reg.PWR_STBY_SEC_LO 0).wr Reg.PWR_STBY_SEC_HI 0).wr Reg.PWR_ALARM_LO 0).wr
    Reg.PWR_ALARM_HI 0
  { d1 with pwr := { d1.pwr with
    stbyAcc := 0
    wakeWait := false
    stbyWait := if d.bit Reg.PWR_STBY_STAT_VALID then some 0 else d1.pwr.stbyWait } }

/-- A rail crosses a threshold (R562, R563). -/
def execSupplyThresholdCross (rail : Fin 6) (st : Fin 4) (mv : Nat) (s : State) : Host.Outcome State Fault Refusal :=
  run (fun d =>
    if !railHas rail st || d.railState rail == st.val then d
    else
      let d1 : Device := { d with pwr := { d.pwr with
        rail := sput zeroAt d.pwr.rail rail st
        warnNow := if (rail.val = 0 ∨ rail.val = 3) ∧ (st.val = 0 ∨ st.val = 3) then
            putBit d.pwr.warnNow (if rail.val = 0 then 1 else 2) false
          else d.pwr.warnNow } }
      let now := (d1.rd Reg.PWR_SUP_STAT).toNat
      let keep := now - (now &&& railMask rail)
      let d2 := (d1.wr Reg.PWR_SUP_STAT (wd (keep ||| railBits rail st))).wr Reg.PWR_SUP_FLAGS
        (d1.rd Reg.PWR_SUP_FLAGS ||| wd (railBits rail st))
      let d3 := (d2.setF (Reg.PWR_VMON_MV rail) mv).showPfw.raise 0x3F0 [wd rail, wd st, wd mv]
      if rail.val = 5 then (if st.val = 1 then d3.stbyClear else d3)
      else if d3.railBad then (d3.slAssert slSupply).requestReset srcPwrReq
      else
        if rail.val = 3 ∧ !d3.vio33Low then
          ({ d3 with pwr := { d3.pwr with nandHeld := false } } : Device).nvmKick
        else d3) s

/-- The tick generator freezes (R65): at the next boundary, or at once before the first one. -/
def Device.freezeNow (d : Device) : Device :=
  (({ (d.setF Reg.TICK_STATUS_FROZEN 1) with
    tick := { d.tick with wdArmed := false, stopNext := false } } : Device).unfreezeLog).nvmFreeze

/-- An internal warning (R563): 0 PFW_N held low, 1 VCORE, 2 VIO33. The first one starts the freeze. -/
def execInternalWarning (src : Fin 3) (s : State) : Host.Outcome State Fault Refusal :=
  run (fun d =>
    let holds := src.val == 0 || (d.bit Reg.PWR_CFG_PFW_INT
      && (let st := d.railState (if src.val = 1 then 0 else 3)
          st == 1 || st == 2))
    if !holds || d.pwr.warnNow.testBit src then d
    else
      let d1 := ((({ d with pwr := { d.pwr with warnNow := putBit d.pwr.warnNow src true } } : Device).showPfw).setF
        Reg.PWR_SUP_FLAGS_PFW 1).raise 0x3F1 [wd src]
      if d1.pwr.warned then d1
      else
        let d2 := ({ d1 with pwr := { d1.pwr with warned := true } } : Device).fire 0xEB
        if d2.tick.started ∧ !d2.bit Reg.TICK_STATUS_FROZEN then { d2 with tick := { d2.tick with stopNext := true } }
        else d2.freezeNow) s

/-- A signed field of half a word. -/
def Device.tempMax (d : Device) (n : Nat) : Int := d.sfld (Reg.PWR_TEMP_MAX_01C n)

/-- One sensor: reading, highest reading, and its part of TJ_WARN with 5 °C of hysteresis (R573). -/
def Device.sensor (d : Device) (n : Nat) (t : Int) : Device :=
  let d1 := (d.setS (Reg.PWR_TEMP_T_01C n) t).setS (Reg.PWR_TEMP_MAX_01C n) (max (d.tempMax n) t)
  let lim : Int := 10 * (d1.fld Reg.PWR_CFG_T_WARN : Nat)
  let was := d1.pwr.hot.testBit n
  let now := decide (lim < t) || (was && decide (lim - 50 ≤ t))
  let old := d1.pwr.hot
  let d2 : Device := { d1 with pwr := { d1.pwr with hot := putBit old n now } }
  if (old = 0) = (d2.pwr.hot = 0) then d2
  else
    let on := d2.pwr.hot != 0
    let d3 := (d2.setB Reg.PWR_SUP_STAT_TJ_WARN on).raise 0x3F2 [wd n, wdi t]
    if on then d3.setF Reg.PWR_SUP_FLAGS_TJ_WARN 1 else d3

/-- The sensors and the rails are read every 1 ms. `shut` decides inside the bounds of T_SHUT, 135–145 °C. -/
def execTempSample (temps : List Int) (mv : List Nat) (shut : Bool) (s : State) : Host.Outcome State Fault Refusal :=
  run (fun d =>
    let d1 := forN 4 (fun n d => match temps[n]? with
      | some t => d.sensor n t
      | none => d) d
    let d2 := forN 6 (fun r d => match mv[r]? with
      | some v => d.setF (Reg.PWR_VMON_MV r) v
      | none => d) d1
    let top := temps.foldl max (-1000)
    if 1450 < top ∨ (1350 < top ∧ shut) then
      ((d2.setF Reg.PWR_SUP_STAT_HOT 1).setF Reg.PWR_SUP_FLAGS_HOT 1).requestReset srcPwrReq
    else if top < 1250 then d2.setF Reg.PWR_SUP_STAT_HOT 0
    else d2) s

/-- A ring oscillator is measured: slowdown in ppm (R575). -/
def execRingOscMeasure (n : Fin 4) (ppm : Int) (s : State) : Host.Outcome State Fault Refusal :=
  run (fun d =>
    let d1 := d.wr (Reg.PWR_PMON n) (wdi ppm)
    if (d1.fld Reg.PWR_CFG_AGE_WARN_PPM : Int) < ppm ∧ !d1.pwr.aged.testBit n then
      ({ d1 with pwr := { d1.pwr with aged := putBit d1.pwr.aged n true } } : Device).raise 0x3F5 [wd n, wdi ppm]
    else d1) s

/-! ## Standby domain (R565–R567) -/

/-- The seconds of the standby counter. -/
def Device.stbySec (d : Device) : Nat :=
  d.fld Reg.PWR_STBY_SEC_HI_SEC * 2 ^ 32 + (d.rd Reg.PWR_STBY_SEC_LO).toNat

def Device.setStbySec (d : Device) (n : Nat) : Device :=
  (d.wr Reg.PWR_STBY_SEC_LO (wd n)).setF Reg.PWR_STBY_SEC_HI_SEC (n / 2 ^ 32)

/-- A full second of a LOCKED time base: its seconds go into the standby counter. -/
def execStbySecondCopy (s : State) : Host.Outcome State Fault Refusal :=
  run (fun d =>
    if !d.tbLocked then d
    else
      let d1 := ((d.setStbySec d.tb.sec).setF Reg.PWR_STBY_STAT_FRAC 0).setF Reg.PWR_STBY_STAT_VALID 1
      { d1 with pwr := { d1.pwr with stbyAcc := 0 } }) s

/-- 4 ns on the standby crystal while it runs: the fraction counts 1/32,768 s. -/
def Device.stbyCycle (d : Device) : Device :=
  if !d.bit Reg.SYS_CLK_STAT_STBY_OK || d.railState 5 != 0 then d
  else
    let a := d.pwr.stbyAcc + 131072
    if a < 1000000000 then { d with pwr := { d.pwr with stbyAcc := a } }
    else
      let f := d.fld Reg.PWR_STBY_STAT_FRAC + 1
      let d1 := ({ d with pwr := { d.pwr with stbyAcc := a - 1000000000 } } : Device).setF Reg.PWR_STBY_STAT_FRAC f
      if f < 32768 then d1 else d1.setStbySec (d1.stbySec + 1)

/-- The seconds equal PWR_ALARM: WAKE_N falls; event 0x3F7 follows at the first boundary or at the next start (R567). -/
def execWakeAlarm (s : State) : Host.Outcome State Fault Refusal :=
  run (fun d =>
    let alarm := d.fld Reg.PWR_ALARM_HI_SEC * 2 ^ 32 + (d.rd Reg.PWR_ALARM_LO).toNat
    if d.bit Reg.PWR_CFG_ALARM_EN ∧ d.stbySec = alarm ∧ !d.bit Reg.PWR_STBY_STAT_WAKE then
      ({ d with pwr := { d.pwr with wakeWait := true } } : Device).setF Reg.PWR_STBY_STAT_WAKE 1
    else d) s

/-- Event 0x3F7 of a wake alarm. -/
def Device.wakeEvent (d : Device) : Device :=
  if d.pwr.wakeWait then
    ({ d with pwr := { d.pwr with wakeWait := false } } : Device).raise 0x3F7 [d.rd Reg.PWR_ALARM_LO]
  else d

def Device.cmdPwrClear (d : Device) (arg : Nat) : Device :=
  d.clearCmd portPWR arg (fun d => d.wr Reg.PWR_WEIR_CNT 0)

def Device.cmdClearWake (d : Device) (arg : Nat) : Device :=
  d.commandNow portPWR 2 arg (d.rd Reg.PWR_SUP_STAT) ⟨arg == 0, true, true⟩ (fun d => d.setF Reg.PWR_STBY_STAT_WAKE 0)

def execPwrClearCounters (arg : BitVec 24) (s : State) : Host.Outcome State Fault Refusal :=
  run (fun d => d.cmdPwrClear arg.toNat) s
def execClearWake (arg : BitVec 24) (s : State) : Host.Outcome State Fault Refusal :=
  run (fun d => d.cmdClearWake arg.toNat) s

end Sys2Proof.Machine
end

