-- ==== Sys2Proof/Machine/Hp.lean ====
section
/-! DEFINITION. The bridge: link and configuration space (R496–R498), DMA (R505), pending messages (R507), the pin mirror
(R508) and bridge resets (R511). Reads and writes of the host are in RegWrite.lean. -/

namespace Sys2Proof.Machine

/-- The PCIE domain has been released (stage S6) and is not held in reset (R496). -/
def Device.hpLive (d : Device) : Bool := decide (d.sys.level < 2) || decide (7 ≤ d.sys.stage)

/-- The link trains and becomes active. -/
def execPcieLinkUp (x2 gen2 : Bool) (s : State) : Host.Outcome State Fault Refusal :=
  run (fun d =>
    if !d.hpLive || !d.bit Reg.SYS_CLK_STAT_PCIE_LOCK then d
    else
      ((d.setF Reg.HP_LINK_LINK_UP 1).setF Reg.HP_LINK_WIDTH (if x2 then 2 else 1)).setF Reg.HP_LINK_SPEED
        (if gen2 then 2 else 1)) s

/-- A configuration request: Request Retry Status until the function is ready, else its effect (R497). `waiting` says that
the function is still inside the time that it has to become ready. -/
def execPcieConfigAccess (acc : CfgAccess) (waiting : Bool) (s : State) : Host.Outcome State Fault Refusal :=
  run (fun d =>
    if !d.hpLive || !d.bit Reg.HP_LINK_LINK_UP then d
    else if !d.hp.ready && waiting then d.send (.config true)
    else
      let d1 := ({ d with hp := { d.hp with ready := true } } : Device).send (.config false)
      match acc with
      | .read => d1
      | .busMaster on => d1.setB Reg.HP_LINK_BME on
      | .msix on mask => (d1.setB Reg.HP_LINK_MSIX_EN on).setB Reg.HP_LINK_FUNC_MASK mask
      | .dstate d3 => d1.setF Reg.HP_LINK_D_STATE (if d3 then 3 else 0)
      | .sizes mps mrrs => { d1 with hp := { d1.hp with mps := min mps 256, mrrs := mrrs } }
      | .other => d1) s

/-- A pending message is sent when nothing blocks it any more (R507). -/
def execMsixPendingRelease (vec : Fin 32) (s : State) : Host.Outcome State Fault Refusal :=
  run (fun d =>
    if d.bitAt (Reg.HP_PBA_PEND 0) vec ∧ !d.msixBlocked vec then
      (d.setBitAt (Reg.HP_PBA_PEND 0) vec false).send (.msix vec)
    else d) s

/-- The 1 µs sample finds a ball of HP_PINS at another level (R508). PFW_N high ends its warning (R563). -/
def execHpPinChange (pin : Fin 18) (high : Bool) (s : State) : Host.Outcome State Fault Refusal :=
  run (fun d =>
    if !d.hpLive || (d.rd Reg.HP_PINS).toNat.testBit pin == high then d
    else
      let d1 := d.wr Reg.HP_PINS (wd (putBit (d.rd Reg.HP_PINS).toNat pin high))
      let d2 := if pin.val = 0 ∧ high then
          ({ d1 with pwr := { d1.pwr with warnNow := putBit d1.pwr.warnNow 0 false } } : Device).showPfw
        else d1
      if (d2.rd Reg.HP_PIN_EN).toNat.testBit pin then d2.cause 7 else d2) s

/-! ## DMA (R505) -/

/-- A DMA command ends: cause 4, and for codes 5–7 event 0x3C6. -/
def Device.dmaEnd (d : Device) (code : Nat) : Device :=
  let d1 := (({ d with hp := { d.hp with dma := none } } : Device).finishCmd portHP code).cause 4
  if code = 0 then d1 else (d1.inc Reg.HP_CNT_DMA_FAIL).raise 0x3C6 [wd code, d1.rd Reg.HP_DMA_HADDR_LO]

/-- The size of the next request of at most m bytes, which does not cross 4 KiB. -/
def chunkLen (m addr left : Nat) : Nat := min (min m left) (4096 - addr % 4096)

/-- The write requests of a transfer, in order. -/
def Device.dmaWrites (d : Device) (m addr : Nat) (data : List Byte) : Nat → Device
  | 0 => d
  | n + 1 =>
    if data.isEmpty then d
    else
      let k := chunkLen m addr data.length
      (d.send (.hostWrite addr (data.take k))).dmaWrites m (addr + k) (data.drop k) n

/-- The next read request of a transfer. -/
def Device.dmaRead (d : Device) (x : Dma) : Device :=
  let m := if d.hp.mrrs = 0 then 512 else d.hp.mrrs
  d.send (.hostRead (x.haddr + x.done) (chunkLen m (x.haddr + x.done) (x.len - x.done)))

/-- DMA_TO_HOST and DMA_FROM_HOST. -/
def Device.cmdDma (d : Device) (op arg : Nat) : Device :=
  let sa := d.fld Reg.HP_DMA_SADDR_VALUE
  let ha := (d.rd Reg.HP_DMA_HADDR_HI).toNat * 2 ^ 32 + (d.rd Reg.HP_DMA_HADDR_LO).toNat
  let len := d.fld Reg.HP_DMA_LEN_VALUE
  let argOk := arg == 0 && decide (4 ≤ len) && decide (len ≤ 65536) && len % 4 == 0 && sa % 4 == 0 && ha % 4 == 0
    && decide (sa + len ≤ 0x800000)
  d.command portHP op arg (d.rd Reg.HP_LINK) ⟨argOk, true, d.bit Reg.HP_LINK_BME && d.fld Reg.HP_LINK_D_STATE == 0⟩
    (fun d =>
      let x : Dma := ⟨op == 2, sa, ha, len, 0, false⟩
      let d1 := d.beginCmd portHP
      if op = 2 then
        match d1.busRead 2 sa len with
        | (none, d2) => d2.dmaEnd 7
        | (some l, d2) =>
          let d3 := d2.dmaWrites (if d2.hp.mps = 0 then 128 else d2.hp.mps) ha l len
          ({ d3 with hp := { d3.hp with dma := some { x with done := len, flushing := true } } } : Device).send
            (.hostRead (ha + len - 4) 4)
      else ({ d1 with hp := { d1.hp with dma := some x } } : Device).dmaRead x)

def Device.cmdDmaToHost (d : Device) (arg : Nat) : Device := d.cmdDma 2 arg
def Device.cmdDmaFromHost (d : Device) (arg : Nat) : Device := d.cmdDma 3 arg

def execDmaToHost (arg : BitVec 24) (s : State) : Host.Outcome State Fault Refusal :=
  run (fun d => d.cmdDmaToHost arg.toNat) s
def execDmaFromHost (arg : BitVec 24) (s : State) : Host.Outcome State Fault Refusal :=
  run (fun d => d.cmdDmaFromHost arg.toNat) s

/-- The first byte of the retained area in SDM. -/
def retBase : Nat := 0x7F0000

/-- Write received data into SDM: bytes of the retained area are refused while WP_RET = 1 (R500). -/
def Device.dmaStore (d : Device) (a : Nat) (l : List Byte) : Bool × Device :=
  d.busWrite 2 a (if d.bit Reg.HP_HWIN_WP_RET then l.take (retBase - a) else l)

/-- A completion of a DMA request arrives. -/
def execDmaCompletionReceived (st : CplStatus) (data : List Byte) (s : State) : Host.Outcome State Fault Refusal :=
  run (fun d =>
    match d.hp.dma with
    | none => d
    | some x =>
      if st ≠ .success then d.dmaEnd 7
      else if x.flushing then d.dmaEnd 0
      else
        let l := data.take (x.len - x.done)
        match d.dmaStore (x.saddr + x.done) l with
        | (false, d1) => d1.dmaEnd 7
        | (true, d1) =>
          let y := { x with done := x.done + l.length }
          if x.len ≤ y.done then d1.dmaEnd 0
          else ({ d1 with hp := { d1.hp with dma := some y } } : Device).dmaRead y) s

/-- No completion within HP_CPL_TMO. -/
def execDmaCompletionTimeout (s : State) : Host.Outcome State Fault Refusal :=
  run (fun d => if d.hp.dma.isSome then d.dmaEnd 6 else d) s

def Device.cmdHpClear (d : Device) (arg : Nat) : Device :=
  d.clearCmd portHP arg (fun d => d.wr Reg.HP_CNT 0)

def execHpClearCounters (arg : BitVec 24) (s : State) : Host.Outcome State Fault Refusal :=
  run (fun d => d.cmdHpClear arg.toNat) s

/-! ## Bridge resets (R511) -/

/-- Release every semaphore of the host: event 0x3D5 with their masks. -/
def Device.hostSems (d : Device) : Device :=
  let own := (List.range 64).filter (fun k => d.semOwner k == ownerHost)
  if own.isEmpty then d
  else
    let m := (own.map (fun k => 2 ^ k)).sum
    (own.foldl (fun d k => d.semFree k) d).raise 0x3D5 [wd m, wd (m / 2 ^ 32)]

/-- A bridge reset: 0 FLR, 1 hot reset, 2 link-down, 3 PE_RST_N. -/
def Device.bridgeReset (d : Device) (kind : Nat) : Device :=
  let d1 := if d.hp.dma.isSome then d.dmaEnd 5 else d
  let d2 := (((d1.setF Reg.HP_LINK_BME 0).setF Reg.HP_LINK_MSIX_EN 0).setF Reg.HP_LINK_FUNC_MASK 0).setF
    Reg.HP_LINK_D_STATE 0
  let d3 := if kind = 0 then d2
    else ((d2.setF Reg.HP_LINK_LINK_UP 0).setF Reg.HP_LINK_WIDTH 0).setF Reg.HP_LINK_SPEED 0
  let d4 : Device := { d3 with
    regs := skeep (fun a => !(decide (0x4121000 ≤ a) && decide (a < 0x4121200)) && a != Reg.HP_PBA 0) d3.regs
    hp := { d3.hp with ready := false, mps := 0, mrrs := 0 } }
  let d5 := (((d4.wr Reg.HP_IRQ_STAT 0).wr Reg.HP_IRQ_EN 0).epReset 24).hostSems
  (d5.inc Reg.HP_LINK_LINK_DOWNS).raise 0x3C7 [wd kind]

def execBridgeReset (kind : Fin 4) (s : State) : Host.Outcome State Fault Refusal :=
  run (fun d => if d.hpLive then d.bridgeReset kind else d) s

end Sys2Proof.Machine
end

