-- ==== Sys2Proof/Machine/Rules.lean ====
section
/-! DEFINITION. The configuration rules that the chapters assign to the loader (step 3 of R472): each check names the
registers that break it, by fabric address. -/

namespace Sys2Proof.Machine

/-- A register breaks a rule. -/
def failIf (a : Nat) (b : Bool) : List Nat := if b then [a] else []

/-- Ranges (register, first byte, length): the registers whose range meets that of an earlier one. -/
def clashes : List (Nat × Nat × Nat) → List Nat
  | [] => []
  | x :: t => (t.filter (fun y => rangesMeet x.2 y.2)).map (fun y => y.1) ++ clashes t

/-- A range lies wholly in a range (first byte, length). -/
def within (off len : Nat) (part : Nat × Nat) : Bool := decide (part.1 ≤ off) && decide (off + len ≤ part.1 + part.2)

/-- The inbound part of an area. -/
def Device.inPart (d : Device) (ar : Nat) : Nat × Nat := (d.areaBase ar, d.inLen ar)

/-- The outbound part of an area. -/
def Device.outPart (d : Device) (ar : Nat) : Nat × Nat := (d.areaBase ar + d.inLen ar, d.areaSize ar - d.inLen ar)

/-- R20: strap, STATION and ARBITER. -/
def Device.badRole (d : Device) : List Nat :=
  let strap := d.role
  let st := d.bit Reg.SYS_ROLE_STATION
  failIf Reg.SYS_ROLE (decide (4 < strap) || d.fld Reg.SYS_ROLE_CFG_ROLE != strap || (st && strap == 0)
    || (!st && strap == 4) || (d.bit Reg.SYS_ROLE_ARBITER && !st))

/-- R51. -/
def Device.badTick (d : Device) : List Nat :=
  let p := d.periodUs
  let hop := d.fld Reg.TICK_PHASE_HOP_US
  let pct := d.fld Reg.TICK_PHASE_VOTE_PCT
  let win := d.fld Reg.TICK_PHASE_VWIN_US
  let lim := d.fld Reg.TICK_WD_LIMIT_PCT
  failIf Reg.TICK_PERIOD (decide (p < 250) || decide (20000 < p))
    ++ failIf Reg.TICK_PHASE ((d.isLane && (decide (hop < 10) || decide (min 500 (p / 4) < hop))) || decide (pct < 50)
      || decide (95 < pct) || decide (win < 5) || decide (200 < win) || decide (d.voteUs < d.hopUs + 50)
      || decide (p < d.voteUs + win + 10))
    ++ failIf Reg.TICK_WD (decide (lim < 110) || decide (200 < lim))

/-- A context is enabled and of a KIND of R177: 0 periodic, 1 event, 2 fault. -/
def Device.ctxKind (d : Device) (e c k : Nat) : Bool := d.bit (Reg.TASK_CFG_EN e c) && d.fld (Reg.TASK_CFG_KIND e c) == k

/-- R198 for one context. -/
def Device.badCtx (d : Device) (e c : Nat) : List Nat :=
  if !d.bit (Reg.TASK_CFG_EN e c) then []
  else
    let kind := d.fld (Reg.TASK_CFG_KIND e c)
    let dk := d.fld (Reg.TASK_CFG_DL_KIND e c)
    let n := d.fld (Reg.TASK_PER_PERIOD_N e c)
    let us := d.fld (Reg.TASK_DL_DL_US e c)
    failIf (Reg.TASK_CFG e c) (kind == 3 || dk == 3 || d.fld (Reg.TASK_CFG_TRAP_REACT e c) == 3)
      ++ failIf (Reg.TASK_PER e c) (kind == 0 && (decide (n < 1) || decide (1024 < n)
        || decide (n ≤ d.fld (Reg.TASK_PER_PHASE e c))))
      ++ failIf (Reg.TASK_DL e c) (decide (dk < 2) && (decide (us < 1) || decide (20000 < us)
        || (kind == 0 && dk == 1 && decide (n * d.periodUs < us))))

/-- R198 for the fault context of an engine. -/
def Device.badFaultCtx (d : Device) (e : Nat) : List Nat :=
  failIf (Reg.TASK_ENG_CFG e) (d.bit (Reg.TASK_ENG_CFG_FAULT_EN e)
    && (List.range 16).filter (fun c => d.ctxKind e c 2) != [d.fld (Reg.TASK_ENG_CFG_FAULT_CTX e)])

/-- A router source is of class L in the lane roles (R183). -/
def Device.classL (d : Device) (n : Nat) : Bool :=
  if n < 0x40 then d.diClass (n % 32) != 0
  else decide (0xC0 ≤ n) && decide (n ≤ 0xF0) && n != 0xEC

/-- R198 and R196 for one route. -/
def Device.badRoute (d : Device) (n : Nat) : List Nat :=
  if !d.bit (Reg.TASK_ROUTE_EN n) then []
  else
    let e := d.fld (Reg.TASK_ROUTE_ENG n)
    failIf (Reg.TASK_ROUTE n) (decide (0xF1 ≤ n) || decide (24 ≤ e) || !d.ctxKind e (d.fld (Reg.TASK_ROUTE_CTX n)) 1
      || (d.isLane && d.classL n && d.bit (Reg.TASK_ENG_CFG_VOTED e)))

def Device.badTask (d : Device) : List Nat :=
  (List.range 24).flatMap (fun e => (List.range 16).flatMap (fun c => d.badCtx e c) ++ d.badFaultCtx e)
    ++ (List.range 256).flatMap (fun n => d.badRoute n)

/-- R203. -/
def Device.badSplit (d : Device) : List Nat :=
  failIf Reg.IMG_SPLIT (decide (256 < d.fld Reg.IMG_SPLIT_N_IN) || decide (128 < d.fld Reg.IMG_SPLIT_S_IN)
    || decide (64 < d.fld Reg.IMG_SPLIT_A_IN))

/-- The enabled copy entries of a direction. -/
def Device.copiesOf (d : Device) (out : Bool) : List Nat :=
  (List.range 64).filter (fun i => d.bit (Reg.IMG_COPYA_EN i) && d.bit (Reg.IMG_COPYA_DIR i) == out)

/-- Where the area side and the local side of a copy entry begin. -/
def Device.copyFar (d : Device) (i : Nat) : Nat :=
  d.areaBase (netArea (d.fld (Reg.IMG_COPYB_AREA i))) + d.fld (Reg.IMG_COPYB_AREA_OFF i)
def Device.copyNear (d : Device) (i : Nat) : Nat :=
  d.areaBase (if d.bit (Reg.IMG_COPYA_DIR i) then areaQ else areaI) + d.fld (Reg.IMG_COPYA_LOC_OFF i)

/-- R213: parts. -/
def Device.badCopy (d : Device) (i : Nat) : List Nat :=
  let n := d.copyLen i
  let ar := netArea (d.fld (Reg.IMG_COPYB_AREA i))
  failIf (Reg.IMG_COPYA i) (d.fld (Reg.IMG_COPYB_AREA i) == 3
    || (if d.bit (Reg.IMG_COPYA_DIR i) then
        !within (d.copyFar i) n (d.outPart ar) || !within (d.copyNear i) n (d.outPart areaQ)
      else !within (d.copyFar i) n (d.inPart ar) || !within (d.copyNear i) n (d.areaBase areaI + 8, 0x1FEF8)))

/-- R213: overlaps and totals. -/
def Device.badCopies (d : Device) : List Nat :=
  let ins := d.copiesOf false
  let outs := d.copiesOf true
  let total := fun (l : List Nat) => (l.map (fun i => d.copyLen i)).sum
  (ins ++ outs).flatMap (fun i => d.badCopy i)
    ++ clashes (ins.map (fun i => (Reg.IMG_COPYA i, d.copyNear i, d.copyLen i)))
    ++ clashes (outs.map (fun i => (Reg.IMG_COPYA i, d.copyFar i, d.copyLen i)))
    ++ failIf (Reg.IMG_COPYA (ins.getLastD 0)) (decide (8192 < total ins))
    ++ failIf (Reg.IMG_COPYA (outs.getLastD 0)) (decide (8192 < total outs))

/-- The enabled hopper map entries. -/
def Device.hmaps (d : Device) : List Nat := (List.range 64).filter (fun i => d.bit (Reg.TRI_HMAPA_EN i))

/-- The range of a hopper map entry. -/
def Device.hmapRange (d : Device) (i : Nat) : Nat × Nat :=
  (d.areaBase (netArea (d.fld (Reg.TRI_HMAPA_AREA i))) + d.fld (Reg.TRI_HMAPA_OFF i), d.fld (Reg.TRI_HMAPB_LEN i))

/-- NEED_US of R253. -/
def Device.needUs (d : Device) : Nat := 5 + ((d.hmaps.map (fun i => d.fld (Reg.TRI_HMAPB_LEN i))).sum + 1023) / 1024

/-- The element size of a TRIPLE TYPE; 0 for a reserved one. -/
def tripleSize (ty : Nat) : Nat := if ty = 0 then 1 else if ty ≤ 2 then 2 else if ty ≤ 5 then 4 else 0

/-- R253. -/
def Device.badHopper (d : Device) : List Nat :=
  let need := d.needUs
  let hop := d.fld Reg.TICK_PHASE_HOP_US
  failIf Reg.TRI_HOP_STAT (decide (hop < need))
    ++ failIf Reg.TRI_RDM_CFG (decide (4 * (hop - need) < d.fld Reg.TRI_RDM_CFG_FINAL_KIB))
    ++ d.hmaps.flatMap (fun i =>
      let cls := d.fld (Reg.TRI_HMAPA_CLASS i)
      let ar := d.fld (Reg.TRI_HMAPA_AREA i)
      let size := tripleSize (d.fld (Reg.TRI_HMAPB_TYPE i))
      failIf (Reg.TRI_HMAPA i) (ar == 3 || !within (d.hmapRange i).1 (d.hmapRange i).2 (d.inPart (netArea ar))
        || (cls == 1 && d.fld (Reg.TRI_HMAPB_OWNER i) == 3)
        || (cls == 0 && (size == 0 || d.fld (Reg.TRI_HMAPB_LEN i) % size != 0))))
    ++ clashes (d.hmaps.map (fun i => (Reg.TRI_HMAPA i, d.hmapRange i)))

/-- The enabled vote map entries, and the range of one. -/
def Device.vmaps (d : Device) : List Nat := (List.range 32).filter (fun i => d.bit (Reg.TRI_VMAP_EN i))
def Device.vmapRange (d : Device) (i : Nat) : Nat × Nat :=
  (d.areaBase (voteArea (d.fld (Reg.TRI_VMAP_AREA i))) + 1024 * d.fld (Reg.TRI_VMAP_OFF_KIB i),
    1024 * d.fld (Reg.TRI_VMAP_LEN_KIB i))

/-- The vote window that the vote map asks for: 4 + ceil(V / 32). -/
def Device.voteNeed (d : Device) : Nat := 4 + ((d.vmaps.map (fun i => d.fld (Reg.TRI_VMAP_LEN_KIB i))).sum + 31) / 32

/-- R256. -/
def Device.badVmap (d : Device) : List Nat :=
  failIf Reg.TICK_PHASE (decide (d.fld Reg.TICK_PHASE_VWIN_US < d.voteNeed))
    ++ d.vmaps.flatMap (fun i => failIf (Reg.TRI_VMAP i)
      (!within (d.vmapRange i).1 (d.vmapRange i).2 (d.outPart (voteArea (d.fld (Reg.TRI_VMAP_AREA i))))))
    ++ clashes (d.vmaps.map (fun i => (Reg.TRI_VMAP i, d.vmapRange i)))

/-- R271 and R277. -/
def Device.badFo (d : Device) : List Nat :=
  let en := d.bit Reg.FO_CFG_EN
  let st := d.bit Reg.SYS_ROLE_STATION
  let regs := (List.range 16).filter (fun i => d.bit (Reg.FO_SREGA_EN i))
  let range := fun i => (d.areaBase (d.fld (Reg.FO_SREGA_AREA i)) + 256 * d.fld (Reg.FO_SREGA_OFF_GR i),
    256 * d.fld (Reg.FO_SREGB_LEN_GR i))
  let buf : List (Nat × Nat × Nat) :=
    if en then [(Reg.FO_BUF, 256 * d.fld Reg.FO_BUF_BASE_GR, 256 * d.fld Reg.FO_BUF_SIZE_GR)] else []
  failIf Reg.FO_CFG ((en && (d.fld Reg.FO_CFG_UNIT == 0 || !d.bit (Reg.KL_CFG_EN 2) || st))
      || (d.bit Reg.FO_CFG_ST_EN && !st))
    ++ regs.flatMap (fun i =>
      let ar := d.fld (Reg.FO_SREGA_AREA i)
      let out := ar == areaQ || ar == areaS || ar == areaN || ar == areaA
      failIf (Reg.FO_SREGA i) (!(out || ar == areaM || ar == areaD)
        || !within (range i).1 (range i).2 (if out then d.outPart ar else (d.areaBase ar, d.areaSize ar))))
    ++ failIf Reg.FO_BUF (buf.any (fun b => !within b.2.1 b.2.2 (0, 0x800000)))
    ++ clashes ((Reg.FO_SREGA 0, 0x7F0000, 0x10000) :: regs.map (fun i => (Reg.FO_SREGA i, range i)) ++ buf)

/-- R302: one schedule. G in ns. -/
def Device.badSched (d : Device) (k : Nat) : List Nat :=
  let n := min 64 (d.sbCnt k)
  let g := d.guardNs
  let ty := fun w => d.fld (Reg.SB_WIN_A_TYPE k w)
  let start := fun w => d.fld (Reg.SB_WIN_A_START_US k w)
  let len := fun w => d.fld (Reg.SB_WIN_A_LEN_US k w)
  let fid := fun w => d.fld (Reg.SB_WIN_B_FID k w)
  let hi := fun w => d.fld (Reg.SB_WIN_B_FID_HI k w)
  let ids := fun w => if ty w = 2 then (fid w, hi w + 1 - fid w) else (fid w, 1)
  (List.range n).flatMap (fun w =>
      failIf (Reg.SB_WIN_A k w)
        ((if w = 0 then ty w != 0 || start w != 0 || decide (1000 * len w < 4 * g + 3000 * d.fld Reg.SB_REF_CFG_REF_GAP_US + 13920)
          else ty w == 0 || decide (start w < start (w - 1) + len (w - 1)))
        || decide (d.periodUs < start w + len w + 10)
        || ((ty w == 1 || ty w == 2) && fid w == 0)
        || (ty w == 2 && (decide (hi w < fid w) || decide (fid w + 256 ≤ hi w)))
        || (ty w == 1 && (List.range 256).any (fun e => d.bit (Reg.SB_TRIG_W0_EN e) && d.bit (Reg.SB_TRIG_W0_DIR e)
            && d.fld (Reg.SB_TRIG_W0_FID e) == fid w
            && decide (1000 * len w < 3680 + 1280 * d.fld (Reg.SB_TRIG_W1_LEN_U e) + 4 * g)))))
    ++ clashes (((List.range n).filter (fun w => ty w == 1 || ty w == 2)).map (fun w => (Reg.SB_WIN_A k w, ids w)))

/-- The loaded schedules. -/
def Device.schedsLoaded (d : Device) : List Nat := (List.range 4).filter (fun k => d.sbCnt k != 0)

/-- R303 for one trigger entry. -/
def Device.badTrig (d : Device) (e : Nat) : List Nat :=
  if !d.bit (Reg.SB_TRIG_W0_EN e) then []
  else
    let tx := d.bit (Reg.SB_TRIG_W0_DIR e)
    let fid := d.fld (Reg.SB_TRIG_W0_FID e)
    let rep := d.fld (Reg.SB_TRIG_W0_REP e)
    let src := d.fld (Reg.SB_TRIG_W0_SRC e)
    let len := d.fld (Reg.SB_TRIG_W1_LEN_U e)
    failIf (Reg.SB_TRIG_W0 e) (decide (2 ^ rep ≤ d.fld (Reg.SB_TRIG_W0_BASE e))
      || d.schedsLoaded.any (fun k => decide (d.sbM k < rep)) || fid == 0
      || (tx && (List.range e).any (fun f => d.bit (Reg.SB_TRIG_W0_EN f) && d.bit (Reg.SB_TRIG_W0_DIR f)
          && d.fld (Reg.SB_TRIG_W0_FID f) == fid))
      || (tx && (decide (4 < src) || (src == 1 && len != 4) || (decide (2 ≤ src) && decide (src ≤ 4) && len != 2)))
      || (tx && d.fld (Reg.SB_TRIG_W1_NODE e) != 0)
      || (if tx then src == 0 && !within (d.sbBufAt e) (4 * len) (d.outPart areaN)
          else !within (d.sbBufAt e) (d.sbBufLen e) (d.inPart areaN)))

/-- R302, R303, R313. -/
def Device.badSb (d : Device) : List Nat :=
  let l := d.schedsLoaded
  let ref := fun k => d.fld (Reg.SB_WIN_A_LEN_US k 0)
  let id := d.fld Reg.SB_CFG_NODE_ID
  let listed := id != 0 && [d.fld Reg.SB_MASTERS_RANK_0, d.fld Reg.SB_MASTERS_RANK_1, d.fld Reg.SB_MASTERS_RANK_2,
    d.fld Reg.SB_MASTERS_RANK_3].contains id
  l.flatMap (fun k => d.badSched k)
    ++ failIf Reg.SB_WIN_CNT (l.any (fun k => ref k != ref (l.headD 0)))
    ++ failIf Reg.SB_MTX_CFG (!l.isEmpty && !l.contains (d.fld Reg.SB_MTX_CFG_INIT_SCHED))
    ++ (List.range 256).flatMap (fun e => d.badTrig e)
    ++ failIf Reg.SB_CFG (d.bit Reg.SB_CFG_EN && d.bit Reg.SB_CFG_COLDSTART != listed)

/-- The container of a connection in N, and its S block. -/
def Device.scAt (d : Device) (n : Nat) : Nat × Nat := (d.areaBase areaN + d.fld (Reg.SC_CONN_W2_N_OFF n), d.scLen n)
def Device.scBlockAt (d : Device) (n : Nat) : Nat × Nat :=
  (d.areaBase areaS + d.fld (Reg.SC_CONN_W3_S_OFF n), (if d.scRx n then 8 else 4) + 4 * d.fld (Reg.SC_CONN_W1_LEN_W n))

/-- R363 for one connection. -/
def Device.badConn (d : Device) (n : Nat) : List Nat :=
  let rx := d.scRx n
  if !rx && !d.scTx n then []
  else
    let key := d.fld (Reg.SC_CONN_W1_KEY_IDX n)
    let loaded := if key < 32 then d.bitAt Reg.SC_KEY_VALID_0_VALID key else d.bitAt Reg.SC_KEY_VALID_1_VALID (key - 32)
    let same := fun m => (if rx then d.scRx m else d.scTx m)
      && d.fld (Reg.SC_CONN_W0_CONN_ID m) == d.fld (Reg.SC_CONN_W0_CONN_ID n)
      && d.fld (Reg.SC_CONN_W1_DBIT m) == d.fld (Reg.SC_CONN_W1_DBIT n)
    failIf (Reg.SC_CONN_W0 n) (d.fld (Reg.SC_CONN_W0_CONN_ID n) == 0 || (List.range n).any same)
      ++ failIf (Reg.SC_CONN_W1 n) (decide (60 < d.fld (Reg.SC_CONN_W1_LEN_W n))
        || (d.bit (Reg.SC_CONN_W1_AUTH n) && !loaded)
        || (rx && (d.fld (Reg.SC_CONN_W1_SUBST n) == 3
          || (d.fld (Reg.SC_CONN_W1_SUBST n) == 2 && !d.bit Reg.SC_SUBST_BASE_EN))))
      ++ failIf (Reg.SC_CONN_W2 n) (!within (d.scAt n).1 (d.scAt n).2 (if rx then d.inPart areaN else d.outPart areaN)
        || (rx && d.isLane && !d.hmaps.any (fun i => d.fld (Reg.TRI_HMAPA_CLASS i) == 2
            && within (d.scAt n).1 (d.scAt n).2 (d.hmapRange i))))
      ++ failIf (Reg.SC_CONN_W3 n) (!within (d.scBlockAt n).1 (d.scBlockAt n).2 (if rx then d.inPart areaS else d.outPart areaS))
      ++ failIf (Reg.SC_CONN_W4 n) (rx && decide (1000 * d.fld (Reg.SC_CONN_W4_WD_MS n)
          < d.atLeast1 (Reg.SC_CONN_W1_SEND_N n) * d.periodUs))

/-- T_FORM of R365. -/
def Device.tForm (d : Device) : Nat :=
  let k := ((List.range 256).map (fun n =>
    if d.scTx n then (d.scLen n + 15) / 16 * (if d.bit (Reg.SC_CONN_W1_AUTH n) then 2 else 1) else 0)).sum
  1 + (k + 49) / 50

/-- R363, R365. -/
def Device.badSc (d : Device) : List Nat :=
  let conns := (List.range 256).filter (fun n => d.bit (Reg.SC_CONN_W1_EN n))
  let outs := (d.copiesOf true).map (fun i => (d.copyFar i, d.copyLen i))
  let ack : List (Nat × Nat × Nat) :=
    if d.bit Reg.SC_CFG_ACK_EN then [(Reg.SC_CFG, d.areaBase areaS + d.fld Reg.SC_CFG_ACK_OFF, 32)] else []
  let ranges := conns.flatMap (fun n => [(Reg.SC_CONN_W2 n, d.scAt n), (Reg.SC_CONN_W3 n, d.scBlockAt n)]) ++ ack
  conns.flatMap (fun n => d.badConn n)
    ++ failIf Reg.SC_CFG (ack.any (fun a => !within a.2.1 a.2.2 (d.outPart areaS)))
    ++ clashes ranges
    ++ (ranges.filter (fun x => outs.any (fun o => rangesMeet x.2 o))).map (fun x => x.1)
    ++ failIf Reg.TICK_PHASE (decide (d.fld Reg.TICK_PHASE_VWIN_US < d.tForm + (if d.isLane then d.voteNeed else 0)))

/-- R384 for one group. -/
def Device.badGroup (d : Device) (g : Nat) : List Nat :=
  if !d.bit (Reg.SF_LOCKA_EN g) then []
  else
    let dem := d.fld (Reg.SF_LOCKB_DEMAND g)
    let dis := d.fld (Reg.SF_LOCKB_DISC g)
    let trip := d.fld (Reg.SF_LOCKA_TRIP g)
    let req := d.bit (Reg.SF_LOCKA_REQ g)
    let pairs := (List.range 16).filter (fun p => dem.testBit p || dis.testBit p)
    failIf (Reg.SF_LOCKC g) (d.fld (Reg.SF_LOCKC_OUT g) == 0)
      ++ failIf (Reg.SF_LOCKA g) ((dem == 0 && dis == 0 && trip == 0 && !req && !d.bit (Reg.SF_LOCKA_START_LOCK g))
        || pairs.contains (d.fld (Reg.SF_LOCKA_RESET_DI g) / 2)
        || (List.range 4).any (fun t => trip.testBit t && !d.bit (Reg.SF_TRIP_CFG_EN t))
        || (req && !d.bit Reg.SF_REQ_POS_EN))
      ++ failIf (Reg.SF_LOCKB g) (pairs.any (fun p => !d.bit (Reg.SF_PAIR_CFG_EN p)))

/-- R384, R386, R393. -/
def Device.badSf (d : Device) : List Nat :=
  let off := d.fld Reg.SF_REQ_POS_OFF
  let code := fun k => d.fld (Reg.SF_SEAL_ENT_CODE k)
  (List.range 8).flatMap (fun g => d.badGroup g)
    ++ failIf Reg.SF_REQ_POS (d.bit Reg.SF_REQ_POS_EN && decide (0x1FF00 ≤ off) && decide (off ≤ 0x1FF02))
    ++ (List.range 4).flatMap (fun t => failIf (Reg.SF_TRIP_CFG t)
      (d.bit (Reg.SF_TRIP_CFG_EN t) && decide (10 < d.fld (Reg.SF_TRIP_CFG_FILT_US t))))
    ++ (List.range 4).flatMap (fun k => failIf (Reg.SF_SEAL_ENT k)
      (d.bit (Reg.SF_SEAL_ENT_EN k) && (code k == 0 || code k == 0xFF
        || (List.range k).any (fun j => d.bit (Reg.SF_SEAL_ENT_EN j) && code j == code k))))

/-- R407, R415. -/
def Device.badFld (d : Device) : List Nat :=
  let us := d.fld Reg.FLD_DT_CFG_DT_US
  let off := d.fld Reg.FLD_DT_OFF_DT_OFF_US
  (List.range 4).flatMap (fun g =>
      let mode := d.fld (Reg.FLD_DI_GRP_MODE g)
      let dx := d.fld (Reg.FLD_DI_GRP_DX g)
      failIf (Reg.FLD_DI_GRP g) (decide (2 ≤ mode) || dx == 3 || (dx == 2 && mode == 1)))
    ++ failIf Reg.FLD_DT_CFG ((List.range 24).any (fun c => d.bit (Reg.FLD_CH_CFG_EN c) && d.bit (Reg.FLD_CH_CFG_DT_EN c))
      && (decide (us < 50) || decide (400 < us) || decide (off < 80) || decide (d.voteUs < off + us)))

/-- A filter is enabled in a bank. -/
def Device.filtOn (d : Device) (bank f : Nat) : Bool := if bank = 0 then d.bit (Reg.SIG_FILTA_EN f) else d.bit (Reg.SIG_FILTB_EN f)

/-- A chain's filter is enabled in each bank that the chain can use. -/
def Device.filtOk (d : Device) (f : Nat) (banked : Bool) : Bool := d.filtOn 0 f && (!banked || d.filtOn 1 f)

/-- R450 for one input channel and one output. -/
def Device.badIn (d : Device) (i : Nat) : List Nat :=
  if !d.bit (Reg.SIG_IN_CFG_EN i) then []
  else
    let k := d.fld (Reg.SIG_IN_CFG_DCB_K i)
    let n := d.fld (Reg.SIG_IN_CFG_NBUF i)
    let off := d.fld (Reg.SIG_IN_POS_OFF i)
    failIf (Reg.SIG_IN_CFG i) (d.fld (Reg.SIG_IN_CFG_SINC_K i) == 0 || decide (k < 8) || decide (24 < k) || decide (64 < n)
        || !d.filtOk (d.fld (Reg.SIG_IN_CFG_FILT i)) (d.bit (Reg.SIG_IN_CFG_BANKED i)))
      ++ failIf (Reg.SIG_IN_POS i) (off % 4 != 0 || !within (d.areaBase areaA + off) (16 + 4 * n) (d.inPart areaA))
def Device.badOut (d : Device) (k : Nat) : List Nat :=
  if !d.bit (Reg.SIG_OUT_CFG_EN k) then []
  else
    let f := d.fld (Reg.SIG_OUT_CFG_FILT k)
    let j := d.fld (Reg.SIG_OUT_CFG_OUT_J k)
    let off := d.fld (Reg.SIG_OUT_CFG_OFF k)
    failIf (Reg.SIG_OUT_CFG k) (decide (f < 4) || decide (j < 4) || decide (10 < j) || off % 4 != 0
      || !d.filtOk f (d.bit (Reg.SIG_OUT_CFG_BANKED k)) || !within (d.areaBase areaA + off) 4 (d.outPart areaA))

/-- The blocks of A that SIG uses. -/
def Device.sigBlocks (d : Device) : List (Nat × Nat × Nat) :=
  ((List.range 16).filter (fun i => d.bit (Reg.SIG_IN_CFG_EN i))).map (fun i =>
      (Reg.SIG_IN_POS i, d.areaBase areaA + d.fld (Reg.SIG_IN_POS_OFF i), 16 + 4 * d.fld (Reg.SIG_IN_CFG_NBUF i)))
    ++ ((List.range 8).filter (fun k => d.bit (Reg.SIG_OUT_CFG_EN k))).map (fun k =>
      (Reg.SIG_OUT_CFG k, d.areaBase areaA + d.fld (Reg.SIG_OUT_CFG_OFF k), 4))
    ++ (if d.bit Reg.SIG_SWAP_POS_EN then [(Reg.SIG_SWAP_POS, d.areaBase areaA + d.fld Reg.SIG_SWAP_POS_OFF, 1)] else [])

/-- A coefficient is 24 bits, sign-extended. -/
def coefOk (w : Nat) : Bool := decide (w < 0x800000) || decide (0xFF800000 ≤ w)

/-- R443, R450. VREF_NOM is compared by its bits: 0.25 and the f32 below 0.8. -/
def Device.badSig (d : Device) : List Nat :=
  let v := (d.rd Reg.SIG_VREF).toNat
  let rot := d.atLeast1 Reg.SIG_CAL_CFG_ROT_S
  failIf Reg.SIG_VREF (decide (v < 0x3E800000) || decide (0x3F4CCCCD < v))
    ++ failIf Reg.SIG_CAL_CFG (decide (rot * 200 < 2 * d.atLeast1 Reg.SIG_CAL_CFG_CAL_MS + 20))
    ++ (List.range 8).flatMap (fun f =>
      failIf (Reg.SIG_FILTA f) (d.bit (Reg.SIG_FILTA_EN f)
          && (d.fld (Reg.SIG_FILTA_NTAPS f) == 0 || decide (128 < d.fld (Reg.SIG_FILTA_NTAPS f))))
        ++ failIf (Reg.SIG_FILTB f) (d.bit (Reg.SIG_FILTB_EN f)
          && (d.fld (Reg.SIG_FILTB_NTAPS f) == 0 || decide (128 < d.fld (Reg.SIG_FILTB_NTAPS f)))))
    ++ (List.range 16).flatMap (fun i => d.badIn i)
    ++ (List.range 8).flatMap (fun k => d.badOut k)
    ++ (List.range 32).flatMap (fun t =>
      let h := (d.rd (Reg.SIG_THR_C t)).toNat
      failIf (Reg.SIG_THR_C t) (d.bit (Reg.SIG_THR_A_EN t) && decide (0x80000000 < h)))
    ++ (d.regs.filter (fun e => decide (Reg.SIG_COEF 0 0 0 ≤ e.1) && decide (e.1 < Reg.SIG_COEF 2 0 0)
      && !coefOk e.2.toNat)).map (fun e => e.1)
    ++ failIf Reg.SIG_SWAP_POS (d.bit Reg.SIG_SWAP_POS_EN
      && !within (d.areaBase areaA + d.fld Reg.SIG_SWAP_POS_OFF) 1 (d.outPart areaA))
    ++ clashes d.sigBlocks

/-- R486 (LDR_MIG 0–126), R501, R522, R531, R571, R353. -/
def Device.badRest (d : Device) : List Nat :=
  failIf Reg.TB_PPS_CFG (decide (5 ≤ d.fld Reg.TB_PPS_CFG_SYNC_SRC))
    ++ failIf Reg.LDR_MIG (decide (126 < d.fld Reg.LDR_MIG_MIG_BASE))
    ++ failIf Reg.HP_HWIN (decide (2032 < d.fld Reg.HP_HWIN_BASE_4K + d.fld Reg.HP_HWIN_SIZE_4K))
    ++ (List.range 16).flatMap (fun r => failIf (Reg.MB_RES_CFG r) (d.bit (Reg.MB_RES_CFG_EN r)
      && (d.fld (Reg.MB_RES_CFG_OFF r) % 64 != 0
        || !within (d.areaBase areaN + d.fld (Reg.MB_RES_CFG_OFF r)) 64 (d.outPart areaN))))
    ++ (d.regs.filter (fun e => decide (0x4141000 ≤ e.1) && decide (e.1 < 0x4143000)
      && decide (5 ≤ bitsOf e.2 16 3))).map (fun e => e.1)
    ++ (List.range 3).flatMap (fun g => failIf (Reg.PWR_WEIR g) ((List.range 8).any (fun c =>
      d.bit (Reg.FLD_CH_CFG_EN (8 * g + c)) && decide (10 * d.fld (Reg.PWR_WEIR_BUD_10MA g) < d.inrMa (8 * g + c)))))

/-- The registers that break a configuration rule, in the order of the blocks. -/
def Device.badRules (d : Device) : List Nat :=
  d.badRole ++ d.badTick ++ d.badTask ++ d.badSplit ++ d.badCopies
    ++ (if d.isLane then d.badHopper ++ d.badVmap else []) ++ d.badFo ++ d.badSb ++ d.badSc ++ d.badSf ++ d.badFld
    ++ d.badSig ++ d.badRest

end Sys2Proof.Machine
end

