-- ==== Sys2Proof/Machine/Ldr.lean ====
section
/-! DEFINITION. The loader: configuration image (R474–R477), signatures (R478), bundle slots (R479–R483), the no-service
state (R484), restart types (R485–R487), activation (R490, R491) and boot from Kloul or the host (R492, R493). -/

namespace Sys2Proof.Machine

/-! ## Pages of regions -/

/-- Pages of a block, and bytes of a page, of the store in use. -/
def Device.ppb (d : Device) : Nat := (d.store.map (fun x => x.ppb)).getD 0
def Device.pageSize (d : Device) : Nat := (d.store.map (fun x => x.page)).getD 0

/-- Pages of a region. -/
def Device.regPages (d : Device) (r : Nat) : Nat := (sget noBlocks d.nvm.map r).length * d.ppb

/-- Read n consecutive logical pages of a region from page p on; none where a codeword is uncorrectable. -/
def Device.regionPages (d : Device) (r p : Nat) : Nat → Option (List Byte) × Device
  | 0 => (some [], d)
  | n + 1 =>
    match d.phys r (p / max 1 d.ppb) with
    | none => (none, d)
    | some b =>
      match d.readPage b (p % max 1 d.ppb) with
      | (none, d1) => (none, d1)
      | (some l, d1) =>
        match d1.regionPages r (p + 1) n with
        | (none, d2) => (none, d2)
        | (some m, d2) => (some (l ++ m), d2)

/-- The operation that programs logical page p of a region. -/
def Device.progOp (d : Device) (r p : Nat) (data : List Byte) : NvmOp := .prog r (p / max 1 d.ppb) (p % max 1 d.ppb) data

/-- Program a page at once, during the start. -/
def Device.progNow (d : Device) (r p : Nat) (data : List Byte) : Device :=
  match d.phys r (p / max 1 d.ppb) with
  | some b => d.onStore (fun x => storeProg x b (p % max 1 d.ppb) data)
  | none => d

/-! ## The configuration image (R475, R476, R478) -/

/-- The mask of the fields of a register whose Reset column reads "cfg". -/
def cfgMask (a : Nat) : Nat :=
  match rowOf a with
  | none => 0
  | some r =>
    r.rwl ||| (if a = Reg.TICK_CFG then 3
      else if a = Reg.TRI_JOIN_CRC then 0xFFFFFFFF
      else if a = Reg.TRI_HOP_STAT then 0x1FF
      else if a = Reg.FO_BUF then 0x3FFF0000
      else if Reg.TASK_ROUTE 0 ≤ a ∧ a < Reg.TASK_ROUTE 256 then 0x40000000
      else if Reg.SF_SEAL_ENT 0 ≤ a ∧ a < Reg.SF_SEAL_ENT 4 then 0x807F00FF
      else 0)

def cfgLen (l : List Byte) : Nat := numAt l 8 4
def cfgSeq (l : List Byte) : Nat := numAt l 12 4
def cfgFlags (l : List Byte) : Nat := numAt l 17 1

/-- The sections: type, offset, length, CRC. -/
def cfgSections (l : List Byte) : List (Nat × Nat × Nat × Nat) :=
  (List.range (numAt l 24 2)).map (fun i =>
    (numAt l (32 + 16 * i) 2, numAt l (36 + 16 * i) 4, numAt l (40 + 16 * i) 4, numAt l (44 + 16 * i) 4))

/-- The section of a type: offset and length. -/
def cfgSection (l : List Byte) (ty : Nat) : Option (Nat × Nat) :=
  ((cfgSections l).find? (fun x => decide (x.1 = ty))).map (fun x => (x.2.1, x.2.2.1))

/-- The REGLOAD records of a section: address and value. -/
def regLoads (l : List Byte) (off len : Nat) : List (Nat × Nat) :=
  (List.range (len / 8)).map (fun i => (numAt l (off + 8 * i) 4, numAt l (off + 8 * i + 4) 4))

/-- The content of a section obeys R476. -/
def sectionOk (l : List Byte) (x : Nat × Nat × Nat × Nat) : Bool :=
  let off := x.2.1
  let len := x.2.2.1
  (crc32c ((l.drop off).take len)).toNat == x.2.2.2
    && (if x.1 = 1 then len % 8 == 0
          && (regLoads l off len).all (fun r => cfgMask r.1 != 0 && (r.2 &&& cfgMask r.1) == r.2)
        else if x.1 = 2 then len % 20 == 0 && (List.range (len / 20)).all (fun i =>
          decide (numAt l (off + 20 * i) 1 < 64) && numAt l (off + 20 * i + 1) 3 == 0)
        else if x.1 = 3 then decide (len ≤ 65536)
        else x.1 == 4 && len == 4)

/-- Every check of R475–R477 on an image of L bytes. -/
def cfgFormat (l : List Byte) : Bool :=
  let n := cfgLen l
  let s := numAt l 24 2
  let secs := cfgSections l
  numAt l 0 4 == 0x31474643 && numAt l 4 2 == 1 && numAt l 6 2 == 0 && n % 4 == 0 && decide (n ≤ 262144)
    && decide (n ≤ l.length) && decide (1 ≤ s) && decide (s ≤ 16) && decide (32 + 16 * s + 132 ≤ n)
    && numAt l 16 1 != 0 && decide (cfgFlags l < 16) && leNat ((l.drop 26).take 6) == 0
    && numAt l (n - 4) 4 == (crc32c (l.take (n - 4))).toNat
    && secs.all (fun x => decide (32 + 16 * s ≤ x.2.1) && decide (x.2.1 + x.2.2.1 ≤ n - 132) && sectionOk l x)
    && (List.range s).all (fun i => numAt l (34 + 16 * i) 2 == 0)
    && secs.all (fun x => decide ((secs.filter (fun y => decide (y.1 = x.1))).length = 1))
    && !anyMeet (secs.map (fun x => (x.2.1, x.2.2.1)))
    && ((cfgFlags l).testBit 2 || leNat ((l.drop (n - 132)).take 128) == 0)

/-- The public key of an image, as bytes. -/
def cfgKey (l : List Byte) : List Byte := (l.drop (cfgLen l - 132)).take 64

/-- A signature of 64 bytes verifies over a message under a public key of 64 bytes. -/
def sigOk (key sig msg : List Byte) : Bool :=
  ecdsaOk (sha256 (natsOf msg)) (beNat (natsOf (sig.take 32))) (beNat (natsOf (sig.drop 32))) (beNat (natsOf (key.take 32)))
    (beNat (natsOf (key.drop 32)))

/-- The signature checks of R478 on a configuration. -/
def Device.cfgSigned (d : Device) (l : List Byte) : Bool :=
  let n := cfgLen l
  let req := (cfgFlags l).testBit 2
  if d.sys.pkh = 0 then !req
  else req && decide (sha256 (natsOf (cfgKey l)) = d.sys.pkh) && sigOk (cfgKey l) ((l.drop (n - 68)).take 64) (l.take (n - 68))

def Device.cfgValid (d : Device) (l : List Byte) : Bool := cfgFormat l && d.cfgSigned l

/-- First page and pages of a configuration copy, its commit page included (R474). -/
def Device.copyBase (d : Device) (c : Nat) : Nat := c * ((sget noBlocks d.nvm.map 0).length / 2) * d.ppb
def Device.copyPagesN (d : Device) : Nat := (sget noBlocks d.nvm.map 0).length / 2 * d.ppb

/-- The image that lies in a copy, if its pages can be read. -/
def Device.copyImage (d : Device) (c : Nat) : Option (List Byte) × Device :=
  if d.copyPagesN < 2 then (none, d)
  else
    match d.regionPages 0 (d.copyBase c) 1 with
    | (none, d1) => (none, d1)
    | (some h, d1) =>
      let n := (cfgLen h + d1.pageSize - 1) / max 1 d1.pageSize
      if cfgLen h ≤ 262144 ∧ n < d1.copyPagesN then
        match d1.regionPages 0 (d1.copyBase c) n with
        | (none, d2) => (none, d2)
        | (some l, d2) => (some (l.take (cfgLen h)), d2)
      else (some h, d1)

/-- The commit page of an image. -/
def commitPage (l : List Byte) : List Byte :=
  let h := leBytes 4 0x314D4343 ++ leBytes 4 (cfgSeq l) ++ leBytes 4 (numAt l (cfgLen l - 4) 4)
  h ++ leBytes 4 (crc32c h).toNat

/-- A copy: its image if commit page, format and signature are valid; event 0x385 for an invalid one when `told`. -/
def Device.copyRead (d : Device) (c : Nat) (told : Bool) : Option (List Byte) × Device :=
  match d.copyImage c with
  | (l, d1) =>
    match d1.regionPages 0 (d1.copyBase c + d1.copyPagesN - 1) (if d1.copyPagesN < 2 then 0 else 1) with
    | (p, d2) =>
      let ok := match l, p with
        | some x, some y => d2.cfgValid x && decide (y.take 16 = commitPage x)
        | _, _ => false
      if ok then (l, d2)
      else if told then
        match l with
        | some x => (none, d2.raise 0x385 [wd c, wd (cfgSeq x)])
        | none => (none, (d2.free.2).raise 0x385 [wd c, d2.free.1])
      else (none, d2)

/-- The copy with the highest CFG_SEQ among the valid ones. -/
def Device.copyBest (d : Device) (told : Bool) : Option (Nat × List Byte) × Device :=
  match d.copyRead 0 told with
  | (a, d1) =>
    match d1.copyRead 1 told with
    | (b, d2) =>
      (match a, b with
        | some x, some y => if cfgSeq x < cfgSeq y then some (1, y) else some (0, x)
        | some x, none => some (0, x)
        | none, some y => some (1, y)
        | none, none => none, d2)

/-! ## Applying a configuration (step 3 of R472) -/

/-- Every field with reset "cfg" takes the default of its description (log 3). -/
def Device.cfgDefaults (d : Device) : Device :=
  d.regs.foldl (fun d e =>
    let m := wd (cfgMask e.1)
    if m = 0 then d else d.wr e.1 ((e.2 &&& ~~~m) ||| (regReset e.1 &&& m))) d

/-- Apply REGLOAD records in order. -/
def Device.loadRegs (d : Device) : List (Nat × Nat) → Device
  | [] => d
  | (a, v) :: t => (d.wr a ((d.rd a &&& ~~~wd (cfgMask a)) ||| wd v)).loadRegs t

/-- LDR_PKH: word 0 holds the first four bytes of the hash, byte 0 in [7:0]. -/
def Device.showPkh (d : Device) : Device :=
  let bs := leBytes 32 d.sys.pkh
  forN 8 (fun i d => d.wr (Reg.LDR_PKH i) (wd (numAt bs.reverse (4 * i) 4))) d

/-- Write a key slot of the key store (R360). -/
def Device.loadKey (d : Device) (slot : Nat) (key : List Byte) : Device :=
  let d1 : Device := { d with sc := { d.sc with keys := sput key0 d.sc.keys slot key } }
  if slot < 32 then d1.setBitAt Reg.SC_KEY_VALID_0_VALID slot true else d1.setBitAt Reg.SC_KEY_VALID_1_VALID (slot - 32) true

/-- The words of a block's registers that the configuration loads, in offset order (R244). -/
def Device.loadedWords (d : Device) (base : Nat) : List Byte :=
  ((List.range 16384).map (fun k =>
    match rowOf (base + 4 * k) with
    | some r => if r.rwl = 0 then [] else leBytes 4 ((d.rd (base + 4 * k)).toNat &&& r.rwl)
    | none => [])).flatten

/-- TRI_JOIN_CRC (R244). -/
def Device.joinCrc (d : Device) : Word :=
  crc32c (([Reg.TICK_CFG, Reg.TICK_PERIOD, Reg.TICK_PHASE, Reg.TICK_EARLY, Reg.TICK_WD].map (fun a =>
    leBytes 4 (d.rd a).toNat)).flatten ++ d.loadedWords 0x4030000 ++ d.loadedWords 0x4060000)

/-- The fields that the loader computes from the configuration. -/
def Device.computedFields (d : Device) : Device :=
  let d1 := forN 256 (fun n d => d.setB (Reg.TASK_ROUTE_LOCAL n) (d.isLane && d.classL n)) d
  let d2 := d1.setF Reg.FO_BUF_SIZE_GR ((d1.copyParts.map (fun p => p.grans)).sum)
  let d3 := d2.setF Reg.TRI_HOP_STAT_NEED_US (min 511 d2.needUs)
  d3.wr Reg.TRI_JOIN_CRC d3.joinCrc

/-- CFG_ROLE of R477. -/
def cfgRole (mask strap : Nat) : Nat :=
  if mask.testBit strap then strap else ((List.range 8).find? (fun i => mask.testBit i)).getD 0

/-- A configuration image is written into the registers, the key store and the substitute table. -/
def Device.applyConfig (d : Device) (l : List Byte) : Device :=
  let d0 := d.cfgDefaults
  let d1 := match cfgSection l 1 with
    | some (off, len) => d0.loadRegs (regLoads l off len)
    | none => d0
  let d2 := ({ d1 with sc := { d1.sc with keys := [] } } : Device).wr Reg.SC_KEY_VALID_0 0 |>.wr Reg.SC_KEY_VALID_1 0
  let d3 := match cfgSection l 2 with
    | some (off, len) => forN (len / 20) (fun i d => d.loadKey (numAt l (off + 20 * i) 1) ((l.drop (off + 20 * i + 4)).take 16)) d2
    | none => d2
  let d4 := match cfgSection l 3 with
    | some (off, len) => (d3.busWrite 3 (d3.fld Reg.SC_SUBST_BASE_BASE) ((l.drop off).take len)).2
    | none => d3
  let key := match cfgSection l 4 with
    | some (off, _) => wd (numAt l off 4)
    | none => 0
  let d5 : Device := { d4 with evr := { d4.evr with key := key }, ldr := { d4.ldr with cfg := l } }
  let f := cfgFlags l
  let d6 := (((d5.setF Reg.SYS_ROLE_CFG_ROLE (cfgRole (numAt l 16 1) d5.role)).setB Reg.SYS_ROLE_STATION (f.testBit 0)).setB
    Reg.SYS_ROLE_ARBITER (f.testBit 1)).computedFields
  ((d6.setB Reg.SYS_ROLE_ROLE_MATCH d6.badRole.isEmpty).setB Reg.LDR_STAT_SIG_REQ (f.testBit 2)).wr Reg.LDR_CFG_SEQ
    (wd (cfgSeq l))

/-- Event 0x384 for each register that breaks a rule. -/
def Device.ruleEvents (d : Device) : List Nat → Device
  | [] => d
  | a :: t => (d.raise 0x384 [wd (a / 0x10000 * 0x10000), wd (a % 0x10000)]).ruleEvents t

/-- Blocks that the configuration brings into service: after a reset of SYS level or deeper the time base and the signal
chain start with it; ports, the Sahtu node and the guardian follow their EN bits. -/
def Device.configEffects (d : Device) : Device :=
  let d1 := if 2 ≤ d.fld Reg.SYS_RST_LAST_LEVEL then d.tbStart.sigStart else d
  let d2 := forN 3 (fun p d =>
    if d.bit (Reg.KL_CFG_EN p) then (if d.klState p = klDown then d.klStart p else d)
    else d.setF (Reg.KL_STAT_STATE p) klDown) d1
  let d3 := if !d2.bit Reg.SB_CFG_EN then d2.setF Reg.SB_STAT_STATE sbOFF
    else if d2.sbState = sbOFF then d2.sbTo sbLISTEN
    else d2
  if d3.gdState = gdOFF ∧ d3.bit Reg.SYS_CLK_STAT_GXI_OK then d3.gdStart else d3

/-! ## The no-service state (R484) -/

def Device.noService (d : Device) (cause : Nat) : Device :=
  let d1 := ((((d.setF Reg.LDR_STAT_NOSVC_CAUSE cause).setF Reg.LDR_STAT_RTYPE 3).wr Reg.LDR_BUNDLE_ID 0).setF
    Reg.SYS_ROLE_NO_SERVICE 1).slAssert slStart
  (({ d1 with
    ldr := { d1.ldr with phase := 6 }
    tick := { d1.tick with released := false }
    tri := { d1.tri with laneOk := false } } : Device).raise 0x387 [wd cause]).cause 7

/-! ## Seal (step 4) -/

/-- Step 4: the seal's permissions, and the fields that only the loader writes lock (R12, R391); the arbiter function
needs CLAIM_ARBITER (R22); groups with START_LOCK lock (R381). -/
def Device.applySeal (d : Device) (pins : Nat) (loopHigh : Bool) : Device :=
  let d1 := d.sealRead pins loopHigh
  let d2 : Device := { d1 with ldr := { d1.ldr with locked := true } }
  let d3 := if d2.bit Reg.SYS_ROLE_ARBITER && !d2.perm permArb then
      (d2.setF Reg.SYS_ROLE_ARBITER 0).raise 0x18F [wd (d2.fld Reg.SF_SEAL_STAT_PERM_NOW)]
    else d2
  d3.startLocks

/-! ## Bundles (R479, R480, R483) -/

def bundleImages (l : List Byte) : Nat := numAt l 6 2
def bundleId (l : List Byte) : Nat := numAt l 8 4
def bundleLen (l : List Byte) : Nat := numAt l 12 4
def bundleHead (l : List Byte) : Nat := 64 + 32 * bundleImages l
def bundleRetVer (l : List Byte) : Nat := numAt l 22 2
def bundleMigFrom (l : List Byte) : List Nat := ((List.range 8).map (fun i => numAt l (24 + 2 * i) 2)).filter (fun v => v != 0)
def bundleAct (l : List Byte) : Nat := numAt l 40 8

/-- An image descriptor: kind, engine, offset, length, CRC. -/
structure BImage where
  kind : Nat
  eng : Nat
  off : Nat
  len : Nat
  crc : Nat
deriving DecidableEq, Repr

def bundleDescs (l : List Byte) : List BImage :=
  (List.range (bundleImages l)).map (fun i =>
    let a := 64 + 32 * i
    ⟨numAt l a 1, numAt l (a + 1) 1, numAt l (a + 4) 4, numAt l (a + 8) 4, numAt l (a + 12) 4⟩)

/-- The payload of an image. -/
def imagePayload (l : List Byte) (x : BImage) : List Byte := (l.drop (x.off + 16)).take (x.len - 16)

/-- REASON 1: the header of a bundle that may hold `room` bytes. -/
def bundleHeadOk (l : List Byte) (room : Nat) : Bool :=
  let h := bundleHead l
  numAt l 0 4 == 0x314E4442 && numAt l 4 2 == 1 && decide (1 ≤ bundleImages l) && decide (bundleImages l ≤ 26)
    && bundleId l != 0 && decide (h + 68 ≤ bundleLen l) && decide (bundleLen l ≤ room)
    && numAt l (h + 64) 4 == (crc32c (l.take (h + 64))).toNat

/-- The runs of a kind 1 payload: area, byte offset, bytes; none where it breaks off. -/
def pimRuns : Nat → List Byte → Option (List (Nat × Nat × List Byte))
  | 0, _ => none
  | n + 1, l =>
    if l.isEmpty then some []
    else
      let w := numAt l 2 2
      if l.length < 8 + 4 * w ∨ numAt l 1 1 ≠ 0 then none
      else (pimRuns n (l.drop (8 + 4 * w))).map (fun t => (numAt l 0 1, numAt l 4 4, (l.drop 8).take (4 * w)) :: t)

/-- A run lies inside Q, M or an outbound part. -/
def Device.runOk (d : Device) (x : Nat × Nat × List Byte) : Bool :=
  let ar := x.1
  let part := if ar = areaM then (d.areaBase areaM, d.areaSize areaM) else d.outPart ar
  (ar == areaQ || ar == areaM || ar == areaS || ar == areaN || ar == areaA)
    && within (d.areaBase ar + x.2.1) x.2.2.length part

/-- REASON 3 for one image. -/
def Device.imageOk (d : Device) (l : List Byte) (x : BImage) : Bool :=
  let p := imagePayload l x
  decide (16 ≤ x.len) && decide (x.off + x.len ≤ bundleLen l) && numAt l x.off 4 == 0x314D4749
    && numAt l (x.off + 4) 1 == x.kind && numAt l (x.off + 5) 1 == x.eng && numAt l (x.off + 12) 4 + 16 == x.len
    && (crc32c ((l.drop x.off).take x.len)).toNat == x.crc
    && (if x.kind = 0 then decide (x.eng < 24) && p.length % 4 == 0 && decide (p.length ≤ 131072)
        else if x.kind = 1 then match pimRuns (p.length + 1) p with
          | some rs => rs.all (fun r => d.runOk r)
          | none => false
        else x.kind == 2 && decide (p.length ≤ 65536))

/-- At most one image of a kind, and of kind 0 one per engine. -/
def imagesOnce (xs : List BImage) : Bool :=
  xs.all (fun x => decide ((xs.filter (fun y => decide (y.kind = x.kind) && (x.kind != 0 || y.eng == x.eng))).length = 1))

/-- Every check of R483 on the bytes of a bundle but that of a read error: the first that fails, 0 for none. The
configuration image says whether a signature is needed, the key, and IFMAP_VER. -/
def Device.bundleReason (d : Device) (cfg l : List Byte) (room : Nat) : Nat :=
  let xs := bundleDescs l
  let h := bundleHead l
  let step := d.fld Reg.DEV_ID_STEP
  if !bundleHeadOk l room then 1
  else if !(xs.all (fun x => d.imageOk l x) && imagesOnce xs) then 3
  else if (cfgFlags cfg).testBit 2 && !sigOk (cfgKey cfg) ((l.drop h).take 64) (l.take h) then 4
  else if step < numAt l 16 2 ∨ numAt l 18 2 < step then 5
  else if xs.any (fun x => decide (numAt l (x.off + 8) 4 ≠ bundleId l)) then 6
  else if numAt l 20 2 ≠ numAt cfg 18 2 then 7
  else 0

/-- An engine has a kind 0 image. -/
def holdsCode (l : List Byte) (e : Nat) : Bool := (bundleDescs l).any (fun x => decide (x.kind = 0) && decide (x.eng = e))

/-- The payload of the image of a kind (and of an engine for kind 0); empty without one. -/
def payloadOf (l : List Byte) (kind e : Nat) : List Byte :=
  match (bundleDescs l).find? (fun x => decide (x.kind = kind) && (kind != 0 || x.eng == e)) with
  | some x => imagePayload l x
  | none => []

/-! ## Slots (R482) -/

/-- What trailer, activation page and header of a slot say: armed, activated, cancelled, SLOT_SEQ, bundle ID, ACT_TIME. -/
structure Slot where
  armed : Bool
  act : Bool
  cancelled : Bool
  seq : Nat
  id : Nat
  time : Nat
deriving DecidableEq, Repr

/-- The trailer of a slot (R482), from the bundle's header bytes. -/
def trailerPage (seq : Nat) (h : List Byte) : List Byte :=
  let t := leBytes 4 0x314C5254 ++ leBytes 4 seq ++ leBytes 4 (bundleId h) ++ leBytes 4 (numAt h (bundleHead h + 64) 4)
  t ++ leBytes 4 (crc32c t).toNat

/-- The activation page: 1 activated, 2 cancelled. -/
def actPage (kind ts : Nat) : List Byte :=
  let t := leBytes 4 0x31544341 ++ leBytes 4 kind ++ leBytes 8 ts
  t ++ leBytes 4 (crc32c t).toNat

/-- A slot as its pages show it. -/
def Device.slotRead (d : Device) (k : Nat) : Slot × Device :=
  let n := d.regPages k
  if n < 2 then (⟨false, false, false, 0, 0, 0⟩, d)
  else
    match d.regionPages k (n - 2) 1 with
    | (t, d1) =>
      match d1.regionPages k (n - 1) 1 with
      | (a, d2) =>
        match d2.regionPages k 0 1 with
        | (h, d3) =>
          let tb := t.getD []
          let ab := a.getD []
          let armed := numAt tb 0 4 == 0x314C5254 && numAt tb 16 4 == (crc32c (tb.take 16)).toNat
          let page := numAt ab 0 4 == 0x31544341 && numAt ab 16 4 == (crc32c (ab.take 16)).toNat
          let time := bundleAct (h.getD [])
          (⟨armed, armed && ((page && numAt ab 4 4 == 1) || (h.isSome && time == 0)), armed && page && numAt ab 4 4 == 2,
            numAt tb 4 4, numAt tb 8 4, time⟩, d3)

/-- The status register of a slot. -/
def slotReg (k : Nat) : Nat := if k = 1 then Reg.LDR_SLOT_A else Reg.LDR_SLOT_B

/-- Show a slot in its register; REASON stays. -/
def Device.showSlot (d : Device) (k : Nat) (x : Slot) : Device :=
  d.wr (slotReg k) (wd (b2n x.armed * 2 ^ 31 + b2n x.act * 2 ^ 30 + b2n x.cancelled * 2 ^ 29
    + bitsOf (d.rd (slotReg k)) 16 4 * 2 ^ 16 + (if x.armed then x.seq % 65536 else 0)))

def Device.setReason (d : Device) (k reason : Nat) : Device := d.wr (slotReg k) (withBits (d.rd (slotReg k)) 16 4 reason)

/-- A slot is armed, not activated, not cancelled. -/
def Slot.pending (x : Slot) : Bool := x.armed && !x.act && !x.cancelled

/-- Read both slots, show them, and show the armed one (LDR_STAT, LDR_ACT). -/
def Device.slotsRead (d : Device) : Slot × Slot × Device :=
  match d.slotRead 1 with
  | (a, d1) =>
    match d1.slotRead 2 with
    | (b, d2) =>
      let d3 := (d2.showSlot 1 a).showSlot 2 b
      let k := if a.pending then 1 else if b.pending then 2 else 0
      let x := if a.pending then a else b
      let time := if k = 0 then 0 else x.time
      let d4 := (((d3.setB Reg.LDR_STAT_ARMED (k != 0)).setF Reg.LDR_STAT_ARMED_SLOT k).wr Reg.LDR_ACT_LO (wd time)).wr
        Reg.LDR_ACT_HI (wd (time / 2 ^ 32))
      (a, b, { d4 with ldr := { d4.ldr with armed := if k = 0 then none else some (wd x.id, x.time) } })

/-- The bundle that lies in a slot: its bytes and REASON 0, or the first failing check. -/
def Device.slotBundle (d : Device) (cfg : List Byte) (k : Nat) : (List Byte × Nat) × Device :=
  let room := (d.regPages k - 2) * d.pageSize
  match d.regionPages k 0 (if d.regPages k < 3 then 0 else 1) with
  | (none, d1) => (([], 2), d1)
  | (some h, d1) =>
    if !bundleHeadOk h room then ((h, 1), d1)
    else
      match d1.regionPages k 0 ((bundleLen h + d1.pageSize - 1) / max 1 d1.pageSize) with
      | (none, d2) => ((h, 2), d2)
      | (some l, d2) => ((l, d2.bundleReason cfg l room), d2)

/-! ## Restart type and retained area (step 7: R485–R487) -/

/-- The committed retained area in SDM, or the newest valid record: version, bytes, commit sequence and the record's
logical block. -/
def Device.pickSource (d : Device) : Option (Nat × SMap Byte × Nat × Option Nat) :=
  let core := d.fld Reg.SYS_RST_LAST_LEVEL == 1
  if core && !(d.fld Reg.SYS_RST_LAST_SRC).testBit srcPfailResume && d.img.retValid then
    some (d.img.retVer, d.img.retained, d.img.retSeq, none)
  else
    match d.newestRecord with
    | some (_, lb, l) => some (numAt l 28 2, mapPut [] 0x7F0000 ((l.drop 64).take 65536), numAt l 32 4, some lb)
    | none => none

/-- The restart type of R485, and whether it is cold under the last row. -/
def Device.restartType (d : Device) (ver : Option Nat) : Nat × Bool :=
  let l := d.ldr.bundle
  match ver with
  | none => (0, false)
  | some v =>
    if (cfgFlags d.ldr.cfg).testBit 3 || d.bit Reg.LDR_STAT_FORCE_COLD then (0, false)
    else if v = bundleRetVer l then (1, false)
    else if (bundleMigFrom l).contains v && (List.range 24).any (fun e => d.bit (Reg.TASK_ENG_MIG_MIG_EN e)) then (2, false)
    else (0, true)

/-- A record's block is kept out of the rotation for diagnosis (R487); an older kept one returns to it. -/
def Device.keepBlock (d : Device) (lb rseq : Nat) : Device :=
  ((({ d with nvm := { d.nvm with kept := some lb } } : Device).setF Reg.LDR_KEPT_VALID 1).setF Reg.LDR_KEPT_BLOCK lb).raise
    0x38D [wd lb, wd rseq]

/-- Keep the retained source: it is written as a record if it is not one. -/
def Device.keepSource (d : Device) (src : Nat × SMap Byte × Nat × Option Nat) : Device :=
  match src.2.2.2 with
  | some lb => (d.keepBlock lb (d.fld Reg.NVM_RSEQ_RSEQ)).preErase 3
  | none =>
    match d.erasedNext 3 with
    | none => d
    | some lb =>
      let d1 := d.putRecord lb (d.recordOf d.pageSize (mapGet src.2.1 0x7F0000 65536) src.1 d.recentEvents)
      (d1.keepBlock lb (d1.fld Reg.NVM_RSEQ_RSEQ)).preErase 3

/-- The restart type is decided, and the source stands ready for IDENT and for step 7. -/
def Device.decideRestart (d : Device) : Device :=
  let src := d.pickSource
  let t := d.restartType (src.map (fun x => x.1))
  let force := d.bit Reg.LDR_STAT_FORCE_COLD
  let d1 := match src with
    | some x => if t.2 || force then d.keepSource x else d
    | none => d
  let d2 := (d1.setF Reg.LDR_STAT_RTYPE t.1).setF Reg.LDR_RET_VER_SRC_VER ((src.map (fun x => x.1)).getD 0)
  { d2 with
    ldr := { d2.ldr with source := src.map (fun x => (x.1, x.2.1)) }
    img := { d2.img with
      retained := (src.map (fun x => x.2.1)).getD []
      retVer := (src.map (fun x => x.1)).getD 0
      retSeq := (src.map (fun x => x.2.2.1)).getD 0
      retValid := match src with
        | some (_, _, _, none) => true
        | _ => false } }

/-- Every byte of a range of memory reads 0 with valid check bits. -/
def Device.zeroRange (d : Device) (a n : Nat) : Device :=
  { d with
    mem := dropRange d.mem a n
    ce := { d.ce with ecc := skeep (fun k => decide (k < eccShared a) || decide (eccShared (a + n) ≤ k)) d.ce.ecc } }

/-- Step 7: the retained area by the restart type, the initial image (R210), cells and SC contexts cleared. -/
def Device.prepareStart (d : Device) : Device :=
  let l := d.ldr.bundle
  let ty := d.fld Reg.LDR_STAT_RTYPE
  let area := mapGet d.img.retained 0x7F0000 65536
  let d1 := (d.zeroRange 0x7F0000 0x10000).setBytes 0x7F0000 (if ty = 1 then area else payloadOf l 2 0)
  let d2 := if ty = 2 then
      (d1.zeroRange (65536 * d1.fld Reg.LDR_MIG_MIG_BASE) 0x10000).setBytes (65536 * d1.fld Reg.LDR_MIG_MIG_BASE) area
    else d1
  let runs := (pimRuns ((payloadOf l 1 0).length + 1) (payloadOf l 1 0)).getD []
  let d3 := runs.foldl (fun d r => d.setBytes (d.areaBase r.1 + r.2.1) r.2.2) (d2.zeroRange 0x1000000 0xF0000)
  let d4 := forN 256 (fun n d =>
    (((d.wr (Reg.SC_CONN_W5 n) (regReset (Reg.SC_CONN_W5 n))).wr (Reg.SC_CONN_W6 n) 0).wr (Reg.SC_CONN_W7 n) 0)) d3
  ({ d4 with
    ce := { d4.ce with tcells := [], ccells := [] }
    sc := { d4.sc with lastCode := [], result := [], payload := [], ageUs := [] } } : Device).wr Reg.IMG_P_SEQ 0

/-! ## Steps 5 to 8 -/

/-- Load a bundle (R481): code of every engine into bank 0, the rest of it 0 (R114). `slot`: 1 A, 2 B, 3 boot without slot. -/
def Device.loadBundle (d : Device) (l : List Byte) (slot : Nat) : Device :=
  let d1 := forN 24 (fun e d =>
    let p := payloadOf l 0 e
    d.loadBank e 0 (bytesToWords (p.length / 4) p)) d
  (((({ d1 with ldr := { d1.ldr with bundle := l } } : Device).setF Reg.LDR_STAT_SLOT_RUN slot).wr Reg.LDR_BUNDLE_ID
    (wd (bundleId l))).setF Reg.LDR_RET_VER_RET_VER (bundleRetVer l))

/-- Engines that passed the comparator test enter READY; one that failed it and holds no code stays OFF (R84, R88). -/
def Device.enginesReady (d : Device) : Device :=
  forN 24 (fun e d =>
    if d.bit (Reg.CE_TEST_PASS e) then d.setF (Reg.CE_STATUS_STATE e) stReady
    else (d.setF (Reg.CE_STATUS_STATE e) stOff).raise 0x08A [wd e, d.rd (Reg.CE_TEST e)]) d

/-- Steps 5 (the loading) to 8. In the lane roles the rendezvous comes before steps 7 and 8, which the first boundary
takes (R246). -/
def Device.finishStart (d : Device) (l : List Byte) (slot : Nat) : Device :=
  let d1 := (d.loadBundle l slot).decideRestart
  let bad := (List.range 24).filter (fun e => !d1.bit (Reg.CE_TEST_PASS e) && holdsCode l e)
  if !bad.isEmpty then (d1.ruleEvents (bad.map (fun e => Reg.CE_TEST e))).noService 4
  else
    let d2 := if d1.isLane then d1 else d1.prepareStart
    let d3 := (d2.enginesReady.setF Reg.TICK_STATUS_SRC_ACT (d2.fld Reg.TICK_CFG_SRC))
    let d4 := d3.setF Reg.TICK_STATUS_LOCK d3.lockOf
    { d4 with
      ldr := { d4.ldr with phase := if d4.isLane then 4 else 5 }
      tick := { d4.tick with released := true } }

/-- Step 5 with the store: candidates by SLOT_SEQ, highest first (R483). A single or station device that finds ACT_TIME
passed activates the slot at once (R490). -/
def Device.activatePassed (d : Device) (k : Nat) (x : Slot) : Device :=
  if x.pending && !d.isLane && decide (x.time ≤ d.ts64) then
    (d.progNow k (d.regPages k - 1) (actPage 1 d.ts64)).raise 0x38B [wd k, wd x.id, 0]
  else d

/-- Try a candidate: the device goes on with it, or records why not. -/
def Device.tryNext (d : Device) : List Nat → Device
  | [] => d.noService 3
  | k :: t =>
    match d.slotBundle d.ldr.cfg k with
    | ((l, r), d1) =>
      if r = 0 then (d1.setReason k 0).finishStart l k
      else
        let d2 := d1.setReason k r
        (if l.isEmpty then (d2.free.2).raise 0x386 [wd k, wd r, d2.free.1]
          else d2.raise 0x386 [wd k, wd r, wd (bundleId l)]).tryNext t

def Device.bundleStep (d : Device) : Device :=
  match d.slotsRead with
  | (a, b, d1) =>
    match ((d1.activatePassed 1 a).activatePassed 2 b).slotsRead with
    | (x, y, d2) =>
      let go := fun (z : Slot) => z.armed && z.act && !z.cancelled
      let order := if x.seq < y.seq then [2, 1] else [1, 2]
      d2.tryNext (order.filter (fun k => if k = 1 then go x else go y))

/-- Steps 3 and 4 with a configuration image: true if every rule holds. -/
def Device.configStep (d : Device) (l : List Byte) (pins : Nat) (loopHigh : Bool) : Bool × Device :=
  let d1 := d.applyConfig l
  let bad := d1.badRules
  if bad.isEmpty then (true, d1.configEffects.applySeal pins loopHigh) else (false, d1.ruleEvents bad)

/-- A BOOT request on a port: at once when it is UP, else when it comes UP. -/
def Device.bootRequest (d : Device) (p : Nat) : Device :=
  if d.klState p = klUp then d.parcelOut p pBOOT []
  else
    let k := d.klPort p
    d.setKlPort p { k with tx := (k.tx + 1) % 65536, waiting := k.waiting ++ [⟨pBOOT, k.tx, false, []⟩] }

/-- The loader's start at the release of its domains (steps 2 to 8 of R472). -/
def Device.loaderStart (d : Device) (pins : Nat) (loopHigh : Bool) : Device :=
  let boot := d.fld Reg.SYS_STRAP_BOOT
  let d0 := ((d.setF Reg.SF_SEAL_STAT_PERM_NOW 0).setF Reg.SF_SEAL_STAT_PERM_START 0).setF Reg.LDR_STAT_BOOT_SRC (boot - 1)
  let d1 := if 2 ≤ d0.fld Reg.SYS_RST_LAST_LEVEL then d0.nvmStart boot else d0
  let d2 := match d1.nvm.kept with
    | some lb => (d1.setF Reg.LDR_KEPT_VALID 1).setF Reg.LDR_KEPT_BLOCK lb
    | none => d1
  let d3 := d2.setB Reg.LDR_STAT_PKH_SET (d2.sys.pkh != 0)
  if boot = 3 then { d3 with ldr := { d3.ldr with phase := 1 } }
  else if boot = 2 then
    let d4 : Device := forN 2 (fun p d => if d.klState p = klDown then d.setF (Reg.KL_STAT_STATE p) klTrain else d) d3
    ({ d4 with ldr := { d4.ldr with phase := 2 } } : Device).bootRequest 0
  else if d3.nvm.sel = 0 then d3.noService 6
  else
    match d3.copyBest true with
    | (none, d4) => d4.noService 1
    | (some (c, l), d4) =>
      match (d4.setF Reg.LDR_STAT_CFG_COPY c).configStep l pins loopHigh with
      | (true, d5) => d5.bundleStep
      | (false, d5) => d5.noService 2

/-! ## Boot from Kloul or the host (R492, R493) -/

/-- A boot without slot: the checks of step 3 on a configuration image; event 0x385 for an invalid one. -/
def Device.bootConfig (d : Device) (l : List Byte) : Bool × Device :=
  if d.cfgValid l then (true, d) else (false, d.raise 0x385 [0, wd (cfgSeq l)])

/-- The checks of R483 on a bundle without slot; event 0x386 with slot 3 for one that fails. -/
def Device.bootBundle (d : Device) (l : List Byte) (room : Nat) : Bool × Device :=
  let r := d.bundleReason d.ldr.cfg l room
  if r = 0 then (true, d) else (false, d.raise 0x386 [3, wd r, wd (bundleId l)])

/-- Kloul boot fails on a port: the loader tries the other, or the start ends. -/
def Device.bootFail (d : Device) : Device :=
  if d.ldr.phase = 2 then ({ d with ldr := { d.ldr with phase := 3 } } : Device).bootRequest 1 else d.noService 7

/-- K0 is not UP within 100 ms. -/
def execKloulBootPortTimeout (s : State) : Host.Outcome State Fault Refusal :=
  run (fun d => if d.ldr.phase = 2 ∧ d.klState 0 ≠ klUp then d.bootFail else d) s

/-- BOOT parcels: a request of a neighbour, or its configuration copy and its bundle, complete. -/
def execBootParcelReceived (port : Fin 3) (request : Bool) (cfg bundle : List Byte) (pins : BitVec 8) (loopHigh : Bool)
    (s : State) : Host.Outcome State Fault Refusal :=
  run (fun d =>
    let d1 := d.gotParcel port
    if request then
      if !d1.ldr.bundle.isEmpty && decide (4 ≤ d1.ldr.phase) then d1.kloul port pBOOT (d1.ldr.cfg ++ d1.ldr.bundle) else d1
    else if d1.ldr.phase ≠ 2 + port.val ∨ 2 ≤ port.val then d1
    else
      match d1.bootConfig cfg with
      | (false, d2) => d2.bootFail
      | (true, d2) =>
        match d2.configStep cfg pins.toNat loopHigh with
        | (false, d3) => d3.noService 2
        | (true, d3) =>
          match d3.bootBundle bundle bundle.length with
          | (false, d4) => d4.bootFail
          | (true, d4) => d4.finishStart bundle 3) s

/-- Bytes of SDM that the loader reads: as many as a length field inside them says, at most `room`. -/
def Device.sdmImage (d : Device) (addr lenAt room : Nat) : Option (List Byte) × Device :=
  match d.busRead 3 addr 16 with
  | (none, d1) => (none, d1)
  | (some h, d1) => d1.busRead 3 addr (max 16 (min room (numAt h lenAt 4)))

/-- HOST_GO: a configuration at LDR_SRC and a bundle at LDR_BSRC. -/
def Device.cmdHostGo (d : Device) (arg pins : Nat) (loopHigh : Bool) : Device :=
  let a := d.fld Reg.LDR_SRC_VALUE
  let b := d.fld Reg.LDR_BSRC_VALUE
  d.command portLDR 8 arg (d.rd Reg.LDR_STAT)
    ⟨arg == 0 && a % 4 == 0 && b % 4 == 0 && decide (a + 16 ≤ 0x7F0000) && decide (b + 16 ≤ 0x7F0000), true,
      d.ldr.phase == 1⟩
    (fun d =>
      match d.sdmImage a 8 (0x7F0000 - a) with
      | (none, d1) => d1.endCmd portLDR 7
      | (some l, d1) =>
        match d1.bootConfig l with
        | (false, d2) => d2.endCmd portLDR 3
        | (true, d2) =>
          match d2.configStep (l.take (cfgLen l)) pins loopHigh with
          | (false, d3) => d3.endCmd portLDR 3
          | (true, d3) =>
            match d3.sdmImage b 12 (0x7F0000 - b) with
            | (none, d4) => (d4.raise 0x386 [3, 2, d4.free.1]).endCmd portLDR 3
            | (some m, d4) =>
              match d4.bootBundle m (0x7F0000 - b) with
              | (false, d5) => d5.endCmd portLDR 3
              | (true, d5) => (d5.finishStart m 3).endCmd portLDR 0)

def execHostGo (arg : BitVec 24) (pins : BitVec 8) (loopHigh : Bool) (s : State) : Host.Outcome State Fault Refusal :=
  run (fun d => d.cmdHostGo arg.toNat pins.toNat loopHigh) s

/-! ## Writing and arming (R488, R489) -/

/-- The configuration copy that is not in use. -/
def Device.otherCopy (d : Device) : Nat := 1 - d.fld Reg.LDR_STAT_CFG_COPY

/-- A target: its region, first page, and the pages that REGION_WRITE may write. -/
def Device.target (d : Device) (t : Nat) : Nat × Nat × Nat :=
  if t = 0 then (0, d.copyBase d.otherCopy, d.copyPagesN - 1) else (t, 0, d.regPages t - 2)

/-- A slot is armed, and neither activated nor cancelled. -/
def Device.slotPending (d : Device) (k : Nat) : Bool := bitsOf (d.rd (slotReg k)) 29 3 == 4

/-- REGION_ERASE and REGION_WRITE may work on a target. -/
def Device.targetFree (d : Device) (t : Nat) : Bool :=
  d.bit Reg.NVM_STAT_READY && (t == 0 || (d.fld Reg.LDR_STAT_SLOT_RUN != t && !d.slotPending t))

/-- A loader job has ended: its effect, and the end of its command. -/
def Device.ldrEnded (d : Device) (w : NvmWork) (code : Nat) : Device :=
  if code ≠ 0 then d.finishCmd portLDR code
  else
    match w with
    | .regionErase t =>
      let d1 := d.setF (Reg.LDR_WPTR_PAGE t) 0
      (if t = 0 then d1 else (d1.setReason t 0).slotsRead.2.2).finishCmd portLDR 0
    | .regionWrite t n => (d.setF (Reg.LDR_WPTR_PAGE t) (d.fld (Reg.LDR_WPTR_PAGE t) + n)).finishCmd portLDR 0
    | .arm k id time =>
      ((({ d with ldr := { d.ldr with actTs := 0 } } : Device).slotsRead.2.2).raise 0x389 [wd k, id, wd time]).finishCmd portLDR 0
    | .disarm k => ((d.slotsRead.2.2).raise 0x38A [wd k]).finishCmd portLDR 0
    | .commitCfg seq => (d.raise 0x38E [wd seq]).finishCmd portLDR 0
    | _ => d

/-- The loader takes what has ended. -/
def Device.ldrDrain (d : Device) : Device :=
  d.nvm.ended.foldl (fun d e => d.ldrEnded e.1 e.2) { d with nvm := { d.nvm with ended := [] } }

/-- A command whose work the NVM manager does: BUSY until its job ends, which without an operation is at once. -/
def Device.ldrJob (d : Device) (w : NvmWork) (ops : List NvmOp) : Device :=
  (((d.beginCmd portLDR).pushJob ⟨w, ops⟩).nvmKick).ldrDrain

def Device.cmdRegionErase (d : Device) (arg : Nat) : Device :=
  let t := arg
  d.command portLDR 1 arg (d.rd Reg.LDR_STAT) ⟨decide (arg < 3), d.perm permBundle, d.targetFree t⟩
    (fun d =>
      let (r, base, n) := d.target t
      let whole := n + (if t = 0 then 1 else 2)
      d.ldrJob (.regionErase t) ((List.range (whole / max 1 d.ppb)).map (fun i => .erase r (base / max 1 d.ppb + i))))

def Device.cmdRegionWrite (d : Device) (arg : Nat) : Device :=
  let t := arg
  let (r, base, room) := d.target t
  let size := d.pageSize
  let len := d.fld Reg.LDR_LEN_VALUE
  let src := d.fld Reg.LDR_SRC_VALUE
  let n := len / max 1 size
  let at0 := d.fld (Reg.LDR_WPTR_PAGE t)
  d.command portLDR 2 arg (d.rd Reg.LDR_STAT)
    ⟨decide (arg < 3) && (size == 0 || len % size == 0) && src % 4 == 0 && decide (src + len ≤ 0x800000)
        && (size == 0 || decide (at0 + n ≤ room)), d.perm permBundle, d.targetFree t⟩
    (fun d =>
      match d.busRead 3 src len with
      | (none, d1) => d1.endCmd portLDR 7
      | (some l, d1) =>
        d1.ldrJob (.regionWrite t n) ((List.range n).map (fun i =>
          d1.progOp r (base + at0 + i) ((l.drop (i * size)).take size))))

/-- The first failing check of a slot against the configuration that the next start will use. -/
def Device.armReason (d : Device) (k : Nat) : Nat × List Byte × Device :=
  match d.copyBest false with
  | (c, d1) =>
    match d1.slotBundle ((c.map (fun x => x.2)).getD d1.ldr.cfg) k with
    | ((l, r), d2) => (r, l, d2)

def Device.cmdSlotArm (d : Device) (arg : Nat) : Device :=
  let argOk := arg == 1 || arg == 2
  let free := argOk && d.bit Reg.NVM_STAT_READY && !d.slotPending (3 - arg)
  if d.bit portLDR.busy || !argOk || !d.perm permBundle || !free then
    d.command portLDR 3 arg (d.rd Reg.LDR_STAT) ⟨argOk, d.perm permBundle, free⟩ (fun d => d)
  else
    match d.armReason arg with
    | (r, l, d1) =>
      if r ≠ 0 then (d1.setReason arg r).command portLDR 3 arg (d1.rd Reg.LDR_STAT) ⟨true, true, false⟩ (fun d => d)
      else
        match d1.slotRead 1 with
        | (a, d2) =>
          match d2.slotRead 2 with
          | (b, d3) =>
            let seq := 1 + max (if a.armed then a.seq else 0) (if b.armed then b.seq else 0)
            (d3.setReason arg 0).command portLDR 3 arg (d3.rd Reg.LDR_STAT) ⟨true, true, true⟩ (fun d =>
              d.ldrJob (.arm arg (wd (bundleId l)) (bundleAct l)) [d.progOp arg (d.regPages arg - 2) (trailerPage seq l)])

def Device.cmdSlotDisarm (d : Device) (arg : Nat) : Device :=
  let argOk := arg == 1 || arg == 2
  d.command portLDR 4 arg (d.rd Reg.LDR_STAT)
    ⟨argOk, d.perm permBundle, d.bit Reg.NVM_STAT_READY && d.slotPending arg⟩
    (fun d => d.ldrJob (.disarm arg) [d.progOp arg (d.regPages arg - 1) (actPage 2 d.tick.boundaryTs)])

def Device.cmdCfgCommit (d : Device) (arg : Nat) : Device :=
  let c := d.otherCopy
  let ok := d.bit Reg.NVM_STAT_READY && d.fld (Reg.LDR_WPTR_PAGE 0) != 0
  if d.bit portLDR.busy || arg ≠ 0 || !d.perm permBundle || !ok then
    d.command portLDR 5 arg (d.rd Reg.LDR_STAT) ⟨arg == 0, d.perm permBundle, ok⟩ (fun d => d)
  else
    match d.copyImage c with
    | (none, d1) => d1.endCmd portLDR 7
    | (some l, d1) =>
      d1.command portLDR 5 arg (d1.rd Reg.LDR_STAT) ⟨true, true, d1.cfgValid l⟩ (fun d =>
        d.ldrJob (.commitCfg (cfgSeq l)) [d.progOp 0 (d.copyBase c + d.copyPagesN - 1) (commitPage l)])

def execRegionErase (arg : BitVec 24) (s : State) : Host.Outcome State Fault Refusal :=
  run (fun d => d.cmdRegionErase arg.toNat) s
def execRegionWrite (arg : BitVec 24) (s : State) : Host.Outcome State Fault Refusal :=
  run (fun d => d.cmdRegionWrite arg.toNat) s
def execSlotArm (arg : BitVec 24) (s : State) : Host.Outcome State Fault Refusal :=
  run (fun d => d.cmdSlotArm arg.toNat) s
def execSlotDisarm (arg : BitVec 24) (s : State) : Host.Outcome State Fault Refusal :=
  run (fun d => d.cmdSlotDisarm arg.toNat) s
def execCfgCommit (arg : BitVec 24) (s : State) : Host.Outcome State Fault Refusal :=
  run (fun d => d.cmdCfgCommit arg.toNat) s

/-- NAND_OP_COMPLETE; the program of an activation page ends by ACTIVATION_PAGE_DONE. -/
def execNandOpComplete (fail : Bool) (flips : List Nat) (s : State) : Host.Outcome State Fault Refusal :=
  run (fun d =>
    match d.nvm.cur with
    | some ⟨.activate _, _⟩ => d
    | _ => (d.nandDone fail flips).ldrDrain) s

/-! ## Activation (R490) -/

/-- The activation boundary: the loader starts to program the activation page. -/
def Device.activateSlot (d : Device) : Device :=
  let k := d.fld Reg.LDR_STAT_ARMED_SLOT
  if k = 0 then d
  else
    let d1 : Device := { d with ldr := { d.ldr with actTs := d.tick.boundaryTs } }
    (d1.pushJob ⟨.activate k, [d1.progOp k (d1.regPages k - 1) (actPage 1 d1.tick.boundaryTs)]⟩).nvmKick

/-- The program of the activation page completes: the slot is activated and a CORE reset requested, or the page failed and
the slot stays armed. -/
def execActivationPageDone (fail : Bool) (s : State) : Host.Outcome State Fault Refusal :=
  run (fun d =>
    match d.nvm.cur with
    | some ⟨.activate k, .prog r lb p data :: _⟩ =>
      let d0 : Device := { d with nvm := { d.nvm with cur := none } }
      let id := d0.rd Reg.LDR_BUNDLE_ID
      let id := (d0.ldr.armed.map (fun x => x.1)).getD id
      match d0.phys r lb with
      | none => d0
      | some b =>
        let d1 := if fail then (d0.moveOut .tidy r lb b 0 none []).raise 0x38B [wd k, id, 1]
          else (((d0.onStore (fun x => storeProg x b p data)).raise 0x38B [wd k, id, 0]).requestReset srcActivate).slotsRead.2.2
        (d1.nvmKick.nvmRing).ldrDrain
    | _ => d) s

/-! ## Key hash, kept record, restart (R478, R487, R495) -/

def Device.cmdPkhProgram (d : Device) (arg : Nat) : Device :=
  d.commandNow portLDR 6 arg (d.rd Reg.LDR_STAT)
    ⟨arg == 0, d.perm permBundle, d.sys.pkh == 0 && d.bit Reg.LDR_STAT_SIG_REQ⟩
    (fun d =>
      let h := sha256 (natsOf (cfgKey d.ldr.cfg))
      let d1 := (({ d with sys := { d.sys with pkh := h } } : Device).showPkh).setF Reg.LDR_STAT_PKH_SET 1
      d1.raise 0x38F [d1.rd (Reg.LDR_PKH 0)])

def Device.cmdReleaseKept (d : Device) (arg : Nat) : Device :=
  d.commandNow portLDR 7 arg (d.rd Reg.LDR_STAT) ⟨arg == 0, d.perm permClear, d.bit Reg.LDR_KEPT_VALID⟩
    (fun d => ({ d with nvm := { d.nvm with kept := none } } : Device).wr Reg.LDR_KEPT 0)

/-- RESTART requests a CORE reset; the command ends with the reset of its block (R33). -/
def Device.cmdRestart (d : Device) (arg : Nat) : Device :=
  d.command portLDR 9 arg (d.rd Reg.LDR_STAT) ⟨arg == 0, d.perm permBundle || d.bit Reg.SYS_ROLE_NO_SERVICE, true⟩
    (fun d => (d.beginCmd portLDR).requestReset srcSwCore)

def execPkhProgram (arg : BitVec 24) (s : State) : Host.Outcome State Fault Refusal :=
  run (fun d => d.cmdPkhProgram arg.toNat) s
def execReleaseKept (arg : BitVec 24) (s : State) : Host.Outcome State Fault Refusal :=
  run (fun d => d.cmdReleaseKept arg.toNat) s
def execRestart (arg : BitVec 24) (s : State) : Host.Outcome State Fault Refusal :=
  run (fun d => d.cmdRestart arg.toNat) s

end Sys2Proof.Machine
end

