-- ==== Sys2Proof/Machine/Sys.lean ====
section
/-! DEFINITION. Reset, straps, trims and clocks (R543–R559), and the ends of a power-fail save (R467, R546). -/

namespace Sys2Proof.Machine

/-! ## What a reset clears (R543) -/

/-- The level that a source of R544 reaches: 1 CORE, 2 SYS, 3 POR. -/
def srcLevel (src : Nat) : Nat := if src < 2 then 3 else if src < 7 then 2 else 1

def srcClkLoss : Nat := 3
def srcPllLoss : Nat := 4

/-- Blocks of R578 that a CORE reset clears: TICK, CE, TASK, IMG, TRI, FO, SC, LDR. -/
def coreBlocks : List Nat := [1, 2, 3, 4, 6, 7, 12, 17]

/-- Registers of the standby domain (R565). -/
def stbyRegs : List Nat :=
  [Reg.PWR_STBY_STAT, Reg.PWR_STBY_SEC_LO, Reg.PWR_STBY_SEC_HI, Reg.PWR_ALARM_LO, Reg.PWR_ALARM_HI]

/-- The bits of a register that survive a SYS reset: fields of code RWS, fields whose description says so, live
monitors, and DBG. -/
def sysKeeps (a : Nat) : Nat :=
  if [Reg.SYS_RST_CAUSE, Reg.SYS_RST_LAST, Reg.SYS_RST_CNT, Reg.SYS_CLK_STAT, Reg.PWR_SUP_STAT, Reg.PWR_SUP_FLAGS].contains a
    ∨ a / 65536 = 0x416 then 0xFFFFFFFF
  else if a = Reg.SYS_TRIM_STAT then 0xFF00
  else if (List.range 24).any (fun e => a == Reg.CE_TEST e) then 0xFF000000
  else if (List.range 4).any (fun n => a == Reg.PWR_TEMP n) then 0xFFFF0000
  else if a = Reg.SF_LOCK_STAT then 0xFF
  else if a = Reg.LDR_STAT then 0x80000000
  else 0

/-- The bits of a register that keep their value through a reset of a level. -/
def resetKeeps (level a : Nat) : Nat :=
  if stbyRegs.contains a then 0xFFFFFFFF
  else if level = 3 then 0
  else if level = 1 then
    if !coreBlocks.contains ((a - 0x4000000) / 0x10000) then 0xFFFFFFFF
    else if (List.range 24).any (fun e => decide (Reg.CE_BP e 0 ≤ a) && decide (a ≤ Reg.CE_BP e 3)) then 0xFFFFFFFF
    else sysKeeps a
  else sysKeeps a

/-- The registers after a reset of a level. -/
def resetRegs (level : Nat) (m : SMap Word) : SMap Word :=
  m.filterMap (fun e =>
    let k := wd (resetKeeps level e.1)
    let v := (regReset e.1 &&& ~~~k) ||| (e.2 &&& k)
    if v = regReset e.1 then none else some (e.1, v))

/-- A lane that enters a CORE reset sends CTRL EXIT on its ring ports (R549); its engines' contexts end, and their
endpoints reset (R161, R515). -/
def Device.beforeCore (d : Device) : Device :=
  let d1 := if d.isLane then (d.ring pCTRL (ctrlExit d.lane 0)).toLane d.lane lsJoining else d
  forN 24 (fun e d => (forN 16 (fun c d => d.semRelease e c 64) d).epReset e) d1

/-- Jobs of the loader end with it; the operation that the store runs goes on. -/
def Device.dropLoaderJobs (d : Device) : Device :=
  { d with nvm := { d.nvm with
    jobs := d.nvm.jobs.filter (fun j => !isLoaderWork j.work)
    cur := d.nvm.cur.map (fun j => if isLoaderWork j.work then ⟨.tidy, j.ops.take 1⟩ else j)
    ended := [] } }

/-- A CORE reset. -/
def Device.clearCore (d : Device) : Device :=
  let d1 : Device := { d with
    regs := resetRegs 1 d.regs
    ce := { ecc := d.ce.ecc, tapIr := d.ce.tapIr, dbgPrev := d.ce.dbgPrev, dbgRun := d.ce.dbgRun }
    task := {}
    tick := {}
    img := { committedSb := d.img.committedSb, committedEth := d.img.committedEth, retained := d.img.retained,
             retVer := d.img.retVer, retSeq := d.img.retSeq, retValid := d.img.retValid }
    tri := {}
    sc := {}
    fo := {}
    ldr := {}
    sb := { d.sb with committed := false } }
  let d2 := (d1.dropLoaderJobs.slNegate slCe).slNegate slWd
  (if d2.isLane then d2.slAssert slTriad else d2).slAssert slStart

/-- A reset of SYS level, or of POR level. The standby domain, the store, the fuses and the rails stand. -/
def Device.clearDeep (d : Device) (level : Nat) : Device :=
  { regs := resetRegs level d.regs
    ce := if level = 3 then {} else { tapIr := d.ce.tapIr, dbgPrev := d.ce.dbgPrev, dbgRun := d.ce.dbgRun }
    pwr := { rail := d.pwr.rail, warnNow := d.pwr.warnNow, stbyAcc := d.pwr.stbyAcc, stbyWait := d.pwr.stbyWait,
             wakeWait := d.pwr.wakeWait, hot := if level = 3 then 0 else d.pwr.hot }
    nvm := { nand := d.nvm.nand, nor := d.nvm.nor }
    sys := { d.sys with waiting := [], deferred := 0, request := if level = 3 then 0 else d.sys.request,
                        trimStop := d.sys.trimStop && level != 3, lockedOnce := if level = 3 then 0 else d.sys.lockedOnce }
    freeCtr := d.freeCtr
    sent := d.sent }

/-- A source asserts (R547, R548): the level deepens to its level, and the release starts afresh at that level's first
stage. RESET_CORE ends with code 0 when its reset asserts (R559). -/
def Device.enterReset (d : Device) (src : Nat) : Device :=
  let level := max d.sys.level (srcLevel src)
  let d0 := if d.sys.level = 0 then
      ({ d with sys := { d.sys with during := 0 } } : Device)
    else d
  let d1 := if src = srcSwCore ∧ !d0.sys.request.testBit srcSwSys then d0.finishCmd portSYS 0 else d0
  let d2 := if level = 1 then (if d.sys.level = 0 then d1.beforeCore else d1).clearCore else d1.clearDeep level
  { d2 with sys := { d2.sys with
    asserted := putBit d2.sys.asserted src true
    during := putBit d2.sys.during src true
    request := putBit d2.sys.request src false
    level := level
    stage := if level = 1 then 5 else 0 } }

/-- An event that waits until EVR is released. -/
def Device.raiseLate (d : Device) (code : Nat) (ws : List Word) : Device :=
  if d.evrLive then d.raise code ws
  else { d with sys := { d.sys with waiting := d.sys.waiting ++ [(code, ws)] } }

/-- What lets an assertion of a source come about: a ball or the detector, a lost clock, or a request (log 11). -/
def Device.srcHolds (d : Device) (src : Nat) : Bool :=
  if src < 3 then true
  else if src = srcClkLoss then !d.bit Reg.SYS_CLK_STAT_REF_OK && d.sys.lockedOnce.testBit 0
  else if src = srcPllLoss then
    (!d.bit Reg.SYS_CLK_STAT_MAIN_LOCK && d.sys.lockedOnce.testBit 1)
      || (!d.bit Reg.SYS_CLK_STAT_TB_LOCK && d.sys.lockedOnce.testBit 2)
  else d.sys.request.testBit src

/-- A reset source asserts. A power-fail save defers SW_SYS, SW_CORE and TRI_AUTO (R546). -/
def execResetSourceAssert (src : Fin 12) (s : State) : Host.Outcome State Fault Refusal :=
  run (fun d =>
    if !d.srcHolds src then d
    else if d.bit Reg.NVM_STAT_SAVE_BUSY ∧ 6 ≤ src.val ∧ src.val ≤ 8 then
      { d with sys := { d.sys with
        deferred := putBit d.sys.deferred src true
        request := putBit d.sys.request src false } }
    else d.enterReset src) s

/-- A source may end: PWR_REQ holds while a rail is out of limits or the device is too hot (R563, R573), CLK_LOSS and
PLL_LOSS while their clock is lost. -/
def Device.srcEnds (d : Device) (src : Nat) : Bool :=
  if src = srcPwrReq then !d.railBad && !d.bit Reg.PWR_SUP_STAT_HOT
  else if src = srcClkLoss then d.bit Reg.SYS_CLK_STAT_REF_OK
  else if src = srcPllLoss then d.bit Reg.SYS_CLK_STAT_MAIN_LOCK && d.bit Reg.SYS_CLK_STAT_TB_LOCK
  else true

/-- A source negates. -/
def Device.negateSrc (d : Device) (src : Nat) : Device :=
  { d with sys := { d.sys with asserted := putBit d.sys.asserted src false } }

def execResetSourceNegate (src : Fin 12) (s : State) : Host.Outcome State Fault Refusal :=
  run (fun d => if d.srcEnds src then d.negateSrc src else d) s

/-! ## Straps (R552, R553) -/

/-- The majority of three samples of a w-bit strap. -/
def majority3 (w : Nat) (l : List Nat) : Nat :=
  ((List.range w).map (fun i => if 2 ≤ (l.filter (fun v => v.testBit i)).length then 2 ^ i else 0)).sum

/-- The samples of some ball disagree. -/
def samplesDiffer (w : Nat) (l : List Nat) : Bool := l.any (fun v => v % 2 ^ w != (l.headD 0) % 2 ^ w)

/-- Sample the straps. -/
def Device.sampleStraps (d : Device) (boot clk role : List Nat) : Device :=
  let bad := samplesDiffer 2 boot || samplesDiffer 2 clk || samplesDiffer 3 role
  let r := majority3 3 role
  let d1 := ((((d.setF Reg.SYS_STRAP_BOOT (majority3 2 boot)).setF Reg.SYS_STRAP_CLKMODE (majority3 2 clk)).setF
    Reg.SYS_STRAP_ROLE r).setF Reg.SYS_ROLE_STRAP_ROLE r).setB Reg.SYS_STRAP_UNSTABLE bad
  if bad then d1.raiseLate 0x006 [d1.rd Reg.SYS_STRAP] else d1

/-- The straps select a source that shows a reference. -/
def Device.refValid (d : Device) (ref : Bool) : Bool := ref && d.fld Reg.SYS_STRAP_CLKMODE != 3

/-- Every 1 ms while CLK_LOSS holds the device before the first lock. `ref`: the selected source shows a reference. -/
def execStrapResample (boot clk roles : List Nat) (ref : Bool) (s : State) : Host.Outcome State Fault Refusal :=
  run (fun d =>
    if d.sys.asserted.testBit srcClkLoss ∧ d.sys.lockedOnce = 0 then
      let d1 := d.sampleStraps boot clk roles
      if d1.refValid ref then (d1.setF Reg.SYS_CLK_STAT_REF_OK 1).negateSrc srcClkLoss else d1
    else d) s

/-! ## Stages (R550, R551) -/

/-- S0: straps and the clock monitors. Without a reference CLK_LOSS holds the device (R553). -/
def Device.stage0 (d : Device) (b : Board) : Device :=
  let d1 := (d.sampleStraps b.boot b.clkmode b.roles).wr Reg.SYS_CLK_STAT (wd (b.clocks &&& 0x61))
  if d1.refValid (b.clocks.testBit 0) then
    { d1 with sys := { d1.sys with stage := 1, lockedOnce := putBit d1.sys.lockedOnce 0 true } }
  else (d1.setF Reg.SYS_CLK_STAT_REF_OK 0).enterReset srcClkLoss

/-- S2: the three PLLs lock. -/
def Device.stage2 (d : Device) : Device :=
  let d1 := d.wr Reg.SYS_CLK_STAT (d.rd Reg.SYS_CLK_STAT ||| 0xE)
  { d1 with sys := { d1.sys with lockedOnce := 7 } }

/-- S3: memories read 0 with valid check bits, and EVR records the events that waited. -/
def Device.stage3 (d : Device) : Device :=
  let ws := d.sys.waiting
  let d1 : Device := { d with mem := [], prog := [], larea := [], ce := { d.ce with ecc := [] },
                              sys := { d.sys with waiting := [], stage := 4 } }
  ws.foldl (fun d e => d.raise e.1 e.2) d1

/-- S4: the time base starts from a valid standby counter, or from 0. -/
def Device.stage4 (d : Device) : Device :=
  { d with tb := { d.tb with sec := if d.bit Reg.PWR_STBY_STAT_VALID then d.stbySec else 0, ns := 0, frac := 0 } }

/-- S5: the store devices that stand on the board. -/
def Device.stage5 (d : Device) (b : Board) : Device :=
  (match b.media with
  | some (x, y) => { d with nvm := { d.nvm with nand := x, nor := y } }
  | none => d)

/-- S6: the reference of the host. -/
def Device.stage6 (d : Device) (b : Board) : Device := d.setB Reg.SYS_CLK_STAT_PCIE_LOCK (b.clocks.testBit 4)

/-- S7: the field die takes part again; Sluice START holds, and in a lane role its triad-exclusion input (R245). -/
def Device.stage7 (d : Device) : Device :=
  (if d.isLane then d.slAssert slTriad else d).slAssert slStart

/-- The result of the Sluice test (R390): the first failing check and the channels that failed. -/
def Device.sluiceTest (d : Device) (fail : Option (Nat × Nat)) : Device :=
  match fail with
  | none => d.wr Reg.SF_TEST 0xC0000000
  | some (source, chans) =>
    let d1 := ((d.wr Reg.SF_TEST 0x80000000).setF Reg.SF_TEST_SOURCE source).setF Reg.SF_TEST_CHANNELS chans
    d1.raise 0x28D [d1.rd Reg.SF_TEST]

/-- The comparator tests (R82, R83): ROUND advances, and the bits that a failure sets. -/
def Device.comparatorTests (d : Device) (fails : List (Nat × Nat)) : Device :=
  forN 24 (fun e d =>
    let bits := ((fails.find? (fun f => f.1 == e)).map (fun f => f.2 &&& 0x33FFFF)).getD 0
    let round := d.fld (Reg.CE_TEST_ROUND e) + 1
    (((d.wr (Reg.CE_TEST e) (wd bits)).setF (Reg.CE_TEST_ROUND e) round).setF (Reg.CE_TEST_DONE e) 1
      |>.setB (Reg.CE_TEST_PASS e) (bits == 0)).setF (Reg.CE_STATUS_STATE e) stTest) d

/-- SYS_RST_LAST, SYS_RST_CAUSE, SYS_RST_CNT and event 0x004 (R558). -/
def Device.recordReset (d : Device) : Device :=
  let d1 := d.wr Reg.SYS_RST_LAST (wd (d.sys.level * 65536 + d.sys.during))
  let d2 := d1.wr Reg.SYS_RST_CAUSE (d1.rd Reg.SYS_RST_CAUSE ||| wd d.sys.during)
  let d3 := if d.sys.level = 1 then d2.inc Reg.SYS_RST_CNT_CORE
    else if d.sys.level = 2 then d2.inc Reg.SYS_RST_CNT_SYS else d2
  d3.raise 0x004 [d3.rd Reg.SYS_RST_LAST, d3.rd Reg.SYS_RST_CNT]

/-- What a start ends: the no-service state, a freeze whose save has ended, warnings and reports of the last start. Event
0x3F6 for a standby counter that lost its validity (R566). -/
def Device.freshStart (d : Device) : Device :=
  let d1 := d.setF Reg.SYS_ROLE_NO_SERVICE 0
  let d2 := if d1.bit Reg.NVM_STAT_SAVE_BUSY then d1
    else (d1.setF Reg.NVM_STAT_FROZEN 0).setF Reg.NVM_SAVE_RESULT 0
  let d3 : Device := { d2 with pwr := { d2.pwr with warned := false, aged := 0, stbyWait := none } }
  match d2.pwr.stbyWait with
  | some c => d3.raise 0x3F6 [wd c]
  | none => d3

/-- S8: the tests have run (R551), the reset is over, and the loader starts. -/
def Device.stage8 (d : Device) (b : Board) : Device :=
  let d1 := ((d.sluiceTest b.sluiceFail).comparatorTests b.testFail).recordReset
  let d2 := ({ d1 with sys := { d1.sys with level := 0, stage := 9, during := 0 } } : Device).freshStart
  match b.sluiceFail with
  | none => d2.loaderStart b.sealPins b.sealLoop
  | some _ => (if 2 ≤ d.sys.level then d2.nvmStart (d2.fld Reg.SYS_STRAP_BOOT) else d2).noService 5

/-- The next stage is released. No stage follows while a source is asserted, nor S2 before the trims are valid. -/
def Device.releaseStage (d : Device) (b : Board) : Device :=
  let st := d.sys.stage
  let stageTo (n : Nat) (x : Device) : Device := { x with sys := { x.sys with stage := n } }
  if d.sys.level = 0 ∨ d.sys.asserted ≠ 0 then d
  else if st = 0 then d.stage0 b
  else if st = 1 then stageTo 2 d
  else if st = 2 then (if d.bit Reg.SYS_TRIM_STAT_VALID then stageTo 3 d.stage2 else d)
  else if st = 3 then d.stage3
  else if st = 4 then stageTo 5 d.stage4
  else if st = 5 then (if d.sys.level = 1 then stageTo 8 d.showPkh else stageTo 6 (d.stage5 b).showPkh)
  else if st = 6 then stageTo 7 (d.stage6 b)
  else if st = 7 then stageTo 8 d.stage7
  else if st = 8 then d.stage8 b
  else d

def execResetStageRelease (board : Board) (s : State) : Host.Outcome State Fault Refusal :=
  run (fun d => d.releaseStage board) s

/-! ## Trims (R554, R555) -/

/-- The fields whose Reset column reads "trim" take their values (log 7). -/
def Device.trimFields (d : Device) : Device :=
  let d1 := (d.setF Reg.DEV_ID_STEP 0x0B).setF Reg.HP_PCI_ID_VENDOR 0x1F2E
  forN 20 (fun m d => (d.wr (Reg.SIG_MODCAL_OFF m) (Config.trimOff m)).wr (Reg.SIG_MODCAL_GAIN m) (Config.trimGain m)) d1

/-- An attempt of the trim load ends. -/
def execTrimLoadDone (pass : Bool) (s : State) : Host.Outcome State Fault Refusal :=
  run (fun d =>
    if d.sys.level < 2 ∨ d.sys.asserted ≠ 0 ∨ d.sys.stage ≠ 2 ∨ d.bit Reg.SYS_TRIM_STAT_VALID ∨ d.sys.trimStop then d
    else
      let d1 := d.inc Reg.SYS_TRIM_STAT_ATTEMPTS
      if pass then
        let d2 := (d1.setF Reg.SYS_TRIM_STAT_VALID 1).trimFields
        if 1 < d2.fld Reg.SYS_TRIM_STAT_ATTEMPTS then d2.raiseLate 0x005 [d2.rd Reg.SYS_TRIM_STAT] else d2
      else
        let d2 := d1.inc Reg.SYS_TRIM_STAT_FAILS
        { d2 with sys := { d2.sys with trimStop := decide (4 ≤ d2.fld Reg.SYS_TRIM_STAT_ATTEMPTS) } }) s

/-! ## Clocks (R557) -/

/-- Bit k of SYS_CLK_STAT. -/
def clkBit (k : Nat) : Fld := ⟨Reg.SYS_CLK_STAT, k, 1⟩

/-- What the loss of clock k does, in the order of SYS_CLK_STAT: 0 reference, 1 PLL_MAIN, 2 PLL_TB, 3 PLL_KL, 4 PE_REFCLK or
PLL_PCIE, 5 GXI, 6 STBY. -/
def Device.clockLost (d : Device) (k : Nat) : Device :=
  if k = 0 then d.enterReset srcClkLoss
  else if k ≤ 2 then d.enterReset srcPllLoss
  else if k = 3 then (forN 3 (fun p d => d.klRetrain p) d).raise 0x007 [d.rd Reg.SYS_CLK_STAT]
  else if k = 4 then (if d.hpLive then d.bridgeReset 2 else d).raise 0x00B [d.rd Reg.SYS_CLK_STAT]
  else if k = 5 then ((d.showGate false).setF Reg.SBG_STAT_STATE gdOFF).raise 0x008 [1]
  else
    let d1 : Device := if d.bit Reg.PWR_STBY_STAT_VALID then { d with pwr := { d.pwr with stbyWait := some 1 } } else d
    (d1.setF Reg.PWR_STBY_STAT_VALID 0).raise 0x009 [d1.rd Reg.SYS_CLK_STAT]

def execClockLoss (clk : Fin 7) (s : State) : Host.Outcome State Fault Refusal :=
  run (fun d =>
    if !d.bit (clkBit clk) then d
    else
      let d1 := (d.setF (clkBit clk) 0).wr Reg.SYS_CLK_FLAGS (d.rd Reg.SYS_CLK_FLAGS ||| wd (2 ^ clk.val))
      d1.clockLost clk) s

/-- A clock is back. A guardian that was closed stays closed (R318); any other integrates from LISTEN. -/
def Device.clockBack (d : Device) (k : Nat) : Device :=
  if k = 0 then d.negateSrc srcClkLoss
  else if k ≤ 2 then (if d.srcEnds srcPllLoss then d.negateSrc srcPllLoss else d)
  else if k = 5 then
    let d1 := if !d.bit Reg.SBG_CFG_EN then d
      else d.setF Reg.SBG_STAT_STATE (if d.fld Reg.SBG_STAT_CLOSE_CAUSE ≠ 0 then gdCLOSED else gdLISTEN)
    d1.raise 0x008 [0]
  else d

/-- A PLL relocks only with its reference and after it has locked once; CLKMODE 0b11 selects no reference. -/
def Device.mayReturn (d : Device) (k : Nat) : Bool :=
  !d.bit (clkBit k) && (if k = 0 then d.sys.lockedOnce.testBit 0 && d.refValid true
    else decide (3 < k) || d.sys.lockedOnce.testBit 1)

def execClockReturn (clk : Fin 7) (s : State) : Host.Outcome State Fault Refusal :=
  run (fun d => if d.mayReturn clk then (d.setF (clkBit clk) 1).clockBack clk else d) s

/-! ## Commands of SYS (R559) -/

/-- Both commands: their reset is requested while they stay BUSY. -/
def Device.cmdReset (d : Device) (op arg src : Nat) : Device :=
  d.command portSYS op arg (wd d.sys.level)
    ⟨arg == 0, d.perm permBundle || d.bit Reg.SYS_ROLE_NO_SERVICE, !d.bit Reg.NVM_STAT_SAVE_BUSY⟩
    (fun d => (d.beginCmd portSYS).requestReset src)

def Device.cmdResetCore (d : Device) (arg : Nat) : Device := d.cmdReset 1 arg srcSwCore
def Device.cmdResetSys (d : Device) (arg : Nat) : Device := d.cmdReset 2 arg srcSwSys

def execResetCore (arg : BitVec 24) (s : State) : Host.Outcome State Fault Refusal :=
  run (fun d => d.cmdResetCore arg.toNat) s
def execResetSys (arg : BitVec 24) (s : State) : Host.Outcome State Fault Refusal :=
  run (fun d => d.cmdResetSys arg.toNat) s

/-! ## The end of a power-fail save (R467, R546) -/

/-- The save ends, and every deferred source asserts. -/
def execPowerFailSaveEnd (durUs : Nat) (s : State) : Host.Outcome State Fault Refusal :=
  run (fun d =>
    if d.nvm.saved.isNone then d
    else
      let d1 := d.saveEnd durUs
      let m := d1.sys.deferred
      ([6, 7, 8].filter (fun k => m.testBit k)).foldl (fun d k => d.enterReset k)
        ({ d1 with sys := { d1.sys with deferred := 0 } } : Device)) s

/-- 100 ms without a warning after the save has ended: a CORE reset is requested. -/
def execPfailResume (s : State) : Host.Outcome State Fault Refusal :=
  run (fun d =>
    if d.bit Reg.NVM_STAT_FROZEN ∧ !d.bit Reg.NVM_STAT_SAVE_BUSY ∧ d.fld Reg.NVM_SAVE_RESULT ≠ 0 ∧ d.pwr.warnNow = 0 then
      d.requestReset srcPfailResume
    else d) s

end Sys2Proof.Machine
end

