-- ==== Sys2Proof/Machine/Seal.lean ====
section
/-! DEFINITION. A break of SEAL_LOOP (R394, R395, R219). -/

namespace Sys2Proof.Machine

/-- FORCE: every entry clears at the next t_HOP; the lanes carry the clear (R219). A FORCE command that waits ends. -/
def Device.revokeForce (d : Device) : Device :=
  let d1 := if d.img.stagedOwn then d.finishCmd portIMG 5 else d
  ({ d1 with img := { d1.img with staged := [.clearAll 1], stagedOwn := true, stagedAge := 0, confirmed := false } }
    : Device).setF Reg.IMG_STAT_FORCE_PEND 1

/-- ONLINE_CHANGE: an armed change returns to LOADED, and a load ends. -/
def Device.revokeOlc (d : Device) : Device :=
  if d.olcState = olcArmed then d.setF Reg.IMG_OLC_STAT_STATE olcLoaded
  else if d.olcState = olcLoading then
    (d.setF Reg.IMG_OLC_STAT_STATE (if d.img.olc.isSome then olcLoaded else olcIdle)).finishCmd portIMG 5
  else d

/-- DEBUG: a halted engine resumes as by RESUME. -/
def Device.revokeDebug (d : Device) : Device :=
  forN 24 (fun e d =>
    if d.engState e = stHalted then
      let applied := (sget noReplay d.ce.replay e).length
      d.replay e (fun d1 =>
        ((d1.setF (Reg.CE_STATUS_STATE e) stRun).raise 0x08C [wd e, wd applied]).overdueReact e 16)
    else d) d

/-- CLAIM_ARBITER. -/
def Device.revokeArb (d : Device) : Device :=
  if d.bit Reg.SYS_ROLE_ARBITER then
    (d.setF Reg.SYS_ROLE_ARBITER 0).raise 0x18F [wd (d.fld Reg.SF_SEAL_STAT_PERM_NOW)]
  else d

/-- Work of a command of the loader. -/
def isLdrCmdWork (w : NvmWork) : Bool :=
  match w with
  | .regionErase _ => true
  | .regionWrite _ _ => true
  | .arm _ _ _ => true
  | .disarm _ => true
  | .commitCfg _ => true
  | _ => false

/-- Jobs of a kind are dropped; the operation that the store runs goes on without effect on its command. -/
def Device.dropJobs (d : Device) (p : NvmWork → Bool) : Device :=
  { d with nvm := { d.nvm with
    jobs := d.nvm.jobs.filter (fun j => !p j.work)
    cur := d.nvm.cur.map (fun j => if p j.work then ⟨.tidy, j.ops.take 1⟩ else j) } }

/-- BUNDLE_UPDATE: commands of LDR and NVM that write the store, and reset commands that needed the permission. -/
def Device.revokeBundle (d : Device) : Device :=
  let d1 := if d.bit portLDR.busy then (d.dropJobs isLdrCmdWork).finishCmd portLDR 5 else d
  let hasDesc := (d1.nvm.jobs ++ d1.nvm.cur.toList).any (fun j => j.work == .desc)
  let d2 := if hasDesc then (d1.dropJobs (fun w => w == .desc)).finishCmd portNVM 5 else d1
  if d2.bit Reg.SYS_ROLE_NO_SERVICE then d2
  else
    let drop (n : Nat) : Nat := putBit (putBit n srcSwSys false) srcSwCore false
    ({ d2 with sys := { d2.sys with request := drop d2.sys.request, deferred := drop d2.sys.deferred } } : Device).finishCmd
      portSYS 5

/-- KEY_WRITE: a key that waits is not taken. -/
def Device.revokeKey (d : Device) : Device :=
  if d.sc.stageOwn then
    ({ d with sc := { d.sc with stage := none, stageOwn := false, stageOk := false, stageAge := 0 } } : Device).finishCmd
      portSC 5
  else d

/-- Every permission is revoked until the next start; `m` held until now. -/
def Device.revoked (d : Device) (m : Nat) : Device :=
  let on (k : Nat) (f : Device → Device) (d : Device) : Device := if m.testBit k then f d else d
  d |> on permForce Device.revokeForce |> on permOlc Device.revokeOlc |> on permDebug Device.revokeDebug
    |> on permArb Device.revokeArb |> on permBundle Device.revokeBundle |> on permKey Device.revokeKey

/-- SEAL_LOOP has been low for 10 µs. A loop that is broken already does not
break. -/
def execSealLoopBreak (s : State) : Host.Outcome State Fault Refusal :=
  run (fun d =>
    if !d.bit Reg.SF_SEAL_STAT_LOOP_OK then d
    else
      let m := d.fld Reg.SF_SEAL_STAT_PERM_NOW
      let d1 := ((d.setF Reg.SF_SEAL_STAT_LOOP_OK 0).setF Reg.SF_SEAL_STAT_PERM_NOW 0).setF Reg.SF_SEAL_STAT_REVOKED 1
      ((d1.fire 0xEF).raise 0x28C [wd m]).revoked m) s

end Sys2Proof.Machine
end

