-- ==== Sys2Proof/Machine/RegWrite.lean ====
section
/-! DEFINITION. Register reads and writes of the fabric masters (R11–R14, R578–R580), the CMD registers of every block
(R27), the accesses of DBG (R104) and of the host (R498–R504, R509). -/

namespace Sys2Proof.Machine

/-! ## Reads (R11, R13, R14) -/

/-- A field of a word replaced. -/
def putF (w : Word) (f : Fld) (v : Nat) : Word := withBits w f.lo f.width v

/-- The index of a repeated register at an address, if it is one of the n copies. -/
def nthOf (base step n a : Nat) : Option Nat :=
  if base ≤ a ∧ (a - base) % step = 0 ∧ (a - base) / step < n then some ((a - base) / step) else none

/-- An address of a CMD register (R27). -/
def isCmd (a : Nat) : Bool :=
  [Reg.SYS_CMD, Reg.TICK_CMD, Reg.TASK_CMD, Reg.IMG_CMD, Reg.KL_CMD, Reg.TRI_CMD, Reg.FO_CMD, Reg.SB_CMD, Reg.SBG_CMD,
    Reg.ETH_CMD, Reg.TB_CMD, Reg.SC_CMD, Reg.SF_CMD, Reg.FLD_CMD, Reg.SIG_CMD, Reg.NVM_CMD, Reg.LDR_CMD, Reg.HP_CMD,
    Reg.MB_CMD, Reg.EVR_CMD, Reg.PWR_CMD].contains a || (nthOf (Reg.CE_CMD 0) 0x400 24 a).isSome

/-- A register whose whole word is write-only reads 0 (R11). -/
def isWriteOnly (a : Nat) : Bool :=
  isCmd a || a == Reg.EVR_CLEAR_KEY || (nthOf (Reg.SC_KEY_IN 0) 4 8 a).isSome
    || (nthOf (Reg.MB_EP_W5 0) 0x20 32 a).isSome || a == Reg.MB_RES_REQ

/-- A register of the endpoints E_25–E_31, which read as 0 (R499). -/
def isReservedEp (a : Nat) : Bool := decide (Reg.MB_EP_W0 25 ≤ a) && decide (a < Reg.MB_EP_W0 32)

/-- What a read of a register returns, HSEM aside, whose read is an acquire attempt (R519). -/
def Device.view (d : Device) (a : Nat) : Word :=
  if a % 4 ≠ 0 ∨ (rowOf a).isNone ∨ isWriteOnly a ∨ isReservedEp a then 0
  else if a = Reg.IMG_OLC_DRAIN then wd (maskOf d.draining 24)
  else if a = Reg.TRI_LANE_STAT then
    let w := putF (d.rd a) Reg.TRI_LANE_STAT_OWN_LANE d.lane
    if d.isLane then w else putF w Reg.TRI_LANE_STAT_STATE 7
  else if a = Reg.FO_STAT then
    let w := putF (d.rd a) Reg.FO_STAT_ARB (d.fld Reg.SYS_ROLE_ARBITER)
    if d.bit Reg.FO_CFG_EN then w else putF w Reg.FO_STAT_STATE 4
  else if a = Reg.DBG_STATUS then
    wd (4 * b2n d.extestEn + 2 * b2n (d.perm permDebug) + b2n d.ce.dbgRun.isSome)
  else
    match nthOf (Reg.CE_STATUS 0) 0x400 24 a, nthOf (Reg.IMG_FORCE_TAB_W0 0) 8 1024 a,
      nthOf (Reg.IMG_FORCE_TAB_W1 0) 8 1024 a with
    | some e, _, _ => putF (d.rd a) (Reg.CE_STATUS_USED e) (b2n (holdsCode d.ldr.bundle e))
    | _, some k, _ => (d.forceEntry k).1
    | _, _, some k => (d.forceEntry k).2
    | _, _, _ => d.rd a

/-- A read of a register by the host or DBG. -/
def Device.regRead (d : Device) (a : Nat) (byDbg : Bool) : Word × Device :=
  match nthOf (Reg.HSEM 0) 4 64 a with
  | some k =>
    let d1 := d.hsemRead k byDbg []
    (d1.hsemValue k byDbg, d1)
  | none => (d.view a, d)

/-! ## Commands by OP (R27, R28) -/

/-- An unknown OP ends with code 2. -/
def Device.unknownOp (d : Device) (p : Port) (op arg : Nat) : Device := d.command p op arg 0 ⟨false, true, true⟩ id

/-- The levels of SEAL_0–SEAL_7 and SEAL_LOOP, which HOST_GO of a start reads. -/
structure SealPins where
  pins : Nat
  loopHigh : Bool
deriving DecidableEq, Repr

def Device.opSYS (d : Device) (op arg : Nat) : Device :=
  match op with
  | 1 => d.cmdResetCore arg
  | 2 => d.cmdResetSys arg
  | _ => d.unknownOp portSYS op arg

def Device.opTICK (d : Device) (op arg : Nat) : Device :=
  match op with
  | 1 => d.cmdSetSource arg
  | 2 => d.cmdTickClear arg
  | _ => d.unknownOp portTICK op arg

def Device.opCE (d : Device) (e : Eng) (op arg : Nat) : Device :=
  match op with
  | 1 => d.cmdHalt e arg
  | 2 => d.cmdResume e arg
  | 3 => d.cmdStep e arg
  | 4 => d.cmdRegRead e arg
  | 5 => d.cmdRegWrite e arg
  | 6 => d.cmdCeClear e arg
  | _ => d.unknownOp (portCE e) op arg

def Device.opTASK (d : Device) (op arg : Nat) : Device :=
  match op with
  | 1 => d.cmdTaskClear arg
  | 2 => d.cmdTrigger arg
  | _ => d.unknownOp portTASK op arg

def Device.opIMG (d : Device) (op arg : Nat) : Device :=
  match op with
  | 1 => d.cmdForceSet arg
  | 2 => d.cmdForceClear arg
  | 3 => d.cmdForceClearAll arg
  | 4 => d.cmdOlcLoad arg
  | 5 => d.cmdOlcArm arg
  | 6 => d.cmdOlcDisarm arg
  | _ => d.unknownOp portIMG op arg

def Device.opKL (d : Device) (op arg : Nat) : Device :=
  match op with
  | 1 => d.cmdRetrain arg
  | 2 => d.cmdKlClear arg
  | _ => d.unknownOp portKL op arg

def Device.opTRI (d : Device) (op arg : Nat) : Device :=
  match op with
  | 1 => d.cmdExclude arg
  | 2 => d.cmdShadow arg
  | 3 => d.cmdReadmit arg
  | 4 => d.cmdTriClear arg
  | _ => d.unknownOp portTRI op arg

def Device.opFO (d : Device) (op arg : Nat) : Device :=
  match op with
  | 1 => d.cmdSwitchover arg
  | 2 => d.cmdFoResync arg
  | 3 => d.cmdFoClear arg
  | _ => d.unknownOp portFO op arg

def Device.opSB (d : Device) (op arg : Nat) : Device :=
  match op with
  | 1 => d.cmdSbClear arg
  | 2 => d.cmdSbResume arg
  | 3 => d.cmdListenOnly arg
  | _ => d.unknownOp portSB op arg

def Device.opSBG (d : Device) (op arg : Nat) : Device :=
  match op with
  | 1 => d.cmdSbgClear arg
  | _ => d.unknownOp portSBG op arg

def Device.opETH (d : Device) (op arg : Nat) : Device :=
  match op with
  | 1 => d.cmdEthClear arg
  | 2 => d.cmdMdioRead arg
  | 3 => d.cmdMdioWrite arg
  | 4 => d.cmdCalibrate arg
  | _ => d.unknownOp portETH op arg

def Device.opTB (d : Device) (op arg : Nat) : Device :=
  match op with
  | 1 => d.cmdTbClear arg
  | 2 => d.cmdCapture arg
  | 3 => d.cmdSetTime arg
  | _ => d.unknownOp portTB op arg

def Device.opSC (d : Device) (op arg : Nat) : Device :=
  match op with
  | 1 => d.cmdScClear arg
  | 2 => d.cmdKeySet arg
  | _ => d.unknownOp portSC op arg

def Device.opSF (d : Device) (op arg : Nat) : Device :=
  match op with
  | 1 => d.cmdSfClear arg
  | _ => d.unknownOp portSF op arg

def Device.opFLD (d : Device) (op arg : Nat) : Device :=
  match op with
  | 1 => d.cmdFldClear arg
  | 2 => d.cmdClearFault arg
  | _ => d.unknownOp portFLD op arg

def Device.opSIG (d : Device) (op arg : Nat) : Device :=
  match op with
  | 1 => d.cmdSigClear arg
  | _ => d.unknownOp portSIG op arg

def Device.opNVM (d : Device) (op arg : Nat) : Device :=
  match op with
  | 1 => d.cmdNvmClear arg
  | 2 => d.cmdReadPage arg
  | 3 => d.cmdProgramPage arg
  | 4 => d.cmdEraseBlock arg
  | 5 => d.cmdDescWrite arg
  | 6 => d.cmdScrubNow arg
  | _ => d.unknownOp portNVM op arg

def Device.opLDR (d : Device) (sp : SealPins) (op arg : Nat) : Device :=
  match op with
  | 1 => d.cmdRegionErase arg
  | 2 => d.cmdRegionWrite arg
  | 3 => d.cmdSlotArm arg
  | 4 => d.cmdSlotDisarm arg
  | 5 => d.cmdCfgCommit arg
  | 6 => d.cmdPkhProgram arg
  | 7 => d.cmdReleaseKept arg
  | 8 => d.cmdHostGo arg sp.pins sp.loopHigh
  | 9 => d.cmdRestart arg
  | _ => d.unknownOp portLDR op arg

def Device.opHP (d : Device) (op arg : Nat) : Device :=
  match op with
  | 1 => d.cmdHpClear arg
  | 2 => d.cmdDmaToHost arg
  | 3 => d.cmdDmaFromHost arg
  | _ => d.unknownOp portHP op arg

def Device.opMB (d : Device) (op arg : Nat) : Device :=
  match op with
  | 1 => d.cmdMbClear arg
  | 2 => d.cmdMbSend arg
  | 3 => d.cmdMbAck arg
  | 4 => d.cmdEpReset arg
  | _ => d.unknownOp portMB op arg

def Device.opEVR (d : Device) (byDbg : Bool) (op arg : Nat) : Device :=
  match op with
  | 1 => d.cmdEvrClear arg
  | 2 => d.cmdFreeze arg
  | 3 => d.cmdUnfreeze arg
  | 4 => d.cmdCopy arg
  | 5 => d.cmdClear arg (busIndex byDbg)
  | _ => d.unknownOp portEVR op arg

def Device.opPWR (d : Device) (op arg : Nat) : Device :=
  match op with
  | 1 => d.cmdPwrClear arg
  | 2 => d.cmdClearWake arg
  | _ => d.unknownOp portPWR op arg

/-- A write of the CMD register at an address. -/
def Device.cmdWrite (d : Device) (a : Nat) (val : Word) (byDbg : Bool) (sp : SealPins) : Device :=
  let op := val.toNat / 2 ^ 24
  let arg := val.toNat % 2 ^ 24
  match nthOf (Reg.CE_CMD 0) 0x400 24 a with
  | some e => if h : e < 24 then d.opCE ⟨e, h⟩ op arg else d
  | none =>
    if a = Reg.SYS_CMD then d.opSYS op arg
    else if a = Reg.TICK_CMD then d.opTICK op arg
    else if a = Reg.TASK_CMD then d.opTASK op arg
    else if a = Reg.IMG_CMD then d.opIMG op arg
    else if a = Reg.KL_CMD then d.opKL op arg
    else if a = Reg.TRI_CMD then d.opTRI op arg
    else if a = Reg.FO_CMD then d.opFO op arg
    else if a = Reg.SB_CMD then d.opSB op arg
    else if a = Reg.SBG_CMD then d.opSBG op arg
    else if a = Reg.ETH_CMD then d.opETH op arg
    else if a = Reg.TB_CMD then d.opTB op arg
    else if a = Reg.SC_CMD then d.opSC op arg
    else if a = Reg.SF_CMD then d.opSF op arg
    else if a = Reg.FLD_CMD then d.opFLD op arg
    else if a = Reg.SIG_CMD then d.opSIG op arg
    else if a = Reg.NVM_CMD then d.opNVM op arg
    else if a = Reg.LDR_CMD then d.opLDR sp op arg
    else if a = Reg.HP_CMD then d.opHP op arg
    else if a = Reg.MB_CMD then d.opMB op arg
    else if a = Reg.EVR_CMD then d.opEVR byDbg op arg
    else if a = Reg.PWR_CMD then d.opPWR op arg
    else d

/-! ## Writes (R11) -/

/-- The event range of block b and whether blocks share it (R34, R35); DBG has none. -/
def blockEv (b : Nat) : Option (Nat × Bool) :=
  [some (0x000, false), some (0x040, false), some (0x080, false), some (0x0C0, false), some (0x100, false),
    some (0x140, true), some (0x140, true), some (0x180, false), some (0x1C0, true), some (0x1C0, true),
    some (0x200, true), some (0x200, true), some (0x240, false), some (0x280, false), some (0x2C0, false),
    some (0x300, false), some (0x340, false), some (0x380, false), some (0x3C0, true), some (0x3C0, true),
    some (0x3C0, true), some (0x3C0, true), none].getD b none

/-- The event of a write to an RWL field after the seal permissions were applied (R11, R35). -/
def Device.lockedWrite (d : Device) (a : Nat) (val : Word) : Device :=
  let b := (a - 0x4000000) / 0x10000
  match blockEv b with
  | none => d
  | some (ev, shared) =>
    let ws := [wd ((a - 0x4000000) % 0x10000), val]
    d.raise (ev + 1) (if shared then wd (0x4000000 + 0x10000 * b) :: ws else ws)

/-- The word that a write leaves by the access codes of R11: RW bits are set, RWL bits only while not locked, W1C bits
written as 1 clear. -/
def maskWrite (r : Reg.Row) (locked : Bool) (old val : Word) : Word :=
  let m := wd (if locked then r.rw else r.rw ||| r.rwl)
  ((old &&& ~~~ m) ||| (val &&& m)) &&& ~~~ (val &&& wd r.w1c)

/-- A write to a register with plain fields. -/
def Device.plainWrite (d : Device) (r : Reg.Row) (a : Nat) (val : Word) : Device :=
  let d1 := d.wr a (maskWrite r d.ldr.locked (d.rd a) val)
  if d.ldr.locked ∧ r.rwl ≠ 0 then d1.lockedWrite a val else d1

/-- A write to a register whose description gives it an action of its own; none: it has plain fields. -/
def Device.specialWrite (d : Device) (a : Nat) (val : Word) (byDbg : Bool) (sp : SealPins) : Option Device :=
  if isCmd a then some (d.cmdWrite a val byDbg sp)
  else if isReservedEp a then some d
  else if a = Reg.EVR_CLEAR_KEY then some { d with evr := { d.evr with keyIn := val } }
  else if a = Reg.MB_RES_REQ then some (d.resultRequest (val.toNat % 65536))
  else if a = Reg.MB_EP_W4 24 then some (d.doorbellClear val)
  else if a = Reg.HP_WERR_INFO then
    some (if val.msb then (d.setF Reg.HP_WERR_INFO_VALID 0).setF Reg.HP_WERR_INFO_COUNT 0 else d)
  else
    match nthOf (Reg.HSEM 0) 4 64 a, nthOf (Reg.MB_EP_W5 0) 0x20 25 a, nthOf (Reg.ETH_TXTS_STAT 0) 0x40 3 a with
    | some k, _, _ => some (d.hsemWrite k byDbg (val.toNat.testBit 0))
    | _, some n, _ => some (d.doorbell n val)
    | _, _, some p => some (if val.msb then d.txtsPop p else d)
    | _, _, _ =>
      match (List.range 4).filterMap (fun n => (nthOf (Reg.CE_BP 0 n) 0x400 24 a).map (fun e => (e, n))) with
      | (e, n) :: _ => some (d.bpWrite e n val)
      | [] =>
        if 0x4141000 ≤ a ∧ a < 0x4143000 ∧ !d.ldr.locked ∧ 5 ≤ bitsOf val 16 3 then some d
        else if (nthOf (Reg.SC_KEY_IN 0) 4 8 a).isSome then some (d.wr a val)
        else none

/-- A write to a register by the host or DBG (R11–R13, R580). -/
def Device.regWrite (d : Device) (a : Nat) (val : Word) (byDbg : Bool) (sp : SealPins) : Device :=
  match rowOf a with
  | none => d
  | some r =>
    match d.specialWrite a val byDbg sp with
    | some d1 => d1
    | none => d.plainWrite r a val

/-- An aligned address inside the register blocks (R578). -/
def isRegAddr (a : Nat) : Bool := decide (0x4000000 ≤ a) && decide (a < 0x4170000) && a % 4 == 0

def execGenericRegisterWrite (addr : Nat) (val : Word) (byHost : Bool) (pins : BitVec 8) (loopHigh : Bool) (s : State) :
    Host.Outcome State Fault Refusal :=
  run (fun d => if isRegAddr addr then d.regWrite addr val (!byHost) ⟨pins.toNat, loopHigh⟩ else d) s

/-! ## DBG_ACCESS (R104, R579, R582) -/

/-- What a DBG access found: the data read, or an error. -/
def Device.dbgRead (d : Device) (a : Nat) : Option Word × Device :=
  if a < 0x800000 ∨ (0x1000000 ≤ a ∧ a < 0x10F0000) then
    match d.busRead 6 a 4 with
    | (some l, d1) => (some (wd (leNat l)), d1)
    | (none, d1) => (none, d1)
  else if 0x2000000 ≤ a ∧ a < 0x2040000 then
    let k := (a - 0x2000000) / 64
    match sget noRec d.evr.log k with
    | some r => (some (wd (leNat ((r.native.drop (a % 64)).take 4))), d)
    | none => (some 0, d)
  else if isRegAddr a then
    let r := d.regRead a true
    (some r.1, r.2)
  else (none, d)

/-- A write of DBG: false is an error. The I image is read-only (R212). -/
def Device.dbgWrite (d : Device) (a : Nat) (val : Word) (sp : SealPins) : Bool × Device :=
  if 0x1000000 ≤ a ∧ a < 0x1020000 then (false, d.raise 0x10D [wd (busIndex true), wd a])
  else if a < 0x800000 ∨ (0x1020000 ≤ a ∧ a < 0x10F0000) then d.busWrite 6 a (leBytes 4 val.toNat)
  else if isRegAddr a then (true, d.regWrite a val true sp)
  else (false, d)

/-- The access ends with a status and data. -/
def Device.dbgEnd (d : Device) (r : DbgAcc) (status : Nat) (data : Word) : Device :=
  { d with ce := { d.ce with dbgRun := none, dbgPrev := { op := status, waddr := r.waddr, data := data } } }

def execDbgAccessDone (pins : BitVec 8) (loopHigh : Bool) (s : State) : Host.Outcome State Fault Refusal :=
  run (fun d =>
    match d.ce.dbgRun with
    | none => d
    | some r =>
      if !d.perm permDebug then d.dbgEnd r 3 0
      else if r.op = 1 then
        match d.dbgRead (4 * r.waddr) with
        | (some w, d1) => d1.dbgEnd r 0 w
        | (none, d1) => d1.dbgEnd r 2 0
      else
        match d.dbgWrite (4 * r.waddr) r.data ⟨pins.toNat, loopHigh⟩ with
        | (true, d1) => d1.dbgEnd r 0 0
        | (false, d1) => d1.dbgEnd r 2 0) s

/-! ## The host (R498–R504, R509) -/

/-- Causes of a failed access (HP_WERR_INFO.CAUSE). -/
def hcForm : Nat := 1
def hcUnmapped : Nat := 2
def hcCodeword : Nat := 4
def hcWpRet : Nat := 5

/-- A Completer Abort: counter and event 0x3C5 with the fabric address and the cause (R502). -/
def Device.abortRead (d : Device) (a cause : Nat) (data : List Byte) : Device :=
  ((d.send (.completion data true)).inc Reg.HP_CNT_CA_SENT).raise 0x3C5 [wd a, wd cause]

/-- A failed posted write (R503). -/
def Device.failWrite (d : Device) (a cause : Nat) : Device :=
  let d1 := d.inc Reg.HP_CNT_WERR
  let d2 :=
    if d1.bit Reg.HP_WERR_INFO_VALID then d1.inc Reg.HP_WERR_INFO_COUNT
    else
      (((d1.wr Reg.HP_WERR_ADDR (wd a)).setF Reg.HP_WERR_INFO_CAUSE cause).setF Reg.HP_WERR_INFO_VALID 1).cause 0
  d2.raise 0x3C4 [wd a, wd cause]

/-- The host's requests reach the function (R496, R497). -/
def Device.hostReaches (d : Device) : Bool := d.hpLive && d.bit Reg.HP_LINK_LINK_UP

/-- Requests meet D3hot (R497). -/
def Device.hostSleeps (d : Device) : Bool := d.fld Reg.HP_LINK_D_STATE != 0

/-- The MSI-X table and the Pending Bit Array, at an offset of HWA. -/
def isMsixOff (off : Nat) : Bool :=
  (decide (0x121000 ≤ off) && decide (off < 0x121200)) || (decide (0x122000 ≤ off) && decide (off < 0x122008))

/-- A request into HWA has the size and form that R499 accepts. -/
def hwaForm (off n : Nat) (full : Bool) : Bool :=
  full && ((n == 4 && off % 4 == 0) || (n == 8 && off % 8 == 0 && isMsixOff off))

/-- The good bytes of a read of SDM codeword by codeword, and the address of the codeword that ended it (R502). -/
def Device.hostScan (d : Device) : List Nat → Option Nat × Device
  | [] => (none, d)
  | k :: t =>
    match d.eccRead 2 0 k with
    | (true, d1) => d1.hostScan t
    | (false, d1) => (some k, d1)

/-- A read of SDM through HWB. -/
def Device.hwbRead (d : Device) (off n : Nat) : Device :=
  match d.hostScan (sharedKeys off n) with
  | (none, d1) => d1.send (.completion (d1.seenBytes off n) false)
  | (some k, d1) => d1.abortRead (max off (8 * k)) hcCodeword (d1.seenBytes off (8 * k - off))

/-- A read through HWA. -/
def Device.hwaRead (d : Device) (off n : Nat) (full : Bool) : Device :=
  if !hwaForm off n full then d.abortRead (0x4000000 + off) hcForm []
  else if 0x170000 ≤ off then d.abortRead (0x4000000 + off) hcUnmapped []
  else if n = 4 then
    let r := d.regRead (0x4000000 + off) false
    r.2.send (.completion (leBytes 4 r.1.toNat) false)
  else
    d.send (.completion (leBytes 4 (d.view (0x4000000 + off)).toNat ++ leBytes 4 (d.view (0x4000004 + off)).toNat) false)

def execHostMemoryRead (hwa : Bool) (off n : Nat) (full : Bool) (s : State) : Host.Outcome State Fault Refusal :=
  run (fun d =>
    if !d.hostReaches || n == 0 then d
    else if d.hostSleeps then d.send .unsupported
    else if hwa then (if off < 0x1000000 then d.hwaRead off n full else d)
    else if off + n ≤ 0x800000 then d.hwbRead off n
    else d) s

/-- The enabled bytes of a write that lie in codeword k, with their addresses. -/
def lanesOf (off : Nat) (data : List (Option Byte)) (k : Nat) : List (Nat × Byte) :=
  (List.range 8).filterMap (fun i =>
    if off ≤ 8 * k + i then ((data[8 * k + i - off]?).join).map (fun b => (8 * k + i, b)) else none)

/-- Write bytes at their addresses. -/
def Device.putLanes (d : Device) (l : List (Nat × Byte)) : Device := l.foldl (fun (y : Device) x => y.setByte x.1 x.2) d

/-- A write of SDM codeword by codeword (R76, R500, R503): refused bytes keep their content; the first address that
failed. -/
def Device.hwbStore (d : Device) (off : Nat) (data : List (Option Byte)) : List Nat → Option Nat × Device
  | [] => (none, d)
  | k :: t =>
    let l := lanesOf off data k
    if l.isEmpty then d.hwbStore off data t
    else if l.length = 8 then ((d.setEcc k .clean).putLanes l).hwbStore off data t
    else
      match d.eccRead 2 0 k with
      | (true, d1) => ((d1.setEcc k .clean).putLanes l).hwbStore off data t
      | (false, d1) =>
        let r := d1.hwbStore off data t
        (some (max off (8 * k)), r.2)

/-- A write through HWB. -/
def Device.hwbWrite (d : Device) (off : Nat) (data : List (Option Byte)) : Device :=
  if d.bit Reg.HP_HWIN_WP_RET ∧ retBase < off + data.length then d.failWrite off hcWpRet
  else
    match d.hwbStore off data (sharedKeys off data.length) with
    | (none, d1) => d1
    | (some a, d1) => d1.failWrite a hcCodeword

/-- A write through HWA. -/
def Device.hwaWrite (d : Device) (off : Nat) (data : List (Option Byte)) (sp : SealPins) : Device :=
  let l := data.filterMap id
  if !hwaForm off data.length (l.length == data.length) then d.failWrite (0x4000000 + off) hcForm
  else if 0x170000 ≤ off then d.failWrite (0x4000000 + off) hcUnmapped
  else
    let d1 := d.regWrite (0x4000000 + off) (wd (leNat (l.take 4))) false sp
    if data.length = 8 then d1.regWrite (0x4000004 + off) (wd (leNat (l.drop 4))) false sp else d1

def execHostMemoryWrite (hwa : Bool) (off : Nat) (data : List (Option Byte)) (pins : BitVec 8) (loopHigh : Bool)
    (s : State) : Host.Outcome State Fault Refusal :=
  run (fun d =>
    if !d.hostReaches || data.isEmpty then d
    else if d.hostSleeps then d.send .unsupported
    else if hwa then (if off < 0x1000000 then d.hwaWrite off data ⟨pins.toNat, loopHigh⟩ else d)
    else if off + data.length ≤ 0x800000 then d.hwbWrite off data
    else d) s

/-- The value that an AtomicOp stores, if any (R509). -/
def atomicNew (kind : AtomicKind) (old operand compare : Nat) : Option Nat :=
  match kind with
  | .fetchAdd => some (old + operand)
  | .swap => some operand
  | .cas => if old = compare then some operand else none

/-- An AtomicOp into HWB. -/
def Device.hwbAtomic (d : Device) (off : Nat) (kind : AtomicKind) (n operand compare : Nat) : Device :=
  if d.bit Reg.HP_HWIN_WP_RET ∧ retBase < off + n then d.abortRead off hcWpRet []
  else
    match d.hostScan (sharedKeys off n) with
    | (some _, d1) => d1.abortRead off hcCodeword []
    | (none, d1) =>
      let old := leNat (d1.seenBytes off n)
      let d2 := match atomicNew kind old operand (compare % 256 ^ n) with
        | some v => ((sharedKeys off n).foldl (fun (y : Device) k => y.setEcc k .clean) d1).setBytes off (leBytes n v)
        | none => d1
      (d2.inc Reg.HP_CNT_ATOMIC).send (.completion (leBytes n old) false)

def execHostAtomicOp (hwa : Bool) (off : Nat) (kind : AtomicKind) (n : Nat) (operand compare : BitVec 64) (s : State) :
    Host.Outcome State Fault Refusal :=
  run (fun d =>
    if !d.hostReaches then d
    else if d.hostSleeps then d.send .unsupported
    else if hwa then (if off < 0x1000000 then d.abortRead (0x4000000 + off) hcForm [] else d)
    else if n ≠ 4 ∧ n ≠ 8 then d.send .unsupported
    else if off + n ≤ 0x800000 then
      if off % n ≠ 0 then d.abortRead off hcForm []
      else d.hwbAtomic off kind n operand.toNat compare.toNat
    else d) s

end Sys2Proof.Machine
end

