-- ==== Sys2Proof/Machine/Tick.lean ====
section
/-! DEFINITION. The tick (R50–R66, R207): its boundary, t_HOP, t_VOTE, t_VEND, timer expiry (R158), and one clock of
the device on an empty queue. -/

namespace Sys2Proof.Machine

/-! ## Commits (R57–R59, R211, R256) -/

/-- The tick that ends commits its images: a single device that was ready at t_VOTE, or a lane in VOTING once the vote
result stands. -/
def Device.tickCommits (d : Device) : Bool :=
  !d.tick.noCommit && (if d.isLane then d.tick.phase == 4 && d.votesSelf
    else decide (3 ≤ d.tick.phase) && d.tick.ready)

/-- The tick that ends commits the retained area and the state regions. -/
def Device.stateCommits (d : Device) : Bool :=
  decide (3 ≤ d.tick.phase) && d.tick.ready && !d.tick.noState

/-- The field output image commits, all-off while outputs are withheld or a station holds them off (R273, R287). -/
def Device.commitField (d : Device) : Device :=
  let m := if d.withheld ∨ d.stationOff then mapPut d.img.frozen (d.areaBase areaQ + 0x1FF00) [0, 0, 0] else d.img.frozen
  let d1 := (({ d with img := { d.img with committed := m } } : Device).lockCommit).gateCommit
  (d1.fdCommit.sigCommit d.withheld).publishResults

/-- The Sahtu transmit buffers commit. -/
def Device.commitSahtu (d : Device) : Device :=
  { d with img := { d.img with committedSb := d.img.frozen }, sb := { d.sb with committed := true } }

/-- The Ethernet launch queues commit at instant bc; a unit that withholds its outputs releases no entry. -/
def Device.commitEth (d : Device) (bc : Nat) : Device :=
  let d1 := ({ d with img := { d.img with committedEth := d.img.frozen } } : Device).ethCommit bc
  if d.withheld then forN 3 (fun p d => d.setLaunches p []) d1 else d1

/-- The images with their TICK_EARLY bits as given commit at instant bc (R58). -/
def Device.commitImages (d : Device) (early : Bool) (bc : Nat) : Device :=
  let d1 := if d.bit Reg.TICK_EARLY_FIELD = early then d.commitField else d
  let d2 := if d1.bit Reg.TICK_EARLY_SAHTU = early then d1.commitSahtu else d1
  if d2.bit Reg.TICK_EARLY_ETH = early then d2.commitEth bc else d2

/-- START and the triad-exclusion input of Sluice end at a boundary commit, and LANE_OK rises (R245, R385). -/
def Device.commitReleases (d : Device) : Device :=
  let d1 := d.slNegate slStart
  let d2 := if d1.isLane then d1.slNegate slTriad else d1
  { d2 with tri := { d2.tri with laneOk := true } }

/-- The retained area and the state regions commit whole, the marker last (R37, R211). -/
def Device.commitState (d : Device) : Device :=
  let r := d.regionParts.foldl (fun m p => copyRange m d.mem p.base (256 * p.grans)) []
  let d1 := ({ d with img := { d.img with
    retained := takeRange d.mem 0x7F0000 65536
    regions := r
    retVer := d.fld Reg.LDR_RET_VER_RET_VER
    retValid := true } } : Device).foCommit
  let d2 := d1.wr Reg.IMG_P_SEQ (d1.rd Reg.IMG_P_SEQ + 1)
  { d2 with
    img := { d2.img with retSeq := (d2.rd Reg.IMG_P_SEQ).toNat }
    fo := { d2.fo with committedNow := true } }

/-- The digest of a state commit that the lanes vote on (R254). -/
def Device.stateDigest (d : Device) : Word :=
  crc32c (mapGet d.img.retained 0x7F0000 65536
    ++ (d.regionParts.map (fun p => mapGet d.img.regions p.base (256 * p.grans))).flatten)

/-- The P4 commit at a boundary. -/
def Device.commitBoundary (d : Device) : Device :=
  let d1 := if d.tickCommits then (d.commitReleases).commitImages false d.ts64 else d
  if d.stateCommits then d1.commitState else { d1 with fo := { d1.fo with committedNow := false } }

/-! ## The P0 latch (R52, R53) -/

/-- Everything that is complete now enters the raw inputs of the next tick. -/
def Device.latchInputs (d : Device) (m : FieldMeas) : Device :=
  let d1 := ({ d with img := { d.img with latch := [] } } : Device).measure m
  let d2 := d1.fdLatch.sigLatch.sfLatch.sbLatch.ethLatch.scLatch
  { d2 with fo := { d2.fo with echoLatched := d2.fo.echo, echo := [] } }

/-! ## The source at a boundary (R43–R48) -/

/-- The distance from the boundary to the nearest multiple of the period; of two equally near ones the later. -/
def Device.multipleErr (d : Device) : Int :=
  let p := 1000 * max 1 d.periodUs
  let r := (d.tbNs % (p : Int)).toNat
  if 2 * r < p then -(r : Int) else (p : Int) - r

/-- SET_SOURCE takes effect and ends. -/
def Device.takeSource (d : Device) : Device :=
  match d.tick.pendSrc with
  | none => d
  | some k =>
    ((({ d with tick := { d.tick with pendSrc := none } } : Device).setF Reg.TICK_CFG_SRC k).raise 0x04D []).finishCmd
      portTICK 0

/-- The source in effect (R42, R47). A change ends a loss, and is slewed. -/
def Device.sourceInEffect (d : Device) : Device :=
  let rides := d.fld Reg.TICK_CFG_SRC == srcSAHTU && d.bit Reg.SB_STAT_IS_MASTER
  let act := if !rides then d.fld Reg.TICK_CFG_SRC else if d.tbLocked then srcNETTIME else srcFREE
  let d1 := d.setB Reg.TICK_STATUS_MASTER_OVERRIDE rides
  if act = d1.srcAct then d1
  else
    let d2 : Device := { d1 with tick := { d1.tick with err := 0, evSeen := false, noEv := 0 } }
    (d2.setF Reg.TICK_STATUS_SRC_ACT act).setF Reg.TICK_STATUS_LOCK lockFREE

/-- e of the next period, and the count of periods without a valid event. A period without an event has no correction. -/
def Device.boundaryErr (d : Device) : Device :=
  let src := d.srcAct
  if src = srcFREE then ({ d with tick := { d.tick with err := 0 } } : Device).wr Reg.TICK_PHASE_ERR 0
  else if src = srcNETTIME then
    ({ d with tick := { d.tick with err := d.multipleErr } } : Device).setS Reg.TICK_PHASE_ERR_ERR_NS d.multipleErr
  else
    { d with tick := { d.tick with
      err := if d.tick.evSeen ∧ !d.tick.late ∧ !d.srcLost then d.tick.err else 0
      noEv := if d.tick.evSeen then 0 else d.tick.noEv + 1 } }

/-- The source step of a boundary; the triad's correction c, and the length of the next period. -/
def Device.sourceStep (d : Device) : Device :=
  let d1 := d.sourceInEffect.boundaryErr.alignBoundary.planPeriod
  { d1 with tick := { d1.tick with evSeen := false, late := false } }

/-! ## Activation of an armed slot (R267, R490) -/

/-- The program of an activation page has been asked for. -/
def Device.activating (d : Device) : Bool :=
  (d.nvm.jobs ++ d.nvm.cur.toList).any (fun j => match j.work with
    | .activate _ => true
    | _ => false)

/-- Every lane in VOTING reports the armed bundle and time of this lane, and enough lanes are in VOTING. -/
def Device.activationAgreed (d : Device) (a : Word × Nat) : Bool :=
  let n := d.votingLanes.length
  (n == 3 || (n == 2 && d.bit Reg.TRI_CFG_UPD_2OO2)) && d.allVotes (fun m => m.armed == some a)

/-- The armed bundle IDs of the lanes A to C, as heard. -/
def Device.armedWords (d : Device) : List Word :=
  (List.range 3).map (fun i => ((sget noVote d.tri.votes i).bind (fun m => m.armed.map (fun x => x.1))).getD 0)

/-- The first boundary at or after the activation time of an armed slot. -/
def Device.slotActivation (d : Device) : Device :=
  match d.ldr.armed with
  | none => d
  | some a =>
    if a.2 = 0 ∨ d.activating ∨ a.2 ≤ d.ldr.actTs ∨ d.tick.boundaryTs < a.2 then d
    else if !d.isLane then (if d.tbState = tbACQUIRE then d else d.activateSlot)
    else if d.activationAgreed a then
      (({ d with tri := { d.tri with deferTold := false } } : Device).activateSlot).abandonReadmit 4
    else if d.tri.deferTold then d
    else ({ d with tri := { d.tri with deferTold := true } } : Device).raise 0x152 d.armedWords

/-! ## Boundaries -/

/-- Each running timer cell adds PERIOD_US (R155). -/
def Device.timersAdvance (d : Device) : Device :=
  { d with ce := { d.ce with tcells := d.ce.tcells.map (fun e =>
      (e.1, if e.2.run then { e.2 with acc := min (2 ^ 48 - 1) (e.2.acc + d.periodUs) } else e.2)) } }

/-- TICK_COUNT, the time of the boundary, and a fresh tick. -/
def Device.countTick (d : Device) (n : Nat) : Device :=
  let d1 := (d.wr Reg.TICK_COUNT_LO (wd n)).wr Reg.TICK_COUNT_HI (wd (n / 2 ^ 32))
  { d1 with tick := { d1.tick with
    boundaryTs := d1.ts64, tickT := d1.ts64, tickUs := (d1.tbNs / 1000).toNat
    ready := false, noCommit := false, noState := false, phase := 1 } }

/-- What follows the commit and the latch at every boundary at which ticks go on. -/
def Device.boundaryEnd (d : Device) : Device :=
  let d1 := d.sourceStep.hopSend
  ((((d1.sbElect true).ethBoundary.readmitTick).donate).slotActivation).wakeEvent

/-- The first boundary may fall now (R45, R248). -/
def Device.mayStart (d : Device) : Bool :=
  if d.isLane then
    (d.tri.startSet.contains d.lane && d.tri.startAt.isSome)
      || d.fld Reg.TRI_LANE_STAT_STATE == lsReadmit || d.fld Reg.TRI_LANE_STAT_STATE == lsShadow
  else d.srcAct == srcFREE || d.srcAct == srcNETTIME || d.tick.firstDue

/-- The first boundary starts the start tick; a lane that joins a running triad takes the triad's count (R66, R182). -/
def Device.firstBoundary (d : Device) (m : FieldMeas) (startUs : Nat) : Device :=
  let d1 := if d.ldr.phase = 4 then d.prepareStart else d
  let joins := d1.isLane && !d1.tri.startSet.contains d1.lane
  let d2 := d1.countTick (if joins then d1.tri.runTick + 1 else 0)
  let d3 := ({ d2 with
    tick := { d2.tick with started := true, wdArmed := true }
    ldr := { d2.ldr with phase := 5 } } : Device).setF Reg.TICK_STATUS_RUNNING 1
  let d4 := forN 24 (fun e d => if d.engState e = stReady then d.setF (Reg.CE_STATUS_STATE e) stRun else d) d3
  let d5 := (d4.wr Reg.LDR_START_US (wd startUs)).raise 0x388
    [wd (d4.fld Reg.LDR_STAT_RTYPE), wd (d4.fld Reg.LDR_STAT_SLOT_RUN), wd startUs]
  let d6 := if joins then d5 else d5.tri.startSet.foldl (fun d i => d.toLane i lsVoting) d5
  ((d6.cause 7).latchInputs m).boundaryEnd

/-- Any other boundary: the latch captures first, the previous tick commits, and the count advances (R53, R57, R66). A
power-fail freeze lets the commit complete; no latch follows (R65). -/
def Device.nextBoundary (d : Device) (m : FieldMeas) : Device :=
  let stop := d.tick.stopNext
  let d1 := if stop then d else d.latchInputs m
  let commits := d1.stateCommits
  let d2 := d1.copyDue.foBoundary.commitBoundary
  let d3 := d2.countTick (d2.tickCount + 1)
  let d4 : Device := if commits ∧ d3.isLane then
      { d3 with tri := { d3.tri with digest := some (d3.tickCount, d3.stateDigest) } }
    else d3
  let d5 := if commits then d4.copySend else d4
  let d6 := d5.timersAdvance
  let d7 := if d6.tickCount = 1 ∧ d6.fld Reg.LDR_STAT_RTYPE = 0 then d6.setF Reg.LDR_STAT_FORCE_COLD 0 else d6
  if stop then ((d7.takeSource).freezeNow).setF Reg.TICK_STATUS_RUNNING 0 else d7.takeSource.boundaryEnd

/-- A tick boundary falls. `meas`: what the field die measures; `startUs`: the time that this start took. -/
def execTickBoundary (meas : FieldMeas) (startUs : Nat) (s : State) : Host.Outcome State Fault Refusal :=
  run (fun d =>
    if !d.ticking then d
    else if d.tick.started then d.nextBoundary meas
    else if d.mayStart then d.firstBoundary meas startUs
    else d) s

/-! ## t_HOP (R204, R207, R208) -/

/-- Bytes of a map enter memory. -/
def Device.putMap (d : Device) (m : SMap Byte) : Device := m.foldl (fun d e => d.setBytes e.1 [e.2]) d

/-- Step 1: the latched, in a lane the agreed, inputs replace I bytes 4 to 7 and the inbound parts; the diagnostics are the
device's own (R252). -/
def Device.hopInputs (d : Device) : Device :=
  let src := if d.isLane then d.tri.agreed else d.img.latch
  let i0 := d.areaBase areaI
  let d1 := (d.zeroRange (i0 + 4) 4).putMap (takeRange src (i0 + 4) 4)
  let d2 := (d1.zeroRange (i0 + 0x1FF00) 256).putMap (takeRange d.img.latch (i0 + 0x1FF00) 256)
  [areaS, areaN, areaA].foldl (fun d ar =>
    (d.zeroRange (d.areaBase ar) (d.inLen ar)).putMap (takeRange src (d.areaBase ar) (d.inLen ar))) d2

/-- I bytes 0 to 3. -/
def Device.hopFlags (d : Device) : Device :=
  let locked := if d.isLane then d.tri.agreedLock else d.fld Reg.TICK_STATUS_LOCK == lockLOCKED
  let v := b2n (d.tickCount == 0) + 2 * b2n locked + 4 * b2n (!d.img.force.isEmpty)
    + 8 * b2n (d.isLane && decide (d.votingLanes.length < 3)) + 16 * b2n d.withheld
  (d.zeroRange (d.areaBase areaI) 4).setBytes (d.areaBase areaI) (leBytes 4 v)

/-- TICKT as the hopper agrees it (R251). -/
def Device.hopTime (d : Device) : Device :=
  match (if d.isLane then d.tri.agreedTs else none) with
  | some t => { d with tick := { d.tick with tickT := t, tickUs := t / 1000 } }
  | none => d

/-- The old retained block of a migrate start reads 0 from t_HOP of tick 1 on (R486). -/
def Device.endMigration (d : Device) : Device :=
  if d.tickCount = 1 ∧ d.fld Reg.LDR_STAT_RTYPE = 2 then
    d.zeroRange (65536 * d.fld Reg.LDR_MIG_MIG_BASE) 0x10000
  else d

/-- t_HOP. -/
def execHopClose (s : State) : Host.Outcome State Fault Refusal :=
  run (fun d =>
    if !d.ticking ∨ d.tick.phase ≠ 1 then d
    else
      let d0 : Device := { d with tick := { d.tick with phase := 2 } }
      let d1 := d0.copyApply.readmitDone.hopTime.hopInputs
      let d2 := d1.stationAccept.supervise.scHop.inCopies.forcesAtHop.keyAtHop
      let d3 := d2.hopFlags.hopExclude.linkExclude.endMigration
      (d3.releasePoint).nvmRing.evrRing) s

/-! ## t_VOTE (R54–R56, R59, R60) -/

/-- A release still stands whose deadline is this t_VOTE. -/
def Device.dueNow (d : Device) (r : Option Rel) : Bool :=
  match r with
  | some x => x.due == some d.tickCount
  | none => false

/-- Every instance with its deadline at this t_VOTE has ended (R55). -/
def Device.readyNow (d : Device) : Bool :=
  !d.task.rel.any (fun e => d.dueNow e.2) && !d.task.latched.any (fun e => d.dueNow e.2)
    && !d.task.boundarySet.any (fun e => d.dueNow (some e.2)) && !d.task.unended.any (fun e => e.2 == d.tickCount)

/-- Ready: acknowledgements are read and due containers form (R364, R370). -/
def Device.voteReady (d : Device) : Device :=
  let d1 := (({ d with tick := { d.tick with ready := true, nr3Told := false } } : Device).setF
    Reg.TICK_STATUS_NR_CONSEC 0).scAckRead
  if d1.withheld then { d1 with sc := { d1.sc with formed := [] } } else d1.scFormAll

/-- Not ready: counts and event 0x048; nothing new commits, and a migrate start fails (R59, R60, R486). -/
def Device.voteNotReady (d : Device) : Device :=
  let d1 : Device := { d with tick := { d.tick with ready := false, noState := true }, sc := { d.sc with formed := [] } }
  let d2 := (((d1.setF Reg.TICK_FLAGS_NOT_READY 1).inc Reg.TICK_ERR_CNT_NR).inc Reg.TICK_STATUS_NR_CONSEC).raise 0x048 []
  if d2.tickCount = 0 ∧ d2.fld Reg.LDR_STAT_RTYPE = 2 ∧ !d2.sys.request.testBit srcMigFail then
    d2.migFail (((List.range 24).find? (fun e => d2.startEntry e |>.isSome)).getD 0) 0xFF
  else d2

/-- t_VOTE. -/
def execVoteFreeze (s : State) : Host.Outcome State Fault Refusal :=
  run (fun d =>
    if !d.ticking ∨ (d.tick.phase ≠ 1 ∧ d.tick.phase ≠ 2) then d
    else
      let d0 := ({ d with tick := { d.tick with phase := 3 } } : Device).freezeImages
      let d1 := if d0.readyNow then d0.voteReady else d0.voteNotReady
      let d2 : Device := { d1 with task := { d1.task with
        unended := d1.task.unended.filter (fun e => decide (d1.tickCount < e.2)) } }
      d2.voteSend) s

/-! ## t_VEND (R56, R58) -/

/-- TS64 of t_VEND. -/
def Device.vendTs (d : Device) : Nat := d.tick.boundaryTs + 1000 * (d.voteUs + d.fld Reg.TICK_PHASE_VWIN_US)

/-- t_VEND: the vote result stands, and the images of TICK_EARLY commit. -/
def execVoteWindowEnd (s : State) : Host.Outcome State Fault Refusal :=
  run (fun d =>
    if !d.ticking ∨ d.tick.phase ≠ 3 then d
    else
      let d1 := ({ d with tick := { d.tick with phase := 4 } } : Device).voteEnd
      if d1.tickCommits then d1.commitImages true d1.vendTs else d1) s

/-! ## Timer expiry (R158, R184) -/

/-- The sources that a cell's expiry fires. -/
def Device.expirySources (d : Device) (cell : Nat) : List Nat :=
  ((List.range 32).filter (fun k => d.bit (Reg.TASK_TEXP_EN k) && d.fld (Reg.TASK_TEXP_CELL k) == cell)).map (fun k => 0xA0 + k)

/-- The addition of this boundary took ACC of a running cell to PT × base for the first time; the sources fire with the
periodic releases of the boundary. -/
def execTimerCellExpiry (cell : Fin 4096) (s : State) : Host.Outcome State Fault Refusal :=
  run (fun d =>
    let c := d.tcell cell
    let goal := c.pt.toNat * baseUs c.base
    if d.tick.phase = 1 ∧ c.run ∧ goal ≤ c.acc ∧ c.acc < goal + d.periodUs then
      let new := (d.expirySources cell).filter (fun k => !d.task.timerFired.contains k)
      { d with task := { d.task with timerFired := d.task.timerFired ++ new } }
    else d) s

/-! ## An empty queue -/

/-- One clock passes: the time base counts, and the standby counter (log 4). -/
def idle (d : Device) : Device := d.tbCycle.stbyCycle

end Sys2Proof.Machine
end

