-- ==== Sys2Proof/Machine/Dispatch.lean ====
section
/-! DEFINITION. The effect of each command: one direct call of its meaning per constructor. -/

namespace Sys2Proof.Machine

def exec (i : Instr) (s : State) : Host.Outcome State Fault Refusal :=
  match i with
  | .genericRegisterWrite addr val byHost pins loopHigh => Sys2Proof.Machine.execGenericRegisterWrite addr val byHost pins loopHigh s
  | .tickBoundary meas startUs => Sys2Proof.Machine.execTickBoundary meas startUs s
  | .timerCellExpiry cell => Sys2Proof.Machine.execTimerCellExpiry cell s
  | .syncinEdge falling => Sys2Proof.Machine.execSyncinEdge falling s
  | .sourceLost => Sys2Proof.Machine.execSourceLost s
  | .firstBoundaryTimeout => Sys2Proof.Machine.execFirstBoundaryTimeout s
  | .setSource arg => Sys2Proof.Machine.execSetSource arg s
  | .tickClearCounters arg => Sys2Proof.Machine.execTickClearCounters arg s
  | .voteFreeze => Sys2Proof.Machine.execVoteFreeze s
  | .notReady3Consec => Sys2Proof.Machine.execNotReady3Consec s
  | .voteWindowEnd => Sys2Proof.Machine.execVoteWindowEnd s
  | .stateCopyAbandon => Sys2Proof.Machine.execStateCopyAbandon s
  | .standbyStale => Sys2Proof.Machine.execStandbyStale s
  | .tickWatchdogTrip => Sys2Proof.Machine.execTickWatchdogTrip s
  | .illegalInstruction e w => Sys2Proof.Machine.execIllegalInstruction e w s
  | .azAnd e mode area ba => Sys2Proof.Machine.execAzAnd e mode area ba s
  | .azAndn e mode area ba => Sys2Proof.Machine.execAzAndn e mode area ba s
  | .azOr e mode area ba => Sys2Proof.Machine.execAzOr e mode area ba s
  | .azOrn e mode area ba => Sys2Proof.Machine.execAzOrn e mode area ba s
  | .azXor e mode area ba => Sys2Proof.Machine.execAzXor e mode area ba s
  | .azXorn e mode area ba => Sys2Proof.Machine.execAzXorn e mode area ba s
  | .azSto e mode area ba => Sys2Proof.Machine.execAzSto e mode area ba s
  | .azSton e mode area ba => Sys2Proof.Machine.execAzSton e mode area ba s
  | .azSet e mode area ba => Sys2Proof.Machine.execAzSet e mode area ba s
  | .azRst e mode area ba => Sys2Proof.Machine.execAzRst e mode area ba s
  | .azEdgr e mode area ba => Sys2Proof.Machine.execAzEdgr e mode area ba s
  | .azEdgf e mode area ba => Sys2Proof.Machine.execAzEdgf e mode area ba s
  | .azBr e imm => Sys2Proof.Machine.execAzBr e imm s
  | .azNot e imm => Sys2Proof.Machine.execAzNot e imm s
  | .azSetla e imm => Sys2Proof.Machine.execAzSetla e imm s
  | .azJoin e k imm => Sys2Proof.Machine.execAzJoin e k imm s
  | .azClrla e imm => Sys2Proof.Machine.execAzClrla e imm s
  | .azChain e imm => Sys2Proof.Machine.execAzChain e imm s
  | .azJmp e cond target => Sys2Proof.Machine.execAzJmp e cond target s
  | .azCall e cond target => Sys2Proof.Machine.execAzCall e cond target s
  | .azDecj e r target => Sys2Proof.Machine.execAzDecj e r target s
  | .azRet e imm => Sys2Proof.Machine.execAzRet e imm s
  | .azRetla e imm => Sys2Proof.Machine.execAzRetla e imm s
  | .azEnd e imm => Sys2Proof.Machine.execAzEnd e imm s
  | .azEndla e imm => Sys2Proof.Machine.execAzEndla e imm s
  | .azNop e imm => Sys2Proof.Machine.execAzNop e imm s
  | .azSetx e imm => Sys2Proof.Machine.execAzSetx e imm s
  | .azSety e imm => Sys2Proof.Machine.execAzSety e imm s
  | .azAddx e imm => Sys2Proof.Machine.execAzAddx e imm s
  | .azAddy e imm => Sys2Proof.Machine.execAzAddy e imm s
  | .azLd e mode area width off => Sys2Proof.Machine.execAzLd e mode area width off s
  | .azSt e mode area width off => Sys2Proof.Machine.execAzSt e mode area width off s
  | .azLdx e mode area width off => Sys2Proof.Machine.execAzLdx e mode area width off s
  | .azLdy e mode area width off => Sys2Proof.Machine.execAzLdy e mode area width off s
  | .azLea e mode area width off => Sys2Proof.Machine.execAzLea e mode area width off s
  | .eccWriteback key => Sys2Proof.Machine.execEccWriteback key s
  | .azLit e imm => Sys2Proof.Machine.execAzLit e imm s
  | .azLith e imm => Sys2Proof.Machine.execAzLith e imm s
  | .azAddk e imm => Sys2Proof.Machine.execAzAddk e imm s
  | .azLitf e imm => Sys2Proof.Machine.execAzLitf e imm s
  | .azSwap e imm => Sys2Proof.Machine.execAzSwap e imm s
  | .azPop e imm => Sys2Proof.Machine.execAzPop e imm s
  | .azPush e imm => Sys2Proof.Machine.execAzPush e imm s
  | .azTax e imm => Sys2Proof.Machine.execAzTax e imm s
  | .azTay e imm => Sys2Proof.Machine.execAzTay e imm s
  | .azTxa e imm => Sys2Proof.Machine.execAzTxa e imm s
  | .azTya e imm => Sys2Proof.Machine.execAzTya e imm s
  | .azLaa e imm => Sys2Proof.Machine.execAzLaa e imm s
  | .azAla e imm => Sys2Proof.Machine.execAzAla e imm s
  | .azBmov e sub imm elems => Sys2Proof.Machine.execAzBmov e sub imm elems s
  | .azAdd e imm => Sys2Proof.Machine.execAzAdd e imm s
  | .azSub e imm => Sys2Proof.Machine.execAzSub e imm s
  | .azMul e imm => Sys2Proof.Machine.execAzMul e imm s
  | .azDiv e imm => Sys2Proof.Machine.execAzDiv e imm s
  | .azMod e imm => Sys2Proof.Machine.execAzMod e imm s
  | .azDivu e imm => Sys2Proof.Machine.execAzDivu e imm s
  | .azModu e imm => Sys2Proof.Machine.execAzModu e imm s
  | .azIntAnd e imm => Sys2Proof.Machine.execAzIntAnd e imm s
  | .azIntOr e imm => Sys2Proof.Machine.execAzIntOr e imm s
  | .azIntXor e imm => Sys2Proof.Machine.execAzIntXor e imm s
  | .azNeg e imm => Sys2Proof.Machine.execAzNeg e imm s
  | .azAbs e imm => Sys2Proof.Machine.execAzAbs e imm s
  | .azInv e imm => Sys2Proof.Machine.execAzInv e imm s
  | .azAddf e imm => Sys2Proof.Machine.execAzAddf e imm s
  | .azSubf e imm => Sys2Proof.Machine.execAzSubf e imm s
  | .azMulf e imm => Sys2Proof.Machine.execAzMulf e imm s
  | .azDivf e imm => Sys2Proof.Machine.execAzDivf e imm s
  | .azNegf e imm => Sys2Proof.Machine.execAzNegf e imm s
  | .azAbsf e imm => Sys2Proof.Machine.execAzAbsf e imm s
  | .azSqrtf e imm => Sys2Proof.Machine.execAzSqrtf e imm s
  | .azCmp e sub imm => Sys2Proof.Machine.execAzCmp e sub imm s
  | .azShl e imm => Sys2Proof.Machine.execAzShl e imm s
  | .azShr e imm => Sys2Proof.Machine.execAzShr e imm s
  | .azSar e imm => Sys2Proof.Machine.execAzSar e imm s
  | .azRol e imm => Sys2Proof.Machine.execAzRol e imm s
  | .azRor e imm => Sys2Proof.Machine.execAzRor e imm s
  | .azItf e imm => Sys2Proof.Machine.execAzItf e imm s
  | .azUtf e imm => Sys2Proof.Machine.execAzUtf e imm s
  | .azFti e imm => Sys2Proof.Machine.execAzFti e imm s
  | .azFtir e imm => Sys2Proof.Machine.execAzFtir e imm s
  | .azSx8 e imm => Sys2Proof.Machine.execAzSx8 e imm s
  | .azSx16 e imm => Sys2Proof.Machine.execAzSx16 e imm s
  | .azZx8 e imm => Sys2Proof.Machine.execAzZx8 e imm s
  | .azZx16 e imm => Sys2Proof.Machine.execAzZx16 e imm s
  | .azBswap e imm => Sys2Proof.Machine.execAzBswap e imm s
  | .azLim e mode area width off => Sys2Proof.Machine.execAzLim e mode area width off s
  | .azScl e mode area width off => Sys2Proof.Machine.execAzScl e mode area width off s
  | .azTon e sub6 idx => Sys2Proof.Machine.execAzTon e sub6 idx s
  | .azTof e sub6 idx => Sys2Proof.Machine.execAzTof e sub6 idx s
  | .azTp e sub6 idx => Sys2Proof.Machine.execAzTp e sub6 idx s
  | .azTrst e sub6 idx => Sys2Proof.Machine.execAzTrst e sub6 idx s
  | .azCu e sub6 idx => Sys2Proof.Machine.execAzCu e sub6 idx s
  | .azCd e sub6 idx => Sys2Proof.Machine.execAzCd e sub6 idx s
  | .azCr e sub6 idx => Sys2Proof.Machine.execAzCr e sub6 idx s
  | .azCld e sub6 idx => Sys2Proof.Machine.execAzCld e sub6 idx s
  | .azSemTry e sub6 idx rivals => Sys2Proof.Machine.execAzSemTry e sub6 idx rivals s
  | .azSemRel e sub6 idx => Sys2Proof.Machine.execAzSemRel e sub6 idx s
  | .azSemOwn e sub6 idx => Sys2Proof.Machine.execAzSemOwn e sub6 idx s
  | .azMbxSend e sub6 idx => Sys2Proof.Machine.execAzMbxSend e sub6 idx s
  | .azMbxRecv e sub6 idx => Sys2Proof.Machine.execAzMbxRecv e sub6 idx s
  | .azMbxAck e sub6 idx => Sys2Proof.Machine.execAzMbxAck e sub6 idx s
  | .azMbxStat e sub6 idx => Sys2Proof.Machine.execAzMbxStat e sub6 idx s
  | .azDblRing e sub6 idx => Sys2Proof.Machine.execAzDblRing e sub6 idx s
  | .azDblTake e sub6 idx => Sys2Proof.Machine.execAzDblTake e sub6 idx s
  | .azEvw e sub sub6 idx => Sys2Proof.Machine.execAzEvw e sub sub6 idx s
  | .azTickt e sub6 idx => Sys2Proof.Machine.execAzTickt e sub6 idx s
  | .azNow e sub6 idx => Sys2Proof.Machine.execAzNow e sub6 idx s
  | .azTickus e sub6 idx => Sys2Proof.Machine.execAzTickus e sub6 idx s
  | .azTrap e sub6 idx => Sys2Proof.Machine.execAzTrap e sub6 idx s
  | .azTinfo e sub6 idx => Sys2Proof.Machine.execAzTinfo e sub6 idx s
  | .scrubberRead key found => Sys2Proof.Machine.execScrubberRead key found s
  | .engineFault e cmp0 cmp1 group => Sys2Proof.Machine.execEngineFault e cmp0 cmp1 group s
  | .agreeFault e sig cycles level => Sys2Proof.Machine.execAgreeFault e sig cycles level s
  | .halt e arg => Sys2Proof.Machine.execHalt e arg s
  | .resume e arg => Sys2Proof.Machine.execResume e arg s
  | .step e arg => Sys2Proof.Machine.execStep e arg s
  | .regRead e arg => Sys2Proof.Machine.execRegRead e arg s
  | .regWrite e arg => Sys2Proof.Machine.execRegWrite e arg s
  | .ceClearCounters e arg => Sys2Proof.Machine.execCeClearCounters e arg s
  | .breakpointHit e n => Sys2Proof.Machine.execBreakpointHit e n s
  | .breakpointWrite e n val => Sys2Proof.Machine.execBreakpointWrite e n val s
  | .tapReset => Sys2Proof.Machine.execTapReset s
  | .tapInstructionUpdate ir => Sys2Proof.Machine.execTapInstructionUpdate ir s
  | .dbgAccess dr => Sys2Proof.Machine.execDbgAccess dr s
  | .dbgAccessDone pins loopHigh => Sys2Proof.Machine.execDbgAccessDone pins loopHigh s
  | .deadlineOverrun e c ofLatched => Sys2Proof.Machine.execDeadlineOverrun e c ofLatched s
  | .gridPoint j => Sys2Proof.Machine.execGridPoint j s
  | .gridDelivery e => Sys2Proof.Machine.execGridDelivery e s
  | .flagUnagreed src => Sys2Proof.Machine.execFlagUnagreed src s
  | .taskClearCounters arg => Sys2Proof.Machine.execTaskClearCounters arg s
  | .trigger arg => Sys2Proof.Machine.execTrigger arg s
  | .hopClose => Sys2Proof.Machine.execHopClose s
  | .forceConfirmTimeout => Sys2Proof.Machine.execForceConfirmTimeout s
  | .forceSet arg => Sys2Proof.Machine.execForceSet arg s
  | .forceClear arg => Sys2Proof.Machine.execForceClear arg s
  | .forceClearAll arg => Sys2Proof.Machine.execForceClearAll arg s
  | .olcLoad arg => Sys2Proof.Machine.execOlcLoad arg s
  | .olcArm arg => Sys2Proof.Machine.execOlcArm arg s
  | .olcDisarm arg => Sys2Proof.Machine.execOlcDisarm arg s
  | .olcSwap => Sys2Proof.Machine.execOlcSwap s
  | .olcDrained => Sys2Proof.Machine.execOlcDrained s
  | .klStepTimeout port => Sys2Proof.Machine.execKlStepTimeout port s
  | .identReceived port x => Sys2Proof.Machine.execIdentReceived port x s
  | .klCalComplete port trip turn asym => Sys2Proof.Machine.execKlCalComplete port trip turn asym s
  | .ackReceived port seq => Sys2Proof.Machine.execAckReceived port seq s
  | .nakReceived port seq => Sys2Proof.Machine.execNakReceived port seq s
  | .parcelAckTimeout port => Sys2Proof.Machine.execParcelAckTimeout port s
  | .klLinkErrorRetrain port => Sys2Proof.Machine.execKlLinkErrorRetrain port s
  | .timeParcelReceived port boundary tx e trip => Sys2Proof.Machine.execTimeParcelReceived port boundary tx e trip s
  | .alignExclusion lane => Sys2Proof.Machine.execAlignExclusion lane s
  | .hopParcelReceived lane data => Sys2Proof.Machine.execHopParcelReceived lane data s
  | .receiptSend => Sys2Proof.Machine.execReceiptSend s
  | .receiptReceived lane list copies => Sys2Proof.Machine.execReceiptReceived lane list copies s
  | .hopperAgree => Sys2Proof.Machine.execHopperAgree s
  | .absentExclusion lane => Sys2Proof.Machine.execAbsentExclusion lane s
  | .diDiscrepancy lane k => Sys2Proof.Machine.execDiDiscrepancy lane k s
  | .voteParcelReceived lane m => Sys2Proof.Machine.execVoteParcelReceived lane m s
  | .segmentParcelReceived lane id data => Sys2Proof.Machine.execSegmentParcelReceived lane id data s
  | .minorityExclusion lane => Sys2Proof.Machine.execMinorityExclusion lane s
  | .nomajExclusion => Sys2Proof.Machine.execNomajExclusion s
  | .twoLaneMismatchExclusion => Sys2Proof.Machine.execTwoLaneMismatchExclusion s
  | .ctrlExitReceived lane code => Sys2Proof.Machine.execCtrlExitReceived lane code s
  | .ctrlSbStateReceived lane st => Sys2Proof.Machine.execCtrlSbStateReceived lane st s
  | .ctrlLinkStateReceived lane port up => Sys2Proof.Machine.execCtrlLinkStateReceived lane port up s
  | .ctrlLockNoticeReceived lane g => Sys2Proof.Machine.execCtrlLockNoticeReceived lane g s
  | .gridParcelReceived port lane flags counts => Sys2Proof.Machine.execGridParcelReceived port lane flags counts s
  | .exclude arg => Sys2Proof.Machine.execExclude arg s
  | .shadow arg => Sys2Proof.Machine.execShadow arg s
  | .readmit arg => Sys2Proof.Machine.execReadmit arg s
  | .triClearCounters arg => Sys2Proof.Machine.execTriClearCounters arg s
  | .retrain arg => Sys2Proof.Machine.execRetrain arg s
  | .klClearCounters arg => Sys2Proof.Machine.execKlClearCounters arg s
  | .autoReadmitRequest => Sys2Proof.Machine.execAutoReadmitRequest s
  | .autoResetRequest => Sys2Proof.Machine.execAutoResetRequest s
  | .xferParcelReceived lane grans final => Sys2Proof.Machine.execXferParcelReceived lane grans final s
  | .readmitTimeout => Sys2Proof.Machine.execReadmitTimeout s
  | .rendezvousFix => Sys2Proof.Machine.execRendezvousFix s
  | .startReceived lane time => Sys2Proof.Machine.execStartReceived lane time s
  | .heartbeatReceived h => Sys2Proof.Machine.execHeartbeatReceived h s
  | .grantReceived claim unit => Sys2Proof.Machine.execGrantReceived claim unit s
  | .echoReceived stn high rcvd => Sys2Proof.Machine.execEchoReceived stn high rcvd s
  | .arbiterCheck => Sys2Proof.Machine.execArbiterCheck s
  | .copyDataReceived tick seq resync first data => Sys2Proof.Machine.execCopyDataReceived tick seq resync first data s
  | .copyMarkerReceived tick seq count crc => Sys2Proof.Machine.execCopyMarkerReceived tick seq count crc s
  | .copyAckReceived seq => Sys2Proof.Machine.execCopyAckReceived seq s
  | .holdExpired => Sys2Proof.Machine.execHoldExpired s
  | .switchover arg => Sys2Proof.Machine.execSwitchover arg s
  | .switchoverTimeout => Sys2Proof.Machine.execSwitchoverTimeout s
  | .foResync arg => Sys2Proof.Machine.execFoResync arg s
  | .foClearCounters arg => Sys2Proof.Machine.execFoClearCounters arg s
  | .frameTransmit w => Sys2Proof.Machine.execFrameTransmit w s
  | .arbMinislot w first room => Sys2Proof.Machine.execArbMinislot w first room s
  | .frameReceived w header payload fcrc codeOk timingOk => Sys2Proof.Machine.execFrameReceived w header payload fcrc codeOk timingOk s
  | .readbackFailure cut => Sys2Proof.Machine.execReadbackFailure cut s
  | .nodeHalt => Sys2Proof.Machine.execNodeHalt s
  | .referenceReceived r => Sys2Proof.Machine.execReferenceReceived r s
  | .referenceSend => Sys2Proof.Machine.execReferenceSend s
  | .backupReferenceSend => Sys2Proof.Machine.execBackupReferenceSend s
  | .referenceMissing => Sys2Proof.Machine.execReferenceMissing s
  | .startupReferenceSend ok => Sys2Proof.Machine.execStartupReferenceSend ok s
  | .startupReferenceReceived => Sys2Proof.Machine.execStartupReferenceReceived s
  | .backoffEnd => Sys2Proof.Machine.execBackoffEnd s
  | .integrationTimeout => Sys2Proof.Machine.execIntegrationTimeout s
  | .guardianSummary cyc active startup implied observed crcOk => Sys2Proof.Machine.execGuardianSummary cyc active startup implied observed crcOk s
  | .guardianSummaryMissing => Sys2Proof.Machine.execGuardianSummaryMissing s
  | .guardianCrcCheck => Sys2Proof.Machine.execGuardianCrcCheck s
  | .cyclePoint k => Sys2Proof.Machine.execCyclePoint k s
  | .sbClearCounters arg => Sys2Proof.Machine.execSbClearCounters arg s
  | .sbResume arg => Sys2Proof.Machine.execSbResume arg s
  | .listenOnly arg => Sys2Proof.Machine.execListenOnly arg s
  | .sbgClearCounters arg => Sys2Proof.Machine.execSbgClearCounters arg s
  | .ethFrameReceived port frame fcsOk mii => Sys2Proof.Machine.execEthFrameReceived port frame fcsOk mii s
  | .hostTxSend => Sys2Proof.Machine.execHostTxSend s
  | .launchEntryStart port mii => Sys2Proof.Machine.execLaunchEntryStart port mii s
  | .launchLate port mii => Sys2Proof.Machine.execLaunchLate port mii s
  | .ethLinkChange port up speed => Sys2Proof.Machine.execEthLinkChange port up speed s
  | .ptpSync port m twoStep => Sys2Proof.Machine.execPtpSync port m twoStep s
  | .ptpFollowUp port m => Sys2Proof.Machine.execPtpFollowUp port m s
  | .ptpDelayReq port m => Sys2Proof.Machine.execPtpDelayReq port m s
  | .ptpDelayResp port m => Sys2Proof.Machine.execPtpDelayResp port m s
  | .ptpPdelayReq port m => Sys2Proof.Machine.execPtpPdelayReq port m s
  | .ptpPdelayResp port m twoStep => Sys2Proof.Machine.execPtpPdelayResp port m twoStep s
  | .ptpPdelayRespFollowUp port m => Sys2Proof.Machine.execPtpPdelayRespFollowUp port m s
  | .ptpAnnounce port m set => Sys2Proof.Machine.execPtpAnnounce port m set s
  | .ptpMessageSend port kind => Sys2Proof.Machine.execPtpMessageSend port kind s
  | .ptpReferenceLost announce => Sys2Proof.Machine.execPtpReferenceLost announce s
  | .ppsInEdge => Sys2Proof.Machine.execPpsInEdge s
  | .ppsInLost => Sys2Proof.Machine.execPpsInLost s
  | .ppsOutSecond => Sys2Proof.Machine.execPpsOutSecond s
  | .syncoutPulse => Sys2Proof.Machine.execSyncoutPulse s
  | .ethCalibrationDone port trips align => Sys2Proof.Machine.execEthCalibrationDone port trips align s
  | .ethClearCounters arg => Sys2Proof.Machine.execEthClearCounters arg s
  | .mdioRead arg => Sys2Proof.Machine.execMdioRead arg s
  | .mdioWrite arg => Sys2Proof.Machine.execMdioWrite arg s
  | .calibrate arg => Sys2Proof.Machine.execCalibrate arg s
  | .txtsPop port => Sys2Proof.Machine.execTxtsPop port s
  | .tbClearCounters arg => Sys2Proof.Machine.execTbClearCounters arg s
  | .capture arg => Sys2Proof.Machine.execCapture arg s
  | .setTime arg => Sys2Proof.Machine.execSetTime arg s
  | .scStale n => Sys2Proof.Machine.execScStale n s
  | .scWatchdogLost n => Sys2Proof.Machine.execScWatchdogLost n s
  | .keySet arg => Sys2Proof.Machine.execKeySet arg s
  | .scClearCounters arg => Sys2Proof.Machine.execScClearCounters arg s
  | .pairDiscrepancy p => Sys2Proof.Machine.execPairDiscrepancy p s
  | .deliberateResetFall g sameStep => Sys2Proof.Machine.execDeliberateResetFall g sameStep s
  | .deliberateResetRise g low => Sys2Proof.Machine.execDeliberateResetRise g low s
  | .lockNoticeLapse g => Sys2Proof.Machine.execLockNoticeLapse g s
  | .tripInAssert n => Sys2Proof.Machine.execTripInAssert n s
  | .tripInNegate n => Sys2Proof.Machine.execTripInNegate n s
  | .sealLoopBreak => Sys2Proof.Machine.execSealLoopBreak s
  | .keepaliveLoss => Sys2Proof.Machine.execKeepaliveLoss s
  | .sfClearCounters arg => Sys2Proof.Machine.execSfClearCounters arg s
  | .fldInterfaceFail => Sys2Proof.Machine.execFldInterfaceFail s
  | .vfdLow mv => Sys2Proof.Machine.execVfdLow mv s
  | .vfdRecover mv => Sys2Proof.Machine.execVfdRecover mv s
  | .diChange k v => Sys2Proof.Machine.execDiChange k v s
  | .wireBreak k v => Sys2Proof.Machine.execWireBreak k v s
  | .overloadTrip c ma => Sys2Proof.Machine.execOverloadTrip c ma s
  | .thermalShutdown c => Sys2Proof.Machine.execThermalShutdown c s
  | .openOffDetect c => Sys2Proof.Machine.execOpenOffDetect c s
  | .openOnDetect c => Sys2Proof.Machine.execOpenOnDetect c s
  | .stuckOnDetect c => Sys2Proof.Machine.execStuckOnDetect c s
  | .stuckOffDetect c mv => Sys2Proof.Machine.execStuckOffDetect c mv s
  | .darkTestStart => Sys2Proof.Machine.execDarkTestStart s
  | .darkTestEnd mv ma => Sys2Proof.Machine.execDarkTestEnd mv ma s
  | .vfStateChange g st v10 => Sys2Proof.Machine.execVfStateChange g st v10 s
  | .clearFault arg => Sys2Proof.Machine.execClearFault arg s
  | .fldClearCounters arg => Sys2Proof.Machine.execFldClearCounters arg s
  | .fdOvertemp hot temp => Sys2Proof.Machine.execFdOvertemp hot temp s
  | .sigSample m bits => Sys2Proof.Machine.execSigSample m bits s
  | .overrangeStart m => Sys2Proof.Machine.execOverrangeStart m s
  | .overrangeEnd m => Sys2Proof.Machine.execOverrangeEnd m s
  | .settlingEnd k => Sys2Proof.Machine.execSettlingEnd k s
  | .sdSyncResync off => Sys2Proof.Machine.execSdSyncResync off s
  | .coefSwapPoint => Sys2Proof.Machine.execCoefSwapPoint s
  | .calPointDone g x => Sys2Proof.Machine.execCalPointDone g x s
  | .rotationSlotStart g => Sys2Proof.Machine.execRotationSlotStart g s
  | .handoverMatch g => Sys2Proof.Machine.execHandoverMatch g s
  | .sigClearCounters arg => Sys2Proof.Machine.execSigClearCounters arg s
  | .readPage arg => Sys2Proof.Machine.execReadPage arg s
  | .programPage arg => Sys2Proof.Machine.execProgramPage arg s
  | .eraseBlock arg => Sys2Proof.Machine.execEraseBlock arg s
  | .descWrite arg => Sys2Proof.Machine.execDescWrite arg s
  | .scrubNow arg => Sys2Proof.Machine.execScrubNow arg s
  | .nvmClearCounters arg => Sys2Proof.Machine.execNvmClearCounters arg s
  | .nandOpComplete fail flips => Sys2Proof.Machine.execNandOpComplete fail flips s
  | .scrubPassStart block => Sys2Proof.Machine.execScrubPassStart block s
  | .powerFailSaveStart => Sys2Proof.Machine.execPowerFailSaveStart s
  | .powerFailSaveEnd durUs => Sys2Proof.Machine.execPowerFailSaveEnd durUs s
  | .pfailResume => Sys2Proof.Machine.execPfailResume s
  | .activationPageDone fail => Sys2Proof.Machine.execActivationPageDone fail s
  | .regionErase arg => Sys2Proof.Machine.execRegionErase arg s
  | .regionWrite arg => Sys2Proof.Machine.execRegionWrite arg s
  | .slotArm arg => Sys2Proof.Machine.execSlotArm arg s
  | .slotDisarm arg => Sys2Proof.Machine.execSlotDisarm arg s
  | .cfgCommit arg => Sys2Proof.Machine.execCfgCommit arg s
  | .pkhProgram arg => Sys2Proof.Machine.execPkhProgram arg s
  | .releaseKept arg => Sys2Proof.Machine.execReleaseKept arg s
  | .hostGo arg pins loopHigh => Sys2Proof.Machine.execHostGo arg pins loopHigh s
  | .restart arg => Sys2Proof.Machine.execRestart arg s
  | .kloulBootPortTimeout => Sys2Proof.Machine.execKloulBootPortTimeout s
  | .bootParcelReceived port request cfg bundle pins loopHigh => Sys2Proof.Machine.execBootParcelReceived port request cfg bundle pins loopHigh s
  | .hostMemoryRead hwa off n full => Sys2Proof.Machine.execHostMemoryRead hwa off n full s
  | .hostMemoryWrite hwa off data pins loopHigh => Sys2Proof.Machine.execHostMemoryWrite hwa off data pins loopHigh s
  | .hostAtomicOp hwa off kind n operand compare => Sys2Proof.Machine.execHostAtomicOp hwa off kind n operand compare s
  | .bridgeReset kind => Sys2Proof.Machine.execBridgeReset kind s
  | .dmaToHost arg => Sys2Proof.Machine.execDmaToHost arg s
  | .dmaFromHost arg => Sys2Proof.Machine.execDmaFromHost arg s
  | .dmaCompletionReceived st data => Sys2Proof.Machine.execDmaCompletionReceived st data s
  | .dmaCompletionTimeout => Sys2Proof.Machine.execDmaCompletionTimeout s
  | .hpClearCounters arg => Sys2Proof.Machine.execHpClearCounters arg s
  | .msixPendingRelease vec => Sys2Proof.Machine.execMsixPendingRelease vec s
  | .mbSend arg => Sys2Proof.Machine.execMbSend arg s
  | .mbAck arg => Sys2Proof.Machine.execMbAck arg s
  | .epReset arg => Sys2Proof.Machine.execEpReset arg s
  | .mbClearCounters arg => Sys2Proof.Machine.execMbClearCounters arg s
  | .ackTimeout ep => Sys2Proof.Machine.execAckTimeout ep s
  | .hsemReadAcquire sem byDbg rivals => Sys2Proof.Machine.execHsemReadAcquire sem byDbg rivals s
  | .hsemReleaseWrite sem byDbg rel => Sys2Proof.Machine.execHsemReleaseWrite sem byDbg rel s
  | .doorbellSetWrite ep bits => Sys2Proof.Machine.execDoorbellSetWrite ep bits s
  | .doorbellClearWrite bits => Sys2Proof.Machine.execDoorbellClearWrite bits s
  | .resultRequestWrite bits => Sys2Proof.Machine.execResultRequestWrite bits s
  | .eventRecordEnter => Sys2Proof.Machine.execEventRecordEnter s
  | .rateTokenAdd code => Sys2Proof.Machine.execRateTokenAdd code s
  | .freeze arg => Sys2Proof.Machine.execFreeze arg s
  | .unfreeze arg => Sys2Proof.Machine.execUnfreeze arg s
  | .freezeTimeout => Sys2Proof.Machine.execFreezeTimeout s
  | .copy arg => Sys2Proof.Machine.execCopy arg s
  | .clear arg byDbg => Sys2Proof.Machine.execClear arg byDbg s
  | .evrClearCounters arg => Sys2Proof.Machine.execEvrClearCounters arg s
  | .archivePageWrite => Sys2Proof.Machine.execArchivePageWrite s
  | .logRestore => Sys2Proof.Machine.execLogRestore s
  | .resetSourceAssert src => Sys2Proof.Machine.execResetSourceAssert src s
  | .resetSourceNegate src => Sys2Proof.Machine.execResetSourceNegate src s
  | .resetStageRelease board => Sys2Proof.Machine.execResetStageRelease board s
  | .trimLoadDone pass => Sys2Proof.Machine.execTrimLoadDone pass s
  | .strapResample boot clk roles ref => Sys2Proof.Machine.execStrapResample boot clk roles ref s
  | .clockLoss clk => Sys2Proof.Machine.execClockLoss clk s
  | .clockReturn clk => Sys2Proof.Machine.execClockReturn clk s
  | .resetCore arg => Sys2Proof.Machine.execResetCore arg s
  | .resetSys arg => Sys2Proof.Machine.execResetSys arg s
  | .supplyThresholdCross rail st mv => Sys2Proof.Machine.execSupplyThresholdCross rail st mv s
  | .internalWarning src => Sys2Proof.Machine.execInternalWarning src s
  | .tempSample temps mv shut => Sys2Proof.Machine.execTempSample temps mv shut s
  | .ringOscMeasure n ppm => Sys2Proof.Machine.execRingOscMeasure n ppm s
  | .stbySecondCopy => Sys2Proof.Machine.execStbySecondCopy s
  | .wakeAlarm => Sys2Proof.Machine.execWakeAlarm s
  | .weirGrant slot => Sys2Proof.Machine.execWeirGrant slot s
  | .pwrClearCounters arg => Sys2Proof.Machine.execPwrClearCounters arg s
  | .clearWake arg => Sys2Proof.Machine.execClearWake arg s
  | .klChannelLock port ch => Sys2Proof.Machine.execKlChannelLock port ch s
  | .klDeskewComplete port => Sys2Proof.Machine.execKlDeskewComplete port s
  | .klParcelError port kind => Sys2Proof.Machine.execKlParcelError port kind s
  | .pcieLinkUp x2 gen2 => Sys2Proof.Machine.execPcieLinkUp x2 gen2 s
  | .pcieConfigAccess acc waiting => Sys2Proof.Machine.execPcieConfigAccess acc waiting s
  | .hpPinChange pin high => Sys2Proof.Machine.execHpPinChange pin high s
  | .mdioTransferDone data => Sys2Proof.Machine.execMdioTransferDone data s
  | .olcLoadDone => Sys2Proof.Machine.execOlcLoadDone s
  | .evrCopyDone => Sys2Proof.Machine.execEvrCopyDone s
  | .ethTxDone port => Sys2Proof.Machine.execEthTxDone port s
  | .launchCopyDone port mii => Sys2Proof.Machine.execLaunchCopyDone port mii s
  | .outputChainSample k => Sys2Proof.Machine.execOutputChainSample k s
  | .faultConditionEnd c what => Sys2Proof.Machine.execFaultConditionEnd c what s

end Sys2Proof.Machine
end

