-- ==== Sys2Proof/Safety.lean ====
section
/-! DEFINITION. What counts as safe, and the conditions that claims are stated under: the gate-off of Sluice (R385, R387,
R388), the canonical form of memory, an engine that executes (R88, R177), a command that is accepted (R27–R31). -/

namespace Sys2Proof.Machine

/-! ## Memory -/

/-- The canonical form of SDM and PIM: addresses rise strictly, and no listed byte is 0, which an unlisted byte reads as. -/
def Memory.wf (m : List Host.Cell) : Bool := swf byte0 m

/-! ## Gate-off -/

/-- A source of R385 that is asserted gates channel c. -/
def Device.gatedBy (d : Device) (c : Nat) : Prop :=
  ∃ i, i < 24 ∧ (d.rd Reg.SF_SLUICE_STAT).toNat.testBit i = true ∧ (d.slChannels i).testBit c = true

/-- The driver of channel c is off, and no turn-on of it waits for a grant. -/
def Device.driverOff (d : Device) (c : Nat) : Prop :=
  d.fd.on.testBit c = false ∧ ∀ e ∈ d.fd.queue, c ∉ e.2

/-- No output is driven against Sluice or the field die's own hold: a channel of an asserted source shows its gate-off in
SF_GATE, a channel that shows its gate-off has its driver off, and the field die's hold turns every driver off. -/
structure Device.Gated (d : Device) : Prop where
  shown : ∀ c, c < 24 → d.gatedBy c → (d.rd Reg.SF_GATE).toNat.testBit c = true
  off : ∀ c, c < 24 → (d.rd Reg.SF_GATE).toNat.testBit c = true → d.driverOff c
  held : d.fieldHeld = true → ∀ c, c < 24 → d.driverOff c

/-! ## What a command answers -/

/-- A command answers a next state with the rest of the queue waiting, and P holds of its device. -/
def Completes (i : Instr) (s : State) (P : Device → Prop) : Prop :=
  ∃ t, exec i s = .next t ∧ t.pending = s.pending ∧ P t.dev

/-- Every register outside a list holds what it held. -/
def Device.KeepsRegs (d t : Device) (l : List Nat) : Prop := ∀ a, a ∉ l → t.rd a = d.rd a

/-- Every byte of SDM and PIM outside n bytes from an address on holds what it held. -/
def Device.KeepsMemBut (d t : Device) (a n : Nat) : Prop := ∀ b, b < a ∨ a + n ≤ b → t.byte b = d.byte b

/-- Every byte of SDM and PIM, every L area and every program bank holds what it held. -/
structure Device.KeepsMem (d t : Device) : Prop where
  mem : t.mem = d.mem
  larea : t.larea = d.larea
  prog : t.prog = d.prog

/-- Timer and counter cells hold what they held. -/
structure Device.KeepsCells (d t : Device) : Prop where
  timers : ∀ n, t.tcell n = d.tcell n
  counters : ∀ n, t.ccell n = d.ccell n

/-- What stands beside registers, memories, engines, the event recorder, Sluice and the field die holds what it held:
releases, the tick, images, the host port, the signal chain, power, time, links, the triad, failover, buses, store and
start. -/
structure Device.KeepsUnits (d t : Device) : Prop where
  task : t.task = d.task
  tick : t.tick = d.tick
  img : t.img = d.img
  hp : t.hp = d.hp
  mb : t.mb = d.mb
  sig : t.sig = d.sig
  sys : t.sys = d.sys
  pwr : t.pwr = d.pwr
  tb : t.tb = d.tb
  kl : t.kl = d.kl
  eth : t.eth = d.eth
  tri : t.tri = d.tri
  sc : t.sc = d.sc
  fo : t.fo = d.fo
  sb : t.sb = d.sb
  nvm : t.nvm = d.nvm
  ldr : t.ldr = d.ldr
  freeCtr : t.freeCtr = d.freeCtr
  sent : t.sent = d.sent

/-- An event has been recorded, with those of its snapshot words that SNAP keeps, where nothing drops it: the recorder is
released, the code is enabled and has no rate limit, and the input queue has room (R530–R532). -/
def Device.Logs (d t : Device) (code : Nat) (words : List Word) : Prop :=
  d.evrLive = true → d.bit (Reg.EVR_CODE_EN code) = true → d.fld (Reg.EVR_CODE_RATE_N code) = 0 →
    d.evr.inq.length < 64 →
      ∃ r, t.evr.inq = d.evr.inq ++ [r] ∧ r.code = code ∧
        r.snaps = keepSnaps (d.fld (Reg.EVR_CODE_SNAP code)) 0 (words.take 8)

/-! ## Engines -/

/-- Engine e runs, and the context that it continues is c: ACTIVE, the highest that is PENDING or ACTIVE, at an
instruction that can be fetched and that is not the last one of its bank. -/
structure Device.Executes (d : Device) (e c : Nat) : Prop where
  runs : d.engState e = stRun
  picks : d.pickCtx e 16 = some c
  active : d.ctxState e c = 2
  fetches : d.ecc (fetchKey e (d.ctx e c).pc) = .clean
  inside : (d.ctx e c).pc.toNat % 32768 ≠ 32767

/-- Engine e has run n steps in context c, whose registers are now x: both copies hold them, every other context holds
what it held, the engine still runs, and c is its active context. -/
structure Device.Ran (d t : Device) (e c n : Nat) (x : Ctx) : Prop where
  ctx : t.ctx e c = x
  copy : sget ctx0 t.ce.chk (16 * e + c) = x
  others : ∀ e' c', c' < 16 → e' ≠ e ∨ c' ≠ c → t.ctx e' c' = d.ctx e' c'
  runs : t.engState e = stRun
  active : t.fld (Reg.CE_STATUS_ACTIVE_CTX e) = c
  steps : t.retired e = (d.retired e + n) % 2 ^ 64

/-- The registers that every instruction may write: its engine's status and step count, and SF_GATE, which follows
Sluice after every command. -/
def stepRegs (e : Nat) : List Nat :=
  [Reg.CE_STATUS e, Reg.TASK_ENG_RETIRED_LO e, Reg.TASK_ENG_RETIRED_HI e, Reg.SF_GATE]

/-- One instruction in context c of engine e has changed registers of its context only; the context goes on with the
next one. -/
structure Device.Stepped (d t : Device) (e c : Nat) (x : Ctx) : Prop where
  ran : d.Ran t e c 1 { x with pc := (d.ctx e c).pc + 1 }
  regs : d.KeepsRegs t (stepRegs e)
  mem : d.KeepsMem t
  cells : d.KeepsCells t
  units : d.KeepsUnits t
  events : t.evr = d.evr

/-- The instruction i runs on engine e in context c and leaves its registers at x. -/
def Runs (i : Instr) (s : State) (e c : Nat) (x : Ctx) : Prop :=
  Completes i s (fun t => s.dev.Stepped t e c x)

/-- One instruction in context c of engine e has changed registers of its context, and bytes of the areas that its
statement names; the context goes on with the next one. -/
structure Device.Wrote (d t : Device) (e c : Nat) (x : Ctx) : Prop where
  ran : d.Ran t e c 1 { x with pc := (d.ctx e c).pc + 1 }
  regs : d.KeepsRegs t (stepRegs e)
  prog : t.prog = d.prog
  cells : d.KeepsCells t
  units : d.KeepsUnits t
  events : t.evr = d.evr

/-! ## Operands (R117, R118, R134) -/

/-- None of some codewords has an error. -/
def Device.Clean (d : Device) (l : List Nat) : Prop := ∀ k ∈ l, d.ecc k = .clean

/-- The index that a mode adds: nothing, X or Y, signed. -/
def Ctx.index (x : Ctx) (mode : BitVec 2) : Int :=
  if mode = 1 then x.x.toInt else if mode = 2 then x.y.toInt else 0

/-- A pointer word of mode 3 lies at byte f of an area, without an error, and reads as v. -/
def Device.Points (d : Device) (e c : Nat) (area f v : Nat) : Prop :=
  area ≠ areaT ∧ area ≠ areaC ∧ f % 4 = 0 ∧ f + 4 ≤ d.areaSize area ∧ d.Clean (d.areaKeys e c area f 4) ∧
    d.areaNum e c area f 4 = v

/-- The fields of a bit instruction name bit p of area ar (R118). -/
def Device.BitTarget (d : Device) (e c : Nat) (x : Ctx) (mode : BitVec 2) (area : BitVec 4) (ba : BitVec 20)
    (ar p : Nat) : Prop :=
  area.toNat < 12 ∧ ar < 12 ∧ p < d.areaBits ar ∧
    if mode = 3 then d.Points e c area.toNat ba.toNat (ar * 2 ^ 28 + p)
    else ar = area.toNat ∧ (p : Int) = ba.toNat + x.index mode

/-- The fields of a word instruction of width w that reads n bytes name byte p of area ar (R134). -/
def Device.WordTarget (d : Device) (e c : Nat) (x : Ctx) (mode : BitVec 2) (area : BitVec 4) (off : BitVec 18)
    (w n ar p : Nat) : Prop :=
  area.toNat < 12 ∧ ar < 12 ∧ p % w = 0 ∧ p + n ≤ d.areaSize ar ∧
    if mode = 3 then d.Points e c area.toNat off.toNat (ar * 2 ^ 28 + 8 * p)
    else ar = area.toNat ∧ (p : Int) = off.toNat + x.index mode

/-- The conditions of R128. -/
def Ctx.Meets (x : Ctx) : Nat → Prop
  | 0 => True
  | 1 => x.la = true
  | 2 => x.la = false
  | 3 => x.z = true
  | 4 => x.z = false
  | 5 => x.n = true
  | 6 => x.n = false
  | 7 => x.v = true
  | 8 => x.c = true
  | 9 => x.c = false
  | 10 => x.u = true
  | 11 => x.z = false ∧ x.n = x.v ∧ x.u = false
  | 12 => x.n = x.v ∧ x.u = false
  | 13 => x.n ≠ x.v ∧ x.u = false
  | 14 => (x.z = true ∨ x.n ≠ x.v) ∧ x.u = false
  | _ => False

/-- The n bytes of an area from an offset on now hold the n low bytes of v, lowest first; every other byte of every
memory holds what it held. The bytes are those underneath the force overlay (R215). -/
structure Device.Stored (d t : Device) (e c ar off n v : Nat) : Prop where
  bytes : ∀ i, i < n → t.underByte e c ar (off + i) = BitVec.ofNat 8 (v / 256 ^ i)
  larea : ∀ k, ¬(ar = areaL ∧ larKey e c off ≤ k ∧ k < larKey e c off + n) →
    sget byte0 t.larea k = sget byte0 d.larea k
  mem : ∀ b, ¬(ar ≠ areaL ∧ d.areaBase ar + off ≤ b ∧ b < d.areaBase ar + off + n) → t.byte b = d.byte b

/-! ## Commands -/

/-- A command has ended with a code: BUSY is 0, CODE holds it, and SEQ has advanced by one since `old` (R27, R28). -/
structure Device.Ended (d old : Device) (p : Port) (code : Nat) : Prop where
  busy : d.fld p.busy = 0
  code : d.fld p.code = code
  seq : d.fld p.seq = (old.fld p.seq + 1) % 256

/-- The command register that a command of the CMD kind is written to (R27). -/
def portOf : Instr → Option Port
  | .halt e _ => some (portCE e)
  | .resume e _ => some (portCE e)
  | .step e _ => some (portCE e)
  | .regRead e _ => some (portCE e)
  | .regWrite e _ => some (portCE e)
  | .ceClearCounters e _ => some (portCE e)
  | .resetCore _ | .resetSys _ => some portSYS
  | .setSource _ | .tickClearCounters _ => some portTICK
  | .taskClearCounters _ | .trigger _ => some portTASK
  | .forceSet _ | .forceClear _ | .forceClearAll _ | .olcLoad _ | .olcArm _ | .olcDisarm _ => some portIMG
  | .exclude _ | .shadow _ | .readmit _ | .triClearCounters _ => some portTRI
  | .retrain _ | .klClearCounters _ => some portKL
  | .switchover _ | .foResync _ | .foClearCounters _ => some portFO
  | .sbClearCounters _ | .sbResume _ | .listenOnly _ => some portSB
  | .sbgClearCounters _ => some portSBG
  | .ethClearCounters _ | .mdioRead _ | .mdioWrite _ | .calibrate _ => some portETH
  | .tbClearCounters _ | .capture _ | .setTime _ => some portTB
  | .keySet _ | .scClearCounters _ => some portSC
  | .sfClearCounters _ => some portSF
  | .clearFault _ | .fldClearCounters _ => some portFLD
  | .sigClearCounters _ => some portSIG
  | .readPage _ | .programPage _ | .eraseBlock _ | .descWrite _ | .scrubNow _ | .nvmClearCounters _ => some portNVM
  | .regionErase _ | .regionWrite _ | .slotArm _ | .slotDisarm _ | .cfgCommit _ | .pkhProgram _
  | .releaseKept _ | .restart _ => some portLDR
  | .dmaToHost _ | .dmaFromHost _ | .hpClearCounters _ => some portHP
  | .mbSend _ | .mbAck _ | .epReset _ | .mbClearCounters _ => some portMB
  | .freeze _ | .unfreeze _ | .copy _ | .evrClearCounters _ => some portEVR
  | .pwrClearCounters _ | .clearWake _ => some portPWR
  | .hostGo _ _ _ => some portLDR
  | .clear _ _ => some portEVR
  | _ => none

/-- A command whose register is free ends with code 0, and P holds of the device. -/
def Done (i : Instr) (s : State) (p : Port) (P : Device → Prop) : Prop :=
  s.dev.fld p.busy = 0 → Completes i s (fun t => t.Ended s.dev p 0 ∧ P t)

/-- A command whose register is free stays BUSY with CODE 1 (R28), and P holds of the device. -/
def Begun (i : Instr) (s : State) (p : Port) (P : Device → Prop) : Prop :=
  s.dev.fld p.busy = 0 → Completes i s (fun t => t.fld p.busy = 1 ∧ t.fld p.code = 1 ∧ P t)

/-- Registers of a list, SF_GATE and the event recorder are all that has changed, beside Sluice and the field die. -/
structure Device.Writes (d t : Device) (l : List Nat) : Prop where
  regs : d.KeepsRegs t (Reg.SF_GATE :: l)
  mem : d.KeepsMem t
  ce : t.ce = d.ce
  units : d.KeepsUnits t

end Sys2Proof.Machine
end

