-- ==== Sys2Proof/Certificates/Slice0/Obligations.lean ====
section
/-! DEFINITION. The statements about the HX-8260. `Completes i s P` says that command i answers a next state at s, with
the rest of the queue, of whose device P holds; `Runs i s e c x` says that an instruction runs on engine e in context c
and leaves the registers x and nothing else changed (Safety.lean). -/

open Sys2Proof Sys2Proof.Machine

/-! ## Aznum: registers -/

/-- R139: the MOV instructions.
R138, with the flags of R142: constants; R133: the index instructions. -/
def Obligations.MovesAndIndexes : Prop :=
  (∀ (s : State) (e : Eng) (c : Nat), s.dev.Executes e c → ∀ x, x = s.dev.ctx e c →
    Runs (.azSwap e 0) s e c { x with a := x.b, b := x.a } ∧
    Runs (.azPop e 0) s e c { x with a := x.b } ∧
    Runs (.azPush e 0) s e c { x with b := x.a } ∧
    Runs (.azTax e 0) s e c { x with x := x.a } ∧
    Runs (.azTay e 0) s e c { x with y := x.a } ∧
    Runs (.azTxa e 0) s e c { x with b := x.a, a := x.x } ∧
    Runs (.azTya e 0) s e c { x with b := x.a, a := x.y } ∧
    Runs (.azLaa e 0) s e c { x with b := x.a, a := if x.la then 1 else 0 } ∧
    Runs (.azAla e 0) s e c { x with la := if x.co then decide (x.a ≠ 0) else x.la && decide (x.a ≠ 0), co := false }) ∧
  (∀ (s : State) (e : Eng) (c : Nat), s.dev.Executes e c → ∀ x, x = s.dev.ctx e c → ∀ imm : BitVec 22,
    Runs (.azLit e imm) s e c { x with b := x.a, a := BitVec.ofInt 32 imm.toInt } ∧
    (∀ k : BitVec 16, Runs (.azLith e (k.zeroExtend 22)) s e c { x with a := k ++ x.a.extractLsb' 0 16 }) ∧
    Runs (.azLitf e imm) s e c { x with b := x.a, a := imm ++ (0 : BitVec 10) } ∧
    (∀ (k r : Word), k = BitVec.ofInt 32 imm.toInt → r = x.a + k →
      Runs (.azAddk e imm) s e c
        { x with
          a := r, z := decide (r = 0), n := r.getLsbD 31, v := decide (x.a.toInt + k.toInt ≠ r.toInt),
          c := decide (2 ^ 32 ≤ x.a.toNat + k.toNat), u := false }) ∧
    Runs (.azSetx e imm) s e c { x with x := BitVec.ofInt 32 imm.toInt } ∧
    Runs (.azSety e imm) s e c { x with y := BitVec.ofInt 32 imm.toInt } ∧
    Runs (.azAddx e imm) s e c { x with x := BitVec.ofInt 32 (x.x.toInt + imm.toInt) } ∧
    Runs (.azAddy e imm) s e c { x with y := BitVec.ofInt 32 (x.y.toInt + imm.toInt) })

/-- R126 and R127: LOGIC. BR pushes LA and EMPTY = CO, JOIN k pops them and folds the branch result into the saved LA.
R122 and R123: a combine replaces LA where CO = 1, folds its operand into LA where CO = 0, and leaves CO = 0.
R123–R125: STO and STON store LA, SET and RST store with LA = 1 only, EDGR and EDGF store LA into their edge bit and
take the edge. Every other bit of the byte, and every other byte, holds what it held. -/
def Obligations.BitLogic : Prop :=
  (∀ (s : State) (e : Eng) (c : Nat), s.dev.Executes e c → ∀ x, x = s.dev.ctx e c →
    Runs (.azNot e 0) s e c { x with la := !x.la } ∧
    Runs (.azSetla e 0) s e c { x with la := true, co := false } ∧
    Runs (.azClrla e 0) s e c { x with la := false, co := false } ∧
    Runs (.azChain e 0) s e c { x with co := true } ∧
    (x.lsp < 32 → ∃ v m : Word,
      (∀ i, i < 32 → v.getLsbD i = if i = x.lsp then x.la else x.ls.getLsbD i) ∧
      (∀ i, i < 32 → m.getLsbD i = if i = x.lsp then x.co else x.lse.getLsbD i) ∧
      Runs (.azBr e 0) s e c { x with ls := v, lse := m, lsp := x.lsp + 1, co := true }) ∧
    (∀ p, p < 32 → x.lsp = p + 1 → ∀ (k : Fin 6) (r v : Bool),
      r = (if k.val = 1 ∨ k.val = 3 ∨ k.val = 5 then !x.la else x.la) →
      v = (if x.lse.getLsbD p = true then r
        else if k.val < 2 then x.ls.getLsbD p && r
        else if k.val < 4 then x.ls.getLsbD p || r
        else x.ls.getLsbD p ^^ r) →
      Runs (.azJoin e k 0) s e c { x with lsp := p, co := false, la := v })) ∧
  (∀ (s : State) (e : Eng) (c : Nat), s.dev.Executes e c → ∀ x, x = s.dev.ctx e c →
    ∀ (mode : BitVec 2) (area : BitVec 4) (ba : BitVec 20) (ar p : Nat) (v : Bool),
      s.dev.BitTarget e c x mode area ba ar p → s.dev.Clean (s.dev.bitKeys e c ar p) → s.dev.areaBit e c ar p = v →
      Runs (.azAnd e mode area ba) s e c { x with la := if x.co then v else x.la && v, co := false } ∧
      Runs (.azAndn e mode area ba) s e c { x with la := if x.co then !v else x.la && !v, co := false } ∧
      Runs (.azOr e mode area ba) s e c { x with la := if x.co then v else x.la || v, co := false } ∧
      Runs (.azOrn e mode area ba) s e c { x with la := if x.co then !v else x.la || !v, co := false } ∧
      Runs (.azXor e mode area ba) s e c { x with la := if x.co then v else x.la ^^ v, co := false } ∧
      Runs (.azXorn e mode area ba) s e c { x with la := if x.co then !v else x.la ^^ !v, co := false }) ∧
  (∀ (s : State) (e : Eng) (c : Nat), s.dev.Executes e c → ∀ x, x = s.dev.ctx e c →
    ∀ (mode : BitVec 2) (area : BitVec 4) (ba : BitVec 20) (ar p : Nat) (m : Bool),
      s.dev.BitTarget e c x mode area ba ar p → s.dev.Clean (s.dev.bitKeys e c ar p) → s.dev.areaBit e c ar p = m →
      ar ≠ areaI → ar ≠ areaT → ar ≠ areaC →
      let stores (i : Instr) (v : Bool) (y : Ctx) : Prop := Completes i s (fun t =>
        s.dev.Wrote t e c y ∧ ∃ b : Byte,
          (∀ j, j < 8 → b.getLsbD j = if j = p % 8 then v else (s.dev.underByte e c ar (p / 8)).getLsbD j) ∧
          s.dev.Stored t e c ar (p / 8) 1 b.toNat)
      stores (.azSto e mode area ba) x.la { x with co := true } ∧
      stores (.azSton e mode area ba) (!x.la) { x with co := true } ∧
      (x.la = true → stores (.azSet e mode area ba) true { x with co := true }) ∧
      (x.la = true → stores (.azRst e mode area ba) false { x with co := true }) ∧
      (x.la = false → Runs (.azSet e mode area ba) s e c { x with co := true }) ∧
      (x.la = false → Runs (.azRst e mode area ba) s e c { x with co := true }) ∧
      stores (.azEdgr e mode area ba) x.la { x with la := x.la && !m } ∧
      stores (.azEdgf e mode area ba) x.la { x with la := !x.la && m })

/-! ## Aznum: bits -/

/-! ## Aznum: control flow -/

/-- R128–R130: a J-format instruction goes to its target in the bank of the PC where its condition is met; a condition that
tests LA sets CO. CALL pushes the position after it; a CALL that is not met never traps. DECJ counts down to 0.
R131, R132, R178: a return pops the call stack and goes on there, in the bank of the entry; END ends the instance, and
a release that was latched is pending after it. -/
def Obligations.ControlFlow : Prop :=
  (∀ (s : State) (e : Eng) (c : Nat), s.dev.Executes e c → ∀ x, x = s.dev.ctx e c →
    ∀ (target : BitVec 22) (q : Nat), q < 32768 → (q : Int) = (x.pc.toNat % 32768 : Nat) + target.toInt →
      let goes (i : Instr) (y : Ctx) : Prop := Completes i s (fun t =>
        s.dev.Ran t e c 1 { y with pc := BitVec.ofNat 16 (x.pc.toNat / 32768 * 32768 + q) } ∧
        s.dev.KeepsRegs t (stepRegs e) ∧ s.dev.KeepsMem t ∧ s.dev.KeepsCells t ∧ s.dev.KeepsUnits t ∧ t.evr = s.dev.evr)
      (∀ cond : BitVec 4, cond ≠ 15 → ∀ y, y = (if cond = 1 ∨ cond = 2 then { x with co := true } else x) →
        (x.Meets cond.toNat → goes (.azJmp e cond target) y) ∧
        (¬ x.Meets cond.toNat → Runs (.azJmp e cond target) s e c y ∧ Runs (.azCall e cond target) s e c y) ∧
        (x.Meets cond.toNat → x.csp < 16 → ∃ cs, (∀ j, sget (fun _ => 0) cs j = if j = x.csp then x.pc + 1 else sget (fun _ => 0) x.cs j) ∧
          goes (.azCall e cond target) { y with cs := cs, csp := x.csp + 1 })) ∧
      (1 < x.x.toInt → goes (.azDecj e 0 target) { x with x := BitVec.ofInt 32 (x.x.toInt - 1) }) ∧
      (x.x.toInt ≤ 1 → Runs (.azDecj e 0 target) s e c { x with x := 0 }) ∧
      (1 < x.y.toInt → goes (.azDecj e 1 target) { x with y := BitVec.ofInt 32 (x.y.toInt - 1) }) ∧
      (x.y.toInt ≤ 1 → Runs (.azDecj e 1 target) s e c { x with y := 0 })) ∧
  (∀ (s : State) (e : Eng) (c : Nat), s.dev.Executes e c → ∀ x, x = s.dev.ctx e c →
    let back (i : Instr) (y : Ctx) (p : Nat) : Prop := Completes i s (fun t =>
      s.dev.Ran t e c 1 { y with csp := p, pc := sget (fun _ => 0) x.cs p } ∧
      s.dev.KeepsRegs t (stepRegs e) ∧ s.dev.KeepsMem t ∧ s.dev.KeepsCells t ∧ s.dev.KeepsUnits t ∧ t.evr = s.dev.evr)
    let ends (i : Instr) : Prop := Completes i s (fun t =>
      t.ctxState e c = (if s.dev.bit (Reg.TASK_STAT_LATCH e c) then 1 else 0) ∧
      t.bit (Reg.TASK_STAT_LATCH e c) = false ∧
      t.relOf e c = (if s.dev.bit (Reg.TASK_STAT_LATCH e c) then sget noRel s.dev.task.latched (16 * e + c) else none) ∧
      t.retired e = (s.dev.retired e + 1) % 2 ^ 64 ∧ t.engState e = stRun ∧
      (∀ n, n < 64 → t.semOwner n = if s.dev.semOwner n = ownerEng e c then ownerFree else s.dev.semOwner n) ∧
      (∀ (e' : Eng) (c' : Nat), c' < 16 → e' ≠ e ∨ c' ≠ c →
        t.ctx e' c' = s.dev.ctx e' c' ∧ t.ctxState e' c' = s.dev.ctxState e' c') ∧
      s.dev.KeepsMem t ∧ s.dev.KeepsCells t)
    (∀ p, x.csp = p + 1 → back (.azRet e 0) x p ∧ (x.la = true → back (.azRetla e 0) { x with co := true } p)) ∧
    (x.la = false → Runs (.azRetla e 0) s e c { x with co := true }) ∧
    ends (.azEnd e 0) ∧
    (x.la = true → ends (.azEndla e 0)) ∧
    (x.la = false → Runs (.azEndla e 0) s e c { x with co := true }) ∧
    Runs (.azNop e 0) s e c x)

/-! ## Aznum: words -/

/-- R137: loads are zero-extended to 32 bits; LEA builds the pointer word of R117.
R137: ST stores the w low bytes of A, lowest first, and changes nothing else. -/
def Obligations.LoadsAndStores : Prop :=
  (∀ (s : State) (e : Eng) (c : Nat), s.dev.Executes e c → ∀ x, x = s.dev.ctx e c →
    ∀ (mode : BitVec 2) (area : BitVec 4) (width : BitVec 2) (off : BitVec 18) (ar p w v : Nat),
      w = (if width = 0 then 1 else if width = 1 then 2 else 4) → s.dev.areaNum e c ar p w = v →
      (s.dev.WordTarget e c x mode area off w w ar p → s.dev.Clean (s.dev.areaKeys e c ar p w) →
        Runs (.azLd e mode area width off) s e c { x with b := x.a, a := BitVec.ofNat 32 v } ∧
        (width ≠ 3 → Runs (.azLdx e mode area width off) s e c { x with x := BitVec.ofNat 32 v }) ∧
        (width ≠ 3 → Runs (.azLdy e mode area width off) s e c { x with y := BitVec.ofNat 32 v })) ∧
      (s.dev.WordTarget e c x mode area off 1 1 ar p →
        Runs (.azLea e mode area 0 off) s e c { x with b := x.a, a := BitVec.ofNat 32 (ar * 2 ^ 28 + 8 * p) })) ∧
  (∀ (s : State) (e : Eng) (c : Nat), s.dev.Executes e c → ∀ x, x = s.dev.ctx e c →
    ∀ (mode : BitVec 2) (area : BitVec 4) (width : BitVec 2) (off : BitVec 18) (ar p w : Nat),
      w = (if width = 0 then 1 else if width = 1 then 2 else 4) → s.dev.WordTarget e c x mode area off w w ar p →
      s.dev.Clean (s.dev.areaKeys e c ar p w) → ar ≠ areaI → ar ≠ areaT → ar ≠ areaC →
      Completes (.azSt e mode area width off) s (fun t => s.dev.Wrote t e c x ∧ s.dev.Stored t e c ar p w x.a.toNat))
/-- R140, R141: BMOV copies n of the X elements in ascending order, n = X unless a preemption takes place before, and
advances A, B and X by what it copied; preempted, it keeps its PC. Where the destination shares no byte with the source,
each destination byte holds the source byte. -/
def Obligations.BlockMove : Prop :=
  ∀ (s : State) (e : Eng) (c : Nat), s.dev.Executes e c → ∀ x, x = s.dev.ctx e c →
    (x.x = 0 → ∀ k : Fin 3, ∀ elems, Runs (.azBmov e (BitVec.ofNat 4 k.val) 0 elems) s e c x) ∧
    ∀ (k : Fin 3) (elems n w sa sp da dp : Nat),
      w = 2 ^ k.val → x.x ≠ 0 → n = min elems x.x.toNat → 0 < n →
      x.a.toNat = sa * 2 ^ 28 + 8 * sp → x.b.toNat = da * 2 ^ 28 + 8 * dp → 8 * sp < 2 ^ 28 → 8 * dp < 2 ^ 28 →
      sp % w = 0 → dp % w = 0 → sa < 12 → da < 12 → da ≠ areaT → da ≠ areaC → da ≠ areaI →
      sp + x.x.toNat * w ≤ s.dev.areaSize sa → dp + x.x.toNat * w ≤ s.dev.areaSize da →
      (∀ i, i < n → s.dev.Clean (s.dev.areaKeys e c sa (sp + i * w) w)) →
      (∀ i, i < n → s.dev.Clean (s.dev.areaKeys e c da (dp + i * w) w)) →
      Completes (.azBmov e (BitVec.ofNat 4 k.val) 0 elems) s (fun t =>
        s.dev.Ran t e c n
          { x with
            a := BitVec.ofNat 32 (x.a.toNat + 8 * w * n), b := BitVec.ofNat 32 (x.b.toNat + 8 * w * n),
            x := BitVec.ofNat 32 (x.x.toNat - n), pc := if n = x.x.toNat then x.pc + 1 else x.pc } ∧
        s.dev.KeepsRegs t (stepRegs e) ∧ s.dev.KeepsCells t ∧ s.dev.KeepsUnits t ∧ t.evr = s.dev.evr ∧
        (∀ j, ¬(da = areaL ∧ larKey e c dp ≤ j ∧ j < larKey e c dp + n * w) →
          sget byte0 t.larea j = sget byte0 s.dev.larea j) ∧
        (∀ j, ¬(da ≠ areaL ∧ s.dev.areaBase da + dp ≤ j ∧ j < s.dev.areaBase da + dp + n * w) →
          t.byte j = s.dev.byte j) ∧
        ((sa = areaL ∧ da ≠ areaL ∨ sa ≠ areaL ∧ da = areaL ∨
            sa = areaT ∨ sa = areaC ∨
            s.dev.areaBase sa + sp + n * w ≤ s.dev.areaBase da + dp ∨ s.dev.areaBase da + dp + n * w ≤ s.dev.areaBase sa + sp) →
          ∀ j, j < n * w → t.underByte e c da (dp + j) = s.dev.areaByte e c sa (sp + j)))

/-! ## Aznum: arithmetic -/

/-- R143 with the flags of R142: integer operations other than division. -/
def Obligations.IntegerArithmetic : Prop :=
  ∀ (s : State) (e : Eng) (c : Nat), s.dev.Executes e c → ∀ x, x = s.dev.ctx e c →
    let gives (i : Instr) (r : Word) (v k : Bool) : Prop :=
      Runs i s e c { x with a := r, z := decide (r = 0), n := r.getLsbD 31, v := v, c := k, u := false }
    gives (.azAdd e 0) (x.b + x.a) (decide (x.b.toInt + x.a.toInt ≠ (x.b + x.a).toInt))
      (decide (2 ^ 32 ≤ x.b.toNat + x.a.toNat)) ∧
    gives (.azSub e 0) (x.b - x.a) (decide (x.b.toInt - x.a.toInt ≠ (x.b - x.a).toInt)) (decide (x.b.toNat < x.a.toNat)) ∧
    gives (.azMul e 0) (x.b * x.a) (decide (x.b.toInt * x.a.toInt ≠ (x.b * x.a).toInt)) false ∧
    gives (.azIntAnd e 0) (x.b &&& x.a) false false ∧
    gives (.azIntOr e 0) (x.b ||| x.a) false false ∧
    gives (.azIntXor e 0) (x.b ^^^ x.a) false false ∧
    gives (.azNeg e 0) (0 - x.a) (decide (x.a = 0x80000000)) false ∧
    gives (.azAbs e 0) (if x.a.toInt < 0 then 0 - x.a else x.a) (decide (x.a = 0x80000000)) false ∧
    gives (.azInv e 0) (~~~x.a) false false

/-- R144, R143: DIV, MOD, DIVU, MODU. With A = 0 they saturate where the task's setting says so (else they trap). -/
def Obligations.Division : Prop :=
  ∀ (s : State) (e : Eng) (c : Nat), s.dev.Executes e c → ∀ x, x = s.dev.ctx e c →
    let gives (i : Instr) (r : Word) (v : Bool) : Prop :=
      Runs i s e c { x with a := r, z := decide (r = 0), n := r.getLsbD 31, v := v, c := false, u := false }
    (x.a ≠ 0 →
      (x.b = 0x80000000 ∧ x.a = 0xFFFFFFFF → gives (.azDiv e 0) 0x7FFFFFFF true) ∧
      (¬(x.b = 0x80000000 ∧ x.a = 0xFFFFFFFF) → gives (.azDiv e 0) (x.b.sdiv x.a) false) ∧
      gives (.azMod e 0) (x.b.srem x.a) false ∧
      gives (.azDivu e 0) (x.b / x.a) false ∧
      gives (.azModu e 0) (x.b % x.a) false) ∧
    (x.a = 0 → s.dev.bit (Reg.TASK_CFG_DIV0_SAT e c) = true →
      gives (.azDiv e 0) (if x.b.toInt < 0 then 0x80000000 else 0x7FFFFFFF) true ∧
      gives (.azMod e 0) x.b true ∧
      gives (.azDivu e 0) 0xFFFFFFFF true ∧
      gives (.azModu e 0) x.b true)

/-- R145–R147 with the flags of R142: float operations give the rounded result, or infinity with V out of finite
operands; NEGF and ABSF act on the sign bit alone. -/
def Obligations.FloatArithmetic : Prop :=
  ∀ (s : State) (e : Eng) (c : Nat), s.dev.Executes e c → ∀ x, x = s.dev.ctx e c →
    let gives (i : Instr) (r : Word) (finite : Bool) : Prop :=
      Runs i s e c
        { x with
          a := r, z := decide (r.toNat % 2 ^ 31 = 0), n := r.getLsbD 31 && !fIsNaN r, v := fIsInf r && finite,
          c := false, u := fIsNaN r }
    ∀ r : Word,
      (fAdd x.b x.a = some r → gives (.azAddf e 0) r (fFinite x.b && fFinite x.a)) ∧
      (fSub x.b x.a = some r → gives (.azSubf e 0) r (fFinite x.b && fFinite x.a)) ∧
      (fMul x.b x.a = some r → gives (.azMulf e 0) r (fFinite x.b && fFinite x.a)) ∧
      (fDiv x.b x.a = some r → gives (.azDivf e 0) r (fFinite x.b && fFinite x.a)) ∧
      (fSqrt x.a = some r → gives (.azSqrtf e 0) r (fFinite x.a)) ∧
      gives (.azNegf e 0) (x.a ^^^ 0x80000000) (fFinite x.a) ∧
      gives (.azAbsf e 0) (x.a &&& 0x7FFFFFFF) (fFinite x.a)

/-- R148: CMP sets the flags of a difference or of a float compare, and its relation enters the chain as an AND. -/
def Obligations.Comparison : Prop :=
  ∀ (s : State) (e : Eng) (c : Nat), s.dev.Executes e c → ∀ x, x = s.dev.ctx e c → ∀ (sub : BitVec 4) (r la : Bool),
    r = [x.b == x.a, x.b != x.a, x.a.slt x.b, x.a.sle x.b, x.b.slt x.a, x.b.sle x.a,
      fEq x.b x.a, !fEq x.b x.a, fLt x.a x.b, fLt x.a x.b || fEq x.b x.a, fLt x.b x.a, fLt x.b x.a || fEq x.b x.a,
      x.a.ult x.b, x.a.ule x.b, x.b.ult x.a, x.b.ule x.a].getD sub.toNat false →
    la = (if x.co then r else x.la && r) →
    (sub.toNat < 6 ∨ 12 ≤ sub.toNat → Runs (.azCmp e sub 0) s e c
      { x with
        z := decide (x.b - x.a = 0), n := (x.b - x.a).getLsbD 31,
        v := decide (x.b.toInt - x.a.toInt ≠ (x.b - x.a).toInt), c := decide (x.b.toNat < x.a.toNat), u := false,
        la := la, co := false }) ∧
    (6 ≤ sub.toNat ∧ sub.toNat < 12 → Runs (.azCmp e sub 0) s e c
      { x with
        z := fEq x.b x.a, n := fLt x.b x.a, v := false, c := false, u := fIsNaN x.b || fIsNaN x.a, la := la, co := false })

/-- R149 with the flags of R142: shifts and rotations by imm[4:0], or by B[4:0] where imm[5] is set; C is the last bit
shifted out.
R150 with the flags of R142: conversions; FTI and FTIR saturate outside the range of a signed word, with V. -/
def Obligations.ShiftsAndConversions : Prop :=
  (∀ (s : State) (e : Eng) (c : Nat), s.dev.Executes e c → ∀ x, x = s.dev.ctx e c → ∀ (imm : BitVec 22) (n : Nat),
    (imm.toNat < 32 ∧ n = imm.toNat ∨ imm.toNat = 32 ∧ n = x.b.toNat % 32) →
    let gives (i : Instr) (r : Word) (k : Bool) : Prop :=
      Runs i s e c
        { x with a := r, z := decide (r = 0), n := r.getLsbD 31, v := false, c := decide (n ≠ 0) && k, u := false }
    gives (.azShl e imm) (x.a <<< n) (x.a.getLsbD (32 - n)) ∧
    gives (.azShr e imm) (x.a >>> n) (x.a.getLsbD (n - 1)) ∧
    gives (.azSar e imm) (x.a.sshiftRight n) (x.a.getLsbD (n - 1)) ∧
    gives (.azRol e imm) (x.a.rotateLeft n) (x.a.getLsbD (32 - n)) ∧
    gives (.azRor e imm) (x.a.rotateRight n) (x.a.getLsbD (n - 1))) ∧
  (∀ (s : State) (e : Eng) (c : Nat), s.dev.Executes e c → ∀ x, x = s.dev.ctx e c →
    let gives (i : Instr) (r : Word) (v : Bool) : Prop :=
      Runs i s e c { x with a := r, z := decide (r = 0), n := r.getLsbD 31, v := v, c := false, u := false }
    let float (i : Instr) (r : Word) : Prop :=
      Runs i s e c
        { x with a := r, z := decide (r.toNat % 2 ^ 31 = 0), n := r.getLsbD 31, v := false, c := false, u := false }
    let whole (i : Instr) (k : Int) : Prop :=
      (fIsInf x.a = false → -(2 ^ 31) ≤ k → k < 2 ^ 31 → gives i (BitVec.ofInt 32 k) false) ∧
      (fIsInf x.a = true ∨ k < -(2 ^ 31) ∨ 2 ^ 31 ≤ k →
        gives i (if x.a.getLsbD 31 then 0x80000000 else 0x7FFFFFFF) true)
    float (.azItf e 0) (fOfInt x.a.toInt) ∧
    float (.azUtf e 0) (fOfInt x.a.toNat) ∧
    (fIsNaN x.a = false → whole (.azFti e 0) (fToInt x.a false) ∧ whole (.azFtir e 0) (fToInt x.a true)) ∧
    gives (.azSx8 e 0) ((x.a.extractLsb' 0 8).signExtend 32) false ∧
    gives (.azSx16 e 0) ((x.a.extractLsb' 0 16).signExtend 32) false ∧
    gives (.azZx8 e 0) ((x.a.extractLsb' 0 8).zeroExtend 32) false ∧
    gives (.azZx16 e 0) ((x.a.extractLsb' 0 16).zeroExtend 32) false ∧
    gives (.azBswap e 0)
      (x.a.extractLsb' 0 8 ++ x.a.extractLsb' 8 8 ++ x.a.extractLsb' 16 8 ++ x.a.extractLsb' 24 8) false)

/-- R151, R152: LIM clamps A to the words lo and hi at its operand; SCL maps A through four floats, each step rounded. -/
def Obligations.LimitAndScale : Prop :=
  ∀ (s : State) (e : Eng) (c : Nat), s.dev.Executes e c → ∀ x, x = s.dev.ctx e c →
    ∀ (mode : BitVec 2) (area : BitVec 4) (off : BitVec 18) (ar p : Nat) (q : Nat → Word),
      (∀ i, i < 4 → (q i).toNat = s.dev.areaNum e c ar (p + 4 * i) 4) →
      (s.dev.WordTarget e c x mode area off 4 8 ar p → s.dev.Clean (s.dev.areaKeys e c ar p 8) →
        (∀ (lt gt : Bool) (r : Word), lt = x.a.slt (q 0) → gt = (!lt && (q 1).slt x.a) →
          r = (if lt then q 0 else if gt then q 1 else x.a) →
          Runs (.azLim e mode area 2 off) s e c
            { x with a := r, z := decide (r = 0), n := r.getLsbD 31, v := gt, c := lt, u := false }) ∧
        (fIsNaN x.a = false → fIsNaN (q 0) = false → fIsNaN (q 1) = false →
          ∀ (lt gt : Bool) (r : Word), lt = fLt x.a (q 0) → gt = (!lt && fLt (q 1) x.a) →
          r = (if lt then q 0 else if gt then q 1 else x.a) →
          Runs (.azLim e mode area 3 off) s e c
            { x with a := r, z := decide (r.toNat % 2 ^ 31 = 0), n := r.getLsbD 31, v := gt, c := lt, u := false })) ∧
      (s.dev.WordTarget e c x mode area off 4 16 ar p → s.dev.Clean (s.dev.areaKeys e c ar p 16) →
        ∀ t1 t2 t3 t4 t5 r, fSub x.a (q 0) = some t1 → fSub (q 3) (q 2) = some t2 → fSub (q 1) (q 0) = some t3 →
          t3.toNat % 2 ^ 31 ≠ 0 → fMul t1 t2 = some t4 → fDiv t4 t3 = some t5 → fAdd t5 (q 2) = some r →
          Runs (.azScl e mode area 3 off) s e c
            { x with
              a := r, z := decide (r.toNat % 2 ^ 31 = 0), n := r.getLsbD 31 && !fIsNaN r,
              v := fIsInf r && (fFinite x.a && fFinite (q 0) && fFinite (q 1) && fFinite (q 2) && fFinite (q 3)),
              c := false, u := fIsNaN r })

/-! ## Aznum: timers, counters and what engines share -/

/-- R156, R157: the timer instructions. A cell of another kind is cleared first, with event 0x091; then the cell takes the
kind, the base, the preset A and the input LA, and what TON, TOF and TP make of them. TRST with LA = 1 clears the cell. -/
def Obligations.Timers : Prop :=
  ∀ (s : State) (e : Eng) (c : Nat), s.dev.Executes e c → ∀ x, x = s.dev.ctx e c →
    ∀ (base : Fin 3) (idx : BitVec 16), idx.toNat < 4096 →
      let unit := if base.val = 0 then 1 else if base.val = 1 then 1000 else 100000
      let was := s.dev.tcell idx.toNat
      let leaves (i : Instr) (kind : Nat) (cell : TCell) (y : Ctx) : Prop :=
        Completes i s (fun t =>
          s.dev.Ran t e c 1 { y with pc := x.pc + 1 } ∧ t.tcell idx.toNat = cell ∧
          (∀ n, n ≠ idx.toNat → t.tcell n = s.dev.tcell n) ∧ (∀ n, t.ccell n = s.dev.ccell n) ∧
          s.dev.KeepsMem t ∧ s.dev.KeepsUnits t ∧ s.dev.KeepsRegs t (Reg.EVR_LOSS :: stepRegs e) ∧
          if kind ≠ 0 ∧ was.kind ≠ 0 ∧ was.kind ≠ kind then
            s.dev.Logs t 0x091 [wd idx.toNat, wd was.kind, wd kind, wd (16 * e + c)]
          else t.evr = s.dev.evr)
      let start (kind : Nat) : TCell :=
        { (if was.kind ≠ 0 ∧ was.kind ≠ kind then TCell.zero else was) with
          kind := kind, base := base.val, pt := x.a, inp := x.la }
      let held (kind : Nat) : Bool := decide (was.kind = 0 ∨ was.kind = kind) && was.inp
      let runs (kind : Nat) : Bool := decide (was.kind = 0 ∨ was.kind = kind) && was.run
      let acc (kind : Nat) : Nat := if was.kind = 0 ∨ was.kind = kind then was.acc else 0
      let timed (cell : TCell) (a : Nat) : TCell := { cell with acc := a, et := wd (min x.a.toNat (a / unit)) }
      let done (a : Nat) : Bool := decide (x.a.toNat ≤ a / unit)
      let gives (i : Instr) (kind : Nat) (cell : TCell) : Prop :=
        leaves i kind cell { x with la := cell.q, co := false }
      (x.la = false → gives (.azTon e (BitVec.ofNat 6 (16 * base.val)) idx) 1
        { start 1 with run := false, acc := 0, et := 0, q := false }) ∧
      (x.la = true → ∀ a, a = (if held 1 then acc 1 else 0) →
        gives (.azTon e (BitVec.ofNat 6 (16 * base.val)) idx) 1 { timed (start 1) a with run := true, q := done a }) ∧
      (x.la = true → gives (.azTof e (BitVec.ofNat 6 (16 * base.val)) idx) 2
        { start 2 with run := false, acc := 0, et := 0, q := true }) ∧
      (x.la = false → (held 2 || runs 2) = false → gives (.azTof e (BitVec.ofNat 6 (16 * base.val)) idx) 2 (start 2)) ∧
      (x.la = false → (held 2 || runs 2) = true → ∀ a, a = (if held 2 then 0 else acc 2) →
        gives (.azTof e (BitVec.ofNat 6 (16 * base.val)) idx) 2
          (if done a then { timed (start 2) a with q := false, run := false } else { timed (start 2) a with run := true })) ∧
      (runs 3 = true → gives (.azTp e (BitVec.ofNat 6 (16 * base.val)) idx) 3
        (if done (acc 3) then { timed (start 3) (acc 3) with q := false, run := false } else timed (start 3) (acc 3))) ∧
      (runs 3 = false → x.la = true → held 3 = false → gives (.azTp e (BitVec.ofNat 6 (16 * base.val)) idx) 3
        (if done 0 then { timed (start 3) 0 with q := false, run := false }
          else { timed (start 3) 0 with q := true, run := true })) ∧
      (runs 3 = false → x.la = true → held 3 = true →
        gives (.azTp e (BitVec.ofNat 6 (16 * base.val)) idx) 3 (start 3)) ∧
      (runs 3 = false → x.la = false →
        gives (.azTp e (BitVec.ofNat 6 (16 * base.val)) idx) 3 { start 3 with et := 0 }) ∧
      leaves (.azTrst e 0 idx) 0 (if x.la then TCell.zero else was) { x with co := true }

/-- R159: the counter instructions, with the bound of R156. -/
def Obligations.Counters : Prop :=
  ∀ (s : State) (e : Eng) (c : Nat), s.dev.Executes e c → ∀ x, x = s.dev.ctx e c →
    ∀ idx : BitVec 16, idx.toNat < 4096 →
      let was := s.dev.ccell idx.toNat
      let leaves (i : Instr) (cell : CCell) (y : Ctx) : Prop :=
        Completes i s (fun t =>
          s.dev.Ran t e c 1 { y with pc := x.pc + 1 } ∧ t.ccell idx.toNat = cell ∧
          (∀ n, n ≠ idx.toNat → t.ccell n = s.dev.ccell n) ∧ (∀ n, t.tcell n = s.dev.tcell n) ∧
          s.dev.KeepsMem t ∧ s.dev.KeepsUnits t ∧ s.dev.KeepsRegs t (stepRegs e) ∧ t.evr = s.dev.evr)
      let shown (cell : CCell) : CCell :=
        { cell with qu := decide (cell.pv.toInt ≤ cell.cv.toInt), qd := decide (cell.cv.toInt ≤ 0) }
      let up := x.la = true ∧ was.cum = false
      let down := x.la = true ∧ was.cdm = false
      (∀ cell, cell = shown { was with
          pv := x.a, cum := x.la, ovf := if up ∧ was.cv = 0x7FFFFFFF then true else was.ovf
          cv := if up ∧ was.cv ≠ 0x7FFFFFFF then was.cv + 1 else was.cv } →
        leaves (.azCu e 0 idx) cell { x with la := cell.qu, co := false }) ∧
      (∀ cell, cell = shown { was with
          pv := x.a, cdm := x.la, ovf := if down ∧ was.cv = 0x80000000 then true else was.ovf
          cv := if down ∧ was.cv ≠ 0x80000000 then was.cv - 1 else was.cv } →
        leaves (.azCd e 0 idx) cell { x with la := cell.qd, co := false }) ∧
      leaves (.azCr e 0 idx) (if x.la then shown { was with cv := 0, ovf := false } else was) { x with co := true } ∧
      leaves (.azCld e 0 idx) (if x.la then shown { was with pv := x.a, cv := x.a, ovf := false } else was)
        { x with co := true }

/-- R160, R518–R520: the semaphore instructions, with the owner code 0x040 + 16 e + c. A free semaphore goes to the
requester of least rank (i - q) mod 32 among those that try in the same cycle, and q then advances. -/
def Obligations.SemaphoreInstructions : Prop :=
  ∀ (s : State) (e : Eng) (c : Nat), s.dev.Executes e c → ∀ x, x = s.dev.ctx e c →
    ∀ (idx : BitVec 16) (n : Nat), n = idx.toNat → n < 64 →
      let mine := 0x40 + 16 * e + c
      let leaves (i : Instr) (owner : Nat → Prop) (la : Nat → Bool) (regs : List Nat) : Prop :=
        Completes i s (fun t =>
          owner (t.semOwner n) ∧
          s.dev.Ran t e c 1 { x with la := la (t.semOwner n), co := false, pc := x.pc + 1 } ∧
          s.dev.KeepsRegs t (regs ++ stepRegs e) ∧ s.dev.KeepsMem t ∧ s.dev.KeepsCells t ∧ t.evr = s.dev.evr ∧
          ∀ k, k ≠ n → sget zeroAt t.mb.q k = sget zeroAt s.dev.mb.q k)
      let q := sget zeroAt s.dev.mb.q n
      let rank (i : Nat) : Nat := (i + 32 - q) % 32
      (s.dev.semOwner n ≠ 0 → ∀ rivals,
        leaves (.azSemTry e 0 idx rivals) (· = s.dev.semOwner n) (fun o => o == mine) []) ∧
      (s.dev.semOwner n = 0 → leaves (.azSemTry e 0 idx []) (· = mine) (fun _ => true) [Reg.HSEM n]) ∧
      (s.dev.semOwner n = 0 → q < 32 → ∀ rivals : List Nat, rivals ≠ [] → (∀ r ∈ rivals, r ≤ 25 ∧ r ≠ e) →
        leaves (.azSemTry e 0 idx rivals) (fun o => o = mine ↔ ∀ r ∈ rivals, rank e < rank r) (fun o => o == mine)
          [Reg.HSEM n, Reg.MB_CNT] ∧
        Completes (.azSemTry e 0 idx rivals) s (fun t => sget zeroAt t.mb.q n = (q + 1) % 32)) ∧
      (s.dev.semOwner n = mine → leaves (.azSemRel e 0 idx) (· = 0) (fun _ => true) [Reg.HSEM n]) ∧
      (s.dev.semOwner n ≠ mine → leaves (.azSemRel e 0 idx) (· = s.dev.semOwner n) (fun _ => false) []) ∧
      leaves (.azSemOwn e 0 idx) (· = s.dev.semOwner n) (fun o => o == mine) []

/-- R162, R512, R513: the mailbox instructions on the endpoint of their own engine. SEND is accepted under the four
conditions of R512; refused, it leaves the boxes alone. -/
def Obligations.MailboxInstructions : Prop :=
  ∀ (s : State) (e : Eng) (c : Nat), s.dev.Executes e c → ∀ x, x = s.dev.ctx e c →
    let holds (d : Device) (r s' : Nat) (ptr lt : Word) : Prop :=
      d.bit (Reg.MB_EP_W2_VALID r) = true ∧ d.fld (Reg.MB_EP_W2_SENDER r) = s' ∧ d.rd (Reg.MB_EP_W0 r) = ptr ∧
        d.rd (Reg.MB_EP_W1 r) = lt
    (∀ (idx : BitVec 16) (r : Nat), r = idx.toNat → r < 25 →
      let accepted := r ≠ e ∧ s.dev.bit (Reg.MB_EP_W2_VALID r) = false ∧ s.dev.fld (Reg.MB_EP_W3_OUT_STATE e) ≠ 1 ∧
        (r = 24 ∨ s.dev.engState r = 2 ∨ s.dev.engState r = 3 ∨ s.dev.engState r = 4)
      (accepted → Completes (.azMbxSend e 0 idx) s (fun t =>
        s.dev.Ran t e c 1 { x with la := true, co := false, pc := x.pc + 1 } ∧ holds t r e x.a x.b ∧
        t.fld (Reg.MB_EP_W3_OUT_STATE e) = 1 ∧ t.fld (Reg.MB_EP_W3_DEST e) = r ∧
        t.fld Reg.MB_CNT_SENT = min (s.dev.fld Reg.MB_CNT_SENT + 1) 255 ∧
        (∀ r', r' < 25 → r' ≠ r → t.rd (Reg.MB_EP_W0 r') = s.dev.rd (Reg.MB_EP_W0 r') ∧
          t.rd (Reg.MB_EP_W1 r') = s.dev.rd (Reg.MB_EP_W1 r') ∧ t.rd (Reg.MB_EP_W2 r') = s.dev.rd (Reg.MB_EP_W2 r')) ∧
        (r = 24 → t.bitAt Reg.HP_IRQ_STAT_CAUSE 1 = true) ∧ s.dev.KeepsMem t ∧ s.dev.KeepsCells t)) ∧
      (¬accepted → Completes (.azMbxSend e 0 idx) s (fun t =>
        s.dev.Ran t e c 1 { x with la := false, co := false, pc := x.pc + 1 } ∧
        t.fld Reg.MB_CNT_REFUSED = min (s.dev.fld Reg.MB_CNT_REFUSED + 1) 255 ∧
        s.dev.KeepsRegs t (Reg.MB_CNT :: stepRegs e) ∧ s.dev.KeepsMem t ∧ s.dev.KeepsCells t ∧ s.dev.KeepsUnits t ∧
        t.evr = s.dev.evr))) ∧
    (∀ ptr lt s', holds s.dev e s' ptr lt → Runs (.azMbxRecv e 0 0) s e c
      { x with a := ptr, b := lt, la := true, co := false }) ∧
    (s.dev.bit (Reg.MB_EP_W2_VALID e) = false → Runs (.azMbxRecv e 0 0) s e c
      { x with a := 0, b := 0, la := false, co := false }) ∧
    (∀ ptr lt s', holds s.dev e s' ptr lt → Completes (.azMbxAck e 0 0) s (fun t =>
      s.dev.Ran t e c 1 { x with la := true, co := false, pc := x.pc + 1 } ∧
      t.rd (Reg.MB_EP_W0 e) = 0 ∧ t.rd (Reg.MB_EP_W1 e) = 0 ∧ t.bit (Reg.MB_EP_W2_VALID e) = false ∧
      t.fld (Reg.MB_EP_W3_OUT_STATE s') = 2 ∧ t.fld (Reg.MB_EP_W3_CODE s') = min (x.a.toNat % 65536) 0xFFFE ∧
      s.dev.KeepsMem t ∧ s.dev.KeepsCells t)) ∧
    (s.dev.bit (Reg.MB_EP_W2_VALID e) = false → Runs (.azMbxAck e 0 0) s e c { x with la := false, co := false }) ∧
    Runs (.azMbxStat e 0 0) s e c { x with
      b := x.a, a := wd (s.dev.fld (Reg.MB_EP_W3_CODE e)), co := false
      la := decide (s.dev.fld (Reg.MB_EP_W3_OUT_STATE e) = 2 ∨ s.dev.fld (Reg.MB_EP_W3_OUT_STATE e) = 3) }

/-- R163, R517: the doorbell instructions. RING sets bits of an endpoint and leaves LA alone; TAKE takes exactly the
pending bits that are not masked. -/
def Obligations.DoorbellInstructions : Prop :=
  ∀ (s : State) (e : Eng) (c : Nat), s.dev.Executes e c → ∀ x, x = s.dev.ctx e c →
    (∀ (idx : BitVec 16) (n : Nat), n = idx.toNat → n < 25 → Completes (.azDblRing e 0 idx) s (fun t =>
      s.dev.Ran t e c 1 { x with pc := x.pc + 1 } ∧ t.rd (Reg.MB_EP_W4 n) = s.dev.rd (Reg.MB_EP_W4 n) ||| x.a ∧
      (∀ k, k < 25 → k ≠ n → t.rd (Reg.MB_EP_W4 k) = s.dev.rd (Reg.MB_EP_W4 k)) ∧
      s.dev.KeepsMem t ∧ s.dev.KeepsCells t ∧
      (x.a &&& ~~~ s.dev.rd (Reg.MB_EP_W4 n) &&& ~~~ s.dev.rd (Reg.MB_EP_W6 n) = 0 →
        s.dev.KeepsRegs t (Reg.MB_EP_W4 n :: stepRegs e) ∧ s.dev.KeepsUnits t))) ∧
    (∀ take, take = s.dev.rd (Reg.MB_EP_W4 e) &&& ~~~ s.dev.rd (Reg.MB_EP_W6 e) →
      Completes (.azDblTake e 0 0) s (fun t =>
        s.dev.Ran t e c 1 { x with a := take, b := x.a, la := take != 0, co := false, pc := x.pc + 1 } ∧
        t.rd (Reg.MB_EP_W4 e) = s.dev.rd (Reg.MB_EP_W4 e) &&& ~~~ take ∧
        s.dev.KeepsRegs t (Reg.MB_EP_W4 e :: stepRegs e) ∧ s.dev.KeepsMem t ∧ s.dev.KeepsCells t ∧ s.dev.KeepsUnits t ∧
        t.evr = s.dev.evr))

/-- R164, R165, R167: EVW writes a program event with the snapshot words of its sub-operation; TICKT, NOW and TICKUS read
time, TINFO the last trap. -/
def Obligations.EventAndTime : Prop :=
  ∀ (s : State) (e : Eng) (c : Nat), s.dev.Executes e c → ∀ x, x = s.dev.ctx e c →
    (∀ (sub : Fin 4) (idx : BitVec 16), idx.toNat < 1024 → Completes (.azEvw e (BitVec.ofNat 4 sub.val) 0 idx) s (fun t =>
      s.dev.Ran t e c 1 { x with pc := x.pc + 1 } ∧ s.dev.KeepsRegs t (Reg.EVR_LOSS :: stepRegs e) ∧ s.dev.KeepsMem t ∧
      s.dev.KeepsCells t ∧ s.dev.KeepsUnits t ∧
      s.dev.Logs t (0x400 + idx.toNat) ([x.a, x.b, x.x, x.y].take (if sub.val = 3 then 4 else sub.val)))) ∧
    Runs (.azTickt e 0 0) s e c { x with a := wd s.dev.tick.tickT, b := wd (s.dev.tick.tickT / 2 ^ 32) } ∧
    Runs (.azNow e 0 0) s e c { x with a := wd s.dev.ts64, b := wd (s.dev.ts64 / 2 ^ 32) } ∧
    Runs (.azTickus e 0 0) s e c { x with a := wd s.dev.tick.tickUs, b := x.a } ∧
    Runs (.azTinfo e 0 0) s e c { x with a := s.dev.rd (Reg.CE_TRAP_0 e), b := s.dev.rd (Reg.CE_TRAP_1 e) }

/-- R167–R172: TRAP raises "program trap" with its resource index as the code, and an unassigned word "illegal opcode": the
trap registers take cause, context, reaction, position and address, COUNT counts, and the reaction follows: STOP_TASK
ends the instance, STOP_ENGINE stops the engine. (A trap of a migrate instance fails the start as well, R486.) -/
def Obligations.Traps : Prop :=
  ∀ (s : State) (e : Eng) (c : Nat), s.dev.Executes e c → ∀ x, x = s.dev.ctx e c → s.dev.migrating e c = false →
    ∀ react, react = s.dev.fld (Reg.TASK_CFG_TRAP_REACT e c) → react ≤ 1 →
      let traps (i : Instr) (cause code addr : Nat) : Prop :=
        Completes i s (fun t =>
          t.rd (Reg.CE_TRAP_0 e) = wd (code * 65536 + c * 4096 + react * 1024 + cause) ∧
          t.fld (Reg.CE_TRAP_1_AREA e) = 15 ∧ (t.rd (Reg.CE_TRAP_1 e)).toNat % 65536 = x.pc.toNat ∧
          t.fld (Reg.CE_TRAP_1_COUNT e) = min (s.dev.fld (Reg.CE_TRAP_1_COUNT e) + 1) 255 ∧
          t.rd (Reg.CE_TRAP_2 e) = wd addr ∧
          (react = 1 → t.engState e = 5) ∧
          (react = 0 → t.engState e = 3 ∧
            (s.dev.bit (Reg.TASK_ENG_CFG_FAULT_EN e) = false →
              t.ctxState e c = if s.dev.bit (Reg.TASK_STAT_LATCH e c) then 1 else 0)) ∧
          s.dev.KeepsMem t ∧ s.dev.KeepsCells t)
      (∀ idx : BitVec 16, traps (.azTrap e 0 idx) 0xC idx.toNat idx.toNat) ∧
      (∀ w : Word, wordLegal w.toNat = false → traps (.illegalInstruction e w) 1 0 0)

/-! ## The machine -/

/-- The command at the front of the queue runs on the state with the rest of the queue; with an empty queue the block
idles, and only the time base and the standby counter go on (log 4). -/
def Obligations.StepRunsFront : Prop :=
  ∀ s : State,
    (∀ i rest, s.pending = i :: rest → step s = exec i { s with pending := rest }) ∧
    (s.pending = [] → ∃ t, step s = .next t ∧ t.pending = [] ∧
      (∀ a, a ∉ [Reg.SF_GATE, Reg.PWR_STBY_STAT, Reg.PWR_STBY_SEC_LO, Reg.PWR_STBY_SEC_HI] → t.dev.rd a = s.dev.rd a) ∧ s.dev.KeepsMem t.dev ∧
      t.dev.ce = s.dev.ce ∧ t.dev.evr = s.dev.evr)

/-- What the release of POR leaves (R12): nothing waits, no memory holds anything, engines are OFF and have not trapped,
timer and counter cells, semaphores, mailboxes and doorbells are clear, the field outputs are gated off by START. -/
def Obligations.ResetState : Prop :=
  State.reset.pending = [] ∧ State.reset.dev.mem = [] ∧ State.reset.dev.larea = [] ∧ State.reset.dev.prog = [] ∧
  (∀ e, e < 24 → State.reset.dev.engState e = 0 ∧ State.reset.dev.rd (Reg.CE_TRAP_0 e) = 0 ∧
    State.reset.dev.rd (Reg.CE_TRAP_1 e) = 0 ∧ State.reset.dev.rd (Reg.CE_TRAP_2 e) = 0) ∧
  (∀ n, State.reset.dev.tcell n = TCell.zero ∧ State.reset.dev.ccell n = CCell.zero) ∧
  (∀ k, k < 64 → State.reset.dev.semOwner k = 0 ∧ sget zeroAt State.reset.dev.mb.q k = 0) ∧
  (∀ k, k < 25 → State.reset.dev.rd (Reg.MB_EP_W2 k) = 0 ∧ State.reset.dev.rd (Reg.MB_EP_W3 k) = 0 ∧
    State.reset.dev.rd (Reg.MB_EP_W4 k) = 0) ∧
  State.reset.dev.rd Reg.TICK_COUNT_LO = 0 ∧ State.reset.dev.rd Reg.TICK_COUNT_HI = 0 ∧
  State.reset.dev.rd Reg.SF_SLUICE_STAT = 1 ∧ State.reset.dev.rd Reg.SF_GATE = 0xFFFFFF

/-- No output is driven against Sluice at reset. -/
def Obligations.GatedAtReset : Prop := State.reset.dev.Gated

/-- R387, R388: no command and no idle step leaves an output driven against Sluice or against the field die's hold,
whatever the command and whatever the committed image, the force table and Weir hold. -/
def Obligations.GatedKept : Prop :=
  ∀ s t : State, s.dev.Gated → step s = .next t → t.dev.Gated

/-- No command stops the machine, and none touches the commands that wait. -/
def Obligations.CommandsAnswer : Prop :=
  ∀ (i : Instr) (s : State), ∃ t, exec i s = .next t ∧ t.pending = s.pending

/-- R31: a write of CMD while BUSY = 1 is discarded: DROPPED is set, the event at offset 3 of the block's range is
recorded, and nothing else changes. -/
def Obligations.BusyDiscards : Prop :=
  ∀ (s : State) (i : Instr) (p : Port), portOf i = some p → s.dev.fld p.busy = 1 →
    Completes i s (fun t =>
      t.fld p.busy = 1 ∧ t.fld p.code = s.dev.fld p.code ∧ t.fld p.seq = s.dev.fld p.seq ∧ t.fld p.dropped = 1 ∧
      s.dev.Writes t [p.stat, Reg.EVR_LOSS] ∧ ∃ words, s.dev.Logs t (p.ev + 3) words)

/-! ## Clearing counters -/

/-- The commands that clear counters: they need no permission and act in any state; the counters read 0. -/
def Obligations.CountersClear : Prop :=
  ∀ s : State,
    let clears (i : Instr) (p : Port) (regs : List Nat) : Prop :=
      Done i s p (fun t => (∀ a ∈ regs, t.rd a = 0) ∧ s.dev.Writes t (p.stat :: regs))
    (∀ e : Eng, Done (.ceClearCounters e 0) s (portCE e) (fun t =>
      t.fld (Reg.CE_ECC_CNT_CORR e) = 0 ∧ t.fld (Reg.CE_AGREE_STAT_MAX_DIFF e) = 0 ∧ t.fld (Reg.CE_TRAP_1_COUNT e) = 0 ∧
      t.rd Reg.CE_MEM_CORR_CNT = 0 ∧ s.dev.Writes t
        [(portCE e).stat, Reg.CE_ECC_CNT e, Reg.CE_AGREE_STAT e, Reg.CE_TRAP_1 e, Reg.CE_MEM_CORR_CNT])) ∧
    clears (.taskClearCounters 0) portTASK (Reg.TASK_GRID_STAT ::
      (List.range 24).flatMap (fun e => (List.range 16).flatMap (fun c => [Reg.TASK_CNT e c, Reg.TASK_MAXRUN e c]))) ∧
    clears (.tickClearCounters 0) portTICK [Reg.TICK_ERR_CNT] ∧
    clears (.triClearCounters 0) portTRI [Reg.TRI_CNT, Reg.TRI_SHADOW_DIFF] ∧
    clears (.klClearCounters 0) portKL [Reg.KL_ERR 0, Reg.KL_ERR 1, Reg.KL_ERR 2] ∧
    clears (.foClearCounters 0) portFO [Reg.FO_CNT] ∧
    clears (.sbClearCounters 0) portSB [Reg.SB_ERR_0, Reg.SB_ERR_1, Reg.SB_ERR_2] ∧
    clears (.sbgClearCounters 0) portSBG [Reg.SBG_CNT] ∧
    Done (.ethClearCounters 0) s portETH (fun t =>
      (∀ p, p < 3 → t.rd (Reg.ETH_ERR p) = 0 ∧ t.fld (Reg.ETH_TXTS_STAT_OVF p) = 0) ∧ s.dev.Writes t (Reg.ETH_CMD_STATUS ::
        (List.range 3).flatMap (fun p => [Reg.ETH_ERR p, Reg.ETH_TXTS_STAT p]))) ∧
    clears (.tbClearCounters 0) portTB [Reg.TB_CNT] ∧
    Done (.scClearCounters 0) s portSC (fun t =>
      t.rd Reg.SC_CNT = 0 ∧ (∀ n, n < 256 → t.fld (Reg.SC_CONN_W7_FAILED n) = 0) ∧
      s.dev.Writes t (Reg.SC_CMD_STATUS :: Reg.SC_CNT :: (List.range 256).map Reg.SC_CONN_W7)) ∧
    clears (.sfClearCounters 0) portSF [Reg.SF_CNT, Reg.SF_SLUICE_FLAGS] ∧
    clears (.fldClearCounters 0) portFLD [Reg.FLD_CNT] ∧
    clears (.sigClearCounters 0) portSIG [Reg.SIG_CNT] ∧
    clears (.nvmClearCounters 0) portNVM [Reg.NVM_CNT, Reg.NVM_ECC_MAX] ∧
    clears (.hpClearCounters 0) portHP [Reg.HP_CNT] ∧
    clears (.mbClearCounters 0) portMB [Reg.MB_CNT] ∧
    clears (.evrClearCounters 0) portEVR [Reg.EVR_LOSS] ∧
    clears (.pwrClearCounters 0) portPWR [Reg.PWR_WEIR_CNT]

/-! ## Cyclic engines -/

/-- R73, R74, R77: the scrubber reads a codeword. A correctable error is counted once and written back later; an
uncorrectable one is a memory fault: the fault line into Sluice, and CE_MEM_ERR latched unless it holds a fault. -/
def Obligations.ScrubbedMemory : Prop :=
  ∀ (s : State) (key : Nat), s.dev.bit Reg.CE_SCRUB_CFG_EN = true →
    (s.dev.ecc key = .clean → Completes (.scrubberRead key .good) s (fun t => t.ce = s.dev.ce ∧ s.dev.Writes t [])) ∧
    (s.dev.ecc key = .clean → eccEng key < 24 → Completes (.scrubberRead key .correctable) s (fun t =>
      t.ecc key = .counted ∧ (∀ k, k ≠ key → t.ecc k = s.dev.ecc k) ∧
      (key < 0x40000000 → t.rd Reg.CE_MEM_CORR_CNT = wd (min ((s.dev.rd Reg.CE_MEM_CORR_CNT).toNat + 1) (2 ^ 32 - 1))) ∧
      (0x40000000 ≤ key → t.fld (Reg.CE_ECC_CNT_CORR (eccEng key)) =
        min (s.dev.fld (Reg.CE_ECC_CNT_CORR (eccEng key)) + 1) 65535) ∧
      s.dev.Logs t 0x089 [wd (eccMem key), wd (eccAddr key)] ∧ s.dev.KeepsMem t ∧ s.dev.KeepsCells t)) ∧
    (s.dev.ecc key = .counted → ∀ found, found = .good ∨ found = .correctable →
      Completes (.scrubberRead key found) s (fun t => t.ce = s.dev.ce ∧ s.dev.Writes t [])) ∧
    (s.dev.ecc key = .counted → Completes (.eccWriteback key) s (fun t =>
      t.ecc key = .clean ∧ (∀ k, k ≠ key → t.ecc k = s.dev.ecc k) ∧ s.dev.KeepsRegs t [Reg.SF_GATE] ∧
      s.dev.KeepsMem t ∧ s.dev.KeepsUnits t)) ∧
    (∀ found, found = .badData ∨ found = .badAddress → Completes (.scrubberRead key found) s (fun t =>
      (t.rd Reg.SF_SLUICE_STAT).toNat.testBit 1 = true ∧ (t.rd Reg.SF_GATE).toNat % 2 ^ 24 = 2 ^ 24 - 1 ∧
      t.bit Reg.CE_MEM_ERR_INFO_VALID = true ∧
      (s.dev.bit Reg.CE_MEM_ERR_INFO_VALID = true → t.rd Reg.CE_MEM_ERR = s.dev.rd Reg.CE_MEM_ERR) ∧
      (s.dev.bit Reg.CE_MEM_ERR_INFO_VALID = false → t.rd Reg.CE_MEM_ERR = wd (eccAddr key) ∧
        t.fld Reg.CE_MEM_ERR_INFO_MASTER = 1 ∧ t.fld Reg.CE_MEM_ERR_INFO_MEM = eccMem key) ∧ s.dev.KeepsMem t))

/-- R78, R79, R86, R87, R89: engine faults. A difference that both comparators see latches COMPARE, one that a single
comparator sees COMP_DISAGREE as well; synchronisers that differ for five cycles latch AGREE, for fewer only DIFF_SEEN.
The engine stops in FAULT, its contexts end, and its fault line trips Sluice. -/
def Obligations.EngineFaults : Prop :=
  ∀ (s : State) (e : Eng), s.dev.engState e ≠ 0 → s.dev.engState e ≠ 6 →
    let c := s.dev.fld (Reg.CE_STATUS_ACTIVE_CTX e)
    let faults (i : Instr) (fault : Nat) : Prop :=
      Completes i s (fun t =>
        t.engState e = 6 ∧ t.rd (Reg.CE_FAULT e) = wd fault ∧
        t.rd (Reg.CE_FAULT_PC e) = wd (c * 65536 + (s.dev.ctx e c).pc.toNat) ∧ (∀ k, k < 16 → t.ctxState e k = 0) ∧
        (t.rd Reg.SF_SLUICE_STAT).toNat.testBit 1 = true ∧ (t.rd Reg.SF_GATE).toNat % 2 ^ 24 = 2 ^ 24 - 1 ∧
        (∀ e', e' < 24 → e' ≠ e → t.engState e' = s.dev.engState e') ∧ s.dev.KeepsMem t ∧ s.dev.KeepsCells t)
    (∀ g : Fin 9, faults (.engineFault e true true g) (1 + g.val * 65536 + 3 * 4096)) ∧
    (∀ g : Fin 9, faults (.engineFault e true false g) (3 + 256 + g.val * 65536 + 4096)) ∧
    (∀ g : Fin 9, faults (.engineFault e false true g) (3 + 256 + g.val * 65536 + 2 * 4096)) ∧
    (∀ (sig : Fin 5) (n : Nat) (level : Bool), 5 ≤ n → faults (.agreeFault e sig n level) (4 + 2 * 256)) ∧
    (∀ (sig : Fin 5) (n : Nat) (level : Bool), 0 < n → n < 5 → Completes (.agreeFault e sig n level) s (fun t =>
      t.bitAt (Reg.CE_AGREE_STAT_DIFF_SEEN e) sig = true ∧
      t.fld (Reg.CE_AGREE_STAT_MAX_DIFF e) = max (s.dev.fld (Reg.CE_AGREE_STAT_MAX_DIFF e)) n ∧
      sget falseAt t.ce.agreed (5 * e.val + sig.val) = level ∧ t.engState e = s.dev.engState e ∧
      s.dev.KeepsRegs t [Reg.SF_GATE, Reg.CE_AGREE_STAT e] ∧ s.dev.KeepsMem t ∧ s.dev.KeepsUnits t))

/-- R92–R97, R99, R100: the debug commands, with the DEBUG permission and in a lane state that admits them. STEP runs the
one instruction of the dispatched context (here NOP, 0x6D000000) and halts again. -/
def Obligations.DebugCommands : Prop :=
  ∀ (s : State) (e : Eng), s.dev.perm permDebug = true →
    (s.dev.engState e = 3 → s.dev.debugLane = true → Done (.halt e 0) s (portCE e) (fun t =>
      t.engState e = 4 ∧ t.bit (Reg.CE_STATUS_DBG_TOUCHED e) = true ∧
      s.dev.Logs t 0x08B (wd e :: (List.range 16).map (fun c => wd (s.dev.ctx e c).pc.toNat)) ∧
      s.dev.Writes t [Reg.CE_STATUS e, Reg.CE_CMD_STATUS e, Reg.EVR_LOSS])) ∧
    (s.dev.engState e = 4 → ∀ (c : Fin 16) (n : Fin 6), n.val ≠ 0 →
      let x := s.dev.ctx e c
      let held := if n.val = 1 then x.a else if n.val = 2 then x.b else if n.val = 3 then x.x
        else if n.val = 4 then x.y else wd x.pc.toNat
      Done (.regRead e (BitVec.ofNat 24 (256 * c + n))) s (portCE e) (fun t =>
        t.rd (Reg.CE_DBG_DATA e) = held ∧ s.dev.Writes t [Reg.CE_DBG_DATA e, Reg.CE_CMD_STATUS e])) ∧
    (s.dev.engState e = 4 → (sget noReplay s.dev.ce.replay e).length < 64 → ∀ (c : Fin 16) (n : Fin 6), n.val ≠ 0 →
      let x := s.dev.ctx e c
      let v := s.dev.rd (Reg.CE_DBG_DATA e)
      let new := if n.val = 1 then { x with a := v } else if n.val = 2 then { x with b := v }
        else if n.val = 3 then { x with x := v } else if n.val = 4 then { x with y := v }
        else { x with pc := BitVec.ofNat 16 v.toNat }
      Done (.regWrite e (BitVec.ofNat 24 (256 * c + n))) s (portCE e) (fun t =>
        t.ctx e c = new ∧ t.ce.chk = s.dev.ce.chk ∧
        sget noReplay t.ce.replay e = sget noReplay s.dev.ce.replay e ++ [(c.val, n.val, v)] ∧
        t.fld (Reg.CE_REPLAY_STAT_DEPTH e) = (sget noReplay s.dev.ce.replay e).length + 1 ∧ s.dev.KeepsMem t ∧
        s.dev.KeepsCells t)) ∧
    (s.dev.engState e = 4 →
      copiesDiffer e s.dev.ce.main (applyReplay e s.dev.ce.chk (sget noReplay s.dev.ce.replay e)) 16 = none →
      (∀ c, c < 16 → sget falseAt s.dev.task.overdue (16 * e + c) = false) →
      Done (.resume e 0) s (portCE e) (fun t =>
        t.engState e = 3 ∧ sget noReplay t.ce.replay e = [] ∧ t.fld (Reg.CE_REPLAY_STAT_DEPTH e) = 0 ∧
        s.dev.Logs t 0x08C [wd e, wd (sget noReplay s.dev.ce.replay e).length] ∧ t.ce.main = s.dev.ce.main ∧
        s.dev.KeepsMem t ∧ s.dev.KeepsCells t)) ∧
    (s.dev.engState e = 4 → s.dev.debugLane = true →
      copiesDiffer e s.dev.ce.main (applyReplay e s.dev.ce.chk (sget noReplay s.dev.ce.replay e)) 16 = none →
      ∀ c, s.dev.pickCtx e 16 = some c → s.dev.ctxState e c = 2 → s.dev.ecc (fetchKey e (s.dev.ctx e c).pc) = .clean →
        (s.dev.ctx e c).pc.toNat % 32768 ≠ 32767 → s.dev.fetched e (s.dev.ctx e c).pc = 0x6D000000 →
        Done (.step e 0) s (portCE e) (fun t =>
          t.engState e = 4 ∧ t.ctx e c = { s.dev.ctx e c with pc := (s.dev.ctx e c).pc + 1 } ∧
          t.retired e = (s.dev.retired e + 1) % 2 ^ 64 ∧ s.dev.KeepsMem t ∧ s.dev.KeepsCells t)) ∧
    (∀ (n : Fin 4) (v : Word), Completes (.breakpointWrite e n v) s (fun t =>
      t.rd (Reg.CE_BP e n) = v &&& 0x801F7FFF ∧ s.dev.Writes t [Reg.CE_BP e n])) ∧
    (s.dev.engState e = 3 → s.dev.debugLane = true → ∀ (n : Fin 4) (c : Nat), s.dev.pickCtx e 16 = some c →
      s.dev.ctxState e c = 2 → s.dev.bit (Reg.CE_BP_EN e n) = true →
      s.dev.fld (Reg.CE_BP_PC e n) = (s.dev.ctx e c).pc.toNat % 32768 →
      (s.dev.bit (Reg.CE_BP_ANY_CTX e n) = true ∨ s.dev.fld (Reg.CE_BP_CTX e n) = c) →
      Completes (.breakpointHit e n) s (fun t =>
        t.engState e = 4 ∧ t.bit (Reg.CE_STATUS_DBG_TOUCHED e) = true ∧
        s.dev.Writes t [Reg.CE_STATUS e, Reg.EVR_LOSS]))

/-- R92: without the DEBUG permission a debug command ends with code 4 and has no effect, and a write of a breakpoint
leaves the register unchanged; both are reported with event 0x082. -/
def Obligations.DebugNeedsSeal : Prop :=
  ∀ (s : State) (e : Eng), s.dev.perm permDebug = false →
    (∀ i : Instr, i ∈ [Instr.halt e 0, Instr.resume e 0, Instr.step e 0, Instr.regRead e 1, Instr.regWrite e 1] →
      s.dev.fld (portCE e).busy = 0 → Completes i s (fun t =>
        t.Ended s.dev (portCE e) 4 ∧ s.dev.Writes t [Reg.CE_CMD_STATUS e, Reg.EVR_LOSS] ∧
        ∃ words, s.dev.Logs t 0x082 words)) ∧
    (∀ (n : Fin 4) (v : Word), Completes (.breakpointWrite e n v) s (fun t =>
      s.dev.Writes t [Reg.EVR_LOSS] ∧ ∃ words, s.dev.Logs t 0x082 words))

/-- R102, R104: the TAP. After TAP reset IDCODE is selected. An access of DBG_ACCESS starts at Update-DR; one that comes
while an access runs is discarded with status 1, OP 3 makes no access and reports status 2, and without DEBUG an access is
refused with status 3. -/
def Obligations.TapAccess : Prop :=
  ∀ s : State,
    let keeps (t : Device) : Prop := s.dev.KeepsRegs t [Reg.SF_GATE] ∧ s.dev.KeepsMem t ∧ s.dev.KeepsCells t ∧
      s.dev.KeepsUnits t ∧ t.ce.main = s.dev.ce.main ∧ t.ce.chk = s.dev.ce.chk
    Completes .tapReset s (fun t => t.ce.tapIr = 1 ∧ keeps t) ∧
    (∀ ir : BitVec 4, Completes (.tapInstructionUpdate ir) s (fun t => t.ce.tapIr = ir.toNat ∧ keeps t)) ∧
    (∀ (op : Fin 4) (wa : BitVec 30) (v : Word), s.dev.ce.tapIr = 8 →
      ∀ dr, dr = BitVec.ofNat 64 (op.val * 2 ^ 62 + wa.toNat * 2 ^ 32 + v.toNat) →
      (s.dev.perm permDebug = false → Completes (.dbgAccess dr) s (fun t =>
        t.ce.dbgPrev.op = 3 ∧ t.ce.dbgPrev.waddr = wa.toNat ∧ t.ce.dbgRun = s.dev.ce.dbgRun ∧ keeps t)) ∧
      (s.dev.perm permDebug = true → s.dev.ce.dbgRun = none → op.val = 1 ∨ op.val = 2 →
        Completes (.dbgAccess dr) s (fun t => t.ce.dbgRun = some ⟨op.val, wa.toNat, v⟩ ∧ keeps t)) ∧
      (s.dev.perm permDebug = true → s.dev.ce.dbgRun = none → op.val = 3 → Completes (.dbgAccess dr) s (fun t =>
        t.ce.dbgRun = none ∧ t.ce.dbgPrev.op = 2 ∧ t.ce.dbgPrev.waddr = wa.toNat ∧ keeps t)) ∧
      (s.dev.perm permDebug = true → ∀ r, s.dev.ce.dbgRun = some r → Completes (.dbgAccess dr) s (fun t =>
        t.ce.dbgRun = some r ∧ t.ce.dbgPrev.op = 1 ∧ keeps t)))

/-! ## Tasks -/

/-- R186, R187: an instance that has not ended at its deadline has overrun: OVR counts, the TICK block is told (event
0x047), and OVR_REACT follows: CONTINUE leaves the instance alone, ABORT ends it and counts in ABORTED. -/
def Obligations.DeadlineOverruns : Prop :=
  ∀ (s : State) (e : Eng) (c : CtxNo) (r : Rel), s.dev.engState e = 3 → s.dev.relOf e c = some r → r.late = false →
    (r.due = none ∧ s.dev.fld (Reg.TASK_CFG_DL_KIND e c) = 1 ∨ ∃ n, r.due = some n ∧ n ≤ s.dev.tickCount) →
    let counted (t : Device) : Prop :=
      t.fld (Reg.TASK_CNT_OVR e c) = min (s.dev.fld (Reg.TASK_CNT_OVR e c) + 1) 255 ∧
      t.bit Reg.TICK_FLAGS_OVERRUN = true ∧
      t.fld Reg.TICK_ERR_CNT_OVR = min (s.dev.fld Reg.TICK_ERR_CNT_OVR + 1) 255 ∧ s.dev.KeepsMem t ∧ t.ce = s.dev.ce
    (s.dev.fld (Reg.TASK_CFG_OVR_REACT e c) = 0 → Completes (.deadlineOverrun e c false) s (fun t =>
      counted t ∧ s.dev.Logs t 0x047 [] ∧ t.ctxState e c = s.dev.ctxState e c ∧ t.relOf e c = some { r with late := true } ∧
      s.dev.KeepsRegs t [Reg.SF_GATE, Reg.TASK_CNT e c, Reg.TICK_FLAGS, Reg.TICK_ERR_CNT, Reg.EVR_LOSS])) ∧
    (s.dev.fld (Reg.TASK_CFG_OVR_REACT e c) = 1 → s.dev.bit (Reg.TASK_STAT_LATCH e c) = false →
      Completes (.deadlineOverrun e c false) s (fun t =>
        counted t ∧ t.ctxState e c = 0 ∧ t.relOf e c = none ∧ t.engState e = 3 ∧
        t.fld (Reg.TASK_CNT_ABORTED e c) = min (s.dev.fld (Reg.TASK_CNT_ABORTED e c) + 1) 255))

/-- R178, R202: TRIGGER releases an enabled event task of an engine in RUN that is not voted, once the release point of
tick 1 has passed: an IDLE context becomes PENDING; a PENDING one drops the release, which DROP counts. -/
def Obligations.TriggerReleases : Prop :=
  ∀ (s : State) (e : Eng) (c : CtxNo), s.dev.bit (Reg.TASK_CFG_EN e c) = true → s.dev.fld (Reg.TASK_CFG_KIND e c) = 1 →
    s.dev.engState e = 3 → s.dev.task.tick1 = true → s.dev.voted e = false →
    (s.dev.ctxState e c = 0 → Done (.trigger (BitVec.ofNat 24 (256 * e + c))) s portTASK (fun t =>
      t.ctxState e c = 1 ∧ (∃ r, t.relOf e c = some r ∧ r.kind = 6 ∧ r.tick = s.dev.tickCount ∧ r.rtime = s.dev.ts64) ∧
      s.dev.KeepsRegs t [Reg.SF_GATE, Reg.TASK_CMD_STATUS, Reg.TASK_STAT e c] ∧ s.dev.KeepsMem t ∧ t.ce = s.dev.ce)) ∧
    (s.dev.ctxState e c = 1 → Done (.trigger (BitVec.ofNat 24 (256 * e + c))) s portTASK (fun t =>
      t.ctxState e c = 1 ∧ t.fld (Reg.TASK_CNT_DROP e c) = min (s.dev.fld (Reg.TASK_CNT_DROP e c) + 1) 255 ∧
      t.relOf e c = s.dev.relOf e c ∧ s.dev.Logs t 0x0C5 [wd (16 * e + c), 0] ∧
      s.dev.KeepsRegs t [Reg.SF_GATE, Reg.TASK_CMD_STATUS, Reg.TASK_CNT e c, Reg.EVR_LOSS] ∧ s.dev.KeepsMem t ∧
      t.ce = s.dev.ce))

/-- R193–R195: delivery in the lane roles. A grid point samples flags and step counts; the samples of another lane are
kept; at the mark an agreed release takes effect; a lane past its mark is excluded with event 0x0C7; a flag that stays
unagreed for three grid points is cleared and counted. -/
def Obligations.GridDelivery : Prop :=
  ∀ s : State, s.dev.isLane = true →
    (∀ j, Completes (.gridPoint j) s (fun t =>
      t.task.gridPoint = j ∧ t.task.ownSample = some ⟨s.dev.task.flags,
        ((List.range 24).filter (fun e => s.dev.voted e)).map (fun e => (e, s.dev.retired e))⟩ ∧ s.dev.KeepsMem t ∧
      s.dev.KeepsCells t)) ∧
    (∀ (port lane : Fin 3) flags counts, port.val ≠ 2 → lane.val ≠ s.dev.lane →
      Completes (.gridParcelReceived port lane flags counts) s (fun t =>
        sget noSample t.task.peerSample lane = some ⟨flags, counts⟩ ∧ s.dev.KeepsMem t ∧ s.dev.KeepsCells t)) ∧
    (∀ (e : Eng) (c : CtxNo) (r : Rel) (m : Nat), sget noMark s.dev.task.mark e = some m → s.dev.retired e = m →
      s.dev.task.boundarySet = [(16 * e.val + c.val, r)] → s.dev.task.agreedSet = [] → s.dev.engState e = 3 →
      s.dev.ctxState e c = 0 → Completes (.gridDelivery e) s (fun t =>
        t.ctxState e c = 1 ∧ t.relOf e c = some r ∧ sget noMark t.task.mark e = none ∧
        s.dev.KeepsRegs t [Reg.SF_GATE, Reg.TASK_STAT e c] ∧ s.dev.KeepsMem t ∧ t.ce = s.dev.ce)) ∧
    (∀ (e : Eng) (m : Nat), sget noMark s.dev.task.mark e = some m → m < s.dev.retired e → s.dev.votesSelf = true →
      s.dev.fld Reg.TRI_LANE_STAT_STATE ≠ 4 →
      Completes (.gridDelivery e) s (fun t => t.laneState s.dev.lane = 3 ∧ s.dev.KeepsMem t)) ∧
    (∀ src : Fin 256, 3 ≤ sget zeroAt s.dev.task.flagAge src → src.val ∈ s.dev.task.flags →
      Completes (.flagUnagreed src) s (fun t =>
        src.val ∉ t.task.flags ∧ (∀ f, f ≠ src.val → (f ∈ t.task.flags ↔ f ∈ s.dev.task.flags)) ∧
        t.fld Reg.TASK_GRID_STAT_UNAGREED = min (s.dev.fld Reg.TASK_GRID_STAT_UNAGREED + 1)
          (2 ^ Reg.TASK_GRID_STAT_UNAGREED.width - 1) ∧
        s.dev.KeepsRegs t [Reg.SF_GATE, Reg.TASK_GRID_STAT, Reg.EVR_LOSS] ∧ s.dev.KeepsMem t ∧ t.ce = s.dev.ce))

/-! ## Images -/

/-- R214, R216: a force command is staged: it stays BUSY with FORCE_PEND = 1 until the change takes effect at t_HOP.
FORCE_CLEAR of an entry that is not in force is done at once. A change that the lanes do not confirm within 4 ticks is
dropped, and the command that staged it ends with code 6. -/
def Obligations.ForceCommands : Prop :=
  ∀ s : State,
    let staged (i : Instr) (x : ForceChg) : Prop :=
      Begun i s portIMG (fun t =>
        t.img.staged = s.dev.img.staged ++ [x] ∧ t.img.stagedOwn = true ∧ t.bit Reg.IMG_STAT_FORCE_PEND = true ∧
        t.img.force = s.dev.img.force ∧ s.dev.KeepsRegs t [Reg.SF_GATE, Reg.IMG_CMD_STATUS, Reg.IMG_STAT] ∧
        s.dev.KeepsMem t ∧ t.ce = s.dev.ce)
    (∀ n : Fin 1024, s.dev.forceArgs = true → s.dev.permLanes permForce = true →
      forceClash s.dev.img.force n (s.dev.rd Reg.IMG_FORCE_ARG0) = false →
      staged (.forceSet (BitVec.ofNat 24 n)) (.set n (s.dev.rd Reg.IMG_FORCE_ARG0) (s.dev.rd Reg.IMG_FORCE_ARG1))) ∧
    (∀ n : Fin 1024, sget noForce s.dev.img.force n ≠ none → staged (.forceClear (BitVec.ofNat 24 n)) (.clear n)) ∧
    (∀ n : Fin 1024, sget noForce s.dev.img.force n = none → Done (.forceClear (BitVec.ofNat 24 n)) s portIMG (fun t =>
      s.dev.Writes t [Reg.IMG_CMD_STATUS])) ∧
    staged (.forceClearAll 0) (.clearAll 0) ∧
    (s.dev.isLane = true → s.dev.img.staged ≠ [] → s.dev.img.confirmed = false → 4 ≤ s.dev.img.stagedAge →
      Completes .forceConfirmTimeout s (fun t =>
        t.img.staged = [] ∧ t.bit Reg.IMG_STAT_FORCE_PEND = false ∧ t.img.force = s.dev.img.force ∧
        (s.dev.img.stagedOwn = true → s.dev.fld portIMG.busy = 1 → t.Ended s.dev portIMG 6) ∧ s.dev.KeepsMem t ∧
        t.ce = s.dev.ce))

/-- R221–R226: online change. OLC_LOAD stays BUSY in LOADING; a package that meets every check is LOADED into banks that
are not current, one that does not is refused with its REASON and loads nothing; OLC_ARM takes a target far enough ahead;
at the target the banks swap and drain; drained, the change is over. -/
def Obligations.OnlineChange : Prop :=
  ∀ s : State,
    let src := (s.dev.rd Reg.IMG_OLC_SRC).toNat % 2 ^ 23
    let len := leNat (s.dev.seenBytes (src + 20) 4)
    ((s.dev.rd Reg.IMG_OLC_SRC).toNat % 4 = 0 → s.dev.permLanes permOlc = true →
      s.dev.olcState = olcIdle ∨ s.dev.olcState = olcLoaded → Begun (.olcLoad 0) s portIMG (fun t =>
        t.olcState = olcLoading ∧ s.dev.Writes t [Reg.IMG_CMD_STATUS, Reg.IMG_OLC_STAT])) ∧
    (s.dev.olcState = olcLoading → src + len ≤ 0x800000 → s.dev.Clean (sharedKeys src len) →
      s.dev.fld portIMG.busy = 1 → ∀ l, l = s.dev.seenBytes src len →
      (s.dev.olcReason l len = 0 → Completes .olcLoadDone s (fun t =>
        t.olcState = olcLoaded ∧ t.fld Reg.IMG_OLC_STAT_REASON = 0 ∧ t.Ended s.dev portIMG 0 ∧
        (∃ o, t.img.olc = some o ∧ o.number = numAt l 8 2 ∧ o.mask = numAt l 12 4) ∧
        (∀ e, e < 24 → ∀ pc : BitVec 16, (numAt l 12 4).testBit e = false ∨ pc.toNat / 32768 = s.dev.bank e →
          t.fetched e pc = s.dev.fetched e pc) ∧
        s.dev.Logs t 0x108 [wd (numAt l 8 2), wd (numAt l 12 4)] ∧ t.mem = s.dev.mem ∧ t.larea = s.dev.larea)) ∧
      (∀ k, s.dev.olcReason l len = k → k ≠ 0 → Completes .olcLoadDone s (fun t =>
        t.olcState = (if s.dev.img.olc.isSome then olcLoaded else olcIdle) ∧ t.fld Reg.IMG_OLC_STAT_REASON = k ∧
        t.Ended s.dev portIMG (if k = 1 ∨ k = 2 ∨ k = 6 then 2 else 3) ∧ t.img.olc = s.dev.img.olc ∧
        s.dev.Writes t [Reg.IMG_CMD_STATUS, Reg.IMG_OLC_STAT]))) ∧
    (s.dev.tickCount + (if s.dev.isLane then 4 else 2) ≤ s.dev.olcTarget → s.dev.permLanes permOlc = true →
      s.dev.olcState = olcLoaded → ∀ o, s.dev.img.olc = some o → Done (.olcArm 0) s portIMG (fun t =>
        t.olcState = olcArmed ∧ t.img.olc = some { o with target := s.dev.olcTarget, agreed := false } ∧
        s.dev.KeepsRegs t [Reg.SF_GATE, Reg.IMG_CMD_STATUS, Reg.IMG_OLC_STAT] ∧ s.dev.KeepsMem t ∧ t.ce = s.dev.ce)) ∧
    (s.dev.olcState = olcArmed → Done (.olcDisarm 0) s portIMG (fun t =>
      t.olcState = olcLoaded ∧ s.dev.Writes t [Reg.IMG_CMD_STATUS, Reg.IMG_OLC_STAT])) ∧
    (∀ o, s.dev.img.olc = some o → s.dev.olcState = olcArmed → s.dev.tickCount = o.target →
      (s.dev.isLane = true → o.agreed = true) → o.entries = [] → o.mask < 2 ^ 24 → Completes .olcSwap s (fun t =>
        (∀ e, e < 24 → t.bank e = if o.mask.testBit e then 1 - s.dev.bank e else s.dev.bank e) ∧
        t.olcState = olcDraining ∧ t.img.relocs = o.reloc ∧
        t.fld Reg.IMG_OLC_STAT_CHANGE_NO = o.number % 65536 ∧
        s.dev.Logs t 0x109 [wd o.number, wd o.mask, wd (s.dev.tickCount % 2 ^ 32)] ∧ s.dev.KeepsMem t ∧ t.ce = s.dev.ce)) ∧
    (∀ o, s.dev.img.olc = some o → s.dev.olcState = olcDraining → (∀ e, e < 24 → s.dev.draining e = false) →
      Completes .olcDrained s (fun t =>
        t.olcState = olcIdle ∧ t.img.olc = none ∧ s.dev.Logs t 0x10E [wd o.mask] ∧ s.dev.KeepsMem t ∧ t.ce = s.dev.ce))

/-! ## The tick -/

/-- R42–R46, R48, R59, R60, R64: an edge of SYNCIN near a boundary sets the phase error of the next period, one farther
than a quarter of a period away is rejected and counted, an edge that SYNC_EDGE does not select does nothing; a source
without events is lost; the first boundary waits for LOSS_CNT periods at most; SET_SOURCE waits for the boundary; three
t_VOTE that are not ready exclude a lane; a trip of the watchdog gates every channel off. -/
def Obligations.TickSources : Prop :=
  ∀ s : State,
    let e := s.dev.phaseOf (s.dev.ts64 / 4 * 4)
    (∀ f, s.dev.bit Reg.TICK_CFG_SYNC_EDGE = f → s.dev.ticking = true → s.dev.srcAct = 1 → s.dev.srcLost = false →
      s.dev.tick.started = true →
      (4 * e.natAbs ≤ 1000 * s.dev.periodUs → e ≠ ((s.dev.ts64 / 4 * 4 : Nat) : Int) - s.dev.tick.boundaryTs →
        Completes (.syncinEdge f) s (fun t =>
          t.tick = { s.dev.tick with err := e, evSeen := true, noEv := 0, late := false } ∧
          t.fld Reg.TICK_PHASE_ERR_ERR_NS = lowBits e 32 ∧ s.dev.KeepsRegs t [Reg.SF_GATE, Reg.TICK_PHASE_ERR] ∧
          s.dev.KeepsMem t ∧ t.ce = s.dev.ce ∧ t.evr = s.dev.evr)) ∧
      (1000 * s.dev.periodUs < 4 * e.natAbs → Completes (.syncinEdge f) s (fun t =>
          t.bit Reg.TICK_FLAGS_EDGE_REJECT = true ∧
          t.fld Reg.TICK_ERR_CNT_REJ = min (s.dev.fld Reg.TICK_ERR_CNT_REJ + 1) (2 ^ Reg.TICK_ERR_CNT_REJ.width - 1) ∧
          s.dev.Logs t 0x044 [] ∧ s.dev.Writes t [Reg.TICK_FLAGS, Reg.TICK_ERR_CNT, Reg.EVR_LOSS]))) ∧
    (∀ f, s.dev.bit Reg.TICK_CFG_SYNC_EDGE = f → s.dev.ticking = true → s.dev.srcAct = 1 → s.dev.tick.started = false →
      Completes (.syncinEdge f) s (fun t => t.tick = { s.dev.tick with firstDue := true } ∧
        s.dev.KeepsRegs t [Reg.SF_GATE] ∧ s.dev.KeepsMem t ∧ t.ce = s.dev.ce ∧ t.evr = s.dev.evr)) ∧
    (∀ f, s.dev.bit Reg.TICK_CFG_SYNC_EDGE ≠ f → Completes (.syncinEdge f) s (fun t =>
      s.dev.Writes t [] ∧ t.evr = s.dev.evr)) ∧
    (s.dev.ticking = true → s.dev.tick.started = true → s.dev.srcLost = false →
      ((s.dev.srcAct = 1 ∨ s.dev.srcAct = 3) ∧ max 1 (s.dev.fld Reg.TICK_CFG_LOSS_CNT) ≤ s.dev.tick.noEv) ∨
        (s.dev.srcAct = 2 ∧ s.dev.fld Reg.TB_STAT_STATE ≠ 2) →
      Completes .sourceLost s (fun t => t.fld Reg.TICK_STATUS_LOCK = 3 ∧ t.bit Reg.TICK_FLAGS_SRC_LOST = true ∧
        (s.dev.srcAct ≠ 2 → t.tick.err = 0) ∧ s.dev.KeepsMem t ∧ t.ce = s.dev.ce ∧
        (s.dev.bit (Reg.TASK_ROUTE_EN 0xEE) = false → s.dev.Logs t 0x045 []))) ∧
    (s.dev.ticking = true → s.dev.tick.started = false → s.dev.tick.firstDue = false → s.dev.srcLost = false →
      s.dev.srcAct = 1 ∨ s.dev.srcAct = 3 → Completes .firstBoundaryTimeout s (fun t =>
        t.tick.firstDue = true ∧ t.fld Reg.TICK_STATUS_LOCK = 3 ∧ t.bit Reg.TICK_FLAGS_SRC_LOST = true ∧ s.dev.KeepsMem t ∧
        t.ce = s.dev.ce)) ∧
    (∀ k : Fin 4, s.dev.isLane = false → s.dev.ticking = true → Begun (.setSource (BitVec.ofNat 24 k)) s portTICK (fun t =>
      t.tick = { s.dev.tick with pendSrc := some k.val } ∧ s.dev.KeepsRegs t [Reg.SF_GATE, Reg.TICK_CMD_STATUS] ∧
      s.dev.KeepsMem t ∧ t.ce = s.dev.ce ∧ t.evr = s.dev.evr)) ∧
    (3 ≤ s.dev.fld Reg.TICK_STATUS_NR_CONSEC → s.dev.tick.nr3Told = false → Completes .notReady3Consec s (fun t =>
      t.tick = { s.dev.tick with nr3Told := true } ∧ s.dev.KeepsMem t ∧ t.ce = s.dev.ce ∧
      (s.dev.isLane = false → s.dev.Logs t 0x049 [] ∧ s.dev.KeepsRegs t [Reg.SF_GATE, Reg.EVR_LOSS]) ∧
      (s.dev.votesSelf = true → t.laneState s.dev.lane = 3 ∧ t.fld Reg.TRI_LANE_STAT_EXCL_CAUSE = 4))) ∧
    (s.dev.tick.wdArmed = true → Completes .tickWatchdogTrip s (fun t =>
      (t.rd Reg.SF_SLUICE_STAT).toNat.testBit 2 = true ∧ t.bit Reg.TICK_FLAGS_WD_TRIP = true ∧
      (∀ c, c < 24 → (t.rd Reg.SF_GATE).toNat.testBit c = true ∧ t.driverOff c) ∧ s.dev.KeepsMem t ∧ t.ce = s.dev.ce ∧
      (s.dev.votesSelf = true → t.laneState s.dev.lane = 3 ∧ t.fld Reg.TRI_LANE_STAT_EXCL_CAUSE = 1)))

/-- R45, R52–R58, R65, R66, R155, R211: the first boundary starts tick 0 and the engines that are READY. Every other one
counts, commits the frozen images and the state of a tick that was ready, and adds the period to every timer cell that
runs. A freeze that waits takes effect at it. -/
def Obligations.TickBoundaries : Prop :=
  ∀ (s : State) (m : FieldMeas) (us : Nat), s.dev.ticking = true →
    (s.dev.tick.started = false → s.dev.isLane = false → s.dev.srcAct = 0 ∨ s.dev.srcAct = 2 ∨ s.dev.tick.firstDue = true →
      Completes (.tickBoundary m us) s (fun t =>
        t.tick.started = true ∧ t.tick.wdArmed = true ∧ t.tick.phase = 1 ∧ t.tickCount = 0 ∧
        t.bit Reg.TICK_STATUS_RUNNING = true ∧ t.rd Reg.LDR_START_US = wd us ∧
        ∀ e : Eng, s.dev.engState e = 2 → t.engState e = 3)) ∧
    (s.dev.tick.started = true → s.dev.tick.stopNext = false → Completes (.tickBoundary m us) s (fun t =>
      t.tickCount = (s.dev.tickCount + 1) % 2 ^ 64 ∧ t.tick.phase = 1 ∧ t.tick.ready = false ∧
      t.tick.boundaryTs = s.dev.ts64 ∧ t.tick.pendSrc = none ∧ s.dev.KeepsMem t ∧
      (∀ n, t.tcell n = if (s.dev.tcell n).run
        then { s.dev.tcell n with acc := min (2 ^ 48 - 1) ((s.dev.tcell n).acc + s.dev.periodUs) } else s.dev.tcell n) ∧
      (∀ n, t.ccell n = s.dev.ccell n) ∧
      (s.dev.isLane = false → s.dev.bit Reg.FO_CFG_EN = false → s.dev.bit Reg.FO_CFG_ST_EN = false →
        3 ≤ s.dev.tick.phase → s.dev.tick.ready = true → s.dev.tick.noCommit = false →
        (t.rd Reg.SF_SLUICE_STAT).toNat.testBit 0 = false ∧
        (s.dev.bit Reg.TICK_EARLY_FIELD = false → t.img.committed = s.dev.img.frozen) ∧
        (s.dev.bit Reg.TICK_EARLY_SAHTU = false → t.img.committedSb = s.dev.img.frozen) ∧
        (s.dev.bit Reg.TICK_EARLY_ETH = false → t.img.committedEth = s.dev.img.frozen)) ∧
      (3 ≤ s.dev.tick.phase → s.dev.tick.ready = true → s.dev.tick.noState = false →
        t.rd Reg.IMG_P_SEQ = s.dev.rd Reg.IMG_P_SEQ + 1 ∧ t.img.retValid = true ∧
        ∀ a, 0x7F0000 ≤ a → a < 0x800000 → sget byte0 t.img.retained a = s.dev.byte a))) ∧
    (s.dev.tick.started = true → s.dev.tick.stopNext = true → Completes (.tickBoundary m us) s (fun t =>
      t.tickCount = (s.dev.tickCount + 1) % 2 ^ 64 ∧ t.bit Reg.TICK_STATUS_FROZEN = true ∧
      t.bit Reg.TICK_STATUS_RUNNING = false ∧ t.tick.wdArmed = false))

/-- R50, R54–R56, R58–R60, R158, R180, R207: t_HOP writes I bytes 0 to 3 and releases the periodic tasks that the tick
count selects; t_VOTE judges readiness and freezes the outbound parts; t_VEND commits the parts of TICK_EARLY; a timer
cell whose accumulator reaches its preset at this boundary arms the sources of its TEXP entries. -/
def Obligations.TickPhases : Prop :=
  ∀ s : State, s.dev.ticking = true →
    (s.dev.tick.phase = 1 → s.dev.isLane = false → s.dev.bit Reg.FO_CFG_EN = false → s.dev.bit Reg.FO_CFG_ST_EN = false →
      s.dev.fld Reg.LDR_STAT_RTYPE ≠ 2 → s.dev.bit Reg.NVM_QUEUE_EN = false → s.dev.bit Reg.EVR_RING_EN = false →
      Completes .hopClose s (fun t => t.tick.phase = 2 ∧ t.tickCount = s.dev.tickCount ∧
        t.num (t.areaBase areaI) 4 = b2n (s.dev.tickCount == 0) + 2 * b2n (t.fld Reg.TICK_STATUS_LOCK == 1)
          + 4 * b2n (!t.img.force.isEmpty) ∧
        (1 ≤ s.dev.tickCount → t.task.tick1 = true ∧ ∀ (e : Eng) (c : CtxNo), s.dev.bit (Reg.TASK_CFG_EN e c) = true →
          s.dev.fld (Reg.TASK_CFG_KIND e c) = 0 → s.dev.engState e = 3 → s.dev.ctxState e c = 0 →
          s.dev.tickCount % max 1 (s.dev.fld (Reg.TASK_PER_PERIOD_N e c)) = s.dev.fld (Reg.TASK_PER_PHASE e c) →
          t.ctxState e c = 1))) ∧
    (s.dev.tick.phase = 1 ∨ s.dev.tick.phase = 2 →
      (s.dev.readyNow = true → Completes .voteFreeze s (fun t => t.tick.phase = 3 ∧ t.tick.ready = true ∧
        t.fld Reg.TICK_STATUS_NR_CONSEC = 0 ∧ t.task.rel = s.dev.task.rel ∧ s.dev.KeepsMem t ∧ s.dev.KeepsCells t)) ∧
      (s.dev.readyNow = false → s.dev.fld Reg.LDR_STAT_RTYPE ≠ 2 → Completes .voteFreeze s (fun t =>
        t.tick.phase = 3 ∧ t.tick.ready = false ∧ t.tick.noState = true ∧ t.bit Reg.TICK_FLAGS_NOT_READY = true ∧
        t.fld Reg.TICK_ERR_CNT_NR = min (s.dev.fld Reg.TICK_ERR_CNT_NR + 1) (2 ^ Reg.TICK_ERR_CNT_NR.width - 1) ∧
        t.fld Reg.TICK_STATUS_NR_CONSEC = min (s.dev.fld Reg.TICK_STATUS_NR_CONSEC + 1) 15 ∧ t.sc.formed = [] ∧
        s.dev.KeepsMem t ∧ s.dev.KeepsCells t ∧
        (s.dev.img.force = [] → Memory.wf s.dev.mem = true → (∀ i, i < 64 → s.dev.bit (Reg.IMG_COPYA_EN i) = false) →
          s.dev.Logs t 0x048 [] ∧ ∀ p ∈ s.dev.outParts, ∀ a, p.1 ≤ a → a < p.1 + p.2 →
            sget byte0 t.img.frozen a = s.dev.byte a)))) ∧
    (s.dev.tick.phase = 3 → s.dev.isLane = false → Completes .voteWindowEnd s (fun t => t.tick.phase = 4 ∧
      s.dev.KeepsMem t ∧ s.dev.KeepsCells t ∧
      (s.dev.tick.ready = true → s.dev.tick.noCommit = false → s.dev.bit Reg.FO_CFG_EN = false →
        s.dev.bit Reg.FO_CFG_ST_EN = false → s.dev.bit Reg.TICK_EARLY_FIELD = true →
        t.img.committed = s.dev.img.frozen) ∧
      (s.dev.tick.ready = false → t.img.committed = s.dev.img.committed ∧ t.img.committedSb = s.dev.img.committedSb ∧
        t.img.committedEth = s.dev.img.committedEth))) ∧
    (∀ n : Fin 4096, s.dev.tick.phase = 1 → (s.dev.tcell n).run = true →
      (s.dev.tcell n).pt.toNat * baseUs (s.dev.tcell n).base ≤ (s.dev.tcell n).acc →
      (s.dev.tcell n).acc < (s.dev.tcell n).pt.toNat * baseUs (s.dev.tcell n).base + s.dev.periodUs →
      Completes (.timerCellExpiry n) s (fun t =>
        (∀ k, k < 32 → s.dev.bit (Reg.TASK_TEXP_EN k) = true → s.dev.fld (Reg.TASK_TEXP_CELL k) = n →
          0xA0 + k ∈ t.task.timerFired) ∧
        (∀ x, x ∈ s.dev.task.timerFired → x ∈ t.task.timerFired) ∧ s.dev.KeepsRegs t [Reg.SF_GATE] ∧ s.dev.KeepsMem t ∧
        s.dev.KeepsCells t ∧ t.evr = s.dev.evr))

/-! ## Mailboxes, semaphores, doorbells, result blocks -/

/-- R512, R513, R515, R526: the host sends, acknowledges and resets through endpoint 24; a notice that is not
acknowledged in time ends ABORTED. -/
def Obligations.MailboxCommands : Prop :=
  ∀ s : State,
    let empty (t : Device) (r : Nat) : Prop :=
      t.rd (Reg.MB_EP_W0 r) = 0 ∧ t.rd (Reg.MB_EP_W1 r) = 0 ∧ t.rd (Reg.MB_EP_W2 r) = 0
    (∀ r : Fin 24,
      let accepted := s.dev.bit (Reg.MB_EP_W2_VALID r) = false ∧ s.dev.fld (Reg.MB_EP_W3_OUT_STATE 24) ≠ 1 ∧
        (s.dev.engState r = 2 ∨ s.dev.engState r = 3 ∨ s.dev.engState r = 4)
      (accepted → Done (.mbSend (BitVec.ofNat 24 r)) s portMB (fun t =>
        t.bit (Reg.MB_EP_W2_VALID r) = true ∧ t.fld (Reg.MB_EP_W2_SENDER r) = 24 ∧
        t.rd (Reg.MB_EP_W0 r) = s.dev.rd Reg.MB_H_PTR ∧ t.rd (Reg.MB_EP_W1 r) = s.dev.rd Reg.MB_H_LT ∧
        t.fld (Reg.MB_EP_W3_OUT_STATE 24) = 1 ∧ t.fld (Reg.MB_EP_W3_DEST 24) = r ∧
        t.fld Reg.MB_CNT_SENT = min (s.dev.fld Reg.MB_CNT_SENT + 1) 255 ∧ s.dev.KeepsMem t ∧ t.ce = s.dev.ce)) ∧
      (¬accepted → s.dev.fld portMB.busy = 0 → Completes (.mbSend (BitVec.ofNat 24 r)) s (fun t =>
        t.Ended s.dev portMB 3 ∧ t.fld Reg.MB_CNT_REFUSED = min (s.dev.fld Reg.MB_CNT_REFUSED + 1) 255 ∧
        s.dev.Writes t [Reg.MB_CMD_STATUS, Reg.MB_CNT, Reg.EVR_LOSS]))) ∧
    (∀ k f : Nat, k < 0xFFFF → s.dev.bit (Reg.MB_EP_W2_VALID 24) = true → s.dev.fld (Reg.MB_EP_W2_SENDER 24) = f →
      f < 24 → Done (.mbAck (BitVec.ofNat 24 k)) s portMB (fun t =>
        empty t 24 ∧ t.fld (Reg.MB_EP_W3_OUT_STATE f) = 2 ∧ t.fld (Reg.MB_EP_W3_CODE f) = k ∧
        s.dev.Writes t [Reg.MB_CMD_STATUS, Reg.MB_EP_W0 24, Reg.MB_EP_W1 24, Reg.MB_EP_W2 24, Reg.MB_EP_W3 f])) ∧
    Done (.epReset 0) s portMB (fun t =>
      t.rd (Reg.MB_EP_W3 24) = 0 ∧ t.rd (Reg.MB_EP_W4 24) = 0 ∧ s.dev.KeepsMem t ∧ t.ce = s.dev.ce ∧
      (∀ f, s.dev.bit (Reg.MB_EP_W2_VALID 24) = true → s.dev.fld (Reg.MB_EP_W2_SENDER 24) = f → f < 24 →
        s.dev.fld (Reg.MB_EP_W3_OUT_STATE f) = 1 → s.dev.fld (Reg.MB_EP_W3_DEST f) = 24 →
        empty t 24 ∧ t.fld (Reg.MB_EP_W3_OUT_STATE f) = 3 ∧ t.fld (Reg.MB_EP_W3_CODE f) = 0xFFFF) ∧
      (∀ r, s.dev.bit (Reg.MB_EP_W2_VALID 24) = false → s.dev.fld (Reg.MB_EP_W3_OUT_STATE 24) = 1 →
        s.dev.fld (Reg.MB_EP_W3_DEST 24) = r → r < 24 → empty t r)) ∧
    (∀ (f : Fin 25) (r : Nat), s.dev.fld (Reg.MB_EP_W7_EPCFG_ACK_TMO_MS f) ≠ 0 →
      s.dev.fld (Reg.MB_EP_W3_OUT_STATE f) = 1 → s.dev.fld (Reg.MB_EP_W3_DEST f) = r → r ≤ 24 →
      Completes (.ackTimeout f) s (fun t =>
        empty t r ∧ t.fld (Reg.MB_EP_W3_OUT_STATE f) = 3 ∧ t.fld (Reg.MB_EP_W3_CODE f) = 0xFFFF ∧
        t.fld Reg.MB_CNT_ABORTED = min (s.dev.fld Reg.MB_CNT_ABORTED + 1) 255 ∧
        s.dev.Logs t 0x3D0 [wd f, wd r, wd (s.dev.mbTag r)] ∧ s.dev.KeepsMem t ∧ t.ce = s.dev.ce ∧
        (f.val ≠ 24 → s.dev.Writes t [Reg.MB_EP_W0 r, Reg.MB_EP_W1 r, Reg.MB_EP_W2 r, Reg.MB_EP_W3 f, Reg.MB_CNT,
          Reg.EVR_LOSS])))

/-- R506, R517–R523: a read of HSEM by the host or the debug port tries to acquire and returns the owner, a release by the
owner frees, any other is recorded; doorbell bits are set and cleared; a request makes result blocks not ready. -/
def Obligations.HostSemaphores : Prop :=
  ∀ s : State,
    (∀ (n : Fin 64) (dbg : Bool) (rivals : List Nat),
      let mine := if dbg then 0x1C1 else 0x1C0
      let me := if dbg then 25 else 24
      let q := sget zeroAt s.dev.mb.q n
      let reads (regs : List Nat) (owner : Nat → Prop) : Prop :=
        Completes (.hsemReadAcquire n dbg rivals) s (fun t =>
          owner (t.semOwner n) ∧ s.dev.KeepsRegs t (Reg.SF_GATE :: regs) ∧ s.dev.KeepsMem t ∧ t.ce = s.dev.ce ∧
          t.evr = s.dev.evr ∧ t.sent = .completion (leBytes 4
            (wd ((if t.semOwner n = mine then 2 ^ 31 else 0) + t.semOwner n * 65536)).toNat) false :: s.dev.sent)
      (s.dev.semOwner n ≠ 0 → reads [] (· = s.dev.semOwner n)) ∧
      (s.dev.semOwner n = 0 → rivals = [] → reads [Reg.HSEM n] (· = mine)) ∧
      (s.dev.semOwner n = 0 → rivals ≠ [] → q < 32 → (∀ r ∈ rivals, r ≤ 25 ∧ r ≠ me) →
        reads [Reg.HSEM n, Reg.MB_CNT] (fun o => o = mine ↔ ∀ r ∈ rivals, (me + 32 - q) % 32 < (r + 32 - q) % 32)) ∧
      (s.dev.semOwner n = mine → Completes (.hsemReleaseWrite n dbg true) s (fun t =>
        t.semOwner n = 0 ∧ s.dev.Writes t [Reg.HSEM n] ∧ t.evr = s.dev.evr)) ∧
      (s.dev.semOwner n ≠ mine → Completes (.hsemReleaseWrite n dbg true) s (fun t =>
        s.dev.Writes t [Reg.EVR_LOSS] ∧ s.dev.Logs t 0x3D4 [wd n, wd mine, wd (s.dev.semOwner n)])) ∧
      Completes (.hsemReleaseWrite n dbg false) s (fun t => s.dev.Writes t [] ∧ t.evr = s.dev.evr)) ∧
    (∀ (n : Fin 32) (bits : Word),
      let fresh := bits &&& ~~~ s.dev.rd (Reg.MB_EP_W4 n) &&& ~~~ s.dev.rd (Reg.MB_EP_W6 n)
      (n.val ≤ 24 → Completes (.doorbellSetWrite n bits) s (fun t =>
        t.rd (Reg.MB_EP_W4 n) = s.dev.rd (Reg.MB_EP_W4 n) ||| bits ∧ s.dev.KeepsMem t ∧ t.ce = s.dev.ce ∧
        (∀ k, k < 25 → k ≠ n → t.rd (Reg.MB_EP_W4 k) = s.dev.rd (Reg.MB_EP_W4 k)) ∧
        (fresh = 0 → s.dev.Writes t [Reg.MB_EP_W4 n]) ∧
        (n.val = 24 → fresh.toNat % 256 ≠ 0 → t.bitAt Reg.HP_IRQ_STAT_CAUSE 2 = true) ∧
        (n.val = 24 → ∀ k, 8 ≤ k → k < 32 → fresh.toNat.testBit k = true → t.bitAt Reg.HP_IRQ_STAT_CAUSE k = true))) ∧
      (24 < n.val → Completes (.doorbellSetWrite n bits) s (fun t => s.dev.Writes t [] ∧ t.evr = s.dev.evr))) ∧
    (∀ bits, Completes (.doorbellClearWrite bits) s (fun t =>
      t.rd (Reg.MB_EP_W4 24) = s.dev.rd (Reg.MB_EP_W4 24) &&& ~~~ bits ∧ s.dev.Writes t [Reg.MB_EP_W4 24] ∧
      t.evr = s.dev.evr)) ∧
    (∀ bits : BitVec 16, Completes (.resultRequestWrite bits) s (fun t => s.dev.KeepsMem t ∧ t.ce = s.dev.ce ∧
      ∀ r, r < 16 → if bits.toNat.testBit r = true
        then t.fld (Reg.MB_RES_W0_VALID r) = 0 ∧ (sget falseAt s.dev.mb.published r = true → t.fld (Reg.MB_RES_W0_STALE r) = 1)
        else t.rd (Reg.MB_RES_W0 r) = s.dev.rd (Reg.MB_RES_W0 r)))

/-! ## Kloul -/

/-- R232–R237, R239: bring-up of a port: channels lock, deskew, the port sends IDENT, the peer's identity is kept and
checked, CAL sets the link delay, and the port is UP; a step that does not end in time returns to step 1. -/
def Obligations.KloulBringUp : Prop :=
  ∀ (s : State) (p : Fin 3),
    let st := s.dev.klState p
    (∀ ch : Fin 4, st = 1 ∨ st = 2 → (s.dev.klChannels p).testBit ch = true → Completes (.klChannelLock p ch) s (fun t =>
      t.fld (Reg.KL_STAT_CH_LOCK p) = putBit (s.dev.fld (Reg.KL_STAT_CH_LOCK p)) ch true ∧
      t.klState p = (if putBit (s.dev.fld (Reg.KL_STAT_CH_LOCK p)) ch true = s.dev.klChannels p then 3 else 2) ∧
      s.dev.Writes t [Reg.KL_STAT p] ∧ t.evr = s.dev.evr)) ∧
    (st = 3 → Completes (.klDeskewComplete p) s (fun t => t.klState p = 4 ∧ s.dev.KeepsRegs t [Reg.SF_GATE, Reg.KL_STAT p] ∧
      s.dev.KeepsMem t ∧ t.ce = s.dev.ce ∧ t.evr = s.dev.evr ∧
      ((s.dev.klPort p).unacked.length < 32 → s.dev.bit Reg.SYS_ROLE_NO_SERVICE = false →
        ∀ m, m = (⟨10, (s.dev.klPort p).tx, false, pad8 (s.dev.identBytes p)⟩ : Parcel) →
          t.sent = .parcel p m :: s.dev.sent ∧ (t.klPort p).unacked = (s.dev.klPort p).unacked ++ [m] ∧
          (t.klPort p).tx = ((s.dev.klPort p).tx + 1) % 65536))) ∧
    (1 ≤ st → st ≤ 5 → Completes (.klStepTimeout p) s (fun t => t.klState p = 1 ∧ t.fld (Reg.KL_STAT_CH_LOCK p) = 0 ∧
      t.fld (Reg.KL_ERR_RETRAIN p) = min (s.dev.fld (Reg.KL_ERR_RETRAIN p) + 1) (2 ^ (Reg.KL_ERR_RETRAIN p).width - 1) ∧
      (t.klPort p).resent = 0 ∧ s.dev.KeepsRegs t [Reg.SF_GATE, Reg.KL_STAT p, Reg.KL_ERR p] ∧ s.dev.KeepsMem t ∧
      t.ce = s.dev.ce ∧ t.evr = s.dev.evr)) ∧
    (∀ x : Ident, st = 4 →
      (s.dev.miswire p x = 0 → Completes (.identReceived p x) s (fun t => t.klState p = 5 ∧
        t.rd (Reg.KL_PEER p) = x.devId ∧ (t.klPort p).rx = ((s.dev.klPort p).rx + 1) % 65536 ∧
        (s.dev.isLane = true → p.val < 2 → sget noIdent t.tri.idents (s.dev.peerLane p) = some x) ∧
        s.dev.KeepsRegs t [Reg.SF_GATE, Reg.KL_STAT p, Reg.KL_PEER p] ∧ s.dev.KeepsMem t ∧ t.ce = s.dev.ce)) ∧
      (s.dev.isLane = true → p.val < 2 → x.role = s.dev.role → Completes (.identReceived p x) s (fun t =>
        t.klState p = 7 ∧ s.dev.Logs t 0x147 [wd p, wd (x.role - 1)] ∧
        s.dev.Writes t [Reg.KL_STAT p, Reg.KL_PEER p, Reg.EVR_LOSS])) ∧
      (s.dev.isLane = true → p.val < 2 → x.role ≠ s.dev.role → x.role ≠ s.dev.peerLane p + 1 ∨ x.port ≠ 1 - p.val →
        Completes (.identReceived p x) s (fun t =>
          t.klState p = 7 ∧ s.dev.Logs t 0x146 [wd p, wd (x.role + 256 * x.port)] ∧
          s.dev.Writes t [Reg.KL_STAT p, Reg.KL_PEER p, Reg.EVR_LOSS]))) ∧
    (∀ (trip turn : Nat) (asym : Int), st = 5 → Completes (.klCalComplete p trip turn asym) s (fun t =>
      t.klState p = 6 ∧ t.bit (Reg.KL_DELAY_CAL p) = true ∧ t.fld (Reg.KL_DELAY_DELAY_PS p)
        = (((trip : Int) - turn) / 2 + asym).toNat % 2 ^ (Reg.KL_DELAY_DELAY_PS p).width ∧ (t.klPort p).asym = asym ∧
      s.dev.Logs t 0x144 [wd p, wd (s.dev.peerLane p), t.rd (Reg.KL_DELAY p)] ∧ p.val ∉ t.tri.lost ∧
      s.dev.KeepsRegs t [Reg.SF_GATE, Reg.KL_STAT p, Reg.KL_DELAY p, Reg.EVR_LOSS] ∧ s.dev.KeepsMem t ∧ t.ce = s.dev.ce))

/-- R234, R238, R269: an ACK frees what it covers; a NAK, or no ACK in time, sends again from the parcel that is missing, and
after four times the port retrains; a parcel with an error is not taken, and NAK names the SEQ that is missing; RETRAIN is
refused for a link between two lanes in VOTING. -/
def Obligations.KloulReplay : Prop :=
  ∀ (s : State) (p : Fin 3),
    let k := s.dev.klPort p
    let left (seq : Nat) := k.unacked.filter (fun m => !seqBefore m.seq seq)
    let again (i : Instr) (l : List Parcel) : Prop :=
      (k.resent < 4 → Completes i s (fun t => (t.klPort p).resent = k.resent + 1 ∧ (t.klPort p).unacked = k.unacked ∧
        t.fld (Reg.KL_ERR_REPLAY p) = min (s.dev.fld (Reg.KL_ERR_REPLAY p) + 1) (2 ^ (Reg.KL_ERR_REPLAY p).width - 1) ∧
        (s.dev.bit Reg.SYS_ROLE_NO_SERVICE = false →
          t.sent = (l.map (fun m => Sent.parcel p { m with replay := true })).reverse ++ s.dev.sent) ∧
        s.dev.KeepsRegs t [Reg.SF_GATE, Reg.KL_ERR p] ∧ s.dev.KeepsMem t ∧ t.ce = s.dev.ce ∧ t.evr = s.dev.evr)) ∧
      (4 ≤ k.resent → s.dev.klState p ≠ 0 → s.dev.klState p ≠ 7 → Completes i s (fun t =>
        t.klState p = 1 ∧ t.fld (Reg.KL_STAT_CH_LOCK p) = 0 ∧ (t.klPort p).resent = 0 ∧ s.dev.KeepsMem t ∧ t.ce = s.dev.ce))
    (∀ seq, k.waiting = [] → Completes (.ackReceived p seq) s (fun t => (t.klPort p).unacked = left seq ∧
      (left seq ≠ k.unacked → (t.klPort p).resent = 0) ∧ s.dev.KeepsRegs t [Reg.SF_GATE] ∧ s.dev.KeepsMem t ∧
      t.ce = s.dev.ce ∧ t.evr = s.dev.evr ∧ t.sent = s.dev.sent)) ∧
    (∀ seq, left seq ≠ [] → again (.nakReceived p seq) (left seq)) ∧
    (∀ m l, k.unacked = m :: l → left m.seq ≠ [] → again (.parcelAckTimeout p) (left m.seq)) ∧
    (s.dev.klState p ≠ 0 → s.dev.klState p ≠ 7 → Completes (.klLinkErrorRetrain p) s (fun t =>
      t.klState p = 1 ∧ t.fld (Reg.KL_STAT_CH_LOCK p) = 0 ∧ s.dev.KeepsMem t ∧ t.ce = s.dev.ce ∧
      (s.dev.isLane = false → s.dev.klState p = 6 →
        s.dev.Logs t 0x145 [wd p, s.dev.rd (Reg.KL_STAT p), s.dev.rd (Reg.KL_ERR p)]))) ∧
    (4 ≤ s.dev.klState p → s.dev.klState p ≠ 7 → ∀ kind : Fin 3, Completes (.klParcelError p kind) s (fun t =>
      t.fld (Reg.KL_ERR_CRC p) = (if kind.val = 1 then s.dev.fld (Reg.KL_ERR_CRC p)
        else min (s.dev.fld (Reg.KL_ERR_CRC p) + 1) (2 ^ (Reg.KL_ERR_CRC p).width - 1)) ∧
      t.klPort p = k ∧ s.dev.KeepsRegs t [Reg.SF_GATE, Reg.KL_ERR p] ∧ s.dev.KeepsMem t ∧ t.ce = s.dev.ce ∧
      t.evr = s.dev.evr ∧ (s.dev.bit Reg.SYS_ROLE_NO_SERVICE = false → t.sent =
        if kind.val = 2 then s.dev.sent else .parcel p ⟨4, 0, false, pad8 (leBytes 2 k.rx)⟩ :: s.dev.sent))) ∧
    (s.dev.klVoting p = false → s.dev.klState p ≠ 0 → s.dev.klState p ≠ 7 → Done (.retrain (BitVec.ofNat 24 p)) s portKL
      (fun t => t.klState p = 1 ∧ t.fld (Reg.KL_STAT_CH_LOCK p) = 0 ∧ s.dev.KeepsMem t ∧ t.ce = s.dev.ce)) ∧
    (s.dev.klVoting p = true → s.dev.fld portKL.busy = 0 → Completes (.retrain (BitVec.ofNat 24 p)) s (fun t =>
      t.Ended s.dev portKL 3 ∧ s.dev.Writes t [Reg.KL_CMD_STATUS, Reg.EVR_LOSS]))

/-! ## The triad -/

/-- R240, R246–R252, R280: what a lane takes from the parcels of the other lanes, the RECEIPT that it sends, the inputs that
the hopper agrees on, and the start set. -/
def Obligations.TriadHopper : Prop :=
  ∀ s : State, s.dev.isLane = true →
    (∀ (p : Fin 3) (boundary tx : Nat) (e : Int), 5 ≤ s.dev.klState p → s.dev.klState p ≠ 7 → p.val ≠ 2 →
      ∀ own, own = s.dev.phaseOf s.dev.ts64 →
      ∀ o, o = own - (s.dev.fld (Reg.KL_DELAY_DELAY_PS p) / 1000 : Nat) - ((tx : Int) - boundary) →
      (own.natAbs ≤ 5000 → Completes (.timeParcelReceived p boundary tx e none) s (fun t =>
        sget noInt t.tri.offset (s.dev.peerLane p) = some o ∧ sget int0 t.tri.phaseErr (s.dev.peerLane p) = e ∧
        t.fld (Reg.TRI_OFFSET_OFFSET_NS (s.dev.peerLane p)) = lowBits o (Reg.TRI_OFFSET_OFFSET_NS 0).width ∧
        s.dev.KeepsRegs t [Reg.SF_GATE, Reg.TRI_OFFSET (s.dev.peerLane p)] ∧ s.dev.KeepsMem t ∧ t.ce = s.dev.ce)) ∧
      (5000 < own.natAbs → Completes (.timeParcelReceived p boundary tx e none) s (fun t => t.tri = s.dev.tri ∧
        s.dev.KeepsRegs t [Reg.SF_GATE] ∧ s.dev.KeepsMem t ∧ t.ce = s.dev.ce))) ∧
    (∀ (l : Fin 3) (data : List Byte), l.val ≠ s.dev.lane → Completes (.hopParcelReceived l data) s (fun t =>
      sget noData t.tri.contrib l = (if s.dev.votes l = true then some data else sget noData s.dev.tri.contrib l) ∧
      s.dev.KeepsRegs t [Reg.SF_GATE] ∧ s.dev.KeepsMem t ∧ t.ce = s.dev.ce)) ∧
    Completes .receiptSend s (fun t =>
      sget noRcpt t.tri.receipt s.dev.lane
        = some (s.dev.tri.contrib.filterMap (fun p => p.2.map (fun l => (p.1, crc32c l)))) ∧
      s.dev.KeepsRegs t [Reg.SF_GATE] ∧ s.dev.KeepsMem t ∧ t.ce = s.dev.ce) ∧
    (∀ (l : Fin 3) (list copies : List (Nat × Word)), l.val ≠ s.dev.lane → Completes (.receiptReceived l list copies) s
      (fun t => sget noRcpt t.tri.receipt l = some list ∧
        t.fo.peerCrc = s.dev.fo.peerCrc ++ copies.map (fun c => (l.val, c)) ∧
        s.dev.KeepsRegs t [Reg.SF_GATE] ∧ s.dev.KeepsMem t ∧ t.ce = s.dev.ce)) ∧
    Completes .hopperAgree s (fun t =>
      t.fld Reg.TRI_HOP_STAT_DONE_US
        = (s.dev.fld Reg.TICK_PHASE_HOP_US - 1) % 2 ^ Reg.TRI_HOP_STAT_DONE_US.width ∧
      t.tri.agreedTs = s.dev.agreeTs s.dev.usedLanes ∧ s.dev.KeepsMem t ∧ t.ce = s.dev.ce ∧
      ((∀ i, i < 64 → s.dev.bit (Reg.TRI_HMAPA_EN i) = false) → ∀ i, i < 32 → s.dev.diClass i = 0 →
        let bit := (leNat (mapGet t.tri.agreed (s.dev.areaBase areaI + 4) 4)).testBit i
        let x (j : Nat) := s.dev.contribDi j i
        (∀ a, s.dev.usedLanes = [a] → bit = x a) ∧
        (∀ a b, s.dev.usedLanes = [a, b] →
          bit = if (s.dev.rd Reg.TRI_DI_RULE2).toNat.testBit i then x a || x b else x a && x b) ∧
        (∀ a b c, s.dev.usedLanes = [a, b, c] → bit = (x a && x b || x a && x c || x b && x c)))) ∧
    (∀ (l : Fin 3) (k : Nat), 10 ≤ sget zeroAt s.dev.tri.discTicks (discKey l k) →
      sget falseAt s.dev.tri.discSent (discKey l k) = false → Completes (.diDiscrepancy l k) s (fun t =>
        t.fld Reg.TRI_CNT_DISC = min (s.dev.fld Reg.TRI_CNT_DISC + 1) (2 ^ Reg.TRI_CNT_DISC.width - 1) ∧
        sget falseAt t.tri.discSent (discKey l k) = true ∧ s.dev.KeepsRegs t [Reg.SF_GATE, Reg.TRI_CNT, Reg.EVR_LOSS] ∧
        s.dev.KeepsMem t ∧ t.ce = s.dev.ce ∧ (k < 32 → s.dev.Logs t 0x14D [wd k, wd l]))) ∧
    (s.dev.fld Reg.TRI_LANE_STAT_STATE = 0 → s.dev.tri.startSet = [] → 2 ≤ s.dev.matching.length →
      Completes .rendezvousFix s (fun t => t.tri.startSet = s.dev.matching ∧
        t.tri.donor = s.dev.pickDonor s.dev.matching ∧ s.dev.KeepsMem t ∧ t.ce = s.dev.ce ∧
        (s.dev.matching.head? = some s.dev.lane → s.dev.tri.startAt = none → t.tri.startAt = some s.dev.startTime))) ∧
    (∀ (l : Fin 3) (time : Nat), l.val ≠ s.dev.lane → s.dev.tri.startSet.head? = some l.val →
      Completes (.startReceived l time) s (fun t => t.tri = { s.dev.tri with startAt := some time } ∧
        s.dev.KeepsRegs t [Reg.SF_GATE] ∧ s.dev.KeepsMem t ∧ t.ce = s.dev.ce))

/-- R242, R250, R254–R262: the vote exchange, the fetch of a segment by a lane in the minority, and the exclusions: the lane
concerned is EXCLUDED, and the own lane shows the cause of R257. -/
def Obligations.TriadVoting : Prop :=
  ∀ s : State, s.dev.isLane = true →
    let out (i : Instr) (l cause : Nat) : Prop :=
      Completes i s (fun t => t.laneState l = 3 ∧ (l = s.dev.lane → t.fld Reg.TRI_LANE_STAT_EXCL_CAUSE = cause) ∧
        s.dev.KeepsMem t ∧ t.ce = s.dev.ce)
    let allOut (i : Instr) (cause : Nat) : Prop :=
      Completes i s (fun t => (∀ l, l < 3 → s.dev.votes l = true → t.laneState l = 3) ∧
        t.fld Reg.TRI_LANE_STAT_EXCL_CAUSE = cause ∧ s.dev.KeepsMem t ∧ t.ce = s.dev.ce)
    (∀ (l : Fin 3) (m : VoteMsg), l.val ≠ s.dev.lane →
      (s.dev.tri.exitSeen.contains l.val = false → Completes (.voteParcelReceived l m) s (fun t =>
        sget noVote t.tri.votes l = some m ∧ sget zeroAt t.tri.lastPerm l = m.perm ∧
        (m.state = 1 ∨ m.state = 2 → t.tri.runBundle = some m.bundle ∧ t.tri.runTick = m.tick) ∧
        (m.state = 3 → t.laneState l = 3) ∧
        (m.forces ≠ [] → s.dev.img.staged = [] → t.img.staged = m.forces ∧ t.bit Reg.IMG_STAT_FORCE_PEND = true) ∧
        s.dev.KeepsMem t ∧ t.ce = s.dev.ce)) ∧
      (s.dev.tri.exitSeen.contains l.val = true → m.state = 1 ∨ m.state = 2 → s.dev.votes l = false →
        m.tick ≤ s.dev.tickCount → Completes (.voteParcelReceived l m) s (fun t => t.tri = s.dev.tri ∧
          s.dev.KeepsRegs t [Reg.SF_GATE] ∧ s.dev.KeepsMem t ∧ t.ce = s.dev.ce))) ∧
    (∀ (l : Fin 3) (id a n : Nat), l.val ≠ s.dev.lane → s.dev.elemRange id = some (a, n) →
      (∀ q, q = s.dev.portTo l → s.dev.klState q = 6 → (s.dev.klPort q).unacked.length < 32 →
        s.dev.bit Reg.SYS_ROLE_NO_SERVICE = false → Completes (.segmentParcelReceived l id none) s (fun t =>
          (∃ ack, t.sent = .parcel q ⟨8, (s.dev.klPort q).tx, false,
            pad8 (1 :: leBytes 8 id ++ mapGet s.dev.img.frozen a n)⟩ :: .parcel q ack :: s.dev.sent) ∧
          t.img = s.dev.img ∧ s.dev.KeepsRegs t [Reg.SF_GATE] ∧ s.dev.KeepsMem t ∧ t.ce = s.dev.ce)) ∧
      (∀ data : List Byte, s.dev.toFetch.contains id = true → data.length = n →
        s.dev.majority id = some (crc32c data) → Completes (.segmentParcelReceived l id (some data)) s (fun t =>
          t.img.frozen = mapPut s.dev.img.frozen a data ∧ sget falseAt t.tri.fetched id = true ∧
          s.dev.KeepsRegs t [Reg.SF_GATE] ∧ s.dev.KeepsMem t ∧ t.ce = s.dev.ce))) ∧
    (s.dev.votesSelf = true → ∀ l : Fin 3, s.dev.votes l = true →
      (s.dev.votingLanes.length ≠ 2 → 3 ≤ sget zeroAt s.dev.tri.alignBad l → out (.alignExclusion l) l 6) ∧
      (3 ≤ sget zeroAt s.dev.tri.absent l → out (.absentExclusion l) l 7) ∧
      (max 1 (s.dev.fld Reg.TRI_CFG_MIN_LIMIT) ≤ s.dev.minOf l →
        out (.minorityExclusion l) l (if 3 ≤ sget zeroAt s.dev.tri.nrLane l then 4 else 5)) ∧
      (s.dev.votingLanes.length = 2 → 3 ≤ s.dev.tri.twoBad → allOut (.alignExclusion l) 10)) ∧
    (s.dev.votesSelf = true → 3 ≤ s.dev.tri.noMaj → allOut .nomajExclusion 11) ∧
    (s.dev.votesSelf = true → 3 ≤ s.dev.tri.mismatch → allOut .twoLaneMismatchExclusion 10) ∧
    (∀ (l : Fin 3) (code : Nat), l.val ≠ s.dev.lane → s.dev.votes l = true → Completes (.ctrlExitReceived l code) s
      (fun t => t.laneState l = 3 ∧ sget noData t.tri.contrib l = none ∧ l.val ∈ t.tri.exitSeen ∧ s.dev.KeepsMem t ∧
        t.ce = s.dev.ce))

/-- R263–R265, R270: EXCLUDE asks in the next exchange, SHADOW and READMIT act in an excluded lane that is fit; the automatic
requests; what the readmitting lane takes, and its timeout. -/
def Obligations.TriadReadmission : Prop :=
  ∀ s : State, s.dev.isLane = true →
    (∀ l : Fin 3, s.dev.votesSelf = true → s.dev.votes l = true → 3 ≤ s.dev.votingLanes.length →
      Done (.exclude (BitVec.ofNat 24 l)) s portTRI (fun t =>
        t.tri = { s.dev.tri with exclReq := l.val :: s.dev.tri.exclReq } ∧
        s.dev.KeepsRegs t [Reg.SF_GATE, Reg.TRI_CMD_STATUS] ∧ s.dev.KeepsMem t ∧ t.ce = s.dev.ce)) ∧
    (s.dev.fld Reg.TRI_LANE_STAT_STATE = 3 → Done (.shadow 0) s portTRI (fun t =>
      t.laneState s.dev.lane = 4 ∧ s.dev.KeepsMem t ∧ t.ce = s.dev.ce)) ∧
    (s.dev.readmitOk = true → Done (.readmit 0) s portTRI (fun t => t.tri = { s.dev.tri with readmitReq := true } ∧
      s.dev.KeepsRegs t [Reg.SF_GATE, Reg.TRI_CMD_STATUS] ∧ s.dev.KeepsMem t ∧ t.ce = s.dev.ce)) ∧
    (s.dev.readmitOk = true → s.dev.bit Reg.TRI_CFG_AUTO_READMIT = true → s.dev.fld Reg.TRI_RDM_STAT_ATTEMPTS < 3 →
      s.dev.tri.readmitReq = false → Completes .autoReadmitRequest s (fun t =>
        t.tri = { s.dev.tri with readmitReq := true } ∧
        t.fld Reg.TRI_RDM_STAT_ATTEMPTS = s.dev.fld Reg.TRI_RDM_STAT_ATTEMPTS + 1 ∧
        s.dev.KeepsRegs t [Reg.SF_GATE, Reg.TRI_RDM_STAT] ∧ s.dev.KeepsMem t ∧ t.ce = s.dev.ce)) ∧
    (∀ n, s.dev.tri.exclAt = some n → n + 100 ≤ s.dev.tickCount → s.dev.bit Reg.TRI_CFG_AUTO_RESET = true →
      s.dev.fld Reg.TRI_LANE_STAT_STATE = 3 → s.dev.sluiceFit = false → Completes .autoResetRequest s (fun t =>
        t.sys.request.testBit srcTriAuto = true ∧ s.dev.KeepsRegs t [Reg.SF_GATE] ∧ s.dev.KeepsMem t ∧ t.ce = s.dev.ce)) ∧
    (∀ (l : Fin 3) (g : Nat) (data : List Byte) (final : Option Nat), l.val ≠ s.dev.lane →
      (s.dev.fld Reg.TRI_LANE_STAT_STATE = 5 → Completes (.xferParcelReceived l [(g, data)] final) s (fun t =>
        sget noBytes t.tri.xfer g = data ∧ (∀ k, final = some k → (l.val, k) ∈ t.tri.finals ∧
          t.fld Reg.TRI_RDM_STAT_PHASE = 3) ∧
        s.dev.KeepsRegs t [Reg.SF_GATE, Reg.TRI_RDM_STAT] ∧ s.dev.KeepsMem t ∧ t.ce = s.dev.ce)) ∧
      (s.dev.fld Reg.TRI_LANE_STAT_STATE ≠ 5 → s.dev.tri.donor = some l.val → s.dev.tick.started = false →
        Completes (.xferParcelReceived l [(g, data)] final) s (fun t =>
          t.img.retained = mapPut s.dev.img.retained (256 * g) data ∧ s.dev.KeepsRegs t [Reg.SF_GATE] ∧
          s.dev.KeepsMem t ∧ t.ce = s.dev.ce))) ∧
    (s.dev.fld Reg.TRI_LANE_STAT_STATE = 5 → max 1 (s.dev.fld Reg.TRI_RDM_CFG_TIMEOUT_TICKS) ≤ s.dev.tri.readmitTicks →
      Completes .readmitTimeout s (fun t => t.laneState s.dev.lane = 4 ∧ t.tri.xfer = [] ∧ t.tri.finals = [] ∧
        t.fld Reg.TRI_RDM_STAT_PHASE = 0 ∧ s.dev.KeepsMem t ∧ t.ce = s.dev.ce))

/-! ## Unit failover -/

/-- R62, R272, R278–R284, R287, R290: state copies are taken, acknowledged and abandoned; heartbeats, grants and echoes;
the arbiter's check counts misses and grants to the standby; a station's command frames stay away; switchover and
resynchronization. -/
def Obligations.Failover : Prop :=
  ∀ s : State,
    let quiet (t : Device) (l : List Nat) : Prop := s.dev.KeepsRegs t (Reg.SF_GATE :: l) ∧ s.dev.KeepsMem t ∧ t.ce = s.dev.ce
    let own := s.dev.fld Reg.FO_CFG_UNIT
    (s.dev.fo.abandonDue = true → Completes .stateCopyAbandon s (fun t =>
      t.bit Reg.TICK_FLAGS_ABANDON = true ∧ t.fo.abandonDue = false ∧ t.fo.rxGrans = [] ∧
      t.fld Reg.TICK_ERR_CNT_ABN = min (s.dev.fld Reg.TICK_ERR_CNT_ABN + 1) (2 ^ Reg.TICK_ERR_CNT_ABN.width - 1) ∧
      t.fld Reg.TICK_STATUS_ABN_CONSEC = min (s.dev.fld Reg.TICK_STATUS_ABN_CONSEC + 1) 15 ∧ s.dev.KeepsMem t ∧
      t.ce = s.dev.ce ∧ (s.dev.bit (Reg.TASK_ROUTE_EN 0xED) = false → s.dev.Logs t 0x04A [] ∧
        quiet t [Reg.TICK_FLAGS, Reg.TICK_ERR_CNT, Reg.TICK_STATUS, Reg.EVR_LOSS]))) ∧
    (s.dev.bit Reg.FO_CFG_EN = true → s.dev.foState = 1 → 4 ≤ s.dev.fld Reg.TICK_STATUS_ABN_CONSEC →
      Completes .standbyStale s (fun t => t.foState = 2 ∧ quiet t [Reg.FO_STAT, Reg.EVR_LOSS])) ∧
    (s.dev.bit Reg.FO_CFG_EN = true → s.dev.arbiter = false → ∀ h : Heartbeat, h.unit ≠ own → h.state < 4 →
      Completes (.heartbeatReceived h) s (fun t =>
        t.fo.peer = some h ∧ t.fo.hbNow = true ∧ t.fld Reg.FO_STAT_PEER_STATE = h.state ∧
        (t.rd Reg.FO_HIGH_CLAIM).toNat = max (s.dev.rd Reg.FO_HIGH_CLAIM).toNat h.claim.toNat ∧
        (s.dev.foState = 3 → h.state = 3 → (s.dev.rd Reg.FO_CLAIM).toNat < h.claim.toNat →
          t.fo.demote = some h.claim) ∧
        (s.dev.foSends = true → h.state = 0 ∨ h.state = 2 → s.dev.bit Reg.FO_STAT_RESYNC = false →
          t.bit Reg.FO_STAT_RESYNC = true ∧ t.fo.resyncTodo = List.range s.dev.copySize) ∧
        quiet t [Reg.FO_STAT, Reg.FO_HIGH_CLAIM, Reg.EVR_LOSS])) ∧
    (s.dev.bit Reg.FO_CFG_EN = true → ∀ (claim : Word) (u : Nat),
      (u = own → s.dev.foState = 0 ∨ s.dev.foState = 1 → (s.dev.rd Reg.FO_HIGH_CLAIM).toNat < claim.toNat →
        Completes (.grantReceived claim u) s (fun t => t.fo = { s.dev.fo with take := some claim } ∧ s.dev.KeepsMem t ∧
          t.ce = s.dev.ce)) ∧
      (u ≠ own → s.dev.foState = 3 → (s.dev.rd Reg.FO_CLAIM).toNat < claim.toNat →
        Completes (.grantReceived claim u) s (fun t => t.fo = { s.dev.fo with demote := some claim } ∧ quiet t [] ∧
          t.evr = s.dev.evr))) ∧
    (∀ (n : Fin 64) (high : Word) (rcvd : Bool), Completes (.echoReceived n high rcvd) s (fun t =>
      (s.dev.bit (Reg.FO_STNA_EN n) = true → n.val ≠ 0 → sget noEcho t.fo.echo n = some rcvd) ∧
      t.fo.maxClaim = (if s.dev.arbiter then max s.dev.fo.maxClaim high.toNat else s.dev.fo.maxClaim) ∧ quiet t [] ∧
      t.evr = s.dev.evr)) ∧
    (s.dev.arbiter = true → Completes .arbiterCheck s (fun t => t.fo.hb = [] ∧ s.dev.KeepsMem t ∧ t.ce = s.dev.ce ∧
      (∀ u, u = 1 ∨ u = 2 →
        let seen : Prop := ∃ h, sget noHb s.dev.fo.hb u = some h ∧
          (s.dev.fld Reg.FO_ARB_STAT_ACTIVE_UNIT ≠ u ∨ h.state = 3)
        (seen → t.fld (missFld u) = 0) ∧
        (¬seen → t.fld (missFld u) = min (s.dev.fld (missFld u) + 1) (2 ^ (missFld u).width - 1))) ∧
      (∀ top h, top = max s.dev.fo.maxClaim (s.dev.rd Reg.FO_ARB_CLAIM).toNat → top + 1 < 2 ^ 32 →
        s.dev.fld Reg.FO_ARB_STAT_ACTIVE_UNIT = 1 → sget noHb s.dev.fo.hb 1 = none →
        max 1 (s.dev.fld Reg.FO_CFG_HB_MISS) ≤ s.dev.fld Reg.FO_ARB_STAT_MISS_U1 →
        sget noHb s.dev.fo.hb 2 = some h → h.state = 1 → s.dev.fo.grantFor = none →
        t.fo.grantNow = some (wd (top + 1), 2) ∧ t.rd Reg.FO_ARB_CLAIM = wd (top + 1) ∧
        t.fld Reg.FO_CNT_GRANTS = min (s.dev.fld Reg.FO_CNT_GRANTS + 1) (2 ^ Reg.FO_CNT_GRANTS.width - 1)))) ∧
    (s.dev.foTakes = true → ∀ (tick seq first : Nat) (data : List Byte), data.length = 256 →
      let a := 256 * (s.dev.fld Reg.FO_BUF_BASE_GR + first)
      let put (t : Device) : Prop := (∀ i, i < 256 → t.byte (a + i) = data.getD i 0) ∧ s.dev.KeepsMemBut t a 256 ∧
        t.larea = s.dev.larea ∧ t.prog = s.dev.prog ∧ s.dev.KeepsRegs t [Reg.SF_GATE] ∧ t.ce = s.dev.ce
      Completes (.copyDataReceived tick seq false first data) s (fun t => put t ∧ t.fo.rxSeq = some seq ∧
        t.fo.rxGrans = (if s.dev.fo.rxSeq = some seq then s.dev.fo.rxGrans else []) ++ [(first, data)]) ∧
      Completes (.copyDataReceived tick seq true first data) s (fun t => put t ∧
        sget noGran t.fo.resyncMap first = data ∧ sget falseAt t.fo.resyncHave first = true)) ∧
    (s.dev.foTakes = true → ∀ (tick seq count : Nat) (crc : Word), s.dev.fo.rxSeq = some seq →
      (s.dev.fo.rxGrans.length = count → crc32c s.dev.fo.rxBytes = crc → s.dev.foState = 1 → seq < 65536 →
        Completes (.copyMarkerReceived tick seq count crc) s (fun t =>
          t.fo.ready = s.dev.fo.ready ++ [⟨seq, tick, crc, s.dev.fo.rxGrans, 0, false⟩] ∧ t.fo.rxSeq = none ∧
          t.fo.gotCopy = true ∧ t.fld Reg.TICK_STATUS_ABN_CONSEC = 0 ∧ t.fld Reg.FO_COPY_STAT_CSEQ = seq ∧
          quiet t [Reg.TICK_STATUS, Reg.FO_COPY_STAT])) ∧
      (s.dev.fo.rxGrans.length ≠ count ∨ crc32c s.dev.fo.rxBytes ≠ crc →
        Completes (.copyMarkerReceived tick seq count crc) s (fun t => t.fo = s.dev.fo ∧ quiet t []))) ∧
    (s.dev.foSends = true → ∀ seq gs, s.dev.fo.sentCopy = some (seq, gs) → seq < 65536 →
      Completes (.copyAckReceived seq) s (fun t => t.fo.sentCopy = none ∧ (∀ g ∈ gs, sget falseAt t.fo.marks g = false) ∧
        t.tick.copyRunning = false ∧ t.fld Reg.TICK_STATUS_ABN_CONSEC = 0 ∧ t.fld Reg.FO_COPY_STAT_CSEQ = seq ∧
        quiet t [Reg.TICK_STATUS, Reg.FO_COPY_STAT, Reg.FO_STAT, Reg.EVR_LOSS])) ∧
    (s.dev.bit Reg.FO_CFG_ST_EN = true → max 1 (s.dev.fld Reg.FO_CFG_HOLD_TICKS) < s.dev.fld Reg.FO_STAT_ST_AGE →
      s.dev.fo.holdTold = false → Completes .holdExpired s (fun t => t.bit Reg.FO_STAT_ST_EXPIRED = true ∧
        t.fo = { s.dev.fo with holdTold := true } ∧ quiet t [Reg.FO_STAT, Reg.EVR_LOSS] ∧
        s.dev.Logs t 0x18A [wd (s.dev.fld Reg.FO_STAT_ST_AGE), s.dev.rd Reg.FO_HIGH_CLAIM])) ∧
    (s.dev.foState = 3 → s.dev.fld Reg.FO_STAT_PEER_STATE = 1 → Begun (.switchover 0) s portFO (fun t =>
      t.bit Reg.FO_STAT_YIELD = true ∧ t.fo = { s.dev.fo with yieldAt := s.dev.tickCount } ∧
      quiet t [Reg.FO_CMD_STATUS, Reg.FO_STAT] ∧ t.evr = s.dev.evr)) ∧
    (s.dev.bit Reg.FO_STAT_YIELD = true → s.dev.fo.yieldAt + 16 ≤ s.dev.tickCount → Completes .switchoverTimeout s (fun t =>
      t.bit Reg.FO_STAT_YIELD = false ∧ (s.dev.fld portFO.busy = 1 → t.Ended s.dev portFO 6) ∧
      s.dev.Writes t [Reg.FO_CMD_STATUS, Reg.FO_STAT])) ∧
    (s.dev.foState = 3 → Done (.foResync 0) s portFO (fun t => t.bit Reg.FO_STAT_RESYNC = true ∧
      t.fo.resyncTodo = List.range s.dev.copySize ∧ s.dev.Logs t 0x187 [wd s.dev.copySize] ∧
      quiet t [Reg.FO_CMD_STATUS, Reg.FO_STAT, Reg.EVR_LOSS]))

/-! ## The Sahtu bus -/

/-- R291–R331: frames sent and received through the windows, the trigger table and the guardian's gate; references, cold
start and the node states; the guardian; cycle points and the commands of SB. -/
def Obligations.SahtuBus : Prop :=
  ∀ s : State,
    let quiet (t : Device) : Prop := s.dev.KeepsMem t ∧ t.ce = s.dev.ce
    let up (f : Fld) : Nat := min (s.dev.fld f + 1) (2 ^ f.width - 1)
    let st := s.dev.sbState
    let serves := s.dev.bit Reg.SYS_ROLE_NO_SERVICE = false
    let nextCycle := (s.dev.cycle + 1) % 2 ^ s.dev.sbM s.dev.sched
    (∀ (l : Fin 3) (x : Fin 6), s.dev.isLane = true → l.val ≠ s.dev.lane → Completes (.ctrlSbStateReceived l x) s (fun t =>
      sget zeroAt t.sb.peer l = x ∧ s.dev.KeepsRegs t [Reg.SF_GATE, Reg.SB_STAT, Reg.EVR_LOSS] ∧ quiet t)) ∧
    (∀ (w : Fin 64) (e : Nat), s.dev.sbMaySend = true → w.val < s.dev.sbCnt s.dev.sched →
      s.dev.winType w = 1 → s.dev.trigFor true (s.dev.winFid w) = some e → s.dev.fld (Reg.SB_TRIG_W0_SRC e) = 0 →
      s.dev.bit (Reg.SB_TRIG_W0_CMD e) = false → s.dev.sb.committed = true → s.dev.withheld = false →
      ∀ l, l = mapGet s.dev.img.committedSb (s.dev.sbBufAt e) (4 * s.dev.fld (Reg.SB_TRIG_W1_LEN_U e)) →
      (s.dev.gateOpen w = true → Completes (.frameTransmit w) s (fun t =>
        t.sb.sending = some e ∧ t.bit (Reg.SB_TRIG_W2_LAST_OK e) = true ∧ t.fld (Reg.SB_TRIG_W2_COUNT e)
          = (s.dev.fld (Reg.SB_TRIG_W2_COUNT e) + 1) % 2 ^ (Reg.SB_TRIG_W2_COUNT e).width ∧
        (serves → t.sent = .sahtu (sbFrame (sbHeader (s.dev.fld Reg.SB_CFG_NODE_ID) (s.dev.fld (Reg.SB_TRIG_W0_FID e))
          (l.length / 4) s.dev.cycle 0) l) :: s.dev.sent) ∧
        s.dev.KeepsRegs t [Reg.SF_GATE, Reg.SB_STAT, Reg.SBG_STAT, Reg.SB_TRIG_W2 e] ∧ quiet t)) ∧
      (s.dev.gateOpen w = false → Completes (.frameTransmit w) s (fun t =>
        t.bit (Reg.SB_TRIG_W2_LAST_OK e) = false ∧ t.sent = s.dev.sent ∧
        (s.dev.sb.blocked = false → t.fld Reg.SBG_CNT_BLOCKED = up Reg.SBG_CNT_BLOCKED) ∧ quiet t))) ∧
    (∀ (w : Fin 64) (first room : Bool), st = 3 ∨ st = 4 → s.dev.winType w = 2 → w.val < s.dev.sbCnt s.dev.sched →
      ∀ n, n = (if first then s.dev.winFid w else s.dev.sb.slot + 1) → Completes (.arbMinislot w first room) s (fun t =>
        t.sb.slot = n ∧ quiet t ∧
        (s.dev.sbMaySend = true → n ≤ s.dev.fld (Reg.SB_WIN_B_FID_HI s.dev.sched w) → room = false →
          s.dev.trigFor true n ≠ none → t.fld Reg.SB_ERR_2_ARB_LATE = up Reg.SB_ERR_2_ARB_LATE ∧ t.sent = s.dev.sent))) ∧
    (∀ (w : Fin 64) (h : BitVec 48) (payload : List Byte) (node len fid cyc : Nat), st = 3 ∨ st = 4 →
      node = h.toNat / 2 ^ 42 → fid = h.toNat / 2 ^ 32 % 1024 → len = h.toNat / 2 ^ 24 % 256 → cyc = h.toNat / 2 ^ 18 % 64 →
      node ≠ s.dev.fld Reg.SB_CFG_NODE_ID →
      (∀ fcrc c g, hcrc h.toNat ≠ h.toNat % 2 ^ 11 → Completes (.frameReceived w h payload fcrc c g) s (fun t =>
        t.fld Reg.SB_ERR_0_HCRC = up Reg.SB_ERR_0_HCRC ∧ t.sb.shadow = s.dev.sb.shadow ∧ t.sb.rxErr = true ∧
        s.dev.KeepsRegs t [Reg.SF_GATE, Reg.SB_ERR_0] ∧ quiet t)) ∧
      (∀ e, hcrc h.toNat = h.toNat % 2 ^ 11 → len ≤ 64 → payload.length = 4 * len → s.dev.fidFits w fid = true →
        w.val ∉ s.dev.sb.seen → s.dev.trigFor false fid = some e → len = s.dev.fld (Reg.SB_TRIG_W1_LEN_U e) →
        s.dev.fld (Reg.SB_TRIG_W1_NODE e) = 0 ∨ s.dev.fld (Reg.SB_TRIG_W1_NODE e) = node → h.toNat / 2 ^ 15 % 2 = 0 →
        Completes (.frameReceived w h payload (crc32c (headBytes h.toNat ++ payload)) true true) s (fun t =>
          sget noShadow t.sb.shadow e = some ⟨node, len, cyc, payload⟩ ∧ t.bit (Reg.SB_TRIG_W2_LAST_OK e) = true ∧
          t.fld (Reg.SB_TRIG_W2_COUNT e)
            = (s.dev.fld (Reg.SB_TRIG_W2_COUNT e) + 1) % 2 ^ (Reg.SB_TRIG_W2_COUNT e).width ∧ quiet t))) ∧
    (∀ (what : Nat) (cut : Bool), s.dev.sb.sending = some what → what < 256 → st = 3 →
      Completes (.readbackFailure cut) s (fun t => t.sb.sending = none ∧ t.sbState = 4 ∧
        t.bit Reg.SB_FLAGS_TRUNC = true ∧ t.fld Reg.SB_ERR_2_TRUNC = up Reg.SB_ERR_2_TRUNC ∧
        t.fld Reg.SBG_CNT_CUTS = (if cut then up Reg.SBG_CNT_CUTS else s.dev.fld Reg.SBG_CNT_CUTS) ∧ quiet t)) ∧
    (st = 3 ∨ st = 4 → max 1 (s.dev.fld Reg.SB_CFG_TRUNC_LIMIT) ≤ s.dev.sb.truncs → Completes .nodeHalt s (fun t =>
      t.sbState = 5 ∧ t.bit Reg.SB_FLAGS_HALTED = true ∧ quiet t)) ∧
    (∀ r : SbRef,
      let start := s.dev.ts64 - (2 * s.dev.guardNs + 1000 * r.delay)
      (st = 1 → Completes (.referenceReceived r) s (fun t => t.sbState = 2 ∧ t.sb.prevRef = some (start, r.cycle) ∧
        quiet t)) ∧
      (st = 2 → s.dev.refFollows r start = true → s.dev.bit Reg.SB_CFG_LISTEN_ONLY = false →
        Completes (.referenceReceived r) s (fun t => t.sbState = 3 ∧ t.cycle = r.cycle % 64 ∧ quiet t)) ∧
      (st = 3 → s.dev.sbCnt r.active ≠ 0 → Completes (.referenceReceived r) s (fun t =>
        t.sbState = 3 ∧ t.cycle = r.cycle % 64 ∧ t.rd Reg.SB_MTX_COUNT = wd r.mtx ∧ t.rd Reg.SB_REF_TIME_LO = wd r.ts ∧
        t.rd Reg.SB_REF_TIME_HI = wd (r.ts / 2 ^ 32) ∧ t.fld Reg.SB_STAT_MASTER_ID = r.master % 64 ∧ quiet t))) ∧
    (s.dev.sbMaySend = true → s.dev.gateOpen 0 = true → s.dev.sb.starter = false →
      let sends (i : Instr) : Prop := Completes i s (fun t => t.sb.sending = some 256 ∧ t.cycle = nextCycle % 64 ∧
        t.bit Reg.SB_STAT_IS_MASTER = true ∧ (serves → ∃ l, t.sent = .sahtu l :: s.dev.sent) ∧ quiet t)
      (s.dev.bit Reg.SB_STAT_IS_MASTER = true → s.dev.fld Reg.SB_STAT_MASTER_ID = s.dev.fld Reg.SB_CFG_NODE_ID →
        sends .referenceSend) ∧
      (s.dev.bit Reg.SB_STAT_IS_MASTER = false → s.dev.backups.head? = some (s.dev.fld Reg.SB_CFG_NODE_ID) →
        sends .backupReferenceSend)) ∧
    (st = 3 ∨ st = 4 → Completes .referenceMissing s (fun t => t.fld Reg.SB_ERR_2_REF_MISS = up Reg.SB_ERR_2_REF_MISS ∧
      t.cycle = nextCycle % 64 ∧ t.bit Reg.SB_FLAGS_REF_MISS = true ∧ quiet t ∧
      (s.dev.sb.missed = 0 → t.sbState = st ∧ t.sb.missed = 1) ∧
      (1 ≤ s.dev.sb.missed → t.sbState = 1 ∧ t.bit Reg.SB_STAT_IS_MASTER = false))) ∧
    (st = 1 → s.dev.bit Reg.SB_CFG_COLDSTART = true → s.dev.bit Reg.SB_CFG_LISTEN_ONLY = false → s.dev.sbStarts = true →
      s.dev.sb.backoff = false → s.dev.bit Reg.SBG_CFG_EN = true → s.dev.bit Reg.SBG_CFG_COLDSTART = true →
      s.dev.gdState = 1 ∨ s.dev.gdState = 3 →
      Completes (.startupReferenceSend true) s (fun t => t.sbState = 3 ∧ t.cycle = 0 ∧ t.rd Reg.SB_MTX_COUNT = 0 ∧
        t.fld Reg.SB_STAT_MASTER_ID = s.dev.fld Reg.SB_CFG_NODE_ID ∧ t.sb.starter = true ∧ quiet t) ∧
      Completes (.startupReferenceSend false) s (fun t => t.sbState = 1 ∧ t.sb.backoff = true ∧ t.sb.sending = none ∧
        t.fld Reg.SB_ERR_2_COLL = up Reg.SB_ERR_2_COLL ∧ quiet t)) ∧
    (st = 1 → Completes .startupReferenceReceived s (fun t => t.sbState = 2 ∧ t.sb.prevRef = none ∧ quiet t)) ∧
    Completes .backoffEnd s (fun t => t.sb = { s.dev.sb with backoff := false } ∧ s.dev.KeepsRegs t [Reg.SF_GATE] ∧
      quiet t ∧ t.evr = s.dev.evr) ∧
    (st = 2 → Completes .integrationTimeout s (fun t => t.sbState = 1 ∧ t.sb.prevRef = none ∧ quiet t)) ∧
    (s.dev.bit Reg.SBG_CFG_EN = true → ∀ (cyc : Fin 64) (act : Fin 4) (implied observed : Nat),
      (∀ p, s.dev.gdState = 1 → s.dev.sb.gdPrev = some p →
        ((implied : Int) - observed).natAbs ≤ s.dev.fld Reg.SBG_TIMING_GUARD_NS →
        ((implied : Int) - p - 1000 * s.dev.periodUs).natAbs ≤ 2 * s.dev.guardNs →
        Completes (.guardianSummary cyc act false implied observed true) s (fun t => t.gdState = 2 ∧
          t.fld Reg.SBG_STAT_SCHED = act ∧ t.fld Reg.SBG_STAT_CYCLE = cyc ∧
          s.dev.KeepsRegs t [Reg.SF_GATE, Reg.SBG_STAT] ∧ quiet t ∧ t.evr = s.dev.evr)) ∧
      (s.dev.gdState = 2 → Completes (.guardianSummary cyc act false implied observed false) s (fun t =>
        t.fld Reg.SBG_CNT_REFUSED = up Reg.SBG_CNT_REFUSED ∧ quiet t ∧
        (s.dev.sb.gdBad = 0 → t.gdState = 2 ∧ t.sb.gdBad = 1 ∧ s.dev.Logs t 0x1E2 [wd cyc, wd implied, wd observed]) ∧
        (1 ≤ s.dev.sb.gdBad → t.gdState = 3 ∧ t.bit Reg.SBG_STAT_GATE = false ∧ t.bit Reg.SB_STAT_GATE = false)))) ∧
    (s.dev.gdState = 2 → Completes .guardianSummaryMissing s (fun t => quiet t ∧ t.fld Reg.SBG_STAT_CYCLE
        = (s.dev.fld Reg.SBG_STAT_CYCLE + 1) % 2 ^ s.dev.gdM (s.dev.fld Reg.SBG_STAT_SCHED) % 64 ∧
      (s.dev.sb.gdMiss = 0 → t.gdState = 2 ∧ t.sb.gdMiss = 1) ∧
      (1 ≤ s.dev.sb.gdMiss → t.gdState = 3 ∧ t.bit Reg.SBG_STAT_GATE = false))) ∧
    (s.dev.bit Reg.SBG_CFG_EN = true → s.dev.gdState ≠ 4 →
      (s.dev.gdCrc ≠ s.dev.rd Reg.SBG_SCHED_CRC → Completes .guardianCrcCheck s (fun t => t.gdState = 4 ∧
        t.fld Reg.SBG_STAT_CLOSE_CAUSE = 1 ∧ t.bit Reg.SBG_STAT_GATE = false ∧ quiet t)) ∧
      (s.dev.gdCrc = s.dev.rd Reg.SBG_SCHED_CRC → Completes .guardianCrcCheck s (fun t => s.dev.Writes t []))) ∧
    (∀ i : Fin 32, s.dev.bit (Reg.SB_CP_EN i) = true → st = 3 ∨ st = 4 →
      s.dev.cycle % 2 ^ s.dev.fld (Reg.SB_CP_REP i) = s.dev.fld (Reg.SB_CP_BASE i) →
      Completes (.cyclePoint i) s (fun t => quiet t ∧
        (s.dev.bit (Reg.SB_CP_SYNC i) = true → s.dev.fld Reg.TB_PPS_CFG_SYNC_SRC = 2 → t.sent = .syncout :: s.dev.sent) ∧
        (∀ (e : Eng) (c : CtxNo), s.dev.bit (Reg.SB_CP_ROUTE i) = true → s.dev.bit (Reg.TASK_ROUTE_EN (0x40 + i)) = true →
          s.dev.fld (Reg.TASK_ROUTE_ENG (0x40 + i)) = e → s.dev.fld (Reg.TASK_ROUTE_CTX (0x40 + i)) = c →
          s.dev.voted e = false → s.dev.task.tick1 = true → s.dev.engState e = 3 → s.dev.ctxState e c = 0 →
          t.ctxState e c = 1))) ∧
    (st = 5 → Done (.sbResume 0) s portSB (fun t => t.sbState = 1 ∧ t.sb.truncs = 0 ∧ t.fld Reg.SB_STAT_TRUNC_CONSEC = 0 ∧
      quiet t)) ∧
    (st = 3 → Done (.listenOnly 1) s portSB (fun t => t.sbState = 4 ∧ t.bit Reg.SB_CFG_LISTEN_ONLY = true ∧ quiet t)) ∧
    (st = 4 → Done (.listenOnly 0) s portSB (fun t => t.sbState = 3 ∧ t.bit Reg.SB_CFG_LISTEN_ONLY = false ∧ quiet t))

/-! ## Ethernet and time -/

/-- R333–R338, R342, R346, R348–R351, R355: what a port receives, sends and stamps; launch entries start in time or are
late; the host queue; link changes, calibration, MDIO. -/
def Obligations.Ethernet : Prop :=
  ∀ (s : State) (p : Fin 3),
    let quiet (t : Device) (l : List Nat) : Prop := s.dev.KeepsRegs t (Reg.SF_GATE :: l) ∧ s.dev.KeepsMem t ∧ t.ce = s.dev.ce
    let up (f : Fld) : Nat := min (s.dev.fld f + 1) (2 ^ f.width - 1)
    let enabled := s.dev.bit (Reg.ETH_CFG_EN p) = true
    (∀ (l : Fin 3) (b : Bool), s.dev.isLane = true → l.val ≠ s.dev.lane → Completes (.ctrlLinkStateReceived l p b) s (fun t =>
      sget falseAt t.eth.peerLink (3 * l.val + p) = b ∧ sget zeroAt t.eth.linkAt (3 * l.val + p) = s.dev.ts64 ∧ quiet t [])) ∧
    (∀ (frame : List Byte) (mii : Nat), enabled → s.dev.ethLink p = true →
      Completes (.ethFrameReceived p frame false mii) s (fun t =>
        t.fld (Reg.ETH_ERR_RXERR p) = up (Reg.ETH_ERR_RXERR p) ∧ s.dev.Writes t [Reg.ETH_ERR p]) ∧
      (64 ≤ frame.length + 4 → frame.length + 4 ≤ 1522 → beAt frame 12 2 ≠ 0x8808 → s.dev.forPort p frame = true →
        s.dev.ptpAt frame = none → ∀ e?, e? = (List.range 64).find? (fun e => s.dev.rxMatch p frame e) →
        (∀ e, e? = some e → s.dev.bit (Reg.ETH_RXA_EVT e) = false → Completes (.ethFrameReceived p frame true mii) s (fun t =>
          sget noEth t.eth.shadow e = some ⟨p, frame.length, decide (s.dev.fld (Reg.ETH_RXB_LEN e) < frame.length),
            s.dev.rxTime p mii, frame.take (s.dev.fld (Reg.ETH_RXB_LEN e))⟩ ∧ quiet t [] ∧ t.evr = s.dev.evr)) ∧
        (e? = none → s.dev.bit Reg.ETH_HQ_EN = false → Completes (.ethFrameReceived p frame true mii) s (fun t =>
          t.fld (Reg.ETH_ERR_NOMATCH p) = up (Reg.ETH_ERR_NOMATCH p) ∧ s.dev.Writes t [Reg.ETH_ERR p])))) ∧
    (∀ (n : Nat) (w l : List Byte), s.dev.bit Reg.ETH_HQ_EN = true → s.dev.bit (Reg.ETH_CFG_HOSTQ 2) = true →
      s.dev.bit (Reg.ETH_CFG_EN 2) = true → s.dev.hqTxAt + 2052 ≤ 0x800000 →
      s.dev.Clean (sharedKeys s.dev.hqTxAt 2052) → w = s.dev.seenBytes s.dev.hqTxAt 4 → (leNat w).testBit 31 = true →
      n = leNat w % 2048 → s.dev.fits 2 n = true → l = s.dev.seenBytes (s.dev.hqTxAt + 4) n → Completes .hostTxSend s (fun t =>
        t.sent = .eth 2 l :: s.dev.sent ∧ t.onWire 2 = true ∧ t.eth.hqTx = (s.dev.eth.hqTx + 1) % 16 ∧
        (∀ i, i < 4 → t.byte (s.dev.hqTxAt + i) = BitVec.ofNat 8 (leNat w % 2 ^ 31 / 256 ^ i)) ∧
        s.dev.KeepsMemBut t s.dev.hqTxAt 4 ∧ s.dev.KeepsRegs t [Reg.SF_GATE])) ∧
    (∀ (e : Launch) (l : List Launch) (mii : Nat), s.dev.launches p = e :: l → s.dev.mayLaunch p = true →
      let starts (i : Instr) : Prop := Completes i s (fun t =>
        t.launches p = l ∧ t.onWire p = true ∧ t.sent = .eth p e.frame :: s.dev.sent ∧ s.dev.KeepsMem t ∧ t.ce = s.dev.ce ∧
        (e.tsreq = true → (sget noTs s.dev.eth.txts p).length < 64 →
          sget noTs t.eth.txts p = sget noTs s.dev.eth.txts p ++ [(e.tag, s.dev.txTime p mii)]))
      let tol := max 8 (s.dev.fld (Reg.ETH_CFG_LATE_TOL_NS p))
      (s.dev.isLane = false → e.time ≤ s.dev.ts64 → s.dev.ts64 ≤ e.time + tol → starts (.launchEntryStart p mii)) ∧
      (e.time ≠ 0 → e.time + tol < s.dev.ts64 →
        (s.dev.bit (Reg.ETH_CFG_LATE_DROP p) = false → starts (.launchLate p mii)) ∧
        (s.dev.bit (Reg.ETH_CFG_LATE_DROP p) = true → Completes (.launchLate p mii) s (fun t => t.launches p = l ∧
          t.sent = s.dev.sent ∧ t.fld (Reg.ETH_ERR_LATE p) = up (Reg.ETH_ERR_LATE p) ∧
          s.dev.Logs t 0x205 [wd p, wd e.index, wd (s.dev.ts64 - e.time)] ∧ quiet t [Reg.ETH_ERR p, Reg.EVR_LOSS])))) ∧
    (∀ mii : Nat, Completes (.launchCopyDone p mii) s (fun t => sget falseAt t.eth.copied p = true ∧ s.dev.KeepsMem t ∧
      t.ce = s.dev.ce ∧ ((∀ e l, s.dev.launches p = e :: l → e.time ≠ 0) → t.launches p = s.dev.launches p ∧ quiet t []))) ∧
    (∀ (b : Bool) (speed : Fin 3), enabled → Completes (.ethLinkChange p b speed) s (fun t =>
      t.ethLink p = b ∧ (p.val ≠ 2 → t.fld (Reg.ETH_STAT_SPEED p) = speed) ∧ quiet t [Reg.ETH_STAT p, Reg.EVR_LOSS] ∧
      (s.dev.isLane = false → t.bit (Reg.ETH_STAT_SENDING p) = b) ∧
      s.dev.Logs t 0x204 [wd p, wd (b2n b), wd (t.fld (Reg.ETH_STAT_SPEED p))])) ∧
    (sget noPtp s.dev.eth.ptp p = [] → Completes (.ethTxDone p) s (fun t => t.onWire p = false ∧ t.sent = s.dev.sent ∧
      quiet t [] ∧ t.evr = s.dev.evr)) ∧
    (∀ (trips : List Nat) (align : Int), sget falseAt s.dev.eth.calRun p = true →
      ((trips.take 256).length < 192 → Completes (.ethCalibrationDone p trips align) s (fun t =>
        t.bit (Reg.ETH_STAT_CAL_FAIL p) = true ∧ sget falseAt t.eth.calRun p = false ∧
        s.dev.Logs t 0x20C [wd p, wd (trips.take 256).length] ∧ quiet t [Reg.ETH_STAT p, Reg.EVR_LOSS])) ∧
      (192 ≤ (trips.take 256).length → Completes (.ethCalibrationDone p trips align) s (fun t =>
        t.bit (Reg.ETH_STAT_CAL_FAIL p) = false ∧ t.bit (Reg.ETH_STAT_CAL p) = true ∧ t.bit (Reg.ETH_CAL_VALID p) = true ∧
        t.fld (Reg.ETH_CAL_DELAY_PS p) = ((medianNat (trips.take 256) : Int)
          - (100 * (s.dev.fld (Reg.ETH_LAT_TX_100PS p) + s.dev.fld (Reg.ETH_LAT_RX_100PS p)) : Nat) - align).toNat
            % 2 ^ (Reg.ETH_CAL_DELAY_PS p).width ∧
        sget int0 t.tb.delay p = t.fld (Reg.ETH_CAL_DELAY_PS p) ∧ sget falseAt t.eth.calRun p = false ∧
        quiet t [Reg.ETH_STAT p, Reg.ETH_CAL p, Reg.TB_DELAY p, Reg.EVR_LOSS]))) ∧
    Begun (.mdioRead 0) s portETH (fun t => t.eth = { s.dev.eth with mdio := some (false, s.dev.rd Reg.ETH_MDIO_DATA) } ∧
      quiet t [Reg.ETH_CMD_STATUS] ∧ t.evr = s.dev.evr) ∧
    Begun (.mdioWrite 0) s portETH (fun t => t.eth = { s.dev.eth with mdio := some (true, s.dev.rd Reg.ETH_MDIO_DATA) } ∧
      quiet t [Reg.ETH_CMD_STATUS] ∧ t.evr = s.dev.evr) ∧
    (∀ (data : BitVec 16) (w : Word), s.dev.fld portETH.busy = 1 →
      (s.dev.eth.mdio = some (false, w) → Completes (.mdioTransferDone data) s (fun t => t.Ended s.dev portETH 0 ∧
        t.fld Reg.ETH_MDIO_DATA_DATA = data.toNat ∧ t.eth.mdio = none ∧
        t.sent = .mdio false (s.dev.rd Reg.ETH_MDIO_ADDR) (wd data.toNat) :: s.dev.sent ∧
        quiet t [Reg.ETH_CMD_STATUS, Reg.ETH_MDIO_DATA])) ∧
      (s.dev.eth.mdio = some (true, w) → Completes (.mdioTransferDone data) s (fun t => t.Ended s.dev portETH 0 ∧
        t.eth.mdio = none ∧ t.sent = .mdio true (s.dev.rd Reg.ETH_MDIO_ADDR) w :: s.dev.sent ∧
        quiet t [Reg.ETH_CMD_STATUS]))) ∧
    (s.dev.ethLink p = true → sget falseAt s.dev.eth.calRun p = false → Done (.calibrate (BitVec.ofNat 24 p)) s portETH
      (fun t => sget falseAt t.eth.calRun p = true ∧ quiet t [Reg.ETH_CMD_STATUS] ∧ t.evr = s.dev.evr)) ∧
    Completes (.txtsPop p) s (fun t => sget noTs t.eth.txts p = (sget noTs s.dev.eth.txts p).drop 1 ∧
      (t.bit (Reg.ETH_TXTS_STAT_VALID p) = true ↔ 2 ≤ (sget noTs s.dev.eth.txts p).length) ∧
      quiet t [Reg.ETH_TXTS_STAT p, Reg.ETH_TXTS_LO p, Reg.ETH_TXTS_HI p] ∧ t.evr = s.dev.evr)

/-- R337–R345, R352, R353, R356: PTP messages give offsets and delays and are answered, PPS_IN gives offsets, a lost reference
leads to HOLDOVER; PPS_OUT and SYNCOUT; CAPTURE and SET_TIME. -/
def Obligations.TimeBase : Prop :=
  ∀ (s : State) (p : Fin 3) (m : PtpMsg),
    let quiet (t : Device) (l : List Nat) : Prop := s.dev.KeepsRegs t (Reg.SF_GATE :: l) ∧ s.dev.KeepsMem t ∧ t.ce = s.dev.ce
    let takes := s.dev.bit (Reg.TB_PORT_EN p) = true ∧ s.dev.ethLink p = true ∧ m.domain = s.dev.fld Reg.TB_CFG_DOMAIN ∧
      m.version = 2
    let serves := s.dev.bit Reg.SYS_ROLE_NO_SERVICE = false
    let theta (diff : Int) : Int := (diff - sget int0 s.dev.tb.delay p - sget int0 s.dev.tb.asym p).fdiv 1000
    let gives (i : Instr) (diff : Int) : Prop := Completes i s (fun t =>
      sget noInt t.tb.syncDiff p = some diff ∧ t.rd Reg.TB_OFFSET = satWord (theta diff) ∧ s.dev.KeepsMem t ∧ t.ce = s.dev.ce ∧
      (s.dev.tbState = 1 → (theta diff).natAbs ≤ 1000 * s.dev.fld Reg.TB_LIMITS_STEP_US →
        t.tb.rate = clampRate (256 * s.dev.fld Reg.TB_SERVO_KP_Q8 * theta diff
          + s.dev.fld Reg.TB_SERVO_KI_Q16 * (s.dev.tb.integral + theta diff))))
    let measures (i : Instr) (x : Int) : Prop := Completes i s (fun t =>
      sget int0 t.tb.delay p = x ∧ t.rd (Reg.TB_DELAY p) = wdi x ∧ sget falseAt t.tb.settled p = true ∧
      quiet t [Reg.TB_DELAY p])
    let sendsNow (i : Instr) (kind : Nat) (x : PtpOut) : Prop :=
      serves → s.dev.fits p (s.dev.ptpLen kind) = true → sget noPtp s.dev.eth.ptp p = [] → Completes i s (fun t =>
        t.sent = .ptp p x :: s.dev.sent ∧ t.onWire p = true ∧ quiet t [] ∧ t.evr = s.dev.evr)
    (takes → s.dev.fromParent p m = true →
      (s.dev.fld Reg.TB_CFG_SRC = 1 → gives (.ptpSync p m false) (1000 * ((m.rx : Int) - m.time) - corrPs m.corr)) ∧
      Completes (.ptpSync p m true) s (fun t => sget noMsg t.tb.syncWait p = some m ∧ quiet t [] ∧ t.evr = s.dev.evr) ∧
      (∀ x, s.dev.fld Reg.TB_CFG_SRC = 1 → sget noMsg s.dev.tb.syncWait p = some x → x.seq = m.seq → x.clock = m.clock →
        x.portNo = m.portNo →
        gives (.ptpFollowUp p m) (1000 * ((x.rx : Int) - m.time) - (corrPs x.corr + corrPs m.corr))) ∧
      (∀ t3 diff, sget noPair s.dev.tb.dreq p = some (m.seq, t3) → sget noInt s.dev.tb.syncDiff p = some diff →
        s.dev.bit (Reg.TB_PORT_P2P p) = false → sget falseAt s.dev.tb.settled p = false →
        measures (.ptpDelayResp p m) ((diff + 1000 * ((m.time : Int) - t3) - corrPs m.corr).fdiv 2))) ∧
    (takes → ∀ t1, sget noPair s.dev.tb.preq p = some (m.seq, t1) → s.dev.bit (Reg.TB_PORT_P2P p) = true →
      sget falseAt s.dev.tb.settled p = false →
      measures (.ptpPdelayResp p m false) ((1000 * ((m.rx : Int) - t1) - corrPs m.corr).fdiv 2) ∧
      (∀ x, sget noMsg s.dev.tb.prespWait p = some x → x.clock = m.clock → measures (.ptpPdelayRespFollowUp p m)
        ((1000 * (((x.rx : Int) - t1) - ((m.time : Int) - x.time)) - corrPs x.corr - corrPs m.corr).fdiv 2))) ∧
    (takes → s.dev.ptpState p = 6 → s.dev.sends p = true →
      sendsNow (.ptpDelayReq p m) 9 ⟨9, m.seq, 1 + p, m.rx⟩) ∧
    (takes → s.dev.ptpState p ≠ 2 → s.dev.ptpState p ≠ 3 → s.dev.bit Reg.TB_CFG_TWO_STEP = false →
      sendsNow (.ptpPdelayReq p m) 3 ⟨3, m.seq, s.dev.ownPort p, m.rx⟩) ∧
    (∀ set : AnnounceSet, takes → m.clock ≠ s.dev.clockId →
      (s.dev.bit Reg.TB_CFG_EXT_PORT = true → s.dev.ptpState p = 9 → Completes (.ptpAnnounce p m set) s (fun t =>
        t.tb.parent = some (m.clock, m.portNo) ∧ s.dev.KeepsMem t ∧ t.ce = s.dev.ce)) ∧
      (s.dev.bit Reg.TB_CFG_EXT_PORT = false →
        (∀ f ∈ s.dev.tb.foreign, f.port = p → f.clock = m.clock → f.portNo ≠ m.portNo) →
        Completes (.ptpAnnounce p m set) s (fun t =>
          t.tb.foreign = ⟨p, m.clock, m.portNo, set, [m.rx]⟩ :: s.dev.tb.foreign ∧ s.dev.KeepsMem t ∧ t.ce = s.dev.ce))) ∧
    (s.dev.bit (Reg.TB_PORT_EN p) = true → s.dev.ethLink p = true →
      (s.dev.ptpState p = 6 → s.dev.sends p = true → s.dev.bit Reg.TB_CFG_TWO_STEP = false →
        sendsNow (.ptpMessageSend p 1) 0 ⟨0, sget zeroAt s.dev.tb.seqOut (16 * p), 1 + p, s.dev.ts64⟩) ∧
      (s.dev.ptpState p = 9 → s.dev.bit (Reg.TB_PORT_P2P p) = false → Completes (.ptpMessageSend p 3) s (fun t =>
        sget noPair t.tb.dreq p = some (sget zeroAt s.dev.tb.seqOut (16 * p + 1), s.dev.ts64) ∧ quiet t []))) ∧
    (s.dev.fld Reg.TB_CFG_SRC = 1 → s.dev.tbState = 1 ∨ s.dev.tbState = 2 → Completes (.ptpReferenceLost false) s (fun t =>
      t.tbState = 3 ∧ t.fld Reg.TB_CNT_SYNC_LOSS = min (s.dev.fld Reg.TB_CNT_SYNC_LOSS + 1)
        (2 ^ Reg.TB_CNT_SYNC_LOSS.width - 1) ∧ s.dev.KeepsMem t ∧ t.ce = s.dev.ce)) ∧
    (s.dev.fld Reg.TB_CFG_SRC = 2 →
      (s.dev.secondOff.natAbs ≤ 250000000 → Completes .ppsInEdge s (fun t => t.tb.ppsOffset = s.dev.secondOff ∧
        t.rd Reg.TB_OFFSET = satWord s.dev.secondOff ∧ s.dev.KeepsMem t ∧ t.ce = s.dev.ce)) ∧
      (250000000 < s.dev.secondOff.natAbs → Completes .ppsInEdge s (fun t => s.dev.Writes t [])) ∧
      (s.dev.tbState = 1 ∨ s.dev.tbState = 2 → Completes .ppsInLost s (fun t => t.tbState = 3 ∧ s.dev.KeepsMem t ∧
        t.ce = s.dev.ce))) ∧
    (s.dev.bit Reg.TB_PPS_CFG_PPS_EN = true → s.dev.tbState = 2 ∨ s.dev.bit Reg.TB_PPS_CFG_PPS_ALWAYS = true →
      Completes .ppsOutSecond s (fun t => t.tb.ppsRise = some s.dev.ts64 ∧ t.sent =
        (if s.dev.fld Reg.TB_PPS_CFG_SYNC_SRC = 3 then .syncout :: .pps :: s.dev.sent else .pps :: s.dev.sent) ∧
        quiet t [] ∧ t.evr = s.dev.evr)) ∧
    (s.dev.fld Reg.TB_PPS_CFG_SYNC_SRC = 1 ∨ s.dev.fld Reg.TB_PPS_CFG_SYNC_SRC = 4 → Completes .syncoutPulse s (fun t =>
      t.sent = .syncout :: s.dev.sent ∧ quiet t [] ∧ t.evr = s.dev.evr)) ∧
    Done (.capture 0) s portTB (fun t =>
      t.fld Reg.TB_CAP_NS_VALUE = s.dev.tb.ns % 2 ^ Reg.TB_CAP_NS_VALUE.width ∧ t.rd Reg.TB_CAP_SEC_LO = wd s.dev.tb.sec ∧
      t.fld Reg.TB_CAP_SEC_HI_VALUE = s.dev.tb.sec / 2 ^ 32 % 2 ^ Reg.TB_CAP_SEC_HI_VALUE.width ∧
      t.rd Reg.TB_CAP_FRAC = wd s.dev.tb.frac ∧ s.dev.Writes t [Reg.TB_CMD_STATUS, Reg.TB_CAP_NS, Reg.TB_CAP_SEC_LO,
        Reg.TB_CAP_SEC_HI, Reg.TB_CAP_FRAC]) ∧
    (∀ sec, sec = (s.dev.rd Reg.TB_SET_SEC_LO).toNat + 2 ^ 32 * s.dev.fld Reg.TB_SET_SEC_HI_VALUE →
      (s.dev.rd Reg.TB_SET_NS).toNat ≤ 999999999 → s.dev.tbState = 0 → s.dev.stepAllowed = true →
      Done (.setTime 0) s portTB (fun t => t.tb.sec = sec ∧ t.tb.ns = (s.dev.rd Reg.TB_SET_NS).toNat ∧ t.tb.frac = 0 ∧
        s.dev.Logs t 0x209 (wordsOf (s.dev.tbNs - (sec * 1000000000 + (s.dev.rd Reg.TB_SET_NS).toNat : Nat))) ∧
        quiet t [Reg.TB_CMD_STATUS, Reg.EVR_LOSS]))

/-! ## Safe containers and safety functions -/

/-- R361, R368, R376, R378–R388, R391–R396: a connection goes STALE and LOST; a key is staged; a pair in discrepancy, the
deliberate reset of a lockout group judged by its low time, notices between lanes; trip inputs gate channels off and
hold them until a commit; a broken seal loop revokes every permission; without keepalive every output is off. -/
def Obligations.SafetyFunctions : Prop :=
  ∀ s : State,
    let quiet (t : Device) (l : List Nat) : Prop := s.dev.KeepsRegs t (Reg.SF_GATE :: l) ∧ s.dev.KeepsMem t ∧ t.ce = s.dev.ce
    let up (f : Fld) : Nat := min (s.dev.fld f + 1) (2 ^ f.width - 1)
    let shows (n : Nat) : List Nat := Reg.SC_CONN_W5 n :: Reg.SC_STAT :: Reg.EVR_LOSS :: (List.range 8).map Reg.SC_ACKREQ
    (∀ n : Fin 256, s.dev.scRx n = true →
      (s.dev.fld (Reg.SC_CONN_W5_STATE n) = scOK →
        max 1 (s.dev.fld (Reg.SC_CONN_W1_SEND_N n)) ≤ s.dev.fld (Reg.SC_CONN_W5_TICKS n) → Completes (.scStale n) s (fun t =>
          t.fld (Reg.SC_CONN_W5_STATE n) = scSTALE ∧ quiet t (shows n) ∧
          s.dev.Logs t 0x244 [wd n, wd scOK, wd scSTALE, wd (s.dev.fld (Reg.SC_CONN_W5_LAST_ERR n))])) ∧
      (s.dev.fld (Reg.SC_CONN_W5_STATE n) ≤ scSTALE →
        s.dev.fld (Reg.SC_CONN_W4_WD_MS n) * 1000 < s.dev.fld (Reg.SC_CONN_W5_TICKS n) * s.dev.periodUs →
        Completes (.scWatchdogLost n) s (fun t => t.fld (Reg.SC_CONN_W5_STATE n) = scLOST ∧
          t.fld (Reg.SC_CONN_W5_RUN n) = 0 ∧ t.bit (Reg.SC_CONN_W5_ACK_REQ n) = false ∧ quiet t (shows n)))) ∧
    (∀ k : Fin 64, s.dev.permLanes permKey = true → Begun (.keySet (BitVec.ofNat 24 k)) s portSC (fun t =>
      t.sc.stage = some (k.val, s.dev.keyIn) ∧ t.sc.keys = s.dev.sc.keys ∧ quiet t [Reg.SC_CMD_STATUS] ∧
      t.evr = s.dev.evr)) ∧
    (∀ (l : Fin 3) (g : Fin 8), s.dev.isLane = true → l.val ≠ s.dev.lane → Completes (.ctrlLockNoticeReceived l g) s (fun t =>
      (l.val, s.dev.ts64) ∈ (t.grp g).peerNotice ∧ quiet t [] ∧ t.evr = s.dev.evr)) ∧
    (∀ p : Fin 16, s.dev.bit (Reg.SF_PAIR_CFG_EN p) = true → s.dev.pairAgrees p = false →
      s.dev.bitAt Reg.SF_PAIR_STAT_DISC p = false → Completes (.pairDiscrepancy p) s (fun t =>
        t.bitAt Reg.SF_PAIR_STAT_DISC p = true ∧ t.bitAt Reg.SF_PAIR_STAT_RUN p = false ∧
        t.fld Reg.SF_CNT_DISC = up Reg.SF_CNT_DISC ∧ s.dev.KeepsMem t ∧ t.ce = s.dev.ce ∧
        ∀ g, g < 8 → s.dev.bit (Reg.SF_LOCKA_EN g) = true → s.dev.bitAt (Reg.SF_LOCKB_DISC g) p = true →
          s.dev.lockCause g = false → s.dev.locked g = false → t.locked g = true ∧
            ∀ c, c < 24 → s.dev.bitAt (Reg.SF_LOCKC_OUT g) c = true → t.driverOff c)) ∧
    (∀ g : Fin 8, s.dev.locked g = true → s.dev.lockReady g = false → (s.dev.grp g).fell = true →
      Completes (.deliberateResetFall g false) s (fun t => t.bitAt Reg.SF_LOCK_STAT_RESET_LOW g = true ∧
        (t.grp g).fell = false ∧ (t.grp g).causeSeen = s.dev.lockCause g ∧ quiet t [Reg.SF_LOCK_STAT]) ∧
      Completes (.deliberateResetFall g true) s (fun t => (t.grp g).fell = false ∧ quiet t [])) ∧
    (∀ (g : Fin 8) (low : Nat), s.dev.bitAt Reg.SF_LOCK_STAT_RESET_LOW g = true →
      s.dev.di (s.dev.fld (Reg.SF_LOCKA_RESET_DI g)) = true →
      let rejects (reason : Nat) : Prop := Completes (.deliberateResetRise g low) s (fun t =>
        t.lockReady g = s.dev.lockReady g ∧ t.locked g = s.dev.locked g ∧
        t.fld Reg.SF_CNT_RESETS_REJ = up Reg.SF_CNT_RESETS_REJ ∧ s.dev.Logs t 0x287 [wd g, wd reason, wd (low / 100)] ∧
        quiet t [Reg.SF_LOCK_STAT, Reg.SF_CNT, Reg.EVR_LOSS])
      ((s.dev.grp g).causeSeen = true ∨ s.dev.lockCause g = true → rejects 3) ∧
      ((s.dev.grp g).causeSeen = false → s.dev.lockCause g = false →
        (low < 25000 → rejects 1) ∧ (300000 < low → rejects 2) ∧
        (25000 ≤ low → low ≤ 300000 → Completes (.deliberateResetRise g low) s (fun t =>
          t.lockReady g = true ∧ t.locked g = s.dev.locked g ∧ (t.grp g).lowMs = low / 100 ∧
          (s.dev.isLane = true → (t.grp g).ownNotice = some s.dev.ts64) ∧ quiet t [Reg.SF_LOCK_STAT])))) ∧
    (∀ g : Fin 8, s.dev.isLane = true → (s.dev.grp g).ownNotice.isSome = true → s.dev.lockReady g = true →
      Completes (.lockNoticeLapse g) s (fun t => t.lockReady g = false ∧ t.locked g = s.dev.locked g ∧
        (t.grp g).ownNotice = none ∧ s.dev.Logs t 0x287 [wd g, wd 4, wd (s.dev.grp g).lowMs] ∧
        quiet t [Reg.SF_LOCK_STAT, Reg.EVR_LOSS])) ∧
    (∀ n : Fin 4, s.dev.bit (Reg.SF_TRIP_CFG_EN n) = true → s.dev.bitAt Reg.SF_SLUICE_STAT_TRIP n = false →
      Completes (.tripInAssert n) s (fun t => t.bitAt Reg.SF_SLUICE_STAT_TRIP n = true ∧
        t.fld Reg.SF_CNT_TRIPS = up Reg.SF_CNT_TRIPS ∧ s.dev.KeepsMem t ∧ t.ce = s.dev.ce ∧
        ∀ c, c < 24 → s.dev.bitAt (Reg.SF_TRIP_CFG_MASK n) c = true →
          (t.rd Reg.SF_GATE).toNat.testBit c = true ∧ t.driverOff c)) ∧
    (∀ n : Fin 4, s.dev.bitAt Reg.SF_SLUICE_STAT_TRIP n = true → Completes (.tripInNegate n) s (fun t =>
      t.bitAt Reg.SF_SLUICE_STAT_TRIP n = false ∧ s.dev.KeepsMem t ∧ t.ce = s.dev.ce ∧
      ∀ c, c < 24 → s.dev.sf.held.testBit c = true → (t.rd Reg.SF_GATE).toNat.testBit c = true ∧ t.driverOff c)) ∧
    (s.dev.bit Reg.SF_SEAL_STAT_LOOP_OK = true → Completes .sealLoopBreak s (fun t =>
      t.bit Reg.SF_SEAL_STAT_LOOP_OK = false ∧ t.fld Reg.SF_SEAL_STAT_PERM_NOW = 0 ∧
      t.bit Reg.SF_SEAL_STAT_REVOKED = true ∧
      (s.dev.perm permForce = true → t.img.staged = [.clearAll 1] ∧ t.bit Reg.IMG_STAT_FORCE_PEND = true) ∧
      (s.dev.perm permArb = true → t.bit Reg.SYS_ROLE_ARBITER = false) ∧
      (s.dev.perm permKey = true → s.dev.sc.stageOwn = true → t.sc.stage = none) ∧
      (s.dev.perm permDebug = true → ∀ e : Eng, t.engState e ≠ 4))) ∧
    (s.dev.bit Reg.SF_SEAL_STAT_LOOP_OK = false → Completes .sealLoopBreak s (fun t => s.dev.Writes t [] ∧
      t.evr = s.dev.evr)) ∧
    Completes .keepaliveLoss s (fun t => t.sf.keepaliveLost = true ∧ (∀ c, c < 24 → t.driverOff c) ∧ quiet t [] ∧
      t.evr = s.dev.evr)

/-! ## Field inputs and outputs -/

/-- R403, R404, R408, R409, R412–R413, R415–R417, R420–R423, R568–R570, R574: filtered inputs, wire breaks, supplies and
their events; overload, thermal shutdown and read-back faults of a channel; a dark test switches the next fit channel off
and judges it; CLEAR_FAULT clears latched faults; Weir grants a turn-on that fits the budget and holds one that does not. A
router source that is not enabled releases nothing. -/
def Obligations.FieldInputsAndOutputs : Prop :=
  ∀ s : State,
    let quiet (t : Device) (l : List Nat) : Prop := s.dev.KeepsRegs t (Reg.SF_GATE :: l) ∧ s.dev.KeepsMem t ∧ t.ce = s.dev.ce
    let nothing (t : Device) : Prop := s.dev.Writes t [] ∧ t.evr = s.dev.evr
    let up (f : Fld) : Nat := min (s.dev.fld f + 1) (2 ^ f.width - 1)
    let unrouted (src : Nat) : Prop := s.dev.bit (Reg.TASK_ROUTE_EN src) = false
    let dead : Prop := s.dev.vfdLow = true ∨ s.dev.vfMissing 3 = true
    let free (c : Nat) : Prop := s.dev.chBlocked c = false ∧ s.dev.gateNow.testBit c = false
    let judges (c : Nat) (t : Device) (l : List Nat) : Prop := quiet t (Reg.FLD_CH_STAT c :: Reg.EVR_LOSS :: l)
    (∀ (i : Fin 32) (v : Bool),
      (s.dev.di i ≠ v → ¬(v = true ∧ dead) → Completes (.diChange i v) s (fun t => t.di i = v ∧
        (∀ j : Fin 32, j ≠ i → t.di j = s.dev.di j) ∧ s.dev.KeepsMem t ∧ t.ce = s.dev.ce)) ∧
      (s.dev.di i = v ∨ v = true ∧ dead → Completes (.diChange i v) s nothing) ∧
      (s.dev.bitAt Reg.FLD_DI_WB_WB_EN i = true → ¬dead → s.dev.bitAt Reg.FLD_DI_BREAK_BREAK i ≠ v →
        Completes (.wireBreak i v) s (fun t => t.bitAt Reg.FLD_DI_BREAK_BREAK i = v ∧ (∀ j : Fin 32, t.di j = s.dev.di j) ∧
          t.fld Reg.FLD_CNT_WB = (if v then up Reg.FLD_CNT_WB else s.dev.fld Reg.FLD_CNT_WB) ∧
          (unrouted 0xE0 → quiet t [Reg.FLD_DI_BREAK, Reg.FLD_CNT, Reg.EVR_LOSS] ∧
            s.dev.Logs t 0x2C6 [wd i, wd (b2n v)]))) ∧
      (dead → Completes (.wireBreak i v) s nothing)) ∧
    (∀ mv : BitVec 16,
      (s.dev.vfdLow = false → Completes (.vfdLow mv) s (fun t => t.vfdLow = true ∧ t.fld Reg.FLD_VFD_V_MV = mv.toNat ∧
        (∀ i : Fin 32, t.di i = false) ∧ (∀ c, c < 24 → t.driverOff c) ∧ s.dev.KeepsMem t ∧ t.ce = s.dev.ce ∧
        ((∀ i : Fin 32, s.dev.di i = false) → unrouted 0xDF →
          quiet t [Reg.FLD_VFD, Reg.EVR_LOSS] ∧ s.dev.Logs t 0x2C5 [wd mv.toNat]))) ∧
      Completes (.vfdRecover mv) s (fun t => t.vfdLow = false ∧ t.fld Reg.FLD_VFD_V_MV = mv.toNat ∧
        s.dev.Writes t [Reg.FLD_VFD] ∧ t.evr = s.dev.evr ∧ ∀ c, s.dev.driverOff c → t.driverOff c)) ∧
    (∀ (g st : Fin 4) (v10 : BitVec 16),
      let old := s.dev.fld (Reg.FLD_VF_STATE g)
      (old = st → Completes (.vfStateChange g st v10) s (fun t => t.fld (Reg.FLD_VF_V_10MV g) = v10.toNat ∧
        s.dev.Writes t [Reg.FLD_VF g] ∧ t.evr = s.dev.evr)) ∧
      (old ≠ st → Completes (.vfStateChange g st v10) s (fun t => t.fld (Reg.FLD_VF_STATE g) = st ∧
        t.fld (Reg.FLD_VF_V_10MV g) = v10.toNat ∧ s.dev.KeepsMem t ∧ t.ce = s.dev.ce ∧
        (g.val < 3 → st.val = 2 → ∀ k, k < 8 → t.driverOff (8 * g + k) ∧
          (s.dev.chEn (8 * g + k) = true → t.chFault (8 * g + k) 6 = true)) ∧
        (g.val < 3 → old = 2 → ∀ k, k < 8 → t.chFault (8 * g + k) 6 = false) ∧
        (unrouted (0xDB + g) → g.val = 3 ∨ st.val ≠ 2 → s.dev.Logs t 0x2C4 [wd g, wd old, wd st, wd v10.toNat]) ∧
        (unrouted (0xDB + g) → g.val = 3 ∨ st.val ≠ 2 ∧ old ≠ 2 → quiet t [Reg.FLD_VF g, Reg.EVR_LOSS])))) ∧
    Completes .fldInterfaceFail s (fun t => t.bit Reg.FLD_IF_STAT_KEEPALIVE = false ∧
      t.fld Reg.FLD_IF_STAT_IF_ERR = min (s.dev.fld Reg.FLD_IF_STAT_IF_ERR + 16) (2 ^ Reg.FLD_IF_STAT_IF_ERR.width - 1) ∧
      s.dev.Logs t 0x2CE [wd (t.fld Reg.FLD_IF_STAT_IF_ERR)] ∧ s.dev.Writes t [Reg.FLD_IF_STAT, Reg.EVR_LOSS]) ∧
    (∀ (hot : Bool) (temp : BitVec 16), s.dev.fdHot ≠ hot → Completes (.fdOvertemp hot temp) s (fun t =>
      t.fdHot = hot ∧ t.fld Reg.FLD_TEMP_T_01C = temp.toNat ∧ s.dev.Logs t 0x3F3 [wd (b2n hot), wd temp.toNat] ∧
      s.dev.Writes t [Reg.FLD_TEMP, Reg.PWR_SUP_STAT, Reg.PWR_SUP_FLAGS, Reg.EVR_LOSS] ∧
      (hot = true → t.bit Reg.PWR_SUP_FLAGS_FD_HOT = true ∧ ∀ c, c < 24 → t.driverOff c))) ∧
    (∀ c : Fin 24,
      (∀ ma : BitVec 16, s.dev.chOn c = true → s.dev.fld (Reg.FLD_CH_CFG_OVL_MS c) ≠ 0 →
        Completes (.overloadTrip c ma) s (fun t => t.chFault c 0 = true ∧ t.chFault c 7 = true ∧ t.driverOff c ∧
          t.fld Reg.FLD_CNT_OVL = up Reg.FLD_CNT_OVL ∧
          (unrouted (0xE1 + c / 8) → judges c t [Reg.FLD_CNT] ∧ s.dev.Logs t 0x2C7 [wd c, wd ma.toNat]))) ∧
      (∀ ma, s.dev.chOn c = false ∨ s.dev.fld (Reg.FLD_CH_CFG_OVL_MS c) = 0 → Completes (.overloadTrip c ma) s nothing) ∧
      (s.dev.chEn c = true →
        let auto := s.dev.bit (Reg.FLD_CH_CFG_THERM_AUTO c)
        Completes (.thermalShutdown c) s (fun t => t.chFault c 1 = true ∧ t.driverOff c ∧ t.fd.hot.testBit c = true ∧
          t.chFault c 7 = (s.dev.chFault c 7 || !auto) ∧ (auto = true → t.fd.restart.testBit c = true) ∧
          t.fld Reg.FLD_CNT_THERM = up Reg.FLD_CNT_THERM ∧
          (unrouted (0xE1 + c / 8) → judges c t [Reg.FLD_CNT] ∧ s.dev.Logs t 0x2C8 [wd c, wd (b2n auto)]))) ∧
      (s.dev.chEn c = true → s.dev.bit (Reg.FLD_CH_CFG_OL_EN c) = true → s.dev.chOn c = true →
        s.dev.vfMissing (c / 8) = false → s.dev.chFault c 3 = false → Completes (.openOnDetect c) s (fun t =>
          t.chFault c 3 = true ∧
          (unrouted (0xE1 + c / 8) → judges c t [] ∧ s.dev.Logs t 0x2C9 [wd c, 1]))) ∧
      (s.dev.chEn c = true → s.dev.chOn c = false → s.dev.fd.dark ≠ some c.val → s.dev.vfMissing (c / 8) = false →
        Completes (.stuckOnDetect c) s (fun t => t.chFault c 4 = true ∧
          (unrouted (0xE1 + c / 8) → judges c t [] ∧ t.evr = s.dev.evr))) ∧
      (∀ mv : BitVec 16, s.dev.chEn c = true → s.dev.fd.value.testBit c = true → s.dev.sf.held.testBit c = false →
        (∀ k ∈ [0, 1, 4, 5, 6, 7], s.dev.chFault c k = false) → Completes (.stuckOffDetect c mv) s (fun t =>
          t.chFault c 5 = true ∧
          (unrouted (0xE1 + c / 8) → judges c t [] ∧ s.dev.Logs t 0x2CB [wd c, wd mv.toNat]))) ∧
      (∀ mv, s.dev.sf.held.testBit c = true → Completes (.stuckOffDetect c mv) s nothing) ∧
      (∀ what : Fin 5, Completes (.faultConditionEnd c what) s (fun t =>
        let k := if what.val = 4 then 1 else 2 + what.val
        let stays := if what.val = 4 then s.dev.chFault c 7 else decide (what.val = 2) && s.dev.fd.darkStuck.testBit c
        t.chFault c k = (s.dev.chFault c k && stays) ∧ (∀ j, j < 8 → j ≠ k → t.chFault c j = s.dev.chFault c j) ∧
        (what.val = 4 → t.fd.hot.testBit c = false) ∧ s.dev.Writes t [Reg.FLD_CH_STAT c] ∧ t.evr = s.dev.evr))) ∧
    (∀ c : Fin 16, s.dev.chEn c = true → s.dev.bit (Reg.FLD_CH_CFG_OW_EN c) = true → s.dev.chOn c = false →
      s.dev.fd.dark = none → s.dev.vfMissing (c / 8) = false → s.dev.chFault c 2 = false →
      Completes (.openOffDetect c) s (fun t => t.chFault c 2 = true ∧
        (unrouted (0xE1 + c / 8) → judges c t [] ∧ s.dev.Logs t 0x2C9 [wd c, 0]))) ∧
    (∀ k : Nat, k < 24 → s.dev.ticking = true → s.dev.tick.started = true → s.dev.darkTick = true → s.dev.fd.dark = none →
      s.dev.fd.darkTick ≠ some s.dev.tickCount →
      let c := (s.dev.fd.darkLast + 1 + k) % 24
      (∀ j, j < k → s.dev.darkFit ((s.dev.fd.darkLast + 1 + j) % 24) = false) → s.dev.darkFit c = true →
      s.dev.gateNow.testBit c = false → s.dev.fieldHeld = false → Completes .darkTestStart s (fun t =>
        t.fd.dark = some c ∧ t.fd.darkLast = c ∧ t.chOn c = false ∧ s.dev.Writes t [] ∧ t.evr = s.dev.evr)) ∧
    (∀ (c : Fin 24) (mv ma : BitVec 16), s.dev.fd.dark = some c.val →
      let pass := if c.val < 16 then mv.toNat < 4000 else 8000 < mv.toNat
      let skipped := 16 ≤ c.val ∧ ma.toNat < 2
      Completes (.darkTestEnd mv ma) s (fun t => t.fd.dark = none ∧
        (pass → t.fd.darkRes = (c.val, 1) ∧ nothing t) ∧
        (¬pass → skipped → t.fd.darkRes = s.dev.fd.darkRes ∧ nothing t) ∧
        (¬pass → ¬skipped → t.fd.darkRes = (c.val, 2) ∧ t.chFault c 4 = true ∧ t.fd.darkStuck.testBit c = true ∧
          t.fld Reg.FLD_CNT_DT_FAIL = up Reg.FLD_CNT_DT_FAIL ∧
          (unrouted (0xE1 + c / 8) → unrouted 0xE4 → judges c t [Reg.FLD_CNT] ∧
            s.dev.Logs t 0x2CA [wd c, wd mv.toNat, wd ma.toNat])) ∧
        (free c → s.dev.fd.value.testBit c = true → t.chOn c = true))) ∧
    (s.dev.fd.dark = none → ∀ mv ma, Completes (.darkTestEnd mv ma) s nothing) ∧
    (∀ arg : BitVec 24,
      ((∀ c : Fin 24, arg.toNat.testBit c = true → s.dev.faultCause c = false) → Done (.clearFault arg) s portFLD (fun t =>
        s.dev.KeepsMem t ∧ t.ce = s.dev.ce ∧ ∀ c : Fin 24,
          (arg.toNat.testBit c = false → t.rd (Reg.FLD_CH_STAT c) = s.dev.rd (Reg.FLD_CH_STAT c)) ∧
          (arg.toNat.testBit c = true → t.chFault c 7 = false ∧ t.fd.darkStuck.testBit c = false ∧
            (s.dev.chFault c 7 = true → t.chFault c 0 = false ∧ t.chFault c 1 = false) ∧
            (s.dev.fd.darkStuck.testBit c = true → t.chFault c 4 = false)) ∧
          (arg.toNat = 2 ^ c.val → s.dev.chFault c 7 = true → s.dev.Logs t 0x2CC [wd c, 1]))) ∧
      (∀ c : Fin 24, arg.toNat.testBit c = true → s.dev.faultCause c = true → s.dev.fld portFLD.busy = 0 →
        Completes (.clearFault arg) s (fun t => t.Ended s.dev portFLD 3 ∧
          s.dev.Writes t [Reg.FLD_CMD_STATUS, Reg.EVR_LOSS]))) ∧
    (∀ (slot : Fin 62) (g : Fin 3) (c : Fin 24), sget noQueue s.dev.fd.queue g = [c.val] →
      (∀ k, k < 3 → k ≠ g → sget noQueue s.dev.fd.queue k = []) → s.dev.sf.held.testBit c = false →
      s.dev.gateNow.testBit c = false → s.dev.fieldHeld = false →
      let live := (sget noClaims s.dev.fd.claims g).filter (fun p =>
        decide (slot.val < p.1 + s.dev.atLeast1 (Reg.PWR_WEIR_INR_US g)))
      let fits := ((live.map (fun p => p.2)).sum + s.dev.inrMa c : Int) ≤ sget zeroAt s.dev.fd.head g
      let forced := live = [] ∨ s.dev.bit (Reg.FLD_CH_CFG_SAFE c) = true ∧ 5 ≤ slot.val ∨ slot.val = 61
      (fits ∨ forced → Completes (.weirGrant slot) s (fun t => t.chOn c = true ∧ sget noQueue t.fd.queue g = [] ∧
        t.fld (weirLast g) = slot ∧ sget noClaims t.fd.claims g = live ++ [(slot.val, s.dev.inrMa c)] ∧
        s.dev.KeepsMem t ∧ t.ce = s.dev.ce ∧
        (fits → s.dev.Writes t [Reg.PWR_WEIR_STAT] ∧ t.evr = s.dev.evr) ∧
        (¬fits → t.fld (weirOver g) = up (weirOver g) ∧
          s.dev.Writes t [Reg.PWR_WEIR_STAT, Reg.PWR_WEIR_CNT, Reg.EVR_LOSS] ∧
          (sget falseAt s.dev.fd.overs g = false → s.dev.Logs t 0x3F4 [wd g, wd c, wd slot])))) ∧
      (¬fits → ¬forced → Completes (.weirGrant slot) s (fun t => t.chOn c = s.dev.chOn c ∧
        sget noQueue t.fd.queue g = [c.val] ∧ sget noClaims t.fd.claims g = live ∧ nothing t)))

/-! ## Signal chain -/

/-- R429–R437, R439, R440, R442–R447: a sample is decimated, filtered and corrected, and the channel that reads the chain
takes it; overrange and settling keep it out; a coefficient swap; resync; points of calibration set the constants of a
modulator or find it faulty; a slot of the rotation, and its two matches; one step of an output modulator. Values outside
24 bits are free (log 29). -/
def Obligations.SignalChain : Prop :=
  ∀ s : State,
    let quiet (t : Device) (l : List Nat) : Prop := s.dev.KeepsRegs t (Reg.SF_GATE :: l) ∧ s.dev.KeepsMem t ∧ t.ce = s.dev.ce
    let nothing (t : Device) : Prop := s.dev.Writes t [] ∧ t.evr = s.dev.evr
    let up (f : Fld) : Nat := min (s.dev.fld f + 1) (2 ^ f.width - 1)
    let calm (g : Nat) : Prop := (s.dev.rot g).step ≠ 1
    (∀ (m : Fin 20) (bits : List Bool),
      let i := s.dev.chainCh m
      let x := sincIn (s.dev.fld (Reg.SIG_IN_CFG_SINC_K i) + 1) (2 ^ s.dev.fld (Reg.SIG_IN_CFG_FIR_D i)) bits (s.dev.chain m)
      let v := s.dev.firOut (s.dev.coefBank (s.dev.bit (Reg.SIG_IN_CFG_BANKED i))) (s.dev.fld (Reg.SIG_IN_CFG_FILT i)) x.line
      let y0 := nanOr (fMul (nanOr (fSub (lsbF v) (s.dev.rd (Reg.SIG_MODCAL_OFF m)))) (s.dev.rd (Reg.SIG_MODCAL_GAIN m)))
      (s.dev.bitAt Reg.SIG_CFG_GRP_EN (m / 5) = false → Completes (.sigSample m bits) s nothing) ∧
      (s.dev.bitAt Reg.SIG_CFG_GRP_EN (m / 5) = true → Completes (.sigSample m bits) s (fun t =>
        (t.chain m).hist = x.hist ∧ (t.chain m).line = x.line ∧ s.dev.KeepsMem t ∧ t.ce = s.dev.ce ∧
        ((∀ n, n < 32 → s.dev.bit (Reg.SIG_THR_A_EN n) = false) → quiet t [] ∧ t.evr = s.dev.evr) ∧
        (-8388608 ≤ v → v ≤ 8388607 → (t.chain m).ys = (y0 :: x.ys).take 64 ∧ t.freeCtr = s.dev.freeCtr ∧
          ∀ k, s.dev.readerOf m = some k → s.dev.bit (Reg.SIG_IN_CFG_EN k) = true →
            let c := s.dev.inCh k
            let y := nanOr (fAdd y0 x.h)
            if c.settling = true ∨ x.ovr = true then
              (t.inCh k).zs = c.zs ∧ (t.inCh k).d = c.d ∧ (t.inCh k).sawSet = (c.sawSet || c.settling) ∧
                (t.inCh k).sawOvr = (c.sawOvr || x.ovr)
            else if s.dev.bit (Reg.SIG_IN_CFG_DCB_EN k) = true then
              (t.inCh k).d = nanOr (fAdd c.d (nanOr (fMul (nanOr (fSub y c.d))
                (fRat 1 (2 ^ s.dev.fld (Reg.SIG_IN_CFG_DCB_K k)) 0)))) ∧
              (t.inCh k).zs = c.zs ++ [nanOr (fSub y (t.inCh k).d)]
            else (t.inCh k).zs = c.zs ++ [y]))) ∧
      ((s.dev.chain m).ovr = false → Completes (.overrangeStart m) s (fun t => (t.chain m).ovr = true ∧
        t.fld Reg.SIG_CNT_OVR = up Reg.SIG_CNT_OVR ∧ s.dev.KeepsMem t ∧ t.ce = s.dev.ce ∧
        (calm (m / 5) → quiet t [Reg.SIG_CNT, Reg.EVR_LOSS] ∧ s.dev.Logs t 0x305 [wd m, 1]) ∧
        ((s.dev.rot (m / 5)).step = 1 → s.dev.inSlot m = true → (t.rot (m / 5)).step = 0 ∧
          t.fld Reg.SIG_CNT_ABORTS = up Reg.SIG_CNT_ABORTS ∧ t.fld (Reg.SIG_GRP_STAT_MODE (m / 5)) = 0))) ∧
      ((s.dev.chain m).ovr = true → Completes (.overrangeEnd m) s (fun t => (t.chain m).ovr = false ∧
        s.dev.KeepsMem t ∧ t.ce = s.dev.ce ∧ (∀ k, s.dev.readerOf m = some k → (t.inCh k).settling = true) ∧
        ((∀ g, calm g) → quiet t [Reg.EVR_LOSS] ∧ s.dev.Logs t 0x305 [wd m, 0])))) ∧
    (∀ k : Fin 16, Completes (.settlingEnd k) s (fun t => (t.inCh k).settling =
      (if s.dev.bit (Reg.SIG_GRP_STAT_START_DONE (k / 4)) then false else (s.dev.inCh k).settling) ∧
      quiet t [] ∧ t.evr = s.dev.evr)) ∧
    (∀ off : Int,
      let src := s.dev.fld Reg.SIG_CFG_SYNC_SRC
      let acts := src ≠ 0 ∧ (src = 1 ∨ s.dev.sig.synced = false) ∧ (src = 3 → s.dev.tick.started = true)
      (¬acts → Completes (.sdSyncResync off) s nothing) ∧
      (acts → Completes (.sdSyncResync off) s (fun t => t.sig.synced = true ∧ s.dev.KeepsMem t ∧ t.ce = s.dev.ce ∧
        (off.natAbs ≤ 1 → t.sig.inp = s.dev.sig.inp ∧ quiet t [] ∧ t.evr = s.dev.evr) ∧
        (1 < off.natAbs → (∀ i, i < 16 → s.dev.bit (Reg.SIG_IN_CFG_EN i) = true → (t.inCh i).settling = true) ∧
          ((∀ g, g < 4 → calm g) → quiet t [Reg.EVR_LOSS] ∧ s.dev.Logs t 0x306 [wdi off]))))) ∧
    (s.dev.bit Reg.SIG_BANK_PEND = false → Completes .coefSwapPoint s nothing) ∧
    (s.dev.bit Reg.SIG_BANK_PEND = true →
      let old := s.dev.fld Reg.SIG_BANK_ACTIVE
      Completes .coefSwapPoint s (fun t => t.fld Reg.SIG_BANK_ACTIVE = 1 - old ∧ t.bit Reg.SIG_BANK_PEND = false ∧
        t.fld Reg.SIG_BANK_SWAPS = up Reg.SIG_BANK_SWAPS ∧ s.dev.KeepsMem t ∧ t.ce = s.dev.ce ∧
        (∀ i, i < 16 → s.dev.bit (Reg.SIG_IN_CFG_EN i) = true → s.dev.bit (Reg.SIG_IN_CFG_BANKED i) = true →
          (t.inCh i).settling = true ∧ (t.inCh i).zs = []) ∧
        ((∀ g, g < 4 → calm g) → quiet t [Reg.SIG_BANK, Reg.EVR_LOSS] ∧
          s.dev.Logs t 0x304 [wd old, wd (1 - old), wd s.dev.tickCount]))) ∧
    (∀ (g : Fin 4) (x : Word),
      let r := s.dev.rot g
      let j := s.dev.fld (Reg.SIG_GRP_STAT_J g)
      let gain := nanOr (fDiv (s.dev.rd Reg.SIG_VREF) (nanOr (fSub x r.x0)))
      let passes := fWithin r.x0 (s.dev.atLeast1 Reg.SIG_CAL_LIM_OFF_TOL) 1000 = true ∧
        fWithin (nanOr (fSub gain fOne)) (s.dev.atLeast1 Reg.SIG_CAL_LIM_GAIN_TOL) 1000 = true
      let judged (t : Device) (k : Nat) : Prop :=
        (passes → t.rd (Reg.SIG_MODCAL_OFF (5 * g + k)) = r.x0 ∧ t.rd (Reg.SIG_MODCAL_GAIN (5 * g + k)) = gain ∧
          t.fld (Reg.SIG_GRP_STAT_FAULT g) = s.dev.fld (Reg.SIG_GRP_STAT_FAULT g)) ∧
        (¬passes → t.rd (Reg.SIG_MODCAL_OFF (5 * g + k)) = s.dev.rd (Reg.SIG_MODCAL_OFF (5 * g + k)) ∧
          t.rd (Reg.SIG_MODCAL_GAIN (5 * g + k)) = s.dev.rd (Reg.SIG_MODCAL_GAIN (5 * g + k)) ∧
          t.bitAt (Reg.SIG_GRP_STAT_FAULT g) k = true ∧ t.fld Reg.SIG_CNT_CALFAIL = up Reg.SIG_CNT_CALFAIL)
      let held (k : Nat) : List Nat :=
        [Reg.SIG_GRP_STAT g, Reg.SIG_MODCAL_OFF (5 * g + k), Reg.SIG_MODCAL_GAIN (5 * g + k), Reg.SIG_CNT, Reg.EVR_LOSS]
      (∀ n, r.seq = some n → n < s.dev.startPoints g → Completes (.calPointDone g x) s (fun t =>
        (n % 2 = 0 → (t.rot g).x0 = x ∧ (t.rot g).seq = some (n + 1) ∧ quiet t [Reg.SIG_GRP_STAT g] ∧ t.evr = s.dev.evr) ∧
        (n % 2 = 1 → judged t (n / 2) ∧ quiet t (held (n / 2)) ∧
          (n + 1 < s.dev.startPoints g → (t.rot g).seq = some (n + 1)) ∧
          (n + 1 = s.dev.startPoints g → (t.rot g).seq = none ∧ t.bit (Reg.SIG_GRP_STAT_START_DONE g) = true ∧
            t.fld (Reg.SIG_GRP_STAT_MODE g) = 0)))) ∧
      (r.seq = none →
        ((r.step = 3 ∨ r.step = 4) → (s.dev.inCh (4 * g + j)).settling = true ∨ (s.dev.chain (5 * g + 4)).ovr = true →
          Completes (.calPointDone g x) s nothing) ∧
        ((s.dev.inCh (4 * g + j)).settling = false → (s.dev.chain (5 * g + 4)).ovr = false →
          (r.step = 3 → Completes (.calPointDone g x) s (fun t => (t.rot g).step = 4 ∧ (t.rot g).x0 = x ∧
            t.fld (Reg.SIG_GRP_STAT_MODE g) = 3 ∧ quiet t [Reg.SIG_GRP_STAT g] ∧ t.evr = s.dev.evr)) ∧
          (r.step = 4 → Completes (.calPointDone g x) s (fun t => judged t j ∧ quiet t (held j) ∧
            (passes → (t.rot g).step = 5 ∧ t.fld (Reg.SIG_GRP_STAT_MODE g) = 2) ∧
            (¬passes → (t.rot g).step = 0 ∧ t.bit (Reg.SIG_GRP_STAT_STOPPED g) = true)))) ∧
        (r.step = 6 → Completes (.calPointDone g x) s (fun t => (t.rot g).step = 7 ∧ (t.rot g).x0 = x ∧
          t.fld (Reg.SIG_GRP_STAT_MODE g) = 1 ∧ quiet t [Reg.SIG_GRP_STAT g] ∧ t.evr = s.dev.evr)) ∧
        (r.step = 7 → Completes (.calPointDone g x) s (fun t => judged t 4 ∧ quiet t (held 4) ∧ (t.rot g).step = 0 ∧
          (¬passes → t.bit (Reg.SIG_GRP_STAT_STOPPED g) = true))))) ∧
    (∀ g : Fin 4,
      let r := s.dev.rot g
      let ready := s.dev.bitAt Reg.SIG_CFG_SPARE_EN g = true ∧ s.dev.bit (Reg.SIG_GRP_STAT_START_DONE g) = true ∧
        s.dev.bit (Reg.SIG_GRP_STAT_STOPPED g) = false ∧ r.step < 2
      let shows : List Nat := [Reg.SIG_GRP_STAT g, Reg.SIG_CNT, Reg.EVR_LOSS]
      (¬ready → Completes (.rotationSlotStart g) s nothing) ∧
      (ready → s.dev.bitAt (Reg.SIG_GRP_STAT_FAULT g) 4 = true → Completes (.rotationSlotStart g) s (fun t =>
        t.bit (Reg.SIG_GRP_STAT_STOPPED g) = true ∧ (t.rot g).step = 0 ∧ quiet t shows ∧
        s.dev.Logs t 0x30C [wd g, wd (s.dev.fld (Reg.SIG_GRP_STAT_FAULT g))])) ∧
      (ready → s.dev.bitAt (Reg.SIG_GRP_STAT_FAULT g) 4 = false →
        let slot := if r.begun then (s.dev.fld (Reg.SIG_GRP_STAT_SLOT g) + 1) % 5 else 0
        let settles := (s.dev.inCh (4 * g + slot)).settling = true
        let ovr := (s.dev.chain (5 * g + slot)).ovr = true ∨ (s.dev.chain (5 * g + 4)).ovr = true
        Completes (.rotationSlotStart g) s (fun t => t.fld (Reg.SIG_GRP_STAT_SLOT g) = slot ∧ quiet t shows ∧
          (slot = 4 → (t.rot g).step = 6 ∧ t.fld (Reg.SIG_GRP_STAT_MODE g) = 0) ∧
          (slot < 4 → t.fld (Reg.SIG_GRP_STAT_J g) = slot ∧ (t.chain (5 * g + slot)).ys = [] ∧
            (t.chain (5 * g + 4)).ys = [] ∧
            (¬settles → ¬ovr → (t.rot g).step = 1 ∧ t.fld (Reg.SIG_GRP_STAT_MODE g) = 2) ∧
            (settles ∨ ovr → (t.rot g).step = 0 ∧ t.fld (Reg.SIG_GRP_STAT_MODE g) = 0 ∧
              (r.step = 0 → t.fld Reg.SIG_CNT_ABORTS = up Reg.SIG_CNT_ABORTS ∧
                s.dev.Logs t 0x308 [wd g, wd (4 * g + slot), if (s.dev.inCh (4 * g + slot)).settling then 1 else 2]))) ∧
          (r.step = 1 → slot = 4 ∨ ¬settles ∧ ¬ovr → t.fld Reg.SIG_CNT_ABORTS = up Reg.SIG_CNT_ABORTS ∧
            s.dev.Logs t 0x308 [wd g, wd (4 * g + s.dev.fld (Reg.SIG_GRP_STAT_J g)), 4])))) ∧
    (∀ g : Fin 4,
      let r := s.dev.rot g
      let j := s.dev.fld (Reg.SIG_GRP_STAT_J g)
      let home := s.dev.chain (5 * g + j)
      let spare := s.dev.chain (5 * g + 4)
      let close (x : Word) : Prop := fWithin x (s.dev.atLeast1 Reg.SIG_CAL_LIM_MATCH_MAX) (2 ^ 23) = true
      let shows : List Nat := [Reg.SIG_GRP_STAT g, Reg.SIG_CNT, Reg.EVR_LOSS]
      let hands (t : Device) (home : Nat) (x : Word) : Prop :=
        t.fld (Reg.SIG_GRP_STAT_SERVING g) = 1 - home ∧ t.fld Reg.SIG_CNT_HANDOVERS = up Reg.SIG_CNT_HANDOVERS ∧
          s.dev.Logs t 0x307 [wd g, wd (4 * g + j), wd home, wdi (toLsb x)]
      let fails (t : Device) (old n bit : Nat) : Prop :=
        t.fld Reg.SIG_CNT_ABORTS = up Reg.SIG_CNT_ABORTS ∧ n = old + 1 ∧
          (old < 2 → s.dev.Logs t 0x308 [wd g, wd (4 * g + j), 3]) ∧
          (2 ≤ old → t.bitAt (Reg.SIG_GRP_STAT_FAULT g) bit = true ∧ t.bit (Reg.SIG_GRP_STAT_STOPPED g) = true ∧
            (t.rot g).step = 0)
      let whole := 64 ≤ home.ys.length ∧ 64 ≤ spare.ys.length ∧ (s.dev.inCh (4 * g + j)).settling = false ∧
        home.ovr = false ∧ spare.ovr = false
      (¬whole → Completes (.handoverMatch g) s nothing) ∧
      (whole → j < 4 → r.step = 1 → Completes (.handoverMatch g) s (fun t => quiet t shows ∧
        (close (pairMean home.ys spare.ys) → hands t 0 (pairMean home.ys spare.ys) ∧ (t.rot g).step = 3 ∧
          (t.rot g).served = some j ∧ (t.chain (5 * g + 4)).h = pairMean home.ys spare.ys) ∧
        (¬close (pairMean home.ys spare.ys) → (t.rot g).step = 0 ∧ fails t r.spareFail (t.rot g).spareFail 4))) ∧
      (whole → j < 4 → r.step = 5 → Completes (.handoverMatch g) s (fun t => quiet t shows ∧
        (close (pairMean spare.ys home.ys) → hands t 1 (pairMean spare.ys home.ys) ∧ (t.rot g).step = 0 ∧
          (t.rot g).served = none ∧ (t.chain (5 * g + j)).h = pairMean spare.ys home.ys ∧ (t.chain (5 * g + 4)).h = 0) ∧
        (¬close (pairMean spare.ys home.ys) → fails t r.homeFail (t.rot g).homeFail j ∧
          (r.homeFail < 2 → (t.rot g).step = 5))))) ∧
    (∀ k : Fin 8,
      let x := s.dev.outCh k
      let hold := 2 ^ s.dev.fld (Reg.SIG_OUT_CFG_OUT_J k)
      let div := hold * 2 ^ s.dev.fld (Reg.SIG_OUT_CFG_IFACT k)
      (s.dev.bit (Reg.SIG_OUT_CFG_EN k) = false → Completes (.outputChainSample k) s (fun t =>
        t.outCh k = { x with bit := false } ∧ quiet t [] ∧ t.evr = s.dev.evr)) ∧
      (s.dev.bit (Reg.SIG_OUT_CFG_EN k) = true → Completes (.outputChainSample k) s (fun t =>
        let z := t.outCh k
        z.cnt = x.cnt + 1 ∧ quiet t [] ∧ t.evr = s.dev.evr ∧ (∀ i : Fin 8, i ≠ k → t.outCh i = s.dev.outCh i) ∧
        z.n = (if x.cnt % div = 0 then x.n + 1 else x.n) ∧
        (x.cnt % hold ≠ 0 → z.line = x.line ∧ z.v = x.v) ∧
        (x.cnt % hold = 0 → z.v = s.dev.firF (s.dev.coefBank (s.dev.bit (Reg.SIG_OUT_CFG_BANKED k)))
          (s.dev.fld (Reg.SIG_OUT_CFG_FILT k)) z.line ∧
          (x.cnt % div ≠ 0 → z.line = (0 :: x.line).take 128) ∧
          (x.cnt % div = 0 → s.dev.bit (Reg.SIG_OUT_CFG_RAMP k) = false → z.line = (fClamp x.u :: x.line).take 128)) ∧
        z.a1 = nanOr (fSub (nanOr (fAdd x.a1 z.v)) x.fb) ∧ z.a2 = nanOr (fSub (nanOr (fAdd x.a2 z.a1)) x.fb) ∧
        z.bit = (!fIsNaN z.a2 && decide (0 ≤ fKey z.a2)) ∧ z.fb = (if z.bit then fOne else fNegate fOne))))

/-! ## NAND store -/

/-- R459, R463–R466, R469, R471, R537, R538: a request of the host becomes a job of the manager, which ends with its operation;
requests that the state forbids end with code 3; scrub passes, the power-fail save, archive pages and the restored log. The
manager is free where no operation runs, no job waits and VIO33 is not low. -/
def Obligations.NandStore : Prop :=
  ∀ s : State,
    let quiet (t : Device) (l : List Nat) : Prop := s.dev.KeepsRegs t (Reg.SF_GATE :: l) ∧ s.dev.KeepsMem t ∧ t.ce = s.dev.ce
    let nothing (t : Device) : Prop := s.dev.Writes t [] ∧ t.evr = s.dev.evr
    let idle := s.dev.nvm.cur = none ∧ s.dev.nvm.jobs = [] ∧ s.dev.vio33Low = false
    let starts (t : Device) (j : NvmJob) : Prop :=
      (idle → t.nvm.cur = some j ∧ t.nvm.jobs = []) ∧
      (s.dev.nvm.cur.isSome = true → t.nvm.cur = s.dev.nvm.cur ∧ t.nvm.jobs = s.dev.nvm.jobs ++ [j])
    let begins (i : Instr) (j : NvmJob) : Prop := idle ∨ s.dev.nvm.cur.isSome = true → Begun i s portNVM (fun t =>
      starts t j ∧ quiet t [Reg.NVM_CMD_STATUS] ∧ t.evr = s.dev.evr)
    let r := s.dev.fld Reg.NVM_ADDR_REGION
    let lb := s.dev.fld Reg.NVM_ADDR_LBLOCK
    let page := s.dev.fld Reg.NVM_ADDR_PAGE
    let addr := s.dev.fld Reg.NVM_BUF_ADDR
    let served := s.dev.bit Reg.NVM_STAT_READY = true ∧ s.dev.bit Reg.NVM_STAT_FROZEN = false
    let here := r ≤ 5 ∧ lb < (sget noBlocks s.dev.nvm.map r).length
    (∀ x, s.dev.store = some x →
      (served → here → addr % 4 = 0 → page < x.ppb → addr + x.page ≤ 0x800000 →
        begins (.readPage 0) ⟨.read addr, [.read r lb page]⟩ ∧
        (r = 5 → ∀ data, s.dev.busRead 7 addr x.page = (some data, s.dev) →
          begins (.programPage 0) ⟨.program, [.prog r lb page data]⟩) ∧
        (r ≠ 5 → s.dev.fld portNVM.busy = 0 → Completes (.programPage 0) s (fun t => t.Ended s.dev portNVM 3))) ∧
      (served → here → r = 5 → begins (.eraseBlock 0) ⟨.erase, [.erase r lb]⟩) ∧
      (addr % 4 = 0 → addr + 132 ≤ 0x800000 → descValid x s.dev.newDesc = true → s.dev.perm permBundle = true →
        s.dev.bit Reg.NVM_STAT_FROZEN = false → begins (.descWrite 0) ⟨.desc,
          ([0, 1, 2, 3].map (fun c => [NvmOp.erase 6 c, NvmOp.prog 6 c 0 s.dev.newDesc])).flatten⟩)) ∧
    (∀ op : BitVec 24 → Instr, op = .readPage ∨ op = .programPage ∨ op = .eraseBlock →
      (s.dev.bit Reg.NVM_STAT_READY = false → r ≤ 5 → addr % 4 = 0 → s.dev.fld portNVM.busy = 0 →
        Completes (op 0) s (fun t => t.Ended s.dev portNVM 3 ∧ s.dev.Writes t [Reg.NVM_CMD_STATUS, Reg.EVR_LOSS])) ∧
      (5 < r → s.dev.fld portNVM.busy = 0 →
        Completes (op 0) s (fun t => t.Ended s.dev portNVM 2 ∧ s.dev.Writes t [Reg.NVM_CMD_STATUS]))) ∧
    (s.dev.nvm.sel ≠ 0 → s.dev.bit Reg.NVM_STAT_SCRUB_BUSY = false → s.dev.bit Reg.NVM_STAT_FROZEN = false →
      idle → s.dev.scrubOps none ≠ [] → Done (.scrubNow 0) s portNVM (fun t => t.bit Reg.NVM_STAT_SCRUB_BUSY = true ∧
        starts t ⟨.scrub, s.dev.scrubOps none⟩ ∧ quiet t [Reg.NVM_CMD_STATUS, Reg.NVM_STAT] ∧ t.evr = s.dev.evr)) ∧
    (∀ block : Option Nat,
      let due := served ∧ s.dev.bit Reg.NVM_STAT_SCRUB_BUSY = false ∧ ∀ b, block = some b →
        1000 * s.dev.atLeast1 Reg.NVM_SCRUB_READ_LIMIT_K ≤ sget zeroAt s.dev.nvm.reads b
      (¬due → Completes (.scrubPassStart block) s nothing) ∧
      (due → idle → s.dev.scrubOps block ≠ [] → Completes (.scrubPassStart block) s (fun t =>
        t.bit Reg.NVM_STAT_SCRUB_BUSY = true ∧ starts t ⟨.scrub, s.dev.scrubOps block⟩ ∧ quiet t [Reg.NVM_STAT] ∧
        t.evr = s.dev.evr))) ∧
    (∀ x w, s.dev.store = some x → s.dev.nvm.jobs = [] → s.dev.vio33Low = false → s.dev.bit Reg.NVM_QUEUE_EN = false → s.dev.nvm.ended = [] →
      s.dev.bit portNVM.busy = true →
      let ends (i : Instr) (P : Device → Prop) : Prop :=
        Completes i s (fun t => t.Ended s.dev portNVM 0 ∧ t.nvm.cur = none ∧ P t)
      (∀ a b p, s.dev.nvm.cur = some ⟨.read a, [.read w b p]⟩ → ∀ k, s.dev.phys w b = some k →
        served → pageErrs x (pageKey k p) = List.replicate (pageErrs x (pageKey k p)).length 0 →
        (s.dev.busWrite 7 a (pageBytes x (pageKey k p))).1 = true →
        ends (.nandOpComplete false []) (fun t =>
          (∀ n, n < x.page → t.byte (a + n) = (pageBytes x (pageKey k p))[n]?.getD 0) ∧
          s.dev.KeepsMemBut t a (pageBytes x (pageKey k p)).length)) ∧
      (∀ b p data, s.dev.nvm.cur = some ⟨.program, [.prog w b p data]⟩ → ∀ k, s.dev.phys w b = some k → served →
        ends (.nandOpComplete false []) (fun t => t.store = some (storeProg x k p data) ∧ s.dev.KeepsMem t ∧ t.ce = s.dev.ce)) ∧
      (∀ b, s.dev.nvm.cur = some ⟨.erase, [.erase w b]⟩ → ∀ k, s.dev.phys w b = some k → served →
        ends (.nandOpComplete false []) (fun t => t.store = some (storeErase x k) ∧ sget zeroAt t.nvm.reads k = 0 ∧
          s.dev.KeepsMem t ∧ t.ce = s.dev.ce)) ∧
      (∀ b p data, s.dev.nvm.cur = some ⟨.program, [.prog 5 b p data]⟩ → ∀ k, s.dev.phys 5 b = some k →
        sget noBlocks s.dev.nvm.spares 5 = [] → Completes (.nandOpComplete true []) s (fun t =>
          t.Ended s.dev portNVM 7 ∧ t.blockState k = 2 ∧ t.bit (Reg.NVM_REGB_EXHAUSTED 5) = true))) ∧
    (∀ fail flips, s.dev.nvm.cur = none → s.dev.nvm.ended = [] → Completes (.nandOpComplete fail flips) s nothing) ∧
    (let saves := s.dev.bit Reg.NVM_STAT_READY = true ∧ s.dev.bit Reg.NVM_STAT_FROZEN = true ∧ s.dev.bit Reg.NVM_STAT_SAVE_BUSY = false ∧
        s.dev.fld Reg.NVM_SAVE_RESULT = 0;
      (¬saves → Completes .powerFailSaveStart s nothing) ∧
      (saves → Completes .powerFailSaveStart s (fun t => t.bit Reg.NVM_STAT_SAVE_BUSY = true ∧
        t.bit Reg.EVR_STAT_FROZEN = false ∧
        (s.dev.rd Reg.IMG_P_SEQ = 0 → t.nvm.saved = some 2) ∧
        (s.dev.rd Reg.IMG_P_SEQ ≠ 0 → s.dev.erasedNext 3 = none → t.nvm.saved = some 3) ∧
        (∀ n x, s.dev.rd Reg.IMG_P_SEQ ≠ 0 → s.dev.erasedNext 3 = some n → s.dev.store = some x →
          s.dev.bit Reg.EVR_STAT_FROZEN = false → s.dev.nvm.cur = none → s.dev.nvm.jobs = [] →
          t.nvm.cur = some ⟨.save, [.record n (s.dev.recordOf x.page (mapGet s.dev.img.retained 0x7F0000 65536)
            s.dev.img.retVer s.dev.recentEvents)]⟩ ∧ quiet t [Reg.NVM_STAT] ∧ t.evr = s.dev.evr)))) ∧
    (∀ x, s.dev.store = some x →
      let n := s.dev.archPer
      let recs := s.dev.evr.archq.take n
      let data := Device.archBytes x.page recs
      let writes := served ∧ s.dev.bit Reg.EVR_STAT_ARCH_BUSY = false ∧ n ≤ s.dev.evr.archq.length ∧ n ≠ 0
      let takes (P : Device → Prop) : Prop := Completes .archivePageWrite s (fun t =>
        t.bit Reg.EVR_STAT_ARCH_BUSY = true ∧ t.evr.archq = s.dev.evr.archq.drop n ∧ quiet t [Reg.EVR_STAT] ∧ P t)
      (¬writes → Completes .archivePageWrite s nothing) ∧
      (writes → idle →
        (∀ b, sget noPos s.dev.nvm.pos 4 = some b → s.dev.nvm.archPage < x.ppb →
          takes (fun t => t.nvm.cur = some ⟨.archive recs, [.prog 4 b s.dev.nvm.archPage data]⟩)) ∧
        (sget noPos s.dev.nvm.pos 4 = none ∨ x.ppb ≤ s.dev.nvm.archPage →
          (∀ b, s.dev.nextBlock 4 = some b → takes (fun t => sget noPos t.nvm.pos 4 = some b ∧
            t.nvm.cur = some ⟨.archive recs,
              (if s.dev.erasedNext 4 = some b then [] else [.erase 4 b]) ++ [.prog 4 b 0 data]⟩)) ∧
          (s.dev.nextBlock 4 = none → Completes .archivePageWrite s (fun t => t.evr.archq = s.dev.evr.archq ∧
            t.bit Reg.EVR_STAT_ARCH_BUSY = false ∧ t.bit (Reg.NVM_REGB_EXHAUSTED 4) = true ∧
            s.dev.Logs t 0x34C [4] ∧ quiet t [Reg.EVR_STAT, Reg.NVM_REGB 4, Reg.EVR_LOSS]))))) ∧
    (let due := s.dev.evr.restoreDue = true ∧ s.dev.evrLive = true ∧ (2 ≤ s.dev.sys.level → 6 ≤ s.dev.sys.stage);
      (¬due → Completes .logRestore s nothing) ∧
      (due → Completes .logRestore s (fun t => t.evr.restoreDue = false ∧ s.dev.KeepsMem t ∧ t.ce = s.dev.ce ∧
        (s.dev.newestRecord = none → s.dev.bit (Reg.TASK_ROUTE_EN 0xF0) = false → t.rd Reg.EVR_ESEQ = 0 ∧
          ∃ lo hi, s.dev.Logs t 0x3E4 [0, lo, hi, 0]) ∧
        (∀ q b l, s.dev.newestRecord = some (q, b, l) →
          let rs := (List.range (numAt l 36 2)).map (fun i => EvRec.ofNative ((l.drop (65600 + 64 * i)).take 64))
          rs ≠ [] → t.rd Reg.EVR_ESEQ = wd (highEseq rs + 1) ∧
          (s.dev.bit (Reg.TASK_ROUTE_EN 0xF0) = false →
            s.dev.Logs t 0x3E4 [wd rs.length, wd (lowEseq rs), wd (highEseq rs), wd q]) ∧
          (s.dev.evr.log = [] → rs.length ≤ 4096 →
            ∀ e ∈ rs, ∃ k, k < 4096 ∧ sget noRec t.evr.log k = some { e with restored := true })))))

/-! ## Start and update -/

/-- R478, R482, R484, R487–R490, R492, R493, R495: the host writes a bundle and a configuration through jobs of the manager; a
check that fails ends with code 3; the activation page and the reset that follows it; the key hash; the kept record; RESTART;
boot from the host and from Kloul, and the no-service state where it fails. -/
def Obligations.StartAndUpdate : Prop :=
  ∀ s : State,
    let d := s.dev
    let quiet (t : Device) (l : List Nat) : Prop := d.KeepsRegs t (Reg.SF_GATE :: l) ∧ d.KeepsMem t ∧ t.ce = d.ce
    let nothing (t : Device) : Prop := d.Writes t [] ∧ t.evr = d.evr
    let free := d.nvm.cur = none ∧ d.nvm.jobs = [] ∧ d.nvm.ended = []
    let granted := d.perm permBundle = true
    let ready := d.bit Reg.NVM_STAT_READY = true
    let jobs (i : Instr) (j : NvmJob) : Prop := Begun i s portLDR (fun t => t.nvm.cur = some j ∧ t.nvm.jobs = [] ∧
      d.KeepsMem t)
    let refused (i : Instr) (code : Nat) : Prop := d.fld portLDR.busy = 0 → Completes i s (fun t =>
      t.Ended d portLDR code ∧ d.KeepsMem t)
    let loads (i : Instr) (b : List Byte) (P : Device → Prop) : Prop := Completes i s (fun t =>
      t.ldr.bundle = b ∧ t.rd Reg.LDR_BUNDLE_ID = wd (bundleId b) ∧ t.fld Reg.LDR_STAT_SLOT_RUN = 3 ∧
      t.tick.released = true ∧ t.ldr.phase = (if t.isLane then 4 else 5) ∧ (∀ e : Eng, t.engState e = stReady) ∧ P t)
    let halts (t : Device) (cause : Nat) : Prop := t.fld Reg.LDR_STAT_NOSVC_CAUSE = cause ∧
      t.bit Reg.SYS_ROLE_NO_SERVICE = true ∧ t.tick.released = false ∧ t.tri.laneOk = false ∧
      (t.rd Reg.SF_SLUICE_STAT).toNat.testBit slStart = true ∧ ∀ c, c < 24 → t.driverOff c
    (∀ k : Fin 3,
      let base := (d.target k).2.1
      let room := (d.target k).2.2
      let n := d.fld Reg.LDR_LEN_VALUE / max 1 d.pageSize
      let src := d.fld Reg.LDR_SRC_VALUE
      let at0 := d.fld (Reg.LDR_WPTR_PAGE k)
      let arg : BitVec 24 := BitVec.ofNat 24 k
      let ops : List NvmOp := (List.range ((room + (if k.val = 0 then 1 else 2)) / max 1 d.ppb)).map (fun i =>
        .erase (d.target k).1 (base / max 1 d.ppb + i))
      (granted → d.targetFree k = true → free → ops ≠ [] → jobs (.regionErase arg) ⟨.regionErase k, ops⟩) ∧
      (granted → d.targetFree k = false → refused (.regionErase arg) 3) ∧
      (¬granted → refused (.regionErase arg) 4) ∧
      (d.pageSize ≠ 0 → d.fld Reg.LDR_LEN_VALUE % d.pageSize = 0 → src % 4 = 0 → src + d.fld Reg.LDR_LEN_VALUE ≤ 0x800000 →
        (at0 + n ≤ room → granted → d.targetFree k = true → free → n ≠ 0 →
          ∀ l, d.busRead 3 src (d.fld Reg.LDR_LEN_VALUE) = (some l, d) → jobs (.regionWrite arg) ⟨.regionWrite k n,
            (List.range n).map (fun i => d.progOp (d.target k).1 (base + at0 + i) ((l.drop (i * d.pageSize)).take d.pageSize))⟩) ∧
        (at0 + n ≤ room → granted → d.targetFree k = false → refused (.regionWrite arg) 3) ∧
        (room < at0 + n → refused (.regionWrite arg) 2))) ∧
    (∀ k : Nat, k = 1 ∨ k = 2 →
      let arg : BitVec 24 := BitVec.ofNat 24 k
      let x := d.armReason k
      (granted → ready → d.slotPending (3 - k) = false → d.fld portLDR.busy = 0 →
        (x.1 ≠ 0 → Completes (.slotArm arg) s (fun t => t.fld portLDR.busy = 0 ∧ t.fld portLDR.code = 3 ∧
          bitsOf (t.rd (slotReg k)) 16 4 = x.1 ∧ d.KeepsMem t)) ∧
        (x.1 = 0 → free →
          let a := x.2.2.slotRead 1
          let b := a.2.slotRead 2
          let seq := 1 + max (if a.1.armed then a.1.seq else 0) (if b.1.armed then b.1.seq else 0)
          jobs (.slotArm arg) ⟨.arm k (wd (bundleId x.2.1)) (bundleAct x.2.1),
            [b.2.progOp k (b.2.regPages k - 2) (trailerPage seq x.2.1)]⟩)) ∧
      (granted → d.slotPending (3 - k) = true → refused (.slotArm arg) 3) ∧
      (granted → ready → d.slotPending k = true → free → jobs (.slotDisarm arg) ⟨.disarm k,
        [d.progOp k (d.regPages k - 1) (actPage 2 d.tick.boundaryTs)]⟩) ∧
      (granted → d.slotPending k = false → refused (.slotDisarm arg) 3)) ∧
    (granted → ready → d.fld (Reg.LDR_WPTR_PAGE 0) ≠ 0 → ∀ l x, d.copyImage d.otherCopy = (some l, x) →
      (x.cfgValid l = true → free → jobs (.cfgCommit 0) ⟨.commitCfg (cfgSeq l),
        [x.progOp 0 (x.copyBase d.otherCopy + x.copyPagesN - 1) (commitPage l)]⟩) ∧
      (x.cfgValid l = false → d.fld portLDR.busy = 0 → Completes (.cfgCommit 0) s (fun t =>
        t.fld portLDR.busy = 0 ∧ t.fld portLDR.code = 3 ∧ d.KeepsMem t))) ∧
    (¬granted → refused (.cfgCommit 0) 4) ∧
    (granted → d.sys.pkh = 0 → d.bit Reg.LDR_STAT_SIG_REQ = true → Done (.pkhProgram 0) s portLDR (fun t =>
      t.sys.pkh = sha256 (natsOf (cfgKey d.ldr.cfg)) ∧ t.bit Reg.LDR_STAT_PKH_SET = true ∧
      d.Logs t 0x38F [t.rd (Reg.LDR_PKH 0)] ∧
      quiet t (Reg.LDR_CMD_STATUS :: Reg.LDR_STAT :: Reg.EVR_LOSS :: (List.range 8).map Reg.LDR_PKH))) ∧
    (granted → d.sys.pkh ≠ 0 ∨ d.bit Reg.LDR_STAT_SIG_REQ = false → refused (.pkhProgram 0) 3) ∧
    (d.perm permClear = true → d.bit Reg.LDR_KEPT_VALID = true → Done (.releaseKept 0) s portLDR (fun t =>
      t.nvm.kept = none ∧ t.rd Reg.LDR_KEPT = 0 ∧ quiet t [Reg.LDR_CMD_STATUS, Reg.LDR_KEPT] ∧ t.evr = d.evr)) ∧
    (granted ∨ d.bit Reg.SYS_ROLE_NO_SERVICE = true → Begun (.restart 0) s portLDR (fun t =>
      t.sys.request.testBit srcSwCore = true ∧ quiet t [Reg.LDR_CMD_STATUS] ∧ t.evr = d.evr)) ∧
    (∀ k r b p data, d.nvm.cur = some ⟨.activate k, [.prog r b p data]⟩ → d.nvm.jobs = [] → d.nvm.ended = [] →
      d.bit Reg.NVM_QUEUE_EN = false → d.vio33Low = false → ∀ n, d.phys r b = some n →
      let id := (d.ldr.armed.map (fun x => x.1)).getD (d.rd Reg.LDR_BUNDLE_ID)
      Completes (.activationPageDone false) s (fun t => t.sys.request.testBit srcActivate = true ∧ t.nvm.cur = none ∧
        (∀ x, d.store = some x → t.store = some (storeProg x n p data)) ∧ d.KeepsMem t ∧ t.ce = d.ce) ∧
      (r = 1 ∨ r = 2 → ∀ sp l, sget noBlocks d.nvm.spares r = sp :: l → Completes (.activationPageDone true) s (fun t =>
        t.sys.request = d.sys.request ∧ d.Logs t 0x38B [wd k, id, 1] ∧
        t.nvm.cur = some ⟨.tidy, [.relocate r b sp none (some 0) 0]⟩ ∧ d.KeepsMem t ∧ t.ce = d.ce))) ∧
    (∀ fail, d.nvm.cur = none → Completes (.activationPageDone fail) s nothing) ∧
    (∀ (pins : BitVec 8) (loop : Bool),
      let a := d.fld Reg.LDR_SRC_VALUE
      let b := d.fld Reg.LDR_BSRC_VALUE
      (d.ldr.phase ≠ 1 → a % 4 = 0 → b % 4 = 0 → a + 16 ≤ 0x7F0000 → b + 16 ≤ 0x7F0000 → refused (.hostGo 0 pins loop) 3) ∧
      (d.ldr.phase = 1 → a % 4 = 0 → b % 4 = 0 → a + 16 ≤ 0x7F0000 → b + 16 ≤ 0x7F0000 → d.fld portLDR.busy = 0 →
        ∀ l x, d.sdmImage a 8 (0x7F0000 - a) = (some l, x) →
        (x.cfgValid l = false → Completes (.hostGo 0 pins loop) s (fun t => t.fld portLDR.code = 3 ∧ t.ldr.phase = 1 ∧
          d.KeepsMem t)) ∧
        (∀ y m z, x.cfgValid l = true → x.configStep (l.take (cfgLen l)) pins.toNat loop = (true, y) →
          y.sdmImage b 12 (0x7F0000 - b) = (some m, z) → z.bundleReason z.ldr.cfg m (0x7F0000 - b) = 0 →
          (∀ e : Eng, z.bit (Reg.CE_TEST_PASS e) = true) →
          loads (.hostGo 0 pins loop) m (fun t => t.fld portLDR.code = 0)))) ∧
    (d.ldr.phase = 2 → d.klState 0 ≠ 6 → Completes .kloulBootPortTimeout s (fun t => t.ldr.phase = 3 ∧
      (d.klState 1 ≠ 6 → (t.klPort 1).waiting = (d.klPort 1).waiting ++ [⟨pBOOT, (d.klPort 1).tx, false, []⟩]) ∧
      quiet t [] ∧ t.evr = d.evr)) ∧
    (d.ldr.phase ≠ 2 ∨ d.klState 0 = 6 → Completes .kloulBootPortTimeout s nothing) ∧
    (∀ (p : Fin 3) (cfg b : List Byte) (pins : BitVec 8) (loop : Bool),
      (d.ldr.bundle ≠ [] → 4 ≤ d.ldr.phase → d.klState p = 6 → (d.klPort p).unacked.length < 32 →
        d.bit Reg.SYS_ROLE_NO_SERVICE = false → Completes (.bootParcelReceived p true cfg b pins loop) s (fun t =>
          t.sent.head? = some (.parcel p ⟨pBOOT, (d.klPort p).tx, false, pad8 (d.ldr.cfg ++ d.ldr.bundle)⟩) ∧
          (t.klPort p).rx = ((d.klPort p).rx + 1) % 65536 ∧ quiet t [] ∧ t.evr = d.evr)) ∧
      (p.val < 2 → d.ldr.phase = 2 + p.val →
        (d.cfgValid cfg = false →
          (p.val = 0 → Completes (.bootParcelReceived p false cfg b pins loop) s (fun t => t.ldr.phase = 3 ∧
            d.KeepsMem t)) ∧
          (p.val = 1 → Completes (.bootParcelReceived p false cfg b pins loop) s (fun t => halts t 7 ∧ d.KeepsMem t))) ∧
        (∀ y, d.cfgValid cfg = true → (d.gotParcel p).configStep cfg pins.toNat loop = (true, y) →
          y.bundleReason y.ldr.cfg b b.length = 0 → (∀ e : Eng, y.bit (Reg.CE_TEST_PASS e) = true) →
          loads (.bootParcelReceived p false cfg b pins loop) b (fun _ => True)) ∧
        (∀ y, d.cfgValid cfg = true → (d.gotParcel p).configStep cfg pins.toNat loop = (false, y) →
          Completes (.bootParcelReceived p false cfg b pins loop) s (fun t => halts t 2))))

/-! ## Resets, clocks, power -/

/-- R65, R388, R466, R467, R543–R559: a source asserts and the level deepens, or is deferred while a save runs; what a reset
leaves of registers and memories, and every output off; sources end; the stages of the release; straps, trims, clocks; the
commands RESET_CORE and RESET_SYS; the end of a save. -/
def Obligations.ResetsAndClocks : Prop :=
  ∀ s : State,
    let d := s.dev
    let quiet (t : Device) (l : List Nat) : Prop := d.KeepsRegs t (Reg.SF_GATE :: l) ∧ d.KeepsMem t ∧ t.ce = d.ce
    let nothing (t : Device) : Prop := d.Writes t [] ∧ t.evr = d.evr
    let up (f : Fld) : Nat := min (d.fld f + 1) (2 ^ f.width - 1)
    let levelOf (src : Nat) : Nat := if src < 2 then 3 else if src < 7 then 2 else 1
    let asserts (t : Device) (src : Nat) : Prop :=
      t.sys.level = max d.sys.level (levelOf src) ∧ t.sys.asserted.testBit src = true ∧
      t.sys.request.testBit src = false ∧ t.sys.stage = (if t.sys.level = 1 then 5 else 0) ∧
      (∀ a, a ≠ Reg.SF_GATE → resetKeeps t.sys.level a = 0 → t.rd a = regReset a) ∧
      (t.sys.level = 1 → t.mem = d.mem) ∧ (2 ≤ t.sys.level → t.mem = [] ∧ t.larea = [] ∧ t.prog = []) ∧
      ∀ c, c < 24 → t.driverOff c
    (∀ src : Fin 12,
      let deferred := d.bit Reg.NVM_STAT_SAVE_BUSY = true ∧ 6 ≤ src.val ∧ src.val ≤ 8
      (d.srcHolds src = false → Completes (.resetSourceAssert src) s nothing) ∧
      (d.srcHolds src = true → deferred → Completes (.resetSourceAssert src) s (fun t =>
        t.sys.deferred.testBit src = true ∧ t.sys.level = d.sys.level ∧ quiet t [] ∧ t.evr = d.evr)) ∧
      (d.srcHolds src = true → ¬deferred → d.sys.level ≤ 3 → Completes (.resetSourceAssert src) s (asserts · src)) ∧
      (d.srcEnds src = true → Completes (.resetSourceNegate src) s (fun t => t.sys.asserted.testBit src = false ∧
        t.sys.level = d.sys.level ∧ quiet t [] ∧ t.evr = d.evr)) ∧
      (d.srcEnds src = false → Completes (.resetSourceNegate src) s nothing)) ∧
    (∀ b : Board,
      let goes (P : Device → Prop) : Prop := d.sys.level ≠ 0 → d.sys.asserted = 0 → Completes (.resetStageRelease b) s P
      (d.sys.level = 0 ∨ d.sys.asserted ≠ 0 → Completes (.resetStageRelease b) s nothing) ∧
      (d.sys.stage = 0 → goes (fun t => if b.clocks.testBit 0 = true ∧ majority3 2 b.clkmode ≠ 3
        then t.sys.stage = 1 ∧ t.fld Reg.SYS_STRAP_ROLE = majority3 3 b.roles ∧
          t.fld Reg.SYS_STRAP_BOOT = majority3 2 b.boot ∧ t.role = majority3 3 b.roles
        else t.sys.stage = 0 ∧ t.sys.asserted.testBit srcClkLoss = true)) ∧
      (d.sys.stage = 1 → goes (fun t => t.sys.stage = 2 ∧ quiet t [] ∧ t.evr = d.evr)) ∧
      (d.sys.stage = 2 → d.bit Reg.SYS_TRIM_STAT_VALID = false → goes nothing) ∧
      (d.sys.stage = 2 → d.bit Reg.SYS_TRIM_STAT_VALID = true → goes (fun t => t.sys.stage = 3 ∧
        t.rd Reg.SYS_CLK_STAT = d.rd Reg.SYS_CLK_STAT ||| 0xE ∧ quiet t [Reg.SYS_CLK_STAT] ∧ t.evr = d.evr)) ∧
      (d.sys.stage = 3 → goes (fun t => t.sys.stage = 4 ∧ (∀ a, t.byte a = 0) ∧ t.larea = [] ∧ t.prog = [] ∧
        t.ce.ecc = [] ∧ t.sys.waiting = [])) ∧
      (d.sys.stage = 4 → goes (fun t => t.sys.stage = 5 ∧ t.tb.ns = 0 ∧
        t.tb.sec = (if d.bit Reg.PWR_STBY_STAT_VALID then d.stbySec else 0) ∧ quiet t [] ∧ t.evr = d.evr)) ∧
      (d.sys.stage = 5 → goes (fun t => t.sys.stage = (if d.sys.level = 1 then 8 else 6) ∧
        quiet t ((List.range 8).map Reg.LDR_PKH) ∧ t.evr = d.evr)) ∧
      (d.sys.stage = 6 → goes (fun t => t.sys.stage = 7 ∧ t.bit Reg.SYS_CLK_STAT_PCIE_LOCK = b.clocks.testBit 4 ∧
        quiet t [Reg.SYS_CLK_STAT] ∧ t.evr = d.evr)) ∧
      (d.sys.stage = 7 → goes (fun t => t.sys.stage = 8 ∧ d.KeepsMem t ∧ t.ce = d.ce ∧
        t.bitAt ⟨Reg.SF_SLUICE_STAT, 0, 24⟩ slStart = true ∧ ∀ c, c < 24 → t.driverOff c)) ∧
      (d.sys.stage = 8 → b.sluiceFail = none → d.fld Reg.SYS_STRAP_BOOT = 3 → goes (fun t => t.sys.level = 0 ∧
        t.sys.stage = 9 ∧ t.sys.during = 0 ∧ t.ldr.phase = 1 ∧ t.bit Reg.SYS_ROLE_NO_SERVICE = false ∧
        t.rd Reg.SYS_RST_LAST = wd (d.sys.level * 65536 + d.sys.during) ∧
        t.rd Reg.SYS_RST_CAUSE = d.rd Reg.SYS_RST_CAUSE ||| wd d.sys.during ∧ t.rd Reg.SF_TEST = 0xC0000000)) ∧
      (∀ f, d.sys.stage = 8 → b.sluiceFail = some f → goes (fun t => t.sys.level = 0 ∧
        t.bit Reg.SYS_ROLE_NO_SERVICE = true ∧ t.fld Reg.LDR_STAT_NOSVC_CAUSE = 5 ∧ ∀ c, c < 24 → t.driverOff c))) ∧
    (∀ pass : Bool,
      let tries := 2 ≤ d.sys.level ∧ d.sys.asserted = 0 ∧ d.sys.stage = 2 ∧ d.bit Reg.SYS_TRIM_STAT_VALID = false ∧
        d.sys.trimStop = false
      (¬tries → Completes (.trimLoadDone pass) s nothing) ∧
      (tries → Completes (.trimLoadDone pass) s (fun t => t.fld Reg.SYS_TRIM_STAT_ATTEMPTS = up Reg.SYS_TRIM_STAT_ATTEMPTS ∧
        t.bit Reg.SYS_TRIM_STAT_VALID = pass ∧ d.KeepsMem t ∧ t.ce = d.ce ∧
        (pass = true → t.fld Reg.DEV_ID_STEP = 0x0B ∧ ∀ m : Fin 20,
          t.rd (Reg.SIG_MODCAL_OFF m) = Config.trimOff m ∧ t.rd (Reg.SIG_MODCAL_GAIN m) = Config.trimGain m) ∧
        (pass = false → t.fld Reg.SYS_TRIM_STAT_FAILS = up Reg.SYS_TRIM_STAT_FAILS ∧ quiet t [Reg.SYS_TRIM_STAT] ∧
          (t.sys.trimStop = true ↔ 4 ≤ up Reg.SYS_TRIM_STAT_ATTEMPTS))))) ∧
    (∀ (boot clk roles : List Nat) (ref : Bool),
      let again := d.sys.asserted.testBit srcClkLoss = true ∧ d.sys.lockedOnce = 0
      (¬again → Completes (.strapResample boot clk roles ref) s nothing) ∧
      (again → Completes (.strapResample boot clk roles ref) s (fun t => t.role = majority3 3 roles ∧
        t.fld Reg.SYS_STRAP_CLKMODE = majority3 2 clk ∧ t.fld Reg.SYS_STRAP_BOOT = majority3 2 boot ∧
        t.sys.asserted.testBit srcClkLoss = !(ref && majority3 2 clk != 3) ∧
        quiet t [Reg.SYS_STRAP, Reg.SYS_ROLE, Reg.SYS_CLK_STAT, Reg.EVR_LOSS]))) ∧
    (∀ k : Fin 7,
      (d.bit (clkBit k) = false → Completes (.clockLoss k) s nothing) ∧
      (d.bit (clkBit k) = true →
        (k.val = 0 → d.sys.level ≤ 3 → Completes (.clockLoss k) s (asserts · srcClkLoss)) ∧
        (k.val = 1 ∨ k.val = 2 → d.sys.level ≤ 3 → Completes (.clockLoss k) s (asserts · srcPllLoss)) ∧
        (2 < k.val → Completes (.clockLoss k) s (fun t => t.bit (clkBit k) = false ∧
          t.rd Reg.SYS_CLK_FLAGS = d.rd Reg.SYS_CLK_FLAGS ||| wd (2 ^ k.val) ∧ d.KeepsMem t ∧ t.ce = d.ce ∧
          (k.val = 3 → ∀ p, p < 3 → d.klState p ≠ 0 → d.klState p ≠ 7 → t.klState p = 1) ∧
          (k.val = 4 → d.hpLive = false → d.Logs t 0x00B [t.rd Reg.SYS_CLK_STAT]) ∧
          (k.val = 5 → t.fld Reg.SBG_STAT_STATE = gdOFF ∧ t.bit Reg.SBG_STAT_GATE = false ∧ d.Logs t 0x008 [1]) ∧
          (k.val = 6 → t.bit Reg.PWR_STBY_STAT_VALID = false ∧ d.Logs t 0x009 [t.rd Reg.SYS_CLK_STAT])))) ∧
      (d.mayReturn k = false → Completes (.clockReturn k) s nothing) ∧
      (d.mayReturn k = true → Completes (.clockReturn k) s (fun t => t.bit (clkBit k) = true ∧ d.KeepsMem t ∧ t.ce = d.ce ∧
        (k.val = 0 → t.sys.asserted.testBit srcClkLoss = false) ∧
        (k.val = 1 → d.bit Reg.SYS_CLK_STAT_TB_LOCK = true → t.sys.asserted.testBit srcPllLoss = false) ∧
        (k.val = 2 → d.bit Reg.SYS_CLK_STAT_MAIN_LOCK = true → t.sys.asserted.testBit srcPllLoss = false) ∧
        (k.val = 5 → d.Logs t 0x008 [0] ∧ (d.bit Reg.SBG_CFG_EN = true → t.fld Reg.SBG_STAT_STATE =
          if d.fld Reg.SBG_STAT_CLOSE_CAUSE ≠ 0 then gdCLOSED else gdLISTEN)) ∧
        (k.val ≠ 5 → quiet t [Reg.SYS_CLK_STAT] ∧ t.evr = d.evr)))) ∧
    (∀ (c : BitVec 24 → Instr) (src : Nat), c = .resetCore ∧ src = srcSwCore ∨ c = .resetSys ∧ src = srcSwSys →
      let may := d.perm permBundle = true ∨ d.bit Reg.SYS_ROLE_NO_SERVICE = true
      (may → d.bit Reg.NVM_STAT_SAVE_BUSY = false → Begun (c 0) s portSYS (fun t =>
        t.sys.request.testBit src = true ∧ quiet t [Reg.SYS_CMD_STATUS] ∧ t.evr = d.evr)) ∧
      (may → d.bit Reg.NVM_STAT_SAVE_BUSY = true → d.fld portSYS.busy = 0 → Completes (c 0) s (fun t =>
        t.Ended d portSYS 3 ∧ d.Writes t [Reg.SYS_CMD_STATUS, Reg.EVR_LOSS])) ∧
      (¬may → d.fld portSYS.busy = 0 → Completes (c 0) s (fun t => t.Ended d portSYS 4 ∧
        d.Writes t [Reg.SYS_CMD_STATUS, Reg.EVR_LOSS]))) ∧
    (∀ (us : Nat) (r : Fin 16),
      (d.nvm.saved = none → Completes (.powerFailSaveEnd us) s nothing) ∧
      (d.nvm.saved = some r.val → d.sys.deferred = 0 → Completes (.powerFailSaveEnd us) s (fun t =>
        t.bit Reg.NVM_STAT_SAVE_BUSY = false ∧ t.fld Reg.NVM_SAVE_RESULT = r ∧ t.nvm.saved = none ∧
        quiet t [Reg.NVM_STAT, Reg.NVM_SAVE, Reg.NVM_CNT, Reg.EVR_LOSS] ∧
        (r.val = 1 → us < 6553600 → t.fld Reg.NVM_SAVE_DUR_100US = us / 100 ∧
          d.Logs t 0x34A [d.rd Reg.NVM_RSEQ, wd d.recentEvents.length, wd us]) ∧
        (r.val ≠ 1 → t.fld Reg.NVM_CNT_SAVES_FAILED = up Reg.NVM_CNT_SAVES_FAILED ∧ d.Logs t 0x34B [wd r]))) ∧
      (d.nvm.saved = some r.val → d.sys.deferred.testBit srcSwCore = true → Completes (.powerFailSaveEnd us) s (fun t =>
        t.sys.asserted.testBit srcSwCore = true ∧ t.sys.level ≠ 0 ∧ t.sys.deferred = 0))) ∧
    (let resumes := d.bit Reg.NVM_STAT_FROZEN = true ∧ d.bit Reg.NVM_STAT_SAVE_BUSY = false ∧
        d.fld Reg.NVM_SAVE_RESULT ≠ 0 ∧ d.pwr.warnNow = 0;
      (resumes → Completes .pfailResume s (fun t => t.sys.request.testBit srcPfailResume = true ∧ quiet t [] ∧
        t.evr = d.evr)) ∧
      (¬resumes → Completes .pfailResume s nothing))

/-- R562, R563, R565–R567, R573, R575: a rail crosses a threshold: state, monitor, event, and beyond its limits a gate-off and
a reset request; a warning starts the freeze; temperatures and ring oscillators; the standby counter and the wake alarm. -/
def Obligations.SupplyAndStandby : Prop :=
  ∀ s : State,
    let d := s.dev
    let quiet (t : Device) (l : List Nat) : Prop := d.KeepsRegs t (Reg.SF_GATE :: l) ∧ d.KeepsMem t ∧ t.ce = d.ce
    let nothing (t : Device) : Prop := d.Writes t [] ∧ t.evr = d.evr
    (∀ (r : Fin 6) (st : Fin 4) (mv : BitVec 16),
      let x : Instr := .supplyThresholdCross r st mv.toNat
      (railHas r st = false ∨ d.railState r = st → Completes x s nothing) ∧
      (railHas r st = true → d.railState r ≠ st → Completes x s (fun t => t.railState r = st ∧
        (∀ k : Fin 6, k ≠ r → t.railState k = d.railState k) ∧ t.fld (Reg.PWR_VMON_MV r) = mv.toNat ∧
        (t.rd Reg.PWR_SUP_STAT).toNat &&& railMask r = railBits r st ∧
        (r.val < 5 → 2 ≤ st.val → t.sys.request.testBit srcPwrReq = true ∧
          (t.rd Reg.SF_SLUICE_STAT).toNat.testBit slSupply = true ∧ ∀ c, c < 24 → t.driverOff c) ∧
        (r.val = 5 → quiet t [Reg.PWR_SUP_STAT, Reg.PWR_SUP_FLAGS, Reg.PWR_VMON r, Reg.EVR_LOSS, Reg.PWR_STBY_STAT,
            Reg.PWR_STBY_SEC_LO, Reg.PWR_STBY_SEC_HI, Reg.PWR_ALARM_LO, Reg.PWR_ALARM_HI] ∧
          d.Logs t 0x3F0 [wd r, wd st, wd mv.toNat] ∧
          (st.val = 1 → t.bit Reg.PWR_STBY_STAT_VALID = false ∧ t.stbySec = 0 ∧ t.rd Reg.PWR_ALARM_LO = 0)) ∧
        (r.val < 5 → st.val < 2 → t.railBad = false → d.nvm.jobs = [] →
          quiet t [Reg.PWR_SUP_STAT, Reg.PWR_SUP_FLAGS, Reg.PWR_VMON r, Reg.EVR_LOSS] ∧
          d.Logs t 0x3F0 [wd r, wd st, wd mv.toNat])))) ∧
    (∀ src : Fin 3,
      let rail := if src.val = 1 then 0 else 3
      let holds := src.val = 0 ∨ d.bit Reg.PWR_CFG_PFW_INT = true ∧ (d.railState rail = 1 ∨ d.railState rail = 2)
      (¬holds ∨ d.pwr.warnNow.testBit src = true → Completes (.internalWarning src) s nothing) ∧
      (holds → d.pwr.warnNow.testBit src = false → Completes (.internalWarning src) s (fun t =>
        t.pwr.warnNow.testBit src = true ∧ t.pwr.warned = true ∧ t.bit Reg.PWR_SUP_STAT_PFW = true ∧
        t.bit Reg.PWR_SUP_FLAGS_PFW = true ∧
        (d.pwr.warned = true → quiet t [Reg.PWR_SUP_STAT, Reg.PWR_SUP_FLAGS, Reg.EVR_LOSS] ∧ d.Logs t 0x3F1 [wd src]) ∧
        (d.pwr.warned = false → d.tick.started = true → d.bit Reg.TICK_STATUS_FROZEN = false →
          t.tick.stopNext = true ∧ d.KeepsMem t ∧ t.ce = d.ce ∧
          (d.bit (Reg.TASK_ROUTE_EN 0xEB) = false → d.Logs t 0x3F1 [wd src])) ∧
        (d.pwr.warned = false → d.tick.started = false → t.bit Reg.TICK_STATUS_FROZEN = true ∧
          t.bit Reg.NVM_STAT_FROZEN = true ∧ t.bit Reg.EVR_STAT_FROZEN = false)))) ∧
    (∀ (t0 t1 t2 t3 : Int) (mv : List Nat) (shut : Bool),
      let l := [t0, t1, t2, t3]
      let x : Instr := .tempSample l mv shut
      (∀ v ∈ l, -1000 < v ∧ v < 2000) → Completes x s (fun t =>
        (∀ n : Fin 4, t.sfld (Reg.PWR_TEMP_T_01C n) = l[n] ∧ t.tempMax n = max (d.tempMax n) l[n]) ∧
        (∀ n v, mv[n]? = some v → n < 6 → t.fld (Reg.PWR_VMON_MV n) = v % 65536) ∧
        ((∃ v ∈ l, 1450 < v) → t.bit Reg.PWR_SUP_STAT_HOT = true ∧ t.sys.request.testBit srcPwrReq = true) ∧
        ((∀ v ∈ l, v ≤ 1350) → t.sys.request = d.sys.request) ∧
        ((∀ v ∈ l, v < 1250) → t.bit Reg.PWR_SUP_STAT_HOT = false) ∧
        quiet t (Reg.PWR_SUP_STAT :: Reg.PWR_SUP_FLAGS :: Reg.EVR_LOSS :: ((List.range 4).map Reg.PWR_TEMP
          ++ (List.range 6).map Reg.PWR_VMON)))) ∧
    (∀ (n : Fin 4) (ppm : Int),
      let slow := (d.fld Reg.PWR_CFG_AGE_WARN_PPM : Int) < ppm ∧ d.pwr.aged.testBit n = false
      Completes (.ringOscMeasure n ppm) s (fun t => t.rd (Reg.PWR_PMON n) = wdi ppm ∧
        (¬slow → d.Writes t [Reg.PWR_PMON n] ∧ t.evr = d.evr) ∧
        (slow → t.pwr.aged.testBit n = true ∧ quiet t [Reg.PWR_PMON n, Reg.EVR_LOSS] ∧
          d.Logs t 0x3F5 [wd n, wdi ppm]))) ∧
    (d.tbLocked = true → Completes .stbySecondCopy s (fun t => t.stbySec = d.tb.sec % 2 ^ 48 ∧
      t.fld Reg.PWR_STBY_STAT_FRAC = 0 ∧ t.bit Reg.PWR_STBY_STAT_VALID = true ∧
      t.bit Reg.PWR_STBY_STAT_WAKE = d.bit Reg.PWR_STBY_STAT_WAKE ∧
      quiet t [Reg.PWR_STBY_STAT, Reg.PWR_STBY_SEC_LO, Reg.PWR_STBY_SEC_HI] ∧ t.evr = d.evr)) ∧
    (d.tbLocked = false → Completes .stbySecondCopy s nothing) ∧
    (let rings := d.bit Reg.PWR_CFG_ALARM_EN = true ∧ d.bit Reg.PWR_STBY_STAT_WAKE = false ∧
        d.stbySec = d.fld Reg.PWR_ALARM_HI_SEC * 2 ^ 32 + (d.rd Reg.PWR_ALARM_LO).toNat;
      (rings → Completes .wakeAlarm s (fun t => t.bit Reg.PWR_STBY_STAT_WAKE = true ∧ t.pwr.wakeWait = true ∧
        t.stbySec = d.stbySec ∧ quiet t [Reg.PWR_STBY_STAT] ∧ t.evr = d.evr)) ∧
      (¬rings → Completes .wakeAlarm s nothing)) ∧
    Done (.clearWake 0) s portPWR (fun t => t.bit Reg.PWR_STBY_STAT_WAKE = false ∧
      d.Writes t [Reg.PWR_CMD_STATUS, Reg.PWR_STBY_STAT] ∧ t.evr = d.evr)

/-! ## Host port and registers -/

/-- R496, R497, R505, R507, R508, R511: the link, configuration requests, pending messages, pins, bridge resets, and a DMA
transfer from its command to its end. -/
def Obligations.HostBridge : Prop :=
  ∀ s : State,
    let d := s.dev
    let quiet (t : Device) (l : List Nat) : Prop := d.KeepsRegs t (Reg.SF_GATE :: l) ∧ d.KeepsMem t ∧ t.ce = d.ce
    let nothing (t : Device) : Prop := d.Writes t [] ∧ t.evr = d.evr
    let up (f : Fld) : Nat := min (d.fld f + 1) (2 ^ f.width - 1)
    let linked := d.hpLive = true ∧ d.bit Reg.HP_LINK_LINK_UP = true
    (∀ x2 gen2,
      let trains := d.hpLive = true ∧ d.bit Reg.SYS_CLK_STAT_PCIE_LOCK = true
      (¬trains → Completes (.pcieLinkUp x2 gen2) s nothing) ∧
      (trains → Completes (.pcieLinkUp x2 gen2) s (fun t => t.bit Reg.HP_LINK_LINK_UP = true ∧
        t.fld Reg.HP_LINK_WIDTH = (if x2 then 2 else 1) ∧ t.fld Reg.HP_LINK_SPEED = (if gen2 then 2 else 1) ∧
        t.bit Reg.HP_LINK_BME = d.bit Reg.HP_LINK_BME ∧ d.Writes t [Reg.HP_LINK] ∧ t.evr = d.evr))) ∧
    (∀ (a : CfgAccess) (waiting : Bool),
      let x : Instr := .pcieConfigAccess a waiting
      let serves (P : Device → Prop) : Prop := linked → d.hp.ready = true ∨ waiting = false → Completes x s (fun t =>
        t.hp.ready = true ∧ t.sent = .config false :: d.sent ∧ quiet t [Reg.HP_LINK] ∧ t.evr = d.evr ∧ P t)
      (¬linked → Completes x s nothing) ∧
      (linked → d.hp.ready = false → waiting = true → Completes x s (fun t => t.sent = .config true :: d.sent ∧
        t.hp = d.hp ∧ quiet t [] ∧ t.evr = d.evr)) ∧
      (a = .read ∨ a = .other → serves (fun t => t.rd Reg.HP_LINK = d.rd Reg.HP_LINK)) ∧
      (∀ on, a = .busMaster on → serves (fun t => t.bit Reg.HP_LINK_BME = on)) ∧
      (∀ on mask, a = .msix on mask → serves (fun t => t.bit Reg.HP_LINK_MSIX_EN = on ∧
        t.bit Reg.HP_LINK_FUNC_MASK = mask)) ∧
      (∀ d3, a = .dstate d3 → serves (fun t => t.fld Reg.HP_LINK_D_STATE = if d3 then 3 else 0)) ∧
      (∀ mps mrrs, a = .sizes mps mrrs → serves (fun t => t.hp.mps = min mps 256 ∧ t.hp.mrrs = mrrs))) ∧
    (∀ v : Fin 32,
      let goes := d.bitAt (Reg.HP_PBA_PEND 0) v = true ∧ d.msixBlocked v = false
      (goes → Completes (.msixPendingRelease v) s (fun t => t.bitAt (Reg.HP_PBA_PEND 0) v = false ∧
        t.sent = .msix v :: d.sent ∧ quiet t [Reg.HP_PBA 0] ∧ t.evr = d.evr)) ∧
      (¬goes → Completes (.msixPendingRelease v) s nothing)) ∧
    (∀ (pin : Fin 18) (high : Bool),
      let now := (d.rd Reg.HP_PINS).toNat.testBit pin
      (d.hpLive = false ∨ now = high → Completes (.hpPinChange pin high) s nothing) ∧
      (d.hpLive = true → now ≠ high → Completes (.hpPinChange pin high) s (fun t =>
        (∀ k : Fin 18, (t.rd Reg.HP_PINS).toNat.testBit k = if k = pin then high else (d.rd Reg.HP_PINS).toNat.testBit k) ∧
        ((d.rd Reg.HP_PIN_EN).toNat.testBit pin = true → t.bitAt Reg.HP_IRQ_STAT_CAUSE 7 = true) ∧
        (pin.val = 0 → high = true → t.pwr.warnNow.testBit 0 = false) ∧
        quiet t [Reg.HP_PINS, Reg.HP_IRQ_STAT, Reg.HP_PBA 0, Reg.PWR_SUP_STAT] ∧ t.evr = d.evr))) ∧
    (∀ k : Fin 4,
      (d.hpLive = false → Completes (.bridgeReset k) s nothing) ∧
      (d.hpLive = true → Completes (.bridgeReset k) s (fun t => t.bit Reg.HP_LINK_BME = false ∧
        t.bit Reg.HP_LINK_MSIX_EN = false ∧ t.fld Reg.HP_LINK_D_STATE = 0 ∧
        t.bit Reg.HP_LINK_LINK_UP = (decide (k.val = 0) && d.bit Reg.HP_LINK_LINK_UP) ∧ t.hp.dma = none ∧
        t.hp.ready = false ∧ t.rd Reg.HP_IRQ_EN = 0 ∧ (∀ n : Fin 32, t.rd (Reg.HP_MSIX_CTRL n) = regReset (Reg.HP_MSIX_CTRL n)) ∧
        t.fld Reg.HP_LINK_LINK_DOWNS = up Reg.HP_LINK_LINK_DOWNS ∧
        (∀ n, n < 64 → d.semOwner n = ownerHost → t.semOwner n = 0) ∧ d.KeepsMem t ∧ t.ce = d.ce))) ∧
    (let sa := d.fld Reg.HP_DMA_SADDR_VALUE
     let ha := (d.rd Reg.HP_DMA_HADDR_HI).toNat * 2 ^ 32 + (d.rd Reg.HP_DMA_HADDR_LO).toNat
     let len := d.fld Reg.HP_DMA_LEN_VALUE
     let mps := if d.hp.mps = 0 then 128 else d.hp.mps
     let mrrs := if d.hp.mrrs = 0 then 512 else d.hp.mrrs
     4 ≤ len → len ≤ 65536 → len % 4 = 0 → sa % 4 = 0 → ha % 4 = 0 → sa + len ≤ 0x800000 →
      (d.bit Reg.HP_LINK_BME = true → d.fld Reg.HP_LINK_D_STATE = 0 →
        (d.Clean (sharedKeys sa len) → Begun (.dmaToHost 0) s portHP (fun t =>
          t.hp.dma = some ⟨true, sa, ha, len, len, true⟩ ∧
          t.sent = .hostRead (ha + len - 4) 4 :: (d.dmaWrites mps ha (d.seenBytes sa len) len).sent ∧
          quiet t [Reg.HP_CMD_STATUS] ∧ t.evr = d.evr)) ∧
        Begun (.dmaFromHost 0) s portHP (fun t => t.hp.dma = some ⟨false, sa, ha, len, 0, false⟩ ∧
          t.sent = .hostRead ha (chunkLen mrrs ha len) :: d.sent ∧ quiet t [Reg.HP_CMD_STATUS] ∧ t.evr = d.evr)) ∧
      (d.bit Reg.HP_LINK_BME = false ∨ d.fld Reg.HP_LINK_D_STATE ≠ 0 → d.fld portHP.busy = 0 →
        ∀ c : BitVec 24 → Instr, c = .dmaToHost ∨ c = .dmaFromHost → Completes (c 0) s (fun t =>
          t.Ended d portHP 3 ∧ d.Writes t [Reg.HP_CMD_STATUS, Reg.EVR_LOSS]))) ∧
    (d.hp.dma = none → (∀ st l, Completes (.dmaCompletionReceived st l) s nothing) ∧
      Completes .dmaCompletionTimeout s nothing) ∧
    (∀ x, d.hp.dma = some x → d.bit portHP.busy = true →
      let ends (i : Instr) (code : Nat) (P : Device → Prop) : Prop := Completes i s (fun t =>
        t.Ended d portHP code ∧ t.hp.dma = none ∧ t.bitAt Reg.HP_IRQ_STAT_CAUSE 4 = true ∧
        (code ≠ 0 → t.fld Reg.HP_CNT_DMA_FAIL = up Reg.HP_CNT_DMA_FAIL ∧
          d.Logs t 0x3C6 [wd code, d.rd Reg.HP_DMA_HADDR_LO] ∧ d.KeepsMem t ∧ t.ce = d.ce) ∧ P t)
      ends .dmaCompletionTimeout 6 (fun _ => True) ∧
      (∀ st l, st ≠ .success → ends (.dmaCompletionReceived st l) 7 (fun _ => True)) ∧
      (∀ l, x.flushing = true → ends (.dmaCompletionReceived .success l) 0 (fun t => d.KeepsMem t ∧ t.ce = d.ce)) ∧
      (∀ l, x.flushing = false → x.done + l.length ≤ x.len → d.bit Reg.HP_HWIN_WP_RET = false →
        (d.busWrite 2 (x.saddr + x.done) l).1 = true →
        let lands (t : Device) : Prop := (∀ n, n < l.length → t.byte (x.saddr + x.done + n) = l[n]?.getD 0) ∧
          d.KeepsMemBut t (x.saddr + x.done) l.length
        (x.done + l.length = x.len → ends (.dmaCompletionReceived .success l) 0 lands) ∧
        (x.done + l.length < x.len → Completes (.dmaCompletionReceived .success l) s (fun t => lands t ∧
          t.hp.dma = some { x with done := x.done + l.length } ∧ t.bit portHP.busy = true ∧
          ∃ n, t.sent = .hostRead (x.haddr + x.done + l.length) n :: d.sent))))

/-- R11–R13, R27, R28, R104, R498–R504, R509, R580, R582: a write of a register by its access codes; a CMD register takes the
command that its OP names; accesses of the host to SDM and to registers, and their errors; an access of the debug port. -/
def Obligations.RegisterAndHostAccess : Prop :=
  ∀ s : State,
    let d := s.dev
    let quiet (t : Device) (l : List Nat) : Prop := d.KeepsRegs t (Reg.SF_GATE :: l) ∧ d.KeepsMem t ∧ t.ce = d.ce
    let nothing (t : Device) : Prop := d.Writes t [] ∧ t.evr = d.evr
    let up (f : Fld) : Nat := min (d.fld f + 1) (2 ^ f.width - 1)
    let reaches := d.hpLive = true ∧ d.bit Reg.HP_LINK_LINK_UP = true
    let awake := reaches ∧ d.fld Reg.HP_LINK_D_STATE = 0
    let aborts (t : Device) (a cause : Nat) (l : List Byte) : Prop := t.sent = .completion l true :: d.sent ∧
      t.fld Reg.HP_CNT_CA_SENT = up Reg.HP_CNT_CA_SENT ∧ d.Logs t 0x3C5 [wd a, wd cause] ∧
      quiet t [Reg.HP_CNT, Reg.EVR_LOSS]
    let unsupported (t : Device) : Prop := t.sent = .unsupported :: d.sent ∧ quiet t [] ∧ t.evr = d.evr
    (∀ (a : Nat) (v : Word) (host : Bool) (pins : BitVec 8) (loop : Bool),
      let x : Instr := .genericRegisterWrite a v host pins loop
      (isRegAddr a = false ∨ rowOf a = none → Completes x s nothing) ∧
      (∀ r, isRegAddr a = true → rowOf a = some r → d.specialWrite a v (!host) ⟨pins.toNat, loop⟩ = none →
        a ≠ Reg.SF_GATE → a ≠ Reg.EVR_LOSS → Completes x s (fun t =>
          (∀ i, i < 32 → (t.rd a).getLsbD i = if r.w1c.testBit i && v.getLsbD i then false
            else if r.rw.testBit i || (r.rwl.testBit i && !d.ldr.locked) then v.getLsbD i else (d.rd a).getLsbD i) ∧
          d.Writes t [a, Reg.EVR_LOSS] ∧ (d.ldr.locked = false ∨ r.rwl = 0 → t.evr = d.evr)))) ∧
    (∀ (arg : BitVec 24) (host : Bool) (pins : BitVec 8) (loop : Bool),
      let w (op : Nat) : Word := BitVec.ofNat 32 (op * 2 ^ 24 + arg.toNat)
      exec (.genericRegisterWrite Reg.FLD_CMD (w 2) host pins loop) s = exec (.clearFault arg) s ∧
      exec (.genericRegisterWrite Reg.LDR_CMD (w 8) host pins loop) s = exec (.hostGo arg pins loop) s ∧
      exec (.genericRegisterWrite Reg.EVR_CMD (w 5) host pins loop) s = exec (.clear arg (!host)) s ∧
      (∀ e : Eng, exec (.genericRegisterWrite (Reg.CE_CMD e) (w 1) host pins loop) s = exec (.halt e arg) s) ∧
      (d.fld portPWR.busy = 0 → ∀ op, 2 < op → op < 256 →
        Completes (.genericRegisterWrite Reg.PWR_CMD (w op) host pins loop) s (fun t => t.Ended d portPWR 2 ∧
          d.Writes t [Reg.PWR_CMD_STATUS] ∧ t.evr = d.evr))) ∧
    (∀ (hwa : Bool) (off n : Nat) (full : Bool),
      let x : Instr := .hostMemoryRead hwa off n full
      (¬reaches ∨ n = 0 → Completes x s nothing) ∧
      (reaches → n ≠ 0 → d.fld Reg.HP_LINK_D_STATE ≠ 0 → Completes x s unsupported) ∧
      (awake → 0 < n → hwa = false → off + n ≤ 0x800000 → d.Clean (sharedKeys off n) → Completes x s (fun t =>
        t.sent = .completion (d.seenBytes off n) false :: d.sent ∧ quiet t [] ∧ t.evr = d.evr)) ∧
      (awake → hwa = true → off < 0x1000000 → 0 < n → full = false ∨ n ≠ 4 ∧ n ≠ 8 → Completes x s (fun t =>
        aborts t (0x4000000 + off) hcForm [])) ∧
      (awake → hwa = true → 0x170000 ≤ off → off < 0x1000000 → off % 4 = 0 → n = 4 → full = true → Completes x s (fun t =>
        aborts t (0x4000000 + off) hcUnmapped [])) ∧
      (awake → hwa = true → off < 0x170000 → off % 4 = 0 → n = 4 → full = true →
        (∀ k : Fin 64, 0x4000000 + off ≠ Reg.HSEM k) → Completes x s (fun t =>
          t.sent = .completion (leBytes 4 (d.view (0x4000000 + off)).toNat) false :: d.sent ∧ quiet t [] ∧
          t.evr = d.evr))) ∧
    (∀ (off : Nat) (l : List (Option Byte)) (pins : BitVec 8) (loop : Bool),
      let x : Instr := .hostMemoryWrite false off l pins loop
      (¬reaches ∨ l = [] → Completes x s nothing) ∧
      (reaches → l ≠ [] → d.fld Reg.HP_LINK_D_STATE ≠ 0 → Completes x s unsupported) ∧
      (awake → l ≠ [] → off + l.length ≤ 0x800000 →
        let barred := d.bit Reg.HP_HWIN_WP_RET = true ∧ 0x7F0000 < off + l.length
        (¬barred → d.Clean (sharedKeys off l.length) → Completes x s (fun t =>
          (∀ n, n < l.length → t.byte (off + n) = ((l[n]?).join).getD (d.byte (off + n))) ∧
          d.KeepsMemBut t off l.length ∧ d.KeepsRegs t [Reg.SF_GATE] ∧ d.KeepsUnits t ∧ t.evr = d.evr)) ∧
        (barred → Completes x s (fun t => t.fld Reg.HP_CNT_WERR = up Reg.HP_CNT_WERR ∧ d.KeepsMem t ∧ t.ce = d.ce ∧
          d.Logs t 0x3C4 [wd off, wd hcWpRet] ∧ (d.bit Reg.HP_WERR_INFO_VALID = false →
            t.rd Reg.HP_WERR_ADDR = wd off ∧ t.bit Reg.HP_WERR_INFO_VALID = true ∧
            t.fld Reg.HP_WERR_INFO_CAUSE = hcWpRet ∧ t.bitAt Reg.HP_IRQ_STAT_CAUSE 0 = true)))) ∧
      (∀ a b c e : Byte, awake → off < 0x170000 → off % 4 = 0 →
        exec (.hostMemoryWrite true off [some a, some b, some c, some e] pins loop) s =
          exec (.genericRegisterWrite (0x4000000 + off) (wd (leNat [a, b, c, e])) true pins loop) s)) ∧
    (∀ (off : Nat) (kind : AtomicKind) (n : Nat) (v w : BitVec 64),
      let x : Instr := .hostAtomicOp false off kind n v w
      (¬reaches → Completes x s nothing) ∧
      (reaches → d.fld Reg.HP_LINK_D_STATE ≠ 0 ∨ n ≠ 4 ∧ n ≠ 8 → Completes x s unsupported) ∧
      (awake → n = 4 ∨ n = 8 → off + n ≤ 0x800000 →
        (off % n ≠ 0 → Completes x s (fun t => aborts t off hcForm [])) ∧
        (off % n = 0 → ¬(d.bit Reg.HP_HWIN_WP_RET = true ∧ 0x7F0000 < off + n) → d.Clean (sharedKeys off n) →
          let old := leNat (d.seenBytes off n)
          Completes x s (fun t => t.sent = .completion (leBytes n old) false :: d.sent ∧
            t.fld Reg.HP_CNT_ATOMIC = up Reg.HP_CNT_ATOMIC ∧ t.evr = d.evr ∧
            d.KeepsRegs t [Reg.SF_GATE, Reg.HP_CNT] ∧ d.KeepsMemBut t off n ∧
            let holds (u : Nat) : Prop := ∀ i, i < n → t.byte (off + i) = BitVec.ofNat 8 (u / 256 ^ i)
            (kind = .fetchAdd → holds (old + v.toNat)) ∧ (kind = .swap → holds v.toNat) ∧
            (kind = .cas → (old = w.toNat % 256 ^ n → holds v.toNat) ∧ (old ≠ w.toNat % 256 ^ n → d.KeepsMem t)))))) ∧
    (∀ (pins : BitVec 8) (loop : Bool),
      let x : Instr := .dbgAccessDone pins loop
      (d.ce.dbgRun = none → Completes x s nothing) ∧
      (∀ r, d.ce.dbgRun = some r →
        let ends (t : Device) (status : Nat) (data : Word) : Prop := t.ce.dbgRun = none ∧ t.ce.dbgPrev.op = status ∧
          t.ce.dbgPrev.waddr = r.waddr ∧ t.ce.dbgPrev.data = data ∧ t.ce.main = d.ce.main
        let a := 4 * r.waddr
        let inMem := a < 0x800000 ∨ (0x1020000 ≤ a ∧ a < 0x10F0000)
        (d.perm permDebug = false → Completes x s (fun t => ends t 3 0 ∧ d.KeepsRegs t [Reg.SF_GATE] ∧ d.KeepsMem t)) ∧
        (d.perm permDebug = true →
          (r.op = 1 → inMem → d.Clean (sharedKeys a 4) → Completes x s (fun t =>
            ends t 0 (wd (leNat (d.seenBytes a 4))) ∧ d.KeepsRegs t [Reg.SF_GATE] ∧ d.KeepsMem t)) ∧
          (r.op = 2 → inMem → (d.busWrite 6 a (leBytes 4 r.data.toNat)).1 = true → Completes x s (fun t =>
            ends t 0 0 ∧ d.KeepsMemBut t a 4 ∧ ∀ i, i < 4 → t.byte (a + i) = BitVec.ofNat 8 (r.data.toNat / 256 ^ i))) ∧
          (r.op = 2 → 0x1000000 ≤ a → a < 0x1020000 → Completes x s (fun t => ends t 2 0 ∧ d.KeepsMem t ∧
            d.Logs t 0x10D [wd (busIndex true), wd a])) ∧
          (0x4170000 ≤ a → r.op = 1 ∨ r.op = 2 → Completes x s (fun t => ends t 2 0 ∧ d.KeepsMem t ∧
            d.KeepsRegs t [Reg.SF_GATE])))))

/-! ## Event recorder -/

/-- R527, R531, R533, R535, R536, R539, R540: a record takes the next ESEQ and a free slot, overwrites the lowest of a lower
severity, or is dropped; a frozen log spills; tokens; FREEZE, UNFREEZE and the end of a freeze; COPY; CLEAR needs its key. -/
def Obligations.EventRecorder : Prop :=
  ∀ s : State,
    let d := s.dev
    let quiet (t : Device) (l : List Nat) : Prop := d.KeepsRegs t (Reg.SF_GATE :: l) ∧ d.KeepsMem t ∧ t.ce = d.ce
    let nothing (t : Device) : Prop := d.Writes t [] ∧ t.evr = d.evr
    let up (f : Fld) : Nat := min (d.fld f + 1) (2 ^ f.width - 1)
    let frozen := d.bit Reg.EVR_STAT_FROZEN = true
    let slot (t : Device) (k : Nat) : Option EvRec := sget noRec t.evr.log k
    (d.evrLive = false ∨ d.evr.inq = [] → Completes .eventRecordEnter s nothing) ∧
    (∀ r l, d.evrLive = true → d.evr.inq = r :: l →
      let new : EvRec := { r with eseq := (d.rd Reg.EVR_ESEQ).toNat }
      let enters (P : Device → Prop) : Prop := Completes .eventRecordEnter s (fun t =>
        t.rd Reg.EVR_ESEQ = d.rd Reg.EVR_ESEQ + 1 ∧ d.KeepsMem t ∧ t.ce = d.ce ∧ P t)
      let takes (k : Nat) : Prop := enters (fun t => slot t k = some new ∧ (∀ j, j ≠ k → slot t j = slot d j) ∧
        (d.bit (Reg.TASK_ROUTE_EN 0xF0) = false → d.bit Reg.EVR_CFG_ARCH_EN = false → t.evr.inq = l))
      (frozen → d.evr.spill.length < 32 → enters (fun t => t.evr.spill = d.evr.spill ++ [new] ∧ t.evr.log = d.evr.log ∧
        t.evr.inq = l ∧ quiet t [Reg.EVR_ESEQ, Reg.EVR_STAT])) ∧
      (frozen → 32 ≤ d.evr.spill.length → enters (fun t => t.fld Reg.EVR_LOSS_LOST = up Reg.EVR_LOSS_LOST ∧
        t.evr.log = d.evr.log ∧ t.evr.spill = d.evr.spill ∧ quiet t [Reg.EVR_ESEQ, Reg.EVR_LOSS])) ∧
      (¬frozen →
        (∀ k, k < 4096 → slot d k = none → (∀ j, j < k → slot d j ≠ none) → takes k) ∧
        ((∀ j, j < 4096 → slot d j ≠ none) →
          let lower := d.logRecs.filter (fun x => decide (x.2.sev < r.sev))
          let same := d.logRecs.filter (fun x => x.2.sev == r.sev)
          (∀ x, lowestSlot lower = some x → takes x.1) ∧
          (lower = [] → 6 ≤ r.sev → ∀ x, lowestSlot same = some x → takes x.1) ∧
          (lower = [] → r.sev < 6 ∨ same = [] → enters (fun t => t.evr.log = d.evr.log ∧ t.evr.inq = l ∧
            t.fld Reg.EVR_LOSS_DROPPED = up Reg.EVR_LOSS_DROPPED ∧ quiet t [Reg.EVR_ESEQ, Reg.EVR_LOSS]))))) ∧
    (∀ c : BitVec 11, Completes (.rateTokenAdd c) s (fun t =>
      sget zeroAt t.evr.used c.toNat = sget zeroAt d.evr.used c.toNat - 1 ∧
      (∀ k, k ≠ c.toNat → sget zeroAt t.evr.used k = sget zeroAt d.evr.used k) ∧ t.evr.log = d.evr.log ∧
      t.evr.inq = d.evr.inq ∧ quiet t [])) ∧
    (¬frozen → Done (.freeze 0) s portEVR (fun t => t.bit Reg.EVR_STAT_FROZEN = true ∧
      t.evr.lostAt = d.fld Reg.EVR_LOSS_LOST ∧ t.evr.log = d.evr.log ∧ quiet t [Reg.EVR_CMD_STATUS, Reg.EVR_STAT])) ∧
    (∀ c : BitVec 24 → Instr, frozen ∧ c = .freeze ∨ ¬frozen ∧ c = .unfreeze → d.fld portEVR.busy = 0 →
      Completes (c 0) s (fun t => t.Ended d portEVR 3 ∧ d.Writes t [Reg.EVR_CMD_STATUS, Reg.EVR_LOSS])) ∧
    (frozen → Done (.unfreeze 0) s portEVR (fun t => t.bit Reg.EVR_STAT_FROZEN = false ∧ t.evr.spill = [] ∧
      t.fld Reg.EVR_STAT_SPILL = 0 ∧ d.KeepsMem t ∧ t.ce = d.ce ∧
      (d.evr.spill = [] → t.evr.log = d.evr.log ∧ quiet t [Reg.EVR_CMD_STATUS, Reg.EVR_STAT, Reg.EVR_LOSS] ∧
        (d.evr.lostAt < d.fld Reg.EVR_LOSS_LOST →
          d.Logs t 0x3E2 [wd d.evr.lostAt, wd (d.fld Reg.EVR_LOSS_LOST)])))) ∧
    (frozen → Completes .freezeTimeout s (fun t => t.bit Reg.EVR_STAT_FROZEN = false ∧ t.evr.spill = [] ∧
      d.KeepsMem t ∧ t.ce = d.ce ∧ (d.evr.spill = [] → d.fld Reg.EVR_LOSS_LOST ≤ d.evr.lostAt →
        t.evr.log = d.evr.log ∧ d.Logs t 0x3E3 [0] ∧ quiet t [Reg.EVR_STAT, Reg.EVR_LOSS]))) ∧
    (¬frozen → Completes .freezeTimeout s nothing) ∧
    (let dst := d.fld Reg.EVR_COPY_DST_DST
     let mx := d.fld Reg.EVR_COPY_RES_MAX
     let legal := dst % 64 = 0 ∧ 1 ≤ mx ∧ dst + 64 * mx ≤ 0x800000
     let job : CopyJob := ⟨dst, (d.rd Reg.EVR_COPY_FROM).toNat, mx, d.fld Reg.EVR_COPY_DST_FORM, none⟩
     (legal → Begun (.copy 0) s portEVR (fun t => quiet t [Reg.EVR_CMD_STATUS] ∧ t.evr.log = d.evr.log ∧
       (d.evr.copy = none → t.evr.copy = some job) ∧
       (d.evr.copy.isSome = true → t.evr.copy = d.evr.copy ∧ t.evr.copyWait = some job))) ∧
     (¬legal → d.fld portEVR.busy = 0 → Completes (.copy 0) s (fun t => t.Ended d portEVR 2 ∧
       d.Writes t [Reg.EVR_CMD_STATUS] ∧ t.evr = d.evr))) ∧
    (d.evr.copy = none → Completes .evrCopyDone s nothing) ∧
    (∀ j, d.evr.copy = some j → j.slot = none → d.evr.copyWait = none → d.bit Reg.EVR_RING_EN = false →
      d.bit portEVR.busy = true →
      let rs := d.copySet j
      let data := (rs.map (fun r => if j.form = 0 then r.native else r.form4140)).flatten
      (d.busWrite 7 j.dst data).1 = true → Completes .evrCopyDone s (fun t => t.Ended d portEVR 0 ∧ t.evr.copy = none ∧
        t.fld Reg.EVR_COPY_RES_COPIED = rs.length % 8192 ∧ t.evr.log = d.evr.log ∧
        t.rd Reg.EVR_COPY_NEXT = wd ((rs.getLast?.map (fun r => (r.eseq + 1) % 2 ^ 32)).getD j.start) ∧
        (∀ n, n < data.length → t.byte (j.dst + n) = data[n]?.getD 0) ∧ d.KeepsMemBut t j.dst data.length)) ∧
    (∀ byDbg : Bool,
      let keyOk := d.evr.key ≠ 0 ∧ d.evr.keyIn = d.evr.key
      (keyOk → d.perm permClear = true → ¬frozen → Done (.clear 0 byDbg) s portEVR (fun t => t.evr.spill = [] ∧
        t.evr.keyIn = 0 ∧ d.KeepsMem t ∧ t.ce = d.ce ∧ (∀ k, k ≠ 0 → slot t k = none) ∧
        (d.evrLive = true → d.bit (Reg.EVR_CODE_EN 0x3E0) = true → d.fld (Reg.EVR_CODE_RATE_N 0x3E0) = 0 →
          ∃ r, slot t 0 = some r ∧ r.code = 0x3E0 ∧ r.eseq = (d.rd Reg.EVR_ESEQ).toNat))) ∧
      (¬keyOk → d.fld portEVR.busy = 0 → Completes (.clear 0 byDbg) s (fun t => t.Ended d portEVR 2 ∧
        t.evr.log = d.evr.log ∧ d.Logs t 0x3E6 [wd (busIndex byDbg)] ∧
        d.Writes t [Reg.EVR_CMD_STATUS, Reg.EVR_LOSS])) ∧
      (keyOk → d.perm permClear = false → d.fld portEVR.busy = 0 → Completes (.clear 0 byDbg) s (fun t =>
        t.Ended d portEVR 4 ∧ t.evr.log = d.evr.log)))
end

