-- ==== Sys2Proof/Laws/Sparse.lean ====
section
/-! SUPPORT. Sparse maps: read after write, and the canonical form. -/

namespace Sys2Proof.Machine

variable {α : Type}

/-! ## Read after write -/

theorem sget_serase_same (d : Nat → α) (k : Nat) (m : SMap α) : sget d (serase k m) k = d k := by
  induction m with
  | nil => rfl
  | cons p t ih =>
    obtain ⟨k', v⟩ := p
    by_cases h : k' = k
    · simpa [serase, h] using ih
    · simpa [serase, sget, h] using ih

theorem sget_serase_other (d : Nat → α) {k j : Nat} (m : SMap α) (h : j ≠ k) : sget d (serase k m) j = sget d m j := by
  induction m with
  | nil => rfl
  | cons p t ih =>
    obtain ⟨k', v⟩ := p
    by_cases hk : k' = k
    · simpa [serase, sget, hk, Ne.symm h] using ih
    · by_cases hj : k' = j
      · simp [serase, sget, hj, h]
      · simpa [serase, sget, hk, hj] using ih

theorem sget_sinsert_same (d : Nat → α) (k : Nat) (v : α) (m : SMap α) : sget d (sinsert k v m) k = v := by
  induction m with
  | nil => simp [sinsert, sget]
  | cons p t ih =>
    obtain ⟨k', v'⟩ := p
    by_cases h1 : k < k'
    · simp [sinsert, sget, h1]
    · by_cases h2 : k = k'
      · simp [sinsert, sget, h2]
      · simpa [sinsert, sget, h1, h2, Ne.symm h2] using ih

theorem sget_sinsert_other (d : Nat → α) {k j : Nat} (v : α) (m : SMap α) (h : j ≠ k) :
    sget d (sinsert k v m) j = sget d m j := by
  induction m with
  | nil => simp [sinsert, sget, Ne.symm h]
  | cons p t ih =>
    obtain ⟨k', v'⟩ := p
    by_cases h1 : k < k'
    · simp [sinsert, sget, h1, Ne.symm h]
    · by_cases h2 : k = k'
      · subst h2
        simp [sinsert, sget, Ne.symm h]
      · by_cases hj : k' = j
        · subst hj
          simp [sinsert, sget, h1, h2]
        · simpa [sinsert, sget, h1, h2, hj] using ih

variable [DecidableEq α]

/-- A key that was just written reads back. -/
@[simp] theorem sget_sput_same (d : Nat → α) (m : SMap α) (k : Nat) (v : α) : sget d (sput d m k v) k = v := by
  unfold sput
  split
  · next h => rw [sget_serase_same, h]
  · exact sget_sinsert_same d k v m

/-- A write leaves every other key alone. -/
theorem sget_sput_other (d : Nat → α) (m : SMap α) {k j : Nat} (v : α) (h : j ≠ k) :
    sget d (sput d m k v) j = sget d m j := by
  unfold sput
  split
  · exact sget_serase_other d m h
  · exact sget_sinsert_other d v m h

/-! ## Canonical form -/

theorem swfFrom_mono (d : Nat → α) {b c : Nat} {m : SMap α} (h : c ≤ b) (hm : swfFrom d b m = true) :
    swfFrom d c m = true := by
  cases m with
  | nil => rfl
  | cons p t =>
    obtain ⟨k, v⟩ := p
    simp only [swfFrom, Bool.and_eq_true, decide_eq_true_eq] at hm ⊢
    exact ⟨⟨Nat.le_trans h hm.1.1, hm.1.2⟩, hm.2⟩

theorem swfFrom_serase (d : Nat → α) (k : Nat) {b : Nat} {m : SMap α} (hm : swfFrom d b m = true) :
    swfFrom d b (serase k m) = true := by
  induction m generalizing b with
  | nil => rfl
  | cons p t ih =>
    obtain ⟨k', v⟩ := p
    simp only [swfFrom, Bool.and_eq_true, decide_eq_true_eq] at hm
    by_cases h : k' = k
    · simp only [serase, h, if_true]
      exact ih (swfFrom_mono d (by omega) hm.2)
    · simp only [serase, h, if_false, swfFrom, Bool.and_eq_true, decide_eq_true_eq]
      exact ⟨hm.1, ih hm.2⟩

theorem swfFrom_sinsert (d : Nat → α) {k : Nat} {v : α} (hv : v ≠ d k) {b : Nat} {m : SMap α} (hb : b ≤ k)
    (hm : swfFrom d b m = true) : swfFrom d b (sinsert k v m) = true := by
  induction m generalizing b with
  | nil => simp [sinsert, swfFrom, hb, hv]
  | cons p t ih =>
    obtain ⟨k', v'⟩ := p
    simp only [swfFrom, Bool.and_eq_true, decide_eq_true_eq] at hm
    by_cases h1 : k < k'
    · simp only [sinsert, h1, if_true, swfFrom, Bool.and_eq_true, decide_eq_true_eq]
      exact ⟨⟨hb, hv⟩, ⟨h1, hm.1.2⟩, hm.2⟩
    · by_cases h2 : k = k'
      · subst h2
        simp only [sinsert, Nat.lt_irrefl, if_false, if_true, swfFrom, Bool.and_eq_true, decide_eq_true_eq]
        exact ⟨⟨hb, hv⟩, hm.2⟩
      · simp only [sinsert, h1, h2, if_false, swfFrom, Bool.and_eq_true, decide_eq_true_eq]
        exact ⟨hm.1, ih (by omega) hm.2⟩

/-- Writing a key keeps the canonical form. -/
theorem swf_sput (d : Nat → α) (m : SMap α) (k : Nat) (v : α) (hm : swf d m = true) : swf d (sput d m k v) = true := by
  unfold sput
  split
  · exact swfFrom_serase d k hm
  · next h => exact swfFrom_sinsert d h (Nat.zero_le k) hm

theorem swfFrom_skeep (d : Nat → α) (p : Nat → Bool) {b : Nat} {m : SMap α} (hm : swfFrom d b m = true) :
    swfFrom d b (skeep p m) = true := by
  induction m generalizing b with
  | nil => rfl
  | cons q t ih =>
    obtain ⟨k, v⟩ := q
    simp only [swfFrom, Bool.and_eq_true, decide_eq_true_eq] at hm
    have ht := ih hm.2
    by_cases h : p k
    · simp only [skeep, List.filter_cons, h, if_true, swfFrom, Bool.and_eq_true, decide_eq_true_eq]
      exact ⟨hm.1, ht⟩
    · simp only [skeep, List.filter_cons, h, Bool.false_eq_true, if_false]
      exact swfFrom_mono d (by omega) ht

/-- Keeping a part of a map keeps the canonical form. -/
theorem swf_skeep (d : Nat → α) (p : Nat → Bool) (m : SMap α) (hm : swf d m = true) : swf d (skeep p m) = true :=
  swfFrom_skeep d p hm

theorem sget_below (d : Nat → α) {b k : Nat} {m : SMap α} (hm : swfFrom d b m = true) (h : k < b) : sget d m k = d k := by
  induction m generalizing b with
  | nil => rfl
  | cons p t ih =>
    obtain ⟨k', v⟩ := p
    simp only [swfFrom, Bool.and_eq_true, decide_eq_true_eq] at hm
    have hne : k' ≠ k := by omega
    simpa [sget, hne] using ih hm.2 (by omega)

theorem swfFrom_ext (d : Nat → α) {b : Nat} {m n : SMap α} (hm : swfFrom d b m = true) (hn : swfFrom d b n = true)
    (h : ∀ k, sget d m k = sget d n k) : m = n := by
  induction m generalizing b n with
  | nil =>
    cases n with
    | nil => rfl
    | cons q u =>
      obtain ⟨k, v⟩ := q
      simp only [swfFrom, Bool.and_eq_true, decide_eq_true_eq] at hn
      have := h k
      simp only [sget, if_true] at this
      exact absurd this.symm hn.1.2
  | cons p t ih =>
    obtain ⟨k, v⟩ := p
    simp only [swfFrom, Bool.and_eq_true, decide_eq_true_eq] at hm
    cases n with
    | nil =>
      have := h k
      simp only [sget, if_true] at this
      exact absurd this hm.1.2
    | cons q u =>
      obtain ⟨k', v'⟩ := q
      simp only [swfFrom, Bool.and_eq_true, decide_eq_true_eq] at hn
      have hk : k = k' := by
        by_contra hne
        rcases Nat.lt_or_gt_of_ne hne with hl | hl
        · have h1 := h k
          have hne' : k' ≠ k := fun e => hne e.symm
          simp only [sget, if_true, hne', if_false] at h1
          rw [sget_below d hn.2 (by omega)] at h1
          exact hm.1.2 h1
        · have h1 := h k'
          simp only [sget, if_true, hne, if_false] at h1
          rw [sget_below d hm.2 (by omega)] at h1
          exact hn.1.2 h1.symm
      subst hk
      have hv : v = v' := by simpa [sget] using h k
      subst hv
      have ht : t = u := by
        refine ih hm.2 hn.2 (fun j => ?_)
        by_cases hj : k = j
        · subst hj
          rw [sget_below d hm.2 (by omega), sget_below d hn.2 (by omega)]
        · simpa [sget, hj] using h j
      rw [ht]

/-- Two canonical maps that read the same are the same list. -/
theorem swf_ext (d : Nat → α) {m n : SMap α} (hm : swf d m = true) (hn : swf d n = true)
    (h : ∀ k, sget d m k = sget d n k) : m = n := swfFrom_ext d hm hn h

end Sys2Proof.Machine
end

