-- ==== Sys2Proof/Laws/State.lean ====
section
/-! SUPPORT. What each update leaves alone: one lemma per field of Device per update, true by unfolding. -/

namespace Sys2Proof.Machine

/-! ## A register word -/

@[simp] theorem Device.wr_mem (d : Device) (a : Nat) (v : Word) : (d.wr a v).mem = d.mem := by
  simp only [Device.wr]
@[simp] theorem Device.wr_larea (d : Device) (a : Nat) (v : Word) : (d.wr a v).larea = d.larea := by
  simp only [Device.wr]
@[simp] theorem Device.wr_prog (d : Device) (a : Nat) (v : Word) : (d.wr a v).prog = d.prog := by
  simp only [Device.wr]
@[simp] theorem Device.wr_ce (d : Device) (a : Nat) (v : Word) : (d.wr a v).ce = d.ce := by
  simp only [Device.wr]
@[simp] theorem Device.wr_task (d : Device) (a : Nat) (v : Word) : (d.wr a v).task = d.task := by
  simp only [Device.wr]
@[simp] theorem Device.wr_tick (d : Device) (a : Nat) (v : Word) : (d.wr a v).tick = d.tick := by
  simp only [Device.wr]
@[simp] theorem Device.wr_img (d : Device) (a : Nat) (v : Word) : (d.wr a v).img = d.img := by
  simp only [Device.wr]
@[simp] theorem Device.wr_evr (d : Device) (a : Nat) (v : Word) : (d.wr a v).evr = d.evr := by
  simp only [Device.wr]
@[simp] theorem Device.wr_hp (d : Device) (a : Nat) (v : Word) : (d.wr a v).hp = d.hp := by
  simp only [Device.wr]
@[simp] theorem Device.wr_mb (d : Device) (a : Nat) (v : Word) : (d.wr a v).mb = d.mb := by
  simp only [Device.wr]
@[simp] theorem Device.wr_sf (d : Device) (a : Nat) (v : Word) : (d.wr a v).sf = d.sf := by
  simp only [Device.wr]
@[simp] theorem Device.wr_fd (d : Device) (a : Nat) (v : Word) : (d.wr a v).fd = d.fd := by
  simp only [Device.wr]
@[simp] theorem Device.wr_sig (d : Device) (a : Nat) (v : Word) : (d.wr a v).sig = d.sig := by
  simp only [Device.wr]
@[simp] theorem Device.wr_sys (d : Device) (a : Nat) (v : Word) : (d.wr a v).sys = d.sys := by
  simp only [Device.wr]
@[simp] theorem Device.wr_pwr (d : Device) (a : Nat) (v : Word) : (d.wr a v).pwr = d.pwr := by
  simp only [Device.wr]
@[simp] theorem Device.wr_tb (d : Device) (a : Nat) (v : Word) : (d.wr a v).tb = d.tb := by
  simp only [Device.wr]
@[simp] theorem Device.wr_kl (d : Device) (a : Nat) (v : Word) : (d.wr a v).kl = d.kl := by
  simp only [Device.wr]
@[simp] theorem Device.wr_eth (d : Device) (a : Nat) (v : Word) : (d.wr a v).eth = d.eth := by
  simp only [Device.wr]
@[simp] theorem Device.wr_tri (d : Device) (a : Nat) (v : Word) : (d.wr a v).tri = d.tri := by
  simp only [Device.wr]
@[simp] theorem Device.wr_sc (d : Device) (a : Nat) (v : Word) : (d.wr a v).sc = d.sc := by
  simp only [Device.wr]
@[simp] theorem Device.wr_fo (d : Device) (a : Nat) (v : Word) : (d.wr a v).fo = d.fo := by
  simp only [Device.wr]
@[simp] theorem Device.wr_sb (d : Device) (a : Nat) (v : Word) : (d.wr a v).sb = d.sb := by
  simp only [Device.wr]
@[simp] theorem Device.wr_nvm (d : Device) (a : Nat) (v : Word) : (d.wr a v).nvm = d.nvm := by
  simp only [Device.wr]
@[simp] theorem Device.wr_ldr (d : Device) (a : Nat) (v : Word) : (d.wr a v).ldr = d.ldr := by
  simp only [Device.wr]
@[simp] theorem Device.wr_freeCtr (d : Device) (a : Nat) (v : Word) : (d.wr a v).freeCtr = d.freeCtr := by
  simp only [Device.wr]
@[simp] theorem Device.wr_sent (d : Device) (a : Nat) (v : Word) : (d.wr a v).sent = d.sent := by
  simp only [Device.wr]

/-! ## A register field -/

@[simp] theorem Device.setF_mem (d : Device) (f : Fld) (v : Nat) : (d.setF f v).mem = d.mem := by
  simp only [Device.setF, Device.wr_mem]
@[simp] theorem Device.setF_larea (d : Device) (f : Fld) (v : Nat) : (d.setF f v).larea = d.larea := by
  simp only [Device.setF, Device.wr_larea]
@[simp] theorem Device.setF_prog (d : Device) (f : Fld) (v : Nat) : (d.setF f v).prog = d.prog := by
  simp only [Device.setF, Device.wr_prog]
@[simp] theorem Device.setF_ce (d : Device) (f : Fld) (v : Nat) : (d.setF f v).ce = d.ce := by
  simp only [Device.setF, Device.wr_ce]
@[simp] theorem Device.setF_task (d : Device) (f : Fld) (v : Nat) : (d.setF f v).task = d.task := by
  simp only [Device.setF, Device.wr_task]
@[simp] theorem Device.setF_tick (d : Device) (f : Fld) (v : Nat) : (d.setF f v).tick = d.tick := by
  simp only [Device.setF, Device.wr_tick]
@[simp] theorem Device.setF_img (d : Device) (f : Fld) (v : Nat) : (d.setF f v).img = d.img := by
  simp only [Device.setF, Device.wr_img]
@[simp] theorem Device.setF_evr (d : Device) (f : Fld) (v : Nat) : (d.setF f v).evr = d.evr := by
  simp only [Device.setF, Device.wr_evr]
@[simp] theorem Device.setF_hp (d : Device) (f : Fld) (v : Nat) : (d.setF f v).hp = d.hp := by
  simp only [Device.setF, Device.wr_hp]
@[simp] theorem Device.setF_mb (d : Device) (f : Fld) (v : Nat) : (d.setF f v).mb = d.mb := by
  simp only [Device.setF, Device.wr_mb]
@[simp] theorem Device.setF_sf (d : Device) (f : Fld) (v : Nat) : (d.setF f v).sf = d.sf := by
  simp only [Device.setF, Device.wr_sf]
@[simp] theorem Device.setF_fd (d : Device) (f : Fld) (v : Nat) : (d.setF f v).fd = d.fd := by
  simp only [Device.setF, Device.wr_fd]
@[simp] theorem Device.setF_sig (d : Device) (f : Fld) (v : Nat) : (d.setF f v).sig = d.sig := by
  simp only [Device.setF, Device.wr_sig]
@[simp] theorem Device.setF_sys (d : Device) (f : Fld) (v : Nat) : (d.setF f v).sys = d.sys := by
  simp only [Device.setF, Device.wr_sys]
@[simp] theorem Device.setF_pwr (d : Device) (f : Fld) (v : Nat) : (d.setF f v).pwr = d.pwr := by
  simp only [Device.setF, Device.wr_pwr]
@[simp] theorem Device.setF_tb (d : Device) (f : Fld) (v : Nat) : (d.setF f v).tb = d.tb := by
  simp only [Device.setF, Device.wr_tb]
@[simp] theorem Device.setF_kl (d : Device) (f : Fld) (v : Nat) : (d.setF f v).kl = d.kl := by
  simp only [Device.setF, Device.wr_kl]
@[simp] theorem Device.setF_eth (d : Device) (f : Fld) (v : Nat) : (d.setF f v).eth = d.eth := by
  simp only [Device.setF, Device.wr_eth]
@[simp] theorem Device.setF_tri (d : Device) (f : Fld) (v : Nat) : (d.setF f v).tri = d.tri := by
  simp only [Device.setF, Device.wr_tri]
@[simp] theorem Device.setF_sc (d : Device) (f : Fld) (v : Nat) : (d.setF f v).sc = d.sc := by
  simp only [Device.setF, Device.wr_sc]
@[simp] theorem Device.setF_fo (d : Device) (f : Fld) (v : Nat) : (d.setF f v).fo = d.fo := by
  simp only [Device.setF, Device.wr_fo]
@[simp] theorem Device.setF_sb (d : Device) (f : Fld) (v : Nat) : (d.setF f v).sb = d.sb := by
  simp only [Device.setF, Device.wr_sb]
@[simp] theorem Device.setF_nvm (d : Device) (f : Fld) (v : Nat) : (d.setF f v).nvm = d.nvm := by
  simp only [Device.setF, Device.wr_nvm]
@[simp] theorem Device.setF_ldr (d : Device) (f : Fld) (v : Nat) : (d.setF f v).ldr = d.ldr := by
  simp only [Device.setF, Device.wr_ldr]
@[simp] theorem Device.setF_freeCtr (d : Device) (f : Fld) (v : Nat) : (d.setF f v).freeCtr = d.freeCtr := by
  simp only [Device.setF, Device.wr_freeCtr]
@[simp] theorem Device.setF_sent (d : Device) (f : Fld) (v : Nat) : (d.setF f v).sent = d.sent := by
  simp only [Device.setF, Device.wr_sent]

/-! ## A one-bit field -/

@[simp] theorem Device.setB_mem (d : Device) (f : Fld) (b : Bool) : (d.setB f b).mem = d.mem := by
  simp only [Device.setB, Device.setF_mem]
@[simp] theorem Device.setB_larea (d : Device) (f : Fld) (b : Bool) : (d.setB f b).larea = d.larea := by
  simp only [Device.setB, Device.setF_larea]
@[simp] theorem Device.setB_prog (d : Device) (f : Fld) (b : Bool) : (d.setB f b).prog = d.prog := by
  simp only [Device.setB, Device.setF_prog]
@[simp] theorem Device.setB_ce (d : Device) (f : Fld) (b : Bool) : (d.setB f b).ce = d.ce := by
  simp only [Device.setB, Device.setF_ce]
@[simp] theorem Device.setB_task (d : Device) (f : Fld) (b : Bool) : (d.setB f b).task = d.task := by
  simp only [Device.setB, Device.setF_task]
@[simp] theorem Device.setB_tick (d : Device) (f : Fld) (b : Bool) : (d.setB f b).tick = d.tick := by
  simp only [Device.setB, Device.setF_tick]
@[simp] theorem Device.setB_img (d : Device) (f : Fld) (b : Bool) : (d.setB f b).img = d.img := by
  simp only [Device.setB, Device.setF_img]
@[simp] theorem Device.setB_evr (d : Device) (f : Fld) (b : Bool) : (d.setB f b).evr = d.evr := by
  simp only [Device.setB, Device.setF_evr]
@[simp] theorem Device.setB_hp (d : Device) (f : Fld) (b : Bool) : (d.setB f b).hp = d.hp := by
  simp only [Device.setB, Device.setF_hp]
@[simp] theorem Device.setB_mb (d : Device) (f : Fld) (b : Bool) : (d.setB f b).mb = d.mb := by
  simp only [Device.setB, Device.setF_mb]
@[simp] theorem Device.setB_sf (d : Device) (f : Fld) (b : Bool) : (d.setB f b).sf = d.sf := by
  simp only [Device.setB, Device.setF_sf]
@[simp] theorem Device.setB_fd (d : Device) (f : Fld) (b : Bool) : (d.setB f b).fd = d.fd := by
  simp only [Device.setB, Device.setF_fd]
@[simp] theorem Device.setB_sig (d : Device) (f : Fld) (b : Bool) : (d.setB f b).sig = d.sig := by
  simp only [Device.setB, Device.setF_sig]
@[simp] theorem Device.setB_sys (d : Device) (f : Fld) (b : Bool) : (d.setB f b).sys = d.sys := by
  simp only [Device.setB, Device.setF_sys]
@[simp] theorem Device.setB_pwr (d : Device) (f : Fld) (b : Bool) : (d.setB f b).pwr = d.pwr := by
  simp only [Device.setB, Device.setF_pwr]
@[simp] theorem Device.setB_tb (d : Device) (f : Fld) (b : Bool) : (d.setB f b).tb = d.tb := by
  simp only [Device.setB, Device.setF_tb]
@[simp] theorem Device.setB_kl (d : Device) (f : Fld) (b : Bool) : (d.setB f b).kl = d.kl := by
  simp only [Device.setB, Device.setF_kl]
@[simp] theorem Device.setB_eth (d : Device) (f : Fld) (b : Bool) : (d.setB f b).eth = d.eth := by
  simp only [Device.setB, Device.setF_eth]
@[simp] theorem Device.setB_tri (d : Device) (f : Fld) (b : Bool) : (d.setB f b).tri = d.tri := by
  simp only [Device.setB, Device.setF_tri]
@[simp] theorem Device.setB_sc (d : Device) (f : Fld) (b : Bool) : (d.setB f b).sc = d.sc := by
  simp only [Device.setB, Device.setF_sc]
@[simp] theorem Device.setB_fo (d : Device) (f : Fld) (b : Bool) : (d.setB f b).fo = d.fo := by
  simp only [Device.setB, Device.setF_fo]
@[simp] theorem Device.setB_sb (d : Device) (f : Fld) (b : Bool) : (d.setB f b).sb = d.sb := by
  simp only [Device.setB, Device.setF_sb]
@[simp] theorem Device.setB_nvm (d : Device) (f : Fld) (b : Bool) : (d.setB f b).nvm = d.nvm := by
  simp only [Device.setB, Device.setF_nvm]
@[simp] theorem Device.setB_ldr (d : Device) (f : Fld) (b : Bool) : (d.setB f b).ldr = d.ldr := by
  simp only [Device.setB, Device.setF_ldr]
@[simp] theorem Device.setB_freeCtr (d : Device) (f : Fld) (b : Bool) : (d.setB f b).freeCtr = d.freeCtr := by
  simp only [Device.setB, Device.setF_freeCtr]
@[simp] theorem Device.setB_sent (d : Device) (f : Fld) (b : Bool) : (d.setB f b).sent = d.sent := by
  simp only [Device.setB, Device.setF_sent]

/-! ## A bit of a field -/

@[simp] theorem Device.setBitAt_mem (d : Device) (f : Fld) (i : Nat) (b : Bool) : (d.setBitAt f i b).mem = d.mem := by
  simp only [Device.setBitAt, Device.setF_mem]
@[simp] theorem Device.setBitAt_larea (d : Device) (f : Fld) (i : Nat) (b : Bool) : (d.setBitAt f i b).larea = d.larea := by
  simp only [Device.setBitAt, Device.setF_larea]
@[simp] theorem Device.setBitAt_prog (d : Device) (f : Fld) (i : Nat) (b : Bool) : (d.setBitAt f i b).prog = d.prog := by
  simp only [Device.setBitAt, Device.setF_prog]
@[simp] theorem Device.setBitAt_ce (d : Device) (f : Fld) (i : Nat) (b : Bool) : (d.setBitAt f i b).ce = d.ce := by
  simp only [Device.setBitAt, Device.setF_ce]
@[simp] theorem Device.setBitAt_task (d : Device) (f : Fld) (i : Nat) (b : Bool) : (d.setBitAt f i b).task = d.task := by
  simp only [Device.setBitAt, Device.setF_task]
@[simp] theorem Device.setBitAt_tick (d : Device) (f : Fld) (i : Nat) (b : Bool) : (d.setBitAt f i b).tick = d.tick := by
  simp only [Device.setBitAt, Device.setF_tick]
@[simp] theorem Device.setBitAt_img (d : Device) (f : Fld) (i : Nat) (b : Bool) : (d.setBitAt f i b).img = d.img := by
  simp only [Device.setBitAt, Device.setF_img]
@[simp] theorem Device.setBitAt_evr (d : Device) (f : Fld) (i : Nat) (b : Bool) : (d.setBitAt f i b).evr = d.evr := by
  simp only [Device.setBitAt, Device.setF_evr]
@[simp] theorem Device.setBitAt_hp (d : Device) (f : Fld) (i : Nat) (b : Bool) : (d.setBitAt f i b).hp = d.hp := by
  simp only [Device.setBitAt, Device.setF_hp]
@[simp] theorem Device.setBitAt_mb (d : Device) (f : Fld) (i : Nat) (b : Bool) : (d.setBitAt f i b).mb = d.mb := by
  simp only [Device.setBitAt, Device.setF_mb]
@[simp] theorem Device.setBitAt_sf (d : Device) (f : Fld) (i : Nat) (b : Bool) : (d.setBitAt f i b).sf = d.sf := by
  simp only [Device.setBitAt, Device.setF_sf]
@[simp] theorem Device.setBitAt_fd (d : Device) (f : Fld) (i : Nat) (b : Bool) : (d.setBitAt f i b).fd = d.fd := by
  simp only [Device.setBitAt, Device.setF_fd]
@[simp] theorem Device.setBitAt_sig (d : Device) (f : Fld) (i : Nat) (b : Bool) : (d.setBitAt f i b).sig = d.sig := by
  simp only [Device.setBitAt, Device.setF_sig]
@[simp] theorem Device.setBitAt_sys (d : Device) (f : Fld) (i : Nat) (b : Bool) : (d.setBitAt f i b).sys = d.sys := by
  simp only [Device.setBitAt, Device.setF_sys]
@[simp] theorem Device.setBitAt_pwr (d : Device) (f : Fld) (i : Nat) (b : Bool) : (d.setBitAt f i b).pwr = d.pwr := by
  simp only [Device.setBitAt, Device.setF_pwr]
@[simp] theorem Device.setBitAt_tb (d : Device) (f : Fld) (i : Nat) (b : Bool) : (d.setBitAt f i b).tb = d.tb := by
  simp only [Device.setBitAt, Device.setF_tb]
@[simp] theorem Device.setBitAt_kl (d : Device) (f : Fld) (i : Nat) (b : Bool) : (d.setBitAt f i b).kl = d.kl := by
  simp only [Device.setBitAt, Device.setF_kl]
@[simp] theorem Device.setBitAt_eth (d : Device) (f : Fld) (i : Nat) (b : Bool) : (d.setBitAt f i b).eth = d.eth := by
  simp only [Device.setBitAt, Device.setF_eth]
@[simp] theorem Device.setBitAt_tri (d : Device) (f : Fld) (i : Nat) (b : Bool) : (d.setBitAt f i b).tri = d.tri := by
  simp only [Device.setBitAt, Device.setF_tri]
@[simp] theorem Device.setBitAt_sc (d : Device) (f : Fld) (i : Nat) (b : Bool) : (d.setBitAt f i b).sc = d.sc := by
  simp only [Device.setBitAt, Device.setF_sc]
@[simp] theorem Device.setBitAt_fo (d : Device) (f : Fld) (i : Nat) (b : Bool) : (d.setBitAt f i b).fo = d.fo := by
  simp only [Device.setBitAt, Device.setF_fo]
@[simp] theorem Device.setBitAt_sb (d : Device) (f : Fld) (i : Nat) (b : Bool) : (d.setBitAt f i b).sb = d.sb := by
  simp only [Device.setBitAt, Device.setF_sb]
@[simp] theorem Device.setBitAt_nvm (d : Device) (f : Fld) (i : Nat) (b : Bool) : (d.setBitAt f i b).nvm = d.nvm := by
  simp only [Device.setBitAt, Device.setF_nvm]
@[simp] theorem Device.setBitAt_ldr (d : Device) (f : Fld) (i : Nat) (b : Bool) : (d.setBitAt f i b).ldr = d.ldr := by
  simp only [Device.setBitAt, Device.setF_ldr]
@[simp] theorem Device.setBitAt_freeCtr (d : Device) (f : Fld) (i : Nat) (b : Bool) : (d.setBitAt f i b).freeCtr = d.freeCtr := by
  simp only [Device.setBitAt, Device.setF_freeCtr]
@[simp] theorem Device.setBitAt_sent (d : Device) (f : Fld) (i : Nat) (b : Bool) : (d.setBitAt f i b).sent = d.sent := by
  simp only [Device.setBitAt, Device.setF_sent]

/-! ## A saturating counter -/

@[simp] theorem Device.satAdd_mem (d : Device) (f : Fld) (n : Nat) : (d.satAdd f n).mem = d.mem := by
  simp only [Device.satAdd, Device.setF_mem]
@[simp] theorem Device.satAdd_larea (d : Device) (f : Fld) (n : Nat) : (d.satAdd f n).larea = d.larea := by
  simp only [Device.satAdd, Device.setF_larea]
@[simp] theorem Device.satAdd_prog (d : Device) (f : Fld) (n : Nat) : (d.satAdd f n).prog = d.prog := by
  simp only [Device.satAdd, Device.setF_prog]
@[simp] theorem Device.satAdd_ce (d : Device) (f : Fld) (n : Nat) : (d.satAdd f n).ce = d.ce := by
  simp only [Device.satAdd, Device.setF_ce]
@[simp] theorem Device.satAdd_task (d : Device) (f : Fld) (n : Nat) : (d.satAdd f n).task = d.task := by
  simp only [Device.satAdd, Device.setF_task]
@[simp] theorem Device.satAdd_tick (d : Device) (f : Fld) (n : Nat) : (d.satAdd f n).tick = d.tick := by
  simp only [Device.satAdd, Device.setF_tick]
@[simp] theorem Device.satAdd_img (d : Device) (f : Fld) (n : Nat) : (d.satAdd f n).img = d.img := by
  simp only [Device.satAdd, Device.setF_img]
@[simp] theorem Device.satAdd_evr (d : Device) (f : Fld) (n : Nat) : (d.satAdd f n).evr = d.evr := by
  simp only [Device.satAdd, Device.setF_evr]
@[simp] theorem Device.satAdd_hp (d : Device) (f : Fld) (n : Nat) : (d.satAdd f n).hp = d.hp := by
  simp only [Device.satAdd, Device.setF_hp]
@[simp] theorem Device.satAdd_mb (d : Device) (f : Fld) (n : Nat) : (d.satAdd f n).mb = d.mb := by
  simp only [Device.satAdd, Device.setF_mb]
@[simp] theorem Device.satAdd_sf (d : Device) (f : Fld) (n : Nat) : (d.satAdd f n).sf = d.sf := by
  simp only [Device.satAdd, Device.setF_sf]
@[simp] theorem Device.satAdd_fd (d : Device) (f : Fld) (n : Nat) : (d.satAdd f n).fd = d.fd := by
  simp only [Device.satAdd, Device.setF_fd]
@[simp] theorem Device.satAdd_sig (d : Device) (f : Fld) (n : Nat) : (d.satAdd f n).sig = d.sig := by
  simp only [Device.satAdd, Device.setF_sig]
@[simp] theorem Device.satAdd_sys (d : Device) (f : Fld) (n : Nat) : (d.satAdd f n).sys = d.sys := by
  simp only [Device.satAdd, Device.setF_sys]
@[simp] theorem Device.satAdd_pwr (d : Device) (f : Fld) (n : Nat) : (d.satAdd f n).pwr = d.pwr := by
  simp only [Device.satAdd, Device.setF_pwr]
@[simp] theorem Device.satAdd_tb (d : Device) (f : Fld) (n : Nat) : (d.satAdd f n).tb = d.tb := by
  simp only [Device.satAdd, Device.setF_tb]
@[simp] theorem Device.satAdd_kl (d : Device) (f : Fld) (n : Nat) : (d.satAdd f n).kl = d.kl := by
  simp only [Device.satAdd, Device.setF_kl]
@[simp] theorem Device.satAdd_eth (d : Device) (f : Fld) (n : Nat) : (d.satAdd f n).eth = d.eth := by
  simp only [Device.satAdd, Device.setF_eth]
@[simp] theorem Device.satAdd_tri (d : Device) (f : Fld) (n : Nat) : (d.satAdd f n).tri = d.tri := by
  simp only [Device.satAdd, Device.setF_tri]
@[simp] theorem Device.satAdd_sc (d : Device) (f : Fld) (n : Nat) : (d.satAdd f n).sc = d.sc := by
  simp only [Device.satAdd, Device.setF_sc]
@[simp] theorem Device.satAdd_fo (d : Device) (f : Fld) (n : Nat) : (d.satAdd f n).fo = d.fo := by
  simp only [Device.satAdd, Device.setF_fo]
@[simp] theorem Device.satAdd_sb (d : Device) (f : Fld) (n : Nat) : (d.satAdd f n).sb = d.sb := by
  simp only [Device.satAdd, Device.setF_sb]
@[simp] theorem Device.satAdd_nvm (d : Device) (f : Fld) (n : Nat) : (d.satAdd f n).nvm = d.nvm := by
  simp only [Device.satAdd, Device.setF_nvm]
@[simp] theorem Device.satAdd_ldr (d : Device) (f : Fld) (n : Nat) : (d.satAdd f n).ldr = d.ldr := by
  simp only [Device.satAdd, Device.setF_ldr]
@[simp] theorem Device.satAdd_freeCtr (d : Device) (f : Fld) (n : Nat) : (d.satAdd f n).freeCtr = d.freeCtr := by
  simp only [Device.satAdd, Device.setF_freeCtr]
@[simp] theorem Device.satAdd_sent (d : Device) (f : Fld) (n : Nat) : (d.satAdd f n).sent = d.sent := by
  simp only [Device.satAdd, Device.setF_sent]

/-! ## A saturating counter, by one -/

@[simp] theorem Device.inc_mem (d : Device) (f : Fld) : (d.inc f).mem = d.mem := by
  simp only [Device.inc, Device.satAdd_mem]
@[simp] theorem Device.inc_larea (d : Device) (f : Fld) : (d.inc f).larea = d.larea := by
  simp only [Device.inc, Device.satAdd_larea]
@[simp] theorem Device.inc_prog (d : Device) (f : Fld) : (d.inc f).prog = d.prog := by
  simp only [Device.inc, Device.satAdd_prog]
@[simp] theorem Device.inc_ce (d : Device) (f : Fld) : (d.inc f).ce = d.ce := by
  simp only [Device.inc, Device.satAdd_ce]
@[simp] theorem Device.inc_task (d : Device) (f : Fld) : (d.inc f).task = d.task := by
  simp only [Device.inc, Device.satAdd_task]
@[simp] theorem Device.inc_tick (d : Device) (f : Fld) : (d.inc f).tick = d.tick := by
  simp only [Device.inc, Device.satAdd_tick]
@[simp] theorem Device.inc_img (d : Device) (f : Fld) : (d.inc f).img = d.img := by
  simp only [Device.inc, Device.satAdd_img]
@[simp] theorem Device.inc_evr (d : Device) (f : Fld) : (d.inc f).evr = d.evr := by
  simp only [Device.inc, Device.satAdd_evr]
@[simp] theorem Device.inc_hp (d : Device) (f : Fld) : (d.inc f).hp = d.hp := by
  simp only [Device.inc, Device.satAdd_hp]
@[simp] theorem Device.inc_mb (d : Device) (f : Fld) : (d.inc f).mb = d.mb := by
  simp only [Device.inc, Device.satAdd_mb]
@[simp] theorem Device.inc_sf (d : Device) (f : Fld) : (d.inc f).sf = d.sf := by
  simp only [Device.inc, Device.satAdd_sf]
@[simp] theorem Device.inc_fd (d : Device) (f : Fld) : (d.inc f).fd = d.fd := by
  simp only [Device.inc, Device.satAdd_fd]
@[simp] theorem Device.inc_sig (d : Device) (f : Fld) : (d.inc f).sig = d.sig := by
  simp only [Device.inc, Device.satAdd_sig]
@[simp] theorem Device.inc_sys (d : Device) (f : Fld) : (d.inc f).sys = d.sys := by
  simp only [Device.inc, Device.satAdd_sys]
@[simp] theorem Device.inc_pwr (d : Device) (f : Fld) : (d.inc f).pwr = d.pwr := by
  simp only [Device.inc, Device.satAdd_pwr]
@[simp] theorem Device.inc_tb (d : Device) (f : Fld) : (d.inc f).tb = d.tb := by
  simp only [Device.inc, Device.satAdd_tb]
@[simp] theorem Device.inc_kl (d : Device) (f : Fld) : (d.inc f).kl = d.kl := by
  simp only [Device.inc, Device.satAdd_kl]
@[simp] theorem Device.inc_eth (d : Device) (f : Fld) : (d.inc f).eth = d.eth := by
  simp only [Device.inc, Device.satAdd_eth]
@[simp] theorem Device.inc_tri (d : Device) (f : Fld) : (d.inc f).tri = d.tri := by
  simp only [Device.inc, Device.satAdd_tri]
@[simp] theorem Device.inc_sc (d : Device) (f : Fld) : (d.inc f).sc = d.sc := by
  simp only [Device.inc, Device.satAdd_sc]
@[simp] theorem Device.inc_fo (d : Device) (f : Fld) : (d.inc f).fo = d.fo := by
  simp only [Device.inc, Device.satAdd_fo]
@[simp] theorem Device.inc_sb (d : Device) (f : Fld) : (d.inc f).sb = d.sb := by
  simp only [Device.inc, Device.satAdd_sb]
@[simp] theorem Device.inc_nvm (d : Device) (f : Fld) : (d.inc f).nvm = d.nvm := by
  simp only [Device.inc, Device.satAdd_nvm]
@[simp] theorem Device.inc_ldr (d : Device) (f : Fld) : (d.inc f).ldr = d.ldr := by
  simp only [Device.inc, Device.satAdd_ldr]
@[simp] theorem Device.inc_freeCtr (d : Device) (f : Fld) : (d.inc f).freeCtr = d.freeCtr := by
  simp only [Device.inc, Device.satAdd_freeCtr]
@[simp] theorem Device.inc_sent (d : Device) (f : Fld) : (d.inc f).sent = d.sent := by
  simp only [Device.inc, Device.satAdd_sent]

/-! ## A wrapping counter -/

@[simp] theorem Device.incMod_mem (d : Device) (f : Fld) : (d.incMod f).mem = d.mem := by
  simp only [Device.incMod, Device.setF_mem]
@[simp] theorem Device.incMod_larea (d : Device) (f : Fld) : (d.incMod f).larea = d.larea := by
  simp only [Device.incMod, Device.setF_larea]
@[simp] theorem Device.incMod_prog (d : Device) (f : Fld) : (d.incMod f).prog = d.prog := by
  simp only [Device.incMod, Device.setF_prog]
@[simp] theorem Device.incMod_ce (d : Device) (f : Fld) : (d.incMod f).ce = d.ce := by
  simp only [Device.incMod, Device.setF_ce]
@[simp] theorem Device.incMod_task (d : Device) (f : Fld) : (d.incMod f).task = d.task := by
  simp only [Device.incMod, Device.setF_task]
@[simp] theorem Device.incMod_tick (d : Device) (f : Fld) : (d.incMod f).tick = d.tick := by
  simp only [Device.incMod, Device.setF_tick]
@[simp] theorem Device.incMod_img (d : Device) (f : Fld) : (d.incMod f).img = d.img := by
  simp only [Device.incMod, Device.setF_img]
@[simp] theorem Device.incMod_evr (d : Device) (f : Fld) : (d.incMod f).evr = d.evr := by
  simp only [Device.incMod, Device.setF_evr]
@[simp] theorem Device.incMod_hp (d : Device) (f : Fld) : (d.incMod f).hp = d.hp := by
  simp only [Device.incMod, Device.setF_hp]
@[simp] theorem Device.incMod_mb (d : Device) (f : Fld) : (d.incMod f).mb = d.mb := by
  simp only [Device.incMod, Device.setF_mb]
@[simp] theorem Device.incMod_sf (d : Device) (f : Fld) : (d.incMod f).sf = d.sf := by
  simp only [Device.incMod, Device.setF_sf]
@[simp] theorem Device.incMod_fd (d : Device) (f : Fld) : (d.incMod f).fd = d.fd := by
  simp only [Device.incMod, Device.setF_fd]
@[simp] theorem Device.incMod_sig (d : Device) (f : Fld) : (d.incMod f).sig = d.sig := by
  simp only [Device.incMod, Device.setF_sig]
@[simp] theorem Device.incMod_sys (d : Device) (f : Fld) : (d.incMod f).sys = d.sys := by
  simp only [Device.incMod, Device.setF_sys]
@[simp] theorem Device.incMod_pwr (d : Device) (f : Fld) : (d.incMod f).pwr = d.pwr := by
  simp only [Device.incMod, Device.setF_pwr]
@[simp] theorem Device.incMod_tb (d : Device) (f : Fld) : (d.incMod f).tb = d.tb := by
  simp only [Device.incMod, Device.setF_tb]
@[simp] theorem Device.incMod_kl (d : Device) (f : Fld) : (d.incMod f).kl = d.kl := by
  simp only [Device.incMod, Device.setF_kl]
@[simp] theorem Device.incMod_eth (d : Device) (f : Fld) : (d.incMod f).eth = d.eth := by
  simp only [Device.incMod, Device.setF_eth]
@[simp] theorem Device.incMod_tri (d : Device) (f : Fld) : (d.incMod f).tri = d.tri := by
  simp only [Device.incMod, Device.setF_tri]
@[simp] theorem Device.incMod_sc (d : Device) (f : Fld) : (d.incMod f).sc = d.sc := by
  simp only [Device.incMod, Device.setF_sc]
@[simp] theorem Device.incMod_fo (d : Device) (f : Fld) : (d.incMod f).fo = d.fo := by
  simp only [Device.incMod, Device.setF_fo]
@[simp] theorem Device.incMod_sb (d : Device) (f : Fld) : (d.incMod f).sb = d.sb := by
  simp only [Device.incMod, Device.setF_sb]
@[simp] theorem Device.incMod_nvm (d : Device) (f : Fld) : (d.incMod f).nvm = d.nvm := by
  simp only [Device.incMod, Device.setF_nvm]
@[simp] theorem Device.incMod_ldr (d : Device) (f : Fld) : (d.incMod f).ldr = d.ldr := by
  simp only [Device.incMod, Device.setF_ldr]
@[simp] theorem Device.incMod_freeCtr (d : Device) (f : Fld) : (d.incMod f).freeCtr = d.freeCtr := by
  simp only [Device.incMod, Device.setF_freeCtr]
@[simp] theorem Device.incMod_sent (d : Device) (f : Fld) : (d.incMod f).sent = d.sent := by
  simp only [Device.incMod, Device.setF_sent]

/-! ## A signed field -/

@[simp] theorem Device.setS_mem (d : Device) (f : Fld) (i : Int) : (d.setS f i).mem = d.mem := by
  simp only [Device.setS, Device.setF_mem]
@[simp] theorem Device.setS_larea (d : Device) (f : Fld) (i : Int) : (d.setS f i).larea = d.larea := by
  simp only [Device.setS, Device.setF_larea]
@[simp] theorem Device.setS_prog (d : Device) (f : Fld) (i : Int) : (d.setS f i).prog = d.prog := by
  simp only [Device.setS, Device.setF_prog]
@[simp] theorem Device.setS_ce (d : Device) (f : Fld) (i : Int) : (d.setS f i).ce = d.ce := by
  simp only [Device.setS, Device.setF_ce]
@[simp] theorem Device.setS_task (d : Device) (f : Fld) (i : Int) : (d.setS f i).task = d.task := by
  simp only [Device.setS, Device.setF_task]
@[simp] theorem Device.setS_tick (d : Device) (f : Fld) (i : Int) : (d.setS f i).tick = d.tick := by
  simp only [Device.setS, Device.setF_tick]
@[simp] theorem Device.setS_img (d : Device) (f : Fld) (i : Int) : (d.setS f i).img = d.img := by
  simp only [Device.setS, Device.setF_img]
@[simp] theorem Device.setS_evr (d : Device) (f : Fld) (i : Int) : (d.setS f i).evr = d.evr := by
  simp only [Device.setS, Device.setF_evr]
@[simp] theorem Device.setS_hp (d : Device) (f : Fld) (i : Int) : (d.setS f i).hp = d.hp := by
  simp only [Device.setS, Device.setF_hp]
@[simp] theorem Device.setS_mb (d : Device) (f : Fld) (i : Int) : (d.setS f i).mb = d.mb := by
  simp only [Device.setS, Device.setF_mb]
@[simp] theorem Device.setS_sf (d : Device) (f : Fld) (i : Int) : (d.setS f i).sf = d.sf := by
  simp only [Device.setS, Device.setF_sf]
@[simp] theorem Device.setS_fd (d : Device) (f : Fld) (i : Int) : (d.setS f i).fd = d.fd := by
  simp only [Device.setS, Device.setF_fd]
@[simp] theorem Device.setS_sig (d : Device) (f : Fld) (i : Int) : (d.setS f i).sig = d.sig := by
  simp only [Device.setS, Device.setF_sig]
@[simp] theorem Device.setS_sys (d : Device) (f : Fld) (i : Int) : (d.setS f i).sys = d.sys := by
  simp only [Device.setS, Device.setF_sys]
@[simp] theorem Device.setS_pwr (d : Device) (f : Fld) (i : Int) : (d.setS f i).pwr = d.pwr := by
  simp only [Device.setS, Device.setF_pwr]
@[simp] theorem Device.setS_tb (d : Device) (f : Fld) (i : Int) : (d.setS f i).tb = d.tb := by
  simp only [Device.setS, Device.setF_tb]
@[simp] theorem Device.setS_kl (d : Device) (f : Fld) (i : Int) : (d.setS f i).kl = d.kl := by
  simp only [Device.setS, Device.setF_kl]
@[simp] theorem Device.setS_eth (d : Device) (f : Fld) (i : Int) : (d.setS f i).eth = d.eth := by
  simp only [Device.setS, Device.setF_eth]
@[simp] theorem Device.setS_tri (d : Device) (f : Fld) (i : Int) : (d.setS f i).tri = d.tri := by
  simp only [Device.setS, Device.setF_tri]
@[simp] theorem Device.setS_sc (d : Device) (f : Fld) (i : Int) : (d.setS f i).sc = d.sc := by
  simp only [Device.setS, Device.setF_sc]
@[simp] theorem Device.setS_fo (d : Device) (f : Fld) (i : Int) : (d.setS f i).fo = d.fo := by
  simp only [Device.setS, Device.setF_fo]
@[simp] theorem Device.setS_sb (d : Device) (f : Fld) (i : Int) : (d.setS f i).sb = d.sb := by
  simp only [Device.setS, Device.setF_sb]
@[simp] theorem Device.setS_nvm (d : Device) (f : Fld) (i : Int) : (d.setS f i).nvm = d.nvm := by
  simp only [Device.setS, Device.setF_nvm]
@[simp] theorem Device.setS_ldr (d : Device) (f : Fld) (i : Int) : (d.setS f i).ldr = d.ldr := by
  simp only [Device.setS, Device.setF_ldr]
@[simp] theorem Device.setS_freeCtr (d : Device) (f : Fld) (i : Int) : (d.setS f i).freeCtr = d.freeCtr := by
  simp only [Device.setS, Device.setF_freeCtr]
@[simp] theorem Device.setS_sent (d : Device) (f : Fld) (i : Int) : (d.setS f i).sent = d.sent := by
  simp only [Device.setS, Device.setF_sent]

/-! ## The end of a command -/

@[simp] theorem Device.endCmd_mem (d : Device) (p : Port) (code : Nat) : (d.endCmd p code).mem = d.mem := by
  simp only [Device.endCmd, Device.incMod_mem, Device.setF_mem]
@[simp] theorem Device.endCmd_larea (d : Device) (p : Port) (code : Nat) : (d.endCmd p code).larea = d.larea := by
  simp only [Device.endCmd, Device.incMod_larea, Device.setF_larea]
@[simp] theorem Device.endCmd_prog (d : Device) (p : Port) (code : Nat) : (d.endCmd p code).prog = d.prog := by
  simp only [Device.endCmd, Device.incMod_prog, Device.setF_prog]
@[simp] theorem Device.endCmd_ce (d : Device) (p : Port) (code : Nat) : (d.endCmd p code).ce = d.ce := by
  simp only [Device.endCmd, Device.incMod_ce, Device.setF_ce]
@[simp] theorem Device.endCmd_task (d : Device) (p : Port) (code : Nat) : (d.endCmd p code).task = d.task := by
  simp only [Device.endCmd, Device.incMod_task, Device.setF_task]
@[simp] theorem Device.endCmd_tick (d : Device) (p : Port) (code : Nat) : (d.endCmd p code).tick = d.tick := by
  simp only [Device.endCmd, Device.incMod_tick, Device.setF_tick]
@[simp] theorem Device.endCmd_img (d : Device) (p : Port) (code : Nat) : (d.endCmd p code).img = d.img := by
  simp only [Device.endCmd, Device.incMod_img, Device.setF_img]
@[simp] theorem Device.endCmd_evr (d : Device) (p : Port) (code : Nat) : (d.endCmd p code).evr = d.evr := by
  simp only [Device.endCmd, Device.incMod_evr, Device.setF_evr]
@[simp] theorem Device.endCmd_hp (d : Device) (p : Port) (code : Nat) : (d.endCmd p code).hp = d.hp := by
  simp only [Device.endCmd, Device.incMod_hp, Device.setF_hp]
@[simp] theorem Device.endCmd_mb (d : Device) (p : Port) (code : Nat) : (d.endCmd p code).mb = d.mb := by
  simp only [Device.endCmd, Device.incMod_mb, Device.setF_mb]
@[simp] theorem Device.endCmd_sf (d : Device) (p : Port) (code : Nat) : (d.endCmd p code).sf = d.sf := by
  simp only [Device.endCmd, Device.incMod_sf, Device.setF_sf]
@[simp] theorem Device.endCmd_fd (d : Device) (p : Port) (code : Nat) : (d.endCmd p code).fd = d.fd := by
  simp only [Device.endCmd, Device.incMod_fd, Device.setF_fd]
@[simp] theorem Device.endCmd_sig (d : Device) (p : Port) (code : Nat) : (d.endCmd p code).sig = d.sig := by
  simp only [Device.endCmd, Device.incMod_sig, Device.setF_sig]
@[simp] theorem Device.endCmd_sys (d : Device) (p : Port) (code : Nat) : (d.endCmd p code).sys = d.sys := by
  simp only [Device.endCmd, Device.incMod_sys, Device.setF_sys]
@[simp] theorem Device.endCmd_pwr (d : Device) (p : Port) (code : Nat) : (d.endCmd p code).pwr = d.pwr := by
  simp only [Device.endCmd, Device.incMod_pwr, Device.setF_pwr]
@[simp] theorem Device.endCmd_tb (d : Device) (p : Port) (code : Nat) : (d.endCmd p code).tb = d.tb := by
  simp only [Device.endCmd, Device.incMod_tb, Device.setF_tb]
@[simp] theorem Device.endCmd_kl (d : Device) (p : Port) (code : Nat) : (d.endCmd p code).kl = d.kl := by
  simp only [Device.endCmd, Device.incMod_kl, Device.setF_kl]
@[simp] theorem Device.endCmd_eth (d : Device) (p : Port) (code : Nat) : (d.endCmd p code).eth = d.eth := by
  simp only [Device.endCmd, Device.incMod_eth, Device.setF_eth]
@[simp] theorem Device.endCmd_tri (d : Device) (p : Port) (code : Nat) : (d.endCmd p code).tri = d.tri := by
  simp only [Device.endCmd, Device.incMod_tri, Device.setF_tri]
@[simp] theorem Device.endCmd_sc (d : Device) (p : Port) (code : Nat) : (d.endCmd p code).sc = d.sc := by
  simp only [Device.endCmd, Device.incMod_sc, Device.setF_sc]
@[simp] theorem Device.endCmd_fo (d : Device) (p : Port) (code : Nat) : (d.endCmd p code).fo = d.fo := by
  simp only [Device.endCmd, Device.incMod_fo, Device.setF_fo]
@[simp] theorem Device.endCmd_sb (d : Device) (p : Port) (code : Nat) : (d.endCmd p code).sb = d.sb := by
  simp only [Device.endCmd, Device.incMod_sb, Device.setF_sb]
@[simp] theorem Device.endCmd_nvm (d : Device) (p : Port) (code : Nat) : (d.endCmd p code).nvm = d.nvm := by
  simp only [Device.endCmd, Device.incMod_nvm, Device.setF_nvm]
@[simp] theorem Device.endCmd_ldr (d : Device) (p : Port) (code : Nat) : (d.endCmd p code).ldr = d.ldr := by
  simp only [Device.endCmd, Device.incMod_ldr, Device.setF_ldr]
@[simp] theorem Device.endCmd_freeCtr (d : Device) (p : Port) (code : Nat) : (d.endCmd p code).freeCtr = d.freeCtr := by
  simp only [Device.endCmd, Device.incMod_freeCtr, Device.setF_freeCtr]
@[simp] theorem Device.endCmd_sent (d : Device) (p : Port) (code : Nat) : (d.endCmd p code).sent = d.sent := by
  simp only [Device.endCmd, Device.incMod_sent, Device.setF_sent]

/-! ## The start of a command -/

@[simp] theorem Device.beginCmd_mem (d : Device) (p : Port) : (d.beginCmd p).mem = d.mem := by
  simp only [Device.beginCmd, Device.setF_mem]
@[simp] theorem Device.beginCmd_larea (d : Device) (p : Port) : (d.beginCmd p).larea = d.larea := by
  simp only [Device.beginCmd, Device.setF_larea]
@[simp] theorem Device.beginCmd_prog (d : Device) (p : Port) : (d.beginCmd p).prog = d.prog := by
  simp only [Device.beginCmd, Device.setF_prog]
@[simp] theorem Device.beginCmd_ce (d : Device) (p : Port) : (d.beginCmd p).ce = d.ce := by
  simp only [Device.beginCmd, Device.setF_ce]
@[simp] theorem Device.beginCmd_task (d : Device) (p : Port) : (d.beginCmd p).task = d.task := by
  simp only [Device.beginCmd, Device.setF_task]
@[simp] theorem Device.beginCmd_tick (d : Device) (p : Port) : (d.beginCmd p).tick = d.tick := by
  simp only [Device.beginCmd, Device.setF_tick]
@[simp] theorem Device.beginCmd_img (d : Device) (p : Port) : (d.beginCmd p).img = d.img := by
  simp only [Device.beginCmd, Device.setF_img]
@[simp] theorem Device.beginCmd_evr (d : Device) (p : Port) : (d.beginCmd p).evr = d.evr := by
  simp only [Device.beginCmd, Device.setF_evr]
@[simp] theorem Device.beginCmd_hp (d : Device) (p : Port) : (d.beginCmd p).hp = d.hp := by
  simp only [Device.beginCmd, Device.setF_hp]
@[simp] theorem Device.beginCmd_mb (d : Device) (p : Port) : (d.beginCmd p).mb = d.mb := by
  simp only [Device.beginCmd, Device.setF_mb]
@[simp] theorem Device.beginCmd_sf (d : Device) (p : Port) : (d.beginCmd p).sf = d.sf := by
  simp only [Device.beginCmd, Device.setF_sf]
@[simp] theorem Device.beginCmd_fd (d : Device) (p : Port) : (d.beginCmd p).fd = d.fd := by
  simp only [Device.beginCmd, Device.setF_fd]
@[simp] theorem Device.beginCmd_sig (d : Device) (p : Port) : (d.beginCmd p).sig = d.sig := by
  simp only [Device.beginCmd, Device.setF_sig]
@[simp] theorem Device.beginCmd_sys (d : Device) (p : Port) : (d.beginCmd p).sys = d.sys := by
  simp only [Device.beginCmd, Device.setF_sys]
@[simp] theorem Device.beginCmd_pwr (d : Device) (p : Port) : (d.beginCmd p).pwr = d.pwr := by
  simp only [Device.beginCmd, Device.setF_pwr]
@[simp] theorem Device.beginCmd_tb (d : Device) (p : Port) : (d.beginCmd p).tb = d.tb := by
  simp only [Device.beginCmd, Device.setF_tb]
@[simp] theorem Device.beginCmd_kl (d : Device) (p : Port) : (d.beginCmd p).kl = d.kl := by
  simp only [Device.beginCmd, Device.setF_kl]
@[simp] theorem Device.beginCmd_eth (d : Device) (p : Port) : (d.beginCmd p).eth = d.eth := by
  simp only [Device.beginCmd, Device.setF_eth]
@[simp] theorem Device.beginCmd_tri (d : Device) (p : Port) : (d.beginCmd p).tri = d.tri := by
  simp only [Device.beginCmd, Device.setF_tri]
@[simp] theorem Device.beginCmd_sc (d : Device) (p : Port) : (d.beginCmd p).sc = d.sc := by
  simp only [Device.beginCmd, Device.setF_sc]
@[simp] theorem Device.beginCmd_fo (d : Device) (p : Port) : (d.beginCmd p).fo = d.fo := by
  simp only [Device.beginCmd, Device.setF_fo]
@[simp] theorem Device.beginCmd_sb (d : Device) (p : Port) : (d.beginCmd p).sb = d.sb := by
  simp only [Device.beginCmd, Device.setF_sb]
@[simp] theorem Device.beginCmd_nvm (d : Device) (p : Port) : (d.beginCmd p).nvm = d.nvm := by
  simp only [Device.beginCmd, Device.setF_nvm]
@[simp] theorem Device.beginCmd_ldr (d : Device) (p : Port) : (d.beginCmd p).ldr = d.ldr := by
  simp only [Device.beginCmd, Device.setF_ldr]
@[simp] theorem Device.beginCmd_freeCtr (d : Device) (p : Port) : (d.beginCmd p).freeCtr = d.freeCtr := by
  simp only [Device.beginCmd, Device.setF_freeCtr]
@[simp] theorem Device.beginCmd_sent (d : Device) (p : Port) : (d.beginCmd p).sent = d.sent := by
  simp only [Device.beginCmd, Device.setF_sent]

/-! ## A byte of SDM or PIM -/

@[simp] theorem Device.setByte_regs (d : Device) (a : Nat) (v : Byte) : (d.setByte a v).regs = d.regs := by
  simp only [Device.setByte]
@[simp] theorem Device.setByte_larea (d : Device) (a : Nat) (v : Byte) : (d.setByte a v).larea = d.larea := by
  simp only [Device.setByte]
@[simp] theorem Device.setByte_prog (d : Device) (a : Nat) (v : Byte) : (d.setByte a v).prog = d.prog := by
  simp only [Device.setByte]
@[simp] theorem Device.setByte_ce (d : Device) (a : Nat) (v : Byte) : (d.setByte a v).ce = d.ce := by
  simp only [Device.setByte]
@[simp] theorem Device.setByte_task (d : Device) (a : Nat) (v : Byte) : (d.setByte a v).task = d.task := by
  simp only [Device.setByte]
@[simp] theorem Device.setByte_tick (d : Device) (a : Nat) (v : Byte) : (d.setByte a v).tick = d.tick := by
  simp only [Device.setByte]
@[simp] theorem Device.setByte_img (d : Device) (a : Nat) (v : Byte) : (d.setByte a v).img = d.img := by
  simp only [Device.setByte]
@[simp] theorem Device.setByte_evr (d : Device) (a : Nat) (v : Byte) : (d.setByte a v).evr = d.evr := by
  simp only [Device.setByte]
@[simp] theorem Device.setByte_hp (d : Device) (a : Nat) (v : Byte) : (d.setByte a v).hp = d.hp := by
  simp only [Device.setByte]
@[simp] theorem Device.setByte_mb (d : Device) (a : Nat) (v : Byte) : (d.setByte a v).mb = d.mb := by
  simp only [Device.setByte]
@[simp] theorem Device.setByte_sf (d : Device) (a : Nat) (v : Byte) : (d.setByte a v).sf = d.sf := by
  simp only [Device.setByte]
@[simp] theorem Device.setByte_fd (d : Device) (a : Nat) (v : Byte) : (d.setByte a v).fd = d.fd := by
  simp only [Device.setByte]
@[simp] theorem Device.setByte_sig (d : Device) (a : Nat) (v : Byte) : (d.setByte a v).sig = d.sig := by
  simp only [Device.setByte]
@[simp] theorem Device.setByte_sys (d : Device) (a : Nat) (v : Byte) : (d.setByte a v).sys = d.sys := by
  simp only [Device.setByte]
@[simp] theorem Device.setByte_pwr (d : Device) (a : Nat) (v : Byte) : (d.setByte a v).pwr = d.pwr := by
  simp only [Device.setByte]
@[simp] theorem Device.setByte_tb (d : Device) (a : Nat) (v : Byte) : (d.setByte a v).tb = d.tb := by
  simp only [Device.setByte]
@[simp] theorem Device.setByte_kl (d : Device) (a : Nat) (v : Byte) : (d.setByte a v).kl = d.kl := by
  simp only [Device.setByte]
@[simp] theorem Device.setByte_eth (d : Device) (a : Nat) (v : Byte) : (d.setByte a v).eth = d.eth := by
  simp only [Device.setByte]
@[simp] theorem Device.setByte_tri (d : Device) (a : Nat) (v : Byte) : (d.setByte a v).tri = d.tri := by
  simp only [Device.setByte]
@[simp] theorem Device.setByte_sc (d : Device) (a : Nat) (v : Byte) : (d.setByte a v).sc = d.sc := by
  simp only [Device.setByte]
@[simp] theorem Device.setByte_fo (d : Device) (a : Nat) (v : Byte) : (d.setByte a v).fo = d.fo := by
  simp only [Device.setByte]
@[simp] theorem Device.setByte_sb (d : Device) (a : Nat) (v : Byte) : (d.setByte a v).sb = d.sb := by
  simp only [Device.setByte]
@[simp] theorem Device.setByte_nvm (d : Device) (a : Nat) (v : Byte) : (d.setByte a v).nvm = d.nvm := by
  simp only [Device.setByte]
@[simp] theorem Device.setByte_ldr (d : Device) (a : Nat) (v : Byte) : (d.setByte a v).ldr = d.ldr := by
  simp only [Device.setByte]
@[simp] theorem Device.setByte_freeCtr (d : Device) (a : Nat) (v : Byte) : (d.setByte a v).freeCtr = d.freeCtr := by
  simp only [Device.setByte]
@[simp] theorem Device.setByte_sent (d : Device) (a : Nat) (v : Byte) : (d.setByte a v).sent = d.sent := by
  simp only [Device.setByte]

/-! ## A context -/

@[simp] theorem Device.setCtx_regs (d : Device) (e : Nat) (c : Nat) (x : Ctx) : (d.setCtx e c x).regs = d.regs := by
  simp only [Device.setCtx]
@[simp] theorem Device.setCtx_mem (d : Device) (e : Nat) (c : Nat) (x : Ctx) : (d.setCtx e c x).mem = d.mem := by
  simp only [Device.setCtx]
@[simp] theorem Device.setCtx_larea (d : Device) (e : Nat) (c : Nat) (x : Ctx) : (d.setCtx e c x).larea = d.larea := by
  simp only [Device.setCtx]
@[simp] theorem Device.setCtx_prog (d : Device) (e : Nat) (c : Nat) (x : Ctx) : (d.setCtx e c x).prog = d.prog := by
  simp only [Device.setCtx]
@[simp] theorem Device.setCtx_task (d : Device) (e : Nat) (c : Nat) (x : Ctx) : (d.setCtx e c x).task = d.task := by
  simp only [Device.setCtx]
@[simp] theorem Device.setCtx_tick (d : Device) (e : Nat) (c : Nat) (x : Ctx) : (d.setCtx e c x).tick = d.tick := by
  simp only [Device.setCtx]
@[simp] theorem Device.setCtx_img (d : Device) (e : Nat) (c : Nat) (x : Ctx) : (d.setCtx e c x).img = d.img := by
  simp only [Device.setCtx]
@[simp] theorem Device.setCtx_evr (d : Device) (e : Nat) (c : Nat) (x : Ctx) : (d.setCtx e c x).evr = d.evr := by
  simp only [Device.setCtx]
@[simp] theorem Device.setCtx_hp (d : Device) (e : Nat) (c : Nat) (x : Ctx) : (d.setCtx e c x).hp = d.hp := by
  simp only [Device.setCtx]
@[simp] theorem Device.setCtx_mb (d : Device) (e : Nat) (c : Nat) (x : Ctx) : (d.setCtx e c x).mb = d.mb := by
  simp only [Device.setCtx]
@[simp] theorem Device.setCtx_sf (d : Device) (e : Nat) (c : Nat) (x : Ctx) : (d.setCtx e c x).sf = d.sf := by
  simp only [Device.setCtx]
@[simp] theorem Device.setCtx_fd (d : Device) (e : Nat) (c : Nat) (x : Ctx) : (d.setCtx e c x).fd = d.fd := by
  simp only [Device.setCtx]
@[simp] theorem Device.setCtx_sig (d : Device) (e : Nat) (c : Nat) (x : Ctx) : (d.setCtx e c x).sig = d.sig := by
  simp only [Device.setCtx]
@[simp] theorem Device.setCtx_sys (d : Device) (e : Nat) (c : Nat) (x : Ctx) : (d.setCtx e c x).sys = d.sys := by
  simp only [Device.setCtx]
@[simp] theorem Device.setCtx_pwr (d : Device) (e : Nat) (c : Nat) (x : Ctx) : (d.setCtx e c x).pwr = d.pwr := by
  simp only [Device.setCtx]
@[simp] theorem Device.setCtx_tb (d : Device) (e : Nat) (c : Nat) (x : Ctx) : (d.setCtx e c x).tb = d.tb := by
  simp only [Device.setCtx]
@[simp] theorem Device.setCtx_kl (d : Device) (e : Nat) (c : Nat) (x : Ctx) : (d.setCtx e c x).kl = d.kl := by
  simp only [Device.setCtx]
@[simp] theorem Device.setCtx_eth (d : Device) (e : Nat) (c : Nat) (x : Ctx) : (d.setCtx e c x).eth = d.eth := by
  simp only [Device.setCtx]
@[simp] theorem Device.setCtx_tri (d : Device) (e : Nat) (c : Nat) (x : Ctx) : (d.setCtx e c x).tri = d.tri := by
  simp only [Device.setCtx]
@[simp] theorem Device.setCtx_sc (d : Device) (e : Nat) (c : Nat) (x : Ctx) : (d.setCtx e c x).sc = d.sc := by
  simp only [Device.setCtx]
@[simp] theorem Device.setCtx_fo (d : Device) (e : Nat) (c : Nat) (x : Ctx) : (d.setCtx e c x).fo = d.fo := by
  simp only [Device.setCtx]
@[simp] theorem Device.setCtx_sb (d : Device) (e : Nat) (c : Nat) (x : Ctx) : (d.setCtx e c x).sb = d.sb := by
  simp only [Device.setCtx]
@[simp] theorem Device.setCtx_nvm (d : Device) (e : Nat) (c : Nat) (x : Ctx) : (d.setCtx e c x).nvm = d.nvm := by
  simp only [Device.setCtx]
@[simp] theorem Device.setCtx_ldr (d : Device) (e : Nat) (c : Nat) (x : Ctx) : (d.setCtx e c x).ldr = d.ldr := by
  simp only [Device.setCtx]
@[simp] theorem Device.setCtx_freeCtr (d : Device) (e : Nat) (c : Nat) (x : Ctx) : (d.setCtx e c x).freeCtr = d.freeCtr := by
  simp only [Device.setCtx]
@[simp] theorem Device.setCtx_sent (d : Device) (e : Nat) (c : Nat) (x : Ctx) : (d.setCtx e c x).sent = d.sent := by
  simp only [Device.setCtx]

/-! ## A timer cell -/

@[simp] theorem Device.setTcell_regs (d : Device) (n : Nat) (t : TCell) : (d.setTcell n t).regs = d.regs := by
  simp only [Device.setTcell]
@[simp] theorem Device.setTcell_mem (d : Device) (n : Nat) (t : TCell) : (d.setTcell n t).mem = d.mem := by
  simp only [Device.setTcell]
@[simp] theorem Device.setTcell_larea (d : Device) (n : Nat) (t : TCell) : (d.setTcell n t).larea = d.larea := by
  simp only [Device.setTcell]
@[simp] theorem Device.setTcell_prog (d : Device) (n : Nat) (t : TCell) : (d.setTcell n t).prog = d.prog := by
  simp only [Device.setTcell]
@[simp] theorem Device.setTcell_task (d : Device) (n : Nat) (t : TCell) : (d.setTcell n t).task = d.task := by
  simp only [Device.setTcell]
@[simp] theorem Device.setTcell_tick (d : Device) (n : Nat) (t : TCell) : (d.setTcell n t).tick = d.tick := by
  simp only [Device.setTcell]
@[simp] theorem Device.setTcell_img (d : Device) (n : Nat) (t : TCell) : (d.setTcell n t).img = d.img := by
  simp only [Device.setTcell]
@[simp] theorem Device.setTcell_evr (d : Device) (n : Nat) (t : TCell) : (d.setTcell n t).evr = d.evr := by
  simp only [Device.setTcell]
@[simp] theorem Device.setTcell_hp (d : Device) (n : Nat) (t : TCell) : (d.setTcell n t).hp = d.hp := by
  simp only [Device.setTcell]
@[simp] theorem Device.setTcell_mb (d : Device) (n : Nat) (t : TCell) : (d.setTcell n t).mb = d.mb := by
  simp only [Device.setTcell]
@[simp] theorem Device.setTcell_sf (d : Device) (n : Nat) (t : TCell) : (d.setTcell n t).sf = d.sf := by
  simp only [Device.setTcell]
@[simp] theorem Device.setTcell_fd (d : Device) (n : Nat) (t : TCell) : (d.setTcell n t).fd = d.fd := by
  simp only [Device.setTcell]
@[simp] theorem Device.setTcell_sig (d : Device) (n : Nat) (t : TCell) : (d.setTcell n t).sig = d.sig := by
  simp only [Device.setTcell]
@[simp] theorem Device.setTcell_sys (d : Device) (n : Nat) (t : TCell) : (d.setTcell n t).sys = d.sys := by
  simp only [Device.setTcell]
@[simp] theorem Device.setTcell_pwr (d : Device) (n : Nat) (t : TCell) : (d.setTcell n t).pwr = d.pwr := by
  simp only [Device.setTcell]
@[simp] theorem Device.setTcell_tb (d : Device) (n : Nat) (t : TCell) : (d.setTcell n t).tb = d.tb := by
  simp only [Device.setTcell]
@[simp] theorem Device.setTcell_kl (d : Device) (n : Nat) (t : TCell) : (d.setTcell n t).kl = d.kl := by
  simp only [Device.setTcell]
@[simp] theorem Device.setTcell_eth (d : Device) (n : Nat) (t : TCell) : (d.setTcell n t).eth = d.eth := by
  simp only [Device.setTcell]
@[simp] theorem Device.setTcell_tri (d : Device) (n : Nat) (t : TCell) : (d.setTcell n t).tri = d.tri := by
  simp only [Device.setTcell]
@[simp] theorem Device.setTcell_sc (d : Device) (n : Nat) (t : TCell) : (d.setTcell n t).sc = d.sc := by
  simp only [Device.setTcell]
@[simp] theorem Device.setTcell_fo (d : Device) (n : Nat) (t : TCell) : (d.setTcell n t).fo = d.fo := by
  simp only [Device.setTcell]
@[simp] theorem Device.setTcell_sb (d : Device) (n : Nat) (t : TCell) : (d.setTcell n t).sb = d.sb := by
  simp only [Device.setTcell]
@[simp] theorem Device.setTcell_nvm (d : Device) (n : Nat) (t : TCell) : (d.setTcell n t).nvm = d.nvm := by
  simp only [Device.setTcell]
@[simp] theorem Device.setTcell_ldr (d : Device) (n : Nat) (t : TCell) : (d.setTcell n t).ldr = d.ldr := by
  simp only [Device.setTcell]
@[simp] theorem Device.setTcell_freeCtr (d : Device) (n : Nat) (t : TCell) : (d.setTcell n t).freeCtr = d.freeCtr := by
  simp only [Device.setTcell]
@[simp] theorem Device.setTcell_sent (d : Device) (n : Nat) (t : TCell) : (d.setTcell n t).sent = d.sent := by
  simp only [Device.setTcell]

/-! ## A counter cell -/

@[simp] theorem Device.setCcell_regs (d : Device) (n : Nat) (c : CCell) : (d.setCcell n c).regs = d.regs := by
  simp only [Device.setCcell]
@[simp] theorem Device.setCcell_mem (d : Device) (n : Nat) (c : CCell) : (d.setCcell n c).mem = d.mem := by
  simp only [Device.setCcell]
@[simp] theorem Device.setCcell_larea (d : Device) (n : Nat) (c : CCell) : (d.setCcell n c).larea = d.larea := by
  simp only [Device.setCcell]
@[simp] theorem Device.setCcell_prog (d : Device) (n : Nat) (c : CCell) : (d.setCcell n c).prog = d.prog := by
  simp only [Device.setCcell]
@[simp] theorem Device.setCcell_task (d : Device) (n : Nat) (c : CCell) : (d.setCcell n c).task = d.task := by
  simp only [Device.setCcell]
@[simp] theorem Device.setCcell_tick (d : Device) (n : Nat) (c : CCell) : (d.setCcell n c).tick = d.tick := by
  simp only [Device.setCcell]
@[simp] theorem Device.setCcell_img (d : Device) (n : Nat) (c : CCell) : (d.setCcell n c).img = d.img := by
  simp only [Device.setCcell]
@[simp] theorem Device.setCcell_evr (d : Device) (n : Nat) (c : CCell) : (d.setCcell n c).evr = d.evr := by
  simp only [Device.setCcell]
@[simp] theorem Device.setCcell_hp (d : Device) (n : Nat) (c : CCell) : (d.setCcell n c).hp = d.hp := by
  simp only [Device.setCcell]
@[simp] theorem Device.setCcell_mb (d : Device) (n : Nat) (c : CCell) : (d.setCcell n c).mb = d.mb := by
  simp only [Device.setCcell]
@[simp] theorem Device.setCcell_sf (d : Device) (n : Nat) (c : CCell) : (d.setCcell n c).sf = d.sf := by
  simp only [Device.setCcell]
@[simp] theorem Device.setCcell_fd (d : Device) (n : Nat) (c : CCell) : (d.setCcell n c).fd = d.fd := by
  simp only [Device.setCcell]
@[simp] theorem Device.setCcell_sig (d : Device) (n : Nat) (c : CCell) : (d.setCcell n c).sig = d.sig := by
  simp only [Device.setCcell]
@[simp] theorem Device.setCcell_sys (d : Device) (n : Nat) (c : CCell) : (d.setCcell n c).sys = d.sys := by
  simp only [Device.setCcell]
@[simp] theorem Device.setCcell_pwr (d : Device) (n : Nat) (c : CCell) : (d.setCcell n c).pwr = d.pwr := by
  simp only [Device.setCcell]
@[simp] theorem Device.setCcell_tb (d : Device) (n : Nat) (c : CCell) : (d.setCcell n c).tb = d.tb := by
  simp only [Device.setCcell]
@[simp] theorem Device.setCcell_kl (d : Device) (n : Nat) (c : CCell) : (d.setCcell n c).kl = d.kl := by
  simp only [Device.setCcell]
@[simp] theorem Device.setCcell_eth (d : Device) (n : Nat) (c : CCell) : (d.setCcell n c).eth = d.eth := by
  simp only [Device.setCcell]
@[simp] theorem Device.setCcell_tri (d : Device) (n : Nat) (c : CCell) : (d.setCcell n c).tri = d.tri := by
  simp only [Device.setCcell]
@[simp] theorem Device.setCcell_sc (d : Device) (n : Nat) (c : CCell) : (d.setCcell n c).sc = d.sc := by
  simp only [Device.setCcell]
@[simp] theorem Device.setCcell_fo (d : Device) (n : Nat) (c : CCell) : (d.setCcell n c).fo = d.fo := by
  simp only [Device.setCcell]
@[simp] theorem Device.setCcell_sb (d : Device) (n : Nat) (c : CCell) : (d.setCcell n c).sb = d.sb := by
  simp only [Device.setCcell]
@[simp] theorem Device.setCcell_nvm (d : Device) (n : Nat) (c : CCell) : (d.setCcell n c).nvm = d.nvm := by
  simp only [Device.setCcell]
@[simp] theorem Device.setCcell_ldr (d : Device) (n : Nat) (c : CCell) : (d.setCcell n c).ldr = d.ldr := by
  simp only [Device.setCcell]
@[simp] theorem Device.setCcell_freeCtr (d : Device) (n : Nat) (c : CCell) : (d.setCcell n c).freeCtr = d.freeCtr := by
  simp only [Device.setCcell]
@[simp] theorem Device.setCcell_sent (d : Device) (n : Nat) (c : CCell) : (d.setCcell n c).sent = d.sent := by
  simp only [Device.setCcell]

/-! ## The error in a codeword -/

@[simp] theorem Device.setEcc_regs (d : Device) (k : Nat) (x : Ecc) : (d.setEcc k x).regs = d.regs := by
  simp only [Device.setEcc]
@[simp] theorem Device.setEcc_mem (d : Device) (k : Nat) (x : Ecc) : (d.setEcc k x).mem = d.mem := by
  simp only [Device.setEcc]
@[simp] theorem Device.setEcc_larea (d : Device) (k : Nat) (x : Ecc) : (d.setEcc k x).larea = d.larea := by
  simp only [Device.setEcc]
@[simp] theorem Device.setEcc_prog (d : Device) (k : Nat) (x : Ecc) : (d.setEcc k x).prog = d.prog := by
  simp only [Device.setEcc]
@[simp] theorem Device.setEcc_task (d : Device) (k : Nat) (x : Ecc) : (d.setEcc k x).task = d.task := by
  simp only [Device.setEcc]
@[simp] theorem Device.setEcc_tick (d : Device) (k : Nat) (x : Ecc) : (d.setEcc k x).tick = d.tick := by
  simp only [Device.setEcc]
@[simp] theorem Device.setEcc_img (d : Device) (k : Nat) (x : Ecc) : (d.setEcc k x).img = d.img := by
  simp only [Device.setEcc]
@[simp] theorem Device.setEcc_evr (d : Device) (k : Nat) (x : Ecc) : (d.setEcc k x).evr = d.evr := by
  simp only [Device.setEcc]
@[simp] theorem Device.setEcc_hp (d : Device) (k : Nat) (x : Ecc) : (d.setEcc k x).hp = d.hp := by
  simp only [Device.setEcc]
@[simp] theorem Device.setEcc_mb (d : Device) (k : Nat) (x : Ecc) : (d.setEcc k x).mb = d.mb := by
  simp only [Device.setEcc]
@[simp] theorem Device.setEcc_sf (d : Device) (k : Nat) (x : Ecc) : (d.setEcc k x).sf = d.sf := by
  simp only [Device.setEcc]
@[simp] theorem Device.setEcc_fd (d : Device) (k : Nat) (x : Ecc) : (d.setEcc k x).fd = d.fd := by
  simp only [Device.setEcc]
@[simp] theorem Device.setEcc_sig (d : Device) (k : Nat) (x : Ecc) : (d.setEcc k x).sig = d.sig := by
  simp only [Device.setEcc]
@[simp] theorem Device.setEcc_sys (d : Device) (k : Nat) (x : Ecc) : (d.setEcc k x).sys = d.sys := by
  simp only [Device.setEcc]
@[simp] theorem Device.setEcc_pwr (d : Device) (k : Nat) (x : Ecc) : (d.setEcc k x).pwr = d.pwr := by
  simp only [Device.setEcc]
@[simp] theorem Device.setEcc_tb (d : Device) (k : Nat) (x : Ecc) : (d.setEcc k x).tb = d.tb := by
  simp only [Device.setEcc]
@[simp] theorem Device.setEcc_kl (d : Device) (k : Nat) (x : Ecc) : (d.setEcc k x).kl = d.kl := by
  simp only [Device.setEcc]
@[simp] theorem Device.setEcc_eth (d : Device) (k : Nat) (x : Ecc) : (d.setEcc k x).eth = d.eth := by
  simp only [Device.setEcc]
@[simp] theorem Device.setEcc_tri (d : Device) (k : Nat) (x : Ecc) : (d.setEcc k x).tri = d.tri := by
  simp only [Device.setEcc]
@[simp] theorem Device.setEcc_sc (d : Device) (k : Nat) (x : Ecc) : (d.setEcc k x).sc = d.sc := by
  simp only [Device.setEcc]
@[simp] theorem Device.setEcc_fo (d : Device) (k : Nat) (x : Ecc) : (d.setEcc k x).fo = d.fo := by
  simp only [Device.setEcc]
@[simp] theorem Device.setEcc_sb (d : Device) (k : Nat) (x : Ecc) : (d.setEcc k x).sb = d.sb := by
  simp only [Device.setEcc]
@[simp] theorem Device.setEcc_nvm (d : Device) (k : Nat) (x : Ecc) : (d.setEcc k x).nvm = d.nvm := by
  simp only [Device.setEcc]
@[simp] theorem Device.setEcc_ldr (d : Device) (k : Nat) (x : Ecc) : (d.setEcc k x).ldr = d.ldr := by
  simp only [Device.setEcc]
@[simp] theorem Device.setEcc_freeCtr (d : Device) (k : Nat) (x : Ecc) : (d.setEcc k x).freeCtr = d.freeCtr := by
  simp only [Device.setEcc]
@[simp] theorem Device.setEcc_sent (d : Device) (k : Nat) (x : Ecc) : (d.setEcc k x).sent = d.sent := by
  simp only [Device.setEcc]

/-! ## A pending release -/

@[simp] theorem Device.setRel_regs (d : Device) (e : Nat) (c : Nat) (r : Option Rel) : (d.setRel e c r).regs = d.regs := by
  simp only [Device.setRel]
@[simp] theorem Device.setRel_mem (d : Device) (e : Nat) (c : Nat) (r : Option Rel) : (d.setRel e c r).mem = d.mem := by
  simp only [Device.setRel]
@[simp] theorem Device.setRel_larea (d : Device) (e : Nat) (c : Nat) (r : Option Rel) : (d.setRel e c r).larea = d.larea := by
  simp only [Device.setRel]
@[simp] theorem Device.setRel_prog (d : Device) (e : Nat) (c : Nat) (r : Option Rel) : (d.setRel e c r).prog = d.prog := by
  simp only [Device.setRel]
@[simp] theorem Device.setRel_ce (d : Device) (e : Nat) (c : Nat) (r : Option Rel) : (d.setRel e c r).ce = d.ce := by
  simp only [Device.setRel]
@[simp] theorem Device.setRel_tick (d : Device) (e : Nat) (c : Nat) (r : Option Rel) : (d.setRel e c r).tick = d.tick := by
  simp only [Device.setRel]
@[simp] theorem Device.setRel_img (d : Device) (e : Nat) (c : Nat) (r : Option Rel) : (d.setRel e c r).img = d.img := by
  simp only [Device.setRel]
@[simp] theorem Device.setRel_evr (d : Device) (e : Nat) (c : Nat) (r : Option Rel) : (d.setRel e c r).evr = d.evr := by
  simp only [Device.setRel]
@[simp] theorem Device.setRel_hp (d : Device) (e : Nat) (c : Nat) (r : Option Rel) : (d.setRel e c r).hp = d.hp := by
  simp only [Device.setRel]
@[simp] theorem Device.setRel_mb (d : Device) (e : Nat) (c : Nat) (r : Option Rel) : (d.setRel e c r).mb = d.mb := by
  simp only [Device.setRel]
@[simp] theorem Device.setRel_sf (d : Device) (e : Nat) (c : Nat) (r : Option Rel) : (d.setRel e c r).sf = d.sf := by
  simp only [Device.setRel]
@[simp] theorem Device.setRel_fd (d : Device) (e : Nat) (c : Nat) (r : Option Rel) : (d.setRel e c r).fd = d.fd := by
  simp only [Device.setRel]
@[simp] theorem Device.setRel_sig (d : Device) (e : Nat) (c : Nat) (r : Option Rel) : (d.setRel e c r).sig = d.sig := by
  simp only [Device.setRel]
@[simp] theorem Device.setRel_sys (d : Device) (e : Nat) (c : Nat) (r : Option Rel) : (d.setRel e c r).sys = d.sys := by
  simp only [Device.setRel]
@[simp] theorem Device.setRel_pwr (d : Device) (e : Nat) (c : Nat) (r : Option Rel) : (d.setRel e c r).pwr = d.pwr := by
  simp only [Device.setRel]
@[simp] theorem Device.setRel_tb (d : Device) (e : Nat) (c : Nat) (r : Option Rel) : (d.setRel e c r).tb = d.tb := by
  simp only [Device.setRel]
@[simp] theorem Device.setRel_kl (d : Device) (e : Nat) (c : Nat) (r : Option Rel) : (d.setRel e c r).kl = d.kl := by
  simp only [Device.setRel]
@[simp] theorem Device.setRel_eth (d : Device) (e : Nat) (c : Nat) (r : Option Rel) : (d.setRel e c r).eth = d.eth := by
  simp only [Device.setRel]
@[simp] theorem Device.setRel_tri (d : Device) (e : Nat) (c : Nat) (r : Option Rel) : (d.setRel e c r).tri = d.tri := by
  simp only [Device.setRel]
@[simp] theorem Device.setRel_sc (d : Device) (e : Nat) (c : Nat) (r : Option Rel) : (d.setRel e c r).sc = d.sc := by
  simp only [Device.setRel]
@[simp] theorem Device.setRel_fo (d : Device) (e : Nat) (c : Nat) (r : Option Rel) : (d.setRel e c r).fo = d.fo := by
  simp only [Device.setRel]
@[simp] theorem Device.setRel_sb (d : Device) (e : Nat) (c : Nat) (r : Option Rel) : (d.setRel e c r).sb = d.sb := by
  simp only [Device.setRel]
@[simp] theorem Device.setRel_nvm (d : Device) (e : Nat) (c : Nat) (r : Option Rel) : (d.setRel e c r).nvm = d.nvm := by
  simp only [Device.setRel]
@[simp] theorem Device.setRel_ldr (d : Device) (e : Nat) (c : Nat) (r : Option Rel) : (d.setRel e c r).ldr = d.ldr := by
  simp only [Device.setRel]
@[simp] theorem Device.setRel_freeCtr (d : Device) (e : Nat) (c : Nat) (r : Option Rel) : (d.setRel e c r).freeCtr = d.freeCtr := by
  simp only [Device.setRel]
@[simp] theorem Device.setRel_sent (d : Device) (e : Nat) (c : Nat) (r : Option Rel) : (d.setRel e c r).sent = d.sent := by
  simp only [Device.setRel]

/-! ## A Kloul port -/

@[simp] theorem Device.setKlPort_regs (d : Device) (p : Nat) (k : KlPort) : (d.setKlPort p k).regs = d.regs := by
  simp only [Device.setKlPort]
@[simp] theorem Device.setKlPort_mem (d : Device) (p : Nat) (k : KlPort) : (d.setKlPort p k).mem = d.mem := by
  simp only [Device.setKlPort]
@[simp] theorem Device.setKlPort_larea (d : Device) (p : Nat) (k : KlPort) : (d.setKlPort p k).larea = d.larea := by
  simp only [Device.setKlPort]
@[simp] theorem Device.setKlPort_prog (d : Device) (p : Nat) (k : KlPort) : (d.setKlPort p k).prog = d.prog := by
  simp only [Device.setKlPort]
@[simp] theorem Device.setKlPort_ce (d : Device) (p : Nat) (k : KlPort) : (d.setKlPort p k).ce = d.ce := by
  simp only [Device.setKlPort]
@[simp] theorem Device.setKlPort_task (d : Device) (p : Nat) (k : KlPort) : (d.setKlPort p k).task = d.task := by
  simp only [Device.setKlPort]
@[simp] theorem Device.setKlPort_tick (d : Device) (p : Nat) (k : KlPort) : (d.setKlPort p k).tick = d.tick := by
  simp only [Device.setKlPort]
@[simp] theorem Device.setKlPort_img (d : Device) (p : Nat) (k : KlPort) : (d.setKlPort p k).img = d.img := by
  simp only [Device.setKlPort]
@[simp] theorem Device.setKlPort_evr (d : Device) (p : Nat) (k : KlPort) : (d.setKlPort p k).evr = d.evr := by
  simp only [Device.setKlPort]
@[simp] theorem Device.setKlPort_hp (d : Device) (p : Nat) (k : KlPort) : (d.setKlPort p k).hp = d.hp := by
  simp only [Device.setKlPort]
@[simp] theorem Device.setKlPort_mb (d : Device) (p : Nat) (k : KlPort) : (d.setKlPort p k).mb = d.mb := by
  simp only [Device.setKlPort]
@[simp] theorem Device.setKlPort_sf (d : Device) (p : Nat) (k : KlPort) : (d.setKlPort p k).sf = d.sf := by
  simp only [Device.setKlPort]
@[simp] theorem Device.setKlPort_fd (d : Device) (p : Nat) (k : KlPort) : (d.setKlPort p k).fd = d.fd := by
  simp only [Device.setKlPort]
@[simp] theorem Device.setKlPort_sig (d : Device) (p : Nat) (k : KlPort) : (d.setKlPort p k).sig = d.sig := by
  simp only [Device.setKlPort]
@[simp] theorem Device.setKlPort_sys (d : Device) (p : Nat) (k : KlPort) : (d.setKlPort p k).sys = d.sys := by
  simp only [Device.setKlPort]
@[simp] theorem Device.setKlPort_pwr (d : Device) (p : Nat) (k : KlPort) : (d.setKlPort p k).pwr = d.pwr := by
  simp only [Device.setKlPort]
@[simp] theorem Device.setKlPort_tb (d : Device) (p : Nat) (k : KlPort) : (d.setKlPort p k).tb = d.tb := by
  simp only [Device.setKlPort]
@[simp] theorem Device.setKlPort_eth (d : Device) (p : Nat) (k : KlPort) : (d.setKlPort p k).eth = d.eth := by
  simp only [Device.setKlPort]
@[simp] theorem Device.setKlPort_tri (d : Device) (p : Nat) (k : KlPort) : (d.setKlPort p k).tri = d.tri := by
  simp only [Device.setKlPort]
@[simp] theorem Device.setKlPort_sc (d : Device) (p : Nat) (k : KlPort) : (d.setKlPort p k).sc = d.sc := by
  simp only [Device.setKlPort]
@[simp] theorem Device.setKlPort_fo (d : Device) (p : Nat) (k : KlPort) : (d.setKlPort p k).fo = d.fo := by
  simp only [Device.setKlPort]
@[simp] theorem Device.setKlPort_sb (d : Device) (p : Nat) (k : KlPort) : (d.setKlPort p k).sb = d.sb := by
  simp only [Device.setKlPort]
@[simp] theorem Device.setKlPort_nvm (d : Device) (p : Nat) (k : KlPort) : (d.setKlPort p k).nvm = d.nvm := by
  simp only [Device.setKlPort]
@[simp] theorem Device.setKlPort_ldr (d : Device) (p : Nat) (k : KlPort) : (d.setKlPort p k).ldr = d.ldr := by
  simp only [Device.setKlPort]
@[simp] theorem Device.setKlPort_freeCtr (d : Device) (p : Nat) (k : KlPort) : (d.setKlPort p k).freeCtr = d.freeCtr := by
  simp only [Device.setKlPort]
@[simp] theorem Device.setKlPort_sent (d : Device) (p : Nat) (k : KlPort) : (d.setKlPort p k).sent = d.sent := by
  simp only [Device.setKlPort]

/-! ## A requested reset -/

@[simp] theorem Device.requestReset_regs (d : Device) (src : Nat) : (d.requestReset src).regs = d.regs := by
  simp only [Device.requestReset]
@[simp] theorem Device.requestReset_mem (d : Device) (src : Nat) : (d.requestReset src).mem = d.mem := by
  simp only [Device.requestReset]
@[simp] theorem Device.requestReset_larea (d : Device) (src : Nat) : (d.requestReset src).larea = d.larea := by
  simp only [Device.requestReset]
@[simp] theorem Device.requestReset_prog (d : Device) (src : Nat) : (d.requestReset src).prog = d.prog := by
  simp only [Device.requestReset]
@[simp] theorem Device.requestReset_ce (d : Device) (src : Nat) : (d.requestReset src).ce = d.ce := by
  simp only [Device.requestReset]
@[simp] theorem Device.requestReset_task (d : Device) (src : Nat) : (d.requestReset src).task = d.task := by
  simp only [Device.requestReset]
@[simp] theorem Device.requestReset_tick (d : Device) (src : Nat) : (d.requestReset src).tick = d.tick := by
  simp only [Device.requestReset]
@[simp] theorem Device.requestReset_img (d : Device) (src : Nat) : (d.requestReset src).img = d.img := by
  simp only [Device.requestReset]
@[simp] theorem Device.requestReset_evr (d : Device) (src : Nat) : (d.requestReset src).evr = d.evr := by
  simp only [Device.requestReset]
@[simp] theorem Device.requestReset_hp (d : Device) (src : Nat) : (d.requestReset src).hp = d.hp := by
  simp only [Device.requestReset]
@[simp] theorem Device.requestReset_mb (d : Device) (src : Nat) : (d.requestReset src).mb = d.mb := by
  simp only [Device.requestReset]
@[simp] theorem Device.requestReset_sf (d : Device) (src : Nat) : (d.requestReset src).sf = d.sf := by
  simp only [Device.requestReset]
@[simp] theorem Device.requestReset_fd (d : Device) (src : Nat) : (d.requestReset src).fd = d.fd := by
  simp only [Device.requestReset]
@[simp] theorem Device.requestReset_sig (d : Device) (src : Nat) : (d.requestReset src).sig = d.sig := by
  simp only [Device.requestReset]
@[simp] theorem Device.requestReset_pwr (d : Device) (src : Nat) : (d.requestReset src).pwr = d.pwr := by
  simp only [Device.requestReset]
@[simp] theorem Device.requestReset_tb (d : Device) (src : Nat) : (d.requestReset src).tb = d.tb := by
  simp only [Device.requestReset]
@[simp] theorem Device.requestReset_kl (d : Device) (src : Nat) : (d.requestReset src).kl = d.kl := by
  simp only [Device.requestReset]
@[simp] theorem Device.requestReset_eth (d : Device) (src : Nat) : (d.requestReset src).eth = d.eth := by
  simp only [Device.requestReset]
@[simp] theorem Device.requestReset_tri (d : Device) (src : Nat) : (d.requestReset src).tri = d.tri := by
  simp only [Device.requestReset]
@[simp] theorem Device.requestReset_sc (d : Device) (src : Nat) : (d.requestReset src).sc = d.sc := by
  simp only [Device.requestReset]
@[simp] theorem Device.requestReset_fo (d : Device) (src : Nat) : (d.requestReset src).fo = d.fo := by
  simp only [Device.requestReset]
@[simp] theorem Device.requestReset_sb (d : Device) (src : Nat) : (d.requestReset src).sb = d.sb := by
  simp only [Device.requestReset]
@[simp] theorem Device.requestReset_nvm (d : Device) (src : Nat) : (d.requestReset src).nvm = d.nvm := by
  simp only [Device.requestReset]
@[simp] theorem Device.requestReset_ldr (d : Device) (src : Nat) : (d.requestReset src).ldr = d.ldr := by
  simp only [Device.requestReset]
@[simp] theorem Device.requestReset_freeCtr (d : Device) (src : Nat) : (d.requestReset src).freeCtr = d.freeCtr := by
  simp only [Device.requestReset]
@[simp] theorem Device.requestReset_sent (d : Device) (src : Nat) : (d.requestReset src).sent = d.sent := by
  simp only [Device.requestReset]

/-! ## The step count of an engine -/

@[simp] theorem Device.retire_mem (d : Device) (e : Nat) (n : Nat) : (d.retire e n).mem = d.mem := by
  simp only [Device.retire, Device.wr_mem]
@[simp] theorem Device.retire_larea (d : Device) (e : Nat) (n : Nat) : (d.retire e n).larea = d.larea := by
  simp only [Device.retire, Device.wr_larea]
@[simp] theorem Device.retire_prog (d : Device) (e : Nat) (n : Nat) : (d.retire e n).prog = d.prog := by
  simp only [Device.retire, Device.wr_prog]
@[simp] theorem Device.retire_ce (d : Device) (e : Nat) (n : Nat) : (d.retire e n).ce = d.ce := by
  simp only [Device.retire, Device.wr_ce]
@[simp] theorem Device.retire_task (d : Device) (e : Nat) (n : Nat) : (d.retire e n).task = d.task := by
  simp only [Device.retire, Device.wr_task]
@[simp] theorem Device.retire_tick (d : Device) (e : Nat) (n : Nat) : (d.retire e n).tick = d.tick := by
  simp only [Device.retire, Device.wr_tick]
@[simp] theorem Device.retire_img (d : Device) (e : Nat) (n : Nat) : (d.retire e n).img = d.img := by
  simp only [Device.retire, Device.wr_img]
@[simp] theorem Device.retire_evr (d : Device) (e : Nat) (n : Nat) : (d.retire e n).evr = d.evr := by
  simp only [Device.retire, Device.wr_evr]
@[simp] theorem Device.retire_hp (d : Device) (e : Nat) (n : Nat) : (d.retire e n).hp = d.hp := by
  simp only [Device.retire, Device.wr_hp]
@[simp] theorem Device.retire_mb (d : Device) (e : Nat) (n : Nat) : (d.retire e n).mb = d.mb := by
  simp only [Device.retire, Device.wr_mb]
@[simp] theorem Device.retire_sf (d : Device) (e : Nat) (n : Nat) : (d.retire e n).sf = d.sf := by
  simp only [Device.retire, Device.wr_sf]
@[simp] theorem Device.retire_fd (d : Device) (e : Nat) (n : Nat) : (d.retire e n).fd = d.fd := by
  simp only [Device.retire, Device.wr_fd]
@[simp] theorem Device.retire_sig (d : Device) (e : Nat) (n : Nat) : (d.retire e n).sig = d.sig := by
  simp only [Device.retire, Device.wr_sig]
@[simp] theorem Device.retire_sys (d : Device) (e : Nat) (n : Nat) : (d.retire e n).sys = d.sys := by
  simp only [Device.retire, Device.wr_sys]
@[simp] theorem Device.retire_pwr (d : Device) (e : Nat) (n : Nat) : (d.retire e n).pwr = d.pwr := by
  simp only [Device.retire, Device.wr_pwr]
@[simp] theorem Device.retire_tb (d : Device) (e : Nat) (n : Nat) : (d.retire e n).tb = d.tb := by
  simp only [Device.retire, Device.wr_tb]
@[simp] theorem Device.retire_kl (d : Device) (e : Nat) (n : Nat) : (d.retire e n).kl = d.kl := by
  simp only [Device.retire, Device.wr_kl]
@[simp] theorem Device.retire_eth (d : Device) (e : Nat) (n : Nat) : (d.retire e n).eth = d.eth := by
  simp only [Device.retire, Device.wr_eth]
@[simp] theorem Device.retire_tri (d : Device) (e : Nat) (n : Nat) : (d.retire e n).tri = d.tri := by
  simp only [Device.retire, Device.wr_tri]
@[simp] theorem Device.retire_sc (d : Device) (e : Nat) (n : Nat) : (d.retire e n).sc = d.sc := by
  simp only [Device.retire, Device.wr_sc]
@[simp] theorem Device.retire_fo (d : Device) (e : Nat) (n : Nat) : (d.retire e n).fo = d.fo := by
  simp only [Device.retire, Device.wr_fo]
@[simp] theorem Device.retire_sb (d : Device) (e : Nat) (n : Nat) : (d.retire e n).sb = d.sb := by
  simp only [Device.retire, Device.wr_sb]
@[simp] theorem Device.retire_nvm (d : Device) (e : Nat) (n : Nat) : (d.retire e n).nvm = d.nvm := by
  simp only [Device.retire, Device.wr_nvm]
@[simp] theorem Device.retire_ldr (d : Device) (e : Nat) (n : Nat) : (d.retire e n).ldr = d.ldr := by
  simp only [Device.retire, Device.wr_ldr]
@[simp] theorem Device.retire_freeCtr (d : Device) (e : Nat) (n : Nat) : (d.retire e n).freeCtr = d.freeCtr := by
  simp only [Device.retire, Device.wr_freeCtr]
@[simp] theorem Device.retire_sent (d : Device) (e : Nat) (n : Nat) : (d.retire e n).sent = d.sent := by
  simp only [Device.retire, Device.wr_sent]

/-! ## Channels that turn off -/

@[simp] theorem Device.turnOff_regs (d : Device) (m : Nat) : (d.turnOff m).regs = d.regs := by
  simp only [Device.turnOff]
@[simp] theorem Device.turnOff_mem (d : Device) (m : Nat) : (d.turnOff m).mem = d.mem := by
  simp only [Device.turnOff]
@[simp] theorem Device.turnOff_larea (d : Device) (m : Nat) : (d.turnOff m).larea = d.larea := by
  simp only [Device.turnOff]
@[simp] theorem Device.turnOff_prog (d : Device) (m : Nat) : (d.turnOff m).prog = d.prog := by
  simp only [Device.turnOff]
@[simp] theorem Device.turnOff_ce (d : Device) (m : Nat) : (d.turnOff m).ce = d.ce := by
  simp only [Device.turnOff]
@[simp] theorem Device.turnOff_task (d : Device) (m : Nat) : (d.turnOff m).task = d.task := by
  simp only [Device.turnOff]
@[simp] theorem Device.turnOff_tick (d : Device) (m : Nat) : (d.turnOff m).tick = d.tick := by
  simp only [Device.turnOff]
@[simp] theorem Device.turnOff_img (d : Device) (m : Nat) : (d.turnOff m).img = d.img := by
  simp only [Device.turnOff]
@[simp] theorem Device.turnOff_evr (d : Device) (m : Nat) : (d.turnOff m).evr = d.evr := by
  simp only [Device.turnOff]
@[simp] theorem Device.turnOff_hp (d : Device) (m : Nat) : (d.turnOff m).hp = d.hp := by
  simp only [Device.turnOff]
@[simp] theorem Device.turnOff_mb (d : Device) (m : Nat) : (d.turnOff m).mb = d.mb := by
  simp only [Device.turnOff]
@[simp] theorem Device.turnOff_sf (d : Device) (m : Nat) : (d.turnOff m).sf = d.sf := by
  simp only [Device.turnOff]
@[simp] theorem Device.turnOff_sig (d : Device) (m : Nat) : (d.turnOff m).sig = d.sig := by
  simp only [Device.turnOff]
@[simp] theorem Device.turnOff_sys (d : Device) (m : Nat) : (d.turnOff m).sys = d.sys := by
  simp only [Device.turnOff]
@[simp] theorem Device.turnOff_pwr (d : Device) (m : Nat) : (d.turnOff m).pwr = d.pwr := by
  simp only [Device.turnOff]
@[simp] theorem Device.turnOff_tb (d : Device) (m : Nat) : (d.turnOff m).tb = d.tb := by
  simp only [Device.turnOff]
@[simp] theorem Device.turnOff_kl (d : Device) (m : Nat) : (d.turnOff m).kl = d.kl := by
  simp only [Device.turnOff]
@[simp] theorem Device.turnOff_eth (d : Device) (m : Nat) : (d.turnOff m).eth = d.eth := by
  simp only [Device.turnOff]
@[simp] theorem Device.turnOff_tri (d : Device) (m : Nat) : (d.turnOff m).tri = d.tri := by
  simp only [Device.turnOff]
@[simp] theorem Device.turnOff_sc (d : Device) (m : Nat) : (d.turnOff m).sc = d.sc := by
  simp only [Device.turnOff]
@[simp] theorem Device.turnOff_fo (d : Device) (m : Nat) : (d.turnOff m).fo = d.fo := by
  simp only [Device.turnOff]
@[simp] theorem Device.turnOff_sb (d : Device) (m : Nat) : (d.turnOff m).sb = d.sb := by
  simp only [Device.turnOff]
@[simp] theorem Device.turnOff_nvm (d : Device) (m : Nat) : (d.turnOff m).nvm = d.nvm := by
  simp only [Device.turnOff]
@[simp] theorem Device.turnOff_ldr (d : Device) (m : Nat) : (d.turnOff m).ldr = d.ldr := by
  simp only [Device.turnOff]
@[simp] theorem Device.turnOff_freeCtr (d : Device) (m : Nat) : (d.turnOff m).freeCtr = d.freeCtr := by
  simp only [Device.turnOff]
@[simp] theorem Device.turnOff_sent (d : Device) (m : Nat) : (d.turnOff m).sent = d.sent := by
  simp only [Device.turnOff]

/-! ## The gate-off lines -/

@[simp] theorem Device.regate_mem (d : Device)  : (d.regate ).mem = d.mem := by
  simp only [Device.regate, Device.turnOff_mem, Device.wr_mem]
@[simp] theorem Device.regate_larea (d : Device)  : (d.regate ).larea = d.larea := by
  simp only [Device.regate, Device.turnOff_larea, Device.wr_larea]
@[simp] theorem Device.regate_prog (d : Device)  : (d.regate ).prog = d.prog := by
  simp only [Device.regate, Device.turnOff_prog, Device.wr_prog]
@[simp] theorem Device.regate_ce (d : Device)  : (d.regate ).ce = d.ce := by
  simp only [Device.regate, Device.turnOff_ce, Device.wr_ce]
@[simp] theorem Device.regate_task (d : Device)  : (d.regate ).task = d.task := by
  simp only [Device.regate, Device.turnOff_task, Device.wr_task]
@[simp] theorem Device.regate_tick (d : Device)  : (d.regate ).tick = d.tick := by
  simp only [Device.regate, Device.turnOff_tick, Device.wr_tick]
@[simp] theorem Device.regate_img (d : Device)  : (d.regate ).img = d.img := by
  simp only [Device.regate, Device.turnOff_img, Device.wr_img]
@[simp] theorem Device.regate_evr (d : Device)  : (d.regate ).evr = d.evr := by
  simp only [Device.regate, Device.turnOff_evr, Device.wr_evr]
@[simp] theorem Device.regate_hp (d : Device)  : (d.regate ).hp = d.hp := by
  simp only [Device.regate, Device.turnOff_hp, Device.wr_hp]
@[simp] theorem Device.regate_mb (d : Device)  : (d.regate ).mb = d.mb := by
  simp only [Device.regate, Device.turnOff_mb, Device.wr_mb]
@[simp] theorem Device.regate_sig (d : Device)  : (d.regate ).sig = d.sig := by
  simp only [Device.regate, Device.turnOff_sig, Device.wr_sig]
@[simp] theorem Device.regate_sys (d : Device)  : (d.regate ).sys = d.sys := by
  simp only [Device.regate, Device.turnOff_sys, Device.wr_sys]
@[simp] theorem Device.regate_pwr (d : Device)  : (d.regate ).pwr = d.pwr := by
  simp only [Device.regate, Device.turnOff_pwr, Device.wr_pwr]
@[simp] theorem Device.regate_tb (d : Device)  : (d.regate ).tb = d.tb := by
  simp only [Device.regate, Device.turnOff_tb, Device.wr_tb]
@[simp] theorem Device.regate_kl (d : Device)  : (d.regate ).kl = d.kl := by
  simp only [Device.regate, Device.turnOff_kl, Device.wr_kl]
@[simp] theorem Device.regate_eth (d : Device)  : (d.regate ).eth = d.eth := by
  simp only [Device.regate, Device.turnOff_eth, Device.wr_eth]
@[simp] theorem Device.regate_tri (d : Device)  : (d.regate ).tri = d.tri := by
  simp only [Device.regate, Device.turnOff_tri, Device.wr_tri]
@[simp] theorem Device.regate_sc (d : Device)  : (d.regate ).sc = d.sc := by
  simp only [Device.regate, Device.turnOff_sc, Device.wr_sc]
@[simp] theorem Device.regate_fo (d : Device)  : (d.regate ).fo = d.fo := by
  simp only [Device.regate, Device.turnOff_fo, Device.wr_fo]
@[simp] theorem Device.regate_sb (d : Device)  : (d.regate ).sb = d.sb := by
  simp only [Device.regate, Device.turnOff_sb, Device.wr_sb]
@[simp] theorem Device.regate_nvm (d : Device)  : (d.regate ).nvm = d.nvm := by
  simp only [Device.regate, Device.turnOff_nvm, Device.wr_nvm]
@[simp] theorem Device.regate_ldr (d : Device)  : (d.regate ).ldr = d.ldr := by
  simp only [Device.regate, Device.turnOff_ldr, Device.wr_ldr]
@[simp] theorem Device.regate_freeCtr (d : Device)  : (d.regate ).freeCtr = d.freeCtr := by
  simp only [Device.regate, Device.turnOff_freeCtr, Device.wr_freeCtr]
@[simp] theorem Device.regate_sent (d : Device)  : (d.regate ).sent = d.sent := by
  simp only [Device.regate, Device.turnOff_sent, Device.wr_sent]

/-! ## Updates with conditions -/

@[simp] theorem Device.sluice_mem (d : Device)  : (d.sluice ).mem = d.mem := by
  unfold Device.sluice; split <;> simp only [Device.turnOff_mem, Device.regate_mem]
@[simp] theorem Device.sluice_larea (d : Device)  : (d.sluice ).larea = d.larea := by
  unfold Device.sluice; split <;> simp only [Device.turnOff_larea, Device.regate_larea]
@[simp] theorem Device.sluice_prog (d : Device)  : (d.sluice ).prog = d.prog := by
  unfold Device.sluice; split <;> simp only [Device.turnOff_prog, Device.regate_prog]
@[simp] theorem Device.sluice_ce (d : Device)  : (d.sluice ).ce = d.ce := by
  unfold Device.sluice; split <;> simp only [Device.turnOff_ce, Device.regate_ce]
@[simp] theorem Device.sluice_task (d : Device)  : (d.sluice ).task = d.task := by
  unfold Device.sluice; split <;> simp only [Device.turnOff_task, Device.regate_task]
@[simp] theorem Device.sluice_tick (d : Device)  : (d.sluice ).tick = d.tick := by
  unfold Device.sluice; split <;> simp only [Device.turnOff_tick, Device.regate_tick]
@[simp] theorem Device.sluice_img (d : Device)  : (d.sluice ).img = d.img := by
  unfold Device.sluice; split <;> simp only [Device.turnOff_img, Device.regate_img]
@[simp] theorem Device.sluice_evr (d : Device)  : (d.sluice ).evr = d.evr := by
  unfold Device.sluice; split <;> simp only [Device.turnOff_evr, Device.regate_evr]
@[simp] theorem Device.sluice_hp (d : Device)  : (d.sluice ).hp = d.hp := by
  unfold Device.sluice; split <;> simp only [Device.turnOff_hp, Device.regate_hp]
@[simp] theorem Device.sluice_mb (d : Device)  : (d.sluice ).mb = d.mb := by
  unfold Device.sluice; split <;> simp only [Device.turnOff_mb, Device.regate_mb]
@[simp] theorem Device.sluice_sig (d : Device)  : (d.sluice ).sig = d.sig := by
  unfold Device.sluice; split <;> simp only [Device.turnOff_sig, Device.regate_sig]
@[simp] theorem Device.sluice_sys (d : Device)  : (d.sluice ).sys = d.sys := by
  unfold Device.sluice; split <;> simp only [Device.turnOff_sys, Device.regate_sys]
@[simp] theorem Device.sluice_pwr (d : Device)  : (d.sluice ).pwr = d.pwr := by
  unfold Device.sluice; split <;> simp only [Device.turnOff_pwr, Device.regate_pwr]
@[simp] theorem Device.sluice_tb (d : Device)  : (d.sluice ).tb = d.tb := by
  unfold Device.sluice; split <;> simp only [Device.turnOff_tb, Device.regate_tb]
@[simp] theorem Device.sluice_kl (d : Device)  : (d.sluice ).kl = d.kl := by
  unfold Device.sluice; split <;> simp only [Device.turnOff_kl, Device.regate_kl]
@[simp] theorem Device.sluice_eth (d : Device)  : (d.sluice ).eth = d.eth := by
  unfold Device.sluice; split <;> simp only [Device.turnOff_eth, Device.regate_eth]
@[simp] theorem Device.sluice_tri (d : Device)  : (d.sluice ).tri = d.tri := by
  unfold Device.sluice; split <;> simp only [Device.turnOff_tri, Device.regate_tri]
@[simp] theorem Device.sluice_sc (d : Device)  : (d.sluice ).sc = d.sc := by
  unfold Device.sluice; split <;> simp only [Device.turnOff_sc, Device.regate_sc]
@[simp] theorem Device.sluice_fo (d : Device)  : (d.sluice ).fo = d.fo := by
  unfold Device.sluice; split <;> simp only [Device.turnOff_fo, Device.regate_fo]
@[simp] theorem Device.sluice_sb (d : Device)  : (d.sluice ).sb = d.sb := by
  unfold Device.sluice; split <;> simp only [Device.turnOff_sb, Device.regate_sb]
@[simp] theorem Device.sluice_nvm (d : Device)  : (d.sluice ).nvm = d.nvm := by
  unfold Device.sluice; split <;> simp only [Device.turnOff_nvm, Device.regate_nvm]
@[simp] theorem Device.sluice_ldr (d : Device)  : (d.sluice ).ldr = d.ldr := by
  unfold Device.sluice; split <;> simp only [Device.turnOff_ldr, Device.regate_ldr]
@[simp] theorem Device.sluice_freeCtr (d : Device)  : (d.sluice ).freeCtr = d.freeCtr := by
  unfold Device.sluice; split <;> simp only [Device.turnOff_freeCtr, Device.regate_freeCtr]
@[simp] theorem Device.sluice_sent (d : Device)  : (d.sluice ).sent = d.sent := by
  unfold Device.sluice; split <;> simp only [Device.turnOff_sent, Device.regate_sent]

@[simp] theorem Device.finishCmd_mem (d : Device) (p : Port) (code : Nat) : (d.finishCmd p code).mem = d.mem := by
  unfold Device.finishCmd; split <;> simp only [Device.endCmd_mem]
@[simp] theorem Device.finishCmd_larea (d : Device) (p : Port) (code : Nat) : (d.finishCmd p code).larea = d.larea := by
  unfold Device.finishCmd; split <;> simp only [Device.endCmd_larea]
@[simp] theorem Device.finishCmd_prog (d : Device) (p : Port) (code : Nat) : (d.finishCmd p code).prog = d.prog := by
  unfold Device.finishCmd; split <;> simp only [Device.endCmd_prog]
@[simp] theorem Device.finishCmd_ce (d : Device) (p : Port) (code : Nat) : (d.finishCmd p code).ce = d.ce := by
  unfold Device.finishCmd; split <;> simp only [Device.endCmd_ce]
@[simp] theorem Device.finishCmd_task (d : Device) (p : Port) (code : Nat) : (d.finishCmd p code).task = d.task := by
  unfold Device.finishCmd; split <;> simp only [Device.endCmd_task]
@[simp] theorem Device.finishCmd_tick (d : Device) (p : Port) (code : Nat) : (d.finishCmd p code).tick = d.tick := by
  unfold Device.finishCmd; split <;> simp only [Device.endCmd_tick]
@[simp] theorem Device.finishCmd_img (d : Device) (p : Port) (code : Nat) : (d.finishCmd p code).img = d.img := by
  unfold Device.finishCmd; split <;> simp only [Device.endCmd_img]
@[simp] theorem Device.finishCmd_evr (d : Device) (p : Port) (code : Nat) : (d.finishCmd p code).evr = d.evr := by
  unfold Device.finishCmd; split <;> simp only [Device.endCmd_evr]
@[simp] theorem Device.finishCmd_hp (d : Device) (p : Port) (code : Nat) : (d.finishCmd p code).hp = d.hp := by
  unfold Device.finishCmd; split <;> simp only [Device.endCmd_hp]
@[simp] theorem Device.finishCmd_mb (d : Device) (p : Port) (code : Nat) : (d.finishCmd p code).mb = d.mb := by
  unfold Device.finishCmd; split <;> simp only [Device.endCmd_mb]
@[simp] theorem Device.finishCmd_sf (d : Device) (p : Port) (code : Nat) : (d.finishCmd p code).sf = d.sf := by
  unfold Device.finishCmd; split <;> simp only [Device.endCmd_sf]
@[simp] theorem Device.finishCmd_fd (d : Device) (p : Port) (code : Nat) : (d.finishCmd p code).fd = d.fd := by
  unfold Device.finishCmd; split <;> simp only [Device.endCmd_fd]
@[simp] theorem Device.finishCmd_sig (d : Device) (p : Port) (code : Nat) : (d.finishCmd p code).sig = d.sig := by
  unfold Device.finishCmd; split <;> simp only [Device.endCmd_sig]
@[simp] theorem Device.finishCmd_sys (d : Device) (p : Port) (code : Nat) : (d.finishCmd p code).sys = d.sys := by
  unfold Device.finishCmd; split <;> simp only [Device.endCmd_sys]
@[simp] theorem Device.finishCmd_pwr (d : Device) (p : Port) (code : Nat) : (d.finishCmd p code).pwr = d.pwr := by
  unfold Device.finishCmd; split <;> simp only [Device.endCmd_pwr]
@[simp] theorem Device.finishCmd_tb (d : Device) (p : Port) (code : Nat) : (d.finishCmd p code).tb = d.tb := by
  unfold Device.finishCmd; split <;> simp only [Device.endCmd_tb]
@[simp] theorem Device.finishCmd_kl (d : Device) (p : Port) (code : Nat) : (d.finishCmd p code).kl = d.kl := by
  unfold Device.finishCmd; split <;> simp only [Device.endCmd_kl]
@[simp] theorem Device.finishCmd_eth (d : Device) (p : Port) (code : Nat) : (d.finishCmd p code).eth = d.eth := by
  unfold Device.finishCmd; split <;> simp only [Device.endCmd_eth]
@[simp] theorem Device.finishCmd_tri (d : Device) (p : Port) (code : Nat) : (d.finishCmd p code).tri = d.tri := by
  unfold Device.finishCmd; split <;> simp only [Device.endCmd_tri]
@[simp] theorem Device.finishCmd_sc (d : Device) (p : Port) (code : Nat) : (d.finishCmd p code).sc = d.sc := by
  unfold Device.finishCmd; split <;> simp only [Device.endCmd_sc]
@[simp] theorem Device.finishCmd_fo (d : Device) (p : Port) (code : Nat) : (d.finishCmd p code).fo = d.fo := by
  unfold Device.finishCmd; split <;> simp only [Device.endCmd_fo]
@[simp] theorem Device.finishCmd_sb (d : Device) (p : Port) (code : Nat) : (d.finishCmd p code).sb = d.sb := by
  unfold Device.finishCmd; split <;> simp only [Device.endCmd_sb]
@[simp] theorem Device.finishCmd_nvm (d : Device) (p : Port) (code : Nat) : (d.finishCmd p code).nvm = d.nvm := by
  unfold Device.finishCmd; split <;> simp only [Device.endCmd_nvm]
@[simp] theorem Device.finishCmd_ldr (d : Device) (p : Port) (code : Nat) : (d.finishCmd p code).ldr = d.ldr := by
  unfold Device.finishCmd; split <;> simp only [Device.endCmd_ldr]
@[simp] theorem Device.finishCmd_freeCtr (d : Device) (p : Port) (code : Nat) : (d.finishCmd p code).freeCtr = d.freeCtr := by
  unfold Device.finishCmd; split <;> simp only [Device.endCmd_freeCtr]
@[simp] theorem Device.finishCmd_sent (d : Device) (p : Port) (code : Nat) : (d.finishCmd p code).sent = d.sent := by
  unfold Device.finishCmd; split <;> simp only [Device.endCmd_sent]

@[simp] theorem Device.send_regs (d : Device) (m : Sent) : (d.send m).regs = d.regs := by
  unfold Device.send; split <;> simp only
@[simp] theorem Device.send_mem (d : Device) (m : Sent) : (d.send m).mem = d.mem := by
  unfold Device.send; split <;> simp only
@[simp] theorem Device.send_larea (d : Device) (m : Sent) : (d.send m).larea = d.larea := by
  unfold Device.send; split <;> simp only
@[simp] theorem Device.send_prog (d : Device) (m : Sent) : (d.send m).prog = d.prog := by
  unfold Device.send; split <;> simp only
@[simp] theorem Device.send_ce (d : Device) (m : Sent) : (d.send m).ce = d.ce := by
  unfold Device.send; split <;> simp only
@[simp] theorem Device.send_task (d : Device) (m : Sent) : (d.send m).task = d.task := by
  unfold Device.send; split <;> simp only
@[simp] theorem Device.send_tick (d : Device) (m : Sent) : (d.send m).tick = d.tick := by
  unfold Device.send; split <;> simp only
@[simp] theorem Device.send_img (d : Device) (m : Sent) : (d.send m).img = d.img := by
  unfold Device.send; split <;> simp only
@[simp] theorem Device.send_evr (d : Device) (m : Sent) : (d.send m).evr = d.evr := by
  unfold Device.send; split <;> simp only
@[simp] theorem Device.send_hp (d : Device) (m : Sent) : (d.send m).hp = d.hp := by
  unfold Device.send; split <;> simp only
@[simp] theorem Device.send_mb (d : Device) (m : Sent) : (d.send m).mb = d.mb := by
  unfold Device.send; split <;> simp only
@[simp] theorem Device.send_sf (d : Device) (m : Sent) : (d.send m).sf = d.sf := by
  unfold Device.send; split <;> simp only
@[simp] theorem Device.send_fd (d : Device) (m : Sent) : (d.send m).fd = d.fd := by
  unfold Device.send; split <;> simp only
@[simp] theorem Device.send_sig (d : Device) (m : Sent) : (d.send m).sig = d.sig := by
  unfold Device.send; split <;> simp only
@[simp] theorem Device.send_sys (d : Device) (m : Sent) : (d.send m).sys = d.sys := by
  unfold Device.send; split <;> simp only
@[simp] theorem Device.send_pwr (d : Device) (m : Sent) : (d.send m).pwr = d.pwr := by
  unfold Device.send; split <;> simp only
@[simp] theorem Device.send_tb (d : Device) (m : Sent) : (d.send m).tb = d.tb := by
  unfold Device.send; split <;> simp only
@[simp] theorem Device.send_kl (d : Device) (m : Sent) : (d.send m).kl = d.kl := by
  unfold Device.send; split <;> simp only
@[simp] theorem Device.send_eth (d : Device) (m : Sent) : (d.send m).eth = d.eth := by
  unfold Device.send; split <;> simp only
@[simp] theorem Device.send_tri (d : Device) (m : Sent) : (d.send m).tri = d.tri := by
  unfold Device.send; split <;> simp only
@[simp] theorem Device.send_sc (d : Device) (m : Sent) : (d.send m).sc = d.sc := by
  unfold Device.send; split <;> simp only
@[simp] theorem Device.send_fo (d : Device) (m : Sent) : (d.send m).fo = d.fo := by
  unfold Device.send; split <;> simp only
@[simp] theorem Device.send_sb (d : Device) (m : Sent) : (d.send m).sb = d.sb := by
  unfold Device.send; split <;> simp only
@[simp] theorem Device.send_nvm (d : Device) (m : Sent) : (d.send m).nvm = d.nvm := by
  unfold Device.send; split <;> simp only
@[simp] theorem Device.send_ldr (d : Device) (m : Sent) : (d.send m).ldr = d.ldr := by
  unfold Device.send; split <;> simp only
@[simp] theorem Device.send_freeCtr (d : Device) (m : Sent) : (d.send m).freeCtr = d.freeCtr := by
  unfold Device.send; split <;> simp only

@[simp] theorem Device.enqueue_mem (d : Device) (r : EvRec) : (d.enqueue r).mem = d.mem := by
  unfold Device.enqueue; split <;> simp only [Device.inc_mem]
@[simp] theorem Device.enqueue_larea (d : Device) (r : EvRec) : (d.enqueue r).larea = d.larea := by
  unfold Device.enqueue; split <;> simp only [Device.inc_larea]
@[simp] theorem Device.enqueue_prog (d : Device) (r : EvRec) : (d.enqueue r).prog = d.prog := by
  unfold Device.enqueue; split <;> simp only [Device.inc_prog]
@[simp] theorem Device.enqueue_ce (d : Device) (r : EvRec) : (d.enqueue r).ce = d.ce := by
  unfold Device.enqueue; split <;> simp only [Device.inc_ce]
@[simp] theorem Device.enqueue_task (d : Device) (r : EvRec) : (d.enqueue r).task = d.task := by
  unfold Device.enqueue; split <;> simp only [Device.inc_task]
@[simp] theorem Device.enqueue_tick (d : Device) (r : EvRec) : (d.enqueue r).tick = d.tick := by
  unfold Device.enqueue; split <;> simp only [Device.inc_tick]
@[simp] theorem Device.enqueue_img (d : Device) (r : EvRec) : (d.enqueue r).img = d.img := by
  unfold Device.enqueue; split <;> simp only [Device.inc_img]
@[simp] theorem Device.enqueue_hp (d : Device) (r : EvRec) : (d.enqueue r).hp = d.hp := by
  unfold Device.enqueue; split <;> simp only [Device.inc_hp]
@[simp] theorem Device.enqueue_mb (d : Device) (r : EvRec) : (d.enqueue r).mb = d.mb := by
  unfold Device.enqueue; split <;> simp only [Device.inc_mb]
@[simp] theorem Device.enqueue_sf (d : Device) (r : EvRec) : (d.enqueue r).sf = d.sf := by
  unfold Device.enqueue; split <;> simp only [Device.inc_sf]
@[simp] theorem Device.enqueue_fd (d : Device) (r : EvRec) : (d.enqueue r).fd = d.fd := by
  unfold Device.enqueue; split <;> simp only [Device.inc_fd]
@[simp] theorem Device.enqueue_sig (d : Device) (r : EvRec) : (d.enqueue r).sig = d.sig := by
  unfold Device.enqueue; split <;> simp only [Device.inc_sig]
@[simp] theorem Device.enqueue_sys (d : Device) (r : EvRec) : (d.enqueue r).sys = d.sys := by
  unfold Device.enqueue; split <;> simp only [Device.inc_sys]
@[simp] theorem Device.enqueue_pwr (d : Device) (r : EvRec) : (d.enqueue r).pwr = d.pwr := by
  unfold Device.enqueue; split <;> simp only [Device.inc_pwr]
@[simp] theorem Device.enqueue_tb (d : Device) (r : EvRec) : (d.enqueue r).tb = d.tb := by
  unfold Device.enqueue; split <;> simp only [Device.inc_tb]
@[simp] theorem Device.enqueue_kl (d : Device) (r : EvRec) : (d.enqueue r).kl = d.kl := by
  unfold Device.enqueue; split <;> simp only [Device.inc_kl]
@[simp] theorem Device.enqueue_eth (d : Device) (r : EvRec) : (d.enqueue r).eth = d.eth := by
  unfold Device.enqueue; split <;> simp only [Device.inc_eth]
@[simp] theorem Device.enqueue_tri (d : Device) (r : EvRec) : (d.enqueue r).tri = d.tri := by
  unfold Device.enqueue; split <;> simp only [Device.inc_tri]
@[simp] theorem Device.enqueue_sc (d : Device) (r : EvRec) : (d.enqueue r).sc = d.sc := by
  unfold Device.enqueue; split <;> simp only [Device.inc_sc]
@[simp] theorem Device.enqueue_fo (d : Device) (r : EvRec) : (d.enqueue r).fo = d.fo := by
  unfold Device.enqueue; split <;> simp only [Device.inc_fo]
@[simp] theorem Device.enqueue_sb (d : Device) (r : EvRec) : (d.enqueue r).sb = d.sb := by
  unfold Device.enqueue; split <;> simp only [Device.inc_sb]
@[simp] theorem Device.enqueue_nvm (d : Device) (r : EvRec) : (d.enqueue r).nvm = d.nvm := by
  unfold Device.enqueue; split <;> simp only [Device.inc_nvm]
@[simp] theorem Device.enqueue_ldr (d : Device) (r : EvRec) : (d.enqueue r).ldr = d.ldr := by
  unfold Device.enqueue; split <;> simp only [Device.inc_ldr]
@[simp] theorem Device.enqueue_freeCtr (d : Device) (r : EvRec) : (d.enqueue r).freeCtr = d.freeCtr := by
  unfold Device.enqueue; split <;> simp only [Device.inc_freeCtr]
@[simp] theorem Device.enqueue_sent (d : Device) (r : EvRec) : (d.enqueue r).sent = d.sent := by
  unfold Device.enqueue; split <;> simp only [Device.inc_sent]

@[simp] theorem Device.raiseFrom_mem (d : Device) (eng : Nat) (ctx : Nat) (pos : Nat) (code : Nat) (snaps : List Word) : (d.raiseFrom eng ctx pos code snaps).mem = d.mem := by
  simp only [Device.raiseFrom]; (repeat' split) <;> simp only [Device.enqueue_mem]
@[simp] theorem Device.raiseFrom_larea (d : Device) (eng : Nat) (ctx : Nat) (pos : Nat) (code : Nat) (snaps : List Word) : (d.raiseFrom eng ctx pos code snaps).larea = d.larea := by
  simp only [Device.raiseFrom]; (repeat' split) <;> simp only [Device.enqueue_larea]
@[simp] theorem Device.raiseFrom_prog (d : Device) (eng : Nat) (ctx : Nat) (pos : Nat) (code : Nat) (snaps : List Word) : (d.raiseFrom eng ctx pos code snaps).prog = d.prog := by
  simp only [Device.raiseFrom]; (repeat' split) <;> simp only [Device.enqueue_prog]
@[simp] theorem Device.raiseFrom_ce (d : Device) (eng : Nat) (ctx : Nat) (pos : Nat) (code : Nat) (snaps : List Word) : (d.raiseFrom eng ctx pos code snaps).ce = d.ce := by
  simp only [Device.raiseFrom]; (repeat' split) <;> simp only [Device.enqueue_ce]
@[simp] theorem Device.raiseFrom_task (d : Device) (eng : Nat) (ctx : Nat) (pos : Nat) (code : Nat) (snaps : List Word) : (d.raiseFrom eng ctx pos code snaps).task = d.task := by
  simp only [Device.raiseFrom]; (repeat' split) <;> simp only [Device.enqueue_task]
@[simp] theorem Device.raiseFrom_tick (d : Device) (eng : Nat) (ctx : Nat) (pos : Nat) (code : Nat) (snaps : List Word) : (d.raiseFrom eng ctx pos code snaps).tick = d.tick := by
  simp only [Device.raiseFrom]; (repeat' split) <;> simp only [Device.enqueue_tick]
@[simp] theorem Device.raiseFrom_img (d : Device) (eng : Nat) (ctx : Nat) (pos : Nat) (code : Nat) (snaps : List Word) : (d.raiseFrom eng ctx pos code snaps).img = d.img := by
  simp only [Device.raiseFrom]; (repeat' split) <;> simp only [Device.enqueue_img]
@[simp] theorem Device.raiseFrom_hp (d : Device) (eng : Nat) (ctx : Nat) (pos : Nat) (code : Nat) (snaps : List Word) : (d.raiseFrom eng ctx pos code snaps).hp = d.hp := by
  simp only [Device.raiseFrom]; (repeat' split) <;> simp only [Device.enqueue_hp]
@[simp] theorem Device.raiseFrom_mb (d : Device) (eng : Nat) (ctx : Nat) (pos : Nat) (code : Nat) (snaps : List Word) : (d.raiseFrom eng ctx pos code snaps).mb = d.mb := by
  simp only [Device.raiseFrom]; (repeat' split) <;> simp only [Device.enqueue_mb]
@[simp] theorem Device.raiseFrom_sf (d : Device) (eng : Nat) (ctx : Nat) (pos : Nat) (code : Nat) (snaps : List Word) : (d.raiseFrom eng ctx pos code snaps).sf = d.sf := by
  simp only [Device.raiseFrom]; (repeat' split) <;> simp only [Device.enqueue_sf]
@[simp] theorem Device.raiseFrom_fd (d : Device) (eng : Nat) (ctx : Nat) (pos : Nat) (code : Nat) (snaps : List Word) : (d.raiseFrom eng ctx pos code snaps).fd = d.fd := by
  simp only [Device.raiseFrom]; (repeat' split) <;> simp only [Device.enqueue_fd]
@[simp] theorem Device.raiseFrom_sig (d : Device) (eng : Nat) (ctx : Nat) (pos : Nat) (code : Nat) (snaps : List Word) : (d.raiseFrom eng ctx pos code snaps).sig = d.sig := by
  simp only [Device.raiseFrom]; (repeat' split) <;> simp only [Device.enqueue_sig]
@[simp] theorem Device.raiseFrom_sys (d : Device) (eng : Nat) (ctx : Nat) (pos : Nat) (code : Nat) (snaps : List Word) : (d.raiseFrom eng ctx pos code snaps).sys = d.sys := by
  simp only [Device.raiseFrom]; (repeat' split) <;> simp only [Device.enqueue_sys]
@[simp] theorem Device.raiseFrom_pwr (d : Device) (eng : Nat) (ctx : Nat) (pos : Nat) (code : Nat) (snaps : List Word) : (d.raiseFrom eng ctx pos code snaps).pwr = d.pwr := by
  simp only [Device.raiseFrom]; (repeat' split) <;> simp only [Device.enqueue_pwr]
@[simp] theorem Device.raiseFrom_tb (d : Device) (eng : Nat) (ctx : Nat) (pos : Nat) (code : Nat) (snaps : List Word) : (d.raiseFrom eng ctx pos code snaps).tb = d.tb := by
  simp only [Device.raiseFrom]; (repeat' split) <;> simp only [Device.enqueue_tb]
@[simp] theorem Device.raiseFrom_kl (d : Device) (eng : Nat) (ctx : Nat) (pos : Nat) (code : Nat) (snaps : List Word) : (d.raiseFrom eng ctx pos code snaps).kl = d.kl := by
  simp only [Device.raiseFrom]; (repeat' split) <;> simp only [Device.enqueue_kl]
@[simp] theorem Device.raiseFrom_eth (d : Device) (eng : Nat) (ctx : Nat) (pos : Nat) (code : Nat) (snaps : List Word) : (d.raiseFrom eng ctx pos code snaps).eth = d.eth := by
  simp only [Device.raiseFrom]; (repeat' split) <;> simp only [Device.enqueue_eth]
@[simp] theorem Device.raiseFrom_tri (d : Device) (eng : Nat) (ctx : Nat) (pos : Nat) (code : Nat) (snaps : List Word) : (d.raiseFrom eng ctx pos code snaps).tri = d.tri := by
  simp only [Device.raiseFrom]; (repeat' split) <;> simp only [Device.enqueue_tri]
@[simp] theorem Device.raiseFrom_sc (d : Device) (eng : Nat) (ctx : Nat) (pos : Nat) (code : Nat) (snaps : List Word) : (d.raiseFrom eng ctx pos code snaps).sc = d.sc := by
  simp only [Device.raiseFrom]; (repeat' split) <;> simp only [Device.enqueue_sc]
@[simp] theorem Device.raiseFrom_fo (d : Device) (eng : Nat) (ctx : Nat) (pos : Nat) (code : Nat) (snaps : List Word) : (d.raiseFrom eng ctx pos code snaps).fo = d.fo := by
  simp only [Device.raiseFrom]; (repeat' split) <;> simp only [Device.enqueue_fo]
@[simp] theorem Device.raiseFrom_sb (d : Device) (eng : Nat) (ctx : Nat) (pos : Nat) (code : Nat) (snaps : List Word) : (d.raiseFrom eng ctx pos code snaps).sb = d.sb := by
  simp only [Device.raiseFrom]; (repeat' split) <;> simp only [Device.enqueue_sb]
@[simp] theorem Device.raiseFrom_nvm (d : Device) (eng : Nat) (ctx : Nat) (pos : Nat) (code : Nat) (snaps : List Word) : (d.raiseFrom eng ctx pos code snaps).nvm = d.nvm := by
  simp only [Device.raiseFrom]; (repeat' split) <;> simp only [Device.enqueue_nvm]
@[simp] theorem Device.raiseFrom_ldr (d : Device) (eng : Nat) (ctx : Nat) (pos : Nat) (code : Nat) (snaps : List Word) : (d.raiseFrom eng ctx pos code snaps).ldr = d.ldr := by
  simp only [Device.raiseFrom]; (repeat' split) <;> simp only [Device.enqueue_ldr]
@[simp] theorem Device.raiseFrom_freeCtr (d : Device) (eng : Nat) (ctx : Nat) (pos : Nat) (code : Nat) (snaps : List Word) : (d.raiseFrom eng ctx pos code snaps).freeCtr = d.freeCtr := by
  simp only [Device.raiseFrom]; (repeat' split) <;> simp only [Device.enqueue_freeCtr]
@[simp] theorem Device.raiseFrom_sent (d : Device) (eng : Nat) (ctx : Nat) (pos : Nat) (code : Nat) (snaps : List Word) : (d.raiseFrom eng ctx pos code snaps).sent = d.sent := by
  simp only [Device.raiseFrom]; (repeat' split) <;> simp only [Device.enqueue_sent]

@[simp] theorem Device.raise_mem (d : Device) (code : Nat) (snaps : List Word) : (d.raise code snaps).mem = d.mem := by
  simp only [Device.raise, Device.raiseFrom_mem]
@[simp] theorem Device.raise_larea (d : Device) (code : Nat) (snaps : List Word) : (d.raise code snaps).larea = d.larea := by
  simp only [Device.raise, Device.raiseFrom_larea]
@[simp] theorem Device.raise_prog (d : Device) (code : Nat) (snaps : List Word) : (d.raise code snaps).prog = d.prog := by
  simp only [Device.raise, Device.raiseFrom_prog]
@[simp] theorem Device.raise_ce (d : Device) (code : Nat) (snaps : List Word) : (d.raise code snaps).ce = d.ce := by
  simp only [Device.raise, Device.raiseFrom_ce]
@[simp] theorem Device.raise_task (d : Device) (code : Nat) (snaps : List Word) : (d.raise code snaps).task = d.task := by
  simp only [Device.raise, Device.raiseFrom_task]
@[simp] theorem Device.raise_tick (d : Device) (code : Nat) (snaps : List Word) : (d.raise code snaps).tick = d.tick := by
  simp only [Device.raise, Device.raiseFrom_tick]
@[simp] theorem Device.raise_img (d : Device) (code : Nat) (snaps : List Word) : (d.raise code snaps).img = d.img := by
  simp only [Device.raise, Device.raiseFrom_img]
@[simp] theorem Device.raise_hp (d : Device) (code : Nat) (snaps : List Word) : (d.raise code snaps).hp = d.hp := by
  simp only [Device.raise, Device.raiseFrom_hp]
@[simp] theorem Device.raise_mb (d : Device) (code : Nat) (snaps : List Word) : (d.raise code snaps).mb = d.mb := by
  simp only [Device.raise, Device.raiseFrom_mb]
@[simp] theorem Device.raise_sf (d : Device) (code : Nat) (snaps : List Word) : (d.raise code snaps).sf = d.sf := by
  simp only [Device.raise, Device.raiseFrom_sf]
@[simp] theorem Device.raise_fd (d : Device) (code : Nat) (snaps : List Word) : (d.raise code snaps).fd = d.fd := by
  simp only [Device.raise, Device.raiseFrom_fd]
@[simp] theorem Device.raise_sig (d : Device) (code : Nat) (snaps : List Word) : (d.raise code snaps).sig = d.sig := by
  simp only [Device.raise, Device.raiseFrom_sig]
@[simp] theorem Device.raise_sys (d : Device) (code : Nat) (snaps : List Word) : (d.raise code snaps).sys = d.sys := by
  simp only [Device.raise, Device.raiseFrom_sys]
@[simp] theorem Device.raise_pwr (d : Device) (code : Nat) (snaps : List Word) : (d.raise code snaps).pwr = d.pwr := by
  simp only [Device.raise, Device.raiseFrom_pwr]
@[simp] theorem Device.raise_tb (d : Device) (code : Nat) (snaps : List Word) : (d.raise code snaps).tb = d.tb := by
  simp only [Device.raise, Device.raiseFrom_tb]
@[simp] theorem Device.raise_kl (d : Device) (code : Nat) (snaps : List Word) : (d.raise code snaps).kl = d.kl := by
  simp only [Device.raise, Device.raiseFrom_kl]
@[simp] theorem Device.raise_eth (d : Device) (code : Nat) (snaps : List Word) : (d.raise code snaps).eth = d.eth := by
  simp only [Device.raise, Device.raiseFrom_eth]
@[simp] theorem Device.raise_tri (d : Device) (code : Nat) (snaps : List Word) : (d.raise code snaps).tri = d.tri := by
  simp only [Device.raise, Device.raiseFrom_tri]
@[simp] theorem Device.raise_sc (d : Device) (code : Nat) (snaps : List Word) : (d.raise code snaps).sc = d.sc := by
  simp only [Device.raise, Device.raiseFrom_sc]
@[simp] theorem Device.raise_fo (d : Device) (code : Nat) (snaps : List Word) : (d.raise code snaps).fo = d.fo := by
  simp only [Device.raise, Device.raiseFrom_fo]
@[simp] theorem Device.raise_sb (d : Device) (code : Nat) (snaps : List Word) : (d.raise code snaps).sb = d.sb := by
  simp only [Device.raise, Device.raiseFrom_sb]
@[simp] theorem Device.raise_nvm (d : Device) (code : Nat) (snaps : List Word) : (d.raise code snaps).nvm = d.nvm := by
  simp only [Device.raise, Device.raiseFrom_nvm]
@[simp] theorem Device.raise_ldr (d : Device) (code : Nat) (snaps : List Word) : (d.raise code snaps).ldr = d.ldr := by
  simp only [Device.raise, Device.raiseFrom_ldr]
@[simp] theorem Device.raise_freeCtr (d : Device) (code : Nat) (snaps : List Word) : (d.raise code snaps).freeCtr = d.freeCtr := by
  simp only [Device.raise, Device.raiseFrom_freeCtr]
@[simp] theorem Device.raise_sent (d : Device) (code : Nat) (snaps : List Word) : (d.raise code snaps).sent = d.sent := by
  simp only [Device.raise, Device.raiseFrom_sent]

@[simp] theorem Device.slAssert_mem (d : Device) (i : Nat) : (d.slAssert i).mem = d.mem := by
  simp only [Device.slAssert]; (repeat' split) <;> simp only [Device.raise_mem, Device.wr_mem, Device.regate_mem]
@[simp] theorem Device.slAssert_larea (d : Device) (i : Nat) : (d.slAssert i).larea = d.larea := by
  simp only [Device.slAssert]; (repeat' split) <;> simp only [Device.raise_larea, Device.wr_larea, Device.regate_larea]
@[simp] theorem Device.slAssert_prog (d : Device) (i : Nat) : (d.slAssert i).prog = d.prog := by
  simp only [Device.slAssert]; (repeat' split) <;> simp only [Device.raise_prog, Device.wr_prog, Device.regate_prog]
@[simp] theorem Device.slAssert_ce (d : Device) (i : Nat) : (d.slAssert i).ce = d.ce := by
  simp only [Device.slAssert]; (repeat' split) <;> simp only [Device.raise_ce, Device.wr_ce, Device.regate_ce]
@[simp] theorem Device.slAssert_task (d : Device) (i : Nat) : (d.slAssert i).task = d.task := by
  simp only [Device.slAssert]; (repeat' split) <;> simp only [Device.raise_task, Device.wr_task, Device.regate_task]
@[simp] theorem Device.slAssert_tick (d : Device) (i : Nat) : (d.slAssert i).tick = d.tick := by
  simp only [Device.slAssert]; (repeat' split) <;> simp only [Device.raise_tick, Device.wr_tick, Device.regate_tick]
@[simp] theorem Device.slAssert_img (d : Device) (i : Nat) : (d.slAssert i).img = d.img := by
  simp only [Device.slAssert]; (repeat' split) <;> simp only [Device.raise_img, Device.wr_img, Device.regate_img]
@[simp] theorem Device.slAssert_hp (d : Device) (i : Nat) : (d.slAssert i).hp = d.hp := by
  simp only [Device.slAssert]; (repeat' split) <;> simp only [Device.raise_hp, Device.wr_hp, Device.regate_hp]
@[simp] theorem Device.slAssert_mb (d : Device) (i : Nat) : (d.slAssert i).mb = d.mb := by
  simp only [Device.slAssert]; (repeat' split) <;> simp only [Device.raise_mb, Device.wr_mb, Device.regate_mb]
@[simp] theorem Device.slAssert_sig (d : Device) (i : Nat) : (d.slAssert i).sig = d.sig := by
  simp only [Device.slAssert]; (repeat' split) <;> simp only [Device.raise_sig, Device.wr_sig, Device.regate_sig]
@[simp] theorem Device.slAssert_sys (d : Device) (i : Nat) : (d.slAssert i).sys = d.sys := by
  simp only [Device.slAssert]; (repeat' split) <;> simp only [Device.raise_sys, Device.wr_sys, Device.regate_sys]
@[simp] theorem Device.slAssert_pwr (d : Device) (i : Nat) : (d.slAssert i).pwr = d.pwr := by
  simp only [Device.slAssert]; (repeat' split) <;> simp only [Device.raise_pwr, Device.wr_pwr, Device.regate_pwr]
@[simp] theorem Device.slAssert_tb (d : Device) (i : Nat) : (d.slAssert i).tb = d.tb := by
  simp only [Device.slAssert]; (repeat' split) <;> simp only [Device.raise_tb, Device.wr_tb, Device.regate_tb]
@[simp] theorem Device.slAssert_kl (d : Device) (i : Nat) : (d.slAssert i).kl = d.kl := by
  simp only [Device.slAssert]; (repeat' split) <;> simp only [Device.raise_kl, Device.wr_kl, Device.regate_kl]
@[simp] theorem Device.slAssert_eth (d : Device) (i : Nat) : (d.slAssert i).eth = d.eth := by
  simp only [Device.slAssert]; (repeat' split) <;> simp only [Device.raise_eth, Device.wr_eth, Device.regate_eth]
@[simp] theorem Device.slAssert_tri (d : Device) (i : Nat) : (d.slAssert i).tri = d.tri := by
  simp only [Device.slAssert]; (repeat' split) <;> simp only [Device.raise_tri, Device.wr_tri, Device.regate_tri]
@[simp] theorem Device.slAssert_sc (d : Device) (i : Nat) : (d.slAssert i).sc = d.sc := by
  simp only [Device.slAssert]; (repeat' split) <;> simp only [Device.raise_sc, Device.wr_sc, Device.regate_sc]
@[simp] theorem Device.slAssert_fo (d : Device) (i : Nat) : (d.slAssert i).fo = d.fo := by
  simp only [Device.slAssert]; (repeat' split) <;> simp only [Device.raise_fo, Device.wr_fo, Device.regate_fo]
@[simp] theorem Device.slAssert_sb (d : Device) (i : Nat) : (d.slAssert i).sb = d.sb := by
  simp only [Device.slAssert]; (repeat' split) <;> simp only [Device.raise_sb, Device.wr_sb, Device.regate_sb]
@[simp] theorem Device.slAssert_nvm (d : Device) (i : Nat) : (d.slAssert i).nvm = d.nvm := by
  simp only [Device.slAssert]; (repeat' split) <;> simp only [Device.raise_nvm, Device.wr_nvm, Device.regate_nvm]
@[simp] theorem Device.slAssert_ldr (d : Device) (i : Nat) : (d.slAssert i).ldr = d.ldr := by
  simp only [Device.slAssert]; (repeat' split) <;> simp only [Device.raise_ldr, Device.wr_ldr, Device.regate_ldr]
@[simp] theorem Device.slAssert_freeCtr (d : Device) (i : Nat) : (d.slAssert i).freeCtr = d.freeCtr := by
  simp only [Device.slAssert]; (repeat' split) <;> simp only [Device.raise_freeCtr, Device.wr_freeCtr, Device.regate_freeCtr]
@[simp] theorem Device.slAssert_sent (d : Device) (i : Nat) : (d.slAssert i).sent = d.sent := by
  simp only [Device.slAssert]; (repeat' split) <;> simp only [Device.raise_sent, Device.wr_sent, Device.regate_sent]

@[simp] theorem Device.slNegate_mem (d : Device) (i : Nat) : (d.slNegate i).mem = d.mem := by
  simp only [Device.slNegate, Device.regate_mem, Device.wr_mem]
@[simp] theorem Device.slNegate_larea (d : Device) (i : Nat) : (d.slNegate i).larea = d.larea := by
  simp only [Device.slNegate, Device.regate_larea, Device.wr_larea]
@[simp] theorem Device.slNegate_prog (d : Device) (i : Nat) : (d.slNegate i).prog = d.prog := by
  simp only [Device.slNegate, Device.regate_prog, Device.wr_prog]
@[simp] theorem Device.slNegate_ce (d : Device) (i : Nat) : (d.slNegate i).ce = d.ce := by
  simp only [Device.slNegate, Device.regate_ce, Device.wr_ce]
@[simp] theorem Device.slNegate_task (d : Device) (i : Nat) : (d.slNegate i).task = d.task := by
  simp only [Device.slNegate, Device.regate_task, Device.wr_task]
@[simp] theorem Device.slNegate_tick (d : Device) (i : Nat) : (d.slNegate i).tick = d.tick := by
  simp only [Device.slNegate, Device.regate_tick, Device.wr_tick]
@[simp] theorem Device.slNegate_img (d : Device) (i : Nat) : (d.slNegate i).img = d.img := by
  simp only [Device.slNegate, Device.regate_img, Device.wr_img]
@[simp] theorem Device.slNegate_evr (d : Device) (i : Nat) : (d.slNegate i).evr = d.evr := by
  simp only [Device.slNegate, Device.regate_evr, Device.wr_evr]
@[simp] theorem Device.slNegate_hp (d : Device) (i : Nat) : (d.slNegate i).hp = d.hp := by
  simp only [Device.slNegate, Device.regate_hp, Device.wr_hp]
@[simp] theorem Device.slNegate_mb (d : Device) (i : Nat) : (d.slNegate i).mb = d.mb := by
  simp only [Device.slNegate, Device.regate_mb, Device.wr_mb]
@[simp] theorem Device.slNegate_sig (d : Device) (i : Nat) : (d.slNegate i).sig = d.sig := by
  simp only [Device.slNegate, Device.regate_sig, Device.wr_sig]
@[simp] theorem Device.slNegate_sys (d : Device) (i : Nat) : (d.slNegate i).sys = d.sys := by
  simp only [Device.slNegate, Device.regate_sys, Device.wr_sys]
@[simp] theorem Device.slNegate_pwr (d : Device) (i : Nat) : (d.slNegate i).pwr = d.pwr := by
  simp only [Device.slNegate, Device.regate_pwr, Device.wr_pwr]
@[simp] theorem Device.slNegate_tb (d : Device) (i : Nat) : (d.slNegate i).tb = d.tb := by
  simp only [Device.slNegate, Device.regate_tb, Device.wr_tb]
@[simp] theorem Device.slNegate_kl (d : Device) (i : Nat) : (d.slNegate i).kl = d.kl := by
  simp only [Device.slNegate, Device.regate_kl, Device.wr_kl]
@[simp] theorem Device.slNegate_eth (d : Device) (i : Nat) : (d.slNegate i).eth = d.eth := by
  simp only [Device.slNegate, Device.regate_eth, Device.wr_eth]
@[simp] theorem Device.slNegate_tri (d : Device) (i : Nat) : (d.slNegate i).tri = d.tri := by
  simp only [Device.slNegate, Device.regate_tri, Device.wr_tri]
@[simp] theorem Device.slNegate_sc (d : Device) (i : Nat) : (d.slNegate i).sc = d.sc := by
  simp only [Device.slNegate, Device.regate_sc, Device.wr_sc]
@[simp] theorem Device.slNegate_fo (d : Device) (i : Nat) : (d.slNegate i).fo = d.fo := by
  simp only [Device.slNegate, Device.regate_fo, Device.wr_fo]
@[simp] theorem Device.slNegate_sb (d : Device) (i : Nat) : (d.slNegate i).sb = d.sb := by
  simp only [Device.slNegate, Device.regate_sb, Device.wr_sb]
@[simp] theorem Device.slNegate_nvm (d : Device) (i : Nat) : (d.slNegate i).nvm = d.nvm := by
  simp only [Device.slNegate, Device.regate_nvm, Device.wr_nvm]
@[simp] theorem Device.slNegate_ldr (d : Device) (i : Nat) : (d.slNegate i).ldr = d.ldr := by
  simp only [Device.slNegate, Device.regate_ldr, Device.wr_ldr]
@[simp] theorem Device.slNegate_freeCtr (d : Device) (i : Nat) : (d.slNegate i).freeCtr = d.freeCtr := by
  simp only [Device.slNegate, Device.regate_freeCtr, Device.wr_freeCtr]
@[simp] theorem Device.slNegate_sent (d : Device) (i : Nat) : (d.slNegate i).sent = d.sent := by
  simp only [Device.slNegate, Device.regate_sent, Device.wr_sent]

@[simp] theorem Device.msix_mem (d : Device) (k : Nat) : (d.msix k).mem = d.mem := by
  unfold Device.msix; split <;> simp only [Device.send_mem, Device.setBitAt_mem]
@[simp] theorem Device.msix_larea (d : Device) (k : Nat) : (d.msix k).larea = d.larea := by
  unfold Device.msix; split <;> simp only [Device.send_larea, Device.setBitAt_larea]
@[simp] theorem Device.msix_prog (d : Device) (k : Nat) : (d.msix k).prog = d.prog := by
  unfold Device.msix; split <;> simp only [Device.send_prog, Device.setBitAt_prog]
@[simp] theorem Device.msix_ce (d : Device) (k : Nat) : (d.msix k).ce = d.ce := by
  unfold Device.msix; split <;> simp only [Device.send_ce, Device.setBitAt_ce]
@[simp] theorem Device.msix_task (d : Device) (k : Nat) : (d.msix k).task = d.task := by
  unfold Device.msix; split <;> simp only [Device.send_task, Device.setBitAt_task]
@[simp] theorem Device.msix_tick (d : Device) (k : Nat) : (d.msix k).tick = d.tick := by
  unfold Device.msix; split <;> simp only [Device.send_tick, Device.setBitAt_tick]
@[simp] theorem Device.msix_img (d : Device) (k : Nat) : (d.msix k).img = d.img := by
  unfold Device.msix; split <;> simp only [Device.send_img, Device.setBitAt_img]
@[simp] theorem Device.msix_evr (d : Device) (k : Nat) : (d.msix k).evr = d.evr := by
  unfold Device.msix; split <;> simp only [Device.send_evr, Device.setBitAt_evr]
@[simp] theorem Device.msix_hp (d : Device) (k : Nat) : (d.msix k).hp = d.hp := by
  unfold Device.msix; split <;> simp only [Device.send_hp, Device.setBitAt_hp]
@[simp] theorem Device.msix_mb (d : Device) (k : Nat) : (d.msix k).mb = d.mb := by
  unfold Device.msix; split <;> simp only [Device.send_mb, Device.setBitAt_mb]
@[simp] theorem Device.msix_sf (d : Device) (k : Nat) : (d.msix k).sf = d.sf := by
  unfold Device.msix; split <;> simp only [Device.send_sf, Device.setBitAt_sf]
@[simp] theorem Device.msix_fd (d : Device) (k : Nat) : (d.msix k).fd = d.fd := by
  unfold Device.msix; split <;> simp only [Device.send_fd, Device.setBitAt_fd]
@[simp] theorem Device.msix_sig (d : Device) (k : Nat) : (d.msix k).sig = d.sig := by
  unfold Device.msix; split <;> simp only [Device.send_sig, Device.setBitAt_sig]
@[simp] theorem Device.msix_sys (d : Device) (k : Nat) : (d.msix k).sys = d.sys := by
  unfold Device.msix; split <;> simp only [Device.send_sys, Device.setBitAt_sys]
@[simp] theorem Device.msix_pwr (d : Device) (k : Nat) : (d.msix k).pwr = d.pwr := by
  unfold Device.msix; split <;> simp only [Device.send_pwr, Device.setBitAt_pwr]
@[simp] theorem Device.msix_tb (d : Device) (k : Nat) : (d.msix k).tb = d.tb := by
  unfold Device.msix; split <;> simp only [Device.send_tb, Device.setBitAt_tb]
@[simp] theorem Device.msix_kl (d : Device) (k : Nat) : (d.msix k).kl = d.kl := by
  unfold Device.msix; split <;> simp only [Device.send_kl, Device.setBitAt_kl]
@[simp] theorem Device.msix_eth (d : Device) (k : Nat) : (d.msix k).eth = d.eth := by
  unfold Device.msix; split <;> simp only [Device.send_eth, Device.setBitAt_eth]
@[simp] theorem Device.msix_tri (d : Device) (k : Nat) : (d.msix k).tri = d.tri := by
  unfold Device.msix; split <;> simp only [Device.send_tri, Device.setBitAt_tri]
@[simp] theorem Device.msix_sc (d : Device) (k : Nat) : (d.msix k).sc = d.sc := by
  unfold Device.msix; split <;> simp only [Device.send_sc, Device.setBitAt_sc]
@[simp] theorem Device.msix_fo (d : Device) (k : Nat) : (d.msix k).fo = d.fo := by
  unfold Device.msix; split <;> simp only [Device.send_fo, Device.setBitAt_fo]
@[simp] theorem Device.msix_sb (d : Device) (k : Nat) : (d.msix k).sb = d.sb := by
  unfold Device.msix; split <;> simp only [Device.send_sb, Device.setBitAt_sb]
@[simp] theorem Device.msix_nvm (d : Device) (k : Nat) : (d.msix k).nvm = d.nvm := by
  unfold Device.msix; split <;> simp only [Device.send_nvm, Device.setBitAt_nvm]
@[simp] theorem Device.msix_ldr (d : Device) (k : Nat) : (d.msix k).ldr = d.ldr := by
  unfold Device.msix; split <;> simp only [Device.send_ldr, Device.setBitAt_ldr]
@[simp] theorem Device.msix_freeCtr (d : Device) (k : Nat) : (d.msix k).freeCtr = d.freeCtr := by
  unfold Device.msix; split <;> simp only [Device.send_freeCtr, Device.setBitAt_freeCtr]

@[simp] theorem Device.cause_mem (d : Device) (k : Nat) : (d.cause k).mem = d.mem := by
  simp only [Device.cause]; (repeat' split) <;> simp only [Device.msix_mem, Device.setBitAt_mem]
@[simp] theorem Device.cause_larea (d : Device) (k : Nat) : (d.cause k).larea = d.larea := by
  simp only [Device.cause]; (repeat' split) <;> simp only [Device.msix_larea, Device.setBitAt_larea]
@[simp] theorem Device.cause_prog (d : Device) (k : Nat) : (d.cause k).prog = d.prog := by
  simp only [Device.cause]; (repeat' split) <;> simp only [Device.msix_prog, Device.setBitAt_prog]
@[simp] theorem Device.cause_ce (d : Device) (k : Nat) : (d.cause k).ce = d.ce := by
  simp only [Device.cause]; (repeat' split) <;> simp only [Device.msix_ce, Device.setBitAt_ce]
@[simp] theorem Device.cause_task (d : Device) (k : Nat) : (d.cause k).task = d.task := by
  simp only [Device.cause]; (repeat' split) <;> simp only [Device.msix_task, Device.setBitAt_task]
@[simp] theorem Device.cause_tick (d : Device) (k : Nat) : (d.cause k).tick = d.tick := by
  simp only [Device.cause]; (repeat' split) <;> simp only [Device.msix_tick, Device.setBitAt_tick]
@[simp] theorem Device.cause_img (d : Device) (k : Nat) : (d.cause k).img = d.img := by
  simp only [Device.cause]; (repeat' split) <;> simp only [Device.msix_img, Device.setBitAt_img]
@[simp] theorem Device.cause_evr (d : Device) (k : Nat) : (d.cause k).evr = d.evr := by
  simp only [Device.cause]; (repeat' split) <;> simp only [Device.msix_evr, Device.setBitAt_evr]
@[simp] theorem Device.cause_hp (d : Device) (k : Nat) : (d.cause k).hp = d.hp := by
  simp only [Device.cause]; (repeat' split) <;> simp only [Device.msix_hp, Device.setBitAt_hp]
@[simp] theorem Device.cause_mb (d : Device) (k : Nat) : (d.cause k).mb = d.mb := by
  simp only [Device.cause]; (repeat' split) <;> simp only [Device.msix_mb, Device.setBitAt_mb]
@[simp] theorem Device.cause_sf (d : Device) (k : Nat) : (d.cause k).sf = d.sf := by
  simp only [Device.cause]; (repeat' split) <;> simp only [Device.msix_sf, Device.setBitAt_sf]
@[simp] theorem Device.cause_fd (d : Device) (k : Nat) : (d.cause k).fd = d.fd := by
  simp only [Device.cause]; (repeat' split) <;> simp only [Device.msix_fd, Device.setBitAt_fd]
@[simp] theorem Device.cause_sig (d : Device) (k : Nat) : (d.cause k).sig = d.sig := by
  simp only [Device.cause]; (repeat' split) <;> simp only [Device.msix_sig, Device.setBitAt_sig]
@[simp] theorem Device.cause_sys (d : Device) (k : Nat) : (d.cause k).sys = d.sys := by
  simp only [Device.cause]; (repeat' split) <;> simp only [Device.msix_sys, Device.setBitAt_sys]
@[simp] theorem Device.cause_pwr (d : Device) (k : Nat) : (d.cause k).pwr = d.pwr := by
  simp only [Device.cause]; (repeat' split) <;> simp only [Device.msix_pwr, Device.setBitAt_pwr]
@[simp] theorem Device.cause_tb (d : Device) (k : Nat) : (d.cause k).tb = d.tb := by
  simp only [Device.cause]; (repeat' split) <;> simp only [Device.msix_tb, Device.setBitAt_tb]
@[simp] theorem Device.cause_kl (d : Device) (k : Nat) : (d.cause k).kl = d.kl := by
  simp only [Device.cause]; (repeat' split) <;> simp only [Device.msix_kl, Device.setBitAt_kl]
@[simp] theorem Device.cause_eth (d : Device) (k : Nat) : (d.cause k).eth = d.eth := by
  simp only [Device.cause]; (repeat' split) <;> simp only [Device.msix_eth, Device.setBitAt_eth]
@[simp] theorem Device.cause_tri (d : Device) (k : Nat) : (d.cause k).tri = d.tri := by
  simp only [Device.cause]; (repeat' split) <;> simp only [Device.msix_tri, Device.setBitAt_tri]
@[simp] theorem Device.cause_sc (d : Device) (k : Nat) : (d.cause k).sc = d.sc := by
  simp only [Device.cause]; (repeat' split) <;> simp only [Device.msix_sc, Device.setBitAt_sc]
@[simp] theorem Device.cause_fo (d : Device) (k : Nat) : (d.cause k).fo = d.fo := by
  simp only [Device.cause]; (repeat' split) <;> simp only [Device.msix_fo, Device.setBitAt_fo]
@[simp] theorem Device.cause_sb (d : Device) (k : Nat) : (d.cause k).sb = d.sb := by
  simp only [Device.cause]; (repeat' split) <;> simp only [Device.msix_sb, Device.setBitAt_sb]
@[simp] theorem Device.cause_nvm (d : Device) (k : Nat) : (d.cause k).nvm = d.nvm := by
  simp only [Device.cause]; (repeat' split) <;> simp only [Device.msix_nvm, Device.setBitAt_nvm]
@[simp] theorem Device.cause_ldr (d : Device) (k : Nat) : (d.cause k).ldr = d.ldr := by
  simp only [Device.cause]; (repeat' split) <;> simp only [Device.msix_ldr, Device.setBitAt_ldr]
@[simp] theorem Device.cause_freeCtr (d : Device) (k : Nat) : (d.cause k).freeCtr = d.freeCtr := by
  simp only [Device.cause]; (repeat' split) <;> simp only [Device.msix_freeCtr, Device.setBitAt_freeCtr]

end Sys2Proof.Machine
end

