-- ==== Sys2Proof/Laws/Regs.lean ====
section
/-! SUPPORT. Registers: what is read after a register, a field, a counter or a command register was written, and which
registers an event, a host cause and Sluice write. -/

namespace Sys2Proof.Machine

/-! ## Words -/

/-- A register that was just written reads back. -/
@[simp] theorem Device.rd_wr_same (d : Device) (a : Nat) (v : Word) : (d.wr a v).rd a = v := by
  simp only [Device.rd, Device.wr, sget_sput_same]

/-- A register write leaves every other register alone. -/
theorem Device.rd_wr_other (d : Device) {a b : Nat} (v : Word) (h : b ≠ a) : (d.wr a v).rd b = d.rd b := by
  simp only [Device.rd, Device.wr, sget_sput_other regReset d.regs v h]

/-- The registers are all that a read of a register looks at. -/
theorem Device.rd_congr {d d' : Device} (h : d'.regs = d.regs) (a : Nat) : d'.rd a = d.rd a := by
  simp only [Device.rd, h]

theorem Device.fld_congr {d d' : Device} {f : Fld} (h : d'.rd f.addr = d.rd f.addr) : d'.fld f = d.fld f := by
  simp only [Device.fld, h]

/-! ## Fields -/

theorem bitsOf_lt (w : Word) (lo width : Nat) : bitsOf w lo width < 2 ^ width :=
  Nat.mod_lt _ (Nat.two_pow_pos width)

theorem withBits_toNat (w : Word) (lo width v : Nat) (h : lo + width ≤ 32) :
    (withBits w lo width v).toNat
      = w.toNat / 2 ^ (lo + width) * 2 ^ (lo + width) + v % 2 ^ width * 2 ^ lo + w.toNat % 2 ^ lo := by
  have hw := w.isLt
  have h1 : v % 2 ^ width < 2 ^ width := Nat.mod_lt _ (Nat.two_pow_pos _)
  have h2 : w.toNat % 2 ^ lo < 2 ^ lo := Nat.mod_lt _ (Nat.two_pow_pos _)
  have h3 : w.toNat / 2 ^ (lo + width) < 2 ^ (32 - (lo + width)) := by
    apply Nat.div_lt_of_lt_mul
    rw [← Nat.pow_add, Nat.add_sub_cancel' h]
    exact hw
  have h4 : v % 2 ^ width * 2 ^ lo + w.toNat % 2 ^ lo < 2 ^ (lo + width) := by
    rw [Nat.pow_add]
    have : (v % 2 ^ width + 1) * 2 ^ lo ≤ 2 ^ width * 2 ^ lo := Nat.mul_le_mul_right _ h1
    have e : 2 ^ lo * 2 ^ width = 2 ^ width * 2 ^ lo := Nat.mul_comm _ _
    rw [Nat.add_mul] at this
    omega
  have h5 : (w.toNat / 2 ^ (lo + width) + 1) * 2 ^ (lo + width) ≤ 2 ^ 32 := by
    have : (w.toNat / 2 ^ (lo + width) + 1) * 2 ^ (lo + width)
        ≤ 2 ^ (32 - (lo + width)) * 2 ^ (lo + width) := Nat.mul_le_mul_right _ h3
    rwa [← Nat.pow_add, Nat.sub_add_cancel h] at this
  rw [withBits, BitVec.toNat_ofNat, Nat.mod_eq_of_lt]
  rw [Nat.add_mul] at h5
  omega

/-- A field that was just written reads back. -/
theorem bitsOf_withBits_same (w : Word) (lo width v : Nat) (h : lo + width ≤ 32) :
    bitsOf (withBits w lo width v) lo width = v % 2 ^ width := by
  have h2 : w.toNat % 2 ^ lo < 2 ^ lo := Nat.mod_lt _ (Nat.two_pow_pos _)
  have e : w.toNat / 2 ^ (lo + width) * 2 ^ (lo + width) + v % 2 ^ width * 2 ^ lo + w.toNat % 2 ^ lo
      = (w.toNat / 2 ^ (lo + width) * 2 ^ width + v % 2 ^ width) * 2 ^ lo + w.toNat % 2 ^ lo := by
    rw [Nat.pow_add]; ring
  rw [bitsOf, withBits_toNat w lo width v h, e, Nat.mul_comm _ (2 ^ lo), Nat.mul_add_div (Nat.two_pow_pos lo),
    Nat.div_eq_of_lt h2, Nat.add_zero, Nat.mul_comm _ (2 ^ width), Nat.mul_add_mod, Nat.mod_mod]

/-- A field write leaves the bits above it alone. -/
theorem bitsOf_withBits_above (w : Word) (lo width v : Nat) (h : lo + width ≤ 32) {lo' : Nat} (width' : Nat)
    (hd : lo + width ≤ lo') : bitsOf (withBits w lo width v) lo' width' = bitsOf w lo' width' := by
  have h1 : v % 2 ^ width < 2 ^ width := Nat.mod_lt _ (Nat.two_pow_pos _)
  have h2 : w.toNat % 2 ^ lo < 2 ^ lo := Nat.mod_lt _ (Nat.two_pow_pos _)
  have h4 : v % 2 ^ width * 2 ^ lo + w.toNat % 2 ^ lo < 2 ^ (lo + width) := by
    rw [Nat.pow_add]
    have : (v % 2 ^ width + 1) * 2 ^ lo ≤ 2 ^ width * 2 ^ lo := Nat.mul_le_mul_right _ h1
    have e : 2 ^ lo * 2 ^ width = 2 ^ width * 2 ^ lo := Nat.mul_comm _ _
    rw [Nat.add_mul] at this
    omega
  have key : (withBits w lo width v).toNat / 2 ^ (lo + width) = w.toNat / 2 ^ (lo + width) := by
    rw [withBits_toNat w lo width v h, Nat.add_assoc, Nat.mul_comm _ (2 ^ (lo + width)),
      Nat.mul_add_div (Nat.two_pow_pos _), Nat.div_eq_of_lt h4, Nat.add_zero]
  have e : lo' = (lo + width) + (lo' - (lo + width)) := by omega
  rw [bitsOf, bitsOf, e, Nat.pow_add, ← Nat.div_div_eq_div_mul, ← Nat.div_div_eq_div_mul, key]

/-- A field write leaves the bits below it alone. -/
theorem bitsOf_withBits_below (w : Word) (lo width v : Nat) (h : lo + width ≤ 32) (lo' width' : Nat)
    (hd : lo' + width' ≤ lo) : bitsOf (withBits w lo width v) lo' width' = bitsOf w lo' width' := by
  have key : ∀ n : Nat, n / 2 ^ lo' % 2 ^ width' = n % 2 ^ lo / 2 ^ lo' % 2 ^ width' := by
    intro n
    rw [← Nat.mod_mul_right_div_self, ← Nat.mod_mul_right_div_self, ← Nat.pow_add,
      Nat.mod_mod_of_dvd _ (Nat.pow_dvd_pow 2 hd)]
  have e : (withBits w lo width v).toNat % 2 ^ lo = w.toNat % 2 ^ lo := by
    rw [withBits_toNat w lo width v h, Nat.pow_add]
    have : w.toNat / (2 ^ lo * 2 ^ width) * (2 ^ lo * 2 ^ width) + v % 2 ^ width * 2 ^ lo + w.toNat % 2 ^ lo
        = 2 ^ lo * (w.toNat / (2 ^ lo * 2 ^ width) * 2 ^ width + v % 2 ^ width) + w.toNat % 2 ^ lo := by ring
    rw [this, Nat.mul_add_mod, Nat.mod_mod]
  rw [bitsOf, bitsOf, key, key w.toNat, e]

/-- A field that was just written holds the low bits of the value. -/
@[simp] theorem Device.fld_setF_same (d : Device) (f : Fld) (v : Nat) (h : f.lo + f.width ≤ 32) :
    (d.setF f v).fld f = v % 2 ^ f.width := by
  simp only [Device.fld, Device.setF, Device.rd_wr_same, bitsOf_withBits_same _ _ _ _ h]

/-- A field write leaves every other register alone. -/
theorem Device.rd_setF_other (d : Device) {f : Fld} (v : Nat) {a : Nat} (h : a ≠ f.addr) :
    (d.setF f v).rd a = d.rd a := by
  simp only [Device.setF, Device.rd_wr_other d _ h]

/-- Two fields share no bit. -/
abbrev Fld.Apart (f g : Fld) : Prop :=
  f.addr ≠ g.addr ∨ (f.lo + f.width ≤ 32 ∧ (f.lo + f.width ≤ g.lo ∨ g.lo + g.width ≤ f.lo))

/-- A field write leaves every field apart from it alone. -/
theorem Device.fld_setF_other (d : Device) {f g : Fld} (v : Nat) (h : f.Apart g) : (d.setF f v).fld g = d.fld g := by
  rcases h with h | ⟨h, hd⟩
  · exact Device.fld_congr (Device.rd_setF_other d v (fun e => h e.symm))
  · by_cases ha : g.addr = f.addr
    · simp only [Device.fld, Device.setF, ha, Device.rd_wr_same]
      rcases hd with hd | hd
      · exact bitsOf_withBits_above _ _ _ _ h _ hd
      · exact bitsOf_withBits_below _ _ _ _ h _ _ hd
    · exact Device.fld_congr (Device.rd_setF_other d v ha)

/-- A register write leaves the fields of every other register alone. -/
theorem Device.fld_wr_other (d : Device) {a : Nat} {f : Fld} (v : Word) (h : f.addr ≠ a) :
    (d.wr a v).fld f = d.fld f := Device.fld_congr (Device.rd_wr_other d v h)

theorem Device.fld_lt (d : Device) (f : Fld) : d.fld f < 2 ^ f.width := bitsOf_lt _ _ _

/-- Writing a field with what it holds changes nothing. -/
theorem Device.bit_eq_true (d : Device) (f : Fld) : d.bit f = true ↔ d.fld f ≠ 0 := by
  simp [Device.bit]

/-! ## Which registers an operation writes -/

theorem Device.rd_satAdd_other (d : Device) {f : Fld} (n : Nat) {a : Nat} (h : a ≠ f.addr) :
    (d.satAdd f n).rd a = d.rd a := Device.rd_setF_other d _ h

theorem Device.rd_inc_other (d : Device) {f : Fld} {a : Nat} (h : a ≠ f.addr) : (d.inc f).rd a = d.rd a :=
  Device.rd_setF_other d _ h

theorem Device.rd_incMod_other (d : Device) {f : Fld} {a : Nat} (h : a ≠ f.addr) : (d.incMod f).rd a = d.rd a :=
  Device.rd_setF_other d _ h

/-- A counter that saturates counts one, and stays at all ones. -/
theorem Device.fld_inc_same (d : Device) (f : Fld) (h : f.lo + f.width ≤ 32) :
    (d.inc f).fld f = min (d.fld f + 1) (2 ^ f.width - 1) := by
  have : 0 < 2 ^ f.width := Nat.two_pow_pos _
  rw [Device.inc, Device.satAdd, Device.fld_setF_same _ _ _ h, Nat.mod_eq_of_lt (by omega)]

/-- An event writes no register but EVR_LOSS. -/
theorem Device.rd_enqueue (d : Device) (r : EvRec) {a : Nat} (h : a ≠ Reg.EVR_LOSS) : (d.enqueue r).rd a = d.rd a := by
  unfold Device.enqueue
  split
  · rfl
  · exact Device.rd_inc_other d h

theorem Device.rd_raiseFrom (d : Device) (eng ctx pos code : Nat) (snaps : List Word) {a : Nat}
    (h : a ≠ Reg.EVR_LOSS) : (d.raiseFrom eng ctx pos code snaps).rd a = d.rd a := by
  simp only [Device.raiseFrom]
  split
  · rfl
  · split
    · exact Device.rd_enqueue _ _ h
    · split
      · rfl
      · rw [Device.rd_enqueue _ _ h]; rfl

theorem Device.rd_raise (d : Device) (code : Nat) (snaps : List Word) {a : Nat} (h : a ≠ Reg.EVR_LOSS) :
    (d.raise code snaps).rd a = d.rd a := Device.rd_raiseFrom d _ _ _ _ _ h

theorem Device.fld_raise (d : Device) (code : Nat) (snaps : List Word) {f : Fld} (h : f.addr ≠ Reg.EVR_LOSS) :
    (d.raise code snaps).fld f = d.fld f := Device.fld_congr (Device.rd_raise d code snaps h)

/-- A register field changes registers alone. -/
theorem Device.setF_eq (d : Device) (f : Fld) (v : Nat) : ∃ x, d.setF f v = { d with regs := x } := ⟨_, rfl⟩

/-- An event changes registers and the event recorder alone. -/
theorem Device.enqueue_eq (d : Device) (r : EvRec) : ∃ x v, d.enqueue r = { d with regs := x, evr := v } := by
  unfold Device.enqueue
  split
  · exact ⟨d.regs, _, rfl⟩
  · exact ⟨_, d.evr, rfl⟩

theorem Device.raiseFrom_eq (d : Device) (eng ctx pos code : Nat) (snaps : List Word) :
    ∃ x v, d.raiseFrom eng ctx pos code snaps = { d with regs := x, evr := v } := by
  simp only [Device.raiseFrom]
  split
  · exact ⟨d.regs, d.evr, rfl⟩
  · split
    · exact d.enqueue_eq _
    · split
      · exact ⟨d.regs, _, rfl⟩
      · obtain ⟨x, v, h⟩ := Device.enqueue_eq ({ d with evr := { d.evr with
          used := sput (fun _ => 0) d.evr.used code (sget (fun _ => 0) d.evr.used code + 1) } } : Device)
          (d.evRecord eng ctx pos code snaps)
        exact ⟨x, v, by rw [h]⟩

theorem Device.raise_eq (d : Device) (code : Nat) (snaps : List Word) :
    ∃ x v, d.raise code snaps = { d with regs := x, evr := v } := d.raiseFrom_eq _ _ _ _ _

/-- Turning channels off writes no register. -/
@[simp] theorem Device.rd_turnOff (d : Device) (m a : Nat) : (d.turnOff m).rd a = d.rd a := rfl

/-- Sluice writes no register but SF_GATE. -/
theorem Device.rd_regate (d : Device) {a : Nat} (h : a ≠ Reg.SF_GATE) : d.regate.rd a = d.rd a := by
  simp only [Device.regate, Device.rd_turnOff, Device.rd_wr_other _ _ h]
  rfl

theorem Device.rd_sluice (d : Device) {a : Nat} (h : a ≠ Reg.SF_GATE) : d.sluice.rd a = d.rd a := by
  unfold Device.sluice
  split
  · rw [Device.rd_turnOff, Device.rd_regate d h]
  · exact Device.rd_regate d h

theorem Device.fld_sluice (d : Device) {f : Fld} (h : f.addr ≠ Reg.SF_GATE) : d.sluice.fld f = d.fld f :=
  Device.fld_congr (Device.rd_sluice d h)

/-- A command ends: its register is all that changes. -/
theorem Device.rd_endCmd (d : Device) (p : Port) (code : Nat) {a : Nat} (h : a ≠ p.stat) :
    (d.endCmd p code).rd a = d.rd a := by
  rw [Device.endCmd, Device.rd_incMod_other _ h, Device.rd_setF_other _ _ h, Device.rd_setF_other _ _ h]

theorem Device.fld_endCmd (d : Device) (p : Port) (code : Nat) {f : Fld} (h : f.addr ≠ p.stat) :
    (d.endCmd p code).fld f = d.fld f := Device.fld_congr (Device.rd_endCmd d p code h)

theorem Device.rd_beginCmd (d : Device) (p : Port) {a : Nat} (h : a ≠ p.stat) : (d.beginCmd p).rd a = d.rd a := by
  rw [Device.beginCmd, Device.rd_setF_other _ _ h, Device.rd_setF_other _ _ h]

/-- What the end of a command leaves in CMD_STATUS. -/
theorem Device.endCmd_busy (d : Device) (p : Port) (code : Nat) : (d.endCmd p code).fld p.busy = 0 := by
  rw [Device.endCmd, Device.incMod, Device.fld_setF_other _ _ (.inr (by simp [Port.seq, Port.busy])),
    Device.fld_setF_other _ _ (.inr (by simp [Port.code, Port.busy])), Device.fld_setF_same _ _ _ (by simp [Port.busy])]
  simp [Port.busy]

theorem Device.endCmd_code (d : Device) (p : Port) (code : Nat) : (d.endCmd p code).fld p.code = code % 8 := by
  rw [Device.endCmd, Device.incMod, Device.fld_setF_other _ _ (.inr (by simp [Port.seq, Port.code])),
    Device.fld_setF_same _ _ _ (by simp [Port.code])]
  simp [Port.code]

theorem Device.endCmd_seq (d : Device) (p : Port) (code : Nat) :
    (d.endCmd p code).fld p.seq = (d.fld p.seq + 1) % 256 := by
  rw [Device.endCmd, Device.incMod, Device.fld_setF_same _ _ _ (by simp [Port.seq]),
    Device.fld_setF_other _ _ (.inr (by simp [Port.seq, Port.code])),
    Device.fld_setF_other _ _ (.inr (by simp [Port.seq, Port.busy]))]
  simp [Port.seq]

theorem Device.endCmd_dropped (d : Device) (p : Port) (code : Nat) :
    (d.endCmd p code).fld p.dropped = d.fld p.dropped := by
  rw [Device.endCmd, Device.incMod, Device.fld_setF_other _ _ (.inr (by simp [Port.seq, Port.dropped])),
    Device.fld_setF_other _ _ (.inr (by simp [Port.dropped, Port.code])),
    Device.fld_setF_other _ _ (.inr (by simp [Port.dropped, Port.busy]))]

end Sys2Proof.Machine
end

