-- ==== Sys2Proof/Laws/Engine.lean ====
section
/-! SUPPORT. Engines: what running one instruction does, from what the instruction answers (R108, R115, R177, R192). -/

namespace Sys2Proof.Machine

/-! ## Reading contexts -/

theorem Device.ctx_congr {d d' : Device} (h : d'.ce = d.ce) (e c : Nat) : d'.ctx e c = d.ctx e c := by
  simp only [Device.ctx, h]

@[simp] theorem Device.ctx_setF (d : Device) (f : Fld) (v e c : Nat) : (d.setF f v).ctx e c = d.ctx e c := rfl

@[simp] theorem Device.ctx_setCtx_same (d : Device) (e c : Nat) (x : Ctx) : (d.setCtx e c x).ctx e c = x := by
  simp only [Device.ctx, Device.setCtx, sget_sput_same]

theorem Device.ctx_setCtx_other (d : Device) {e c e' c' : Nat} (x : Ctx) (hc : c < 16) (hc' : c' < 16)
    (h : e' ≠ e ∨ c' ≠ c) : (d.setCtx e c x).ctx e' c' = d.ctx e' c' := by
  have : 16 * e' + c' ≠ 16 * e + c := by omega
  simp only [Device.ctx, Device.setCtx, sget_sput_other ctx0 _ x this]

theorem Device.ecc_setF (d : Device) (f : Fld) (v k : Nat) : (d.setF f v).ecc k = d.ecc k := rfl

theorem Device.rd_setCtx (d : Device) (e c : Nat) (x : Ctx) (a : Nat) : (d.setCtx e c x).rd a = d.rd a := rfl

/-- A codeword without an error is read, and the device is as before. -/
theorem Device.eccRead_clean (d : Device) (m e k : Nat) (h : d.ecc k = .clean) : d.eccRead m e k = (true, d) := by
  simp only [Device.eccRead, h]

theorem Device.eccReads_clean (d : Device) (m e : Nat) (l : List Nat) (h : ∀ k ∈ l, d.ecc k = .clean) :
    d.eccReads m e l = (true, d) := by
  induction l with
  | nil => rfl
  | cons k t ih =>
    rw [Device.eccReads, Device.eccRead_clean d m e k (h k (by simp))]
    exact ih (fun j hj => h j (by simp [hj]))

theorem Device.pickCtx_lt (d : Device) (e : Nat) {n c : Nat} (h : d.pickCtx e n = some c) : c < n := by
  induction n with
  | zero => simp [Device.pickCtx] at h
  | succ n ih =>
    rw [Device.pickCtx] at h
    split at h
    · simp only [Option.some.injEq] at h; omega
    · exact Nat.lt_succ_of_lt (ih h)

theorem Device.Executes.lt {d : Device} {e c : Nat} (h : d.Executes e c) : c < 16 := d.pickCtx_lt e h.picks

/-! ## One instruction -/

/-- The device that an instruction of context c works on: c is the engine's active context. -/
abbrev Device.dispatched (d : Device) (e c : Nat) : Device := d.setF (Reg.CE_STATUS_ACTIVE_CTX e) c

/-- An engine that executes runs the instruction in its context, on the device with that context active. -/
theorem Device.Executes.azStep {d : Device} {e : Eng} {c : Nat} (h : d.Executes e c) (f : Device → Nat → Ctx → Res) :
    azStep e f d = Device.settle e c (d.ctx e c).pc (f (d.dispatched e c) c (d.ctx e c)) := by
  have hd : d.dispatch e c = d.dispatched e c := by
    rw [Device.dispatch, if_neg (by rw [h.active]; decide)]
  have he : (d.dispatched e c).eccRead 0 e (fetchKey e ((d.dispatched e c).ctx e c).pc) = (true, d.dispatched e c) := by
    apply Device.eccRead_clean
    rw [Device.ctx_setF, Device.ecc_setF]
    exact h.fetches
  rw [Sys2Proof.Machine.azStep, if_neg (by rw [h.runs]; simp), h.picks]
  simp only [hd]
  rw [he]
  simp only [Device.ctx_setF]

/-- The next position in the same bank is the PC plus one. -/
theorem next_pc (pc : BitVec 16) :
    BitVec.ofNat 16 (pc.toNat / 32768 * 32768 + ((pc.toNat % 32768 : Nat) + 1 : Int).toNat) = pc + 1 := by
  apply BitVec.eq_of_toNat_eq
  have := pc.isLt
  rw [BitVec.toNat_ofNat, BitVec.toNat_add]
  simp
  omega

/-- An instruction that completes: the step counts, and the context goes on with the next index. -/
theorem settle_ok (e c : Nat) (pc : BitVec 16) (h : pc.toNat % 32768 ≠ 32767) (d : Device) (x : Ctx) :
    Device.settle e c pc (.ok d x) = (d.retire e 1).setCtx e c { x with pc := pc + 1 } := by
  have hn : (0 : Int) ≤ ((pc.toNat % 32768 : Nat) : Int) + 1 ∧ ((pc.toNat % 32768 : Nat) : Int) + 1 < 32768 := by omega
  rw [Device.settle, Device.advance, if_pos (by exact_mod_cast hn)]
  congr 2
  exact_mod_cast next_pc pc

/-! ## Step counts -/

theorem Device.rd_retire_other (d : Device) (e n : Nat) {a : Nat} (h1 : a ≠ Reg.TASK_ENG_RETIRED_LO e)
    (h2 : a ≠ Reg.TASK_ENG_RETIRED_HI e) : (d.retire e n).rd a = d.rd a := by
  simp only [Device.retire, Device.rd_wr_other _ _ h2, Device.rd_wr_other _ _ h1]

theorem Device.retired_retire (d : Device) (e n : Nat) : (d.retire e n).retired e = (d.retired e + n) % 2 ^ 64 := by
  have hne : Reg.TASK_ENG_RETIRED_LO e ≠ Reg.TASK_ENG_RETIRED_HI e := by
    simp only [Reg.TASK_ENG_RETIRED_LO, Reg.TASK_ENG_RETIRED_HI]; omega
  simp only [Device.retired, Device.retire, Device.rd_wr_same, Device.rd_wr_other _ _ hne, wd, BitVec.toNat_ofNat]
  omega

theorem Device.retired_congr {d d' : Device} {e : Nat}
    (h1 : d'.rd (Reg.TASK_ENG_RETIRED_HI e) = d.rd (Reg.TASK_ENG_RETIRED_HI e))
    (h2 : d'.rd (Reg.TASK_ENG_RETIRED_LO e) = d.rd (Reg.TASK_ENG_RETIRED_LO e)) : d'.retired e = d.retired e := by
  simp only [Device.retired, h1, h2]

/-! ## Addresses -/

theorem status_ne_gate (e : Nat) (h : e < 24) : Reg.CE_STATUS e ≠ Reg.SF_GATE := by
  simp only [Reg.CE_STATUS, Reg.SF_GATE]; omega
theorem lo_ne_gate (e : Nat) (h : e < 24) : Reg.TASK_ENG_RETIRED_LO e ≠ Reg.SF_GATE := by
  simp only [Reg.TASK_ENG_RETIRED_LO, Reg.SF_GATE]; omega
theorem hi_ne_gate (e : Nat) (h : e < 24) : Reg.TASK_ENG_RETIRED_HI e ≠ Reg.SF_GATE := by
  simp only [Reg.TASK_ENG_RETIRED_HI, Reg.SF_GATE]; omega
theorem status_ne_lo (e : Nat) (_ : e < 24) : Reg.CE_STATUS e ≠ Reg.TASK_ENG_RETIRED_LO e := by
  simp only [Reg.TASK_ENG_RETIRED_LO, Reg.CE_STATUS]; omega
theorem status_ne_hi (e : Nat) (_ : e < 24) : Reg.CE_STATUS e ≠ Reg.TASK_ENG_RETIRED_HI e := by
  simp only [Reg.TASK_ENG_RETIRED_HI, Reg.CE_STATUS]; omega

/-! ## What an instruction that completes leaves -/

/-- The device after an instruction that completes with device d2 and registers x. -/
abbrev Device.completed (d2 : Device) (e c : Nat) (n : Nat) (x : Ctx) : Device := ((d2.retire e n).setCtx e c x).sluice

theorem Device.rd_completed (d2 : Device) (e c n : Nat) (x : Ctx) {a : Nat} (h0 : a ≠ Reg.SF_GATE)
    (h1 : a ≠ Reg.TASK_ENG_RETIRED_LO e) (h2 : a ≠ Reg.TASK_ENG_RETIRED_HI e) :
    (d2.completed e c n x).rd a = d2.rd a := by
  rw [Device.rd_sluice _ h0, Device.rd_setCtx, Device.rd_retire_other _ _ _ h1 h2]

/-- From what the instruction leaves of the engines and of two registers, how its engine has run. -/
theorem Device.ran_completed {d d2 : Device} {e : Eng} {c : Nat} (h : d.Executes e c) (n : Nat) (x : Ctx)
    (hs : d2.rd (Reg.CE_STATUS e) = (d.dispatched e c).rd (Reg.CE_STATUS e))
    (hl : d2.rd (Reg.TASK_ENG_RETIRED_LO e) = d.rd (Reg.TASK_ENG_RETIRED_LO e))
    (hh : d2.rd (Reg.TASK_ENG_RETIRED_HI e) = d.rd (Reg.TASK_ENG_RETIRED_HI e))
    (hm : d2.ce.main = d.ce.main) : d.Ran (d2.completed e c n x) e c n x := by
  have he := e.isLt
  have hc := h.lt
  have hr : (d2.completed e c n x).rd (Reg.CE_STATUS e) = (d.dispatched e c).rd (Reg.CE_STATUS e) := by
    rw [Device.rd_completed _ _ _ _ _ (status_ne_gate e he) (status_ne_lo e he) (status_ne_hi e he), hs]
  refine ⟨?_, ?_, ?_, ?_, ?_, ?_⟩
  · rw [Device.ctx_congr (Device.sluice_ce _), Device.ctx_setCtx_same]
  · rw [Device.sluice_ce]; simp only [Device.setCtx, sget_sput_same]
  · intro e' c' hc' hne
    rw [Device.ctx_congr (Device.sluice_ce _), Device.ctx_setCtx_other _ _ hc hc' hne]
    simp only [Device.ctx, Device.retire_ce, hm]
  · have : (d2.completed e c n x).fld (Reg.CE_STATUS_STATE e) = (d.dispatched e c).fld (Reg.CE_STATUS_STATE e) :=
      Device.fld_congr hr
    rw [Device.engState, this, Device.fld_setF_other _ _ (.inr (by simp [Reg.CE_STATUS_STATE, Reg.CE_STATUS_ACTIVE_CTX]))]
    exact h.runs
  · have : (d2.completed e c n x).fld (Reg.CE_STATUS_ACTIVE_CTX e) = (d.dispatched e c).fld (Reg.CE_STATUS_ACTIVE_CTX e) :=
      Device.fld_congr hr
    rw [this, Device.fld_setF_same _ _ _ (by simp [Reg.CE_STATUS_ACTIVE_CTX])]
    simp only [Reg.CE_STATUS_ACTIVE_CTX]
    omega
  · rw [Device.retired_congr (Device.rd_sluice _ (hi_ne_gate e he)) (Device.rd_sluice _ (lo_ne_gate e he)),
      Device.retired_congr (Device.rd_setCtx _ _ _ _ _) (Device.rd_setCtx _ _ _ _ _), Device.retired_retire,
      Device.retired_congr hh hl]

theorem Device.tcell_congr {d d' : Device} (h : d'.ce.tcells = d.ce.tcells) (n : Nat) : d'.tcell n = d.tcell n := by
  simp only [Device.tcell, h]
theorem Device.ccell_congr {d d' : Device} (h : d'.ce.ccells = d.ce.ccells) (n : Nat) : d'.ccell n = d.ccell n := by
  simp only [Device.ccell, h]

/-- An instruction that answers `ok` with a device whose contexts and step count are as it found them. -/
theorem Device.Executes.completes_ok {s : State} {e : Eng} {c : Nat} (h : s.dev.Executes e c) {i : Instr} {x : Ctx}
    {f : Device → Nat → Ctx → Res} {d2 : Device}
    (hx : exec i s = run (Sys2Proof.Machine.azStep e f) s)
    (hf : f (s.dev.dispatched e c) c (s.dev.ctx e c) = .ok d2 x)
    (h1 : d2.rd (Reg.CE_STATUS e) = (s.dev.dispatched e c).rd (Reg.CE_STATUS e))
    (h2 : d2.rd (Reg.TASK_ENG_RETIRED_LO e) = s.dev.rd (Reg.TASK_ENG_RETIRED_LO e))
    (h3 : d2.rd (Reg.TASK_ENG_RETIRED_HI e) = s.dev.rd (Reg.TASK_ENG_RETIRED_HI e))
    (hm : d2.ce.main = s.dev.ce.main) :
    Completes i s (fun t =>
      t = d2.completed e c 1 { x with pc := (s.dev.ctx e c).pc + 1 } ∧
      s.dev.Ran t e c 1 { x with pc := (s.dev.ctx e c).pc + 1 }) := by
  refine ⟨_, hx, rfl, ?_⟩
  simp only [h.azStep f, hf, settle_ok _ _ _ h.inside, true_and]
  exact Device.ran_completed h 1 _ h1 h2 h3 hm

/-- An instruction that completes with new registers and the device as it found it. -/
theorem Device.stepped_completed {d : Device} {e : Eng} {c : Nat} (h : d.Executes e c) (x : Ctx) :
    d.Stepped ((d.dispatched e c).completed e c 1 { x with pc := (d.ctx e c).pc + 1 }) e c x := by
  have he := e.isLt
  refine ⟨Device.ran_completed h 1 _ rfl (Device.rd_setF_other _ _ (status_ne_lo e he).symm)
    (Device.rd_setF_other _ _ (status_ne_hi e he).symm) (by simp only [Device.setF_ce]), ?_, ?_, ?_, ?_, by simp⟩
  · intro a ha
    simp only [stepRegs, List.mem_cons, List.not_mem_nil, or_false, not_or] at ha
    rw [Device.rd_completed _ _ _ _ _ ha.2.2.2 ha.2.1 ha.2.2.1, Device.rd_setF_other _ _ ha.1]
  · exact ⟨by simp, by simp, by simp⟩
  · refine ⟨fun n => Device.tcell_congr ?_ n, fun n => Device.ccell_congr ?_ n⟩
    · simp only [Device.sluice_ce]; simp [Device.setCtx]
    · simp only [Device.sluice_ce]; simp [Device.setCtx]
  · constructor <;> simp

/-- An instruction that answers `ok` with the device as it found it. -/
theorem Device.Executes.runs_ok {s : State} {e : Eng} {c : Nat} (h : s.dev.Executes e c) {i : Instr} {x : Ctx}
    {f : Device → Nat → Ctx → Res} (hx : exec i s = run (Sys2Proof.Machine.azStep e f) s)
    (hf : f (s.dev.dispatched e c) c (s.dev.ctx e c) = .ok (s.dev.dispatched e c) x) : Runs i s e c x := by
  refine ⟨_, hx, rfl, ?_⟩
  simp only [h.azStep f, hf, settle_ok _ _ _ h.inside]
  exact Device.stepped_completed h x

/-- An instruction that changes registers only (R112): it runs, with the registers that it gives. -/
theorem Device.Executes.runs_regOp {s : State} {e : Eng} {c : Nat} (h : s.dev.Executes e c) {i : Instr} {legal : Bool}
    (hl : legal = true) {g : Ctx → Ctx} (hx : exec i s = run (Sys2Proof.Machine.azStep e (regOp legal g)) s) {x : Ctx}
    (hg : g (s.dev.ctx e c) = x) : Runs i s e c x :=
  h.runs_ok hx (by simp only [regOp, hl, if_true, hg])

end Sys2Proof.Machine
end

