-- ==== Sys2Proof/Laws/Tasks.lean ====
section
/-! SUPPORT. The end of an instance (R161, R178): which registers it writes, what the semaphores hold, and what it leaves
alone. -/

namespace Sys2Proof.Machine

/-! ## Semaphores -/

/-- Releasing the semaphores of a context writes no register but those of semaphores, and EVR_LOSS. -/
theorem Device.rd_semRelease (d : Device) (e c n : Nat) {a : Nat} (h1 : ∀ k, k < n → a ≠ Reg.HSEM k)
    (h2 : a ≠ Reg.EVR_LOSS) : (d.semRelease e c n).rd a = d.rd a := by
  induction n with
  | zero => rfl
  | succ n ih =>
    have ih' := ih (fun k hk => h1 k (by omega))
    simp only [Device.semRelease]
    split
    · rw [Device.rd_raise _ _ _ h2, Device.semFree, Device.rd_setF_other _ _ (h1 n (by omega)), ih']
    · exact ih'

theorem hsem_inj {i j : Nat} (h : Reg.HSEM i = Reg.HSEM j) : i = j := by
  simp only [Reg.HSEM] at h; omega

theorem hsem_ne_loss {i : Nat} (h : i < 64) : Reg.HSEM i ≠ Reg.EVR_LOSS := by
  simp only [Reg.HSEM, Reg.EVR_LOSS]; omega

theorem Device.semOwner_congr {d d' : Device} {n : Nat} (h : d'.rd (Reg.HSEM n) = d.rd (Reg.HSEM n)) :
    d'.semOwner n = d.semOwner n := Device.fld_congr h

/-- Every semaphore that the context owned is free, and every other one has the owner that it had (R161). -/
theorem Device.semOwner_semRelease (d : Device) (e c n : Nat) (hn : n ≤ 64) (k : Nat) (hk : k < 64) :
    (d.semRelease e c n).semOwner k = if k < n ∧ d.semOwner k = ownerEng e c then ownerFree else d.semOwner k := by
  induction n with
  | zero => simp [Device.semRelease]
  | succ n ih =>
    have ih' := ih (by omega)
    have hn' : (d.semRelease e c n).semOwner n = d.semOwner n := by
      refine Device.semOwner_congr (d.rd_semRelease e c n (fun j hj he => ?_) (hsem_ne_loss (by omega)))
      have := hsem_inj he
      omega
    simp only [Device.semRelease, hn']
    by_cases ho : d.semOwner n = ownerEng e c
    · rw [if_pos ho]
      by_cases hkn : k = n
      · subst hkn
        rw [if_pos ⟨by omega, ho⟩, Device.semOwner_congr (Device.rd_raise _ _ _ (hsem_ne_loss hk)), Device.semOwner,
          Device.semFree, Device.fld_setF_same _ _ _ (by simp [Reg.HSEM_OWNER])]
        rfl
      · have : ((d.semRelease e c n).semFree n).semOwner k = (d.semRelease e c n).semOwner k := by
          refine Device.semOwner_congr (Device.rd_setF_other _ _ (fun he => hkn (hsem_inj he)))
        rw [Device.semOwner_congr (Device.rd_raise _ _ _ (hsem_ne_loss hk)), this, ih']
        have : (k < n + 1 ∧ d.semOwner k = ownerEng e c) ↔ (k < n ∧ d.semOwner k = ownerEng e c) := by
          constructor
          · rintro ⟨h1, h2⟩; exact ⟨by omega, h2⟩
          · rintro ⟨h1, h2⟩; exact ⟨by omega, h2⟩
        simp only [this]
    · rw [if_neg ho, ih']
      by_cases hkn : k = n
      · subst hkn
        rw [if_neg (by simp), if_neg (by simp [ho])]
      · have : (k < n + 1 ∧ d.semOwner k = ownerEng e c) ↔ (k < n ∧ d.semOwner k = ownerEng e c) := by
          constructor
          · rintro ⟨h1, h2⟩; exact ⟨by omega, h2⟩
          · rintro ⟨h1, h2⟩; exact ⟨by omega, h2⟩
        simp only [this]

/-- Releasing semaphores changes registers and the event recorder alone. -/
theorem Device.semRelease_eq (d : Device) (e c n : Nat) :
    ∃ r v, d.semRelease e c n = { d with regs := r, evr := v } := by
  induction n with
  | zero => exact ⟨d.regs, d.evr, rfl⟩
  | succ n ih =>
    obtain ⟨r, v, h⟩ := ih
    simp only [Device.semRelease]
    split
    · obtain ⟨r', v', h'⟩ := ((d.semRelease e c n).semFree n).raise_eq 0x092 [wd n, wd e, wd c]
      obtain ⟨r2, h2⟩ := (d.semRelease e c n).setF_eq (Reg.HSEM_OWNER n) ownerFree
      exact ⟨r', v', by rw [h', Device.semFree, h2, h]⟩
    · exact ⟨r, v, h⟩

/-! ## The end of an instance -/

/-- Keeping the longest response writes one register. -/
theorem Device.rd_maxRun (d : Device) (e c : Nat) {a : Nat} (h : a ≠ Reg.TASK_MAXRUN e c) :
    (d.maxRun e c).rd a = d.rd a := by
  unfold Device.maxRun
  split
  · exact Device.rd_setF_other _ _ h
  · rfl

theorem Device.maxRun_eq (d : Device) (e c : Nat) : ∃ r, d.maxRun e c = { d with regs := r } := by
  unfold Device.maxRun
  split
  · exact ⟨_, rfl⟩
  · exact ⟨d.regs, rfl⟩

/-- The device when an instance ends, before its context changes state. -/
def Device.endPrep (d : Device) (e c : Nat) : Device :=
  if d.ctxState e c = 2 then (d.semRelease e c 64).maxRun e c else d.semRelease e c 64

theorem Device.endInst_def (d : Device) (e c : Nat) : d.endInst e c =
    if (d.endPrep e c).bit (Reg.TASK_STAT_LATCH e c) then
      let d2 := (((d.endPrep e c).setF (Reg.TASK_STAT_LATCH e c) 0).setF (Reg.TASK_STAT_STATE e c) 1).setRel e c
        (sget noRel (d.endPrep e c).task.latched (16 * e + c))
      { d2 with task := { d2.task with latched := sput noRel d2.task.latched (16 * e + c) none } }
    else ((d.endPrep e c).setF (Reg.TASK_STAT_STATE e c) 0).setRel e c none := rfl

/-- Releases are no registers. -/
theorem Device.rd_setRel (d : Device) (e c : Nat) (r : Option Rel) (a : Nat) : (d.setRel e c r).rd a = d.rd a :=
  Device.rd_congr (Device.setRel_regs d e c r) a

theorem Device.rd_task (d : Device) (t : TaskState) (a : Nat) : ({ d with task := t } : Device).rd a = d.rd a :=
  Device.rd_congr rfl a

theorem Device.fld_task (d : Device) (t : TaskState) (f : Fld) : ({ d with task := t } : Device).fld f = d.fld f :=
  Device.fld_congr (d.rd_task t _)

theorem Device.fld_setRel (d : Device) (e c : Nat) (r : Option Rel) (f : Fld) : (d.setRel e c r).fld f = d.fld f :=
  Device.fld_congr (d.rd_setRel e c r _)

theorem Device.endPrep_eq (d : Device) (e c : Nat) : ∃ r v, d.endPrep e c = { d with regs := r, evr := v } := by
  obtain ⟨r, v, h⟩ := d.semRelease_eq e c 64
  unfold Device.endPrep
  split
  · obtain ⟨r', h'⟩ := (d.semRelease e c 64).maxRun_eq e c
    exact ⟨r', v, by rw [h', h]⟩
  · exact ⟨r, v, h⟩

/-- A register that an instance's end does not write. -/
def EndKeeps (e c a : Nat) : Prop :=
  (∀ k, k < 64 → a ≠ Reg.HSEM k) ∧ a ≠ Reg.EVR_LOSS ∧ a ≠ Reg.TASK_MAXRUN e c

theorem Device.rd_endPrep (d : Device) (e c : Nat) {a : Nat} (h : EndKeeps e c a) : (d.endPrep e c).rd a = d.rd a := by
  have h1 := d.rd_semRelease e c 64 h.1 h.2.1
  unfold Device.endPrep
  split
  · rw [Device.rd_maxRun _ _ _ h.2.2, h1]
  · exact h1

theorem Device.rd_endInst (d : Device) (e c : Nat) {a : Nat} (h : EndKeeps e c a) (hs : a ≠ Reg.TASK_STAT e c) :
    (d.endInst e c).rd a = d.rd a := by
  rw [Device.endInst_def]
  split
  · simp only [Device.rd_task, Device.rd_setRel]
    rw [Device.rd_setF_other _ _ hs, Device.rd_setF_other _ _ hs, d.rd_endPrep e c h]
  · simp only [Device.rd_setRel]
    rw [Device.rd_setF_other _ _ hs, d.rd_endPrep e c h]

/-- The end of an instance changes registers, the event recorder and the releases alone. -/
theorem Device.endInst_eq (d : Device) (e c : Nat) :
    ∃ r v t, d.endInst e c = { d with regs := r, evr := v, task := t } := by
  obtain ⟨r, v, h⟩ := d.endPrep_eq e c
  rw [Device.endInst_def]
  split
  · obtain ⟨x1, h1⟩ := (d.endPrep e c).setF_eq (Reg.TASK_STAT_LATCH e c) 0
    obtain ⟨x2, h2⟩ := ((d.endPrep e c).setF (Reg.TASK_STAT_LATCH e c) 0).setF_eq (Reg.TASK_STAT_STATE e c) 1
    refine ⟨x2, v, ?_⟩
    rw [h2, h1, h]
    exact ⟨_, rfl⟩
  · obtain ⟨x1, h1⟩ := (d.endPrep e c).setF_eq (Reg.TASK_STAT_STATE e c) 0
    refine ⟨x1, v, ?_⟩
    rw [h1, h]
    exact ⟨_, rfl⟩

theorem endKeeps_stat (e c e' c' : Nat) (he' : e' < 24) (hc' : c' < 16) :
    EndKeeps e c (Reg.TASK_STAT e' c') := by
  refine ⟨?_, ?_, ?_⟩
  · intro k hk; simp only [Reg.TASK_STAT, Reg.HSEM]; omega
  · simp only [Reg.TASK_STAT, Reg.EVR_LOSS]; omega
  · simp only [Reg.TASK_STAT, Reg.TASK_MAXRUN]; omega

/-- After the end of an instance its context is IDLE, or PENDING with the release that was latched (R178). -/
theorem Device.endInst_state (d : Device) (e c : Nat) (he : e < 24) (hc : c < 16) :
    (d.endInst e c).ctxState e c = (if d.bit (Reg.TASK_STAT_LATCH e c) then 1 else 0) ∧
    (d.endInst e c).bit (Reg.TASK_STAT_LATCH e c) = false ∧
    (d.endInst e c).relOf e c
      = (if d.bit (Reg.TASK_STAT_LATCH e c) then sget noRel d.task.latched (16 * e + c) else none) := by
  have hp : (d.endPrep e c).fld (Reg.TASK_STAT_LATCH e c) = d.fld (Reg.TASK_STAT_LATCH e c) :=
    Device.fld_congr (d.rd_endPrep e c (endKeeps_stat e c e c he hc))
  have hb : (d.endPrep e c).bit (Reg.TASK_STAT_LATCH e c) = d.bit (Reg.TASK_STAT_LATCH e c) := by
    simp only [Device.bit, hp]
  obtain ⟨r, v, heq⟩ := d.endPrep_eq e c
  have ht : (d.endPrep e c).task = d.task := by rw [heq]
  have hap : (Reg.TASK_STAT_STATE e c).Apart (Reg.TASK_STAT_LATCH e c) :=
    .inr (by simp [Reg.TASK_STAT_STATE, Reg.TASK_STAT_LATCH])
  rw [Device.endInst_def, hb]
  by_cases hl : d.bit (Reg.TASK_STAT_LATCH e c) = true
  · simp only [hl, if_true]
    refine ⟨?_, ?_, ?_⟩
    · simp only [Device.ctxState, Device.fld_task, Device.fld_setRel]
      rw [Device.fld_setF_same _ _ _ (by simp [Reg.TASK_STAT_STATE])]
      simp [Reg.TASK_STAT_STATE]
    · have : (((d.endPrep e c).setF (Reg.TASK_STAT_LATCH e c) 0).setF (Reg.TASK_STAT_STATE e c) 1).fld
          (Reg.TASK_STAT_LATCH e c) = 0 := by
        rw [Device.fld_setF_other _ _ hap, Device.fld_setF_same _ _ _ (by simp [Reg.TASK_STAT_LATCH])]
        simp
      simp only [Device.bit, Device.fld_task, Device.fld_setRel, this]
      rfl
    · simp only [Device.relOf, Device.setRel, sget_sput_same, ht]
  · have hl' : d.bit (Reg.TASK_STAT_LATCH e c) = false := by simpa using hl
    simp only [hl', Bool.false_eq_true, if_false]
    refine ⟨?_, ?_, ?_⟩
    · simp only [Device.ctxState, Device.fld_setRel]
      rw [Device.fld_setF_same _ _ _ (by simp [Reg.TASK_STAT_STATE])]
      simp
    · have : ((d.endPrep e c).setF (Reg.TASK_STAT_STATE e c) 0).fld (Reg.TASK_STAT_LATCH e c) = 0 := by
        rw [Device.fld_setF_other _ _ hap, hp]
        simpa [Device.bit] using hl'
      simp only [Device.bit, Device.fld_setRel, this]
      rfl
    · simp only [Device.relOf, Device.setRel, sget_sput_same]

/-- The end of an instance frees the semaphores that its context owns (R161). -/
theorem Device.endInst_semOwner (d : Device) (e c k : Nat) (he : e < 24) (hc : c < 16) (hk : k < 64) :
    (d.endInst e c).semOwner k = if d.semOwner k = ownerEng e c then ownerFree else d.semOwner k := by
  have h1 : (d.endPrep e c).semOwner k = (d.semRelease e c 64).semOwner k := by
    unfold Device.endPrep
    split
    · refine Device.semOwner_congr (Device.rd_maxRun _ _ _ ?_)
      simp only [Reg.HSEM, Reg.TASK_MAXRUN]; omega
    · rfl
  have hne : Reg.HSEM k ≠ Reg.TASK_STAT e c := by simp only [Reg.HSEM, Reg.TASK_STAT]; omega
  have h2 : (d.endInst e c).semOwner k = (d.endPrep e c).semOwner k := by
    refine Device.semOwner_congr ?_
    rw [Device.endInst_def]
    split
    · simp only [Device.rd_task, Device.rd_setRel]
      rw [Device.rd_setF_other _ _ hne, Device.rd_setF_other _ _ hne]
    · simp only [Device.rd_setRel]
      rw [Device.rd_setF_other _ _ hne]
  rw [h2, h1, d.semOwner_semRelease e c 64 (Nat.le_refl _) k hk]
  simp [hk]

end Sys2Proof.Machine
end

