-- ==== Sys2Proof/Laws/Router.lean ====
section
/-! SUPPORT. Operations that change registers, the event recorder, releases and what is sent, and nothing else: which
registers each of them writes. -/

namespace Sys2Proof.Machine

/-- The device t differs from d in registers that R names, in the event recorder, the releases and what was sent. -/
structure Device.Soft (R : Nat → Prop) (d t : Device) : Prop where
  form : ∃ r v k m, t = { d with regs := r, evr := v, task := k, sent := m }
  regs : ∀ a, ¬R a → t.rd a = d.rd a

theorem Device.Soft.refl {R : Nat → Prop} (d : Device) : d.Soft R d :=
  ⟨⟨d.regs, d.evr, d.task, d.sent, rfl⟩, fun _ _ => rfl⟩

theorem Device.Soft.trans {R : Nat → Prop} {d t u : Device} (h : d.Soft R t) (g : t.Soft R u) : d.Soft R u := by
  obtain ⟨r, v, k, m, h1⟩ := h.form
  obtain ⟨r', v', k', m', g1⟩ := g.form
  exact ⟨⟨r', v', k', m', by rw [g1, h1]⟩, fun a ha => (g.regs a ha).trans (h.regs a ha)⟩

theorem Device.Soft.mono {R S : Nat → Prop} {d t : Device} (h : d.Soft R t) (hs : ∀ a, R a → S a) : d.Soft S t :=
  ⟨h.form, fun a ha => h.regs a (fun hr => ha (hs a hr))⟩

theorem Device.Soft.ite {R : Nat → Prop} {d t u : Device} {p : Prop} [Decidable p] (h : d.Soft R t) (g : d.Soft R u) :
    d.Soft R (if p then t else u) := by split <;> assumption

section
variable {R : Nat → Prop} (d : Device)

theorem Device.soft_wr {a : Nat} (v : Word) (h : R a) : d.Soft R (d.wr a v) :=
  ⟨⟨_, d.evr, d.task, d.sent, rfl⟩, fun _ hb => Device.rd_wr_other _ _ (fun e => hb (e ▸ h))⟩

theorem Device.soft_setF {f : Fld} (v : Nat) (h : R f.addr) : d.Soft R (d.setF f v) := d.soft_wr _ h
theorem Device.soft_satAdd {f : Fld} (n : Nat) (h : R f.addr) : d.Soft R (d.satAdd f n) := d.soft_setF _ h
theorem Device.soft_inc {f : Fld} (h : R f.addr) : d.Soft R (d.inc f) := d.soft_setF _ h
theorem Device.soft_incMod {f : Fld} (h : R f.addr) : d.Soft R (d.incMod f) := d.soft_setF _ h
theorem Device.soft_setBitAt {f : Fld} (i : Nat) (b : Bool) (h : R f.addr) : d.Soft R (d.setBitAt f i b) := d.soft_setF _ h

theorem Device.soft_task (k : TaskState) : d.Soft R { d with task := k } :=
  ⟨⟨d.regs, d.evr, k, d.sent, rfl⟩, fun _ _ => rfl⟩

theorem Device.soft_setRel (e c : Nat) (r : Option Rel) : d.Soft R (d.setRel e c r) := d.soft_task _

theorem Device.soft_raiseFrom (eng ctx pos code : Nat) (snaps : List Word) (h : R Reg.EVR_LOSS) :
    d.Soft R (d.raiseFrom eng ctx pos code snaps) := by
  obtain ⟨r, v, h1⟩ := d.raiseFrom_eq eng ctx pos code snaps
  exact ⟨⟨r, v, d.task, d.sent, h1⟩, fun a ha => Device.rd_raiseFrom _ _ _ _ _ _ (fun e => ha (e ▸ h))⟩

theorem Device.soft_raise (code : Nat) (snaps : List Word) (h : R Reg.EVR_LOSS) : d.Soft R (d.raise code snaps) :=
  d.soft_raiseFrom _ _ _ _ _ h

theorem Device.soft_send (m : Sent) : d.Soft R (d.send m) := by
  unfold Device.send
  split
  · exact .refl d
  · exact ⟨⟨d.regs, d.evr, d.task, _, rfl⟩, fun _ _ => rfl⟩

end

/-! ## Releases -/

/-- The registers that releases and router sources write. -/
def RelReg (a : Nat) : Prop :=
  (∃ e c, e < 32 ∧ c < 16 ∧ (a = Reg.TASK_STAT e c ∨ a = Reg.TASK_CNT e c)) ∨ a = Reg.EVR_LOSS ∨ a = Reg.TASK_GRID_STAT

theorem Device.soft_dropRelease {R : Nat → Prop} (d : Device) (e c src : Nat) (h1 : R (Reg.TASK_CNT e c))
    (h2 : R Reg.EVR_LOSS) : d.Soft R (d.dropRelease e c src) :=
  ((d.soft_inc h1).trans (Device.soft_task _ _)).trans (Device.soft_raise _ _ _ h2)

theorem Device.soft_release {R : Nat → Prop} (d : Device) (e c : Nat) (r : Rel) (h1 : R (Reg.TASK_STAT e c))
    (h2 : R (Reg.TASK_CNT e c)) (h3 : R Reg.EVR_LOSS) : d.Soft R (d.release e c r) := by
  simp only [Device.release]
  split
  · split
    · exact d.soft_task _
    · exact .refl d
  · split
    · exact .refl d
    · split
      · exact (d.soft_setF 1 h1).trans (Device.soft_setRel _ _ _ _)
      · split
        · exact (d.soft_inc h2).trans (Device.soft_raise _ _ _ h3)
        · split
          · exact (d.soft_setF 1 h1).trans (Device.soft_task _ _)
          · exact d.soft_dropRelease e c _ h2 h3

theorem Device.soft_eventRelease {R : Nat → Prop} (d : Device) (e c src rt : Nat) (h1 : R (Reg.TASK_STAT e c))
    (h2 : R (Reg.TASK_CNT e c)) (h3 : R Reg.EVR_LOSS) : d.Soft R (d.eventRelease e c src rt) := by
  simp only [Device.eventRelease]
  split
  · exact d.soft_release e c _ h1 h2 h3
  · split
    · exact d.soft_dropRelease e c _ h2 h3
    · exact d.soft_release e c _ h1 h2 h3

theorem relReg_stat {e c : Nat} (he : e < 32) (hc : c < 16) : RelReg (Reg.TASK_STAT e c) :=
  .inl ⟨e, c, he, hc, .inl rfl⟩
theorem relReg_cnt {e c : Nat} (he : e < 32) (hc : c < 16) : RelReg (Reg.TASK_CNT e c) :=
  .inl ⟨e, c, he, hc, .inr rfl⟩
theorem relReg_loss : RelReg Reg.EVR_LOSS := .inr (.inl rfl)
theorem relReg_grid : RelReg Reg.TASK_GRID_STAT := .inr (.inr rfl)

/-- A register of another block is none that releases write. -/
theorem not_relReg {a : Nat} (h : a < 0x4030000 ∨ 0x403A000 ≤ a) (h1 : a ≠ Reg.EVR_LOSS) : ¬RelReg a := by
  rintro (⟨e, c, he, hc, h2⟩ | h2 | h2)
  · simp only [Reg.TASK_STAT, Reg.TASK_CNT] at h2
    omega
  · exact h1 h2
  · simp only [Reg.TASK_GRID_STAT] at h2
    omega

theorem not_relReg_lo (e : Nat) (he : e < 24) : ¬RelReg (Reg.TASK_ENG_RETIRED_LO e) := by
  rintro (⟨e', c, he', hc, h2⟩ | h2 | h2)
  · simp only [Reg.TASK_STAT, Reg.TASK_CNT, Reg.TASK_ENG_RETIRED_LO] at h2
    omega
  · simp only [Reg.EVR_LOSS, Reg.TASK_ENG_RETIRED_LO] at h2
    omega
  · simp only [Reg.TASK_GRID_STAT, Reg.TASK_ENG_RETIRED_LO] at h2
    omega

theorem not_relReg_hi (e : Nat) (he : e < 24) : ¬RelReg (Reg.TASK_ENG_RETIRED_HI e) := by
  rintro (⟨e', c, he', hc, h2⟩ | h2 | h2)
  · simp only [Reg.TASK_STAT, Reg.TASK_CNT, Reg.TASK_ENG_RETIRED_HI] at h2
    omega
  · simp only [Reg.EVR_LOSS, Reg.TASK_ENG_RETIRED_HI] at h2
    omega
  · simp only [Reg.TASK_GRID_STAT, Reg.TASK_ENG_RETIRED_HI] at h2
    omega

/-- A router source fires: releases and their registers alone. -/
theorem Device.soft_fire {R : Nat → Prop} (d : Device) (src : Nat) (h : ∀ a, RelReg a → R a) : d.Soft R (d.fire src) := by
  have he : d.fld (Reg.TASK_ROUTE_ENG src) < 32 := d.fld_lt _
  have hc : d.fld (Reg.TASK_ROUTE_CTX src) < 16 := d.fld_lt _
  simp only [Device.fire]
  split
  · exact .refl d
  · split
    · split
      · exact .refl d
      · split
        · exact (d.soft_task _).trans (Device.soft_inc _ (h _ relReg_grid))
        · split
          · exact .refl d
          · exact d.soft_task _
    · exact d.soft_eventRelease _ _ _ _ (h _ (relReg_stat he hc)) (h _ (relReg_cnt he hc)) (h _ relReg_loss)

/-! ## Host causes -/

/-- The registers that a host cause writes. -/
def CauseReg (a : Nat) : Prop := a = Reg.HP_IRQ_STAT ∨ a = Reg.HP_PBA 0

theorem Device.soft_msix {R : Nat → Prop} (d : Device) (k : Nat) (h : ∀ a, CauseReg a → R a) : d.Soft R (d.msix k) := by
  simp only [Device.msix]
  split
  · exact d.soft_setBitAt _ _ (h _ (.inr rfl))
  · exact d.soft_send _

theorem Device.soft_cause {R : Nat → Prop} (d : Device) (k : Nat) (h : ∀ a, CauseReg a → R a) : d.Soft R (d.cause k) := by
  simp only [Device.cause]
  split
  · exact .refl d
  · split
    · exact (d.soft_setBitAt _ _ (h _ (.inl rfl))).trans (Device.soft_msix _ _ h)
    · exact d.soft_setBitAt _ _ (h _ (.inl rfl))

theorem not_causeReg {a : Nat} (h : a < 0x4120000 ∨ 0x4130000 ≤ a) : ¬CauseReg a := by
  rintro (h2 | h2)
  · simp only [Reg.HP_IRQ_STAT] at h2
    omega
  · simp only [Reg.HP_PBA] at h2
    omega

/-! ## Mailboxes -/

theorem Device.soft_ringCauses {R : Nat → Prop} (d : Device) (bits n : Nat) (h : ∀ a, CauseReg a → R a) :
    d.Soft R (d.ringCauses bits n) := by
  induction n with
  | zero => exact .refl d
  | succ n ih =>
    simp only [Device.ringCauses]
    split
    · exact ih.trans (Device.soft_cause _ _ h)
    · exact ih

theorem Device.soft_doorbell {R : Nat → Prop} (d : Device) (n : Nat) (bits : Word) (h : R (Reg.MB_EP_W4 n))
    (h1 : ∀ a, RelReg a → R a) (h2 : ∀ a, CauseReg a → R a) : d.Soft R (d.doorbell n bits) := by
  have hw := d.soft_wr (d.rd (Reg.MB_EP_W4 n) ||| bits) h
  simp only [Device.doorbell]
  split
  · exact .refl d
  · split
    · exact hw
    · split
      · exact hw.trans (Device.soft_fire _ _ h1)
      · refine hw.trans ?_
        split
        · exact (Device.soft_cause _ _ h2).trans (Device.soft_ringCauses _ _ _ h2)
        · exact Device.soft_ringCauses _ _ _ h2

theorem Device.soft_mbClearIn {R : Nat → Prop} (d : Device) (r : Nat) (h0 : R (Reg.MB_EP_W0 r)) (h1 : R (Reg.MB_EP_W1 r))
    (h2 : R (Reg.MB_EP_W2 r)) : d.Soft R (d.mbClearIn r) :=
  ((d.soft_wr _ h0).trans (Device.soft_wr _ _ h1)).trans (Device.soft_wr _ _ h2)

theorem Device.soft_mbOut {R : Nat → Prop} (d : Device) (s st code : Nat) (h : R (Reg.MB_EP_W3 s))
    (h2 : ∀ a, CauseReg a → R a) : d.Soft R (d.mbOut s st code) := by
  have hw := (d.soft_setF (f := Reg.MB_EP_W3_OUT_STATE s) st h).trans
    (Device.soft_setF _ (f := Reg.MB_EP_W3_CODE s) code h)
  simp only [Device.mbOut]
  split
  · exact hw.trans (Device.soft_cause _ _ h2)
  · exact hw

/-- Registers of mailboxes, and what an abort of a notice writes beside them. -/
def BoxReg (a : Nat) : Prop :=
  (∃ k, a = Reg.MB_EP_W0 k ∨ a = Reg.MB_EP_W1 k ∨ a = Reg.MB_EP_W2 k ∨ a = Reg.MB_EP_W3 k ∨ a = Reg.MB_EP_W4 k) ∨
    a = Reg.MB_CNT ∨ a = Reg.EVR_LOSS ∨ CauseReg a

theorem Device.soft_mbAbort {R : Nat → Prop} (d : Device) (s ev : Nat) (h : ∀ a, BoxReg a → R a) :
    d.Soft R (d.mbAbort s ev) := by
  simp only [Device.mbAbort]
  split
  · refine ((((d.soft_mbClearIn _ ?_ ?_ ?_)).trans (Device.soft_mbOut _ _ _ _ ?_ ?_)).trans
      (Device.soft_inc _ ?_)).trans (Device.soft_raise _ _ _ ?_)
    · exact h _ (.inl ⟨_, .inl rfl⟩)
    · exact h _ (.inl ⟨_, .inr (.inl rfl)⟩)
    · exact h _ (.inl ⟨_, .inr (.inr (.inl rfl))⟩)
    · exact h _ (.inl ⟨_, .inr (.inr (.inr (.inl rfl)))⟩)
    · exact fun a ha => h a (.inr (.inr (.inr ha)))
    · exact h _ (.inr (.inl rfl))
    · exact h _ (.inr (.inr (.inl rfl)))
  · exact .refl d

theorem Device.soft_epReset {R : Nat → Prop} (d : Device) (n : Nat) (h : ∀ a, BoxReg a → R a) :
    d.Soft R (d.epReset n) := by
  have h0 : ∀ k, R (Reg.MB_EP_W0 k) := fun k => h _ (.inl ⟨k, .inl rfl⟩)
  have h1 : ∀ k, R (Reg.MB_EP_W1 k) := fun k => h _ (.inl ⟨k, .inr (.inl rfl)⟩)
  have h2 : ∀ k, R (Reg.MB_EP_W2 k) := fun k => h _ (.inl ⟨k, .inr (.inr (.inl rfl))⟩)
  have h3 : ∀ k, R (Reg.MB_EP_W3 k) := fun k => h _ (.inl ⟨k, .inr (.inr (.inr (.inl rfl)))⟩)
  have h4 : ∀ k, R (Reg.MB_EP_W4 k) := fun k => h _ (.inl ⟨k, .inr (.inr (.inr (.inr rfl)))⟩)
  have h5 : R Reg.EVR_LOSS := h _ (.inr (.inr (.inl rfl)))
  have hw := ((Device.Soft.ite (p := d.bit (Reg.MB_EP_W2_VALID n) = true)
    (d.soft_mbAbort (d.fld (Reg.MB_EP_W2_SENDER n)) 0x3D1 h) (.refl d)).trans
    (Device.soft_wr _ (a := Reg.MB_EP_W4 n) 0 (h4 n)))
  simp only [Device.epReset]
  refine hw.trans (Device.Soft.trans (Device.Soft.ite ?_ (.refl _)) (Device.soft_wr _ _ (h3 n)))
  exact (Device.soft_mbClearIn _ _ (h0 _) (h1 _) (h2 _)).trans (Device.soft_raise _ _ _ h5)

/-! ## The end of an instance, and of an engine's instances -/

theorem Device.soft_semRelease {R : Nat → Prop} (d : Device) (e c n : Nat) (hn : n ≤ 64) (h : ∀ k, k < 64 → R (Reg.HSEM k))
    (h1 : R Reg.EVR_LOSS) : d.Soft R (d.semRelease e c n) := by
  induction n with
  | zero => exact .refl d
  | succ n ih =>
    simp only [Device.semRelease]
    split
    · exact ((ih (by omega)).trans (Device.soft_setF _ _ (h n (by omega)))).trans (Device.soft_raise _ _ _ h1)
    · exact ih (by omega)

/-- The registers that the end of instances of engine e writes. -/
def EndReg (e a : Nat) : Prop :=
  (∃ k, k < 64 ∧ a = Reg.HSEM k) ∨ a = Reg.EVR_LOSS ∨ (∃ c, c < 16 ∧ (a = Reg.TASK_STAT e c ∨ a = Reg.TASK_MAXRUN e c))

theorem Device.soft_endInst {R : Nat → Prop} (d : Device) (e c : Nat) (hc : c < 16) (h : ∀ a, EndReg e a → R a) :
    d.Soft R (d.endInst e c) := by
  have hs : R (Reg.TASK_STAT e c) := h _ (.inr (.inr ⟨c, hc, .inl rfl⟩))
  have h0 := d.soft_semRelease e c 64 (Nat.le_refl _) (fun k hk => h _ (.inl ⟨k, hk, rfl⟩)) (h _ (.inr (.inl rfl)))
  have hp : d.Soft R (d.endPrep e c) := by
    unfold Device.endPrep
    split
    · refine h0.trans ?_
      unfold Device.maxRun
      split
      · exact Device.soft_setF _ _ (h _ (.inr (.inr ⟨c, hc, .inr rfl⟩)))
      · exact .refl _
    · exact h0
  rw [Device.endInst_def]
  refine hp.trans ?_
  split
  · exact (((Device.soft_setF _ _ hs).trans (Device.soft_setF _ _ hs)).trans (Device.soft_setRel _ _ _ _)).trans
      (Device.soft_task _ _)
  · exact (Device.soft_setF _ _ hs).trans (Device.soft_setRel _ _ _ _)

theorem Device.soft_leaveUnended {R : Nat → Prop} (d : Device) (e c : Nat) (r : Option Rel) :
    d.Soft R (d.leaveUnended e c r) := by
  unfold Device.leaveUnended
  split
  · exact d.soft_task _
  · exact .refl d

theorem Device.soft_endContexts {R : Nat → Prop} (d : Device) (e n : Nat) (hn : n ≤ 16) (h : ∀ a, EndReg e a → R a) :
    d.Soft R (d.endContexts e n) := by
  induction n with
  | zero => exact .refl d
  | succ n ih =>
    have hs : R (Reg.TASK_STAT e n) := h _ (.inr (.inr ⟨n, by omega, .inl rfl⟩))
    simp only [Device.endContexts]
    exact (((((((ih (by omega)).trans (Device.soft_leaveUnended _ _ _ _)).trans (Device.soft_leaveUnended _ _ _ _)).trans
      (Device.soft_semRelease _ e n 64 (Nat.le_refl _) (fun k hk => h _ (.inl ⟨k, hk, rfl⟩)) (h _ (.inr (.inl rfl))))).trans
      (Device.soft_setF _ _ hs)).trans (Device.soft_setF _ _ hs)).trans (Device.soft_setRel _ _ _ _)).trans
      (Device.soft_task _ _)

theorem Device.soft_finishCmd {R : Nat → Prop} (d : Device) (p : Port) (code : Nat) (h : R p.stat) :
    d.Soft R (d.finishCmd p code) := by
  unfold Device.finishCmd
  split
  · exact ((d.soft_setF _ h).trans (Device.soft_setF _ _ h)).trans (Device.soft_incMod _ h)
  · exact .refl d

/-- The registers that the stop of engine e writes beside its status. -/
def StopReg (e a : Nat) : Prop := EndReg e a ∨ BoxReg a ∨ a = Reg.CE_CMD_STATUS e

/-- An engine that stops has its new state. -/
theorem Device.stopEngine_soft (d : Device) (e st : Nat) :
    ∃ t, d.Soft (StopReg e) t ∧ (t.setF (Reg.CE_STATUS_STATE e) st).Soft (StopReg e) (d.stopEngine e st) :=
  ⟨d.endContexts e 16, d.soft_endContexts e 16 (Nat.le_refl _) (fun _ h => .inl h),
    (Device.soft_epReset _ _ (fun _ h => .inr (.inl h))).trans (Device.soft_finishCmd _ _ _ (.inr (.inr rfl)))⟩

/-! ## Events -/

/-- An event that nothing drops is recorded with its words. -/
theorem Device.raiseFrom_logs (d d' : Device) (eng ctx pos code : Nat) (words : List Word)
    (hr : d'.rd (Reg.EVR_CODE code) = d.rd (Reg.EVR_CODE code)) (hs : d'.sys = d.sys) (he : d'.evr = d.evr) :
    d.Logs (d'.raiseFrom eng ctx pos code words) code words := by
  intro h1 h2 h3 h4
  have e1 : d'.fld (Reg.EVR_CODE_EN code) = d.fld (Reg.EVR_CODE_EN code) := Device.fld_congr hr
  have e2 : d'.fld (Reg.EVR_CODE_RATE_N code) = d.fld (Reg.EVR_CODE_RATE_N code) := Device.fld_congr hr
  have e3 : d'.fld (Reg.EVR_CODE_SNAP code) = d.fld (Reg.EVR_CODE_SNAP code) := Device.fld_congr hr
  have g1 : d'.evrLive = true := by simpa only [Device.evrLive, hs] using h1
  have g2 : d'.bit (Reg.EVR_CODE_EN code) = true := by simpa only [Device.bit, e1] using h2
  have g4 : d'.evr.inq.length < 64 := by rw [he]; exact h4
  refine ⟨d'.evRecord eng ctx pos code words, ?_, rfl, ?_⟩
  · simp only [Device.raiseFrom, g1, g2, e2, h3, Bool.not_true, Bool.or_self, Bool.false_eq_true, if_false, if_true,
      Device.enqueue, g4]
    rw [he]
  · simp only [Device.evRecord, e3]

theorem Device.raise_logs (d d' : Device) (code : Nat) (words : List Word)
    (hr : d'.rd (Reg.EVR_CODE code) = d.rd (Reg.EVR_CODE code)) (hs : d'.sys = d.sys) (he : d'.evr = d.evr) :
    d.Logs (d'.raise code words) code words := d.raiseFrom_logs d' _ _ _ _ _ hr hs he

theorem Device.Logs.congr {d t t' : Device} {code : Nat} {w : List Word} (h : d.Logs t code w) (he : t'.evr = t.evr) :
    d.Logs t' code w := by
  intro h1 h2 h3 h4
  rw [he]
  exact h h1 h2 h3 h4

theorem evrcode_ne_status (e k : Nat) (he : e < 24) : Reg.EVR_CODE k ≠ Reg.CE_STATUS e := by
  simp only [Reg.EVR_CODE, Reg.CE_STATUS]; omega

/-! ## Instructions with such an effect -/

/-- An instruction that completes with a device that differs softly from the one it found. -/
theorem Device.Executes.completes_soft {s : State} {e : Eng} {c : Nat} (h : s.dev.Executes e c) {i : Instr} {x : Ctx}
    {f : Device → Nat → Ctx → Res} {d2 : Device} {R : Nat → Prop}
    (hx : exec i s = run (Sys2Proof.Machine.azStep e f) s)
    (hf : f (s.dev.dispatched e c) c (s.dev.ctx e c) = .ok d2 x) (hs : (s.dev.dispatched e c).Soft R d2)
    (h1 : ¬R (Reg.CE_STATUS e)) (h2 : ¬R (Reg.TASK_ENG_RETIRED_LO e)) (h3 : ¬R (Reg.TASK_ENG_RETIRED_HI e)) :
    Completes i s (fun t =>
      t = d2.completed e c 1 { x with pc := (s.dev.ctx e c).pc + 1 } ∧
      s.dev.Ran t e c 1 { x with pc := (s.dev.ctx e c).pc + 1 } ∧ s.dev.KeepsMem t ∧ s.dev.KeepsCells t ∧
      (∀ a, ¬R a → a ∉ stepRegs e → t.rd a = s.dev.rd a)) := by
  have he := e.isLt
  obtain ⟨r, v, k, m, hd⟩ := hs.form
  refine ⟨_, hx, rfl, ?_⟩
  simp only [h.azStep f, hf, settle_ok _ _ _ h.inside, true_and]
  refine ⟨Device.ran_completed h 1 _ (hs.regs _ h1) ?_ ?_ ?_, ?_, ?_, ?_⟩
  · rw [hs.regs _ h2]; exact Device.rd_setF_other _ _ (status_ne_lo e he).symm
  · rw [hs.regs _ h3]; exact Device.rd_setF_other _ _ (status_ne_hi e he).symm
  · rw [hd]; simp
  · exact ⟨by simp [hd], by simp [hd], by simp [hd]⟩
  · refine ⟨fun n => Device.tcell_congr ?_ n, fun n => Device.ccell_congr ?_ n⟩
    · simp only [Device.sluice_ce]; simp [Device.setCtx, hd]
    · simp only [Device.sluice_ce]; simp [Device.setCtx, hd]
  · intro a hr ha
    simp only [stepRegs, List.mem_cons, List.not_mem_nil, or_false, not_or] at ha
    rw [Device.rd_completed _ _ _ _ _ ha.2.2.2 ha.2.1 ha.2.2.1, hs.regs _ hr, Device.rd_setF_other _ _ ha.1]

/-- What an instruction leaves beside the releases and what was sent. -/
theorem Device.Soft.units {R : Nat → Prop} {d d2 : Device} {e c : Nat} {x : Ctx} (hs : (d.dispatched e c).Soft R d2)
    (ht : d2.task = d.task) (hm : d2.sent = d.sent) : d.KeepsUnits (d2.completed e c 1 x) := by
  obtain ⟨r, v, k, m, hd⟩ := hs.form
  constructor <;> first | (simp [ht, hm]; done) | simp [hd]

end Sys2Proof.Machine
end

