-- ==== Sys2Proof/Laws/Sluice.lean ====
section
/-! SUPPORT. The gate-off network after a command (R385, R387, R388), and the form that every command's effect has. -/

namespace Sys2Proof.Machine

/-! ## Masks -/

theorem testBit_sub_two_pow {n i : Nat} (h : n.testBit i = true) (c : Nat) :
    (n - 2 ^ i).testBit c = if c = i then false else n.testBit c := by
  have hb : n % 2 ^ i < 2 ^ i := Nat.mod_lt _ (Nat.two_pow_pos _)
  have ha : n / 2 ^ i % 2 = 1 := by
    rw [Nat.testBit_eq_decide_div_mod_eq] at h
    simpa using h
  obtain ⟨q, hq⟩ : ∃ q, n / 2 ^ i = 2 * q + 1 := ⟨n / 2 ^ i / 2, by omega⟩
  have hn : n = 2 ^ i * (2 * q + 1) + n % 2 ^ i := by
    rw [← hq]; exact (Nat.div_add_mod n (2 ^ i)).symm
  have hm : n - 2 ^ i = 2 ^ i * (2 * q) + n % 2 ^ i := by
    have : 2 ^ i * (2 * q + 1) = 2 ^ i * (2 * q) + 2 ^ i := by ring
    omega
  generalize n % 2 ^ i = r at hn hm hb
  subst hn
  rw [hm, Nat.testBit_two_pow_mul_add _ hb, Nat.testBit_two_pow_mul_add _ hb]
  by_cases h1 : c < i
  · simp [h1, Nat.ne_of_lt h1]
  · by_cases h2 : c = i
    · simp [h2]
    · obtain ⟨k, hk⟩ : ∃ k, c - i = k + 1 := ⟨c - i - 1, by omega⟩
      simp only [h1, h2, if_false, hk, Nat.testBit_succ]
      congr 1
      omega

/-- A number with one bit put holds that bit and every other one as before. -/
theorem testBit_putBit (n i c : Nat) (b : Bool) : (putBit n i b).testBit c = if c = i then b else n.testBit c := by
  cases b with
  | true =>
    simp only [putBit, if_true, Nat.testBit_or, Nat.testBit_two_pow]
    by_cases h : c = i
    · simp [h]
    · simp [h, Ne.symm h]
  | false =>
    simp only [putBit, Bool.false_eq_true, if_false]
    split
    · next hn => exact testBit_sub_two_pow hn c
    · next hn =>
      by_cases h : c = i
      · simp [h, hn]
      · simp [h]

theorem testBit_putOff (m n : Nat) (l : List Nat) (c : Nat) :
    (l.foldl (fun n c => if m.testBit c then putBit n c false else n) n).testBit c
      = (n.testBit c && !(m.testBit c && decide (c ∈ l))) := by
  induction l generalizing n with
  | nil => simp
  | cons a t ih =>
    rw [List.foldl_cons, ih]
    by_cases h : m.testBit a = true
    · simp only [h, if_true, testBit_putBit]
      by_cases hc : c = a
      · subst hc; simp [h]
      · simp [hc]
    · simp only [h, Bool.false_eq_true, if_false]
      by_cases hc : c = a
      · subst hc; simp [h]
      · simp [hc]

theorem testBit_toNat_ofNat32 (h c : Nat) (hc : c < 32) : (wd h).toNat.testBit c = h.testBit c := by
  rw [wd, BitVec.toNat_ofNat, Nat.testBit_mod_two_pow]
  simp [hc]

/-! ## Channels that turn off -/

/-- Every channel of a mask has its driver off after `turnOff`. -/
theorem Device.turnOff_driverOff (d : Device) {m c : Nat} (hc : c < 24) (hm : m.testBit c = true) :
    (d.turnOff m).driverOff c := by
  refine ⟨?_, ?_⟩
  · simp only [Device.turnOff, testBit_putOff, hm, Bool.true_and, List.mem_range, hc, decide_true, Bool.not_true,
      Bool.and_false]
  · intro e he hce
    simp only [Device.turnOff, List.mem_filter, List.mem_map] at he
    obtain ⟨⟨x, hx, rfl⟩, -⟩ := he
    simp only [List.mem_filter] at hce
    simp [hm] at hce

/-- `turnOff` turns nothing on. -/
theorem Device.turnOff_keeps (d : Device) (m : Nat) {c : Nat} (h : d.driverOff c) : (d.turnOff m).driverOff c := by
  refine ⟨?_, ?_⟩
  · simp only [Device.turnOff, testBit_putOff, h.1, Bool.false_and]
  · intro e he hce
    simp only [Device.turnOff, List.mem_filter, List.mem_map] at he
    obtain ⟨⟨x, hx, rfl⟩, -⟩ := he
    simp only [List.mem_filter] at hce
    exact h.2 x hx hce.1

/-! ## Gate-off -/

theorem Device.slGate_testBit (d : Device) (n c : Nat) :
    (d.slGate n).testBit c = true ↔
      ∃ i, i < n ∧ (d.rd Reg.SF_SLUICE_STAT).toNat.testBit i = true ∧ (d.slChannels i).testBit c = true := by
  induction n with
  | zero => simp [Device.slGate]
  | succ n ih =>
    rw [Device.slGate, Nat.testBit_or, Bool.or_eq_true, ih]
    constructor
    · rintro (h | ⟨i, hi, h⟩)
      · split at h
        · next hn => exact ⟨n, Nat.lt_succ_self n, hn, h⟩
        · simp at h
      · exact ⟨i, Nat.lt_succ_of_lt hi, h⟩
    · rintro ⟨i, hi, h1, h2⟩
      rcases Nat.lt_succ_iff_lt_or_eq.mp hi with hi | rfl
      · exact .inr ⟨i, hi, h1, h2⟩
      · exact .inl (by simpa [h1] using h2)

/-- The channels of a source are read from registers that Sluice does not write. -/
theorem Device.slChannels_congr {d d' : Device} (h : ∀ a, a ≠ Reg.SF_GATE → d'.rd a = d.rd a) (i : Nat) :
    d'.slChannels i = d.slChannels i := by
  unfold Device.slChannels
  split
  · rfl
  · split
    · exact Device.fld_congr (h _ (by simp only [Reg.SF_TRIP_CFG_MASK, Reg.SF_TRIP_CFG, Reg.SF_GATE]; omega))
    · exact Device.fld_congr (h _ (by simp only [Reg.SF_LOCKC_OUT, Reg.SF_LOCKC, Reg.SF_GATE]; omega))

theorem Device.gatedBy_congr {d d' : Device} (h : ∀ a, a ≠ Reg.SF_GATE → d'.rd a = d.rd a) {c : Nat}
    (hg : d'.gatedBy c) : d.gatedBy c := by
  obtain ⟨i, hi, h1, h2⟩ := hg
  refine ⟨i, hi, ?_, ?_⟩
  · rwa [h _ (by decide)] at h1
  · rwa [Device.slChannels_congr h] at h2

theorem Device.fieldHeld_congr {d d' : Device} (h : ∀ a, a ≠ Reg.SF_GATE → d'.rd a = d.rd a)
    (hs : d'.sf.keepaliveLost = d.sf.keepaliveLost) : d'.fieldHeld = d.fieldHeld := by
  have h1 : d'.fld Reg.FLD_VFD_VFD_LOW = d.fld Reg.FLD_VFD_VFD_LOW := Device.fld_congr (h _ (by decide))
  have h2 : d'.fld Reg.PWR_SUP_STAT_FD_HOT = d.fld Reg.PWR_SUP_STAT_FD_HOT := Device.fld_congr (h _ (by decide))
  simp only [Device.fieldHeld, Device.bit, h1, h2, hs]

theorem Device.regate_gate (d : Device) : d.regate.rd Reg.SF_GATE = wd (d.sf.held ||| d.gateNow) := by
  simp only [Device.regate, Device.rd_turnOff, Device.rd_wr_same]

@[simp] theorem Device.regate_keepaliveLost (d : Device) : d.regate.sf.keepaliveLost = d.sf.keepaliveLost := by
  simp only [Device.regate, Device.turnOff_sf, Device.wr_sf]

/-- The channels that SF_GATE shows have their drivers off. -/
theorem Device.regate_off (d : Device) {c : Nat} (hc : c < 24)
    (h : (d.regate.rd Reg.SF_GATE).toNat.testBit c = true) : d.regate.driverOff c := by
  rw [Device.regate_gate, testBit_toNat_ofNat32 _ _ (by omega)] at h
  exact Device.turnOff_driverOff _ hc h

/-- A channel of an asserted source shows in SF_GATE. -/
theorem Device.regate_shown (d : Device) {c : Nat} (hc : c < 24) (h : d.gatedBy c) :
    (d.regate.rd Reg.SF_GATE).toNat.testBit c = true := by
  rw [Device.regate_gate, testBit_toNat_ofNat32 _ _ (by omega), Nat.testBit_or, Bool.or_eq_true]
  exact .inr ((Device.slGate_testBit d 24 c).mpr h)

/-- The gate-off network leaves no output driven against it, whatever it finds. -/
theorem Device.sluice_gated (d : Device) : d.sluice.Gated := by
  have hr : ∀ a, a ≠ Reg.SF_GATE → d.sluice.rd a = d.rd a := fun a h => Device.rd_sluice d h
  have hg : d.sluice.rd Reg.SF_GATE = d.regate.rd Reg.SF_GATE := by
    unfold Device.sluice; split <;> rfl
  refine ⟨fun c hc h => ?_, fun c hc h => ?_, fun h c hc => ?_⟩
  · rw [hg]
    exact Device.regate_shown d hc (Device.gatedBy_congr hr h)
  · rw [hg] at h
    have := Device.regate_off d hc h
    unfold Device.sluice
    split
    · exact Device.turnOff_keeps _ _ this
    · exact this
  · have hk : d.sluice.sf.keepaliveLost = d.sf.keepaliveLost := by
      unfold Device.sluice
      split
      · rw [Device.turnOff_sf, Device.regate_keepaliveLost]
      · exact Device.regate_keepaliveLost d
    rw [Device.fieldHeld_congr hr hk] at h
    rw [Device.sluice, if_pos h]
    refine Device.turnOff_driverOff _ hc ?_
    have : ∀ c < 24, (0xFFFFFF : Nat).testBit c = true := by decide
    exact this c hc

/-! ## The effect of a command -/

/-- Every command answers a next state in which the gate-off network has acted and the rest of the queue waits. -/
theorem exec_next (i : Instr) (s : State) : ∃ d : Device, exec i s = .next ⟨d.sluice, s.pending⟩ := by
  cases i <;> exact ⟨_, rfl⟩

end Sys2Proof.Machine
end

