-- ==== Sys2Proof/Laws/Commands.lean ====
section
/-! SUPPORT. Commands of command registers (R27–R31): how one begins and ends, and effects on registers and the event
recorder alone. -/

namespace Sys2Proof.Machine

/-- The device t differs from d in registers that R names and in the event recorder. -/
structure Device.Plain (R : Nat → Prop) (d t : Device) : Prop where
  form : ∃ r v, t = { d with regs := r, evr := v }
  regs : ∀ a, ¬R a → t.rd a = d.rd a

theorem Device.Plain.refl {R : Nat → Prop} (d : Device) : d.Plain R d := ⟨⟨d.regs, d.evr, rfl⟩, fun _ _ => rfl⟩

theorem Device.Plain.trans {R : Nat → Prop} {d t u : Device} (h : d.Plain R t) (g : t.Plain R u) : d.Plain R u := by
  obtain ⟨r, v, h1⟩ := h.form
  obtain ⟨r', v', g1⟩ := g.form
  exact ⟨⟨r', v', by rw [g1, h1]⟩, fun a ha => (g.regs a ha).trans (h.regs a ha)⟩

theorem Device.Plain.mono {R S : Nat → Prop} {d t : Device} (h : d.Plain R t) (hs : ∀ a, R a → S a) : d.Plain S t :=
  ⟨h.form, fun a ha => h.regs a (fun hr => ha (hs a hr))⟩

theorem Device.Plain.ite {R : Nat → Prop} {d t u : Device} {p : Prop} [Decidable p] (h : d.Plain R t)
    (g : d.Plain R u) : d.Plain R (if p then t else u) := by split <;> assumption

section
variable {R : Nat → Prop} (d : Device)

theorem Device.plain_wr {a : Nat} (v : Word) (h : R a) : d.Plain R (d.wr a v) :=
  ⟨⟨_, d.evr, rfl⟩, fun _ hb => Device.rd_wr_other _ _ (fun e => hb (e ▸ h))⟩

theorem Device.plain_setF {f : Fld} (v : Nat) (h : R f.addr) : d.Plain R (d.setF f v) := d.plain_wr _ h
theorem Device.plain_satAdd {f : Fld} (n : Nat) (h : R f.addr) : d.Plain R (d.satAdd f n) := d.plain_setF _ h
theorem Device.plain_inc {f : Fld} (h : R f.addr) : d.Plain R (d.inc f) := d.plain_setF _ h
theorem Device.plain_incMod {f : Fld} (h : R f.addr) : d.Plain R (d.incMod f) := d.plain_setF _ h
theorem Device.plain_setBitAt {f : Fld} (i : Nat) (b : Bool) (h : R f.addr) : d.Plain R (d.setBitAt f i b) :=
  d.plain_setF _ h

theorem Device.plain_raiseFrom (eng ctx pos code : Nat) (snaps : List Word) (h : R Reg.EVR_LOSS) :
    d.Plain R (d.raiseFrom eng ctx pos code snaps) :=
  ⟨d.raiseFrom_eq eng ctx pos code snaps, fun _ ha => Device.rd_raiseFrom _ _ _ _ _ _ (fun e => ha (e ▸ h))⟩

theorem Device.plain_raise (code : Nat) (snaps : List Word) (h : R Reg.EVR_LOSS) : d.Plain R (d.raise code snaps) :=
  d.plain_raiseFrom _ _ _ _ _ h

theorem Device.plain_endCmd (p : Port) (code : Nat) (h : R p.stat) : d.Plain R (d.endCmd p code) :=
  ((d.plain_setF _ h).trans (Device.plain_setF _ _ h)).trans (Device.plain_incMod _ h)

theorem Device.plain_beginCmd (p : Port) (h : R p.stat) : d.Plain R (d.beginCmd p) :=
  (d.plain_setF _ h).trans (Device.plain_setF _ _ h)

theorem Device.plain_forN {f : Nat → Device → Device} (n : Nat) (h : ∀ i, i < n → ∀ x : Device, x.Plain R (f i x)) :
    d.Plain R (forN n f d) := by
  induction n with
  | zero => exact .refl d
  | succ n ih =>
    exact (ih (fun i hi => h i (by omega))).trans (h n (by omega) _)

end

/-- What a change of registers and the recorder leaves once Sluice has settled. -/
theorem Device.Plain.writes {d t : Device} {l : List Nat} (h : d.Plain (· ∈ l) t) : d.Writes t.sluice l := by
  obtain ⟨r, v, hf⟩ := h.form
  refine ⟨?_, ?_, ?_, ?_⟩
  · intro a ha
    simp only [List.mem_cons, not_or] at ha
    rw [Device.rd_sluice _ ha.1, h.regs _ ha.2]
  · rw [hf]; exact ⟨by simp, by simp, by simp⟩
  · rw [hf]; simp
  · rw [hf]; constructor <;> simp

/-- A command that passes its checks takes its effect. -/
theorem Device.command_ok (d : Device) (p : Port) (op arg : Nat) (w : Word) (k : Checks) (body : Device → Device)
    (hb : d.fld p.busy = 0) (h1 : k.arg = true) (h2 : k.grant = true) (h3 : k.legal = true) :
    d.command p op arg w k body = body d := by
  have : d.bit p.busy = false := by simp [Device.bit, hb]
  simp [Device.command, this, h1, h2, h3]

/-- A command that is complete at once: it has ended with code 0, and its effect stands. -/
theorem done_now {i : Instr} {s : State} {p : Port} {op arg : Nat} {w : Word} {k : Checks} {body : Device → Device}
    {P : Device → Prop} (hx : exec i s = run (fun d => d.commandNow p op arg w k body) s) (h1 : k.arg = true)
    (h2 : k.grant = true) (h3 : k.legal = true) (hp : p.stat ≠ Reg.SF_GATE)
    (hs : (body s.dev).fld p.seq = s.dev.fld p.seq) (hP : P ((body s.dev).endCmd p 0).sluice) : Done i s p P := by
  intro hb
  refine ⟨_, hx, rfl, ⟨?_, ?_, ?_⟩, ?_⟩
  · simp only [Device.commandNow, Device.command_ok _ _ _ _ _ _ _ hb h1 h2 h3]
    rw [Device.fld_sluice _ (f := p.busy) hp, Device.endCmd_busy]
  · simp only [Device.commandNow, Device.command_ok _ _ _ _ _ _ _ hb h1 h2 h3]
    rw [Device.fld_sluice _ (f := p.code) hp, Device.endCmd_code]
  · simp only [Device.commandNow, Device.command_ok _ _ _ _ _ _ _ hb h1 h2 h3]
    rw [Device.fld_sluice _ (f := p.seq) hp, Device.endCmd_seq, hs]
  · simp only [Device.commandNow, Device.command_ok _ _ _ _ _ _ _ hb h1 h2 h3]
    exact hP

end Sys2Proof.Machine
end

