-- ==== Sys2Proof/Laws/Memory.lean ====
section
/-! SUPPORT. Memory (R203, R206): read after write, every memory operation keeps the canonical form, and what codeword
errors and their reactions leave alone. -/

namespace Sys2Proof.Machine

/-! ## One byte -/

@[simp] theorem Device.byte_setByte_same (d : Device) (a : Nat) (v : Byte) : (d.setByte a v).byte a = v := by
  simp only [Device.byte, Device.setByte, sget_sput_same]

theorem Device.byte_setByte_other (d : Device) {a b : Nat} (v : Byte) (h : b ≠ a) :
    (d.setByte a v).byte b = d.byte b := by
  simp only [Device.byte, Device.setByte, sget_sput_other byte0 d.mem v h]

theorem Device.byte_congr {d d' : Device} (h : d'.mem = d.mem) (a : Nat) : d'.byte a = d.byte a := by
  simp only [Device.byte, h]

theorem Device.setByte_wf (d : Device) (a : Nat) (v : Byte) (h : Memory.wf d.mem = true) :
    Memory.wf (d.setByte a v).mem = true := swf_sput byte0 d.mem a v h

/-! ## Runs of bytes -/

theorem Device.byte_setBytes_below (d : Device) (l : List Byte) {a b : Nat} (h : b < a) :
    (d.setBytes a l).byte b = d.byte b := by
  induction l generalizing d a with
  | nil => rfl
  | cons x t ih => rw [Device.setBytes, ih _ (by omega), Device.byte_setByte_other _ _ (by omega)]

/-- A run of bytes leaves every byte outside it alone. -/
theorem Device.byte_setBytes_other (d : Device) (l : List Byte) {a b : Nat} (h : b < a ∨ a + l.length ≤ b) :
    (d.setBytes a l).byte b = d.byte b := by
  induction l generalizing d a with
  | nil => rfl
  | cons x t ih =>
    simp only [List.length_cons] at h
    rw [Device.setBytes, ih _ (by omega), Device.byte_setByte_other _ _ (by omega)]

/-- A run of bytes that was written reads back. -/
theorem Device.byte_setBytes_same (d : Device) (l : List Byte) (a i : Nat) (h : i < l.length) :
    (d.setBytes a l).byte (a + i) = l[i] := by
  induction l generalizing d a i with
  | nil => simp at h
  | cons x t ih =>
    rw [Device.setBytes]
    cases i with
    | zero => 
      simp only [Nat.add_zero]
      rw [Device.byte_setBytes_below _ _ (by omega : a < a + 1), Device.byte_setByte_same]; rfl
    | succ i =>
      have e : a + (i + 1) = a + 1 + i := by omega
      rw [e, ih _ _ _ (by simpa using h)]; rfl

theorem Device.setBytes_wf (d : Device) (l : List Byte) (a : Nat) (h : Memory.wf d.mem = true) :
    Memory.wf (d.setBytes a l).mem = true := by
  induction l generalizing d a with
  | nil => exact h
  | cons x t ih => exact ih _ _ (d.setByte_wf a x h)

theorem Device.setNum_wf (d : Device) (a n v : Nat) (h : Memory.wf d.mem = true) :
    Memory.wf (d.setNum a n v).mem = true := d.setBytes_wf _ _ h

theorem length_leBytes (n v : Nat) : (leBytes n v).length = n := by
  induction n generalizing v with
  | zero => rfl
  | succ n ih => simp [leBytes, ih]

theorem leNat_leBytes (n v : Nat) : leNat (leBytes n v) = v % 256 ^ n := by
  induction n generalizing v with
  | zero => simp [leBytes, leNat, Nat.mod_one]
  | succ n ih =>
    have e : (256 : Nat) ^ (n + 1) = 256 * 256 ^ n := pow_succ' 256 n
    rw [leBytes, leNat, ih, BitVec.toNat_ofNat, e, Nat.mod_mul]

/-- A number that was written reads back. -/
theorem Device.num_setNum (d : Device) (a n v : Nat) : (d.setNum a n v).num a n = v % 256 ^ n := by
  have : (d.setBytes a (leBytes n v)).bytes a n = leBytes n v := by
    apply List.ext_getElem
    · simp [Device.bytes, length_leBytes]
    · intro i h1 h2
      simp only [Device.bytes, List.getElem_map, List.getElem_range]
      exact Device.byte_setBytes_same _ _ _ _ h2
  rw [Device.num, Device.setNum, this, leNat_leBytes]

/-! ## Ranges -/

theorem dropRange_wf (m : SMap Byte) (a n : Nat) (h : swf byte0 m = true) : swf byte0 (dropRange m a n) = true :=
  swf_skeep byte0 _ m h

theorem takeRange_wf (m : SMap Byte) (a n : Nat) (h : swf byte0 m = true) : swf byte0 (takeRange m a n) = true :=
  swf_skeep byte0 _ m h

theorem mergeMaps_wf {b : Nat} (m n : SMap Byte) (hm : swfFrom byte0 b m = true) (hn : swf byte0 n = true) :
    swf byte0 (mergeMaps m n) = true := by
  induction m generalizing b with
  | nil => exact hn
  | cons p t ih =>
    obtain ⟨k, v⟩ := p
    simp only [swfFrom, Bool.and_eq_true, decide_eq_true_eq] at hm
    exact swfFrom_sinsert byte0 hm.1.2 (Nat.zero_le k) (ih hm.2)

theorem copyRange_wf (dst src : SMap Byte) (a n : Nat) (hd : swf byte0 dst = true) (hs : swf byte0 src = true) :
    swf byte0 (copyRange dst src a n) = true :=
  mergeMaps_wf _ _ (takeRange_wf src a n hs) (dropRange_wf dst a n hd)

/-! ## What the reaction to a bad codeword leaves alone (R74, R257) -/

@[simp] theorem Device.parcelOut_mem (d : Device) (p t : Nat) (l : List Byte) : (d.parcelOut p t l).mem = d.mem := by
  simp only [Device.parcelOut]; (repeat' split) <;> simp only [Device.send_mem, Device.setKlPort_mem]
@[simp] theorem Device.kloul_mem (d : Device) (p t : Nat) (l : List Byte) : (d.kloul p t l).mem = d.mem := by
  unfold Device.kloul; split <;> simp only [Device.parcelOut_mem]
@[simp] theorem Device.ring_mem (d : Device) (t : Nat) (l : List Byte) : (d.ring t l).mem = d.mem := by
  simp only [Device.ring, Device.kloul_mem]
@[simp] theorem Device.service_mem (d : Device) : d.service.mem = d.mem := by
  simp only [Device.service]; split <;> simp only [Device.raise_mem, Device.setF_mem]
@[simp] theorem Device.toLane_mem (d : Device) (i st : Nat) : (d.toLane i st).mem = d.mem := by
  simp only [Device.toLane]
  (repeat' split) <;> simp only [Device.service_mem, Device.slAssert_mem, Device.raise_mem, Device.setF_mem]
@[simp] theorem Device.excludeOne_mem (d : Device) (i code : Nat) : (d.excludeOne i code).mem = d.mem := by
  simp only [Device.excludeOne]
  (repeat' split) <;> simp only [Device.toLane_mem, Device.raise_mem, Device.ring_mem, Device.setF_mem]
@[simp] theorem Device.exclude_mem (d : Device) (i code : Nat) : (d.exclude i code).mem = d.mem := by
  simp only [Device.exclude]; split <;> simp only [Device.excludeOne_mem]
@[simp] theorem Device.excludeSelf_mem (d : Device) (code : Nat) : (d.excludeSelf code).mem = d.mem := by
  unfold Device.excludeSelf; split <;> simp only [Device.exclude_mem]
@[simp] theorem Device.memFault_mem (d : Device) (m e k kind : Nat) : (d.memFault m e k kind).mem = d.mem := by
  simp only [Device.memFault]
  split <;> simp only [Device.excludeSelf_mem, Device.raise_mem, Device.slAssert_mem, Device.setF_mem, Device.wr_mem]

/-- Reading a codeword changes no byte. -/
@[simp] theorem Device.eccRead_mem (d : Device) (m e k : Nat) : (d.eccRead m e k).2.mem = d.mem := by
  unfold Device.eccRead
  split
  · rfl
  · rfl
  · simp only []
    split <;> simp only [Device.raise_mem, Device.inc_mem, Device.setEcc_mem]
  · simp only [Device.memFault_mem]
  · simp only [Device.memFault_mem]

@[simp] theorem Device.eccReads_mem (d : Device) (m e : Nat) (l : List Nat) : (d.eccReads m e l).2.mem = d.mem := by
  induction l generalizing d with
  | nil => rfl
  | cons k t ih =>
    have hk := d.eccRead_mem m e k
    unfold Device.eccReads
    split
    · next h => rw [ih]; rw [h] at hk; exact hk
    · next h => rw [h] at hk; exact hk

@[simp] theorem Device.eccWriteShared_mem (d : Device) (m e a n : Nat) (l : List Nat) :
    (d.eccWriteShared m e a n l).2.mem = d.mem := by
  induction l generalizing d with
  | nil => rfl
  | cons k t ih =>
    have hk := d.eccRead_mem m e k
    unfold Device.eccWriteShared
    split
    · rw [ih, Device.setEcc_mem]
    · split
      · next h => rw [ih, Device.setEcc_mem]; rw [h] at hk; exact hk
      · next h => rw [h] at hk; exact hk

/-! ## Accesses -/

/-- A read of memory by a fabric master changes no byte. -/
theorem Device.busRead_mem (d : Device) (m a n : Nat) : (d.busRead m a n).2.mem = d.mem := by
  have h := d.eccReads_mem m 0 (sharedKeys a n)
  unfold Device.busRead
  split <;> (next e => rw [e] at h; exact h)

/-- A write of memory by a fabric master keeps the canonical form. -/
theorem Device.busWrite_wf (d : Device) (m a : Nat) (l : List Byte) (h : Memory.wf d.mem = true) :
    Memory.wf (d.busWrite m a l).2.mem = true := by
  have hm := d.eccWriteShared_mem m 0 a l.length (sharedKeys a l.length)
  unfold Device.busWrite
  split
  · next e => rw [e] at hm; exact Device.setBytes_wf _ _ _ (by rw [show _ = _ from hm]; exact h)
  · next e => rw [e] at hm; rw [show _ = _ from hm]; exact h

/-- A write of memory by a fabric master changes no byte outside its range. -/
theorem Device.byte_busWrite_other (d : Device) (m a : Nat) (l : List Byte) {b : Nat}
    (h : b < a ∨ a + l.length ≤ b) : (d.busWrite m a l).2.byte b = d.byte b := by
  have hm := d.eccWriteShared_mem m 0 a l.length (sharedKeys a l.length)
  unfold Device.busWrite
  split
  · next e => rw [e] at hm; rw [Device.byte_setBytes_other _ _ h]; exact Device.byte_congr hm b
  · next e => rw [e] at hm; exact Device.byte_congr hm b

@[simp] theorem Device.setLarea_mem (d : Device) (k : Nat) (l : List Byte) : (d.setLarea k l).mem = d.mem := by
  induction l generalizing d k with
  | nil => rfl
  | cons b t ih => rw [Device.setLarea, ih]

theorem Device.areaPut_wf (d : Device) (e c ar off n v : Nat) (h : Memory.wf d.mem = true) :
    Memory.wf (d.areaPut e c ar off n v).mem = true := by
  unfold Device.areaPut
  split
  · rw [Device.setLarea_mem]; exact h
  · exact d.setNum_wf _ _ _ h

/-- A write of an engine keeps the canonical form. -/
theorem Device.areaWrite_wf (d : Device) (e c ar off n v : Nat) (h : Memory.wf d.mem = true) :
    Memory.wf (d.areaWrite e c ar off n v).2.mem = true := by
  have key : ∀ r : Bool × Device, r.2.mem = d.mem →
      Memory.wf (if r.1 then (true, r.2.areaPut e c ar off n v) else r).2.mem = true := by
    intro r hr
    split
    · exact Device.areaPut_wf _ _ _ _ _ _ _ (by rw [hr]; exact h)
    · rw [hr]; exact h
  refine key _ ?_
  split
  · split
    · exact Device.setEcc_mem _ _ _
    · have hk := d.eccRead_mem 0 e (eccLocal e c off)
      split <;> (next he => rw [he] at hk; simpa using hk)
  · exact Device.eccWriteShared_mem _ _ _ _ _ _

theorem Device.writeBit_wf (d : Device) (e c ar ba : Nat) (v : Bool) (h : Memory.wf d.mem = true) :
    Memory.wf (d.writeBit e c ar ba v).2.mem = true := d.areaWrite_wf _ _ _ _ _ _ h

end Sys2Proof.Machine
end

