-- ==== Sys2Proof/Laws/Operands.lean ====
section
/-! SUPPORT. Operands (R117, R118, R134): where an instruction's address lands, what is read there, and what a store of an
engine changes. -/

namespace Sys2Proof.Machine

/-! ## What an area's content depends on -/

/-- Two devices hold the same operands: memories, cells, force table, codeword errors and the host window. -/
structure Device.SameAreas (d d' : Device) : Prop where
  mem : d'.mem = d.mem
  larea : d'.larea = d.larea
  ce : d'.ce = d.ce
  img : d'.img = d.img
  win : d'.rd Reg.HP_HWIN = d.rd Reg.HP_HWIN

namespace Device.SameAreas

variable {d d' : Device} (h : Device.SameAreas d d')
include h

theorem areaSize (ar : Nat) : d'.areaSize ar = d.areaSize ar := by
  have : d'.fld Reg.HP_HWIN_SIZE_4K = d.fld Reg.HP_HWIN_SIZE_4K := Device.fld_congr h.win
  simp only [Device.areaSize, this]

theorem areaBits (ar : Nat) : d'.areaBits ar = d.areaBits ar := by simp only [Device.areaBits, h.areaSize]

theorem areaBase : d'.areaBase = d.areaBase := by
  have : d'.fld Reg.HP_HWIN_BASE_4K = d.fld Reg.HP_HWIN_BASE_4K := Device.fld_congr h.win
  funext ar
  simp only [Device.areaBase, this]

theorem areaByte (e c ar off : Nat) : d'.areaByte e c ar off = d.areaByte e c ar off := by
  simp only [Device.areaByte, Device.cellByte, Device.tcell, Device.ccell, Device.seen, Device.byte, h.larea, h.ce, h.mem,
    h.img, h.areaBase]

theorem areaNum (e c ar off n : Nat) : d'.areaNum e c ar off n = d.areaNum e c ar off n := by
  simp only [Device.areaNum, h.areaByte]

theorem areaBit (e c ar p : Nat) : d'.areaBit e c ar p = d.areaBit e c ar p := by
  simp only [Device.areaBit, Device.tcell, Device.ccell, h.ce, h.areaByte]

theorem areaKeys (e c ar off n : Nat) : d'.areaKeys e c ar off n = d.areaKeys e c ar off n := by
  simp only [Device.areaKeys, h.areaBase]

theorem bitKeys (e c ar p : Nat) : d'.bitKeys e c ar p = d.bitKeys e c ar p := by
  simp only [Device.bitKeys, h.areaKeys]

theorem clean {l : List Nat} (hl : d.Clean l) : d'.Clean l := by
  intro k hk
  have := hl k hk
  simpa only [Device.ecc, h.ce] using this

theorem underByte (e c ar off : Nat) : d'.underByte e c ar off = d.underByte e c ar off := by
  simp only [Device.underByte, Device.byte, h.larea, h.mem, h.areaBase]

end Device.SameAreas

/-- Making a context active changes no operand. -/
theorem Device.same_dispatched (d : Device) (e : Eng) (c : Nat) : d.SameAreas (d.dispatched e c) := by
  refine ⟨by simp, by simp, by simp, by simp, Device.rd_setF_other _ _ ?_⟩
  have := e.isLt
  simp only [Reg.HP_HWIN, Reg.CE_STATUS_ACTIVE_CTX, Reg.CE_STATUS]
  omega

/-! ## Reads -/

/-- A read of an area without errors answers its number, and the device is as before. -/
theorem Device.areaRead_clean (d : Device) (e c ar off n : Nat) (h : d.Clean (d.areaKeys e c ar off n)) :
    d.areaRead e c ar off n = (some (d.areaNum e c ar off n), d) := by
  rw [Device.areaRead, Device.eccReads_clean d 0 e _ h]

/-- A number of n bytes is below 256 to the n. -/
theorem leNat_lt (l : List Byte) : leNat l < 256 ^ l.length := by
  induction l with
  | nil => simp [leNat]
  | cons b t ih =>
    have := b.isLt
    rw [leNat, List.length_cons, pow_succ]
    omega

theorem Device.areaNum_lt (d : Device) (e c ar off n : Nat) : d.areaNum e c ar off n < 256 ^ n := by
  have := leNat_lt ((List.range n).map (fun i => d.areaByte e c ar (off + i)))
  simpa [Device.areaNum] using this

/-! ## Addresses -/

theorem Device.areaSize_le (d : Device) (ar : Nat) : d.areaSize ar ≤ 2 ^ 24 := by
  have := d.fld_lt Reg.HP_HWIN_SIZE_4K
  simp only [Reg.HP_HWIN_SIZE_4K] at this
  unfold Device.areaSize
  repeat' split
  all_goals (try simp only [Reg.HP_HWIN_SIZE_4K]); omega

theorem Device.areaBits_le (d : Device) (ar : Nat) : d.areaBits ar ≤ 2 ^ 27 := by
  have := d.areaSize_le ar
  unfold Device.areaBits
  split <;> omega

theorem mode_toNat_ne {mode : BitVec 2} (h : mode ≠ 3) : mode.toNat ≠ 3 := by
  intro e
  exact h (BitVec.eq_of_toNat_eq (by simpa using e))

theorem indexed_eq (x : Ctx) (mode : BitVec 2) (f : Nat) : indexed f mode.toNat x = f + x.index mode := by
  have h1 : mode.toNat = 1 ↔ mode = 1 := ⟨fun e => BitVec.eq_of_toNat_eq (by simpa using e), fun e => by simp [e]⟩
  have h2 : mode.toNat = 2 ↔ mode = 2 := ⟨fun e => BitVec.eq_of_toNat_eq (by simpa using e), fun e => by simp [e]⟩
  simp only [indexed, Ctx.index, h1, h2]
  split
  · rfl
  · split <;> simp

/-- A pointer word without an error is read, split into area and bit address. -/
theorem Device.Points.pointer {d : Device} {e c area f ar q : Nat} (h : d.Points e c area f (ar * 2 ^ 28 + q))
    (hq : q < 2 ^ 28) : pointer d e c area f = .at d ar q := by
  obtain ⟨-, -, h3, h4, h5, h6⟩ := h
  rw [Sys2Proof.Machine.pointer, if_neg (by omega), if_neg (by omega), Device.areaRead_clean d e c area f 4 h5, h6]
  simp only [Place.at.injEq, true_and]
  omega

theorem bounded_ok (d : Device) {ar p s size : Nat} (h1 : ar < 12) (h2 : p + s ≤ size) :
    bounded d ar (p : Int) s size = .at d ar p := by
  rw [bounded, if_neg (by omega)]
  simp

theorem Device.BitTarget.bitPlace {d : Device} {e c : Nat} {x : Ctx} {mode : BitVec 2} {area : BitVec 4}
    {ba : BitVec 20} {ar p : Nat} (h : d.BitTarget e c x mode area ba ar p) :
    bitPlace d e c x mode.toNat area.toNat ba.toNat = .at d ar p := by
  obtain ⟨-, h2, h3, h4⟩ := h
  have hb := d.areaBits_le ar
  by_cases hm : mode = 3
  · rw [if_pos hm] at h4
    rw [Sys2Proof.Machine.bitPlace, if_pos (by simp [hm]), h4.pointer (by omega)]
    exact bounded_ok d h2 (by omega)
  · rw [if_neg hm] at h4
    rw [Sys2Proof.Machine.bitPlace, if_neg (mode_toNat_ne hm), indexed_eq, ← h4.2, ← h4.1]
    exact bounded_ok d h2 (by omega)

theorem Device.BitTarget.legal {d : Device} {e c : Nat} {x : Ctx} {mode : BitVec 2} {area : BitVec 4}
    {ba : BitVec 20} {ar p : Nat} (h : d.BitTarget e c x mode area ba ar p) :
    badArea mode.toNat area.toNat = false := by
  obtain ⟨h1, -, -, h4⟩ := h
  by_cases hm : mode = 3
  · rw [if_pos hm] at h4
    have a1 := h4.1
    have a2 := h4.2.1
    simp only [badArea, Bool.or_eq_false_iff, Bool.and_eq_false_iff, decide_eq_false_iff_not]
    exact ⟨by omega, .inr ⟨a1, a2⟩⟩
  · have := mode_toNat_ne hm
    simp only [badArea, Bool.or_eq_false_iff, Bool.and_eq_false_iff, decide_eq_false_iff_not]
    exact ⟨by omega, .inl this⟩

theorem Device.SameAreas.points {d d' : Device} (h : d.SameAreas d') {e c area f v : Nat} (hp : d.Points e c area f v) :
    d'.Points e c area f v := by
  obtain ⟨h1, h2, h3, h4, h5, h6⟩ := hp
  refine ⟨h1, h2, h3, by rw [h.areaSize]; exact h4, ?_, by rw [h.areaNum]; exact h6⟩
  rw [h.areaKeys]
  exact h.clean h5

theorem Device.SameAreas.bitTarget {d d' : Device} (h : d.SameAreas d') {e c : Nat} {x : Ctx} {mode : BitVec 2}
    {area : BitVec 4} {ba : BitVec 20} {ar p : Nat} (hb : d.BitTarget e c x mode area ba ar p) :
    d'.BitTarget e c x mode area ba ar p := by
  obtain ⟨h1, h2, h3, h4⟩ := hb
  refine ⟨h1, h2, by rw [h.areaBits]; exact h3, ?_⟩
  split
  · next hm => rw [if_pos hm] at h4; exact h.points h4
  · next hm => rw [if_neg hm] at h4; exact h4

theorem Device.SameAreas.wordTarget {d d' : Device} (h : d.SameAreas d') {e c : Nat} {x : Ctx} {mode : BitVec 2}
    {area : BitVec 4} {off : BitVec 18} {w n ar p : Nat} (hb : d.WordTarget e c x mode area off w n ar p) :
    d'.WordTarget e c x mode area off w n ar p := by
  obtain ⟨h1, h2, h3, h4, h5⟩ := hb
  refine ⟨h1, h2, h3, by rw [h.areaSize]; exact h4, ?_⟩
  split
  · next hm => rw [if_pos hm] at h5; exact h.points h5
  · next hm => rw [if_neg hm] at h5; exact h5

theorem aligned_ok (d : Device) {ar p w n : Nat} (h1 : ar < 12) (h2 : p % w = 0) (h3 : p + n ≤ d.areaSize ar) :
    aligned d ar (p : Int) w n = .at d ar p := by
  have : ((p : Int) % (w : Int)) = 0 := by exact_mod_cast h2
  rw [aligned, if_neg (by simp [this])]
  exact bounded_ok d h1 h3

theorem Device.WordTarget.wordPlace {d : Device} {e c : Nat} {x : Ctx} {mode : BitVec 2} {area : BitVec 4}
    {off : BitVec 18} {w n ar p : Nat} (h : d.WordTarget e c x mode area off w n ar p) :
    wordPlace d e c x mode.toNat area.toNat off.toNat w n = .at d ar p := by
  obtain ⟨-, h2, h3, h4, h5⟩ := h
  have hb := d.areaSize_le ar
  by_cases hm : mode = 3
  · rw [if_pos hm] at h5
    rw [Sys2Proof.Machine.wordPlace, if_pos (by simp [hm]), h5.pointer (by omega)]
    simp only []
    rw [if_neg (by omega)]
    have : 8 * p / 8 = p := by omega
    rw [this]
    exact aligned_ok d h2 h3 h4
  · rw [if_neg hm] at h5
    rw [Sys2Proof.Machine.wordPlace, if_neg (mode_toNat_ne hm), indexed_eq, ← h5.2, ← h5.1]
    exact aligned_ok d h2 h3 h4

theorem Device.WordTarget.legal {d : Device} {e c : Nat} {x : Ctx} {mode : BitVec 2} {area : BitVec 4}
    {off : BitVec 18} {w n ar p : Nat} (h : d.WordTarget e c x mode area off w n ar p) :
    badArea mode.toNat area.toNat = false := by
  obtain ⟨h1, -, -, -, h4⟩ := h
  by_cases hm : mode = 3
  · rw [if_pos hm] at h4
    have a1 := h4.1
    have a2 := h4.2.1
    simp only [badArea, Bool.or_eq_false_iff, Bool.and_eq_false_iff, decide_eq_false_iff_not]
    exact ⟨by omega, .inr ⟨a1, a2⟩⟩
  · have := mode_toNat_ne hm
    simp only [badArea, Bool.or_eq_false_iff, Bool.and_eq_false_iff, decide_eq_false_iff_not]
    exact ⟨by omega, .inl this⟩

/-! ## Writes -/

/-- Clearing the error of a codeword leaves a codeword without an error so. -/
theorem Device.ecc_setEcc_clean (d : Device) (k : Nat) {j : Nat} (h : d.ecc j = .clean) :
    (d.setEcc k .clean).ecc j = .clean := by
  by_cases hjk : j = k
  · simp only [Device.ecc, Device.setEcc, hjk, sget_sput_same]
  · simp only [Device.ecc, Device.setEcc, sget_sput_other eccNone _ Ecc.clean hjk]
    exact h

/-- A write that meets no error clears the errors of the codewords that it touches, and changes nothing else. -/
theorem Device.eccWriteShared_clean (d : Device) (m e a n : Nat) (l : List Nat) (h : d.Clean l) :
    ∃ x, d.eccWriteShared m e a n l = (true, { d with ce := { d.ce with ecc := x } }) ∧
      ∀ k, d.ecc k = .clean → sget eccNone x k = .clean := by
  induction l generalizing d with
  | nil => exact ⟨d.ce.ecc, rfl, fun _ hk => hk⟩
  | cons k t ih =>
    have hk : d.ecc k = .clean := h k (by simp)
    have hset : ∀ j, d.ecc j = .clean → (d.setEcc k .clean).ecc j = .clean := fun j hj => d.ecc_setEcc_clean k hj
    obtain ⟨x, hx, hkeep⟩ := ih (d.setEcc k .clean) (fun j hj => hset j (h j (by simp [hj])))
    refine ⟨x, ?_, fun j hj => hkeep j (hset j hj)⟩
    unfold Device.eccWriteShared
    split
    · rw [hx]; rfl
    · rw [Device.eccRead_clean d m e k hk]
      simp only []
      rw [hx]; rfl

theorem Device.setLarea_eq (d : Device) (k : Nat) (l : List Byte) : ∃ x, d.setLarea k l = { d with larea := x } := by
  induction l generalizing d k with
  | nil => exact ⟨d.larea, rfl⟩
  | cons b t ih =>
    obtain ⟨x, hx⟩ := ih { d with larea := sput byte0 d.larea k b } (k + 1)
    exact ⟨x, by rw [Device.setLarea, hx]⟩

theorem Device.setBytes_eq (d : Device) (a : Nat) (l : List Byte) : ∃ x, d.setBytes a l = { d with mem := x } := by
  induction l generalizing d a with
  | nil => exact ⟨d.mem, rfl⟩
  | cons b t ih =>
    obtain ⟨x, hx⟩ := ih (d.setByte a b) (a + 1)
    exact ⟨x, by rw [Device.setBytes, hx]; rfl⟩

theorem Device.larea_setLarea_other (d : Device) (l : List Byte) {k j : Nat} (h : j < k ∨ k + l.length ≤ j) :
    sget byte0 (d.setLarea k l).larea j = sget byte0 d.larea j := by
  induction l generalizing d k with
  | nil => rfl
  | cons b t ih =>
    simp only [List.length_cons] at h
    rw [Device.setLarea, ih _ (by omega)]
    exact sget_sput_other byte0 _ b (by omega)

theorem Device.larea_setLarea_same (d : Device) (l : List Byte) (k i : Nat) (h : i < l.length) :
    sget byte0 (d.setLarea k l).larea (k + i) = l[i] := by
  induction l generalizing d k i with
  | nil => simp at h
  | cons b t ih =>
    rw [Device.setLarea]
    cases i with
    | zero =>
      simp only [Nat.add_zero]
      rw [Device.larea_setLarea_other _ _ (by omega)]
      simp
    | succ i =>
      have e : k + (i + 1) = k + 1 + i := by omega
      rw [e, ih _ _ _ (by simpa using h)]; rfl

theorem leBytes_get (n v i : Nat) (h : i < (leBytes n v).length) : (leBytes n v)[i] = BitVec.ofNat 8 (v / 256 ^ i) := by
  induction n generalizing v i with
  | zero => simp [leBytes] at h
  | succ n ih =>
    simp only [leBytes]
    cases i with
    | zero => simp
    | succ i =>
      simp only [List.getElem_cons_succ]
      rw [ih (v / 256) i (by simpa [leBytes] using h), Nat.div_div_eq_div_mul, ← pow_succ']

/-- A write of an area that meets no error: what it stores, and that it changes memories and codeword errors alone. -/
theorem Device.areaWrite_clean (d : Device) (e c ar off n v : Nat) (h : d.Clean (d.areaKeys e c ar off n))
    (hk : ar = areaL → d.ecc (eccLocal e c off) = .clean) (ht : ar ≠ areaT) (hc : ar ≠ areaC) :
    ∃ m l x, d.areaWrite e c ar off n v = (true, { d with mem := m, larea := l, ce := { d.ce with ecc := x } })
      ∧ d.Stored { d with mem := m, larea := l, ce := { d.ce with ecc := x } } e c ar off n v
      ∧ ∀ k, d.ecc k = .clean → sget eccNone x k = .clean := by
  have key : ∀ (r : Bool × Device) (y : Device), r = (true, y) →
      (if r.1 then (true, r.2.areaPut e c ar off n v) else r) = (true, y.areaPut e c ar off n v) := by
    rintro _ y rfl; rfl
  by_cases hl : ar = areaL
  · have hr : ∃ x, (if ar = areaL then
        if n = 4 then (true, d.setEcc (eccLocal e c off) .clean)
        else
          match d.eccRead 0 e (eccLocal e c off) with
          | (true, d1) => (true, d1.setEcc (eccLocal e c off) .clean)
          | (false, d1) => (false, d1)
        else d.eccWriteShared 0 e (d.areaBase ar + off) n (sharedKeys (d.areaBase ar + off) n))
        = (true, { d with ce := { d.ce with ecc := x } }) ∧ ∀ k, d.ecc k = .clean → sget eccNone x k = .clean := by
      rw [if_pos hl]
      split
      · exact ⟨_, rfl, fun j hj => d.ecc_setEcc_clean _ hj⟩
      · rw [Device.eccRead_clean _ _ _ _ (hk hl)]; exact ⟨_, rfl, fun j hj => d.ecc_setEcc_clean _ hj⟩
    obtain ⟨x, hx, hkeep⟩ := hr
    obtain ⟨m, hm⟩ := Device.setLarea_eq { d with ce := { d.ce with ecc := x } } (larKey e c off) (leBytes n v)
    refine ⟨d.mem, m, x, ?_, ?_, hkeep⟩
    · have : d.areaWrite e c ar off n v = _ := key _ _ hx
      rw [this, Device.areaPut, if_pos hl, hm]
    · have hmm : m = (({ d with ce := { d.ce with ecc := x } } : Device).setLarea (larKey e c off) (leBytes n v)).larea := by
        rw [hm]
      refine ⟨?_, ?_, fun _ _ => rfl⟩
      · intro i hi
        have hlen : i < (leBytes n v).length := by rw [length_leBytes]; exact hi
        have := Device.larea_setLarea_same { d with ce := { d.ce with ecc := x } } (leBytes n v) (larKey e c off) i hlen
        rw [← hmm, leBytes_get n v i hlen] at this
        rw [Device.underByte, if_pos hl, ← this]
        simp only [larKey, Nat.add_assoc]
      · intro k hk'
        have : k < larKey e c off ∨ larKey e c off + (leBytes n v).length ≤ k := by
          rw [length_leBytes]
          by_contra hcon
          exact hk' ⟨hl, by omega, by omega⟩
        show sget byte0 m k = _
        rw [hmm, Device.larea_setLarea_other _ _ this]
  · have hkeys : d.areaKeys e c ar off n = sharedKeys (d.areaBase ar + off) n := by
      rw [Device.areaKeys, if_neg hl, if_neg (by simp [ht, hc])]
    rw [hkeys] at h
    obtain ⟨x, hx, hkeep⟩ := Device.eccWriteShared_clean d 0 e (d.areaBase ar + off) n _ h
    obtain ⟨m, hm⟩ := Device.setBytes_eq { d with ce := { d.ce with ecc := x } } (d.areaBase ar + off) (leBytes n v)
    refine ⟨m, d.larea, x, ?_, ?_, hkeep⟩
    · have : d.areaWrite e c ar off n v = _ := key _ _ ((if_neg hl).trans hx)
      rw [this, Device.areaPut, if_neg hl, Device.setNum]
      exact congrArg (Prod.mk true) hm
    · have hmm : m = (({ d with ce := { d.ce with ecc := x } } : Device).setBytes (d.areaBase ar + off) (leBytes n v)).mem := by
        rw [hm]
      refine ⟨?_, fun _ _ => rfl, ?_⟩
      · intro i hi
        have hlen : i < (leBytes n v).length := by rw [length_leBytes]; exact hi
        have := Device.byte_setBytes_same { d with ce := { d.ce with ecc := x } } (leBytes n v) (d.areaBase ar + off) i hlen
        rw [leBytes_get n v i hlen] at this
        rw [Device.underByte, if_neg hl, ← this]
        show sget byte0 m _ = _
        rw [hmm, Nat.add_assoc]
        rfl
      · intro b hb
        have : b < d.areaBase ar + off ∨ d.areaBase ar + off + (leBytes n v).length ≤ b := by
          rw [length_leBytes]
          by_contra hcon
          exact hb ⟨hl, by omega, by omega⟩
        have h2 := Device.byte_setBytes_other { d with ce := { d.ce with ecc := x } } (leBytes n v) this
        rw [Device.byte, ← hmm] at h2
        exact h2

/-! ## An instruction that stores -/

/-- The store that is seen before the step count and Sluice is the store that the next state shows. -/
theorem Device.Stored.transfer {d d0 d1 t : Device} {e c ar off n v : Nat} (h : d0.Stored d1 e c ar off n v)
    (hs : d.SameAreas d0) (hm : t.mem = d1.mem) (hl : t.larea = d1.larea)
    (hw : t.rd Reg.HP_HWIN = d1.rd Reg.HP_HWIN) : d.Stored t e c ar off n v := by
  have hbase : t.areaBase = d1.areaBase := by
    have : t.fld Reg.HP_HWIN_BASE_4K = d1.fld Reg.HP_HWIN_BASE_4K := Device.fld_congr hw
    funext ar
    simp only [Device.areaBase, this]
  refine ⟨?_, ?_, ?_⟩
  · intro i hi
    rw [← h.bytes i hi]
    simp only [Device.underByte, Device.byte, hm, hl, hbase]
  · intro k hk
    rw [hl, h.larea k hk, hs.larea]
  · intro b hb
    rw [← hs.areaBase] at hb
    have := h.mem b hb
    simp only [Device.byte, hm, hs.mem] at this ⊢
    exact this

/-- An instruction that answers `ok` with a device whose memories and codeword errors alone differ. -/
theorem Device.Executes.completes_store {s : State} {e : Eng} {c : Nat} (h : s.dev.Executes e c) {i : Instr} {x : Ctx}
    {f : Device → Nat → Ctx → Res} {m : List Host.Cell} {l : SMap Byte} {k : SMap Ecc}
    {ar off n v : Nat} (hx : exec i s = run (Sys2Proof.Machine.azStep e f) s)
    (hf : f (s.dev.dispatched e c) c (s.dev.ctx e c)
      = .ok { s.dev.dispatched e c with mem := m, larea := l, ce := { (s.dev.dispatched e c).ce with ecc := k } } x)
    (hst : (s.dev.dispatched e c).Stored
      { s.dev.dispatched e c with mem := m, larea := l, ce := { (s.dev.dispatched e c).ce with ecc := k } } e c ar off n v) :
    Completes i s (fun t => s.dev.Wrote t e c x ∧ s.dev.Stored t e c ar off n v) := by
  have he := e.isLt
  refine ⟨_, hx, rfl, ?_⟩
  simp only [h.azStep f, hf, settle_ok _ _ _ h.inside]
  refine ⟨⟨Device.ran_completed h 1 _ rfl (Device.rd_setF_other _ _ (status_ne_lo e he).symm)
    (Device.rd_setF_other _ _ (status_ne_hi e he).symm) (by simp only [Device.setF_ce]), ?_, ?_, ?_, ?_, by simp⟩, ?_⟩
  · intro a ha
    simp only [stepRegs, List.mem_cons, List.not_mem_nil, or_false, not_or] at ha
    rw [Device.rd_completed _ _ _ _ _ ha.2.2.2 ha.2.1 ha.2.2.1]
    exact Device.rd_setF_other _ _ ha.1
  · simp
  · refine ⟨fun n => Device.tcell_congr ?_ n, fun n => Device.ccell_congr ?_ n⟩
    · simp only [Device.sluice_ce]; simp [Device.setCtx]
    · simp only [Device.sluice_ce]; simp [Device.setCtx]
  · constructor <;> simp
  · refine hst.transfer (s.dev.same_dispatched e c) ?_ ?_ ?_
    · simp
    · simp
    · refine Device.rd_completed _ _ _ _ _ (by decide) ?_ ?_
      · simp only [Reg.HP_HWIN, Reg.TASK_ENG_RETIRED_LO]; omega
      · simp only [Reg.HP_HWIN, Reg.TASK_ENG_RETIRED_HI]; omega

end Sys2Proof.Machine
end

