-- ==== Sys2Proof/WellFormed.lean ====
section
/-! DEFINITION. Well-formed commands: every operand lies in the range that the spec gives it. Most operands have a type
that holds no other value; the checks below are for those that have not. -/

namespace Sys2Proof

/-- A codeword of SDM, PIM, a program bank or an L area (R72): the key of a codeword that exists. -/
def okKey (key : Nat) : Bool :=
  decide (key < 0x100000) || (decide (0x200000 ≤ key) && decide (key < 0x21E000))
    || (decide (0x40000000 ≤ key) && decide (key < 0x40000000 + 48 * 32768))
    || (decide (0x50000000 ≤ key) && decide (key < 0x50000000 + 384 * 1024))

/-- The operands of a command lie in their ranges. -/
def Instr.wf : Instr → Bool
  | .genericRegisterWrite addr _ _ _ _ => addr % 4 == 0 && decide (addr < 2 ^ 32)
  | .tickBoundary _ _ => true
  | .timerCellExpiry _ => true
  | .syncinEdge _ => true
  | .sourceLost => true
  | .firstBoundaryTimeout => true
  | .setSource _ => true
  | .tickClearCounters _ => true
  | .voteFreeze => true
  | .notReady3Consec => true
  | .voteWindowEnd => true
  | .stateCopyAbandon => true
  | .standbyStale => true
  | .tickWatchdogTrip => true
  | .illegalInstruction _ _ => true
  | .azAnd _ _ _ _ => true
  | .azAndn _ _ _ _ => true
  | .azOr _ _ _ _ => true
  | .azOrn _ _ _ _ => true
  | .azXor _ _ _ _ => true
  | .azXorn _ _ _ _ => true
  | .azSto _ _ _ _ => true
  | .azSton _ _ _ _ => true
  | .azSet _ _ _ _ => true
  | .azRst _ _ _ _ => true
  | .azEdgr _ _ _ _ => true
  | .azEdgf _ _ _ _ => true
  | .azBr _ _ => true
  | .azNot _ _ => true
  | .azSetla _ _ => true
  | .azJoin _ _ _ => true
  | .azClrla _ _ => true
  | .azChain _ _ => true
  | .azJmp _ _ _ => true
  | .azCall _ _ _ => true
  | .azDecj _ _ _ => true
  | .azRet _ _ => true
  | .azRetla _ _ => true
  | .azEnd _ _ => true
  | .azEndla _ _ => true
  | .azNop _ _ => true
  | .azSetx _ _ => true
  | .azSety _ _ => true
  | .azAddx _ _ => true
  | .azAddy _ _ => true
  | .azLd _ _ _ _ _ => true
  | .azSt _ _ _ _ _ => true
  | .azLdx _ _ _ _ _ => true
  | .azLdy _ _ _ _ _ => true
  | .azLea _ _ _ _ _ => true
  | .eccWriteback key => okKey key
  | .azLit _ _ => true
  | .azLith _ _ => true
  | .azAddk _ _ => true
  | .azLitf _ _ => true
  | .azSwap _ _ => true
  | .azPop _ _ => true
  | .azPush _ _ => true
  | .azTax _ _ => true
  | .azTay _ _ => true
  | .azTxa _ _ => true
  | .azTya _ _ => true
  | .azLaa _ _ => true
  | .azAla _ _ => true
  | .azBmov _ _ _ elems => decide (elems < 2 ^ 32)
  | .azAdd _ _ => true
  | .azSub _ _ => true
  | .azMul _ _ => true
  | .azDiv _ _ => true
  | .azMod _ _ => true
  | .azDivu _ _ => true
  | .azModu _ _ => true
  | .azIntAnd _ _ => true
  | .azIntOr _ _ => true
  | .azIntXor _ _ => true
  | .azNeg _ _ => true
  | .azAbs _ _ => true
  | .azInv _ _ => true
  | .azAddf _ _ => true
  | .azSubf _ _ => true
  | .azMulf _ _ => true
  | .azDivf _ _ => true
  | .azNegf _ _ => true
  | .azAbsf _ _ => true
  | .azSqrtf _ _ => true
  | .azCmp _ _ _ => true
  | .azShl _ _ => true
  | .azShr _ _ => true
  | .azSar _ _ => true
  | .azRol _ _ => true
  | .azRor _ _ => true
  | .azItf _ _ => true
  | .azUtf _ _ => true
  | .azFti _ _ => true
  | .azFtir _ _ => true
  | .azSx8 _ _ => true
  | .azSx16 _ _ => true
  | .azZx8 _ _ => true
  | .azZx16 _ _ => true
  | .azBswap _ _ => true
  | .azLim _ _ _ _ _ => true
  | .azScl _ _ _ _ _ => true
  | .azTon _ _ _ => true
  | .azTof _ _ _ => true
  | .azTp _ _ _ => true
  | .azTrst _ _ _ => true
  | .azCu _ _ _ => true
  | .azCd _ _ _ => true
  | .azCr _ _ _ => true
  | .azCld _ _ _ => true
  | .azSemTry _ _ _ rivals => rivals.all (fun r => decide (r < 32))
  | .azSemRel _ _ _ => true
  | .azSemOwn _ _ _ => true
  | .azMbxSend _ _ _ => true
  | .azMbxRecv _ _ _ => true
  | .azMbxAck _ _ _ => true
  | .azMbxStat _ _ _ => true
  | .azDblRing _ _ _ => true
  | .azDblTake _ _ _ => true
  | .azEvw _ _ _ _ => true
  | .azTickt _ _ _ => true
  | .azNow _ _ _ => true
  | .azTickus _ _ _ => true
  | .azTrap _ _ _ => true
  | .azTinfo _ _ _ => true
  | .scrubberRead key _ => okKey key
  | .engineFault _ _ _ _ => true
  | .agreeFault _ _ _ _ => true
  | .halt _ _ => true
  | .resume _ _ => true
  | .step _ _ => true
  | .regRead _ _ => true
  | .regWrite _ _ => true
  | .ceClearCounters _ _ => true
  | .breakpointHit _ _ => true
  | .breakpointWrite _ _ _ => true
  | .tapReset => true
  | .tapInstructionUpdate _ => true
  | .dbgAccess _ => true
  | .dbgAccessDone _ _ => true
  | .deadlineOverrun _ _ _ => true
  | .gridPoint _ => true
  | .gridDelivery _ => true
  | .flagUnagreed _ => true
  | .taskClearCounters _ => true
  | .trigger _ => true
  | .hopClose => true
  | .forceConfirmTimeout => true
  | .forceSet _ => true
  | .forceClear _ => true
  | .forceClearAll _ => true
  | .olcLoad _ => true
  | .olcArm _ => true
  | .olcDisarm _ => true
  | .olcSwap => true
  | .olcDrained => true
  | .klStepTimeout _ => true
  | .identReceived _ x => decide (x.role < 8)
  | .klCalComplete _ _ _ _ => true
  | .ackReceived _ seq => decide (seq < 65536)
  | .nakReceived _ seq => decide (seq < 65536)
  | .parcelAckTimeout _ => true
  | .klLinkErrorRetrain _ => true
  | .timeParcelReceived _ boundary tx _ _ => decide (boundary < 2 ^ 64) && decide (tx < 2 ^ 64)
  | .alignExclusion _ => true
  | .hopParcelReceived _ _ => true
  | .receiptSend => true
  | .receiptReceived _ _ _ => true
  | .hopperAgree => true
  | .absentExclusion _ => true
  | .diDiscrepancy _ _ => true
  | .voteParcelReceived _ m => decide (m.state < 8) && decide (m.perm < 128)
  | .segmentParcelReceived _ id _ => decide (id < 65536)
  | .minorityExclusion _ => true
  | .nomajExclusion => true
  | .twoLaneMismatchExclusion => true
  | .ctrlExitReceived _ code => decide (code < 16)
  | .ctrlSbStateReceived _ _ => true
  | .ctrlLinkStateReceived _ _ _ => true
  | .ctrlLockNoticeReceived _ _ => true
  | .gridParcelReceived _ _ _ _ => true
  | .exclude _ => true
  | .shadow _ => true
  | .readmit _ => true
  | .triClearCounters _ => true
  | .retrain _ => true
  | .klClearCounters _ => true
  | .autoReadmitRequest => true
  | .autoResetRequest => true
  | .xferParcelReceived _ _ _ => true
  | .readmitTimeout => true
  | .rendezvousFix => true
  | .startReceived _ time => decide (time < 2 ^ 64)
  | .heartbeatReceived h => decide (h.state < 8)
  | .grantReceived _ _ => true
  | .echoReceived _ _ _ => true
  | .arbiterCheck => true
  | .copyDataReceived _ seq _ _ _ => decide (seq < 2 ^ 32)
  | .copyMarkerReceived _ seq _ _ => decide (seq < 2 ^ 32)
  | .copyAckReceived seq => decide (seq < 2 ^ 32)
  | .holdExpired => true
  | .switchover _ => true
  | .switchoverTimeout => true
  | .foResync _ => true
  | .foClearCounters _ => true
  | .frameTransmit _ => true
  | .arbMinislot _ _ _ => true
  | .frameReceived _ _ payload _ _ _ => decide (payload.length ≤ 254)
  | .readbackFailure _ => true
  | .nodeHalt => true
  | .referenceReceived _ => true
  | .referenceSend => true
  | .backupReferenceSend => true
  | .referenceMissing => true
  | .startupReferenceSend _ => true
  | .startupReferenceReceived => true
  | .backoffEnd => true
  | .integrationTimeout => true
  | .guardianSummary _ _ _ _ _ _ => true
  | .guardianSummaryMissing => true
  | .guardianCrcCheck => true
  | .cyclePoint _ => true
  | .sbClearCounters _ => true
  | .sbResume _ => true
  | .listenOnly _ => true
  | .sbgClearCounters _ => true
  | .ethFrameReceived _ frame _ _ => decide (frame.length < 2 ^ 16)
  | .hostTxSend => true
  | .launchEntryStart _ _ => true
  | .launchLate _ _ => true
  | .ethLinkChange _ _ _ => true
  | .ptpSync _ _ _ => true
  | .ptpFollowUp _ _ => true
  | .ptpDelayReq _ _ => true
  | .ptpDelayResp _ _ => true
  | .ptpPdelayReq _ _ => true
  | .ptpPdelayResp _ _ _ => true
  | .ptpPdelayRespFollowUp _ _ => true
  | .ptpAnnounce _ _ _ => true
  | .ptpMessageSend _ _ => true
  | .ptpReferenceLost _ => true
  | .ppsInEdge => true
  | .ppsInLost => true
  | .ppsOutSecond => true
  | .syncoutPulse => true
  | .ethCalibrationDone _ trips _ => decide (trips.length ≤ 64)
  | .ethClearCounters _ => true
  | .mdioRead _ => true
  | .mdioWrite _ => true
  | .calibrate _ => true
  | .txtsPop _ => true
  | .tbClearCounters _ => true
  | .capture _ => true
  | .setTime _ => true
  | .scStale _ => true
  | .scWatchdogLost _ => true
  | .keySet _ => true
  | .scClearCounters _ => true
  | .pairDiscrepancy _ => true
  | .deliberateResetFall _ _ => true
  | .deliberateResetRise _ _ => true
  | .lockNoticeLapse _ => true
  | .tripInAssert _ => true
  | .tripInNegate _ => true
  | .sealLoopBreak => true
  | .keepaliveLoss => true
  | .sfClearCounters _ => true
  | .fldInterfaceFail => true
  | .vfdLow _ => true
  | .vfdRecover _ => true
  | .diChange _ _ => true
  | .wireBreak _ _ => true
  | .overloadTrip _ _ => true
  | .thermalShutdown _ => true
  | .openOffDetect _ => true
  | .openOnDetect _ => true
  | .stuckOnDetect _ => true
  | .stuckOffDetect _ _ => true
  | .darkTestStart => true
  | .darkTestEnd _ _ => true
  | .vfStateChange _ _ _ => true
  | .clearFault _ => true
  | .fldClearCounters _ => true
  | .fdOvertemp _ _ => true
  | .sigSample _ _ => true
  | .overrangeStart _ => true
  | .overrangeEnd _ => true
  | .settlingEnd _ => true
  | .sdSyncResync _ => true
  | .coefSwapPoint => true
  | .calPointDone _ _ => true
  | .rotationSlotStart _ => true
  | .handoverMatch _ => true
  | .sigClearCounters _ => true
  | .readPage _ => true
  | .programPage _ => true
  | .eraseBlock _ => true
  | .descWrite _ => true
  | .scrubNow _ => true
  | .nvmClearCounters _ => true
  | .nandOpComplete _ flips => decide (flips.length ≤ 65536)
  | .scrubPassStart _ => true
  | .powerFailSaveStart => true
  | .powerFailSaveEnd _ => true
  | .pfailResume => true
  | .activationPageDone _ => true
  | .regionErase _ => true
  | .regionWrite _ => true
  | .slotArm _ => true
  | .slotDisarm _ => true
  | .cfgCommit _ => true
  | .pkhProgram _ => true
  | .releaseKept _ => true
  | .hostGo _ _ _ => true
  | .restart _ => true
  | .kloulBootPortTimeout => true
  | .bootParcelReceived _ _ _ _ _ _ => true
  | .hostMemoryRead hwa off n _ => decide (off < if hwa then 0x1000000 else 0x800000) && decide (0 < n) && decide (n ≤ 4096)
  | .hostMemoryWrite hwa off data _ _ => decide (off < if hwa then 0x1000000 else 0x800000) && decide (0 < data.length) && decide (data.length ≤ 4096)
  | .hostAtomicOp hwa off _ n _ _ => decide (off < if hwa then 0x1000000 else 0x800000) && (n == 4 || n == 8 || n == 16)
  | .bridgeReset _ => true
  | .dmaToHost _ => true
  | .dmaFromHost _ => true
  | .dmaCompletionReceived _ data => decide (data.length ≤ 4096)
  | .dmaCompletionTimeout => true
  | .hpClearCounters _ => true
  | .msixPendingRelease _ => true
  | .mbSend _ => true
  | .mbAck _ => true
  | .epReset _ => true
  | .mbClearCounters _ => true
  | .ackTimeout _ => true
  | .hsemReadAcquire _ _ rivals => rivals.all (fun r => decide (r < 32))
  | .hsemReleaseWrite _ _ _ => true
  | .doorbellSetWrite _ _ => true
  | .doorbellClearWrite _ => true
  | .resultRequestWrite _ => true
  | .eventRecordEnter => true
  | .rateTokenAdd _ => true
  | .freeze _ => true
  | .unfreeze _ => true
  | .freezeTimeout => true
  | .copy _ => true
  | .clear _ _ => true
  | .evrClearCounters _ => true
  | .archivePageWrite => true
  | .logRestore => true
  | .resetSourceAssert _ => true
  | .resetSourceNegate _ => true
  | .resetStageRelease board => board.boot.all (fun v => decide (v < 4)) && board.roles.all (fun v => decide (v < 8))
  | .trimLoadDone _ => true
  | .strapResample boot clk roles _ => boot.all (fun v => decide (v < 4)) && clk.all (fun v => decide (v < 4)) && roles.all (fun v => decide (v < 8))
  | .clockLoss _ => true
  | .clockReturn _ => true
  | .resetCore _ => true
  | .resetSys _ => true
  | .supplyThresholdCross _ _ _ => true
  | .internalWarning _ => true
  | .tempSample temps _ _ => decide (temps.length ≤ 8)
  | .ringOscMeasure _ _ => true
  | .stbySecondCopy => true
  | .wakeAlarm => true
  | .weirGrant _ => true
  | .pwrClearCounters _ => true
  | .clearWake _ => true
  | .klChannelLock _ _ => true
  | .klDeskewComplete _ => true
  | .klParcelError _ _ => true
  | .pcieLinkUp _ _ => true
  | .pcieConfigAccess _ _ => true
  | .hpPinChange _ _ => true
  | .mdioTransferDone _ => true
  | .olcLoadDone => true
  | .evrCopyDone => true
  | .ethTxDone _ => true
  | .launchCopyDone _ _ => true
  | .outputChainSample _ => true
  | .faultConditionEnd _ _ => true

end Sys2Proof
end

