-- ==== Sys2Proof/Tests/Slice0.lean ====
section
/-! SUPPORT. Tests of the model on small states, and a witness for the hypotheses of every statement that has any: a
theorem witness_<Name> names one concrete state, and operands, that meet the hypotheses of the clauses together. -/

namespace Sys2Proof.Tests

set_option Elab.async false

open Sys2Proof Sys2Proof.Machine

/-- The reset device with some register fields set. -/
def dev (l : List (Fld × Nat)) : Device := l.foldl (fun d f => d.setF f.1 f.2) {}

/-- A state with an empty queue. -/
def at_ (d : Device) : State := ⟨d, []⟩

/-! ## Aznum -/

/-- Engine 0 runs context 0 in an instance. -/
def running : Device := dev [(Reg.CE_STATUS_STATE 0, 3), (Reg.TASK_STAT_STATE 0 0, 2)]

/-- Registers with LA = 1, one saved level, one return position, and counts above 1. -/
def ctxA : Ctx := { ctx0 0 with la := true, lsp := 1, csp := 1, a := 3, b := 10, x := 5, y := 7, z := true }

/-- Registers with LA = 0 and counts of 1. -/
def ctxB : Ctx := { ctx0 0 with a := 0, b := 0x80000000, x := 1, y := 1 }

def sA : State := at_ (running.setCtx 0 0 ctxA)
def sB : State := at_ (running.setCtx 0 0 ctxB)

theorem sA_executes : sA.dev.Executes 0 0 :=
  ⟨by decide +kernel, by decide +kernel, by decide +kernel, by decide +kernel, by decide +kernel⟩

theorem sB_executes : sB.dev.Executes 0 0 :=
  ⟨by decide +kernel, by decide +kernel, by decide +kernel, by decide +kernel, by decide +kernel⟩

theorem witness_MovesAndIndexes : sA.dev.Executes 0 0 := sA_executes

theorem witness_BitLogic : sA.dev.Executes 0 0 ∧ ctxA.lsp < 32 ∧ ctxA.lsp = 0 + 1 ∧ ctxA.la = true ∧ ctxB.la = false ∧
    sA.dev.BitTarget 0 0 ctxA 0 2 0xFFFFF areaM 0xFFFFF ∧
    sA.dev.Clean (sA.dev.bitKeys 0 0 areaM 0xFFFFF) ∧ areaM ≠ areaI ∧ areaM ≠ areaT ∧ areaM ≠ areaC ∧
    sA.dev.BitTarget 0 0 ctxA 3 4 8 areaI 0 := by
  refine ⟨sA_executes, ?_⟩
  unfold Device.BitTarget Device.Points Device.Clean
  decide +kernel

theorem witness_ControlFlow : sA.dev.Executes 0 0 ∧ sB.dev.Executes 0 0 ∧
    ctxA.Meets 1 ∧ ¬ ctxB.Meets 1 ∧ (32767 : Int) = (ctxA.pc.toNat % 32768 : Nat) + (32767 : BitVec 22).toInt ∧
    ctxA.csp < 16 ∧ 1 < ctxA.x.toInt ∧ 1 < ctxA.y.toInt ∧ ctxB.x.toInt ≤ 1 ∧ ctxB.y.toInt ≤ 1 ∧ ctxA.csp = 0 + 1 ∧
    ctxA.la = true ∧ ctxB.la = false := by
  refine ⟨sA_executes, sB_executes, show ctxA.la = true from rfl, show ¬ ctxB.la = true by decide, ?_⟩
  decide +kernel

theorem witness_LoadsAndStores : sA.dev.Executes 0 0 ∧
    sA.dev.WordTarget 0 0 ctxA 0 2 (0x40000 - 4) 4 4 areaM (0x40000 - 4) ∧
    sA.dev.WordTarget 0 0 ctxA 0 2 (0x40000 - 1) 1 1 areaM (0x40000 - 1) ∧
    sA.dev.Clean (sA.dev.areaKeys 0 0 areaM (0x40000 - 4) 4) ∧ areaM ≠ areaI ∧ areaM ≠ areaT ∧ areaM ≠ areaC := by
  refine ⟨sA_executes, ?_⟩
  unfold Device.WordTarget Device.Points Device.Clean
  decide +kernel

/-- A BMOV of 5 words from M:0 to M:32 of which 2 are copied before a preemption. -/
def ctxM : Ctx := { ctxA with a := 0x20000000, b := 0x20000100 }
def sM : State := at_ (running.setCtx 0 0 ctxM)

theorem witness_BlockMove : sM.dev.Executes 0 0 ∧ ctxM.x ≠ 0 ∧ 2 = min 2 ctxM.x.toNat ∧
    ctxM.a.toNat = areaM * 2 ^ 28 + 8 * 0 ∧ ctxM.b.toNat = areaM * 2 ^ 28 + 8 * 32 ∧ 32 % 4 = 0 ∧
    areaM ≠ areaT ∧ areaM ≠ areaC ∧ areaM ≠ areaI ∧ 32 + ctxM.x.toNat * 4 ≤ sM.dev.areaSize areaM ∧
    (∀ i, i < 2 → sM.dev.Clean (sM.dev.areaKeys 0 0 areaM (0 + i * 4) 4)) ∧
    (∀ i, i < 2 → sM.dev.Clean (sM.dev.areaKeys 0 0 areaM (32 + i * 4) 4)) ∧
    sM.dev.areaBase areaM + 0 + 2 * 4 ≤ sM.dev.areaBase areaM + 32 ∧ { ctxM with x := 0 }.x = 0 := by
  refine ⟨⟨by decide +kernel, by decide +kernel, by decide +kernel, by decide +kernel, by decide +kernel⟩, ?_⟩
  unfold Device.Clean
  decide +kernel

theorem witness_IntegerArithmetic : sA.dev.Executes 0 0 := sA_executes

theorem witness_Division : sA.dev.Executes 0 0 ∧ sA.dev.ctx 0 0 = ctxA ∧ ctxA.a ≠ 0 ∧
    ¬(ctxA.b = 0x80000000 ∧ ctxA.a = 0xFFFFFFFF) ∧ sB.dev.Executes 0 0 ∧ (sB.dev.ctx 0 0).a = 0 ∧
    (at_ (sB.dev.setF (Reg.TASK_CFG_DIV0_SAT 0 0) 1)).dev.bit (Reg.TASK_CFG_DIV0_SAT 0 0) = true := by
  refine ⟨sA_executes, by decide +kernel, by decide +kernel, by decide +kernel, sB_executes, by decide +kernel, by decide +kernel⟩

theorem witness_FloatArithmetic : sA.dev.Executes 0 0 ∧ fAdd 0x3F800000 0x40000000 = some 0x40400000 ∧
    fSub 0x40400000 0x40000000 = some 0x3F800000 ∧ fMul 0x3FC00000 0x40000000 = some 0x40400000 ∧
    fDiv 0x40400000 0x40000000 = some 0x3FC00000 ∧ fSqrt 0x40800000 = some 0x40000000 := by
  refine ⟨sA_executes, ?_⟩
  decide +kernel

theorem witness_Comparison : sA.dev.Executes 0 0 ∧ (5 : BitVec 4).toNat < 6 ∧ 12 ≤ (12 : BitVec 4).toNat ∧
    6 ≤ (11 : BitVec 4).toNat ∧ (11 : BitVec 4).toNat < 12 := by
  refine ⟨sA_executes, ?_⟩
  decide

theorem witness_ShiftsAndConversions : sA.dev.Executes 0 0 ∧ (31 : BitVec 22).toNat < 32 ∧ (32 : BitVec 22).toNat = 32 ∧
    fIsInf 0x41200000 = false ∧ fIsNaN 0x41200000 = false ∧ fToInt 0x41200000 false = 10 ∧
    2 ^ 31 ≤ fToInt 0x4F000000 false ∧ fToInt 0xCF800000 true < -(2 ^ 31) := by
  refine ⟨sA_executes, ?_⟩
  decide +kernel

theorem witness_LimitAndScale : sA.dev.Executes 0 0 ∧
    sA.dev.WordTarget 0 0 ctxA 0 2 (0x40000 - 16) 4 16 areaM (0x40000 - 16) ∧
    sA.dev.WordTarget 0 0 ctxA 0 2 (0x40000 - 8) 4 8 areaM (0x40000 - 8) ∧
    sA.dev.Clean (sA.dev.areaKeys 0 0 areaM (0x40000 - 16) 16) ∧
    (fSub 0x40000000 0 = some 0x40000000 ∧ fSub 0x41200000 0 = some 0x41200000 ∧ fSub 0x40800000 0 = some 0x40800000 ∧
      fMul 0x40000000 0x41200000 = some 0x41A00000 ∧ fDiv 0x41A00000 0x40800000 = some 0x40A00000 ∧
      fAdd 0x40A00000 0 = some 0x40A00000) := by
  refine ⟨sA_executes, ?_⟩
  unfold Device.WordTarget Device.Points Device.Clean
  decide +kernel

/-- Cell 4,095 was last run by TP and runs; cell 0 by TON. -/
def sT : State := at_ { sA.dev with ce := { sA.dev.ce with
  tcells := [(0, ⟨5, 0, 0, 1, 0, false, true, true⟩), (4095, ⟨5, 0, 0, 3, 0, true, true, true⟩)] } }

theorem sT_executes : sT.dev.Executes 0 0 :=
  ⟨by decide +kernel, by decide +kernel, by decide +kernel, by decide +kernel, by decide +kernel⟩

theorem witness_Timers : sT.dev.Executes 0 0 ∧ (4095 : BitVec 16).toNat < 4096 ∧ (sT.dev.tcell 4095).kind = 3 ∧
    (sT.dev.tcell 4095).run = true ∧ (sT.dev.tcell 0).kind = 1 ∧ (sT.dev.tcell 0).inp = true ∧
    (sT.dev.tcell 1).kind = 0 ∧ ctxA.la = true ∧ ctxB.la = false := by
  refine ⟨sT_executes, ?_⟩
  decide +kernel

theorem witness_Counters : sA.dev.Executes 0 0 ∧ (4095 : BitVec 16).toNat < 4096 := ⟨sA_executes, by decide⟩

/-- Semaphore 63 belongs to engine 0 context 0, semaphore 1 to the host. -/
def sS : State := at_ (sA.dev.wr (Reg.HSEM 63) 0x00400000 |>.wr (Reg.HSEM 1) 0x01C00000)

theorem witness_SemaphoreInstructions : sS.dev.Executes 0 0 ∧ (63 : BitVec 16).toNat < 64 ∧ sS.dev.semOwner 63 = 0x40 ∧
    sS.dev.semOwner 1 = 0x1C0 ∧ sS.dev.semOwner 0 = 0 ∧ sget zeroAt sS.dev.mb.q 0 < 32 ∧
    (∀ r ∈ [1, 25], r ≤ 25 ∧ r ≠ (0 : Eng).val) := by
  refine ⟨⟨by decide +kernel, by decide +kernel, by decide +kernel, by decide +kernel, by decide +kernel⟩, ?_⟩
  decide +kernel

/-- Endpoint 0 holds a notice of endpoint 24. -/
def sN : State := at_ (sA.dev.setF (Reg.MB_EP_W2_VALID 0) 1 |>.setF (Reg.MB_EP_W2_SENDER 0) 24)

theorem witness_MailboxInstructions : sA.dev.Executes 0 0 ∧ sN.dev.Executes 0 0 ∧
    (24 ≠ (0 : Eng).val ∧ sA.dev.bit (Reg.MB_EP_W2_VALID 24) = false ∧ sA.dev.fld (Reg.MB_EP_W3_OUT_STATE 0) ≠ 1) ∧
    sA.dev.engState 1 = 0 ∧ sN.dev.bit (Reg.MB_EP_W2_VALID 0) = true ∧ sN.dev.fld (Reg.MB_EP_W2_SENDER 0) = 24 ∧
    sA.dev.bit (Reg.MB_EP_W2_VALID 0) = false := by
  refine ⟨sA_executes, ⟨by decide +kernel, by decide +kernel, by decide +kernel, by decide +kernel, by decide +kernel⟩, ?_⟩
  decide +kernel

theorem witness_DoorbellInstructions : sA.dev.Executes 0 0 ∧ (24 : BitVec 16).toNat < 25 ∧
    (0 : Word) &&& ~~~ sA.dev.rd (Reg.MB_EP_W4 24) &&& ~~~ sA.dev.rd (Reg.MB_EP_W6 24) = 0 := by
  refine ⟨sA_executes, ?_⟩
  decide +kernel

theorem witness_EventAndTime : sA.dev.Executes 0 0 ∧ (1023 : BitVec 16).toNat < 1024 := ⟨sA_executes, by decide⟩

theorem witness_Traps : sA.dev.Executes 0 0 ∧ sA.dev.migrating 0 0 = false ∧
    sA.dev.fld (Reg.TASK_CFG_TRAP_REACT 0 0) ≤ 1 ∧ wordLegal (0xFFFFFFFF : Word).toNat = false := by
  refine ⟨sA_executes, ?_⟩
  decide +kernel

/-! ## The machine, engines, tasks -/

theorem witness_StepRunsFront : ({ State.reset with pending := [.voteFreeze, .sourceLost] } : State).pending
    = .voteFreeze :: [.sourceLost] ∧ State.reset.pending = [] := ⟨rfl, rfl⟩

/-- No source of Sluice asserts, and channel 0 is driven. -/
def dG : Device := { ((({} : Device).wr Reg.SF_SLUICE_STAT 0).wr Reg.SF_GATE 0) with
  fd := { on := 1 }, sf := { held := 0 } }

theorem dG_stat : (dG.rd Reg.SF_SLUICE_STAT).toNat = 0 := by decide +kernel
theorem dG_gate : (dG.rd Reg.SF_GATE).toNat = 0 := by decide +kernel

theorem dG_gated : dG.Gated := by
  refine ⟨?_, ?_, fun h => absurd h (by decide +kernel)⟩
  · intro _ _ h
    obtain ⟨i, _, h1, _⟩ := h
    rw [dG_stat, Nat.zero_testBit] at h1
    cases h1
  · intro c _ h
    rw [dG_gate, Nat.zero_testBit] at h
    cases h

theorem witness_GatedKept : dG.Gated ∧ dG.fd.on.testBit 0 = true ∧ step (at_ dG) = .next ⟨(idle dG).sluice, []⟩ :=
  ⟨dG_gated, by decide, rfl⟩

theorem witness_BusyDiscards : portOf (.halt 23 0) = some (portCE 23) ∧
    (dev [((portCE 23).busy, 1)]).fld (portCE 23).busy = 1 ∧ portOf (.clearWake 0) = some portPWR ∧
    (dev [(portPWR.busy, 1)]).fld portPWR.busy = 1 := by decide +kernel

theorem witness_CountersClear : State.reset.dev.fld portTICK.busy = 0 ∧ State.reset.dev.fld portTASK.busy = 0 ∧
    (∀ e, e < 24 → State.reset.dev.fld (portCE e).busy = 0) ∧ (∀ p ∈ [portTRI, portKL, portFO, portSB, portSBG, portETH,
      portTB, portSC, portSF, portFLD, portSIG, portNVM, portHP, portMB, portEVR, portPWR],
      State.reset.dev.fld p.busy = 0) := by decide +kernel

/-- The scrubber is enabled; codeword 8 holds a counted error. -/
def dE : Device := (dev [(Reg.CE_SCRUB_CFG_EN, 1)]).setEcc 8 .counted

theorem witness_ScrubbedMemory : dE.bit Reg.CE_SCRUB_CFG_EN = true ∧ dE.ecc 8 = .counted ∧
    dE.ecc (0x40000000 + 48 * 32768 - 1) = .clean ∧ eccEng (0x40000000 + 48 * 32768 - 1) < 24 ∧
    dE.ecc 0 = .clean ∧ eccEng 0 < 24 ∧ dE.bit Reg.CE_MEM_ERR_INFO_VALID = false ∧
    (dE.setF Reg.CE_MEM_ERR_INFO_VALID 1).bit Reg.CE_MEM_ERR_INFO_VALID = true := by decide +kernel

theorem witness_EngineFaults : running.engState 0 ≠ 0 ∧ running.engState 0 ≠ 6 ∧ 5 ≤ 5 ∧ 0 < 1 ∧ 4 < 5 := by
  decide +kernel

/-- DEBUG is permitted; engine 0 runs context 0 at index 0, with a breakpoint there; engine 1 is halted in context 2 at a
NOP. -/
def dD : Device := { (dev [(Reg.SF_SEAL_STAT_PERM_NOW, 4), (Reg.CE_STATUS_STATE 0, 3), (Reg.TASK_STAT_STATE 0 0, 2),
  (Reg.CE_BP_EN 0 0, 1), (Reg.CE_BP_PC 0 0, 0), (Reg.CE_BP_ANY_CTX 0 0, 1), (Reg.CE_STATUS_STATE 1, 4),
  (Reg.TASK_STAT_STATE 1 2, 2)]) with prog := [(65536, 0x6D000000)] }

theorem witness_DebugCommands : dD.perm permDebug = true ∧ dD.debugLane = true ∧ dD.engState 0 = 3 ∧ dD.engState 1 = 4 ∧
    (∀ e, e < 2 → dD.fld (portCE e).busy = 0) ∧ (sget noReplay dD.ce.replay 1).length < 64 ∧
    copiesDiffer 1 dD.ce.main (applyReplay 1 dD.ce.chk (sget noReplay dD.ce.replay 1)) 16 = none ∧
    (∀ c, c < 16 → sget falseAt dD.task.overdue (16 * 1 + c) = false) ∧ dD.pickCtx 1 16 = some 2 ∧
    dD.ctxState 1 2 = 2 ∧ dD.ecc (fetchKey 1 (dD.ctx 1 2).pc) = .clean ∧ (dD.ctx 1 2).pc.toNat % 32768 ≠ 32767 ∧
    dD.fetched 1 (dD.ctx 1 2).pc = 0x6D000000 ∧ dD.pickCtx 0 16 = some 0 ∧ dD.ctxState 0 0 = 2 ∧
    dD.bit (Reg.CE_BP_EN 0 0) = true ∧ dD.fld (Reg.CE_BP_PC 0 0) = (dD.ctx 0 0).pc.toNat % 32768 ∧
    dD.bit (Reg.CE_BP_ANY_CTX 0 0) = true := by decide +kernel

theorem witness_DebugNeedsSeal : running.perm permDebug = false ∧ running.fld (portCE 0).busy = 0 := by decide +kernel

/-- DBG_ACCESS is selected, DEBUG permitted, and an access runs. -/
def dTap : Device := { (dev [(Reg.SF_SEAL_STAT_PERM_NOW, 4)]) with ce := { tapIr := 8, dbgRun := some ⟨1, 5, 0⟩ } }

theorem witness_TapAccess : dTap.ce.tapIr = 8 ∧ dTap.perm permDebug = true ∧ dTap.ce.dbgRun = some ⟨1, 5, 0⟩ ∧
    ({ dTap with ce := { tapIr := 8 } } : Device).ce.dbgRun = none ∧
    ({ ({} : Device) with ce := { tapIr := 8 } } : Device).perm permDebug = false := by decide +kernel

/-- Engine 0 runs; the instance of context 0 has DL_KIND REL, that of context 1 is due at the t_VOTE of tick 0. -/
def dO : Device := { (dev [(Reg.CE_STATUS_STATE 0, 3), (Reg.TASK_STAT_STATE 0 0, 2), (Reg.TASK_CFG_DL_KIND 0 0, 1),
  (Reg.TASK_CFG_OVR_REACT 0 0, 0), (Reg.TASK_CFG_OVR_REACT 0 1, 1)]) with
  task := { rel := [(0, some ⟨0, 0, 0, 0, none, none, false⟩), (1, some ⟨0, 0, 0, 0, some 0, none, false⟩)] } }

theorem witness_DeadlineOverruns : dO.engState 0 = 3 ∧ dO.relOf 0 0 = some ⟨0, 0, 0, 0, none, none, false⟩ ∧
    dO.fld (Reg.TASK_CFG_DL_KIND 0 0) = 1 ∧ dO.fld (Reg.TASK_CFG_OVR_REACT 0 0) = 0 ∧
    dO.relOf 0 1 = some ⟨0, 0, 0, 0, some 0, none, false⟩ ∧ 0 ≤ dO.tickCount ∧
    dO.fld (Reg.TASK_CFG_OVR_REACT 0 1) = 1 ∧ dO.bit (Reg.TASK_STAT_LATCH 0 1) = false := by decide +kernel

/-- Tick 1 has released; contexts 0 and 1 of engine 0 are enabled event tasks, IDLE and PENDING. -/
def dTr : Device := { (dev [(Reg.CE_STATUS_STATE 0, 3), (Reg.TASK_CFG_EN 0 0, 1), (Reg.TASK_CFG_KIND 0 0, 1),
  (Reg.TASK_CFG_EN 0 1, 1), (Reg.TASK_CFG_KIND 0 1, 1), (Reg.TASK_STAT_STATE 0 1, 1)]) with task := { tick1 := true } }

theorem witness_TriggerReleases : dTr.engState 0 = 3 ∧ dTr.task.tick1 = true ∧ dTr.voted 0 = false ∧
    (∀ c, c < 2 → dTr.bit (Reg.TASK_CFG_EN 0 c) = true ∧ dTr.fld (Reg.TASK_CFG_KIND 0 c) = 1) ∧
    dTr.ctxState 0 0 = 0 ∧ dTr.ctxState 0 1 = 1 ∧ dTr.fld portTASK.busy = 0 := by decide +kernel

/-- Lane A in VOTING; the mark of engine 0 is its step count, that of engine 1 lies behind it; flag 3 is unagreed. -/
def dGr : Device := { (dev [(Reg.SYS_ROLE_STRAP_ROLE, 1), (Reg.TRI_LANE_STAT_STATE_A, 1), (Reg.TRI_LANE_STAT_STATE, 1),
  (Reg.CE_STATUS_STATE 0, 3), (⟨Reg.TASK_ENG_RETIRED_LO 1, 0, 32⟩, 9)]) with
  task := { boundarySet := [(0, ⟨1, 3, 0, 0, none, none, false⟩)], mark := [(0, some 0), (1, some 8)], flags := [3],
            flagAge := [(3, 3)] } }

theorem witness_GridDelivery : dGr.isLane = true ∧ (1 : Fin 3).val ≠ dGr.lane ∧ (1 : Fin 3).val ≠ 2 ∧
    sget noMark dGr.task.mark 0 = some 0 ∧ dGr.retired 0 = 0 ∧
    dGr.task.boundarySet = [(16 * (0 : Eng).val + (0 : CtxNo).val, ⟨1, 3, 0, 0, none, none, false⟩)] ∧
    dGr.task.agreedSet = [] ∧ dGr.engState 0 = 3 ∧ dGr.ctxState 0 0 = 0 ∧ sget noMark dGr.task.mark 1 = some 8 ∧
    8 < dGr.retired 1 ∧ dGr.votesSelf = true ∧ dGr.fld Reg.TRI_LANE_STAT_STATE ≠ 4 ∧
    3 ≤ sget zeroAt dGr.task.flagAge 3 ∧ 3 ∈ dGr.task.flags := by decide +kernel

/-! ## Images and the tick -/

/-- A force of bit 0 of Q is asked for at entry 1,023; entry 0 is in force. -/
def dF : Device := { (dev [(Reg.SF_SEAL_STAT_PERM_NOW, 2), (⟨Reg.IMG_FORCE_ARG0, 0, 32⟩, 0x81000000),
  (⟨Reg.IMG_FORCE_ARG1, 0, 32⟩, 1)]) with img := { force := [(0, some (0x81000001, 1))] } }
/-- A lane whose staged change is not confirmed. -/
def dFl : Device := { (dev [(Reg.SYS_ROLE_STRAP_ROLE, 1), (portIMG.busy, 1)]) with
  img := { staged := [.clear 0], stagedOwn := true, stagedAge := 4 } }

theorem witness_ForceCommands : dF.forceArgs = true ∧ dF.permLanes permForce = true ∧
    forceClash dF.img.force 1023 (dF.rd Reg.IMG_FORCE_ARG0) = false ∧ sget noForce dF.img.force 0 ≠ none ∧
    sget noForce dF.img.force 1 = none ∧ dF.fld portIMG.busy = 0 ∧ dFl.isLane = true ∧ dFl.img.staged ≠ [] ∧
    dFl.img.confirmed = false ∧ 4 ≤ dFl.img.stagedAge ∧ dFl.img.stagedOwn = true ∧ dFl.fld portIMG.busy = 1 := by
  decide +kernel

/-- A change of engine 0 with target tick 4. -/
def olc0 : Olc := ⟨1, 2, 0, 4, [], [], false⟩
/-- A device in a state of the online change, with that change loaded. -/
def dOl (st : Nat) : Device := { (dev [(Reg.SF_SEAL_STAT_PERM_NOW, 1), (Reg.IMG_OLC_STAT_STATE, st),
  (⟨Reg.IMG_OLC_TICK_LO, 0, 32⟩, 2)]) with img := { olc := some olc0 } }
/-- LOADING from SDM 0, where no package lies: REASON 1. -/
def dOlL : Device := (dev [(Reg.IMG_OLC_STAT_STATE, olcLoading), (portIMG.busy, 1)])
/-- A package without records for bundle 0, change 1, no engine. -/
def pkg : List Byte :=
  let l := leBytes 4 0x314C4F43 ++ leBytes 4 0 ++ leBytes 2 1 ++ leBytes 2 0 ++ leBytes 4 0 ++ leBytes 4 0 ++ leBytes 4 412
    ++ List.replicate 384 0
  l ++ leBytes 4 (crc32c l).toNat
/-- The reset device with that package at SDM 0, LOADING. -/
def dOlP : Device := { dOlL with mem := (List.range 412).filterMap (fun i => if pkg.getD i 0 = 0 then none
  else some (i, pkg.getD i 0)) }

theorem witness_OnlineChange : (dOl olcLoaded).permLanes permOlc = true ∧ (dOl olcLoaded).fld portIMG.busy = 0 ∧
    ((dOl olcLoaded).rd Reg.IMG_OLC_SRC).toNat % 4 = 0 ∧ (dOl olcLoaded).olcState = olcLoaded ∧
    (dOl olcLoaded).tickCount + 2 ≤ (dOl olcLoaded).olcTarget ∧ (dOl olcLoaded).isLane = false ∧
    (dOl olcLoaded).img.olc = some olc0 ∧ (dOl olcArmed).olcState = olcArmed ∧
    ((dOl olcArmed).setF ⟨Reg.TICK_COUNT_LO, 0, 32⟩ 4).tickCount = olc0.target ∧ olc0.entries = [] ∧
    olc0.mask < 2 ^ 24 ∧ (dOl olcDraining).olcState = olcDraining ∧
    (∀ e, e < 24 → (dOl olcDraining).draining e = false) ∧ dOlL.olcState = olcLoading ∧ dOlL.fld portIMG.busy = 1 ∧
    dOlL.olcReason [] 0 = 1 := by decide +kernel

set_option maxRecDepth 100000 in
theorem witness_OnlineChange_good : pkg.length = 412 ∧ dOlP.olcState = olcLoading ∧
    leNat (dOlP.seenBytes 20 4) = 412 ∧ dOlP.seenBytes 0 412 = pkg := by decide +kernel

set_option maxRecDepth 100000 in
theorem witness_OnlineChange_reason : dOlP.olcReason pkg 412 = 0 ∧ (∀ k ∈ sharedKeys 0 412, dOlP.ecc k = .clean) := by
  decide +kernel

/-- The generator has started with the source SYNCIN; the time base stands 1 ms after the boundary. -/
def dS (ns : Nat) : Device := { (dev [(Reg.TICK_STATUS_SRC_ACT, 1), (Reg.TICK_PERIOD_PERIOD_US, 1000),
  (Reg.TICK_CFG_LOSS_CNT, 4)]) with
    tick := { released := true, started := true, nextNs := 1000000, noEv := 4, wdArmed := true }
    tb := { ns := ns } }
def dS0 : Device := { dS 0 with tick := { released := true } }

theorem witness_TickSources : (dS 1000100).ticking = true ∧ (dS 1000100).srcAct = 1 ∧ (dS 1000100).srcLost = false ∧
    (dS 1000100).tick.started = true ∧ (dS 1000100).bit Reg.TICK_CFG_SYNC_EDGE = false ∧
    (dS 1000100).phaseOf ((dS 1000100).ts64 / 4 * 4) = 100 ∧
    (100 : Int) ≠ (((dS 1000100).ts64 / 4 * 4 : Nat) : Int) - (dS 1000100).tick.boundaryTs ∧
    1000 * (dS 500000).periodUs < 4 * ((dS 500000).phaseOf ((dS 500000).ts64 / 4 * 4)).natAbs ∧
    max 1 ((dS 0).fld Reg.TICK_CFG_LOSS_CNT) ≤ (dS 0).tick.noEv ∧ dS0.ticking = true ∧ dS0.tick.started = false ∧
    dS0.tick.firstDue = false ∧ dS0.srcLost = false ∧ dS0.srcAct = 1 ∧ dS0.isLane = false ∧ dS0.fld portTICK.busy = 0 ∧
    3 ≤ (dev [(Reg.TICK_STATUS_NR_CONSEC, 3)]).fld Reg.TICK_STATUS_NR_CONSEC ∧ ({} : Device).tick.nr3Told = false ∧
    dGr.votesSelf = true ∧ (dS 0).tick.wdArmed = true := by decide +kernel

/-- A running tick, ready and past t_VOTE; and one for whose end a freeze waits. -/
def dB : Device := { dS 0 with tick := { (dS 0).tick with phase := 4, ready := true } }

theorem witness_TickBoundaries : dS0.ticking = true ∧ dS0.isLane = false ∧
    ({ dS0 with tick := { released := true, firstDue := true } } : Device).tick.firstDue = true ∧
    dB.tick.stopNext = false ∧ dB.tick.started = true ∧ dB.isLane = false ∧ dB.bit Reg.FO_CFG_EN = false ∧
    dB.bit Reg.FO_CFG_ST_EN = false ∧ 3 ≤ dB.tick.phase ∧ dB.tick.ready = true ∧ dB.tick.noCommit = false ∧
    dB.tick.noState = false ∧ dB.ticking = true ∧ dB.bit Reg.TICK_EARLY_FIELD = false ∧
    (dS0.setF (Reg.CE_STATUS_STATE 5) 2).engState 5 = 2 ∧
    ({ dB with tick := { dB.tick with stopNext := true } } : Device).ticking = true := by decide +kernel

/-- After the boundary of tick 1, with a periodic task on engine 0 and a timer cell that reaches its preset. -/
def dP : Device := { dS 0 with
  regs := ((dS 0).setF ⟨Reg.TICK_COUNT_LO, 0, 32⟩ 1 |>.setF (Reg.TASK_CFG_EN 0 0) 1 |>.setF (Reg.CE_STATUS_STATE 0) 3
    |>.setF (Reg.TASK_PER_PERIOD_N 0 0) 2 |>.setF (Reg.TASK_PER_PHASE 0 0) 1 |>.setF (Reg.TASK_TEXP_EN 31) 1
    |>.setF (Reg.TASK_TEXP_CELL 31) 4095).regs
  tick := { (dS 0).tick with phase := 1 }
  ce := { tcells := [(4095, ⟨2, 0, 2000, 1, 1, false, true, true⟩)] } }
/-- A tick that is not ready. -/
def dNr : Device := { dP with task := { rel := [(0, some ⟨0, 0, 0, 0, some 1, none, false⟩)] } }

theorem witness_TickPhases : dP.ticking = true ∧ dP.tick.phase = 1 ∧ dP.isLane = false ∧ dP.bit Reg.FO_CFG_EN = false ∧
    dP.bit Reg.FO_CFG_ST_EN = false ∧ dP.fld Reg.LDR_STAT_RTYPE ≠ 2 ∧ dP.bit Reg.NVM_QUEUE_EN = false ∧
    dP.bit Reg.EVR_RING_EN = false ∧ 1 ≤ dP.tickCount ∧ dP.bit (Reg.TASK_CFG_EN 0 0) = true ∧
    dP.fld (Reg.TASK_CFG_KIND 0 0) = 0 ∧ dP.engState 0 = 3 ∧ dP.ctxState 0 0 = 0 ∧
    dP.tickCount % max 1 (dP.fld (Reg.TASK_PER_PERIOD_N 0 0)) = dP.fld (Reg.TASK_PER_PHASE 0 0) ∧
    dP.readyNow = true ∧ dNr.readyNow = false ∧ dNr.img.force = [] ∧ Memory.wf dNr.mem = true ∧
    (∀ i, i < 64 → dNr.bit (Reg.IMG_COPYA_EN i) = false) ∧ (dP.tcell 4095).run = true ∧
    (dP.tcell 4095).pt.toNat * baseUs (dP.tcell 4095).base ≤ (dP.tcell 4095).acc ∧
    (dP.tcell 4095).acc < (dP.tcell 4095).pt.toNat * baseUs (dP.tcell 4095).base + dP.periodUs ∧
    dP.bit (Reg.TASK_TEXP_EN 31) = true ∧ dP.fld (Reg.TASK_TEXP_CELL 31) = 4095 ∧
    (({ dB with tick := { dB.tick with phase := 3 } } : Device).setF Reg.TICK_EARLY_FIELD 1).bit Reg.TICK_EARLY_FIELD = true ∧
    ({ dB with tick := { dB.tick with phase := 3 } } : Device).tick.phase = 3 := by decide +kernel

/-! ## Mailboxes and semaphores -/

/-- Endpoint 24 holds a notice of engine 0, and has sent one to engine 1 that is PENDING. -/
def dMb : Device := dev [(Reg.MB_EP_W2_VALID 24, 1), (Reg.MB_EP_W2_SENDER 24, 0), (Reg.MB_EP_W3_OUT_STATE 0, 1),
  (Reg.MB_EP_W3_DEST 0, 24), (Reg.MB_EP_W7_EPCFG_ACK_TMO_MS 0, 5)]

theorem witness_MailboxCommands :
    (running.bit (Reg.MB_EP_W2_VALID 0) = false ∧ running.fld (Reg.MB_EP_W3_OUT_STATE 24) ≠ 1 ∧ running.engState 0 = 3) ∧
    running.fld portMB.busy = 0 ∧ dMb.engState 1 = 0 ∧ dMb.bit (Reg.MB_EP_W2_VALID 24) = true ∧
    dMb.fld (Reg.MB_EP_W2_SENDER 24) = 0 ∧ 0xFFFE < 0xFFFF ∧ dMb.fld (Reg.MB_EP_W3_OUT_STATE 0) = 1 ∧
    dMb.fld (Reg.MB_EP_W3_DEST 0) = 24 ∧ dMb.fld (Reg.MB_EP_W7_EPCFG_ACK_TMO_MS 0) ≠ 0 ∧
    (dev [(Reg.MB_EP_W3_OUT_STATE 24, 1), (Reg.MB_EP_W3_DEST 24, 1)]).bit (Reg.MB_EP_W2_VALID 24) = false ∧
    (dev [(Reg.MB_EP_W3_OUT_STATE 24, 1), (Reg.MB_EP_W3_DEST 24, 1)]).fld (Reg.MB_EP_W3_OUT_STATE 24) = 1 ∧
    (dev [(Reg.MB_EP_W3_OUT_STATE 24, 1), (Reg.MB_EP_W3_DEST 24, 1)]).fld (Reg.MB_EP_W3_DEST 24) = 1 := by decide +kernel

theorem witness_HostSemaphores : sS.dev.semOwner 1 = 0x1C0 ∧ sS.dev.semOwner 1 ≠ 0x1C1 ∧ sS.dev.semOwner 2 = 0 ∧
    sget zeroAt sS.dev.mb.q 2 < 32 ∧ (∀ r ∈ [0, 25], r ≤ 25 ∧ r ≠ 24) ∧ (24 : Fin 32).val ≤ 24 ∧ 24 < (25 : Fin 32).val ∧
    (let bits : Word := 0x100
     let fresh := bits &&& ~~~ sS.dev.rd (Reg.MB_EP_W4 24) &&& ~~~ sS.dev.rd (Reg.MB_EP_W6 24)
     fresh.toNat.testBit 8 = true) ∧ sget falseAt ({ ({} : Device) with mb := { published := [(15, true)] } } : Device).mb.published 15 = true := by
  decide +kernel

/-! ## Kloul and the triad -/

/-- Lane A in VOTING with other fields. -/
def laneA (l : List (Fld × Nat)) : Device :=
  dev ([(Reg.SYS_ROLE_STRAP_ROLE, 1), (Reg.TRI_LANE_STAT_STATE_A, 1), (Reg.TRI_LANE_STAT_STATE, 1)] ++ l)
/-- Port 0 of lane A, which leads to lane B, in a state. -/
def dK (st : Nat) : Device := laneA [(Reg.KL_STAT_STATE 0, st)]
/-- IDENTs of lane B at its port 1, of a second lane A, and of lane B at its port 0. -/
def idB : Ident := ⟨1, 2, 1, 0, 0, 0, 0, 0, false, 0⟩
def idA : Ident := { idB with role := 1 }
def idX : Ident := { idB with port := 0 }

theorem witness_KloulBringUp : (dK 1).klState 0 = 1 ∧ ((dK 1).klChannels 0).testBit 3 = true ∧ (dK 3).klState 0 = 3 ∧
    ((dK 3).klPort 0).unacked.length < 32 ∧ (dK 3).bit Reg.SYS_ROLE_NO_SERVICE = false ∧ (dK 4).klState 0 = 4 ∧
    (dK 5).klState 0 = 5 ∧ (dK 4).miswire 0 idB = 0 ∧ (dK 4).isLane = true ∧ idA.role = (dK 4).role ∧
    idX.role ≠ (dK 4).role ∧ idX.port ≠ 1 - 0 := by decide +kernel

def mK : Parcel := ⟨3, 65535, false, []⟩
/-- One parcel waits for its ACK, sent n times again. -/
def dKr (st n : Nat) : Device := { dK st with kl := { port := [(0, { resent := n, unacked := [mK] })] } }
/-- A master's port 0 in UP. -/
def dKm : Device := dev [(Reg.KL_STAT_STATE 0, 6)]

theorem witness_KloulReplay : ((dKr 6 0).klPort 0).waiting = [] ∧ ((dKr 6 3).klPort 0).resent < 4 ∧
    ((dKr 6 3).klPort 0).unacked = mK :: [] ∧
    ((dKr 6 3).klPort 0).unacked.filter (fun m => !seqBefore m.seq 65535) ≠ [] ∧
    4 ≤ ((dKr 6 4).klPort 0).resent ∧ (dKr 6 4).klState 0 ≠ 0 ∧ (dKr 6 4).klState 0 ≠ 7 ∧ dKm.isLane = false ∧
    dKm.klState 0 = 6 ∧ 4 ≤ (dK 4).klState 0 ∧ dKm.klVoting 0 = false ∧
    ((dK 6).setF Reg.TRI_LANE_STAT_STATE_B 1).klVoting 0 = true ∧ (dK 6).fld portKL.busy = 0 := by decide +kernel

/-- Lane A with port 0 UP, at a time ns after its boundary. -/
def dT (ns : Nat) : Device := { dK 6 with tb := { ns := ns } }
/-- Discrepancies of ten ticks. -/
def dDisc : Device := { laneA [] with tri := { discTicks := [(discKey 1 0, 10)] } }
/-- JOINING: the IDENTs of lanes A and B match. -/
def dRv : Device := { laneA [(Reg.TRI_LANE_STAT_STATE, 0)] with tri := { idents := [(0, some idB), (1, some idB)] } }
/-- One, two and three lanes in VOTING whose contributions arrived. -/
def dHop (n : Nat) : Device := { laneA [(Reg.TRI_LANE_STAT_STATE_B, if 2 ≤ n then 1 else 0),
  (Reg.TRI_LANE_STAT_STATE_C, if 3 ≤ n then 1 else 0)] with tri := (
    let c : List Byte := List.replicate 64 0
    let r := some [(0, crc32c c), (1, crc32c c), (2, crc32c c)]
    { contrib := [(0, some c), (1, some c), (2, some c)], receipt := [(0, r), (1, r), (2, r)] }) }

theorem witness_TriadHopper : (dT 5000).isLane = true ∧ 5 ≤ (dT 5000).klState 0 ∧
    ((dT 5000).phaseOf (dT 5000).ts64).natAbs ≤ 5000 ∧ 5000 < ((dT 5100).phaseOf (dT 5100).ts64).natAbs ∧
    (1 : Fin 3).val ≠ (dT 0).lane ∧ (∀ i, i < 64 → (dHop 1).bit (Reg.TRI_HMAPA_EN i) = false) ∧ (dHop 1).diClass 31 = 0 ∧
    (dHop 1).usedLanes = [0] ∧ (dHop 2).usedLanes = [0, 1] ∧ (dHop 3).usedLanes = [0, 1, 2] ∧ dDisc.isLane = true ∧
    10 ≤ sget zeroAt dDisc.tri.discTicks (discKey 1 0) ∧ sget falseAt dDisc.tri.discSent (discKey 1 0) = false ∧
    dRv.isLane = true ∧ dRv.fld Reg.TRI_LANE_STAT_STATE = 0 ∧ dRv.tri.startSet = [] ∧ 2 ≤ dRv.matching.length ∧
    dRv.matching.head? = some dRv.lane ∧ dRv.tri.startAt = none ∧
    ({ dRv with tri := { startSet := [1, 0] } } : Device).tri.startSet.head? = some (1 : Fin 3).val := by decide +kernel

def vm (st : Nat) : VoteMsg := ⟨[], true, st, [], false, [], false, none, 0, none, none, false, 0, 0⟩
def all3 : List (Fld × Nat) := [(Reg.TRI_LANE_STAT_STATE_B, 1), (Reg.TRI_LANE_STAT_STATE_C, 1)]
/-- Three lanes in VOTING; lane B is misaligned, absent and in the minority for three ticks. -/
def dV : Device := { laneA (all3 ++ [(Reg.TRI_CFG_MIN_LIMIT, 3), (Reg.KL_STAT_STATE 0, 6)]) with
  tri := { alignBad := [(1, 3)], absent := [(1, 3)], minLane := [(1, 3)], noMaj := 3, mismatch := 3, twoBad := 3 } }
/-- Segment 0x1000 (the container of connection 0) on which lanes B and C agree, and lane A has another CRC. -/
def dSeg : Device := { laneA (all3 ++ [(Reg.KL_STAT_STATE 0, 6), (Reg.SC_CONN_W1_EN 0, 1), (Reg.SC_CONN_W1_TX 0, 1)]) with
  tri := (let l : List Byte := List.replicate 20 0
    { votes := [(0, some { vm 1 with crcs := [(0x1000, 1)] }), (1, some { vm 1 with crcs := [(0x1000, crc32c l)] }),
      (2, some { vm 1 with crcs := [(0x1000, crc32c l)] })], own := [(0x1000, 1)] }) }

theorem witness_TriadVoting : dV.isLane = true ∧ (1 : Fin 3).val ≠ dV.lane ∧ dV.tri.exitSeen.contains 1 = false ∧
    (({ laneA [] with tri := { exitSeen := [1] } } : Device).tri.exitSeen.contains 1 = true) ∧
    (laneA []).votes 1 = false ∧ (vm 1).tick ≤ (laneA []).tickCount ∧ dSeg.elemRange 0x1000 = some (dSeg.areaBase areaN, 20) ∧
    dSeg.portTo 1 = 0 ∧ dSeg.klState 0 = 6 ∧ (dSeg.klPort 0).unacked.length < 32 ∧
    dSeg.bit Reg.SYS_ROLE_NO_SERVICE = false ∧ dSeg.toFetch.contains 0x1000 = true ∧
    dSeg.majority 0x1000 = some (crc32c (List.replicate 20 0)) ∧ dV.votesSelf = true ∧ dV.votes 1 = true ∧
    dV.votingLanes.length ≠ 2 ∧ 3 ≤ sget zeroAt dV.tri.alignBad 1 ∧ 3 ≤ sget zeroAt dV.tri.absent 1 ∧
    max 1 (dV.fld Reg.TRI_CFG_MIN_LIMIT) ≤ dV.minOf 1 ∧
    (dV.setF Reg.TRI_LANE_STAT_STATE_C 3).votingLanes.length = 2 ∧ 3 ≤ dV.tri.twoBad ∧ 3 ≤ dV.tri.noMaj ∧
    3 ≤ dV.tri.mismatch := by decide +kernel

/-- Lane A, excluded or in another state, beside two lanes in VOTING that run its bundle. -/
def dRm (st : Nat) : Device := { dev ([(Reg.SYS_ROLE_STRAP_ROLE, 1), (Reg.TRI_LANE_STAT_STATE_A, st),
  (Reg.TRI_LANE_STAT_STATE, st), (Reg.TRI_CFG_AUTO_READMIT, 1), (Reg.TRI_CFG_AUTO_RESET, 1),
  (⟨Reg.TICK_COUNT_LO, 0, 32⟩, 100), (⟨Reg.SF_SLUICE_STAT, 0, 32⟩, 0)] ++ all3
  ++ (List.range 24).map (fun e => (Reg.CE_STATUS_STATE e, 2))) with
  tri := { exclAt := some 0, runBundle := some 0, readmitTicks := 1000000, donor := some 1 } }
def unfit : Device := (dRm 3).setF ⟨Reg.SF_SLUICE_STAT, 0, 32⟩ 0xFFFFFFFF

theorem witness_TriadReadmission : (laneA all3).votesSelf = true ∧ (laneA all3).votes 1 = true ∧
    3 ≤ (laneA all3).votingLanes.length ∧ (dRm 3).fld Reg.TRI_LANE_STAT_STATE = 3 ∧ (dRm 3).readmitOk = true ∧
    (dRm 3).bit Reg.TRI_CFG_AUTO_READMIT = true ∧ (dRm 3).fld Reg.TRI_RDM_STAT_ATTEMPTS < 3 ∧
    (dRm 3).tri.readmitReq = false ∧ (dRm 3).tri.exclAt = some 0 ∧ 0 + 100 ≤ (dRm 3).tickCount ∧
    (dRm 3).bit Reg.TRI_CFG_AUTO_RESET = true ∧ unfit.sluiceFit = false ∧ (1 : Fin 3).val ≠ (dRm 5).lane ∧
    (dRm 5).fld Reg.TRI_LANE_STAT_STATE = 5 ∧ (dRm 0).fld Reg.TRI_LANE_STAT_STATE ≠ 5 ∧ (dRm 0).tri.donor = some 1 ∧
    (dRm 0).tick.started = false ∧ max 1 ((dRm 5).fld Reg.TRI_RDM_CFG_TIMEOUT_TICKS) ≤ (dRm 5).tri.readmitTicks := by
  decide +kernel

/-! ## Unit failover and the Sahtu bus -/

def hb (u st : Nat) : Heartbeat := ⟨1, st, false, true, u, 0, 0, 0⟩
/-- A master of unit 1 with failover, in a state. -/
def dFo (st : Nat) : Device := dev [(Reg.FO_CFG_EN, 1), (Reg.FO_CFG_UNIT, 1), (Reg.FO_STAT_STATE, st),
  (Reg.TICK_STATUS_ABN_CONSEC, 4), (Reg.FO_STAT_PEER_STATE, 1), (Reg.FO_CFG_ST_EN, 1), (Reg.FO_CFG_HOLD_TICKS, 4),
  (Reg.FO_STAT_ST_AGE, 5), (Reg.FO_STAT_YIELD, 1), (⟨Reg.TICK_COUNT_LO, 0, 32⟩, 16), (portFO.busy, 1)]
/-- The arbiter: unit 1 is active and missed, unit 2 is a standby. -/
def dAr : Device := { dev [(Reg.SYS_ROLE_ARBITER, 1), (Reg.FO_ARB_STAT_ACTIVE_UNIT, 1), (Reg.FO_CFG_HB_MISS, 3),
  (Reg.FO_ARB_STAT_MISS_U1, 3)] with fo := { hb := [(2, some (hb 2 1))] } }
/-- A standby that received a copy of one granule. -/
def dCp : Device := { dFo 1 with fo := { rxSeq := some 65535, rxGrans := [(0, [1])], rxBytes := [1] } }

theorem witness_Failover : ({ dFo 1 with fo := { abandonDue := true } } : Device).fo.abandonDue = true ∧
    (dFo 1).bit Reg.FO_CFG_EN = true ∧ (dFo 1).foState = 1 ∧ 4 ≤ (dFo 1).fld Reg.TICK_STATUS_ABN_CONSEC ∧
    (dFo 1).arbiter = false ∧ (hb 2 3).unit ≠ (dFo 1).fld Reg.FO_CFG_UNIT ∧ (hb 2 3).state < 4 ∧
    ((dFo 3).rd Reg.FO_CLAIM).toNat < (hb 2 3).claim.toNat ∧ (dFo 3).foSends = true ∧
    (dFo 3).bit Reg.FO_STAT_RESYNC = false ∧ 1 = (dFo 1).fld Reg.FO_CFG_UNIT ∧
    ((dFo 1).rd Reg.FO_HIGH_CLAIM).toNat < (1 : Word).toNat ∧ (dFo 3).foState = 3 ∧
    ((dev [(Reg.FO_STNA_EN 63, 1)]).bit (Reg.FO_STNA_EN 63) = true) ∧ dAr.arbiter = true ∧
    max dAr.fo.maxClaim (dAr.rd Reg.FO_ARB_CLAIM).toNat + 1 < 2 ^ 32 ∧ dAr.fld Reg.FO_ARB_STAT_ACTIVE_UNIT = 1 ∧
    sget noHb dAr.fo.hb 1 = none ∧ max 1 (dAr.fld Reg.FO_CFG_HB_MISS) ≤ dAr.fld Reg.FO_ARB_STAT_MISS_U1 ∧
    sget noHb dAr.fo.hb 2 = some (hb 2 1) ∧ dAr.fo.grantFor = none ∧ dCp.foTakes = true ∧ dCp.fo.rxSeq = some 65535 ∧
    dCp.fo.rxGrans.length = 1 ∧ crc32c dCp.fo.rxBytes = crc32c [1] ∧ crc32c dCp.fo.rxBytes ≠ 0 ∧
    ({ dFo 3 with fo := { sentCopy := some (65535, [0]) } } : Device).foSends = true ∧
    (dFo 2).bit Reg.FO_CFG_ST_EN = true ∧ max 1 ((dFo 2).fld Reg.FO_CFG_HOLD_TICKS) < (dFo 2).fld Reg.FO_STAT_ST_AGE ∧
    (dFo 2).fo.holdTold = false ∧ (dFo 3).fld Reg.FO_STAT_PEER_STATE = 1 ∧ (dFo 3).bit Reg.FO_STAT_YIELD = true ∧
    (dFo 3).fo.yieldAt + 16 ≤ (dFo 3).tickCount ∧ (dFo 3).fld portFO.busy = 1 := by decide +kernel
/-- Node 5, ACTIVE in cycle 63 of schedule 0 with 64 windows: windows 0 to 2 of types 1, 1, 2; entry 255 sends ID 1,023 in
window 0, entry 0 receives ID 7 in window 1; the guardian is in SYNC and opens windows 0 and 2. -/
def dSbL : List (Fld × Nat) := [(Reg.SB_STAT_STATE, 3), (Reg.SB_STAT_CYCLE, 63), (Reg.SB_WIN_CNT_CNT_0, 64),
  (Reg.SB_WIN_A_TYPE 0 0, 1), (Reg.SB_WIN_B_FID 0 0, 1023), (Reg.SB_WIN_A_TYPE 0 1, 1), (Reg.SB_WIN_B_FID 0 1, 7),
  (Reg.SB_WIN_A_TYPE 0 2, 2), (Reg.SB_WIN_B_FID 0 2, 7), (Reg.SB_WIN_B_FID_HI 0 2, 1023),
  (Reg.SB_TRIG_W0_EN 255, 1), (Reg.SB_TRIG_W0_DIR 255, 1), (Reg.SB_TRIG_W0_FID 255, 1023),
  (Reg.SB_TRIG_W0_EN 0, 1), (Reg.SB_TRIG_W0_FID 0, 7), (Reg.SB_TRIG_W1_LEN_U 0, 2), (Reg.SB_CFG_NODE_ID, 5),
  (Reg.SB_CFG_TRUNC_LIMIT, 4), (Reg.SB_TIMING_ACC_WIN_NS, 1000), (Reg.SB_MTX_CFG_M_0, 6), (Reg.SB_MASTERS_RANK_0, 5),
  (Reg.SB_STAT_MASTER_ID, 9), (Reg.SBG_CFG_EN, 1), (Reg.SBG_CFG_COLDSTART, 1), (Reg.SBG_STAT_STATE, 2),
  (Reg.SBG_WIN_A_TYPE 0 0, 1), (Reg.SBG_WIN_B_OWN 0 0, 1), (Reg.SBG_WIN_A_TYPE 0 2, 2), (Reg.SBG_TIMING_GUARD_NS, 100),
  (Reg.TICK_PERIOD_PERIOD_US, 1000), (Reg.SB_CP_EN 31, 1), (Reg.SB_CP_REP 31, 6), (Reg.SB_CP_BASE 31, 63),
  (Reg.SB_CP_SYNC 31, 1), (Reg.TB_PPS_CFG_SYNC_SRC, 2), (Reg.SB_CP_ROUTE 31, 1), (Reg.TASK_ROUTE_EN 0x5F, 1),
  (Reg.CE_STATUS_STATE 0, 3), (Reg.SB_CFG_COLDSTART, 1)]
/-- That node with other fields; its last frame is being sent and four were cut. -/
def dSb (l : List (Fld × Nat)) : Device := { dev (dSbL ++ l) with
  sb := { committed := true, sending := some 255, truncs := 4, prevRef := some (0, 62), gdPrev := some 0, slot := 1022 }
  task := { tick1 := true } }
/-- The header of a frame of node 4 with ID 7 and 2 units, with and without its HCRC. -/
def hdr : Nat := sbHeader 4 7 2 63 0
def hGood : BitVec 48 := BitVec.ofNat 48 (hdr + hcrc hdr)
def hBad : BitVec 48 := BitVec.ofNat 48 (hdr + (hcrc hdr + 1) % 2048)
def rf : SbRef := ⟨9, 0, true, 0, 0, 0, false, false, 0, 0, 0, 63⟩

theorem witness_SahtuBus_frames : (laneA []).isLane = true ∧ (1 : Fin 3).val ≠ (laneA []).lane ∧
    (dSb []).sbMaySend = true ∧ (0 : Fin 64).val < (dSb []).sbCnt (dSb []).sched ∧ (63 : Fin 64).val < (dSb []).sbCnt 0 ∧
    (dSb []).winType 0 = 1 ∧ (dSb []).trigFor true ((dSb []).winFid 0) = some 255 ∧
    (dSb []).fld (Reg.SB_TRIG_W0_SRC 255) = 0 ∧ (dSb []).bit (Reg.SB_TRIG_W0_CMD 255) = false ∧
    (dSb []).sb.committed = true ∧ (dSb []).withheld = false ∧ (dSb []).gateOpen 0 = true ∧
    (dSb [(Reg.SBG_WIN_B_OWN 0 0, 0)]).gateOpen 0 = false ∧ (dSb []).winType 2 = 2 ∧ 1022 + 1 = (dSb []).sb.slot + 1 ∧
    1023 ≤ (dSb []).fld (Reg.SB_WIN_B_FID_HI (dSb []).sched 2) ∧ (dSb []).trigFor true 1023 ≠ none ∧
    (dSb []).sbState = 3 ∧ hGood.toNat / 2 ^ 42 = 4 ∧ 4 ≠ (dSb []).fld Reg.SB_CFG_NODE_ID ∧
    hcrc hBad.toNat ≠ hBad.toNat % 2 ^ 11 ∧ hcrc hGood.toNat = hGood.toNat % 2 ^ 11 ∧
    hGood.toNat / 2 ^ 24 % 256 = 2 ∧ (dSb []).fidFits 1 7 = true ∧ (1 : Fin 64).val ∉ (dSb []).sb.seen ∧
    (dSb []).trigFor false 7 = some 0 ∧ 2 = (dSb []).fld (Reg.SB_TRIG_W1_LEN_U 0) ∧
    (dSb []).fld (Reg.SB_TRIG_W1_NODE 0) = 0 ∧ hGood.toNat / 2 ^ 15 % 2 = 0 ∧ (dSb []).sb.sending = some 255 ∧
    max 1 ((dSb []).fld Reg.SB_CFG_TRUNC_LIMIT) ≤ (dSb []).sb.truncs := by decide +kernel

theorem witness_SahtuBus_references : (dSb [(Reg.SB_STAT_STATE, 1)]).sbState = 1 ∧
    (dSb [(Reg.SB_STAT_STATE, 2)]).sbState = 2 ∧
    ({ dSb [(Reg.SB_STAT_STATE, 2)] with tb := { ns := 1000000 } } : Device).refFollows rf 1000000 = true ∧
    (dSb []).bit Reg.SB_CFG_LISTEN_ONLY = false ∧ (dSb []).sbCnt rf.active ≠ 0 ∧ (dSb []).sb.starter = false ∧
    (dSb [(Reg.SB_STAT_IS_MASTER, 1), (Reg.SB_STAT_MASTER_ID, 5)]).bit Reg.SB_STAT_IS_MASTER = true ∧
    (dSb []).bit Reg.SB_STAT_IS_MASTER = false ∧ (dSb []).backups.head? = some ((dSb []).fld Reg.SB_CFG_NODE_ID) ∧
    (dSb []).sb.missed = 0 ∧ (dSb [(Reg.SB_STAT_STATE, 1)]).bit Reg.SB_CFG_COLDSTART = true ∧
    (dSb [(Reg.SB_STAT_STATE, 1)]).sbStarts = true ∧ (dSb []).sb.backoff = false ∧ (dSb []).bit Reg.SBG_CFG_EN = true ∧
    (dSb []).bit Reg.SBG_CFG_COLDSTART = true ∧ (dSb [(Reg.SBG_STAT_STATE, 1)]).gdState = 1 := by decide +kernel

set_option maxRecDepth 100000 in
theorem witness_SahtuBus_guardian : (dSb []).gdState = 2 ∧ (dSb [(Reg.SBG_STAT_STATE, 1)]).gdState = 1 ∧
    (dSb []).sb.gdPrev = some 0 ∧ ((1000000 : Int) - 1000100).natAbs ≤ (dSb []).fld Reg.SBG_TIMING_GUARD_NS ∧
    ((1000000 : Int) - 0 - 1000 * (dSb []).periodUs).natAbs ≤ 2 * (dSb []).guardNs ∧ (dSb []).sb.gdBad = 0 ∧
    (dSb []).sb.gdMiss = 0 ∧ (dSb []).gdCrc ≠ (dSb []).rd Reg.SBG_SCHED_CRC ∧
    (let d := dev [(Reg.SBG_CFG_EN, 1)]; d.gdCrc = (d.wr Reg.SBG_SCHED_CRC d.gdCrc).rd Reg.SBG_SCHED_CRC) ∧
    (dSb []).bit (Reg.SB_CP_EN 31) = true ∧
    (dSb []).cycle % 2 ^ (dSb []).fld (Reg.SB_CP_REP 31) = (dSb []).fld (Reg.SB_CP_BASE 31) ∧
    (dSb []).bit (Reg.SB_CP_SYNC 31) = true ∧ (dSb []).fld Reg.TB_PPS_CFG_SYNC_SRC = 2 ∧
    (dSb []).bit (Reg.SB_CP_ROUTE 31) = true ∧ (dSb []).bit (Reg.TASK_ROUTE_EN 0x5F) = true ∧
    (dSb []).fld (Reg.TASK_ROUTE_ENG 0x5F) = 0 ∧ (dSb []).fld (Reg.TASK_ROUTE_CTX 0x5F) = 0 ∧ (dSb []).voted 0 = false ∧
    (dSb []).task.tick1 = true ∧ (dSb []).engState 0 = 3 ∧ (dSb []).ctxState 0 0 = 0 ∧
    (dSb [(Reg.SB_STAT_STATE, 5)]).sbState = 5 ∧ (dSb [(Reg.SB_STAT_STATE, 4)]).sbState = 4 ∧
    (dSb []).fld portSB.busy = 0 := by decide +kernel

/-! ## Ethernet and time -/

/-- A broadcast frame of 60 bytes with an EtherType. -/
def fr (hi lo : Byte) : List Byte := List.replicate 6 0xFF ++ List.replicate 6 0 ++ [hi, lo] ++ List.replicate 46 0
/-- A master whose ports are enabled and linked; entry 63 takes EtherType 0x88B5; a frame of the host waits. -/
def dE0 : Device := { dev ([(Reg.ETH_RXA_EN 63, 1), (Reg.ETH_RXA_PORTS 63, 7), (Reg.ETH_RXA_VALUE 63, 0x88B5),
  (Reg.ETH_RXB_LEN 63, 60), (Reg.ETH_CFG_HOSTQ 2, 1)]
  ++ (List.range 3).flatMap (fun p => [(Reg.ETH_CFG_EN p, 1), (Reg.ETH_STAT_LINK p, 1), (Reg.TB_PORT_EN p, 1)])) with
  mem := [(2048 * 32, 64), (2048 * 32 + 3, 0x80)] }
def lch (time : Nat) : Launch := ⟨0, time, 7, true, false, fr 8 0⟩
/-- Port 0 with a launch entry, at a time. -/
def dL (time now : Nat) : Device := { dE0 with
  eth := { queue := [(0, [lch time])], copied := [(0, true)], calRun := [(0, true)], mdio := some (false, 0) }
  tb := { ns := now } }
def dHq : Device := dE0.setF Reg.ETH_HQ_EN 1

set_option maxRecDepth 100000 in
theorem witness_Ethernet : (laneA []).isLane = true ∧ (1 : Fin 3).val ≠ (laneA []).lane ∧
    dE0.bit (Reg.ETH_CFG_EN 0) = true ∧ dE0.ethLink 0 = true ∧ 64 ≤ (fr 0x88 0xB5).length + 4 ∧
    (fr 0x88 0xB5).length + 4 ≤ 1522 ∧ beAt (fr 0x88 0xB5) 12 2 ≠ 0x8808 ∧ dE0.forPort 0 (fr 0x88 0xB5) = true ∧
    dE0.ptpAt (fr 0x88 0xB5) = none ∧ (List.range 64).find? (fun e => dE0.rxMatch 0 (fr 0x88 0xB5) e) = some 63 ∧
    dE0.bit (Reg.ETH_RXA_EVT 63) = false ∧ (List.range 64).find? (fun e => dE0.rxMatch 0 (fr 0x88 0xB6) e) = none ∧
    dE0.bit Reg.ETH_HQ_EN = false ∧ dHq.bit Reg.ETH_HQ_EN = true ∧ dHq.bit (Reg.ETH_CFG_HOSTQ 2) = true ∧
    dHq.bit (Reg.ETH_CFG_EN 2) = true ∧ dHq.hqTxAt + 2052 ≤ 0x800000 ∧ (∀ k ∈ sharedKeys dHq.hqTxAt 2052, dHq.ecc k = .clean) ∧
    leNat (dHq.seenBytes dHq.hqTxAt 4) = 0x80000040 ∧ dHq.fits 2 64 = true ∧ (dL 8 0).launches 0 = [lch 8] ∧
    (dL 8 0).mayLaunch 0 = true ∧ (dL 8 0).isLane = false ∧ (lch 8).time ≤ (dL 8 16).ts64 ∧
    (dL 8 16).ts64 ≤ (lch 8).time + max 8 ((dL 8 16).fld (Reg.ETH_CFG_LATE_TOL_NS 0)) ∧
    (lch 8).time + max 8 ((dL 8 1012).fld (Reg.ETH_CFG_LATE_TOL_NS 0)) < (dL 8 1012).ts64 ∧
    (dL 8 1012).bit (Reg.ETH_CFG_LATE_DROP 0) = true ∧
    ((dL 8 1012).setF (Reg.ETH_CFG_LATE_DROP 0) 0).bit (Reg.ETH_CFG_LATE_DROP 0) = false ∧
    (sget noTs (dL 8 16).eth.txts 0).length < 64 ∧ sget noPtp dE0.eth.ptp 0 = [] ∧
    sget falseAt (dL 8 0).eth.calRun 0 = true ∧ ((List.replicate 191 0).take 256).length < 192 ∧
    192 ≤ ((List.replicate 192 0).take 256).length ∧ (dE0.setF portETH.busy 1).fld portETH.busy = 1 ∧
    (dL 8 0).eth.mdio = some (false, 0) ∧ sget falseAt dE0.eth.calRun 0 = false ∧ dE0.fld portETH.busy = 0 := by
  decide +kernel

/-- A message of clock 9, port 1; port 0 of a device is SLAVE of it, or another port state, with other fields. -/
def pm : PtpMsg := ⟨0, 2, 9, 1, 5, 0, 100, 150⟩
def dTb (st : Nat) (l : List (Fld × Nat)) : Device := { dE0 with
  regs := ((l.foldl (fun d f => d.setF f.1 f.2) dE0).setF (Reg.TB_PORT_STATE 0) st).regs
  tb := { parent := some (9, 1), syncWait := [(0, some pm)], dreq := [(0, some (5, 120))], syncDiff := [(0, some 7)],
          preq := [(0, some (5, 120))], prespWait := [(0, some pm)], ns := 250000000 } }

theorem witness_TimeBase : (dTb 9 []).bit (Reg.TB_PORT_EN 0) = true ∧ (dTb 9 []).ethLink 0 = true ∧
    pm.domain = (dTb 9 []).fld Reg.TB_CFG_DOMAIN ∧ pm.version = 2 ∧ (dTb 9 []).fromParent 0 pm = true ∧
    (dTb 9 [(Reg.TB_CFG_SRC, 1)]).fld Reg.TB_CFG_SRC = 1 ∧ sget noMsg (dTb 9 []).tb.syncWait 0 = some pm ∧
    sget noPair (dTb 9 []).tb.dreq 0 = some (pm.seq, 120) ∧ sget noInt (dTb 9 []).tb.syncDiff 0 = some 7 ∧
    (dTb 9 []).bit (Reg.TB_PORT_P2P 0) = false ∧ sget falseAt (dTb 9 []).tb.settled 0 = false ∧
    sget noPair (dTb 9 []).tb.preq 0 = some (pm.seq, 120) ∧
    (dTb 9 [(Reg.TB_PORT_P2P 0, 1)]).bit (Reg.TB_PORT_P2P 0) = true ∧ sget noMsg (dTb 9 []).tb.prespWait 0 = some pm ∧
    (dTb 6 []).ptpState 0 = 6 ∧ (dTb 6 []).sends 0 = true ∧ (dTb 6 []).bit Reg.SYS_ROLE_NO_SERVICE = false ∧
    (dTb 6 []).fits 0 ((dTb 6 []).ptpLen 9) = true ∧ sget noPtp (dTb 6 []).eth.ptp 0 = [] ∧
    (dTb 6 []).bit Reg.TB_CFG_TWO_STEP = false ∧ pm.clock ≠ (dTb 9 []).clockId ∧
    (dTb 9 [(Reg.TB_CFG_EXT_PORT, 1)]).bit Reg.TB_CFG_EXT_PORT = true ∧ (dTb 9 []).bit Reg.TB_CFG_EXT_PORT = false ∧
    (∀ f ∈ (dTb 9 []).tb.foreign, f.port = 0 → f.clock = pm.clock → f.portNo ≠ pm.portNo) ∧
    (dTb 9 [(Reg.TB_STAT_STATE, 2), (Reg.TB_CFG_SRC, 2)]).tbState = 2 ∧
    (dTb 9 [(Reg.TB_CFG_SRC, 2)]).fld Reg.TB_CFG_SRC = 2 ∧ (dTb 9 []).secondOff.natAbs ≤ 250000000 ∧
    250000000 < ({ dTb 9 [] with tb := { ns := 250000001 } } : Device).secondOff.natAbs ∧
    (dTb 9 [(Reg.TB_PPS_CFG_PPS_EN, 1)]).bit Reg.TB_PPS_CFG_PPS_EN = true ∧
    (dTb 9 [(Reg.TB_PPS_CFG_SYNC_SRC, 4)]).fld Reg.TB_PPS_CFG_SYNC_SRC = 4 ∧ (dTb 9 []).fld portTB.busy = 0 ∧
    ((dTb 9 []).wr Reg.TB_SET_NS 999999999).rd Reg.TB_SET_NS = 999999999 ∧ (dTb 9 []).tbState = 0 ∧
    (dTb 9 []).stepAllowed = true := by decide +kernel

/-! ## Safety functions -/

/-- Connection 255 receives, in a state with a number of ticks since its last container. -/
def dSc (st ticks : Nat) : Device := dev [(Reg.SC_CONN_W1_EN 255, 1), (Reg.SC_CONN_W1_SEND_N 255, 4),
  (Reg.SC_CONN_W4_WD_MS 255, 5), (Reg.TICK_PERIOD_PERIOD_US, 1000), (Reg.SC_CONN_W5_STATE 255, st),
  (Reg.SC_CONN_W5_TICKS 255, ticks)]
/-- Pair 0 disagrees; group 7 locks on it and switches channel 23; its deliberate reset fell and is low, with or without
cause, locked or not. -/
def dSf (l : List (Fld × Nat)) : Device := { laneA ([(⟨Reg.FLD_DI_VAL, 0, 32⟩, 0x80000001), (Reg.SF_PAIR_CFG_EN 0, 1),
  (Reg.SF_LOCKA_EN 7, 1), (Reg.SF_LOCKB_DISC 7, 1), (Reg.SF_LOCKC_OUT 7, 0x800000), (Reg.SF_LOCKA_RESET_DI 7, 31),
  (Reg.SF_TRIP_CFG_EN 3, 1), (Reg.SF_TRIP_CFG_MASK 3, 0x800000), (Reg.SF_SEAL_STAT_LOOP_OK, 1),
  (⟨Reg.SF_SLUICE_STAT, 0, 32⟩, 0)] ++ l) with
  sf := { grp := [(7, ⟨true, true, false, 250, some 0, []⟩)] } }

theorem witness_SafetyFunctions : (dSc scOK 4).scRx 255 = true ∧ (dSc scOK 4).fld (Reg.SC_CONN_W5_STATE 255) = scOK ∧
    max 1 ((dSc scOK 4).fld (Reg.SC_CONN_W1_SEND_N 255)) ≤ (dSc scOK 4).fld (Reg.SC_CONN_W5_TICKS 255) ∧
    (dSc scSTALE 6).fld (Reg.SC_CONN_W5_STATE 255) ≤ scSTALE ∧ (dSc scSTALE 6).fld (Reg.SC_CONN_W4_WD_MS 255) * 1000 <
      (dSc scSTALE 6).fld (Reg.SC_CONN_W5_TICKS 255) * (dSc scSTALE 6).periodUs ∧
    (dev [(Reg.SF_SEAL_STAT_PERM_NOW, 0x7F)]).permLanes permKey = true ∧ (dSf []).isLane = true ∧
    (1 : Fin 3).val ≠ (dSf []).lane ∧ (dSf []).bit (Reg.SF_PAIR_CFG_EN 0) = true ∧ (dSf []).pairAgrees 0 = false ∧
    (dSf []).bitAt Reg.SF_PAIR_STAT_DISC 0 = false ∧ (dSf []).bit (Reg.SF_LOCKA_EN 7) = true ∧
    (dSf []).bitAt (Reg.SF_LOCKB_DISC 7) 0 = true ∧ (dSf []).lockCause 7 = false ∧ (dSf []).locked 7 = false ∧
    (dSf []).bitAt (Reg.SF_LOCKC_OUT 7) 23 = true ∧ (dSf [(Reg.SF_LOCK_STAT_LOCKED, 0x80)]).locked 7 = true ∧
    (dSf []).lockReady 7 = false ∧ ((dSf []).grp 7).fell = true ∧
    (dSf [(Reg.SF_LOCK_STAT_RESET_LOW, 0x80)]).bitAt Reg.SF_LOCK_STAT_RESET_LOW 7 = true ∧
    (dSf []).di ((dSf []).fld (Reg.SF_LOCKA_RESET_DI 7)) = true ∧ ((dSf []).grp 7).causeSeen = false ∧
    (dSf [(Reg.SF_LOCK_STAT_CAUSE, 0x80)]).lockCause 7 = true ∧ ((dSf []).grp 7).ownNotice.isSome = true ∧
    (dSf [(Reg.SF_LOCK_STAT_READY, 0x80)]).lockReady 7 = true ∧ (dSf []).bit (Reg.SF_TRIP_CFG_EN 3) = true ∧
    (dSf []).bitAt Reg.SF_SLUICE_STAT_TRIP 3 = false ∧ (dSf []).bitAt (Reg.SF_TRIP_CFG_MASK 3) 23 = true ∧
    (dSf [(Reg.SF_SLUICE_STAT_TRIP, 8)]).bitAt Reg.SF_SLUICE_STAT_TRIP 3 = true ∧ (dSf []).sf.held.testBit 23 = true ∧
    (dSf []).bit Reg.SF_SEAL_STAT_LOOP_OK = true ∧ (dSf [(Reg.SF_SEAL_STAT_PERM_NOW, 2)]).perm permForce = true ∧
    (dSf [(Reg.SF_SEAL_STAT_PERM_NOW, 4)]).perm permDebug = true ∧
    (dSf [(Reg.SF_SEAL_STAT_LOOP_OK, 0)]).bit Reg.SF_SEAL_STAT_LOOP_OK = false ∧ 24999 < 25000 ∧ 300000 < 300001 := by
  decide +kernel
/-! ## Field, signal chain -/

/-- Channels 0 and 23 are enabled, with overload, open-load and dark tests; both are driven; the field die is well; at a
tick and with fields of its own. -/
def dFd (l : List (Fld × Nat)) : Device := { dev ([(Reg.FLD_CH_CFG_EN 0, 1), (Reg.FLD_CH_CFG_OVL_MS 0, 1),
  (Reg.FLD_CH_CFG_OL_EN 0, 1), (Reg.FLD_CH_CFG_OW_EN 0, 1), (Reg.FLD_CH_CFG_DT_EN 0, 1), (Reg.FLD_CH_CFG_EN 23, 1),
  (Reg.FLD_CH_CFG_OVL_MS 23, 0), (Reg.FLD_VF_STATE 0, 0), (Reg.FLD_VF_STATE 2, 0), (Reg.FLD_VF_STATE 3, 0),
  (⟨Reg.SF_SLUICE_STAT, 0, 32⟩, 0), (Reg.FLD_DI_WB_WB_EN, 0x80000000), (Reg.TICK_STATUS_SRC_ACT, 0)] ++ l) with
  fd := { on := 0x800001, value := 0x800001 }, sf := { held := 0 }, tick := { released := true, started := true } }
/-- Channels 0 and 23 off, their values on; channel 23 is being tested or waits for Weir. -/
def dFo0 : Device := { dFd [] with fd := { value := 0x800001, dark := some 23, queue := [(2, [23])] } }
/-- Channel 23 waits with a claim that leaves no room. -/
def dWr : Device := { dFd [(⟨Reg.PWR_INR 2, 0, 32⟩, 0x10000000), (Reg.PWR_WEIR_INR_US 2, 8)] with
  fd := { queue := [(2, [23])], head := [(2, 50)] } }
def dWr1 : Device := { dWr with fd := { dWr.fd with claims := [(2, [(0, 50)])] } }

theorem witness_FieldInputsAndOutputs : (dFd []).di 31 ≠ true ∧ (dFd []).vfdLow = false ∧ (dFd []).vfMissing 3 = false ∧
    (dFd [(Reg.FLD_VFD_VFD_LOW, 1)]).vfdLow = true ∧ (dFd []).bitAt Reg.FLD_DI_WB_WB_EN 31 = true ∧
    (dFd []).bitAt Reg.FLD_DI_BREAK_BREAK 31 ≠ true ∧ (∀ i : Fin 32, (dFd []).di i = false) ∧
    (dFd []).bit (Reg.TASK_ROUTE_EN 0xDF) = false ∧ (dFd []).bit (Reg.TASK_ROUTE_EN (0xE1 + 23 / 8)) = false ∧
    (dFd []).fld (Reg.FLD_VF_STATE 3) ≠ 2 ∧ (dFd [(Reg.FLD_VF_STATE 0, 2)]).fld (Reg.FLD_VF_STATE 0) = 2 ∧
    (dFd []).fdHot ≠ true ∧ (dFd []).chOn 0 = true ∧ (dFd []).fld (Reg.FLD_CH_CFG_OVL_MS 0) ≠ 0 ∧
    (dFd []).fld (Reg.FLD_CH_CFG_OVL_MS 23) = 0 ∧ (dFd []).chEn 23 = true ∧
    (dFd []).bit (Reg.FLD_CH_CFG_OL_EN 0) = true ∧ (dFd []).chFault 0 3 = false ∧ dFo0.chEn 0 = true ∧ dFo0.chOn 0 = false ∧
    dFo0.fd.dark ≠ some 0 ∧ (dFd []).fd.value.testBit 23 = true ∧ (dFd []).sf.held.testBit 23 = false ∧
    (∀ k ∈ [0, 1, 4, 5, 6, 7], (dFd []).chFault 23 k = false) ∧ ({} : Device).sf.held.testBit 23 = true ∧
    (dFd []).bit (Reg.FLD_CH_CFG_OW_EN 0) = true ∧ dWr.chOn 0 = false ∧ dWr.fd.dark = none := by
  decide +kernel

theorem witness_FieldInputsAndOutputs_darkWeir : (dFd []).ticking = true ∧
    (dFd []).tick.started = true ∧ (dFd []).darkTick = true ∧ (dFd []).fd.dark = none ∧
    (dFd []).fd.darkTick ≠ some (dFd []).tickCount ∧ ((dFd []).fd.darkLast + 1 + 0) % 24 = 0 ∧ (dFd []).darkFit 0 = true ∧
    (dFd []).gateNow.testBit 0 = false ∧ (dFd []).fieldHeld = false ∧ dFo0.fd.dark = some 23 ∧
    dFo0.chBlocked 23 = false ∧ dFo0.gateNow.testBit 23 = false ∧ dFo0.fd.value.testBit 23 = true ∧
    (dFd []).faultCause 23 = false ∧ (dFd [(Reg.FLD_VF_STATE 2, 2)]).faultCause 23 = true ∧
    (dFd []).fld portFLD.busy = 0 ∧ sget noQueue dWr.fd.queue 2 = [23] ∧
    (∀ k, k < 3 → k ≠ 2 → sget noQueue dWr.fd.queue k = []) ∧ dWr.sf.held.testBit 23 = false ∧
    dWr.gateNow.testBit 23 = false ∧ dWr.fieldHeld = false ∧ sget noClaims dWr.fd.claims 2 = [] ∧ dWr.inrMa 23 = 50 ∧
    ((0 : Int) + dWr.inrMa 23) ≤ sget zeroAt dWr.fd.head 2 ∧
    (sget noClaims dWr1.fd.claims 2).filter (fun p => decide (7 < p.1 + dWr1.atLeast1 (Reg.PWR_WEIR_INR_US 2))) = [(0, 50)] ∧
    ¬((50 : Int) + dWr1.inrMa 23 ≤ sget zeroAt dWr1.fd.head 2) ∧ dWr1.bit (Reg.FLD_CH_CFG_SAFE 23) = false := by
  decide +kernel

/-- Group 0 rotates in a step; channel 0 reads modulator 0; input and output channels are enabled; 64 samples lie in the
home chain and the spare. -/
def dSg (l : List (Fld × Nat)) (step : Nat) (ovr : Bool) : Device := { dev ([(Reg.SIG_CFG_GRP_EN, 15), (Reg.SIG_CFG_SPARE_EN, 15),
  (Reg.SIG_IN_CFG_EN 0, 1), (Reg.SIG_IN_CFG_DCB_EN 0, 1), (Reg.SIG_GRP_STAT_START_DONE 0, 1), (Reg.SIG_CFG_SYNC_SRC, 1),
  (Reg.SIG_OUT_CFG_EN 7, 1)] ++ l) with
  sig := {
    chain := [(0, { chain0 0 with ovr := ovr, ys := List.replicate 64 0 }), (4, { chain0 4 with ys := List.replicate 64 0 })]
    inp := [(0, { inCh0 0 with settling := false })]
    rot := [(0, { rot0 0 with step := step, seq := none })] } }
/-- A calibration at point n of its sequence. -/
def dCal (n : Nat) : Device := { dSg [] 0 false with sig := { rot := [(0, { rot0 0 with seq := some n })] } }

theorem witness_SignalChain : ({} : Device).bitAt Reg.SIG_CFG_GRP_EN 3 = false ∧
    (dSg [] 0 false).bitAt Reg.SIG_CFG_GRP_EN (0 / 5) = true ∧ (dSg [] 0 false).readerOf 0 = some 0 ∧
    (∀ n, n < 32 → (dSg [] 0 false).bit (Reg.SIG_THR_A_EN n) = false) ∧
    (dSg [] 0 false).bit (Reg.SIG_IN_CFG_EN 0) = true ∧ ((dSg [] 0 false).inCh 0).settling = false ∧
    (let x := sincIn ((dSg [] 0 false).fld (Reg.SIG_IN_CFG_SINC_K 0) + 1) (2 ^ (dSg [] 0 false).fld (Reg.SIG_IN_CFG_FIR_D 0)) []
        ((dSg [] 0 false).chain 0)
      let v := (dSg [] 0 false).firOut ((dSg [] 0 false).coefBank false) ((dSg [] 0 false).fld (Reg.SIG_IN_CFG_FILT 0)) x.line
      x.ovr = false ∧ -8388608 ≤ v ∧ v ≤ 8388607) ∧
    ((dSg [] 1 true).chain 0).ovr = true ∧ ((dSg [] 1 false).rot 0).step = 1 ∧ (dSg [] 1 false).inSlot 0 = true ∧
    (dSg [] 0 false).fld Reg.SIG_CFG_SYNC_SRC = 1 ∧ (dSg [(Reg.SIG_CFG_SYNC_SRC, 0)] 0 false).fld Reg.SIG_CFG_SYNC_SRC = 0 ∧
    ((-2 : Int)).natAbs = 2 ∧ (dSg [] 0 false).bit Reg.SIG_BANK_PEND = false ∧
    (dSg [(Reg.SIG_BANK_PEND, 1)] 0 false).bit Reg.SIG_BANK_PEND = true ∧ ((dCal 8).rot 0).seq = some 8 ∧
    8 < (dCal 8).startPoints 0 ∧ ((dCal 9).rot 0).seq = some 9 ∧ 9 + 1 = (dCal 9).startPoints 0 ∧
    ((dSg [] 3 false).rot 0).seq = none ∧ ((dSg [] 3 false).rot 0).step = 3 ∧
    ((dSg [] 3 false).inCh (4 * 0 + (dSg [] 3 false).fld (Reg.SIG_GRP_STAT_J 0))).settling = false ∧
    ((dSg [] 3 false).chain (5 * 0 + 4)).ovr = false ∧ ((dSg [] 7 false).rot 0).step = 7 ∧
    (dSg [] 1 false).bitAt Reg.SIG_CFG_SPARE_EN 0 = true ∧ (dSg [] 1 false).bit (Reg.SIG_GRP_STAT_START_DONE 0) = true ∧
    (dSg [] 1 false).bit (Reg.SIG_GRP_STAT_STOPPED 0) = false ∧ (dSg [] 1 false).bitAt (Reg.SIG_GRP_STAT_FAULT 0) 4 = false ∧
    (dSg [(Reg.SIG_GRP_STAT_FAULT 0, 16)] 1 false).bitAt (Reg.SIG_GRP_STAT_FAULT 0) 4 = true ∧
    (let d := dSg [] 5 false; 64 ≤ (d.chain 0).ys.length ∧ 64 ≤ (d.chain 4).ys.length ∧ (d.inCh 0).settling = false ∧
      (d.chain 0).ovr = false ∧ (d.rot 0).step = 5 ∧ d.fld (Reg.SIG_GRP_STAT_J 0) < 4 ∧
      fWithin (pairMean (d.chain 4).ys (d.chain 0).ys) (d.atLeast1 Reg.SIG_CAL_LIM_MATCH_MAX) (2 ^ 23) = true) ∧
    (dSg [] 0 false).bit (Reg.SIG_OUT_CFG_EN 7) = true ∧ (dSg [] 0 false).bit (Reg.SIG_OUT_CFG_EN 0) = false := by
  decide +kernel

/-! ## NAND store, start and update -/

/-- A NAND of 2 KiB pages with one programmed page. -/
def nand0 : Store := ⟨false, 2048, 64, 1024, 1, 64, 0, false, false, [(pageKey 40 0, [1])], [], [], []⟩
/-- The store serves; region 5 has blocks 40 and 41, region 3 block 30, region 4 block 20, slots and copies theirs. -/
def nvm0 : NvmState := {
  nand := some nand0
  sel := 1
  map := [(0, [50, 51, 52, 53]), (1, [60]), (2, [61]), (3, [30]), (4, [20]), (5, [40, 41])]
  spares := [(1, [62])] }
def nvmL : List (Fld × Nat) := [(Reg.NVM_STAT_READY, 1), (Reg.NVM_STAT_FROZEN, 0), (Reg.NVM_ADDR_REGION, 5),
  (Reg.NVM_BUF_ADDR, 0x800000 - 2048), (Reg.SF_SEAL_STAT_PERM_NOW, 0x7F)]
def dN (l : List (Fld × Nat)) : Device := { dev (nvmL ++ l) with nvm := nvm0 }
/-- The manager runs a job, for a command that is BUSY. -/
def dNj (j : NvmJob) : Device := { dN [(portNVM.busy, 1), (portLDR.busy, 1)] with nvm := { nvm0 with cur := some j } }
/-- A descriptor for that store without use of regions but 3 and 4. -/
def dsc : List Byte :=
  let r (first use spare flags : Nat) : List Byte := leBytes 4 first ++ leBytes 4 use ++ leBytes 2 spare ++ leBytes 2 flags
    ++ leBytes 4 0
  leBytes 4 0x31435344 ++ leBytes 2 1 ++ leBytes 2 0 ++ leBytes 4 1 ++ leBytes 2 2048 ++ leBytes 2 64 ++ leBytes 4 1024
    ++ leBytes 1 1 ++ leBytes 3 0 ++ leBytes 2 4 ++ leBytes 2 5 ++ leBytes 4 0
    ++ r 0 0 0 0 ++ r 0 0 0 0 ++ r 0 0 0 0 ++ r 10 4 1 1 ++ r 20 4 1 1 ++ r 0 0 0 0
def dscMem : List Host.Cell := ((List.range 128).filterMap (fun i =>
  if dsc.getD i 0 = 0 then none else some (0x10000 + i, dsc.getD i 0)))
def dDs : Device := { dN [(Reg.NVM_BUF_ADDR, 0x10000)] with mem := dscMem }

set_option maxRecDepth 100000 in
theorem witness_NandStore : (dN []).store = some nand0 ∧ (dN []).bit Reg.NVM_STAT_READY = true ∧
    (dN []).bit Reg.NVM_STAT_FROZEN = false ∧ (dN []).fld Reg.NVM_ADDR_REGION = 5 ∧
    (dN []).fld Reg.NVM_ADDR_LBLOCK < (sget noBlocks (dN []).nvm.map 5).length ∧ (dN []).fld Reg.NVM_BUF_ADDR % 4 = 0 ∧
    (dN []).fld Reg.NVM_ADDR_PAGE < nand0.ppb ∧ (dN []).fld Reg.NVM_BUF_ADDR + nand0.page ≤ 0x800000 ∧
    (dN []).nvm.cur = none ∧ (dN []).nvm.jobs = [] ∧ (dN []).vio33Low = false ∧
    (∀ k ∈ sharedKeys (0x800000 - 2048) 2048, (dN []).ecc k = .clean) ∧ (dN [(Reg.NVM_ADDR_REGION, 0)]).fld Reg.NVM_ADDR_REGION ≠ 5 ∧
    (dN []).fld portNVM.busy = 0 ∧ descValid nand0 dDs.newDesc = true ∧ dDs.perm permBundle = true ∧
    (dN [(Reg.NVM_STAT_READY, 0)]).bit Reg.NVM_STAT_READY = false ∧ 5 < (dN [(Reg.NVM_ADDR_REGION, 6)]).fld Reg.NVM_ADDR_REGION ∧
    (dN []).nvm.sel ≠ 0 ∧ (dN []).bit Reg.NVM_STAT_SCRUB_BUSY = false ∧ (dN []).scrubOps none ≠ [] ∧
    (dN []).bit Reg.NVM_QUEUE_EN = false ∧ (dN []).nvm.ended = [] ∧
    (dNj ⟨.read 0, [.read 5 0 0]⟩).phys 5 0 = some 40 ∧ (dNj ⟨.read 0, [.read 5 0 0]⟩).bit portNVM.busy = true ∧
    pageErrs nand0 (pageKey 40 0) = [0, 0] ∧ sget noBlocks (dN []).nvm.spares 5 = [] ∧
    (dN [(Reg.NVM_STAT_FROZEN, 1)]).bit Reg.NVM_STAT_FROZEN = true ∧ (dN []).bit Reg.NVM_STAT_SAVE_BUSY = false ∧
    (dN []).fld Reg.NVM_SAVE_RESULT = 0 ∧ (dN []).rd Reg.IMG_P_SEQ = 0 ∧ (dN []).erasedNext 3 = some 0 ∧
    ((dN []).wr Reg.IMG_P_SEQ 1).rd Reg.IMG_P_SEQ ≠ 0 ∧
    ({ dN [] with nvm := { nvm0 with map := [] } } : Device).erasedNext 3 = none ∧ (dN []).archPer = 31 ∧
    (dN []).nextBlock 4 = some 0 ∧ ({ dN [] with nvm := { nvm0 with map := [] } } : Device).nextBlock 4 = none ∧
    ({ dN [] with nvm := { nvm0 with pos := [(4, some 0)] } } : Device).nvm.archPage < nand0.ppb ∧
    (dN []).evr.restoreDue = true ∧ ({ dN [] with sys := { level := 0 } } : Device).evrLive = true ∧
    ({ dN [] with nvm := { nvm0 with map := [] } } : Device).newestRecord = none ∧
    (dN []).bit (Reg.TASK_ROUTE_EN 0xF0) = false := by decide +kernel
/-- A configuration image of two sections, a register load of SIG_VREF (0.5) and the clear key, for every role. -/
def cfg0 : List Byte :=
  let r := leBytes 4 Reg.SIG_VREF ++ leBytes 4 0x3F000000
  let s := leBytes 4 7
  let h := leBytes 4 0x31474643 ++ leBytes 2 1 ++ leBytes 2 0 ++ leBytes 4 208 ++ leBytes 4 1 ++ leBytes 1 0xFF ++ leBytes 1 0
    ++ leBytes 2 0 ++ leBytes 4 0 ++ leBytes 2 2 ++ leBytes 6 0
  let l := h ++ leBytes 2 1 ++ leBytes 2 0 ++ leBytes 4 64 ++ leBytes 4 8 ++ leBytes 4 (crc32c r).toNat
    ++ leBytes 2 4 ++ leBytes 2 0 ++ leBytes 4 72 ++ leBytes 4 4 ++ leBytes 4 (crc32c s).toNat ++ r ++ s ++ List.replicate 128 0
  l ++ leBytes 4 (crc32c l).toNat
/-- The least bundle: an empty program image for engine 0, for steppings 0 to 65,535. -/
def bun0 : List Byte :=
  let im := leBytes 4 0x314D4749 ++ leBytes 1 0 ++ leBytes 1 0 ++ leBytes 2 0 ++ leBytes 4 9 ++ leBytes 4 0
  let h := leBytes 4 0x314E4442 ++ leBytes 2 1 ++ leBytes 2 1 ++ leBytes 4 9 ++ leBytes 4 180 ++ leBytes 2 0 ++ leBytes 2 65535
    ++ leBytes 2 0 ++ List.replicate 42 0
  let l := h ++ leBytes 1 0 ++ leBytes 1 0 ++ leBytes 2 0 ++ leBytes 4 164 ++ leBytes 4 16 ++ leBytes 4 (crc32c im).toNat
    ++ List.replicate 16 0 ++ List.replicate 64 0
  l ++ leBytes 4 (crc32c l).toNat ++ im

/-- The loader waits in a phase; nothing is stored or loaded. -/
def dPh (n : Nat) : Device := { dev [] with ldr := { phase := n } }
/-- The loader of a running unit, with a store and a granted seal. -/
def dLd (l : List (Fld × Nat)) : Device := { dN ([(Reg.LDR_LEN_VALUE, 2048)] ++ l) with
  ldr := { phase := 5, bundle := bun0, cfg := cfg0 } }
/-- SDM holds the images at 0 and 512. -/
def cells (a : Nat) : List Byte → List Host.Cell
  | [] => []
  | b :: t => if b = 0 then cells (a + 1) t else (a, b) :: cells (a + 1) t
def dHg : Device := { dev [(Reg.LDR_BSRC_VALUE, 512)] with mem := cells 0 cfg0 ++ cells 512 bun0, ldr := { phase := 1 } }

set_option maxRecDepth 100000 in
theorem witness_StartAndUpdate_images : ({} : Device).cfgValid cfg0 = true ∧ ({} : Device).cfgValid [] = false ∧
    (dPh 2).bundleReason cfg0 bun0 bun0.length = 0 ∧
    (dHg.sdmImage 0 8 0x7F0000).1 = some cfg0 ∧ (dHg.sdmImage 512 12 (0x7F0000 - 512)).1 = some bun0 ∧
    (dHg.fld Reg.LDR_SRC_VALUE = 0 ∧ dHg.fld Reg.LDR_BSRC_VALUE = 512) ∧ dHg.ldr.phase = 1 ∧ dHg.fld portLDR.busy = 0 := by
  decide +kernel

set_option maxRecDepth 100000 in
theorem witness_StartAndUpdate : (dLd []).perm permBundle = true ∧ (dLd []).targetFree 2 = true ∧ (dLd []).nvm.cur = none ∧
    (dLd []).nvm.jobs = [] ∧ (dLd []).nvm.ended = [] ∧ (dLd []).ppb = 64 ∧
    ((dLd []).target 0).2.2 + 2 ≥ (dLd []).ppb ∧ (dLd [(Reg.NVM_STAT_READY, 0)]).targetFree 2 = false ∧
    ({} : Device).perm permBundle = false ∧ (dLd []).pageSize = 2048 ∧ (dLd []).fld Reg.LDR_LEN_VALUE % 2048 = 0 ∧
    (dLd []).fld Reg.LDR_SRC_VALUE % 4 = 0 ∧ (dLd []).fld (Reg.LDR_WPTR_PAGE 2) + 1 ≤ ((dLd []).target 2).2.2 ∧
    ((dLd []).target 2).2.2 < (dLd [(Reg.LDR_WPTR_PAGE 2, 62)]).fld (Reg.LDR_WPTR_PAGE 2) + 1 ∧
    (dLd []).slotPending 1 = false ∧ (dLd []).slotPending 2 = false ∧ ((dLd []).armReason 1).1 ≠ 0 ∧
    (dLd [(⟨slotReg 2, 29, 3⟩, 4)]).slotPending 2 = true ∧ (dLd [(Reg.LDR_WPTR_PAGE 0, 1)]).fld (Reg.LDR_WPTR_PAGE 0) ≠ 0 ∧
    ((dLd []).copyImage (dLd []).otherCopy).1.isSome = true ∧ (dLd []).sys.pkh = 0 ∧
    (dLd [(Reg.LDR_STAT_SIG_REQ, 1)]).bit Reg.LDR_STAT_SIG_REQ = true ∧ (dLd []).bit Reg.LDR_STAT_SIG_REQ = false ∧
    (dLd []).perm permClear = true ∧ (dLd [(Reg.LDR_KEPT_VALID, 1)]).bit Reg.LDR_KEPT_VALID = true ∧
    (dNj ⟨.activate 2, [.prog 2 0 63 []]⟩).phys 2 0 = some 61 ∧
    (dNj ⟨.activate 1, [.prog 1 0 63 []]⟩).phys 1 0 = some 60 ∧
    sget noBlocks (dNj ⟨.activate 1, [.prog 1 0 63 []]⟩).nvm.spares 1 = [62] ∧
    (dNj ⟨.activate 1, []⟩).bit Reg.NVM_QUEUE_EN = false ∧ (dNj ⟨.activate 1, []⟩).vio33Low = false ∧
    (dPh 2).ldr.phase = 2 ∧ (dPh 2).klState 0 ≠ 6 ∧ (dPh 2).klState 1 ≠ 6 ∧ (dLd []).ldr.bundle ≠ [] ∧
    4 ≤ (dLd []).ldr.phase ∧ (dLd [(Reg.KL_STAT_STATE 2, 6)]).klState 2 = 6 ∧ ((dLd []).klPort 2).unacked.length < 32 ∧
    (dLd []).bit Reg.SYS_ROLE_NO_SERVICE = false ∧ (dPh 3).ldr.phase = 2 + (1 : Fin 3).val ∧ (dPh 3).cfgValid [] = false := by
  decide +kernel

/-! ## Resets and power -/

def bd : Board := ⟨[3, 3, 3], [0, 0, 0], [0, 0, 0], 0, false, none, 1, [], none⟩
/-- A reset at a level that has reached a stage. -/
def dRs (level stage : Nat) (l : List (Fld × Nat)) : Device := { dev l with sys := { level := level, stage := stage } }
/-- A running unit in which a source requests, and a clock had locked. -/
def dRq (l : List (Fld × Nat)) : Device := { dev l with
  sys := { level := 0, stage := 9, request := 2 ^ 7, lockedOnce := 7 }, nvm := { saved := some 15 } }
def dCl (k : Nat) : Device := dRq [(clkBit k, 1)]

theorem witness_ResetsAndClocks : (dRq []).srcHolds 7 = true ∧ (dRq []).srcHolds 8 = false ∧
    (dRq []).bit Reg.NVM_STAT_SAVE_BUSY = false ∧ (dRq [(Reg.NVM_STAT_SAVE_BUSY, 1)]).bit Reg.NVM_STAT_SAVE_BUSY = true ∧
    (dRq []).sys.level ≤ 3 ∧ (dRq []).srcEnds 8 = true ∧
    (dRq [(⟨Reg.SYS_CLK_STAT, 0, 32⟩, 0)]).srcEnds srcClkLoss = false ∧ (dRs 3 0 []).sys.level ≠ 0 ∧ (dRs 3 0 []).sys.asserted = 0 ∧
    (bd.clocks.testBit 0 = true ∧ majority3 2 bd.clkmode ≠ 3) ∧ (dRs 3 2 []).bit Reg.SYS_TRIM_STAT_VALID = false ∧
    (dRs 3 2 [(Reg.SYS_TRIM_STAT_VALID, 1)]).bit Reg.SYS_TRIM_STAT_VALID = true ∧ bd.sluiceFail = none ∧
    (dRs 2 8 [(Reg.SYS_STRAP_BOOT, 3)]).fld Reg.SYS_STRAP_BOOT = 3 ∧ ({ bd with sluiceFail := some (0, 0) } : Board).sluiceFail = some (0, 0) ∧
    (dRs 2 2 []).sys.trimStop = false ∧
    ({ dev [] with sys := { asserted := 2 ^ srcClkLoss } } : Device).sys.asserted.testBit srcClkLoss = true ∧
    ({} : Device).sys.lockedOnce = 0 ∧ (∀ k, k < 7 → (dCl k).bit (clkBit k) = true) ∧
    (dRq [(clkBit 6, 0)]).bit (clkBit 6) = false ∧ (dRq [(clkBit 6, 0)]).mayReturn 6 = true ∧ (dCl 6).mayReturn 6 = false ∧
    (dRq [(Reg.SF_SEAL_STAT_PERM_NOW, 0x7F)]).perm permBundle = true ∧ (dRq []).fld portSYS.busy = 0 ∧
    (dRq []).nvm.saved = some (15 : Fin 16).val ∧ (dRq []).sys.deferred = 0 ∧ ({} : Device).nvm.saved = none ∧
    (let d := dRq [(Reg.NVM_STAT_FROZEN, 1), (Reg.NVM_SAVE_RESULT, 1)];
      d.bit Reg.NVM_STAT_FROZEN = true ∧ d.bit Reg.NVM_STAT_SAVE_BUSY = false ∧ d.fld Reg.NVM_SAVE_RESULT ≠ 0 ∧
      d.pwr.warnNow = 0) := by decide +kernel

/-- The time base is locked; the alarm is set for the standby second. -/
def dPw : Device := dev [(Reg.TB_STAT_STATE, 2), (Reg.PWR_CFG_ALARM_EN, 1), (Reg.PWR_CFG_PFW_INT, 1)]

theorem witness_SupplyAndStandby : railHas 5 1 = true ∧ dPw.railState 5 ≠ 1 ∧ railHas 0 3 = true ∧ railHas 1 1 = false ∧
    (dPw.nvm.jobs = [] ∧ dPw.pwr.warnNow.testBit 0 = false ∧ dPw.pwr.warned = false ∧ dPw.tick.started = false) ∧
    dPw.bit Reg.PWR_CFG_PFW_INT = true ∧ ({ dPw with pwr := { rail := [(0, 1)] } } : Device).railState 0 = 1 ∧
    (∀ v ∈ [(-999 : Int), 1451, 1999, 0], -1000 < v ∧ v < 2000) ∧
    (dPw.fld Reg.PWR_CFG_AGE_WARN_PPM : Int) < 1000000 ∧ dPw.pwr.aged.testBit 3 = false ∧ dPw.tbLocked = true ∧
    ({} : Device).tbLocked = false ∧ dPw.bit Reg.PWR_CFG_ALARM_EN = true ∧ dPw.bit Reg.PWR_STBY_STAT_WAKE = false ∧
    dPw.stbySec = dPw.fld Reg.PWR_ALARM_HI_SEC * 2 ^ 32 + (dPw.rd Reg.PWR_ALARM_LO).toNat ∧ dPw.fld portPWR.busy = 0 := by
  decide +kernel

/-! ## Host port, registers, recorder -/

/-- The bridge is live and its link up, in D0, with a DMA transfer of 64 KiB that has 4 bytes to go; vector 31 is pending. -/
def dHp : Device := { dev [(Reg.HP_LINK_LINK_UP, 1), (Reg.HP_LINK_BME, 1), (Reg.HP_LINK_MSIX_EN, 1), (Reg.HP_LINK_D_STATE, 0),
  (Reg.SYS_CLK_STAT_PCIE_LOCK, 1), (Reg.HP_PBA_PEND 0, 0x80000000), (Reg.HP_MSIX_CTRL_V 31, 0), (portHP.busy, 1),
  (Reg.HP_DMA_LEN_VALUE, 65536), (Reg.HP_DMA_SADDR_VALUE, 0x7F0000), (Reg.HP_HWIN_WP_RET, 0)] with
  sys := { level := 0, stage := 9 }
  hp := { dma := some ⟨false, 0x7F0000, 0, 65536, 65532, false⟩ } }
def dHp0 : Device := { dHp with regs := (dHp.setF portHP.busy 0).regs, hp := {} }

theorem witness_HostBridge : dHp.hpLive = true ∧ dHp.bit Reg.SYS_CLK_STAT_PCIE_LOCK = true ∧
    dHp.bit Reg.HP_LINK_LINK_UP = true ∧ dHp.hp.ready = false ∧ dHp.bitAt (Reg.HP_PBA_PEND 0) 31 = true ∧
    dHp.msixBlocked 31 = false ∧ ({} : Device).hpLive = false ∧ (dHp.rd Reg.HP_PINS).toNat.testBit 17 = false ∧
    4 ≤ dHp0.fld Reg.HP_DMA_LEN_VALUE ∧ dHp0.fld Reg.HP_DMA_LEN_VALUE ≤ 65536 ∧ dHp0.fld Reg.HP_DMA_LEN_VALUE % 4 = 0 ∧
    dHp0.fld Reg.HP_DMA_SADDR_VALUE % 4 = 0 ∧ dHp0.fld Reg.HP_DMA_SADDR_VALUE + dHp0.fld Reg.HP_DMA_LEN_VALUE ≤ 0x800000 ∧
    dHp0.bit Reg.HP_LINK_BME = true ∧ dHp0.fld Reg.HP_LINK_D_STATE = 0 ∧ dHp0.ce.ecc = [] ∧ dHp0.fld portHP.busy = 0 ∧
    (dHp0.setF Reg.HP_LINK_BME 0).bit Reg.HP_LINK_BME = false ∧ dHp0.hp.dma = none ∧
    dHp.hp.dma = some ⟨false, 0x7F0000, 0, 65536, 65532, false⟩ ∧ dHp.bit portHP.busy = true ∧
    65532 + [(0 : Byte), 0, 0, 0].length ≤ 65536 ∧ dHp.bit Reg.HP_HWIN_WP_RET = false ∧
    (dHp.busWrite 2 (0x7F0000 + 65532) [0, 0, 0, 0]).1 = true := by decide +kernel

theorem witness_RegisterAndHostAccess : isRegAddr 0x4170000 = false ∧ isRegAddr (Reg.TICK_PERIOD) = true ∧
    (rowOf Reg.TICK_PERIOD).isSome = true ∧ ({} : Device).specialWrite Reg.TICK_PERIOD 0xFFFFFFFF false ⟨0, false⟩ = none ∧
    dHp.hpLive = true ∧ dHp.bit Reg.HP_LINK_LINK_UP = true ∧ dHp.fld Reg.HP_LINK_D_STATE = 0 ∧
    (dHp.setF Reg.HP_LINK_D_STATE 3).fld Reg.HP_LINK_D_STATE ≠ 0 ∧
    (∀ k ∈ sharedKeys (0x800000 - 8) 8, dHp.ecc k = .clean) ∧ dHp.bit Reg.HP_HWIN_WP_RET = false ∧
    (dHp.setF Reg.HP_HWIN_WP_RET 1).bit Reg.HP_HWIN_WP_RET = true ∧ dHp.bit Reg.HP_WERR_INFO_VALID = false ∧
    (∀ k : Fin 64, 0x4000000 + 0 ≠ Reg.HSEM k) ∧ dHp.fld portPWR.busy = 0 ∧ dTap.ce.dbgRun = some ⟨1, 5, 0⟩ ∧
    dTap.perm permDebug = true ∧ ({} : Device).ce.dbgRun = none ∧ (∀ k ∈ sharedKeys 20 4, dTap.ecc k = .clean) ∧
    (dTap.busWrite 6 (0x800000 - 4) [1, 2, 3, 4]).1 = true := by decide +kernel

def er (sev n : Nat) : EvRec := ⟨n, 0, 1, sev, false, 31, 0, 0, 3, 0, 0, []⟩
/-- The recorder is live; a record of severity 7 waits; the log holds two in slots 0 and 1, or is full. -/
def dEv (l : List (Fld × Nat)) : Device := { dev ([(⟨Reg.EVR_COPY_DST, 0, 32⟩, 0x7FFFC0), (Reg.EVR_COPY_RES_MAX, 1)] ++ l) with
  sys := { level := 0, stage := 9 }
  evr := { inq := [er 7 0], log := [(0, some (er 2 5)), (1, some (er 7 6))], key := 9, keyIn := 9 } }
def dEvFull (sev : Nat) : Device := { dEv [] with
  evr := { inq := [er 7 0], log := (List.range 4096).map (fun i => (i, some (er sev (i + 1)))) } }
def cj : CopyJob := ⟨0x7FFFC0, 5, 1, 0, none⟩
def dCj : Device := { dEv [(portEVR.busy, 1)] with evr := { copy := some cj, log := [(0, some (er 2 5))] } }

theorem witness_EventRecorder : (dEv []).evrLive = true ∧ (dEv []).evr.inq = er 7 0 :: [] ∧
    (dEv [(Reg.EVR_STAT_FROZEN, 1)]).bit Reg.EVR_STAT_FROZEN = true ∧ (dEv []).bit Reg.EVR_STAT_FROZEN = false ∧
    (dEv []).evr.spill.length < 32 ∧
    32 ≤ ({ dEv [] with evr := { spill := List.replicate 32 (er 1 0) } } : Device).evr.spill.length ∧
    sget noRec (dEv []).evr.log 2 = none ∧ (∀ j, j < 2 → sget noRec (dEv []).evr.log j ≠ none) ∧
    (dEv []).fld portEVR.busy = 0 ∧ (dEv []).fld Reg.EVR_COPY_DST_DST % 64 = 0 ∧ 1 ≤ (dEv []).fld Reg.EVR_COPY_RES_MAX ∧
    (dEv []).fld Reg.EVR_COPY_DST_DST + 64 * (dEv []).fld Reg.EVR_COPY_RES_MAX ≤ 0x800000 ∧ (dEv []).evr.copy = none ∧
    dCj.evr.copy = some cj ∧ dCj.evr.copyWait = none ∧ dCj.bit Reg.EVR_RING_EN = false ∧ dCj.bit portEVR.busy = true ∧
    dCj.copySet cj = [er 2 5] ∧ (dCj.busWrite 7 cj.dst (er 2 5).native).1 = true ∧ (dEv []).evr.key ≠ 0 ∧
    (dEv []).evr.keyIn = (dEv []).evr.key ∧ (dEv [(Reg.SF_SEAL_STAT_PERM_NOW, 0x7F)]).perm permClear = true ∧
    (dEv []).perm permClear = false ∧ (dEv []).bit (Reg.TASK_ROUTE_EN 0xF0) = false := by decide +kernel
/-! ## The spec's worked examples -/

/-- The device after a command; the reset device where it answers none. -/
def after (i : Instr) (s : State) : Device :=
  match exec i s with
  | .next t => t.dev
  | _ => {}

/-- The words of the brake-pipe program (05_az_word.md) are legal. -/
theorem test_brakePipe_words : [0x808400C8, 0xB8000000, 0x983C0100, 0x842C0040, 0xA0D01800, 0xB2800000, 0x042000B0, 0xA00007D0,
    0xC0100011, 0x1C100020, 0x6C800000].all wordLegal = true := by decide +kernel

/-- A word of zeros, opcode 0x0D, 0x27 and area 0xC are illegal (R112–R114, R136). -/
theorem test_illegal_words : [0, 0x34000000, 0x9C000000, 0x04C00000].all (fun w => !wordLegal w) = true := by decide +kernel

/-- ITF, SCL and LITF of that program: 9,830 counts give t4 = 98,300.0 and 2.9999695 bar. -/
theorem test_brakePipe_values : fOfInt 9830 = 0x46199800 ∧ fMul 0x46199800 0x41200000 = some 0x47BFFE00 ∧
    fDiv 0x47BFFE00 0x46FFFE00 = some 0x403FFF80 ∧
    ((after (.azLitf 0 0x101800) sA).ctx 0 0).a = 0x40600000 := by decide +kernel

/-- Addresses of 22_address_map.md. -/
theorem test_addresses : Reg.TASK_CFG 4 12 = 0x04031180 ∧ Reg.HSEM 5 = 0x04130814 := by decide

/-- The first corrections of 02_tick.md: e = +7 µs and +1 µs. -/
theorem test_align : (let d (l : Nat) (o : SMap (Option Int)) : Device := { dev ([(Reg.SYS_ROLE_STRAP_ROLE, l + 1),
      (Reg.TRI_LANE_STAT_STATE_A, 1), (Reg.TRI_LANE_STAT_STATE, 1)] ++ all3) with tri := { offset := o } }
    (d 0 [(1, some 30), (2, some (-1200))]).alignC = 0 ∧ (d 1 [(0, some (-30)), (2, some (-1230))]).alignC = -30 ∧
      (d 2 [(0, some 1200), (1, some 1230)]).alignC = 1200) := by decide +kernel

/-- HSEM_05 of 18_host_port.md: CE_02 wins against the host; then the host against CE_00 with q = 23. -/
def dHs (q : Nat) : Device := { dev [(Reg.CE_STATUS_STATE 2, 3), (Reg.TASK_STAT_STATE 2 0, 2)] with mb := { q := [(5, q)] } }
theorem test_semaphore_engine : (after (.azSemTry 2 0 5 [24]) (at_ (dHs 0))).semOwner 5 = 0x60 ∧
    sget zeroAt (after (.azSemTry 2 0 5 [24]) (at_ (dHs 0))).mb.q 5 = 1 ∧
    ((after (.azSemTry 2 0 5 [24]) (at_ (dHs 0))).ctx 2 0).la = true := by decide +kernel
theorem test_semaphore_host : (after (.hsemReadAcquire 5 false [0]) (at_ (dHs 23))).semOwner 5 = 0x1C0 := by decide +kernel

/-- Slot 8 of 21_power_weir.md: DO_01 claims 300 of 500 mA since slot 4; DO_02 and DO_03 fit, DO_04 does not. -/
def dWx : Device := { dFd [(⟨Reg.PWR_INR 0, 0, 32⟩, 0x00663668), (Reg.PWR_WEIR_INR_US 0, 4)] with
  fd := { queue := [(0, [2, 3, 4, 5])], head := [(0, 500)], claims := [(0, [(4, 300)])] } }
theorem test_weir : sget noQueue (after (.weirGrant 8) (at_ dWx)).fd.queue 0 = [4, 5] ∧
    sget noClaims (after (.weirGrant 8) (at_ dWx)).fd.claims 0 = [(8, 300), (8, 150)] := by decide +kernel

/-- The depot test of 07_images_forcing.md: FORCE_SET of bit 4.0 of I is staged at entry 0. -/
theorem test_force : (after (.forceSet 0) (at_ (dev [(Reg.SF_SEAL_STAT_PERM_NOW, 2), (⟨Reg.IMG_FORCE_ARG0, 0, 32⟩, 0x80000020),
    (⟨Reg.IMG_FORCE_ARG1, 0, 32⟩, 1)]))).img.staged = [.set 0 0x80000020 1] := by decide +kernel

/-- A full log of 19_event_recorder.md: an event of severity 5 overwrites the record of severity 3 with the lowest ESEQ. -/
theorem test_lowest : lowestSlot [(7, er 3 9), (2, er 3 4), (5, er 3 6)] = some (2, er 3 4) := by decide

/-- The wire time of entry 0 of 11_network_time.md: 1,000 bytes at 1,000 Mbit/s take 8,192 ns. -/
theorem test_wire : (dev [(Reg.ETH_STAT_SPEED 0, 2)]).wireNs 0 1000 = 8192 := by decide +kernel

/-- A write of a register with codes ro, rw and rwl while the configuration is locked (R12): TICK_PERIOD stays. -/
theorem test_locked_register : (after (.genericRegisterWrite Reg.TICK_PERIOD 0xFFFFFFFF true 0 false)
    (at_ { dev [] with ldr := { locked := true } })).rd Reg.TICK_PERIOD = regReset Reg.TICK_PERIOD := by decide +kernel

/-! ## Ill-formed commands -/

theorem smoke_wellFormed_registers : Instr.wf (.genericRegisterWrite 2 0 true 0 false) = false ∧
    Instr.wf (.genericRegisterWrite (2 ^ 32) 0 true 0 false) = false ∧ Instr.wf (.eccWriteback 0x100000) = false ∧
    Instr.wf (.eccWriteback 0x21E000) = false ∧ Instr.wf (.scrubberRead 0x50060000 .good) = false ∧
    Instr.wf (.scrubberRead 0x4017FFFF .good) = true ∧ Instr.wf (.azBmov 0 0 0 (2 ^ 32)) = false ∧
    Instr.wf (.azSemTry 0 0 0 [32]) = false ∧ Instr.wf (.hsemReadAcquire 0 false [32]) = false := by decide +kernel

theorem smoke_wellFormed_links : Instr.wf (.identReceived 0 { idB with role := 8 }) = false ∧
    Instr.wf (.ackReceived 0 65536) = false ∧ Instr.wf (.nakReceived 0 65536) = false ∧
    Instr.wf (.timeParcelReceived 0 (2 ^ 64) 0 0 none) = false ∧ Instr.wf (.timeParcelReceived 0 0 (2 ^ 64) 0 none) = false ∧
    Instr.wf (.voteParcelReceived 0 (vm 8)) = false ∧ Instr.wf (.voteParcelReceived 0 { vm 1 with perm := 128 }) = false ∧
    Instr.wf (.segmentParcelReceived 0 65536 none) = false ∧ Instr.wf (.ctrlExitReceived 0 16) = false ∧
    Instr.wf (.startReceived 0 (2 ^ 64)) = false ∧ Instr.wf (.heartbeatReceived (hb 1 8)) = false ∧
    Instr.wf (.copyDataReceived 0 (2 ^ 32) false 0 []) = false ∧ Instr.wf (.copyMarkerReceived 0 (2 ^ 32) 0 0) = false ∧
    Instr.wf (.copyAckReceived (2 ^ 32)) = false ∧
    Instr.wf (.frameReceived 0 0 (List.replicate 255 0) 0 true true) = false := by decide +kernel

theorem smoke_wellFormed_host : Instr.wf (.hostMemoryRead true 0x1000000 4 true) = false ∧
    Instr.wf (.hostMemoryRead false 0x800000 4 true) = false ∧ Instr.wf (.hostMemoryRead false 0 0 true) = false ∧
    Instr.wf (.hostMemoryRead false 0 4097 true) = false ∧ Instr.wf (.hostMemoryWrite false 0 [] 0 false) = false ∧
    Instr.wf (.hostMemoryWrite true 0x1000000 [none] 0 false) = false ∧ Instr.wf (.hostAtomicOp false 0 .swap 5 0 0) = false ∧
    Instr.wf (.resetStageRelease { bd with boot := [4] }) = false ∧
    Instr.wf (.resetStageRelease { bd with roles := [8] }) = false ∧ Instr.wf (.strapResample [4] [] [] true) = false ∧
    Instr.wf (.strapResample [] [4] [] true) = false ∧ Instr.wf (.strapResample [] [] [8] true) = false ∧
    Instr.wf (.ethCalibrationDone 0 (List.replicate 65 0) 0) = false ∧
    Instr.wf (.tempSample (List.replicate 9 0) [] false) = false := by decide +kernel

end Sys2Proof.Tests
end

section
/-! SUPPORT. Register accesses by the host and by the debug port (R11–R13, R27, R104, R498–R504, R509): one lemma per
operation, and the statements about them and about the release of POR. -/

namespace Sys2Proof.Machine

/-! ## The release of POR (R12) -/

/-- The engines are OFF and have not trapped. -/
theorem reset_engines : ∀ e, e < 24 → State.reset.dev.engState e = 0 ∧ State.reset.dev.rd (Reg.CE_TRAP_0 e) = 0 ∧
    State.reset.dev.rd (Reg.CE_TRAP_1 e) = 0 ∧ State.reset.dev.rd (Reg.CE_TRAP_2 e) = 0 := by
  decide +kernel

/-- No semaphore has an owner. -/
theorem reset_semOwner : ∀ k, k < 64 → State.reset.dev.semOwner k = 0 := by decide +kernel

/-- No mailbox holds a message, and no doorbell is set. -/
theorem reset_mailboxes : ∀ k, k < 25 → State.reset.dev.rd (Reg.MB_EP_W2 k) = 0 ∧
    State.reset.dev.rd (Reg.MB_EP_W3 k) = 0 ∧ State.reset.dev.rd (Reg.MB_EP_W4 k) = 0 := by
  decide +kernel

/-- Settles O20: what is not a register is empty by the defaults of the state, and the registers hold their reset
values. -/
theorem resetState : Obligations.ResetState :=
  ⟨rfl, rfl, rfl, rfl, reset_engines, fun _ => ⟨rfl, rfl⟩, fun k hk => ⟨reset_semOwner k hk, rfl⟩, reset_mailboxes,
    by decide +kernel, by decide +kernel, by decide +kernel, by decide +kernel⟩

/-! ## What a command leaves -/

/-- A command answers the device t once Sluice has acted. -/
theorem completes_next {i : Instr} {s : State} {t : Device} {P : Device → Prop}
    (hx : exec i s = .next ⟨t.sluice, s.pending⟩) (h : P t.sluice) : Completes i s P := ⟨_, hx, rfl, h⟩

/-- A command whose effect on the device is t answers the device t once Sluice has acted. -/
theorem completes_run {i : Instr} {s : State} {f : Device → Device} {t : Device} {P : Device → Prop}
    (hx : exec i s = run f s) (hf : f s.dev = t) (h : P t.sluice) : Completes i s P :=
  completes_next (by rw [hx, ← hf]; rfl) h

/-- Without an effect, Sluice alone acts. -/
theorem Device.sluice_nothing (d : Device) : d.Writes d.sluice [] ∧ d.sluice.evr = d.evr :=
  ⟨(Device.Plain.refl d).writes, d.sluice_evr⟩

/-- A soft change keeps memories and engines, and registers outside its list and SF_GATE. -/
theorem Device.Soft.quiet {d t : Device} {l : List Nat} (h : d.Soft (· ∈ l) t) :
    d.KeepsRegs t.sluice (Reg.SF_GATE :: l) ∧ d.KeepsMem t.sluice ∧ t.sluice.ce = d.ce := by
  obtain ⟨r, v, k, m, hf⟩ := h.form
  refine ⟨fun a ha => ?_, ?_, ?_⟩
  · simp only [List.mem_cons, not_or] at ha
    rw [Device.rd_sluice _ ha.1, h.regs a ha.2]
  · subst hf
    exact ⟨by simp, by simp, by simp⟩
  · subst hf
    simp

/-- What is not the controllers' own is always sent. -/
theorem Device.send_sent (d : Device) {m : Sent} (hm : m.ofControllers = false) : (d.send m).sent = m :: d.sent := by
  simp [Device.send, hm]

/-- An answer to the host is all that its request leaves. -/
theorem Device.send_reply (d : Device) {m : Sent} (hm : m.ofControllers = false) :
    (d.send m).sluice.sent = m :: d.sent ∧ (d.KeepsRegs (d.send m).sluice [Reg.SF_GATE] ∧
      d.KeepsMem (d.send m).sluice ∧ (d.send m).sluice.ce = d.ce) ∧ (d.send m).sluice.evr = d.evr :=
  ⟨by rw [Device.sluice_sent, d.send_sent hm], (d.soft_send (R := (· ∈ [])) m).quiet, by simp⟩

/-- A command has ended with the code that it was ended with. -/
theorem Device.endCmd_ended (d : Device) (p : Port) {code : Nat} (hp : p.stat ≠ Reg.SF_GATE) (hc : code < 8) :
    (d.endCmd p code).sluice.Ended d p code where
  busy := by rw [Device.fld_sluice _ (f := p.busy) hp, Device.endCmd_busy]
  code := by rw [Device.fld_sluice _ (f := p.code) hp, Device.endCmd_code, Nat.mod_eq_of_lt hc]
  seq := by rw [Device.fld_sluice _ (f := p.seq) hp, Device.endCmd_seq]

/-- A command whose argument is wrong ends with code 2 (R29). -/
theorem Device.command_badArg (d : Device) (p : Port) (op arg : Nat) (w : Word) {k : Checks} (body : Device → Device)
    (hb : d.fld p.busy = 0) (h1 : k.arg = false) : d.command p op arg w k body = d.endCmd p 2 := by
  have : d.bit p.busy = false := by simp [Device.bit, hb]
  simp [Device.command, this, h1]

/-! ## A write of a register with plain fields (R11) -/

theorem getLsbD_wd (n : Nat) {i : Nat} (hi : i < 32) : (wd n).getLsbD i = n.testBit i := by
  simp only [wd, BitVec.getLsbD_ofNat, hi, decide_true, Bool.true_and]

/-- Each bit of a written register follows its access code. -/
theorem getLsbD_maskWrite (r : Reg.Row) (locked : Bool) (old val : Word) {i : Nat} (hi : i < 32) :
    (maskWrite r locked old val).getLsbD i = if r.w1c.testBit i && val.getLsbD i then false
      else if r.rw.testBit i || (r.rwl.testBit i && !locked) then val.getLsbD i else old.getLsbD i := by
  have hm : (wd (if locked then r.rw else r.rw ||| r.rwl)).getLsbD i = (r.rw.testBit i || (r.rwl.testBit i && !locked)) := by
    cases locked <;> simp [getLsbD_wd _ hi]
  have hc := getLsbD_wd r.w1c hi
  simp only [maskWrite, BitVec.getLsbD_and, BitVec.getLsbD_or, BitVec.getLsbD_not, hm, hc, hi, decide_true, Bool.true_and]
  generalize r.w1c.testBit i = c, (r.rw.testBit i || (r.rwl.testBit i && !locked)) = m
  cases c <;> cases m <;> cases val.getLsbD i <;> simp

/-- The event of a locked write changes the recorder alone. The operation is unfolded before it meets its arguments, with
the offset of a named: the kernel would count a difference with a literal of this size down by ones. -/
theorem Device.plain_lockedWrite (d : Device) {R : Nat → Prop} (a : Nat) (val : Word) (h : R Reg.EVR_LOSS) :
    d.Plain R (d.lockedWrite a val) := by
  obtain ⟨n, hn⟩ : ∃ n, n = a - 0x4000000 := ⟨_, rfl⟩
  generalize hf : @Device.lockedWrite = f
  delta Device.lockedWrite at hf
  subst hf
  beta_reduce
  rw [← hn]
  extract_lets b ws
  rcases blockEv b with _ | ⟨ev, shared⟩
  · exact .refl d
  · exact d.plain_raise _ _ h

theorem Device.plain_plainWrite (d : Device) (r : Reg.Row) (a : Nat) (val : Word) :
    d.Plain (· ∈ [a, Reg.EVR_LOSS]) (d.plainWrite r a val) := by
  have h1 : d.Plain (· ∈ [a, Reg.EVR_LOSS]) (d.wr a (maskWrite r d.ldr.locked (d.rd a) val)) := d.plain_wr _ (by simp)
  exact .ite (h1.trans (Device.plain_lockedWrite _ _ _ (by simp))) h1

theorem Device.rd_plainWrite (d : Device) (r : Reg.Row) {a : Nat} (val : Word) (h : a ≠ Reg.EVR_LOSS) :
    (d.plainWrite r a val).rd a = maskWrite r d.ldr.locked (d.rd a) val := by
  simp only [Device.plainWrite]
  split
  · rw [(Device.plain_lockedWrite _ (R := (· = Reg.EVR_LOSS)) a val rfl).regs a h, Device.rd_wr_same]
  · exact Device.rd_wr_same _ _ _

/-- A write that meets no locked field records no event. -/
theorem Device.plainWrite_evr (d : Device) {r : Reg.Row} (a : Nat) (val : Word)
    (h : d.ldr.locked = false ∨ r.rwl = 0) : (d.plainWrite r a val).evr = d.evr := by
  have hn : ¬(d.ldr.locked = true ∧ r.rwl ≠ 0) := by
    rintro ⟨hl, hr⟩
    rcases h with h | h
    · simp [h] at hl
    · exact hr h
  simp only [Device.plainWrite, if_neg hn, Device.wr_evr]

theorem Device.regWrite_none (d : Device) {a : Nat} (val : Word) (byDbg : Bool) (sp : SealPins) (h : rowOf a = none) :
    d.regWrite a val byDbg sp = d := by
  simp only [Device.regWrite, h]

theorem Device.regWrite_plain (d : Device) {a : Nat} {val : Word} {byDbg : Bool} {sp : SealPins} {r : Reg.Row}
    (hr : rowOf a = some r) (hs : d.specialWrite a val byDbg sp = none) :
    d.regWrite a val byDbg sp = d.plainWrite r a val := by
  simp only [Device.regWrite, hr, hs]

/-! ## A write of a CMD register (R27, R28) -/

/-- A write of a CMD register takes a command. -/
theorem exec_write_cmd {a : Nat} (ha : isRegAddr a = true) (hr : (rowOf a).isSome = true) (hc : isCmd a = true) (v : Word)
    (host : Bool) (pins : BitVec 8) (loop : Bool) (s : State) :
    exec (.genericRegisterWrite a v host pins loop) s =
      run (fun d => d.cmdWrite a v (!host) ⟨pins.toNat, loop⟩) s := by
  obtain ⟨r, hr⟩ := Option.isSome_iff_exists.mp hr
  change execGenericRegisterWrite a v host pins loop s = _
  simp only [execGenericRegisterWrite, ha, if_true, Device.regWrite, hr, Device.specialWrite, hc]

/-- The OP of a word written to CMD. -/
theorem cmdWord_op {op : Nat} (h : op < 256) (arg : BitVec 24) :
    (BitVec.ofNat 32 (op * 2 ^ 24 + arg.toNat)).toNat / 2 ^ 24 = op := by
  have := arg.isLt
  rw [BitVec.toNat_ofNat]
  omega

/-- The ARG of a word written to CMD. -/
theorem cmdWord_arg (op : Nat) (arg : BitVec 24) :
    (BitVec.ofNat 32 (op * 2 ^ 24 + arg.toNat)).toNat % 2 ^ 24 = arg.toNat := by
  have := arg.isLt
  rw [BitVec.toNat_ofNat]
  omega

theorem Device.cmdWrite_FLD (d : Device) (v : Word) (byDbg : Bool) (sp : SealPins) :
    d.cmdWrite Reg.FLD_CMD v byDbg sp = d.opFLD (v.toNat / 2 ^ 24) (v.toNat % 2 ^ 24) := rfl

theorem Device.cmdWrite_LDR (d : Device) (v : Word) (byDbg : Bool) (sp : SealPins) :
    d.cmdWrite Reg.LDR_CMD v byDbg sp = d.opLDR sp (v.toNat / 2 ^ 24) (v.toNat % 2 ^ 24) := rfl

theorem Device.cmdWrite_EVR (d : Device) (v : Word) (byDbg : Bool) (sp : SealPins) :
    d.cmdWrite Reg.EVR_CMD v byDbg sp = d.opEVR byDbg (v.toNat / 2 ^ 24) (v.toNat % 2 ^ 24) := rfl

theorem Device.cmdWrite_PWR (d : Device) (v : Word) (byDbg : Bool) (sp : SealPins) :
    d.cmdWrite Reg.PWR_CMD v byDbg sp = d.opPWR (v.toNat / 2 ^ 24) (v.toNat % 2 ^ 24) := rfl

theorem nthOf_ceCmd (e : Eng) : nthOf (Reg.CE_CMD 0) 0x400 24 (Reg.CE_CMD e) = some e.val := by revert e; decide

theorem ceCmd_isRegAddr (e : Eng) : isRegAddr (Reg.CE_CMD e) = true := by revert e; decide

theorem ceCmd_isCmd (e : Eng) : isCmd (Reg.CE_CMD e) = true := by simp [isCmd, nthOf_ceCmd]

theorem ceCmd_row (e : Eng) : (rowOf (Reg.CE_CMD e)).isSome = true := by revert e; decide

theorem Device.cmdWrite_CE (d : Device) (e : Eng) (v : Word) (byDbg : Bool) (sp : SealPins) :
    d.cmdWrite (Reg.CE_CMD e) v byDbg sp = d.opCE e (v.toNat / 2 ^ 24) (v.toNat % 2 ^ 24) := by
  simp only [Device.cmdWrite, nthOf_ceCmd, e.isLt, dif_pos]

theorem exec_write_clearFault (arg : BitVec 24) (host : Bool) (pins : BitVec 8) (loop : Bool) (s : State) :
    exec (.genericRegisterWrite Reg.FLD_CMD (BitVec.ofNat 32 (2 * 2 ^ 24 + arg.toNat)) host pins loop) s =
      exec (.clearFault arg) s := by
  rw [exec_write_cmd rfl rfl rfl]
  simp only [Device.cmdWrite_FLD, cmdWord_op (show 2 < 256 by decide), cmdWord_arg 2]
  rfl

theorem exec_write_hostGo (arg : BitVec 24) (host : Bool) (pins : BitVec 8) (loop : Bool) (s : State) :
    exec (.genericRegisterWrite Reg.LDR_CMD (BitVec.ofNat 32 (8 * 2 ^ 24 + arg.toNat)) host pins loop) s =
      exec (.hostGo arg pins loop) s := by
  rw [exec_write_cmd rfl rfl rfl]
  simp only [Device.cmdWrite_LDR, cmdWord_op (show 8 < 256 by decide), cmdWord_arg 8]
  rfl

theorem exec_write_clear (arg : BitVec 24) (host : Bool) (pins : BitVec 8) (loop : Bool) (s : State) :
    exec (.genericRegisterWrite Reg.EVR_CMD (BitVec.ofNat 32 (5 * 2 ^ 24 + arg.toNat)) host pins loop) s =
      exec (.clear arg (!host)) s := by
  rw [exec_write_cmd rfl rfl rfl]
  simp only [Device.cmdWrite_EVR, cmdWord_op (show 5 < 256 by decide), cmdWord_arg 5]
  rfl

theorem exec_write_halt (e : Eng) (arg : BitVec 24) (host : Bool) (pins : BitVec 8) (loop : Bool) (s : State) :
    exec (.genericRegisterWrite (Reg.CE_CMD e) (BitVec.ofNat 32 (1 * 2 ^ 24 + arg.toNat)) host pins loop) s =
      exec (.halt e arg) s := by
  rw [exec_write_cmd (ceCmd_isRegAddr e) (ceCmd_row e) (ceCmd_isCmd e)]
  simp only [Device.cmdWrite_CE, cmdWord_op (show 1 < 256 by decide), cmdWord_arg 1]
  rfl

/-- PWR knows the OPs 1 and 2. -/
theorem Device.opPWR_unknown (d : Device) {op : Nat} (arg : Nat) (h : 2 < op) :
    d.opPWR op arg = d.unknownOp portPWR op arg := by
  obtain ⟨n, rfl⟩ := Nat.exists_eq_add_of_le' h
  rfl

theorem exec_write_unknown {v : Word} {op : Nat} {arg : BitVec 24} (hop : v.toNat / 2 ^ 24 = op)
    (harg : v.toNat % 2 ^ 24 = arg.toNat) (h : 2 < op) (host : Bool) (pins : BitVec 8) (loop : Bool) (s : State) :
    exec (.genericRegisterWrite Reg.PWR_CMD v host pins loop) s =
      run (fun d => d.unknownOp portPWR op arg.toNat) s := by
  rw [exec_write_cmd rfl rfl rfl]
  simp only [Device.cmdWrite_PWR, hop, harg, Device.opPWR_unknown _ _ h]

/-! ## Requests of the host (R496–R499) -/

/-- What a request of the host comes to: nothing without a link or without data, an unsupported request outside D0, its
effect otherwise. -/
def Device.hostServe (d : Device) (empty : Bool) (body : Device) : Device :=
  if !d.hostReaches || empty then d else if d.hostSleeps then d.send .unsupported else body

theorem Device.hostReaches_iff (d : Device) :
    d.hostReaches = true ↔ d.hpLive = true ∧ d.bit Reg.HP_LINK_LINK_UP = true := by
  simp only [Device.hostReaches, Bool.and_eq_true]

theorem Device.hostServe_dropped (d : Device) {empty : Bool} (body : Device)
    (h : ¬(d.hpLive = true ∧ d.bit Reg.HP_LINK_LINK_UP = true) ∨ empty = true) : d.hostServe empty body = d := by
  rw [← d.hostReaches_iff, Bool.not_eq_true] at h
  rcases h with h | h <;> simp only [Device.hostServe, h, Bool.not_false, Bool.true_or, Bool.or_true, if_true]

theorem Device.hostServe_asleep (d : Device) {empty : Bool} (body : Device)
    (h : d.hpLive = true ∧ d.bit Reg.HP_LINK_LINK_UP = true) (he : empty = false)
    (hs : d.fld Reg.HP_LINK_D_STATE ≠ 0) : d.hostServe empty body = d.send .unsupported := by
  rw [← d.hostReaches_iff] at h
  have hs : d.hostSleeps = true := by simpa [Device.hostSleeps] using hs
  simp [Device.hostServe, h, he, hs]

theorem Device.hostServe_awake (d : Device) {empty : Bool} (body : Device)
    (h : (d.hpLive = true ∧ d.bit Reg.HP_LINK_LINK_UP = true) ∧ d.fld Reg.HP_LINK_D_STATE = 0) (he : empty = false) :
    d.hostServe empty body = body := by
  obtain ⟨h, hs⟩ := h
  rw [← d.hostReaches_iff] at h
  have hs : d.hostSleeps = false := by simp [Device.hostSleeps, hs]
  simp [Device.hostServe, h, he, hs]

theorem exec_hostMemoryRead (hwa : Bool) (off n : Nat) (full : Bool) (s : State) :
    exec (.hostMemoryRead hwa off n full) s = run (fun d => d.hostServe (n == 0)
      (if hwa then (if off < 0x1000000 then d.hwaRead off n full else d)
        else if off + n ≤ 0x800000 then d.hwbRead off n else d)) s := rfl

theorem exec_hostMemoryWrite (hwa : Bool) (off : Nat) (l : List (Option Byte)) (pins : BitVec 8) (loop : Bool)
    (s : State) :
    exec (.hostMemoryWrite hwa off l pins loop) s = run (fun d => d.hostServe l.isEmpty
      (if hwa then (if off < 0x1000000 then d.hwaWrite off l ⟨pins.toNat, loop⟩ else d)
        else if off + l.length ≤ 0x800000 then d.hwbWrite off l else d)) s := rfl

/-- What an AtomicOp into HWB comes to once the function is reached and awake. -/
def Device.hwbAtomicOp (d : Device) (off : Nat) (kind : AtomicKind) (n v w : Nat) : Device :=
  if n ≠ 4 ∧ n ≠ 8 then d.send .unsupported
  else if off + n ≤ 0x800000 then
    if off % n ≠ 0 then d.abortRead off hcForm [] else d.hwbAtomic off kind n v w
  else d

theorem exec_hostAtomicOp (off : Nat) (kind : AtomicKind) (n : Nat) (v w : BitVec 64) (s : State) :
    exec (.hostAtomicOp false off kind n v w) s =
      run (fun d => d.hostServe false (d.hwbAtomicOp off kind n v.toNat w.toNat)) s := by
  change execHostAtomicOp false off kind n v w s = _
  simp only [execHostAtomicOp, Device.hostServe, Device.hwbAtomicOp, Bool.or_false, Bool.false_eq_true, if_false]

/-! ## Failed requests (R502, R503) -/

/-- What a Completer Abort leaves: the answer, its count and its event. -/
theorem Device.abortRead_sluice (d : Device) (a cause : Nat) (l : List Byte) :
    (d.abortRead a cause l).sluice.sent = .completion l true :: d.sent ∧
      (d.abortRead a cause l).sluice.fld Reg.HP_CNT_CA_SENT =
        min (d.fld Reg.HP_CNT_CA_SENT + 1) (2 ^ Reg.HP_CNT_CA_SENT.width - 1) ∧
      d.Logs (d.abortRead a cause l).sluice 0x3C5 [wd a, wd cause] ∧
      d.KeepsRegs (d.abortRead a cause l).sluice (Reg.SF_GATE :: [Reg.HP_CNT, Reg.EVR_LOSS]) ∧
      d.KeepsMem (d.abortRead a cause l).sluice ∧ (d.abortRead a cause l).sluice.ce = d.ce := by
  have hrd : ∀ b, (d.send (.completion l true)).rd b = d.rd b := Device.rd_congr (Device.send_regs _ _)
  refine ⟨?_, ?_, ?_, Device.Soft.quiet ?_⟩
  · simp only [Device.abortRead, Device.sluice_sent, Device.raise_sent, Device.inc_sent]
    exact d.send_sent rfl
  · rw [Device.fld_sluice _ (by decide), Device.abortRead, Device.fld_raise _ _ _ (by decide),
      Device.fld_inc_same _ _ (by decide), Device.fld_congr (hrd _)]
  · refine Device.Logs.congr (Device.raise_logs d _ 0x3C5 _ ?_ (by simp) (by simp)) (Device.sluice_evr _)
    rw [Device.rd_inc_other _ (by decide), hrd]
  · exact ((d.soft_send _).trans (Device.soft_inc _ (by simp [Reg.HP_CNT_CA_SENT]))).trans
      (Device.soft_raise _ _ _ (by simp))

/-- A host cause that was raised stands. -/
theorem Device.cause_bitAt (d : Device) {k : Nat} (hk : k < 32) : (d.cause k).bitAt Reg.HP_IRQ_STAT_CAUSE k = true := by
  have hset : (d.setBitAt Reg.HP_IRQ_STAT_CAUSE k true).bitAt Reg.HP_IRQ_STAT_CAUSE k = true := by
    rw [Device.bitAt, Device.setBitAt, Device.fld_setF_same _ _ _ (by decide),
      show Reg.HP_IRQ_STAT_CAUSE.width = 32 from rfl, Nat.testBit_mod_two_pow, testBit_putBit]
    simp [hk]
  have hmsix : ∀ t : Device, (t.msix k).fld Reg.HP_IRQ_STAT_CAUSE = t.fld Reg.HP_IRQ_STAT_CAUSE := by
    intro t
    unfold Device.msix
    split
    · exact Device.fld_setF_other _ _ (.inl (by decide))
    · exact Device.fld_congr (Device.rd_congr (Device.send_regs _ _) _)
  unfold Device.cause
  split
  · next h => exact h
  · simp only []
    split
    · rw [Device.bitAt, hmsix]
      exact hset
    · exact hset

/-- The latch of the first failed write, or the count of a further one (R503). -/
def Device.latchWrite (d : Device) (a cause : Nat) : Device :=
  if d.bit Reg.HP_WERR_INFO_VALID then d.inc Reg.HP_WERR_INFO_COUNT
  else
    (((d.wr Reg.HP_WERR_ADDR (wd a)).setF Reg.HP_WERR_INFO_CAUSE cause).setF Reg.HP_WERR_INFO_VALID 1).cause 0

theorem Device.failWrite_eq (d : Device) (a cause : Nat) :
    d.failWrite a cause = ((d.inc Reg.HP_CNT_WERR).latchWrite a cause).raise 0x3C4 [wd a, wd cause] := rfl

/-- The registers that the latch of a failed write writes. -/
def LatchReg (a : Nat) : Prop := a = Reg.HP_WERR_ADDR ∨ a = Reg.HP_WERR_INFO ∨ CauseReg a

theorem Device.soft_latchWrite {R : Nat → Prop} (d : Device) (a cause : Nat) (h : ∀ b, LatchReg b → R b) :
    d.Soft R (d.latchWrite a cause) := by
  have hi : R Reg.HP_WERR_INFO := h _ (.inr (.inl rfl))
  refine .ite (d.soft_inc hi) ?_
  exact (((d.soft_wr _ (h _ (.inl rfl))).trans (Device.soft_setF _ _ hi)).trans (Device.soft_setF _ _ hi)).trans
    (Device.soft_cause _ _ (fun b hb => h b (.inr (.inr hb))))

theorem Device.latchWrite_evr (d : Device) (a cause : Nat) : (d.latchWrite a cause).evr = d.evr := by
  unfold Device.latchWrite
  split <;> simp

theorem Device.latchWrite_sys (d : Device) (a cause : Nat) : (d.latchWrite a cause).sys = d.sys := by
  unfold Device.latchWrite
  split <;> simp

/-- The first failed write is latched with its address and cause, and raises host cause 0. -/
theorem Device.latchWrite_first (d : Device) (a : Nat) {cause : Nat} (hc : cause < 16)
    (h : d.bit Reg.HP_WERR_INFO_VALID = false) :
    (d.latchWrite a cause).rd Reg.HP_WERR_ADDR = wd a ∧ (d.latchWrite a cause).bit Reg.HP_WERR_INFO_VALID = true ∧
      (d.latchWrite a cause).fld Reg.HP_WERR_INFO_CAUSE = cause ∧
      (d.latchWrite a cause).bitAt Reg.HP_IRQ_STAT_CAUSE 0 = true := by
  have hl : d.latchWrite a cause = (((d.wr Reg.HP_WERR_ADDR (wd a)).setF Reg.HP_WERR_INFO_CAUSE cause).setF
      Reg.HP_WERR_INFO_VALID 1).cause 0 := by simp only [Device.latchWrite, h, Bool.false_eq_true, if_false]
  have hrd : ∀ (t : Device) (b : Nat), ¬CauseReg b → (t.cause 0).rd b = t.rd b :=
    fun t b hb => (t.soft_cause 0 (fun _ hr => hr)).regs b hb
  have hAddr : ¬CauseReg Reg.HP_WERR_ADDR := by unfold CauseReg; decide
  have hInfo : ¬CauseReg Reg.HP_WERR_INFO := by unfold CauseReg; decide
  rw [hl]
  refine ⟨?_, ?_, ?_, Device.cause_bitAt _ (by decide)⟩
  · rw [hrd _ _ hAddr, Device.rd_setF_other _ _ (by decide), Device.rd_setF_other _ _ (by decide), Device.rd_wr_same]
  · rw [Device.bit_eq_true, Device.fld_congr (hrd _ _ hInfo), Device.fld_setF_same _ _ _ (by decide)]
    decide
  · rw [Device.fld_congr (hrd _ _ hInfo), Device.fld_setF_other _ _ (.inr (by decide)),
      Device.fld_setF_same _ _ _ (by decide)]
    exact Nat.mod_eq_of_lt hc

/-- What a failed posted write leaves. -/
theorem Device.failWrite_sluice (d : Device) (a : Nat) {cause : Nat} (hc : cause < 16) :
    (d.failWrite a cause).sluice.fld Reg.HP_CNT_WERR =
        min (d.fld Reg.HP_CNT_WERR + 1) (2 ^ Reg.HP_CNT_WERR.width - 1) ∧
      d.KeepsMem (d.failWrite a cause).sluice ∧ (d.failWrite a cause).sluice.ce = d.ce ∧
      d.Logs (d.failWrite a cause).sluice 0x3C4 [wd a, wd cause] ∧ (d.bit Reg.HP_WERR_INFO_VALID = false →
        (d.failWrite a cause).sluice.rd Reg.HP_WERR_ADDR = wd a ∧
        (d.failWrite a cause).sluice.bit Reg.HP_WERR_INFO_VALID = true ∧
        (d.failWrite a cause).sluice.fld Reg.HP_WERR_INFO_CAUSE = cause ∧
        (d.failWrite a cause).sluice.bitAt Reg.HP_IRQ_STAT_CAUSE 0 = true) := by
  have hlatch := fun t : Device => t.soft_latchWrite a cause (fun _ hb => hb)
  have hCnt : ¬LatchReg Reg.HP_CNT := by unfold LatchReg CauseReg; decide
  have hCode : ¬LatchReg (Reg.EVR_CODE 0x3C4) := by unfold LatchReg CauseReg; decide
  have hsoft : d.Soft (· ∈ [Reg.HP_CNT, Reg.HP_WERR_ADDR, Reg.HP_WERR_INFO, Reg.HP_IRQ_STAT, Reg.HP_PBA 0,
      Reg.EVR_LOSS]) (d.failWrite a cause) := by
    rw [d.failWrite_eq]
    refine ((d.soft_inc (by simp [Reg.HP_CNT_WERR])).trans (Device.soft_latchWrite _ _ _ ?_)).trans
      (Device.soft_raise _ _ _ (by simp))
    rintro b (rfl | rfl | rfl | rfl) <;> simp
  obtain ⟨-, hmem, hce⟩ := hsoft.quiet
  rw [d.failWrite_eq] at hmem hce ⊢
  refine ⟨?_, hmem, hce, ?_, fun hv => ?_⟩
  · rw [Device.fld_sluice _ (by decide), Device.fld_raise _ _ _ (by decide), Device.fld_congr ((hlatch _).regs _ hCnt),
      Device.fld_inc_same _ _ (by decide)]
  · refine Device.Logs.congr (Device.raise_logs d _ 0x3C4 _ ?_ ?_ ?_) (Device.sluice_evr _)
    · rw [(hlatch _).regs _ hCode, Device.rd_inc_other _ (by decide)]
    · rw [Device.latchWrite_sys, Device.inc_sys]
    · rw [Device.latchWrite_evr, Device.inc_evr]
  · have hv : (d.inc Reg.HP_CNT_WERR).bit Reg.HP_WERR_INFO_VALID = false := by
      rw [Device.bit, Device.fld_congr (Device.rd_inc_other _ (by decide))]
      exact hv
    obtain ⟨h1, h2, h3, h4⟩ := (d.inc Reg.HP_CNT_WERR).latchWrite_first a hc hv
    refine ⟨?_, ?_, ?_, ?_⟩
    · rw [Device.rd_sluice _ (by decide), Device.rd_raise _ _ _ (by decide), h1]
    · rw [Device.bit, Device.fld_sluice _ (by decide), Device.fld_raise _ _ _ (by decide)]
      exact h2
    · rw [Device.fld_sluice _ (by decide), Device.fld_raise _ _ _ (by decide), h3]
    · rw [Device.bitAt, Device.fld_sluice _ (by decide), Device.fld_raise _ _ _ (by decide)]
      exact h4

/-! ## Reads of the host (R498, R499, R502) -/

theorem hwaForm_word {off : Nat} (h : off % 4 = 0) : hwaForm off 4 true = true := by simp [hwaForm, h]

theorem hwaForm_false (off : Nat) {n : Nat} {full : Bool} (h : full = false ∨ n ≠ 4 ∧ n ≠ 8) :
    hwaForm off n full = false := by
  rcases h with h | ⟨h4, h8⟩
  · simp [hwaForm, h]
  · simp [hwaForm, h4, h8]

theorem nthOf_hsem_none {a : Nat} (h : ∀ k : Fin 64, a ≠ Reg.HSEM k) : nthOf (Reg.HSEM 0) 4 64 a = none := by
  unfold nthOf
  rw [if_neg]
  rintro ⟨h1, h2, h3⟩
  have hk := h ⟨_, h3⟩
  simp only [Reg.HSEM] at h1 h2 hk
  omega

/-- A read of a register that is not a semaphore changes nothing. -/
theorem Device.regRead_view (d : Device) {a : Nat} (byDbg : Bool) (h : ∀ k : Fin 64, a ≠ Reg.HSEM k) :
    d.regRead a byDbg = (d.view a, d) := by
  simp only [Device.regRead, nthOf_hsem_none h]

theorem Device.hwaRead_badForm (d : Device) (off : Nat) {n : Nat} {full : Bool} (h : full = false ∨ n ≠ 4 ∧ n ≠ 8) :
    d.hwaRead off n full = d.abortRead (0x4000000 + off) hcForm [] := by
  simp only [Device.hwaRead, hwaForm_false off h, Bool.not_false, if_true]

theorem Device.hwaRead_unmapped (d : Device) {off : Nat} (h : 0x170000 ≤ off) (h4 : off % 4 = 0) :
    d.hwaRead off 4 true = d.abortRead (0x4000000 + off) hcUnmapped [] := by
  simp only [Device.hwaRead, hwaForm_word h4, Bool.not_true, Bool.false_eq_true, if_false, h, if_true]

theorem Device.hwaRead_word (d : Device) {off : Nat} (h : off < 0x170000) (h4 : off % 4 = 0)
    (hs : ∀ k : Fin 64, 0x4000000 + off ≠ Reg.HSEM k) :
    d.hwaRead off 4 true = d.send (.completion (leBytes 4 (d.view (0x4000000 + off)).toNat) false) := by
  simp only [Device.hwaRead, hwaForm_word h4, Bool.not_true, Bool.false_eq_true, if_false, Nat.not_le.mpr h, if_true,
    d.regRead_view false hs]

/-- A scan of codewords without an error finds none, and changes nothing. -/
theorem Device.hostScan_clean (d : Device) {l : List Nat} (h : d.Clean l) : d.hostScan l = (none, d) := by
  induction l with
  | nil => rfl
  | cons k t ih =>
    rw [Device.hostScan, Device.eccRead_clean d 2 0 k (h k (by simp))]
    exact ih (fun j hj => h j (by simp [hj]))

theorem Device.hwbRead_clean (d : Device) {off n : Nat} (h : d.Clean (sharedKeys off n)) :
    d.hwbRead off n = d.send (.completion (d.seenBytes off n) false) := by
  simp only [Device.hwbRead, d.hostScan_clean h]

/-! ## Writes of the host into SDM (R76, R500, R503) -/

/-- The codewords that n bytes from an address on touch are those of its bytes. -/
theorem mem_sharedKeys {a n b : Nat} (h : a ≤ b) (h' : b < a + n) : b / 8 ∈ sharedKeys a n := by
  have hn : n ≠ 0 := by omega
  rw [sharedKeys, if_neg hn, List.mem_map]
  exact ⟨b / 8 - a / 8, by rw [List.mem_range]; omega, by omega⟩

/-- The byte that a write brings for an address. -/
def laneAt (off : Nat) (data : List (Option Byte)) (b : Nat) : Option Byte :=
  if off ≤ b then (data[b - off]?).join else none

theorem laneAt_add (off : Nat) (data : List (Option Byte)) (n : Nat) : laneAt off data (off + n) = (data[n]?).join := by
  simp [laneAt]

theorem laneAt_outside {off : Nat} {data : List (Option Byte)} {b : Nat} (h : b < off ∨ off + data.length ≤ b) :
    laneAt off data b = none := by
  unfold laneAt
  split
  · rw [List.getElem?_eq_none (by omega)]; rfl
  · rfl

/-- The enabled bytes of a codeword are the bytes that the write brings for its addresses. -/
theorem mem_lanesOf {off : Nat} {data : List (Option Byte)} {k b : Nat} {v : Byte} :
    (b, v) ∈ lanesOf off data k ↔ b / 8 = k ∧ laneAt off data b = some v := by
  simp only [lanesOf, List.mem_filterMap, List.mem_range, Option.ite_none_right_eq_some, Option.map_eq_some_iff,
    Prod.mk.injEq, laneAt]
  constructor
  · rintro ⟨i, hi, hle, w, hw, rfl, rfl⟩
    exact ⟨by omega, hle, hw⟩
  · rintro ⟨rfl, hle, hv⟩
    have hb : 8 * (b / 8) + b % 8 = b := Nat.div_add_mod b 8
    exact ⟨b % 8, Nat.mod_lt _ (by decide), by omega, v, by rw [hb]; exact hv, hb, rfl⟩

/-- The bytes of a memory after bytes were written at addresses, in order. -/
def laneMem (m : List Host.Cell) (l : List (Nat × Byte)) : List Host.Cell := l.foldl (fun m x => sput byte0 m x.1 x.2) m

theorem laneMem_append (m : List Host.Cell) (l l' : List (Nat × Byte)) :
    laneMem m (l ++ l') = laneMem (laneMem m l) l' := List.foldl_append

theorem Device.putLanes_eq (d : Device) (l : List (Nat × Byte)) : d.putLanes l = { d with mem := laneMem d.mem l } := by
  induction l generalizing d with
  | nil => rfl
  | cons x t ih => exact ih (d.setByte x.1 x.2)

/-- A byte for which every written value is the same. -/
theorem sget_laneMem {b : Nat} {v : Byte} (m : List Host.Cell) (l : List (Nat × Byte)) (h : ∀ x ∈ l, x.1 = b → x.2 = v) :
    sget byte0 (laneMem m l) b = if b ∈ l.map Prod.fst then v else sget byte0 m b := by
  induction l generalizing m with
  | nil => rfl
  | cons x t ih =>
    have ht := ih (sput byte0 m x.1 x.2) (fun y hy => h y (by simp [hy]))
    simp only [laneMem, List.foldl_cons] at ht ⊢
    rw [ht]
    by_cases hx : x.1 = b
    · subst hx
      simp [h x (by simp) rfl]
    · simp [Ne.symm hx, sget_sput_other byte0 m x.2 (Ne.symm hx)]

/-- All enabled bytes of a write, codeword by codeword, leave the byte that it brings at each address. -/
theorem sget_laneMem_lanesOf (m : List Host.Cell) (off : Nat) (data : List (Option Byte)) (b : Nat) :
    sget byte0 (laneMem m ((sharedKeys off data.length).flatMap (lanesOf off data))) b =
      (laneAt off data b).getD (sget byte0 m b) := by
  have hmem : ∀ v, (b, v) ∈ (sharedKeys off data.length).flatMap (lanesOf off data) ↔ laneAt off data b = some v := by
    intro v
    simp only [List.mem_flatMap, mem_lanesOf]
    refine ⟨fun ⟨_, _, _, h⟩ => h, fun h => ⟨b / 8, ?_, rfl, h⟩⟩
    by_contra hk
    have hout : ¬(off ≤ b ∧ b < off + data.length) := fun hb => hk (mem_sharedKeys hb.1 hb.2)
    rw [laneAt_outside (by omega)] at h
    exact absurd h (by simp)
  have hin : b ∈ ((sharedKeys off data.length).flatMap (lanesOf off data)).map Prod.fst ↔ (laneAt off data b).isSome := by
    simp only [List.mem_map, Prod.exists, exists_and_right, exists_eq_right, hmem, Option.isSome_iff_exists]
  rw [sget_laneMem (v := (laneAt off data b).getD 0) m]
  · cases hl : laneAt off data b <;> simp [hin, hl]
  · rintro ⟨_, v⟩ hx rfl
    simp [(hmem v).mp hx]

/-- The device with other bytes in SDM and PIM and other errors in codewords. -/
def Device.withMem (d : Device) (m : List Host.Cell) (x : SMap Ecc) : Device :=
  { d with mem := m, ce := { d.ce with ecc := x } }

/-- A change of bytes and of codeword errors leaves registers alone. -/
@[simp] theorem Device.withMem_rd (d : Device) (m : List Host.Cell) (x : SMap Ecc) (a : Nat) :
    (d.withMem m x).rd a = d.rd a := rfl

/-- A change of bytes and of codeword errors leaves the registers, the recorder and every unit alone. -/
theorem Device.withMem_sluice (d : Device) (m : List Host.Cell) (x : SMap Ecc) :
    d.KeepsRegs (d.withMem m x).sluice [Reg.SF_GATE] ∧ d.KeepsUnits (d.withMem m x).sluice ∧
      (d.withMem m x).sluice.evr = d.evr := by
  refine ⟨fun a ha => ?_, ?_, by simp [Device.withMem]⟩
  · rw [Device.rd_sluice _ (by simpa using ha), Device.withMem_rd]
  · constructor <;> simp [Device.withMem]

/-- A write that meets no error stores its enabled bytes and clears errors of codewords, and changes nothing else. -/
theorem Device.hwbStore_clean (d : Device) (off : Nat) (data : List (Option Byte)) (l : List Nat) (h : d.Clean l) :
    ∃ x, d.hwbStore off data l = (none, d.withMem (laneMem d.mem (l.flatMap (lanesOf off data))) x) := by
  induction l generalizing d with
  | nil => exact ⟨d.ce.ecc, rfl⟩
  | cons k t ih =>
    have hk : d.eccRead 2 0 k = (true, d) := Device.eccRead_clean d 2 0 k (h k (by simp))
    have hstore : ∃ x, ((d.setEcc k .clean).putLanes (lanesOf off data k)).hwbStore off data t =
        (none, d.withMem (laneMem d.mem ((k :: t).flatMap (lanesOf off data))) x) := by
      obtain ⟨x, hx⟩ := ih ((d.setEcc k .clean).putLanes (lanesOf off data k)) (fun j hj => by
        rw [Device.putLanes_eq]
        exact d.ecc_setEcc_clean k (h j (by simp [hj])))
      exact ⟨x, by rw [hx, Device.putLanes_eq, List.flatMap_cons, laneMem_append]; rfl⟩
    simp only [Device.hwbStore, hk]
    split
    · next he =>
      obtain ⟨x, hx⟩ := ih d (fun j hj => h j (by simp [hj]))
      exact ⟨x, by rw [hx, List.flatMap_cons, List.isEmpty_iff.mp he, List.nil_append]⟩
    · split
      · exact hstore
      · exact hstore

/-- The write protection of the retained range holds a write back (R500). -/
theorem Device.hwbWrite_barred (d : Device) {off : Nat} {data : List (Option Byte)}
    (h : d.bit Reg.HP_HWIN_WP_RET = true ∧ 0x7F0000 < off + data.length) :
    d.hwbWrite off data = d.failWrite off hcWpRet := if_pos h

theorem Device.hwbWrite_clean (d : Device) {off : Nat} {data : List (Option Byte)}
    (h : ¬(d.bit Reg.HP_HWIN_WP_RET = true ∧ 0x7F0000 < off + data.length)) (hc : d.Clean (sharedKeys off data.length)) :
    ∃ x, d.hwbWrite off data =
      d.withMem (laneMem d.mem ((sharedKeys off data.length).flatMap (lanesOf off data))) x := by
  obtain ⟨x, hx⟩ := d.hwbStore_clean off data _ hc
  have hb : ¬(d.bit Reg.HP_HWIN_WP_RET = true ∧ retBase < off + data.length) := h
  exact ⟨x, by simp only [Device.hwbWrite, if_neg hb, hx]⟩

/-- An accepted write leaves the bytes that it brings, and every other byte as it was. -/
theorem Device.byte_hwbWrite (d : Device) (off : Nat) (data : List (Option Byte)) (x : SMap Ecc) (b : Nat) :
    (d.withMem (laneMem d.mem ((sharedKeys off data.length).flatMap (lanesOf off data))) x).sluice.byte b =
      (laneAt off data b).getD (d.byte b) :=
  (Device.byte_congr (Device.sluice_mem _) b).trans (sget_laneMem_lanesOf d.mem off data b)

/-- A word written into HWA is a register write. -/
theorem Device.hwaWrite_word (d : Device) {off : Nat} (a b c e : Byte) (sp : SealPins) (h : off < 0x170000)
    (h4 : off % 4 = 0) :
    d.hwaWrite off [some a, some b, some c, some e] sp =
      d.regWrite (0x4000000 + off) (wd (leNat [a, b, c, e])) false sp := by
  simp [Device.hwaWrite, hwaForm_word h4, Nat.not_le.mpr h]

theorem isRegAddr_hwa {off : Nat} (h : off < 0x170000) (h4 : off % 4 = 0) : isRegAddr (0x4000000 + off) = true := by
  simp only [isRegAddr, Bool.and_eq_true, decide_eq_true_eq, beq_iff_eq]
  omega

/-- The enabled word of the host reaches the register as a register write of its own. -/
theorem exec_hostWrite_word {off : Nat} (a b c e : Byte) (pins : BitVec 8) (loop : Bool) (s : State)
    (haw : (s.dev.hpLive = true ∧ s.dev.bit Reg.HP_LINK_LINK_UP = true) ∧ s.dev.fld Reg.HP_LINK_D_STATE = 0)
    (h : off < 0x170000) (h4 : off % 4 = 0) :
    exec (.hostMemoryWrite true off [some a, some b, some c, some e] pins loop) s =
      exec (.genericRegisterWrite (0x4000000 + off) (wd (leNat [a, b, c, e])) true pins loop) s := by
  have h' : off < 0x1000000 := by omega
  rw [exec_hostMemoryWrite]
  change _ = execGenericRegisterWrite _ _ true pins loop s
  simp only [execGenericRegisterWrite, run, s.dev.hostServe_awake _ haw rfl, if_true, h', s.dev.hwaWrite_word a b c e _ h h4,
    isRegAddr_hwa h h4, Bool.not_true, List.isEmpty_cons]

/-! ## AtomicOps (R509) -/

/-- The store of an AtomicOp: the value's low bytes, where it stores one. -/
def Device.atomicStore (d : Device) (off n : Nat) : Option Nat → Device
  | some v => ((sharedKeys off n).foldl (fun (y : Device) k => y.setEcc k .clean) d).setBytes off (leBytes n v)
  | none => d

theorem Device.foldl_setEcc (d : Device) (l : List Nat) :
    ∃ x, l.foldl (fun (y : Device) k => y.setEcc k .clean) d = { d with ce := { d.ce with ecc := x } } := by
  induction l generalizing d with
  | nil => exact ⟨d.ce.ecc, rfl⟩
  | cons k t ih =>
    obtain ⟨x, hx⟩ := ih (d.setEcc k .clean)
    exact ⟨x, hx⟩

/-- An AtomicOp stores bytes and clears errors of codewords, and nothing else. -/
theorem Device.atomicStore_eq (d : Device) (off n : Nat) (o : Option Nat) :
    ∃ m x, d.atomicStore off n o = d.withMem m x := by
  cases o with
  | none => exact ⟨d.mem, d.ce.ecc, rfl⟩
  | some v =>
    obtain ⟨x, hx⟩ := d.foldl_setEcc (sharedKeys off n)
    obtain ⟨m, hm⟩ := Device.setBytes_eq { d with ce := { d.ce with ecc := x } } off (leBytes n v)
    exact ⟨m, x, by rw [Device.atomicStore, hx, hm]; rfl⟩

/-- A number that was written byte by byte reads back. -/
theorem Device.byte_setBytes_leBytes (d : Device) (a v : Nat) {n i : Nat} (h : i < n) :
    (d.setBytes a (leBytes n v)).byte (a + i) = BitVec.ofNat 8 (v / 256 ^ i) := by
  have hi : i < (leBytes n v).length := by rwa [length_leBytes]
  rw [Device.byte_setBytes_same _ _ _ _ hi, leBytes_get]

theorem Device.byte_atomicStore (d : Device) (off v : Nat) {n i : Nat} (h : i < n) :
    (d.atomicStore off n (some v)).byte (off + i) = BitVec.ofNat 8 (v / 256 ^ i) :=
  Device.byte_setBytes_leBytes _ off v h

theorem Device.byte_atomicStore_other (d : Device) {off n b : Nat} (o : Option Nat) (h : b < off ∨ off + n ≤ b) :
    (d.atomicStore off n o).byte b = d.byte b := by
  cases o with
  | none => rfl
  | some v =>
    obtain ⟨x, hx⟩ := d.foldl_setEcc (sharedKeys off n)
    rw [Device.atomicStore, hx, Device.byte_setBytes_other _ _ (by rwa [length_leBytes])]
    rfl

/-- What an accepted AtomicOp does: its store, its count and its answer with the old value. -/
def Device.atomicDone (d : Device) (off n : Nat) (o : Option Nat) : Device :=
  ((d.atomicStore off n o).inc Reg.HP_CNT_ATOMIC).send (.completion (leBytes n (leNat (d.seenBytes off n))) false)

theorem Device.hwbAtomic_clean (d : Device) {off n : Nat} (kind : AtomicKind) (v w : Nat)
    (h : ¬(d.bit Reg.HP_HWIN_WP_RET = true ∧ 0x7F0000 < off + n)) (hc : d.Clean (sharedKeys off n)) :
    d.hwbAtomic off kind n v w =
      d.atomicDone off n (atomicNew kind (leNat (d.seenBytes off n)) v (w % 256 ^ n)) := by
  have hb : ¬(d.bit Reg.HP_HWIN_WP_RET = true ∧ retBase < off + n) := h
  simp only [Device.hwbAtomic, if_neg hb, d.hostScan_clean hc, Device.atomicDone]
  cases atomicNew kind (leNat (d.seenBytes off n)) v (w % 256 ^ n) <;> rfl

theorem Device.atomicDone_mem (d : Device) (off n : Nat) (o : Option Nat) :
    (d.atomicDone off n o).sluice.mem = (d.atomicStore off n o).mem := by
  simp [Device.atomicDone]

/-- What an accepted AtomicOp leaves beside the value that it stores. -/
theorem Device.atomicDone_sluice (d : Device) (off n : Nat) (o : Option Nat) :
    (d.atomicDone off n o).sluice.sent = .completion (leBytes n (leNat (d.seenBytes off n))) false :: d.sent ∧
      (d.atomicDone off n o).sluice.fld Reg.HP_CNT_ATOMIC =
        min (d.fld Reg.HP_CNT_ATOMIC + 1) (2 ^ Reg.HP_CNT_ATOMIC.width - 1) ∧
      (d.atomicDone off n o).sluice.evr = d.evr ∧
      d.KeepsRegs (d.atomicDone off n o).sluice [Reg.SF_GATE, Reg.HP_CNT] ∧
      d.KeepsMemBut (d.atomicDone off n o).sluice off n := by
  have hmem := d.atomicDone_mem off n o
  have hother : d.KeepsMemBut (d.atomicStore off n o) off n := fun b hb => d.byte_atomicStore_other o hb
  obtain ⟨m, x, hs⟩ := d.atomicStore_eq off n o
  have hrd : ∀ a, (d.atomicStore off n o).rd a = d.rd a := Device.rd_congr (by rw [hs]; rfl)
  have hinc : ∀ a, (d.atomicDone off n o).rd a = ((d.atomicStore off n o).inc Reg.HP_CNT_ATOMIC).rd a :=
    Device.rd_congr (Device.send_regs _ _)
  refine ⟨?_, ?_, ?_, fun a ha => ?_, fun b hb => ?_⟩
  · rw [Device.sluice_sent, Device.atomicDone, Device.send_sent _ rfl, Device.inc_sent, hs]; rfl
  · rw [Device.fld_sluice _ (by decide), Device.fld_congr (hinc _), Device.fld_inc_same _ _ (by decide),
      Device.fld_congr (hrd _)]
  · simp [Device.atomicDone, hs, Device.withMem]
  · simp only [List.mem_cons, List.not_mem_nil, or_false, not_or] at ha
    rw [Device.rd_sluice _ ha.1, hinc, Device.rd_inc_other _ ha.2, hrd]
  · rw [Device.byte_congr hmem, hother b hb]

/-- The bytes that an accepted AtomicOp stores. -/
theorem Device.atomicDone_holds (d : Device) (off n v i : Nat) (h : i < n) :
    (d.atomicDone off n (some v)).sluice.byte (off + i) = BitVec.ofNat 8 (v / 256 ^ i) := by
  rw [Device.byte_congr (d.atomicDone_mem off n (some v)), d.byte_atomicStore off v h]

/-- An AtomicOp that stores nothing keeps every memory. -/
theorem Device.atomicDone_keepsMem (d : Device) (off n : Nat) : d.KeepsMem (d.atomicDone off n none).sluice := by
  constructor <;> simp [Device.atomicDone, Device.atomicStore]

/-! ## Accesses of the debug port (R104, R582) -/

/-- A codeword whose data are good is read without an effect on the contexts. -/
theorem Device.eccRead_main (d : Device) (m e k : Nat) (h : (d.eccRead m e k).1 = true) :
    (d.eccRead m e k).2.ce.main = d.ce.main := by
  cases hk : d.ecc k with
  | clean => simp only [Device.eccRead, hk]
  | counted => simp only [Device.eccRead, hk]
  | corr =>
    simp only [Device.eccRead, hk]
    split <;> simp [Device.setEcc]
  | bad => simp [Device.eccRead, hk] at h
  | badAddr => simp [Device.eccRead, hk] at h

theorem Device.eccWriteShared_main (d : Device) (m e a n : Nat) (l : List Nat)
    (h : (d.eccWriteShared m e a n l).1 = true) : (d.eccWriteShared m e a n l).2.ce.main = d.ce.main := by
  induction l generalizing d with
  | nil => rfl
  | cons k t ih =>
    have hk := d.eccRead_main m e k
    unfold Device.eccWriteShared at h ⊢
    split at h
    · next hw =>
      rw [if_pos hw]
      exact ih _ h
    · next hw =>
      rw [if_neg hw]
      split at h
      · next hr =>
        rw [hr] at hk
        exact (ih _ h).trans (hk rfl)
      · exact absurd h (by simp)

/-- A write that reports no error has stored its number, and no context has changed. -/
theorem Device.busWrite_stored (d : Device) (m a n v : Nat) (h : (d.busWrite m a (leBytes n v)).1 = true) :
    (d.busWrite m a (leBytes n v)).2.ce.main = d.ce.main ∧
      ∀ i, i < n → (d.busWrite m a (leBytes n v)).2.byte (a + i) = BitVec.ofNat 8 (v / 256 ^ i) := by
  have hk := d.eccWriteShared_main m 0 a (leBytes n v).length (sharedKeys a (leBytes n v).length)
  unfold Device.busWrite at h ⊢
  split at h
  · next t hw =>
    rw [hw] at hk
    obtain ⟨x, hx⟩ := t.setBytes_eq a (leBytes n v)
    exact ⟨by simpa only [hx] using hk rfl, fun i hi => t.byte_setBytes_leBytes a v hi⟩
  · exact absurd h (by simp)

/-- The bytes of SDM, and of PIM but for the I image, which the debug port writes (R212). -/
def DbgMem (a : Nat) : Prop := a < 0x800000 ∨ (0x1020000 ≤ a ∧ a < 0x10F0000)

theorem Device.dbgRead_mem (d : Device) {a : Nat} (h : DbgMem a) (hc : d.Clean (sharedKeys a 4)) :
    d.dbgRead a = (some (wd (leNat (d.seenBytes a 4))), d) := by
  have h' : a < 0x800000 ∨ (0x1000000 ≤ a ∧ a < 0x10F0000) := by unfold DbgMem at h; omega
  simp only [Device.dbgRead, if_pos h', Device.busRead, d.eccReads_clean 6 0 _ hc]

theorem Device.dbgWrite_mem (d : Device) {a : Nat} (val : Word) (sp : SealPins) (h : DbgMem a) :
    d.dbgWrite a val sp = d.busWrite 6 a (leBytes 4 val.toNat) := by
  have h' : ¬(0x1000000 ≤ a ∧ a < 0x1020000) := by unfold DbgMem at h; omega
  exact (if_neg h').trans (if_pos h)

/-- The I image takes no write of the debug port. -/
theorem Device.dbgWrite_image (d : Device) {a : Nat} (val : Word) (sp : SealPins) (h : 0x1000000 ≤ a ∧ a < 0x1020000) :
    d.dbgWrite a val sp = (false, d.raise 0x10D [wd (busIndex true), wd a]) := if_pos h

theorem isRegAddr_beyond {a : Nat} (h : 0x4170000 ≤ a) : ¬isRegAddr a = true := by
  simp only [isRegAddr, Bool.and_eq_true, decide_eq_true_eq]
  omega

/-- Beyond the register blocks nothing is read. -/
theorem Device.dbgRead_beyond (d : Device) {a : Nat} (h : 0x4170000 ≤ a) : d.dbgRead a = (none, d) := by
  have h1 : ¬(a < 0x800000 ∨ (0x1000000 ≤ a ∧ a < 0x10F0000)) := by omega
  have h2 : ¬(0x2000000 ≤ a ∧ a < 0x2040000) := by omega
  simp only [Device.dbgRead, if_neg h1, if_neg h2, if_neg (isRegAddr_beyond h)]

/-- Beyond the register blocks nothing is written. -/
theorem Device.dbgWrite_beyond (d : Device) {a : Nat} (val : Word) (sp : SealPins) (h : 0x4170000 ≤ a) :
    d.dbgWrite a val sp = (false, d) := by
  have h1 : ¬(0x1000000 ≤ a ∧ a < 0x1020000) := by omega
  have h2 : ¬(a < 0x800000 ∨ (0x1020000 ≤ a ∧ a < 0x10F0000)) := by omega
  simp only [Device.dbgWrite, if_neg h1, if_neg h2, if_neg (isRegAddr_beyond h)]

section
variable {s : State} {r : DbgAcc} {pins : BitVec 8} {loop : Bool} {P : Device → Prop}

theorem dbgAccess_idle (hr : s.dev.ce.dbgRun = none) (h : P s.dev.sluice) :
    Completes (.dbgAccessDone pins loop) s P := by
  refine completes_next (t := s.dev) ?_ h
  change execDbgAccessDone pins loop s = _
  simp only [execDbgAccessDone, run, hr]

/-- Without the permission an access ends with status 3. -/
theorem dbgAccess_denied (hr : s.dev.ce.dbgRun = some r) (hp : s.dev.perm permDebug = false)
    (h : P (s.dev.dbgEnd r 3 0).sluice) : Completes (.dbgAccessDone pins loop) s P := by
  refine completes_next (t := s.dev.dbgEnd r 3 0) ?_ h
  change execDbgAccessDone pins loop s = _
  simp only [execDbgAccessDone, run, hr, hp, Bool.not_false, if_true]

/-- A read ends with its data, or with status 2. -/
theorem dbgAccess_read {o : Option Word} {t : Device} (hr : s.dev.ce.dbgRun = some r)
    (hp : s.dev.perm permDebug = true) (ho : r.op = 1) (hd : s.dev.dbgRead (4 * r.waddr) = (o, t))
    (h : P (t.dbgEnd r (if o.isSome then 0 else 2) (o.getD 0)).sluice) : Completes (.dbgAccessDone pins loop) s P := by
  refine completes_next (t := t.dbgEnd r (if o.isSome then 0 else 2) (o.getD 0)) ?_ h
  change execDbgAccessDone pins loop s = _
  cases o <;> simp [execDbgAccessDone, run, hr, hp, ho, hd]

/-- A write ends with status 0, or with status 2. -/
theorem dbgAccess_write {b : Bool} {t : Device} (hr : s.dev.ce.dbgRun = some r) (hp : s.dev.perm permDebug = true)
    (ho : r.op = 2) (hd : s.dev.dbgWrite (4 * r.waddr) r.data ⟨pins.toNat, loop⟩ = (b, t))
    (h : P (t.dbgEnd r (if b then 0 else 2) 0).sluice) : Completes (.dbgAccessDone pins loop) s P := by
  refine completes_next (t := t.dbgEnd r (if b then 0 else 2) 0) ?_ h
  change execDbgAccessDone pins loop s = _
  cases b <;> simp [execDbgAccessDone, run, hr, hp, ho, hd]

end

/-- The end of an access shows its status and data, and changes no context. -/
theorem Device.dbgEnd_ended (d t : Device) (r : DbgAcc) (status : Nat) (data : Word) (h : t.ce.main = d.ce.main) :
    (t.dbgEnd r status data).sluice.ce.dbgRun = none ∧ (t.dbgEnd r status data).sluice.ce.dbgPrev.op = status ∧
      (t.dbgEnd r status data).sluice.ce.dbgPrev.waddr = r.waddr ∧
      (t.dbgEnd r status data).sluice.ce.dbgPrev.data = data ∧
      (t.dbgEnd r status data).sluice.ce.main = d.ce.main := by
  simp [Device.dbgEnd, h]

/-- The end of an access writes no register. -/
theorem Device.dbgEnd_keepsRegs (d : Device) (r : DbgAcc) (status : Nat) (data : Word) :
    d.KeepsRegs (d.dbgEnd r status data).sluice [Reg.SF_GATE] := by
  intro a ha
  rw [Device.rd_sluice _ (by simpa using ha)]
  rfl

/-- The end of an access leaves the memories of the device that it ends on. -/
theorem Device.dbgEnd_keepsMem (t : Device) (r : DbgAcc) (status : Nat) (data : Word) {d : Device} (h : d.KeepsMem t) :
    d.KeepsMem (t.dbgEnd r status data).sluice where
  mem := by rw [Device.sluice_mem]; exact h.mem
  larea := by rw [Device.sluice_larea]; exact h.larea
  prog := by rw [Device.sluice_prog]; exact h.prog

theorem Device.KeepsMem.refl (d : Device) : d.KeepsMem d := ⟨rfl, rfl, rfl⟩

theorem Device.dbgEnd_byte (t : Device) (r : DbgAcc) (status : Nat) (data : Word) (b : Nat) :
    (t.dbgEnd r status data).sluice.byte b = t.byte b := Device.byte_congr (Device.sluice_mem _) b

/-! ## The requests of a host that is linked and awake -/

section
variable {s : State} {off n : Nat} {pins : BitVec 8} {loop : Bool} {P : Device → Prop}
  (haw : (s.dev.hpLive = true ∧ s.dev.bit Reg.HP_LINK_LINK_UP = true) ∧ s.dev.fld Reg.HP_LINK_D_STATE = 0)
include haw

theorem completes_hwbRead {full : Bool} (hn : n ≠ 0) (h : off + n ≤ 0x800000) (hP : P (s.dev.hwbRead off n).sluice) :
    Completes (.hostMemoryRead false off n full) s P :=
  completes_run (exec_hostMemoryRead _ _ _ _ _)
    ((s.dev.hostServe_awake _ haw (by simpa using hn)).trans (by simp only [Bool.false_eq_true, if_false, h, if_true])) hP

theorem completes_hwaRead {full : Bool} (hn : n ≠ 0) (h : off < 0x1000000) (hP : P (s.dev.hwaRead off n full).sluice) :
    Completes (.hostMemoryRead true off n full) s P :=
  completes_run (exec_hostMemoryRead _ _ _ _ _)
    ((s.dev.hostServe_awake _ haw (by simpa using hn)).trans (by simp only [if_true, h])) hP

theorem completes_hwbWrite {l : List (Option Byte)} (hl : l ≠ []) (h : off + l.length ≤ 0x800000)
    (hP : P (s.dev.hwbWrite off l).sluice) : Completes (.hostMemoryWrite false off l pins loop) s P :=
  completes_run (exec_hostMemoryWrite _ _ _ _ _ _)
    ((s.dev.hostServe_awake _ haw (by simpa using hl)).trans (by simp only [Bool.false_eq_true, if_false, h, if_true])) hP

theorem completes_hwbAtomic {kind : AtomicKind} {v w : BitVec 64} (hn : n = 4 ∨ n = 8) (h : off + n ≤ 0x800000)
    (hP : P (if off % n ≠ 0 then s.dev.abortRead off hcForm []
      else s.dev.hwbAtomic off kind n v.toNat w.toNat).sluice) :
    Completes (.hostAtomicOp false off kind n v w) s P := by
  have hn' : ¬(n ≠ 4 ∧ n ≠ 8) := by omega
  exact completes_run (exec_hostAtomicOp _ _ _ _ _ _)
    ((s.dev.hostServe_awake _ haw rfl).trans (by simp only [Device.hwbAtomicOp, if_neg hn', h, if_true])) hP

end

/-- An AtomicOp of another size is an unsupported request, and so is every AtomicOp outside D0. -/
theorem Device.hostServe_atomic_unsupported (d : Device) (off : Nat) (kind : AtomicKind) {n : Nat} (v w : Nat)
    (h : d.hpLive = true ∧ d.bit Reg.HP_LINK_LINK_UP = true)
    (hu : d.fld Reg.HP_LINK_D_STATE ≠ 0 ∨ n ≠ 4 ∧ n ≠ 8) :
    d.hostServe false (d.hwbAtomicOp off kind n v w) = d.send .unsupported := by
  by_cases hs : d.fld Reg.HP_LINK_D_STATE = 0
  · have hn : n ≠ 4 ∧ n ≠ 8 := hu.resolve_left (fun h0 => h0 hs)
    rw [d.hostServe_awake _ ⟨h, hs⟩ rfl, Device.hwbAtomicOp, if_pos hn]
  · exact d.hostServe_asleep _ h rfl hs

/-- Settles O58: every request comes to one of the cases of its operation, and each case is a lemma above. -/
theorem registerAndHostAccess : Obligations.RegisterAndHostAccess := by
  intro s d quiet nothing up reaches awake aborts unsupported
  refine ⟨?genericWrite, ?commands, ?hostRead, ?hostWrite, ?hostAtomic, ?debug⟩
  case genericWrite =>
    intro a v host pins loop x
    refine ⟨fun h => completes_run (t := d) rfl ?_ d.sluice_nothing, fun r ha hr hs hg hl =>
      completes_run (t := d.plainWrite r a v) rfl ?_ ⟨fun i hi => ?_, ?_, fun hlock => ?_⟩⟩
    · rcases h with h | h
      · simp only [h, Bool.false_eq_true, if_false]
        rfl
      · simp only [Device.regWrite_none _ _ _ _ h, ite_self]
        rfl
    · simp only [ha, if_true]
      exact d.regWrite_plain hr hs
    · rw [Device.rd_sluice _ hg, d.rd_plainWrite r v hl, getLsbD_maskWrite _ _ _ _ hi]
    · exact (d.plain_plainWrite r a v).writes
    · rw [Device.sluice_evr, d.plainWrite_evr a v hlock]
  case commands =>
    intro arg host pins loop w
    refine ⟨exec_write_clearFault .., exec_write_hostGo .., exec_write_clear .., fun e => exec_write_halt .., ?_⟩
    intro hb op h2 h256
    refine completes_run (exec_write_unknown (cmdWord_op h256 arg) (cmdWord_arg op arg) h2 host pins loop s)
      (d.command_badArg portPWR op arg.toNat 0 id hb rfl) ⟨d.endCmd_ended _ (by decide) (by decide), ?_, by simp⟩
    exact (d.plain_endCmd portPWR 2 (by simp [portPWR])).writes
  case hostRead =>
    intro hwa off n full x
    refine ⟨fun h => ?_, fun hr hn hs => ?_, fun haw hn hw hoff hc => ?_, fun haw hw hoff hn hf => ?_,
      fun haw hw hlo hhi h4 hn hf => ?_, fun haw hw hoff h4 hn hf hsem => ?_⟩
    · exact completes_run (exec_hostMemoryRead ..) (d.hostServe_dropped _ (h.imp_right (by simp))) d.sluice_nothing
    · exact completes_run (exec_hostMemoryRead ..) (d.hostServe_asleep _ hr (by simpa using hn) hs) (d.send_reply rfl)
    · subst hw
      exact completes_hwbRead haw (Nat.ne_of_gt hn) hoff (d.hwbRead_clean hc ▸ d.send_reply rfl)
    · subst hw
      exact completes_hwaRead haw (Nat.ne_of_gt hn) hoff (d.hwaRead_badForm off hf ▸ d.abortRead_sluice _ _ _)
    · subst hw hn hf
      exact completes_hwaRead haw (by decide) hhi (d.hwaRead_unmapped hlo h4 ▸ d.abortRead_sluice _ _ _)
    · subst hw hn hf
      exact completes_hwaRead haw (by decide) (by omega) (d.hwaRead_word hoff h4 hsem ▸ d.send_reply rfl)
  case hostWrite =>
    intro off l pins loop x
    refine ⟨fun h => ?dropped, fun hr hl hs => ?asleep, ?stored, fun a b c e haw hoff h4 =>
      exec_hostWrite_word a b c e pins loop s haw hoff h4⟩
    case dropped =>
      exact completes_run (exec_hostMemoryWrite ..) (d.hostServe_dropped _ (h.imp_right (by simp))) d.sluice_nothing
    case asleep =>
      exact completes_run (exec_hostMemoryWrite ..) (d.hostServe_asleep _ hr (by simpa using hl) hs) (d.send_reply rfl)
    case stored =>
      intro haw hl hoff barred
      refine ⟨fun hb hc => ?_, fun hb => ?_⟩
      · obtain ⟨y, hy⟩ := d.hwbWrite_clean hb hc
        obtain ⟨hregs, hunits, hevr⟩ :=
          d.withMem_sluice (laneMem d.mem ((sharedKeys off l.length).flatMap (lanesOf off l))) y
        refine completes_hwbWrite haw hl hoff (hy ▸ ⟨fun n _ => ?_, fun b hb => ?_, hregs, hunits, hevr⟩)
        · rw [d.byte_hwbWrite, laneAt_add]
        · rw [d.byte_hwbWrite, laneAt_outside hb]
          rfl
      · exact completes_hwbWrite haw hl hoff (d.hwbWrite_barred hb ▸ d.failWrite_sluice off (by decide))
  case hostAtomic =>
    intro off kind n v w x
    refine ⟨fun h => ?_, fun hr hu => ?_, fun haw hn hoff => ⟨fun hmis => ?_, fun hal hb hc => ?_⟩⟩
    · exact completes_run (exec_hostAtomicOp ..) (d.hostServe_dropped _ (.inl h)) d.sluice_nothing
    · exact completes_run (exec_hostAtomicOp ..) (d.hostServe_atomic_unsupported off kind _ _ hr hu) (d.send_reply rfl)
    · exact completes_hwbAtomic haw hn hoff (if_pos hmis ▸ d.abortRead_sluice _ _ _)
    · intro old
      refine completes_hwbAtomic haw hn hoff ?_
      rw [if_neg (not_not_intro hal), d.hwbAtomic_clean kind _ _ hb hc]
      obtain ⟨hsent, hcnt, hevr, hregs, hmem⟩ := d.atomicDone_sluice off n (atomicNew kind old v.toNat (w.toNat % 256 ^ n))
      refine ⟨hsent, hcnt, hevr, hregs, hmem, ?_, ?_, ?_⟩
      · rintro rfl i hi
        exact d.atomicDone_holds off n _ i hi
      · rintro rfl i hi
        exact d.atomicDone_holds off n _ i hi
      · rintro rfl
        refine ⟨fun he i hi => ?_, fun hne => ?_⟩
        · rw [atomicNew, if_pos he]
          exact d.atomicDone_holds off n _ i hi
        · rw [atomicNew, if_neg hne]
          exact d.atomicDone_keepsMem off n
  case debug =>
    intro pins loop x
    refine ⟨fun hr => dbgAccess_idle hr d.sluice_nothing, ?_⟩
    intro r hr ends a inMem
    refine ⟨fun hp => ?_, fun hp => ⟨fun ho hm hc => ?_, fun ho hm hw => ?_, fun ho hlo hhi => ?_,
      fun hbeyond ho => ?_⟩⟩
    · exact dbgAccess_denied hr hp ⟨d.dbgEnd_ended d r 3 0 rfl, d.dbgEnd_keepsRegs r 3 0,
        d.dbgEnd_keepsMem r 3 0 (.refl d)⟩
    · exact dbgAccess_read hr hp ho (d.dbgRead_mem hm hc) ⟨d.dbgEnd_ended d r 0 _ rfl, d.dbgEnd_keepsRegs r 0 _,
        d.dbgEnd_keepsMem r 0 _ (.refl d)⟩
    · obtain ⟨hmain, hbytes⟩ := d.busWrite_stored 6 a 4 _ hw
      refine dbgAccess_write hr hp ho ((d.dbgWrite_mem r.data _ hm).trans (Prod.ext hw rfl))
        ⟨d.dbgEnd_ended _ r 0 0 hmain, fun b hb => ?_, fun i hi => ?_⟩
      · exact (Device.dbgEnd_byte ..).trans (d.byte_busWrite_other 6 a _ (by rwa [length_leBytes]))
      · exact (Device.dbgEnd_byte ..).trans (hbytes i hi)
    · refine dbgAccess_write hr hp ho (d.dbgWrite_image r.data _ ⟨hlo, hhi⟩)
        ⟨d.dbgEnd_ended _ r 2 0 (by rw [Device.raise_ce]), Device.dbgEnd_keepsMem _ r 2 0 ?_, ?_⟩
      · exact ⟨by simp, by simp, by simp⟩
      · exact (d.raise_logs d 0x10D _ rfl rfl rfl).congr (Device.sluice_evr _)
    · have hends : ends (d.dbgEnd r 2 0).sluice 2 0 ∧ d.KeepsMem (d.dbgEnd r 2 0).sluice ∧
          d.KeepsRegs (d.dbgEnd r 2 0).sluice [Reg.SF_GATE] :=
        ⟨d.dbgEnd_ended d r 2 0 rfl, d.dbgEnd_keepsMem r 2 0 (.refl d), d.dbgEnd_keepsRegs r 2 0⟩
      rcases ho with ho | ho
      · exact dbgAccess_read hr hp ho (d.dbgRead_beyond hbeyond) hends
      · exact dbgAccess_write hr hp ho (d.dbgWrite_beyond r.data _ hbeyond) hends

end Sys2Proof.Machine
end

section
/-! SUPPORT. Command registers (R27–R31): a write of CMD while BUSY = 1 is discarded, and the commands that clear
counters. One lemma says that every command of a register is discarded there, one what a discarded write leaves, and one
what a command leaves whose effect is on registers and the recorder alone. -/

namespace Sys2Proof.Machine

/-! ## A write of CMD while BUSY = 1 (R31) -/

/-- The effect of a discarded write of the word w: DROPPED and the event at offset 3. -/
def Device.discard (d : Device) (p : Port) (w : Word) : Device := (d.setF p.dropped 1).raise (p.ev + 3) (p.words [w])

theorem Device.busy_bit {d : Device} {p : Port} (hb : d.fld p.busy = 1) : d.bit p.busy = true := by
  simp [Device.bit, hb]

theorem Device.command_busy {d : Device} {p : Port} (hb : d.fld p.busy = 1) (op arg : Nat) (w : Word) (k : Checks)
    (body : Device → Device) : d.command p op arg w k body = d.discard p (wd (op * 0x1000000 + arg)) := by
  simp only [Device.command, Device.busy_bit hb, if_true, Device.discard]

/-- The register p discards the command i while it is BUSY. -/
def DiscardsBusy (i : Instr) (p : Port) : Prop :=
  ∀ s : State, s.dev.fld p.busy = 1 → ∃ t, exec i s = .next ⟨t.sluice, s.pending⟩ ∧ ∃ w, t = s.dev.discard p w

/-- SEND counts a refusal only when its register is free. -/
theorem Device.cmdMbSend_busy {d : Device} (hb : d.fld portMB.busy = 1) (arg : Nat) :
    d.cmdMbSend arg = d.discard portMB (wd (2 * 0x1000000 + arg)) := by
  simp only [Device.cmdMbSend, Device.busy_bit hb, Bool.not_true, Bool.and_false, Bool.false_eq_true, if_false,
    Device.commandNow, Device.command_busy hb]

/-- CLEAR reports a wrong key only when its register is free. -/
theorem Device.cmdClear_busy {d : Device} (hb : d.fld portEVR.busy = 1) (arg req : Nat) :
    d.cmdClear arg req = d.discard portEVR (wd (5 * 0x1000000 + arg)) := by
  simp only [Device.cmdClear, Device.busy_bit hb, Bool.true_or, if_true, Device.commandNow, Device.command_busy hb]

/-- A page operation is discarded whether or not its block can be translated. -/
theorem Device.cmdNvmPage_busy {d : Device} (hb : d.fld portNVM.busy = 1) (op arg : Nat) :
    d.cmdNvmPage op arg = d.discard portNVM (wd (op * 0x1000000 + arg)) := by
  simp only [Device.cmdNvmPage]
  split <;> exact Device.command_busy hb ..

/-- SLOT_ARM reads the store only when its register is free. -/
theorem Device.cmdSlotArm_busy {d : Device} (hb : d.fld portLDR.busy = 1) (arg : Nat) :
    d.cmdSlotArm arg = d.discard portLDR (wd (3 * 0x1000000 + arg)) := by
  simp only [Device.cmdSlotArm, Device.busy_bit hb, Bool.true_or, if_true, Device.command_busy hb]

/-- CFG_COMMIT reads the store only when its register is free. -/
theorem Device.cmdCfgCommit_busy {d : Device} (hb : d.fld portLDR.busy = 1) (arg : Nat) :
    d.cmdCfgCommit arg = d.discard portLDR (wd (5 * 0x1000000 + arg)) := by
  simp only [Device.cmdCfgCommit, Device.busy_bit hb, Bool.true_or, if_true, Device.command_busy hb]

/-- A command register discards every command that is written to it while it is BUSY. Beside the commands above, each is
a `Device.command`, whose first branch is the discard. -/
theorem discardsBusy_of_portOf {i : Instr} {p : Port} (h : portOf i = some p) : DiscardsBusy i p := by
  cases i with
  | mbSend arg => cases h; exact fun s hb => ⟨_, rfl, _, Device.cmdMbSend_busy hb _⟩
  | clear arg byDbg => cases h; exact fun s hb => ⟨_, rfl, _, Device.cmdClear_busy hb _ _⟩
  | slotArm arg => cases h; exact fun s hb => ⟨_, rfl, _, Device.cmdSlotArm_busy hb _⟩
  | cfgCommit arg => cases h; exact fun s hb => ⟨_, rfl, _, Device.cmdCfgCommit_busy hb _⟩
  | readPage arg => cases h; exact fun s hb => ⟨_, rfl, _, Device.cmdNvmPage_busy hb 2 _⟩
  | programPage arg => cases h; exact fun s hb => ⟨_, rfl, _, Device.cmdNvmPage_busy hb 3 _⟩
  | eraseBlock arg => cases h; exact fun s hb => ⟨_, rfl, _, Device.cmdNvmPage_busy hb 4 _⟩
  | _ => cases h <;> exact fun s hb => ⟨_, rfl, _, if_pos (Device.busy_bit hb)⟩

/-- A command register is none of SF_GATE, EVR_LOSS and the setting of the event of a discarded write. -/
structure Port.Apart (p : Port) : Prop where
  gate : p.stat ≠ Reg.SF_GATE
  loss : p.stat ≠ Reg.EVR_LOSS
  code : Reg.EVR_CODE (p.ev + 3) ≠ p.stat

/-- CMD_STATUS lies at offset 4 of its block, and an event range starts at a multiple of 4. -/
theorem Port.apart_of_layout {p : Port} (hs : p.stat % 16 = 4) (he : p.ev % 4 = 0) : p.Apart := by
  constructor <;> simp only [Reg.SF_GATE, Reg.EVR_LOSS, Reg.EVR_CODE, ne_eq] <;> omega

theorem portOf_apart {i : Instr} {p : Port} (h : portOf i = some p) : p.Apart := by
  have hce (e : Eng) : (portCE e).Apart :=
    Port.apart_of_layout (by simp only [portCE, Reg.CE_CMD_STATUS]; omega) (by simp [portCE])
  unfold portOf at h
  split at h
  all_goals cases h
  iterate 6 exact hce _
  all_goals exact Port.apart_of_layout rfl rfl

/-- What a discarded write leaves. -/
theorem Device.discard_fields (d : Device) {p : Port} (w : Word) (hp : p.Apart) :
    (d.discard p w).fld p.busy = d.fld p.busy ∧ (d.discard p w).fld p.code = d.fld p.code ∧
      (d.discard p w).fld p.seq = d.fld p.seq ∧ (d.discard p w).fld p.dropped = 1 := by
  have hr (f : Fld) (hf : f.addr = p.stat) : (d.discard p w).fld f = (d.setF p.dropped 1).fld f :=
    Device.fld_raise _ _ _ (hf ▸ hp.loss)
  refine ⟨?_, ?_, ?_, ?_⟩
  · exact (hr p.busy rfl).trans (d.fld_setF_other 1 (.inr (by simp [Port.dropped, Port.busy])))
  · exact (hr p.code rfl).trans (d.fld_setF_other 1 (.inr (by simp [Port.dropped, Port.code])))
  · exact (hr p.seq rfl).trans (d.fld_setF_other 1 (.inr (by simp [Port.dropped, Port.seq])))
  · exact (hr p.dropped rfl).trans (d.fld_setF_same _ 1 (by simp [Port.dropped]))

theorem Device.plain_discard (d : Device) (p : Port) (w : Word) :
    d.Plain (· ∈ [p.stat, Reg.EVR_LOSS]) (d.discard p w) :=
  (d.plain_setF (f := p.dropped) 1 (by simp [Port.dropped])).trans (Device.plain_raise _ _ _ (by simp))

theorem Device.discard_logs (d : Device) {p : Port} (w : Word) (hp : p.Apart) :
    d.Logs (d.discard p w) (p.ev + 3) (p.words [w]) :=
  d.raise_logs _ _ _ (d.rd_setF_other 1 hp.code) (by simp) (by simp)

/-- Settles O24: every command that is written to a register is discarded there while it is BUSY. -/
theorem busyDiscards : Obligations.BusyDiscards := by
  intro s i p hport hb
  obtain ⟨_, hx, w, rfl⟩ := discardsBusy_of_portOf hport s hb
  have hp := portOf_apart hport
  obtain ⟨hbusy, hcode, hseq, hdropped⟩ := s.dev.discard_fields w hp
  have hg (f : Fld) (hf : f.addr = p.stat) : (s.dev.discard p w).sluice.fld f = (s.dev.discard p w).fld f :=
    Device.fld_sluice _ (hf ▸ hp.gate)
  exact completes_next hx ⟨(hg _ rfl).trans (hbusy.trans hb), (hg _ rfl).trans hcode, (hg _ rfl).trans hseq,
    (hg _ rfl).trans hdropped, (s.dev.plain_discard p w).writes, _,
    (s.dev.discard_logs w hp).congr (Device.sluice_evr _)⟩

/-! ## Commands whose effect is on registers and the recorder alone -/

/-- A command that is complete at once, needs no permission and acts in any state, with an effect on registers of a list
and the recorder alone: it leaves those registers as its effect left them. -/
theorem done_plain {i : Instr} {s : State} {p : Port} {op arg : Nat} {w : Device → Word} {body : Device → Device}
    {l : List Nat} {P : Device → Prop}
    (hx : exec i s = run (fun d => d.commandNow p op arg (w d) ⟨true, true, true⟩ body) s)
    (hw : s.dev.Plain (· ∈ l) (body s.dev)) (hport : portOf i = some p) (hl : ∀ a ∈ l, a ≠ p.stat ∧ a ≠ Reg.SF_GATE)
    (hP : ∀ t : Device, (∀ a ∈ l, t.rd a = (body s.dev).rd a) → s.dev.Writes t (p.stat :: l) → P t) : Done i s p P := by
  intro hb
  have hok : s.dev.commandNow p op arg (w s.dev) ⟨true, true, true⟩ body = (body s.dev).endCmd p 0 :=
    s.dev.command_ok p op arg _ _ _ hb rfl rfl rfl
  have hmono : s.dev.Plain (· ∈ p.stat :: l) (body s.dev) := hw.mono fun _ => List.mem_cons_of_mem _
  have hseq : (body s.dev).fld p.seq = s.dev.fld p.seq := Device.fld_congr (hw.regs _ fun h => (hl _ h).1 rfl)
  obtain ⟨hbusy, hcode, hnext⟩ := (body s.dev).endCmd_ended p (code := 0) (portOf_apart hport).gate (by decide)
  refine completes_run hx hok ⟨⟨hbusy, hcode, hseq ▸ hnext⟩, hP _ (fun a ha => ?_) ?_⟩
  · rw [Device.rd_sluice _ (hl a ha).2, Device.rd_endCmd _ _ _ (hl a ha).1]
  · exact (hmono.trans (Device.plain_endCmd _ p 0 List.mem_cons_self)).writes

/-! ## Registers that are cleared -/

/-- The registers of a list, written with 0 one after another. -/
def Device.zeroRegs (d : Device) (l : List Nat) : Device := l.foldl (fun d a => d.wr a 0) d

theorem Device.rd_zeroRegs_of_zero (l : List Nat) {d : Device} {a : Nat} (h : d.rd a = 0) :
    (d.zeroRegs l).rd a = 0 := by
  induction l generalizing d with
  | nil => exact h
  | cons b l ih =>
    refine ih (d := d.wr b 0) ?_
    by_cases hb : a = b
    · rw [hb, Device.rd_wr_same]
    · rw [Device.rd_wr_other _ _ hb, h]

theorem Device.rd_zeroRegs (d : Device) {l : List Nat} {a : Nat} (h : a ∈ l) : (d.zeroRegs l).rd a = 0 := by
  induction l generalizing d with
  | nil => cases h
  | cons b l ih =>
    cases h with
    | head => exact Device.rd_zeroRegs_of_zero l (d.rd_wr_same a 0)
    | tail _ h => exact ih (d.wr b 0) h

theorem Device.plain_zeroRegs {R : Nat → Prop} (d : Device) {l : List Nat} (h : ∀ a ∈ l, R a) :
    d.Plain R (d.zeroRegs l) := by
  induction l generalizing d with
  | nil => exact .refl d
  | cons b l ih =>
    exact (d.plain_wr 0 (h b List.mem_cons_self)).trans (ih _ fun a ha => h a (List.mem_cons_of_mem b ha))

/-- A loop whose turns clear registers clears the registers of all its turns. -/
theorem forN_zeroRegs {f : Nat → Device → Device} {l : Nat → List Nat} (hf : ∀ i x, f i x = x.zeroRegs (l i)) (n : Nat)
    (d : Device) : forN n f d = d.zeroRegs ((List.range n).flatMap l) := by
  induction n with
  | zero => rfl
  | succ n ih =>
    rw [forN, ih, hf, List.range_succ, List.flatMap_append]
    simp only [Device.zeroRegs, List.flatMap_singleton, List.foldl_append]

/-- The device t has the registers of a list at 0, and differs from d in them and in the recorder alone. -/
structure Device.Clears (d t : Device) (l : List Nat) : Prop where
  plain : d.Plain (· ∈ l) t
  zero : ∀ a ∈ l, t.rd a = 0

theorem Device.clears_zeroRegs {d t : Device} {l : List Nat} (h : t = d.zeroRegs l) : d.Clears t l :=
  ⟨h ▸ d.plain_zeroRegs fun _ => id, fun _ ha => h ▸ d.rd_zeroRegs ha⟩

theorem Device.Clears.of_mem_iff {d t : Device} {l m : List Nat} (h : d.Clears t m) (hm : ∀ a, a ∈ m ↔ a ∈ l) :
    d.Clears t l :=
  ⟨h.plain.mono fun a => (hm a).mp, fun a ha => h.zero a ((hm a).mpr ha)⟩

/-- A command that clears registers. -/
theorem done_clears {i : Instr} {s : State} {p : Port} {op arg : Nat} {w : Word} {body : Device → Device} {l : List Nat}
    (hx : exec i s = run (fun d => d.commandNow p op arg w ⟨true, true, true⟩ body) s)
    (hb : s.dev.Clears (body s.dev) l) (hport : portOf i = some p) (hl : ∀ a ∈ l, a ≠ p.stat ∧ a ≠ Reg.SF_GATE) :
    Done i s p (fun t => (∀ a ∈ l, t.rd a = 0) ∧ s.dev.Writes t (p.stat :: l)) :=
  done_plain (w := fun _ => w) hx hb.plain hport hl fun _ ht hw => ⟨fun a ha => (ht a ha).trans (hb.zero a ha), hw⟩

/-- A command that clears registers, and is OP 1 of its block. -/
theorem done_clearCmd {i : Instr} {s : State} {p : Port} {arg : Nat} {body : Device → Device} {l : List Nat}
    (hx : exec i s = run (fun d => d.clearCmd p arg body) s) (ha : arg = 0) (hb : s.dev.Clears (body s.dev) l)
    (hport : portOf i = some p) (hl : ∀ a ∈ l, a ≠ p.stat ∧ a ≠ Reg.SF_GATE) :
    Done i s p (fun t => (∀ a ∈ l, t.rd a = 0) ∧ s.dev.Writes t (p.stat :: l)) := by
  subst ha
  exact done_clears hx hb hport hl

/-! ## The CLEAR_COUNTERS commands of the blocks -/

/-- The registers of the contexts that TASK counts in. -/
def taskCounters : List Nat :=
  (List.range 24).flatMap (fun e => (List.range 16).flatMap (fun c => [Reg.TASK_CNT e c, Reg.TASK_MAXRUN e c]))

theorem mem_taskCounters {a : Nat} (h : a ∈ taskCounters) : a < Reg.TASK_CMD_STATUS := by
  simp only [taskCounters, List.mem_flatMap, List.mem_range, List.mem_cons, List.not_mem_nil, or_false] at h
  obtain ⟨e, he, c, hc, rfl | rfl⟩ := h <;> simp only [Reg.TASK_CNT, Reg.TASK_MAXRUN, Reg.TASK_CMD_STATUS] <;> omega

/-- TASK clears the registers of its contexts, then TASK_GRID_STAT. -/
theorem Device.clears_taskCounters (d : Device) :
    d.Clears ((forN 24 (fun e => forN 16 (fun c d => (d.wr (Reg.TASK_CNT e c) 0).wr (Reg.TASK_MAXRUN e c) 0)) d).wr
      Reg.TASK_GRID_STAT 0) (Reg.TASK_GRID_STAT :: taskCounters) := by
  have hengine (e : Nat) (x : Device) :
      forN 16 (fun c d => (d.wr (Reg.TASK_CNT e c) 0).wr (Reg.TASK_MAXRUN e c) 0) x =
        x.zeroRegs ((List.range 16).flatMap fun c => [Reg.TASK_CNT e c, Reg.TASK_MAXRUN e c]) := by
    refine forN_zeroRegs (fun _ _ => ?_) 16 x
    rfl
  have hloop : forN 24 (fun e => forN 16 (fun c d => (d.wr (Reg.TASK_CNT e c) 0).wr (Reg.TASK_MAXRUN e c) 0)) d =
      d.zeroRegs taskCounters := by
    rw [taskCounters, forN_zeroRegs hengine]
  have hall :
      (d.zeroRegs taskCounters).wr Reg.TASK_GRID_STAT 0 = d.zeroRegs (taskCounters ++ [Reg.TASK_GRID_STAT]) := by
    simp only [Device.zeroRegs, List.foldl_append, List.foldl_cons, List.foldl_nil]
  rw [hloop, hall]
  exact (Device.clears_zeroRegs rfl).of_mem_iff fun a => by
    rw [List.mem_append, List.mem_singleton, List.mem_cons, or_comm]

/-- EVR compares a freeze with the cleared count from then on. -/
theorem Device.clears_evrLoss (d : Device) :
    d.Clears (({ d with evr := { d.evr with lostAt := 0 } } : Device).wr Reg.EVR_LOSS 0) [Reg.EVR_LOSS] where
  plain := ⟨⟨_, _, rfl⟩, fun _ ha => Device.rd_wr_other _ _ (by simpa using ha)⟩
  zero := by simp

/-- What turn j of a loop brings about, and no other turn undoes, holds after the loop. -/
theorem forN_holds {f : Nat → Device → Device} {Q : Nat → Device → Prop} (hset : ∀ i x, Q i (f i x))
    (hkeep : ∀ i j x, i ≠ j → Q j x → Q j (f i x)) (n : Nat) (d : Device) : ∀ j, j < n → Q j (forN n f d) := by
  induction n with
  | zero => exact fun j hj => absurd hj (Nat.not_lt_zero j)
  | succ n ih =>
    intro j hj
    by_cases h : n = j
    · subst h
      exact hset n _
    · exact hkeep n j _ h (ih j (by omega))

/-- What the CLEAR_COUNTERS of engine e does. -/
def Device.ceCleared (d : Device) (e : Nat) : Device :=
  (((d.setF (Reg.CE_ECC_CNT_CORR e) 0).setF (Reg.CE_AGREE_STAT_MAX_DIFF e) 0).setF (Reg.CE_TRAP_1_COUNT e) 0).wr
    Reg.CE_MEM_CORR_CNT 0

/-- The registers that the CLEAR_COUNTERS of engine e writes. -/
def ceCounters (e : Nat) : List Nat := [Reg.CE_ECC_CNT e, Reg.CE_AGREE_STAT e, Reg.CE_TRAP_1 e, Reg.CE_MEM_CORR_CNT]

theorem mem_ceCounters (e : Nat) : Reg.CE_ECC_CNT e ∈ ceCounters e ∧ Reg.CE_AGREE_STAT e ∈ ceCounters e ∧
    Reg.CE_TRAP_1 e ∈ ceCounters e ∧ Reg.CE_MEM_CORR_CNT ∈ ceCounters e := by simp [ceCounters]

theorem Device.plain_ceCleared (d : Device) (e : Nat) : d.Plain (· ∈ ceCounters e) (d.ceCleared e) := by
  obtain ⟨hecc, hagree, htrap, hmem⟩ := mem_ceCounters e
  exact (((d.plain_setF 0 hecc).trans (Device.plain_setF _ 0 hagree)).trans (Device.plain_setF _ 0 htrap)).trans
    (Device.plain_wr _ 0 hmem)

/-- The counters of engine e lie in registers of their own. -/
theorem Device.ceCleared_zero (d : Device) {e : Nat} (he : e < 24) :
    (d.ceCleared e).fld (Reg.CE_ECC_CNT_CORR e) = 0 ∧ (d.ceCleared e).fld (Reg.CE_AGREE_STAT_MAX_DIFF e) = 0 ∧
      (d.ceCleared e).fld (Reg.CE_TRAP_1_COUNT e) = 0 ∧ (d.ceCleared e).rd Reg.CE_MEM_CORR_CNT = 0 := by
  obtain ⟨hagreeEcc, htrapEcc, htrapAgree, heccMem, hagreeMem, htrapMem⟩ :
      Reg.CE_AGREE_STAT e ≠ Reg.CE_ECC_CNT e ∧ Reg.CE_TRAP_1 e ≠ Reg.CE_ECC_CNT e ∧
      Reg.CE_TRAP_1 e ≠ Reg.CE_AGREE_STAT e ∧ Reg.CE_ECC_CNT e ≠ Reg.CE_MEM_CORR_CNT ∧
      Reg.CE_AGREE_STAT e ≠ Reg.CE_MEM_CORR_CNT ∧ Reg.CE_TRAP_1 e ≠ Reg.CE_MEM_CORR_CNT := by
    simp only [Reg.CE_AGREE_STAT, Reg.CE_ECC_CNT, Reg.CE_TRAP_1, Reg.CE_MEM_CORR_CNT]
    omega
  refine ⟨?_, ?_, ?_, Device.rd_wr_same _ _ _⟩
  · exact (Device.fld_wr_other _ 0 heccMem).trans <| (Device.fld_setF_other _ 0 (.inl htrapEcc)).trans <|
      (Device.fld_setF_other _ 0 (.inl hagreeEcc)).trans (Device.fld_setF_same _ _ 0 (by simp [Reg.CE_ECC_CNT_CORR]))
  · exact (Device.fld_wr_other _ 0 hagreeMem).trans <| (Device.fld_setF_other _ 0 (.inl htrapAgree)).trans
      (Device.fld_setF_same _ _ 0 (by simp [Reg.CE_AGREE_STAT_MAX_DIFF]))
  · exact (Device.fld_wr_other _ 0 htrapMem).trans (Device.fld_setF_same _ _ 0 (by simp [Reg.CE_TRAP_1_COUNT]))

theorem exec_ceClearCounters (e : Eng) (s : State) : exec (.ceClearCounters e 0) s =
    run (fun d => d.commandNow (portCE e) 6 0 (d.ceState e) ⟨true, true, true⟩ fun d => d.ceCleared e) s := rfl

/-- The engine clears its three counters and the count of corrected errors. -/
theorem done_ceClearCounters (s : State) (e : Eng) : Done (.ceClearCounters e 0) s (portCE e) (fun t =>
    t.fld (Reg.CE_ECC_CNT_CORR e) = 0 ∧ t.fld (Reg.CE_AGREE_STAT_MAX_DIFF e) = 0 ∧ t.fld (Reg.CE_TRAP_1_COUNT e) = 0 ∧
    t.rd Reg.CE_MEM_CORR_CNT = 0 ∧ s.dev.Writes t ((portCE e).stat :: ceCounters e)) := by
  have he := e.isLt
  obtain ⟨hcorr, hdiff, htrap, hmem⟩ := s.dev.ceCleared_zero he
  have hl : ∀ a ∈ ceCounters e, a ≠ (portCE e).stat ∧ a ≠ Reg.SF_GATE := by
    intro a
    simp only [ceCounters, List.mem_cons, List.not_mem_nil, or_false, portCE, Reg.CE_ECC_CNT, Reg.CE_AGREE_STAT,
      Reg.CE_TRAP_1, Reg.CE_MEM_CORR_CNT, Reg.CE_CMD_STATUS, Reg.SF_GATE]
    omega
  refine done_plain (exec_ceClearCounters e s) (s.dev.plain_ceCleared e) rfl hl fun t ht hw => ?_
  obtain ⟨mecc, magree, mtrap, mmem⟩ := mem_ceCounters e
  exact ⟨(Device.fld_congr (ht _ mecc)).trans hcorr, (Device.fld_congr (ht _ magree)).trans hdiff,
    (Device.fld_congr (ht _ mtrap)).trans htrap, (ht _ mmem).trans hmem, hw⟩

/-- What the CLEAR_COUNTERS of ETH does to port p. -/
def Device.ethCleared (p : Nat) (d : Device) : Device := (d.wr (Reg.ETH_ERR p) 0).setF (Reg.ETH_TXTS_STAT_OVF p) 0

/-- The registers that the CLEAR_COUNTERS of ETH writes. -/
def ethCounters : List Nat := (List.range 3).flatMap fun p => [Reg.ETH_ERR p, Reg.ETH_TXTS_STAT p]

theorem mem_ethCounters {p : Nat} (hp : p < 3) : Reg.ETH_ERR p ∈ ethCounters ∧ Reg.ETH_TXTS_STAT p ∈ ethCounters :=
  ⟨List.mem_flatMap.mpr ⟨p, List.mem_range.mpr hp, by simp⟩, List.mem_flatMap.mpr ⟨p, List.mem_range.mpr hp, by simp⟩⟩

theorem Device.plain_ethCleared (d : Device) : d.Plain (· ∈ ethCounters) (forN 3 Device.ethCleared d) :=
  d.plain_forN 3 fun _ hp x =>
    (x.plain_wr 0 (mem_ethCounters hp).1).trans (Device.plain_setF _ 0 (mem_ethCounters hp).2)

/-- Each port has its counters in registers of its own. -/
theorem Device.ethCleared_zero (d : Device) : ∀ p, p < 3 → (forN 3 Device.ethCleared d).rd (Reg.ETH_ERR p) = 0 ∧
    (forN 3 Device.ethCleared d).fld (Reg.ETH_TXTS_STAT_OVF p) = 0 := by
  have herr (i j : Nat) : Reg.ETH_ERR j ≠ Reg.ETH_TXTS_STAT i := by
    simp only [Reg.ETH_ERR, Reg.ETH_TXTS_STAT]
    omega
  refine forN_holds (Q := fun p x => x.rd (Reg.ETH_ERR p) = 0 ∧ x.fld (Reg.ETH_TXTS_STAT_OVF p) = 0)
    (fun i x => ⟨?_, ?_⟩) (fun i j x hij ⟨hxerr, hxovf⟩ => ⟨?_, ?_⟩) 3 d
  · exact (Device.rd_setF_other _ 0 (herr i i)).trans (x.rd_wr_same _ 0)
  · exact Device.fld_setF_same _ _ 0 (by simp [Reg.ETH_TXTS_STAT_OVF])
  · have : Reg.ETH_ERR j ≠ Reg.ETH_ERR i := by simp only [Reg.ETH_ERR]; omega
    exact (Device.rd_setF_other _ 0 (herr i j)).trans ((x.rd_wr_other 0 this).trans hxerr)
  · have : Reg.ETH_TXTS_STAT i ≠ Reg.ETH_TXTS_STAT j := by simp only [Reg.ETH_TXTS_STAT]; omega
    exact (Device.fld_setF_other _ 0 (.inl this)).trans ((x.fld_wr_other 0 (herr j i).symm).trans hxovf)

theorem exec_ethClearCounters (s : State) : exec (.ethClearCounters 0) s =
    run (fun d => d.commandNow portETH 1 0 0 ⟨true, true, true⟩ (forN 3 Device.ethCleared)) s := rfl

/-- ETH clears the errors and the overflow of the time stamps of each port. -/
theorem done_ethClearCounters (s : State) : Done (.ethClearCounters 0) s portETH (fun t =>
    (∀ p, p < 3 → t.rd (Reg.ETH_ERR p) = 0 ∧ t.fld (Reg.ETH_TXTS_STAT_OVF p) = 0) ∧
      s.dev.Writes t (portETH.stat :: ethCounters)) := by
  refine done_plain (exec_ethClearCounters s) s.dev.plain_ethCleared rfl (by decide) fun t ht hw => ⟨?_, hw⟩
  intro p hp
  obtain ⟨herr, hovf⟩ := s.dev.ethCleared_zero p hp
  exact ⟨(ht _ (mem_ethCounters hp).1).trans herr, (Device.fld_congr (ht _ (mem_ethCounters hp).2)).trans hovf⟩

/-- What the CLEAR_COUNTERS of SC does. -/
def Device.scCleared (d : Device) : Device :=
  forN 256 (fun n d => d.setF (Reg.SC_CONN_W7_FAILED n) 0) (d.wr Reg.SC_CNT 0)

/-- The registers that the CLEAR_COUNTERS of SC writes. -/
def scCounters : List Nat := Reg.SC_CNT :: (List.range 256).map Reg.SC_CONN_W7

theorem mem_scCounters {n : Nat} (hn : n < 256) : Reg.SC_CONN_W7 n ∈ scCounters :=
  List.mem_cons_of_mem _ (List.mem_map_of_mem (List.mem_range.mpr hn))

theorem Device.plain_scCleared (d : Device) : d.Plain (· ∈ scCounters) d.scCleared :=
  (d.plain_wr 0 List.mem_cons_self).trans (Device.plain_forN _ 256 fun _ hn x => x.plain_setF 0 (mem_scCounters hn))

/-- Each connection has its counter in a register of its own. -/
theorem Device.scCleared_zero (d : Device) :
    d.scCleared.rd Reg.SC_CNT = 0 ∧ ∀ n, n < 256 → d.scCleared.fld (Reg.SC_CONN_W7_FAILED n) = 0 := by
  have hcnt (n : Nat) : Reg.SC_CNT ≠ Reg.SC_CONN_W7 n := by simp only [Reg.SC_CNT, Reg.SC_CONN_W7]; omega
  have hloop : (d.wr Reg.SC_CNT 0).Plain (· ≠ Reg.SC_CNT) d.scCleared :=
    Device.plain_forN _ 256 fun n _ x => x.plain_setF 0 (hcnt n).symm
  refine ⟨(hloop.regs _ (not_not_intro rfl)).trans (d.rd_wr_same _ 0), ?_⟩
  refine forN_holds (Q := fun n x => x.fld (Reg.SC_CONN_W7_FAILED n) = 0) (fun n x => ?_) (fun i j x hij hx => ?_) 256 _
  · exact x.fld_setF_same _ 0 (by simp [Reg.SC_CONN_W7_FAILED])
  · have : Reg.SC_CONN_W7 i ≠ Reg.SC_CONN_W7 j := by simp only [Reg.SC_CONN_W7]; omega
    exact (x.fld_setF_other 0 (.inl this)).trans hx

theorem exec_scClearCounters (s : State) : exec (.scClearCounters 0) s =
    run (fun d => d.commandNow portSC 1 0 0 ⟨true, true, true⟩ Device.scCleared) s := rfl

/-- SC clears its own counters and the failures of each connection. -/
theorem done_scClearCounters (s : State) : Done (.scClearCounters 0) s portSC (fun t =>
    t.rd Reg.SC_CNT = 0 ∧ (∀ n, n < 256 → t.fld (Reg.SC_CONN_W7_FAILED n) = 0) ∧
      s.dev.Writes t (portSC.stat :: scCounters)) := by
  obtain ⟨hcnt, hfailed⟩ := s.dev.scCleared_zero
  have hl : ∀ a ∈ scCounters, a ≠ portSC.stat ∧ a ≠ Reg.SF_GATE := by
    refine List.forall_mem_cons.mpr ⟨by decide, List.forall_mem_map.mpr fun n _ => ?_⟩
    simp only [portSC, Reg.SC_CONN_W7, Reg.SC_CMD_STATUS, Reg.SF_GATE]
    omega
  refine done_plain (exec_scClearCounters s) s.dev.plain_scCleared rfl hl fun t ht hw =>
    ⟨(ht _ List.mem_cons_self).trans hcnt, fun n hn => ?_, hw⟩
  exact (Device.fld_congr (ht _ (mem_scCounters hn))).trans (hfailed n hn)

/-- TASK clears the registers of its contexts and TASK_GRID_STAT. -/
theorem done_taskClearCounters (s : State) : Done (.taskClearCounters 0) s portTASK (fun t =>
    (∀ a ∈ Reg.TASK_GRID_STAT :: taskCounters, t.rd a = 0) ∧
      s.dev.Writes t (portTASK.stat :: Reg.TASK_GRID_STAT :: taskCounters)) := by
  refine done_clearCmd rfl rfl (Device.clears_taskCounters _) rfl (List.forall_mem_cons.mpr ⟨by decide, fun a ha => ?_⟩)
  have hlt : a < Reg.TASK_CMD_STATUS := mem_taskCounters ha
  simp only [portTASK, Reg.TASK_CMD_STATUS, Reg.SF_GATE] at hlt ⊢
  omega

/-- Settles O25, block by block: CE, TASK, ETH and SC by the lemmas above, EVR with its freeze, every other block by the
list of registers that it writes with 0. -/
theorem countersClear : Obligations.CountersClear := by
  intro s clears
  refine ⟨done_ceClearCounters s, done_taskClearCounters s, ?tick, ?tri, ?kl, ?fo, ?sb, ?sbg, done_ethClearCounters s,
    ?tb, done_scClearCounters s, ?sf, ?fld, ?sig, ?nvm, ?hp, ?mb, ?evr, ?pwr⟩
  case evr => exact done_clearCmd rfl rfl (Device.clears_evrLoss _) rfl (by decide)
  case tick | tri | kl | fo => exact done_clears rfl (Device.clears_zeroRegs rfl) rfl (by decide)
  all_goals exact done_clearCmd rfl rfl (Device.clears_zeroRegs rfl) rfl (by decide)

end Sys2Proof.Machine
end

section
/-! SUPPORT. Exclusion and the states of lanes (R244, R257–R262), Sluice and parcels: one relation says what these
operations change, and one lemma per operation that it changes nothing else. -/

namespace Sys2Proof.Machine

/-! ## What lane changes and memory faults touch -/

/-- Source i of Sluice is asserted. -/
def Device.slOn (d : Device) (i : Nat) : Bool := (d.rd Reg.SF_SLUICE_STAT).toNat.testBit i

/-- The registers of lane states, of Sluice and of memory faults. -/
def laneRegs : List Nat := [Reg.TRI_LANE_STAT, Reg.TRI_RDM_STAT, Reg.EVR_LOSS, Reg.SF_SLUICE_STAT, Reg.SF_SLUICE_FLAGS,
  Reg.SF_GATE, Reg.CE_MEM_ERR, Reg.CE_MEM_ERR_INFO]

/-- The device t differs from d in the registers of lane states, Sluice and memory faults, in the recorder, Sluice, the
field die, triad and links, and in what was sent. Sources of Sluice are asserted, never ended, and START not at all. -/
structure Device.LaneWork (d t : Device) : Prop where
  form : ∃ r v s f k g m, t = { d with regs := r, evr := v, sf := s, fd := f, tri := k, kl := g, sent := m }
  regs : ∀ a, a ∉ laneRegs → t.rd a = d.rd a
  holds : ∀ i, d.slOn i = true → t.slOn i = true
  start : t.slOn slStart = d.slOn slStart

namespace Device.LaneWork

theorem refl (d : Device) : d.LaneWork d :=
  ⟨⟨d.regs, d.evr, d.sf, d.fd, d.tri, d.kl, d.sent, rfl⟩, fun _ _ => rfl, fun _ h => h, rfl⟩

theorem trans {d t u : Device} (h : d.LaneWork t) (g : t.LaneWork u) : d.LaneWork u := by
  obtain ⟨r, v, s, f, k, l, m, h1⟩ := h.form
  obtain ⟨r', v', s', f', k', l', m', g1⟩ := g.form
  exact ⟨⟨r', v', s', f', k', l', m', by rw [g1, h1]⟩, fun a ha => (g.regs a ha).trans (h.regs a ha),
    fun i hi => g.holds i (h.holds i hi), g.start.trans h.start⟩

theorem ite {d t u : Device} {p : Prop} [Decidable p] (h : d.LaneWork t) (g : d.LaneWork u) :
    d.LaneWork (if p then t else u) := by split <;> assumption

/-- Changes of the other registers of lane states and of the recorder. -/
theorem of_plain {d t : Device} (h : d.Plain (fun a => a ∈ laneRegs ∧ a ≠ Reg.SF_SLUICE_STAT) t) : d.LaneWork t := by
  obtain ⟨r, v, hf⟩ := h.form
  have hs : ∀ i, t.slOn i = d.slOn i := fun i => by rw [Device.slOn, h.regs _ (by simp), Device.slOn]
  exact ⟨⟨r, v, d.sf, d.fd, d.tri, d.kl, d.sent, hf⟩, fun a ha => h.regs a (fun hr => ha hr.1),
    fun i hi => (hs i).trans hi, hs _⟩

section
variable {d t : Device} (h : d.LaneWork t)
include h

theorem mem : t.mem = d.mem := by obtain ⟨r, v, s, f, k, g, m, rfl⟩ := h.form; rfl
theorem ce : t.ce = d.ce := by obtain ⟨r, v, s, f, k, g, m, rfl⟩ := h.form; rfl
theorem tick : t.tick = d.tick := by obtain ⟨r, v, s, f, k, g, m, rfl⟩ := h.form; rfl
theorem keepsMem : d.KeepsMem t := by obtain ⟨r, v, s, f, k, g, m, rfl⟩ := h.form; exact ⟨rfl, rfl, rfl⟩

end

end Device.LaneWork

section
variable (d : Device)

theorem Device.laneWork_setF {f : Fld} (v : Nat) (h : f.addr ∈ laneRegs) (hs : f.addr ≠ Reg.SF_SLUICE_STAT) :
    d.LaneWork (d.setF f v) := .of_plain (d.plain_setF v ⟨h, hs⟩)

theorem Device.laneWork_raise (code : Nat) (snaps : List Word) : d.LaneWork (d.raise code snaps) :=
  .of_plain (d.plain_raise code snaps (by decide))

theorem Device.laneWork_tri (k : TriState) : d.LaneWork { d with tri := k } :=
  ⟨⟨d.regs, d.evr, d.sf, d.fd, k, d.kl, d.sent, rfl⟩, fun _ _ => rfl, fun _ h => h, rfl⟩

/-! ## Sending parcels -/

theorem Device.laneWork_send (m : Sent) : d.LaneWork (d.send m) := by
  unfold Device.send
  split
  · exact .refl d
  · exact ⟨⟨d.regs, d.evr, d.sf, d.fd, d.tri, d.kl, _, rfl⟩, fun _ _ => rfl, fun _ h => h, rfl⟩

theorem Device.laneWork_setKlPort (p : Nat) (k : KlPort) : d.LaneWork (d.setKlPort p k) :=
  ⟨⟨d.regs, d.evr, d.sf, d.fd, d.tri, _, d.sent, rfl⟩, fun _ _ => rfl, fun _ h => h, rfl⟩

theorem Device.laneWork_parcelOut (p ptype : Nat) (l : List Byte) : d.LaneWork (d.parcelOut p ptype l) := by
  simp only [Device.parcelOut]
  exact .ite (d.laneWork_send _)
    (.ite ((d.laneWork_setKlPort _ _).trans (Device.laneWork_send _ _)) (d.laneWork_setKlPort _ _))

theorem Device.laneWork_kloul (p ptype : Nat) (l : List Byte) : d.LaneWork (d.kloul p ptype l) :=
  .ite (d.laneWork_parcelOut _ _ _) (.refl d)

theorem Device.laneWork_ring (ptype : Nat) (l : List Byte) : d.LaneWork (d.ring ptype l) :=
  (d.laneWork_kloul _ _ _).trans (Device.laneWork_kloul _ _ _ _)

/-! ## Sluice -/

/-- Bit i of SF_SLUICE_STAT takes a value, and the gate-off lines follow. -/
def Device.slBit (d : Device) (i : Nat) (b : Bool) : Device :=
  (d.wr Reg.SF_SLUICE_STAT (wd (putBit (d.rd Reg.SF_SLUICE_STAT).toNat i b))).regate

/-- The flag of a source that asserted; START has none. -/
def Device.slFlag (d : Device) (i : Nat) : Device :=
  if i = slStart then d
  else d.wr Reg.SF_SLUICE_FLAGS (wd (putBit (d.rd Reg.SF_SLUICE_FLAGS).toNat i true))

theorem Device.slNegate_eq (i : Nat) : d.slNegate i = d.slBit i false := rfl

theorem Device.slAssert_on {i : Nat} (h : d.slOn i = true) : d.slAssert i = d := if_pos h

theorem Device.slAssert_off {i : Nat} (h : ¬d.slOn i = true) :
    ∃ l, d.slAssert i = ((d.slBit i true).slFlag i).raise 0x288 l := ⟨_, if_neg h⟩

theorem Device.rd_slBit (i : Nat) (b : Bool) {a : Nat} (h : a ≠ Reg.SF_SLUICE_STAT) (hg : a ≠ Reg.SF_GATE) :
    (d.slBit i b).rd a = d.rd a := by rw [Device.slBit, Device.rd_regate _ hg, Device.rd_wr_other _ _ h]

theorem Device.rd_slFlag (i : Nat) {a : Nat} (h : a ≠ Reg.SF_SLUICE_FLAGS) : (d.slFlag i).rd a = d.rd a := by
  unfold Device.slFlag
  split
  · rfl
  · exact Device.rd_wr_other _ _ h

theorem Device.slOn_congr {d t : Device} (h : t.rd Reg.SF_SLUICE_STAT = d.rd Reg.SF_SLUICE_STAT) (j : Nat) :
    t.slOn j = d.slOn j := by rw [Device.slOn, h, Device.slOn]

theorem Device.slOn_slBit {i : Nat} (hi : i < 32) (b : Bool) (j : Nat) :
    (d.slBit i b).slOn j = if j = i then b else d.slOn j := by
  rw [Device.slOn, Device.slBit, Device.rd_regate _ (by decide), Device.rd_wr_same]
  by_cases hj : j < 32
  · rw [testBit_toNat_ofNat32 _ _ hj, testBit_putBit, Device.slOn]
  · have hbig (w : Word) : w.toNat.testBit j = false :=
      Nat.testBit_lt_two_pow (Nat.lt_of_lt_of_le w.isLt (Nat.pow_le_pow_right (by decide) (by omega)))
    rw [Device.slOn, hbig, hbig, if_neg (by omega)]

/-- Asserting a source sets its bit of SF_SLUICE_STAT and no other. -/
theorem Device.slOn_slAssert {i : Nat} (hi : i < 32) (j : Nat) :
    (d.slAssert i).slOn j = if j = i then true else d.slOn j := by
  by_cases hon : d.slOn i = true
  · rw [d.slAssert_on hon]
    split
    · next hj => rw [hj, hon]
    · rfl
  · obtain ⟨l, hl⟩ := d.slAssert_off hon
    rw [hl, Device.slOn_congr (Device.rd_raise _ _ _ (by decide)), Device.slOn_congr (Device.rd_slFlag _ _ (by decide)),
      d.slOn_slBit hi]

theorem Device.rd_slAssert (i : Nat) {a : Nat} (hs : a ≠ Reg.SF_SLUICE_STAT) (hf : a ≠ Reg.SF_SLUICE_FLAGS)
    (hg : a ≠ Reg.SF_GATE) (hl : a ≠ Reg.EVR_LOSS) : (d.slAssert i).rd a = d.rd a := by
  by_cases hon : d.slOn i = true
  · rw [d.slAssert_on hon]
  · obtain ⟨l, h⟩ := d.slAssert_off hon
    rw [h, Device.rd_raise _ _ _ hl, Device.rd_slFlag _ _ hf, d.rd_slBit _ _ hs hg]

/-- The bit of a source and its flag change registers, Sluice and the field die alone. -/
theorem Device.slBit_eq (i : Nat) (b : Bool) :
    ∃ r s f, d.slBit i b = { d with regs := r, sf := s, fd := f } := ⟨_, _, _, rfl⟩

theorem Device.slFlag_eq (i : Nat) : ∃ r, d.slFlag i = { d with regs := r } := by
  unfold Device.slFlag
  split
  · exact ⟨d.regs, rfl⟩
  · exact ⟨_, rfl⟩

theorem Device.laneWork_slAssert {i : Nat} (hi : i < 32) (h0 : i ≠ slStart) : d.LaneWork (d.slAssert i) where
  form := by
    by_cases hon : d.slOn i = true
    · rw [d.slAssert_on hon]
      exact (Device.LaneWork.refl d).form
    · obtain ⟨l, h⟩ := d.slAssert_off hon
      obtain ⟨r, s, f, h1⟩ := d.slBit_eq i true
      obtain ⟨r2, h2⟩ := (d.slBit i true).slFlag_eq i
      obtain ⟨r3, v, h3⟩ := ((d.slBit i true).slFlag i).raise_eq 0x288 l
      exact ⟨r3, v, s, f, d.tri, d.kl, d.sent, by rw [h, h3, h2, h1]⟩
  regs := fun a ha => by
    simp only [laneRegs, List.mem_cons, List.not_mem_nil, or_false, not_or] at ha
    obtain ⟨-, -, hloss, hstat, hflags, hgate, -, -⟩ := ha
    exact d.rd_slAssert i hstat hflags hgate hloss
  holds := fun j hj => by rw [d.slOn_slAssert hi, hj, ite_self]
  start := by rw [d.slOn_slAssert hi, if_neg (Ne.symm h0)]

/-! ## Lane states and exclusion -/

theorem laneFld_addr (i : Nat) : (laneFld i).addr = Reg.TRI_LANE_STAT := by
  unfold laneFld
  split
  · rfl
  · split <;> rfl

theorem Device.laneWork_setLane (i v : Nat) : d.LaneWork (d.setF (laneFld i) v) :=
  d.laneWork_setF v (by rw [laneFld_addr]; decide) (by rw [laneFld_addr]; decide)

theorem Device.laneWork_service : d.LaneWork d.service := by
  simp only [Device.service]
  exact .ite (.refl d) ((d.laneWork_setF _ (by decide) (by decide)).trans (Device.laneWork_raise _ _ _))

theorem Device.laneWork_toLane (i st : Nat) : d.LaneWork (d.toLane i st) := by
  simp only [Device.toLane]
  refine .ite (.refl d) (.trans ?_ (Device.laneWork_service _))
  have hset := (d.laneWork_setLane i st).trans
    (Device.laneWork_tri _ { d.tri with stateAt := sput zeroAt d.tri.stateAt i d.ts64 })
  refine .trans (.trans (hset.trans (.ite (Device.laneWork_setF _ _ (by decide) (by decide)) (.refl _)))
    (Device.laneWork_raise _ _ _)) (.ite ?_ (.refl _))
  exact (Device.laneWork_tri _ _).trans (Device.laneWork_slAssert _ (by decide) (by decide))

theorem Device.laneWork_excludeOne (i code : Nat) : d.LaneWork (d.excludeOne i code) := by
  simp only [Device.excludeOne]
  refine .ite (.refl d) (.trans (.trans (.ite ?_ (.refl d)) (Device.laneWork_raise _ _ _)) (Device.laneWork_toLane _ _ _))
  exact (((d.laneWork_setF _ (by decide) (by decide)).trans (Device.laneWork_setF _ _ (by decide) (by decide))).trans
    (Device.laneWork_setF _ _ (by decide) (by decide))).trans
      ((Device.laneWork_tri _ _).trans (Device.laneWork_ring _ _ _))

theorem Device.laneWork_exclude (i code : Nat) : d.LaneWork (d.exclude i code) :=
  (d.laneWork_excludeOne i code).trans (.ite (Device.laneWork_excludeOne _ _ _) (.refl _))

theorem Device.laneWork_excludeSelf (code : Nat) : d.LaneWork (d.excludeSelf code) :=
  .ite (d.laneWork_exclude _ _) (.refl d)

theorem Device.laneWork_memFault (m e k kind : Nat) : d.LaneWork (d.memFault m e k kind) := by
  simp only [Device.memFault]
  refine .trans (.trans (.trans (.ite (.refl d) (.of_plain ?_)) (Device.laneWork_slAssert _ (by decide) (by decide)))
    (Device.laneWork_raise _ _ _)) (Device.laneWork_excludeSelf _ _)
  exact (((((d.plain_wr _ (by decide)).trans (Device.plain_setF _ _ (by decide))).trans
    (Device.plain_setF _ _ (by decide))).trans (Device.plain_setF _ _ (by decide))).trans
    (Device.plain_setF _ _ (by decide))).trans (Device.plain_setF _ _ (by decide))

end

/-! ## A lane that excludes itself (R257, R258) -/

/-- The fields of TRI_LANE_STAT that show the lanes are apart from the own state, the service level and the cause. -/
theorem laneFld_apart (i : Nat) : Reg.TRI_LANE_STAT_STATE.Apart (laneFld i) ∧
    Reg.TRI_LANE_STAT_SERVICE.Apart (laneFld i) ∧ (laneFld i).Apart Reg.TRI_LANE_STAT_EXCL_CAUSE ∧
    Reg.TRI_LANE_STAT_EXCL_CAUSE.Apart (laneFld i) := by
  unfold laneFld
  split
  · decide
  · split <;> decide

theorem laneFld_width (i : Nat) : (laneFld i).width = 3 ∧ (laneFld i).lo + 3 ≤ 32 := by
  unfold laneFld
  split
  · decide
  · split <;> decide

theorem Device.fld_service {d : Device} {f : Fld} (hf : f.addr = Reg.TRI_LANE_STAT)
    (ha : Reg.TRI_LANE_STAT_SERVICE.Apart f) : d.service.fld f = d.fld f := by
  simp only [Device.service]
  split
  · rfl
  · rw [Device.fld_raise _ _ _ (by rw [hf]; decide), Device.fld_setF_other _ _ ha]

theorem Device.fld_slAssert_lane (d : Device) (i : Nat) {f : Fld} (hf : f.addr = Reg.TRI_LANE_STAT) :
    (d.slAssert i).fld f = d.fld f :=
  Device.fld_congr (hf ▸ d.rd_slAssert i (by decide) (by decide) (by decide) (by decide))

/-- What a new state of lane i shows, before Sluice and the service level follow. -/
def Device.laneShown (d : Device) (i st : Nat) : Device :=
  let d1 := d.setF (laneFld i) st
  let d2 : Device := { d1 with tri := { d1.tri with stateAt := sput zeroAt d1.tri.stateAt i d.ts64 } }
  (if i = d.lane then d2.setF Reg.TRI_LANE_STAT_STATE st else d2).raise 0x149 [wd i, wd (d.laneState i), wd st]

/-- The own lane leaves service: Sluice. -/
def Device.laneSluice (d : Device) (i st : Nat) (t : Device) : Device :=
  if i = d.lane ∧ inService (d.laneState i) ∧ ¬ inService st then
    ({ t with tri := { t.tri with laneOk := false } } : Device).slAssert slTriad
  else t

theorem Device.toLane_new {d : Device} {i st : Nat} (h : d.laneState i ≠ st) :
    d.toLane i st = (d.laneSluice i st (d.laneShown i st)).service := if_neg h

theorem Device.fld_tri (d : Device) (k : TriState) (f : Fld) : ({ d with tri := k } : Device).fld f = d.fld f := rfl

theorem Device.fld_laneShown (d : Device) (i st : Nat) {f : Fld} (hf : f.addr = Reg.TRI_LANE_STAT)
    (hown : Reg.TRI_LANE_STAT_STATE.Apart f) : (d.laneShown i st).fld f = (d.setF (laneFld i) st).fld f := by
  rw [Device.laneShown, Device.fld_raise _ _ _ (by rw [hf]; decide)]
  split
  · rw [Device.fld_setF_other _ _ hown, Device.fld_tri]
  · exact Device.fld_tri _ _ _

theorem Device.fld_laneSluice (d : Device) (i st : Nat) (t : Device) {f : Fld} (hf : f.addr = Reg.TRI_LANE_STAT) :
    (d.laneSluice i st t).fld f = t.fld f := by
  unfold Device.laneSluice
  split
  · exact Device.fld_slAssert_lane _ _ hf
  · rfl

/-- A field of TRI_LANE_STAT other than the own state and the service level, after a lane took a state. -/
theorem Device.fld_toLane {d : Device} {i st : Nat} {f : Fld} (hne : d.laneState i ≠ st)
    (hf : f.addr = Reg.TRI_LANE_STAT) (hown : Reg.TRI_LANE_STAT_STATE.Apart f)
    (hserv : Reg.TRI_LANE_STAT_SERVICE.Apart f) : (d.toLane i st).fld f = (d.setF (laneFld i) st).fld f := by
  rw [Device.toLane_new hne, Device.fld_service hf hserv, Device.fld_laneSluice _ _ _ _ hf,
    Device.fld_laneShown _ _ _ hf hown]

/-- What the own lane i records of its exclusion. -/
def Device.ownExcluded (d : Device) (i code : Nat) : Device :=
  let x := ((d.setF Reg.TRI_LANE_STAT_EXCL_CAUSE code).setF Reg.TRI_RDM_STAT_ATTEMPTS 0).setF Reg.TRI_RDM_STAT_PHASE 0
  ({ x with tri := { x.tri with exclAt := some x.tickCount } } : Device).ring pCTRL (ctrlExit i code)

theorem Device.excludeOne_in {d : Device} {i : Nat} (code : Nat)
    (h : ¬(!d.isLane || !(d.laneState i = lsVoting || d.laneState i = lsMinority || d.laneState i = lsReadmit)) = true) :
    ∃ l, d.excludeOne i code = ((if i = d.lane then d.ownExcluded i code else d).raise 0x14A l).toLane i lsExcluded :=
  ⟨_, if_neg h⟩

/-- A lane in VOTING or MINORITY that excludes itself shows the cause, raises event 0x14A and is EXCLUDED. -/
theorem Device.excludeSelf_inService {d : Device} (code : Nat) (hv : d.votesSelf = true) :
    ∃ l, d.excludeSelf code = ((d.ownExcluded d.lane code).raise 0x14A l).toLane d.lane lsExcluded := by
  simp only [Device.votesSelf, Device.votes, Bool.and_eq_true] at hv
  obtain ⟨hl, hs⟩ := hv
  obtain ⟨l, h⟩ := d.excludeOne_in (i := d.lane) code (by simp [hl, hs])
  refine ⟨l, ?_⟩
  rw [Device.excludeSelf, if_pos hl, Device.exclude]
  simp only [ne_eq, not_true_eq_false, false_and, if_false]
  rw [h, if_pos rfl]

theorem Device.rd_send (d : Device) (m : Sent) (a : Nat) : (d.send m).rd a = d.rd a := by
  unfold Device.send
  split <;> rfl

theorem Device.rd_ite {d : Device} {p : Prop} [Decidable p] {t u : Device} {a : Nat} (ht : t.rd a = d.rd a)
    (hu : u.rd a = d.rd a) : (if p then t else u).rd a = d.rd a := by split <;> assumption

/-- Sending parcels writes no register. -/
theorem Device.rd_ring (d : Device) (ptype : Nat) (l : List Byte) (a : Nat) : (d.ring ptype l).rd a = d.rd a := by
  have hout (x : Device) (p : Nat) : (x.parcelOut p ptype l).rd a = x.rd a := by
    simp only [Device.parcelOut]
    exact Device.rd_ite (Device.rd_send _ _ _) (Device.rd_ite (Device.rd_send _ _ _) rfl)
  have hport (x : Device) (p : Nat) : (x.kloul p ptype l).rd a = x.rd a := Device.rd_ite (hout x p) rfl
  exact (hport _ 1).trans (hport d 0)

/-- What the own lane records leaves the states of the lanes as they were. -/
theorem Device.fld_ownExcluded (d : Device) (i code : Nat) {f : Fld} (hf : f.addr = Reg.TRI_LANE_STAT) :
    (d.ownExcluded i code).fld f = (d.setF Reg.TRI_LANE_STAT_EXCL_CAUSE code).fld f := by
  have h1 : f.addr ≠ Reg.TRI_RDM_STAT_PHASE.addr := by rw [hf]; decide
  have h2 : f.addr ≠ Reg.TRI_RDM_STAT_ATTEMPTS.addr := by rw [hf]; decide
  rw [Device.ownExcluded, Device.fld_congr (Device.rd_ring _ _ _ _), Device.fld_tri,
    Device.fld_congr (Device.rd_setF_other _ 0 h1), Device.fld_congr (Device.rd_setF_other _ 0 h2)]

/-- The cause of its exclusion and the own lane's EXCLUDED show. -/
theorem Device.excludeSelf_shows {d : Device} {code : Nat} (hv : d.votesSelf = true) (hc : code < 16) :
    (d.excludeSelf code).laneState d.lane = 3 ∧ (d.excludeSelf code).fld Reg.TRI_LANE_STAT_EXCL_CAUSE = code := by
  have hkeep {f : Fld} (hf : f.addr = Reg.TRI_LANE_STAT) (l : List Word) :
      ((d.ownExcluded d.lane code).raise 0x14A l).fld f = (d.setF Reg.TRI_LANE_STAT_EXCL_CAUSE code).fld f := by
    rw [Device.fld_raise _ _ _ (by rw [hf]; decide), d.fld_ownExcluded _ _ hf]
  obtain ⟨l, h⟩ := d.excludeSelf_inService code hv
  obtain ⟨hown, hserv, hcause, hcause'⟩ := laneFld_apart d.lane
  have hold : ((d.ownExcluded d.lane code).raise 0x14A l).laneState d.lane ≠ lsExcluded := by
    rw [Device.laneState, hkeep (laneFld_addr _), Device.fld_setF_other _ _ hcause', ← Device.laneState]
    simp only [Device.votesSelf, Device.votes, Bool.and_eq_true, Bool.or_eq_true, decide_eq_true_eq] at hv
    intro hx
    rw [hx] at hv
    exact absurd hv.2 (by decide)
  obtain ⟨hw, hfit⟩ := laneFld_width d.lane
  rw [h]
  constructor
  · rw [Device.laneState, Device.fld_toLane hold (laneFld_addr _) hown hserv, Device.fld_setF_same _ _ _ (by rwa [hw]), hw]
    rfl
  · rw [Device.fld_toLane hold rfl (by decide) (by decide), Device.fld_setF_other _ _ hcause, hkeep rfl,
      Device.fld_setF_same _ _ _ (by decide)]
    exact Nat.mod_eq_of_lt hc

end Sys2Proof.Machine
end

section
/-! SUPPORT. The sources of the tick, its readiness and its watchdog (R42–R48, R59, R60, R64): what an edge of SYNCIN, a
loss, SET_SOURCE, three ticks that are not ready and a trip of the watchdog change. -/

namespace Sys2Proof.Machine

/-! ## A change of the tick's own state -/

/-- The tick's own state changes, then the registers of a list: memories and engines are as they were. -/
theorem Device.Soft.quiet_tick {d t : Device} {k : TickState} {l : List Nat}
    (h : ({ d with tick := k } : Device).Soft (· ∈ l) t) :
    t.sluice.tick = k ∧ d.KeepsRegs t.sluice (Reg.SF_GATE :: l) ∧ d.KeepsMem t.sluice ∧ t.sluice.ce = d.ce := by
  obtain ⟨hregs, ⟨hmem, hlarea, hprog⟩, hce⟩ := h.quiet
  obtain ⟨r, v, m, n, hf⟩ := h.form
  exact ⟨by simp [hf], hregs, ⟨hmem, hlarea, hprog⟩, hce⟩

/-- The gate-off network after lane work: memories and engines are as they were, and what is asserted stays. -/
theorem Device.LaneWork.quiet {d t : Device} (h : d.LaneWork t) : d.KeepsMem t.sluice ∧ t.sluice.ce = d.ce := by
  obtain ⟨hmem, hlarea, hprog⟩ := h.keepsMem
  exact ⟨⟨by simp [hmem], by simp [hlarea], by simp [hprog]⟩, by simp [h.ce]⟩

/-! ## Edges of SYNCIN (R43, R45, R46) -/

theorem Device.regainSource_present {d : Device} (h : d.srcLost = false) : d.regainSource = d := by
  rw [Device.regainSource, h]
  rfl

/-- The device that a source event near a boundary leaves. -/
def Device.edgeTaken (d : Device) (e : Int) (late : Bool) : Device :=
  ({ d with tick := { d.tick with err := e, evSeen := true, noEv := 0, late := late } } : Device).setS
    Reg.TICK_PHASE_ERR_ERR_NS e

theorem Device.srcLost_edgeTaken (d : Device) (e : Int) (late : Bool) : (d.edgeTaken e late).srcLost = d.srcLost := by
  have : (d.edgeTaken e late).fld Reg.TICK_STATUS_LOCK = d.fld Reg.TICK_STATUS_LOCK :=
    Device.fld_setF_other _ _ (by decide)
  rw [Device.srcLost, this, Device.srcLost]

section
variable {d : Device} {src t : Nat}

theorem Device.sourceEvent_first (ht : d.ticking = true) (hs : d.srcAct = src) (h0 : d.tick.started = false) :
    d.sourceEvent src t = { d with tick := { d.tick with firstDue := true } } := by
  simp [Device.sourceEvent, ht, hs, h0]

/-- A source event that counts: the phase error, the source back, and the period in progress if it was late. -/
def Device.edgeCounted (d : Device) (e : Int) (late : Bool) : Device :=
  if late then (d.edgeTaken e late).regainSource.planPeriod else (d.edgeTaken e late).regainSource

/-- A source event while ticks go on counts near a boundary, and while the source is lost. -/
theorem Device.sourceEvent_judged (ht : d.ticking = true) (hs : d.srcAct = src) (h1 : d.tick.started = true) :
    d.sourceEvent src t = if d.srcLost || decide (4 * (d.phaseOf (t / 4 * 4)).natAbs ≤ 1000 * d.periodUs) then
        d.edgeCounted (d.phaseOf (t / 4 * 4))
          (decide (d.phaseOf (t / 4 * 4) = ((t / 4 * 4 : Nat) : Int) - d.tick.boundaryTs))
      else ((d.setF Reg.TICK_FLAGS_EDGE_REJECT 1).inc Reg.TICK_ERR_CNT_REJ).raise 0x044 [] := by
  rw [Device.sourceEvent, if_neg (by simp [ht, hs]), if_neg (by simp [h1])]
  rfl

variable (ht : d.ticking = true) (hs : d.srcAct = src) (h1 : d.tick.started = true) (hl : d.srcLost = false)
include ht hs h1 hl

theorem Device.sourceEvent_near (hn : 4 * (d.phaseOf (t / 4 * 4)).natAbs ≤ 1000 * d.periodUs)
    (he : d.phaseOf (t / 4 * 4) ≠ ((t / 4 * 4 : Nat) : Int) - d.tick.boundaryTs) :
    d.sourceEvent src t = d.edgeTaken (d.phaseOf (t / 4 * 4)) false := by
  rw [Device.sourceEvent_judged ht hs h1, if_pos (by simp [hn]), decide_eq_false he, Device.edgeCounted,
    if_neg (by decide)]
  exact Device.regainSource_present (by rw [d.srcLost_edgeTaken, hl])

theorem Device.sourceEvent_far (hn : 1000 * d.periodUs < 4 * (d.phaseOf (t / 4 * 4)).natAbs) :
    d.sourceEvent src t =
      ((d.setF Reg.TICK_FLAGS_EDGE_REJECT 1).inc Reg.TICK_ERR_CNT_REJ).raise 0x044 [] := by
  rw [Device.sourceEvent_judged ht hs h1, if_neg (by simp [hl, Nat.not_le.mpr hn])]

end

/-- An edge of the selected sense is a source event. -/
theorem completes_edge {s : State} {f : Bool} {t : Device} {P : Device → Prop}
    (hf : s.dev.bit Reg.TICK_CFG_SYNC_EDGE = f) (h : s.dev.sourceEvent srcSYNCIN s.dev.ts64 = t) (hP : P t.sluice) :
    Completes (.syncinEdge f) s P :=
  completes_run (i := .syncinEdge f) (s := s)
    (f := fun d => if d.bit Reg.TICK_CFG_SYNC_EDGE = f then d.sourceEvent srcSYNCIN d.ts64 else d) rfl
    ((if_pos hf).trans h) hP

/-- What an edge near a boundary leaves. -/
theorem Device.edgeTaken_spec (d : Device) (e : Int) :
    (d.edgeTaken e false).sluice.tick = { d.tick with err := e, evSeen := true, noEv := 0, late := false } ∧
    (d.edgeTaken e false).sluice.fld Reg.TICK_PHASE_ERR_ERR_NS = lowBits e 32 ∧
    d.KeepsRegs (d.edgeTaken e false).sluice [Reg.SF_GATE, Reg.TICK_PHASE_ERR] ∧
    d.KeepsMem (d.edgeTaken e false).sluice ∧ (d.edgeTaken e false).sluice.ce = d.ce ∧
    (d.edgeTaken e false).sluice.evr = d.evr := by
  obtain ⟨htick, hregs, hmem, hce⟩ :=
    (Device.soft_setF (R := (· ∈ [Reg.TICK_PHASE_ERR]))
      { d with tick := { d.tick with err := e, evSeen := true, noEv := 0, late := false } }
      (f := Reg.TICK_PHASE_ERR_ERR_NS) (lowBits e 32) (by decide)).quiet_tick
  refine ⟨htick, ?_, hregs, hmem, hce, ?_⟩
  · rw [Device.fld_sluice _ (by decide)]
    refine (Device.fld_setF_same _ _ _ (by decide)).trans (Nat.mod_eq_of_lt ?_)
    have h0 : (0 : Int) ≤ e % (2 ^ 32 : Nat) := Int.emod_nonneg _ (by decide)
    have h1 : e % (2 ^ 32 : Nat) < (2 ^ 32 : Nat) := Int.emod_lt_of_pos _ (by decide)
    change (e % (2 ^ 32 : Nat)).toNat < 2 ^ 32
    omega
  · simp only [Device.sluice_evr, Device.edgeTaken, Device.setS, Device.setF_evr]

/-- What an edge far from a boundary leaves: it is counted and told. -/
theorem Device.edgeRejected_spec (d : Device) {t : Device}
    (h : t = ((d.setF Reg.TICK_FLAGS_EDGE_REJECT 1).inc Reg.TICK_ERR_CNT_REJ).raise 0x044 []) :
    t.sluice.bit Reg.TICK_FLAGS_EDGE_REJECT = true ∧
    t.sluice.fld Reg.TICK_ERR_CNT_REJ = min (d.fld Reg.TICK_ERR_CNT_REJ + 1) (2 ^ Reg.TICK_ERR_CNT_REJ.width - 1) ∧
    d.Logs t.sluice 0x044 [] ∧ d.Writes t.sluice [Reg.TICK_FLAGS, Reg.TICK_ERR_CNT, Reg.EVR_LOSS] := by
  subst h
  have hflag : (((d.setF Reg.TICK_FLAGS_EDGE_REJECT 1).inc Reg.TICK_ERR_CNT_REJ).raise 0x044 []).sluice.fld
      Reg.TICK_FLAGS_EDGE_REJECT = 1 := by
    rw [Device.fld_sluice _ (by decide), Device.fld_raise _ _ _ (by decide), Device.inc, Device.satAdd,
      Device.fld_setF_other _ _ (by decide)]
    exact Device.fld_setF_same _ _ _ (by decide)
  refine ⟨(Device.bit_eq_true _ _).mpr (by rw [hflag]; decide), ?_, ?_, ?_⟩
  · rw [Device.fld_sluice _ (by decide), Device.fld_raise _ _ _ (by decide), Device.fld_inc_same _ _ (by decide),
      Device.fld_setF_other _ _ (by decide)]
  · have hcode : ((d.setF Reg.TICK_FLAGS_EDGE_REJECT 1).inc Reg.TICK_ERR_CNT_REJ).rd (Reg.EVR_CODE 0x044) =
        d.rd (Reg.EVR_CODE 0x044) :=
      (Device.rd_inc_other _ (by decide)).trans (Device.rd_setF_other _ _ (by decide))
    exact (d.raise_logs _ 0x044 [] hcode (by simp) (by simp)).congr (Device.sluice_evr _)
  · exact (((d.plain_setF _ (by decide)).trans (Device.plain_inc _ (by decide))).trans
      (Device.plain_raise _ _ _ (by decide))).writes

/-! ## The loss of the source (R45, R46) -/

/-- A source that is lost, before what it fires. -/
def Device.lossShown (d : Device) : Device :=
  let d1 := (d.setF Reg.TICK_STATUS_LOCK lockLOST).setF Reg.TICK_FLAGS_SRC_LOST 1
  if d1.srcAct = srcNETTIME then d1 else { d1 with tick := { d1.tick with err := 0 } }

theorem Device.loseSource_eq {d : Device} (h : d.srcLost = false) :
    d.loseSource = (d.lossShown.raise 0x045 []).fire 0xEE := by
  have hn : ¬d.srcLost = true := by rw [h]; decide
  exact if_neg hn

/-- A loss shows in two registers, and clears the phase error. -/
theorem Device.lossShown_eq (d : Device) : ∃ k, d.lossShown = { (d.setF Reg.TICK_STATUS_LOCK lockLOST).setF
    Reg.TICK_FLAGS_SRC_LOST 1 with tick := k } ∧ (d.srcAct ≠ srcNETTIME → k = { d.tick with err := 0 }) ∧
      k.firstDue = d.tick.firstDue := by
  have hact : ((d.setF Reg.TICK_STATUS_LOCK lockLOST).setF Reg.TICK_FLAGS_SRC_LOST 1).srcAct = d.srcAct := by
    rw [Device.srcAct, Device.fld_setF_other _ _ (by decide), Device.fld_setF_other _ _ (by decide), Device.srcAct]
  simp only [Device.lossShown, hact]
  split
  · next h => exact ⟨d.tick, rfl, fun hn => absurd h hn, rfl⟩
  · exact ⟨{ d.tick with err := 0 }, rfl, fun _ => rfl, rfl⟩

/-- What the loss of the source leaves. -/
structure Device.Lost (d t : Device) : Prop where
  lock : t.fld Reg.TICK_STATUS_LOCK = 3
  flag : t.bit Reg.TICK_FLAGS_SRC_LOST = true
  err : d.srcAct ≠ 2 → t.tick.err = 0
  due : t.tick.firstDue = d.tick.firstDue
  mem : d.KeepsMem t
  ce : t.ce = d.ce
  logs : d.bit (Reg.TASK_ROUTE_EN 0xEE) = false → d.Logs t 0x045 []

/-- A router source that is not enabled fires nothing. -/
theorem Device.fire_disabled {d : Device} {src : Nat} (h : d.bit (Reg.TASK_ROUTE_EN src) = false) : d.fire src = d := by
  have hn : (!d.bit (Reg.TASK_ROUTE_EN src)) = true := by rw [h]; rfl
  exact if_pos hn

theorem Device.loseSource_lost {d : Device} (h : d.srcLost = false) : d.Lost d.loseSource.sluice := by
  obtain ⟨k, hk, herr, hdue⟩ := d.lossShown_eq
  have hsoft : d.lossShown.Soft RelReg d.loseSource := by
    rw [Device.loseSource_eq h]
    exact (Device.soft_raise _ _ _ relReg_loss).trans (Device.soft_fire _ _ fun _ => id)
  have hrd {a : Nat} (ha : a < 0x4030000) : d.loseSource.rd a = d.lossShown.rd a :=
    hsoft.regs a (not_relReg (.inl ha) (by simp only [Reg.EVR_LOSS]; omega))
  have hshown (a : Nat) : d.lossShown.rd a =
      ((d.setF Reg.TICK_STATUS_LOCK lockLOST).setF Reg.TICK_FLAGS_SRC_LOST 1).rd a := by rw [hk]; rfl
  obtain ⟨r, v, n, m, hf⟩ := hsoft.form
  have htick : d.loseSource.sluice.tick = k := by rw [Device.sluice_tick, hf, hk]
  have hflag : d.loseSource.sluice.fld Reg.TICK_FLAGS_SRC_LOST = 1 := by
    rw [Device.fld_sluice _ (by decide), Device.fld_congr (hrd (by decide)), Device.fld_congr (hshown _)]
    exact Device.fld_setF_same _ _ _ (by decide)
  refine ⟨?_, (Device.bit_eq_true _ _).mpr (by rw [hflag]; decide), fun hs => ?_, ?_, ?_, ?_, fun hr => ?_⟩
  · rw [Device.fld_sluice _ (by decide), Device.fld_congr (hrd (by decide)), Device.fld_congr (hshown _),
      Device.fld_setF_other _ _ (by decide)]
    exact Device.fld_setF_same _ _ _ (by decide)
  · rw [htick, herr hs]
  · rw [htick, hdue]
  · rw [hf, hk]
    exact ⟨by simp, by simp, by simp⟩
  · rw [hf, hk]
    simp
  · have hroute : (d.lossShown.raise 0x045 []).bit (Reg.TASK_ROUTE_EN 0xEE) = false := by
      rw [Device.bit, Device.fld_raise _ _ _ (by decide), Device.fld_congr (hshown _),
        Device.fld_setF_other _ _ (by decide), Device.fld_setF_other _ _ (by decide)]
      exact hr
    have hev : d.loseSource.sluice.evr = (d.lossShown.raise 0x045 []).evr := by
      rw [Device.sluice_evr, Device.loseSource_eq h, Device.fire_disabled hroute]
    have hcode : d.lossShown.rd (Reg.EVR_CODE 0x045) = d.rd (Reg.EVR_CODE 0x045) := by
      rw [hshown, Device.rd_setF_other _ _ (by decide), Device.rd_setF_other _ _ (by decide)]
    exact (d.raise_logs d.lossShown 0x045 [] hcode (by simp [hk]) (by simp [hk])).congr hev

/-! ## SET_SOURCE (R48) -/

theorem exec_setSource (arg : BitVec 24) (s : State) :
    exec (.setSource arg) s = run (fun d => d.cmdSetSource arg.toNat) s := rfl

/-- SET_SOURCE of a single device that ticks waits for the boundary. -/
theorem begun_setSource (s : State) (k : Fin 4) (hl : s.dev.isLane = false) (ht : s.dev.ticking = true) :
    Begun (.setSource (BitVec.ofNat 24 k)) s portTICK (fun t =>
      t.tick = { s.dev.tick with pendSrc := some k.val } ∧ s.dev.KeepsRegs t [Reg.SF_GATE, Reg.TICK_CMD_STATUS] ∧
      s.dev.KeepsMem t ∧ t.ce = s.dev.ce ∧ t.evr = s.dev.evr) := by
  intro hb
  have hk : (BitVec.ofNat 24 k.val).toNat = k := by
    rw [BitVec.toNat_ofNat]
    omega
  refine completes_run (exec_setSource _ s) (Device.command_ok _ _ _ _ _ _ _ hb ?_ rfl (by simp [hl, ht])) ?_
  · rw [hk]
    exact decide_eq_true k.isLt
  · rw [hk]
    obtain ⟨htick, hregs, hmem, hce⟩ :=
      (((Device.soft_setF (R := (· ∈ [Reg.TICK_CMD_STATUS])) { s.dev with tick := { s.dev.tick with pendSrc := some k.val } }
        (f := portTICK.busy) 1 (by decide)).trans (Device.soft_setF _ (f := portTICK.code) 1 (by decide)))).quiet_tick
    refine ⟨?_, ?_, htick, hregs, hmem, hce, ?_⟩
    · rw [Device.fld_sluice _ (by decide), Device.beginCmd, Device.fld_setF_other _ _ (by decide)]
      exact Device.fld_setF_same _ _ _ (by decide)
    · rw [Device.fld_sluice _ (by decide)]
      exact Device.fld_setF_same _ _ _ (by decide)
    · rw [Device.sluice_evr, Device.beginCmd_evr]

/-! ## Three ticks that are not ready (R59, R60) -/

/-- The device that has told of three ticks that were not ready. -/
def Device.nr3Shown (d : Device) : Device := ({ d with tick := { d.tick with nr3Told := true } } : Device).raise 0x049 []

theorem completes_notReady3 {s : State} {P : Device → Prop} (h3 : 3 ≤ s.dev.fld Reg.TICK_STATUS_NR_CONSEC)
    (hn : s.dev.tick.nr3Told = false) (hP : P (s.dev.nr3Shown.excludeSelf 4).sluice) : Completes .notReady3Consec s P :=
  completes_run (i := .notReady3Consec) (s := s)
    (f := fun d => if 3 ≤ d.fld Reg.TICK_STATUS_NR_CONSEC ∧ !d.tick.nr3Told then
      (({ d with tick := { d.tick with nr3Told := true } } : Device).raise 0x049 []).excludeSelf 4 else d) rfl
    (if_pos ⟨h3, by rw [hn]; rfl⟩) hP

theorem Device.excludeSelf_single {d : Device} (code : Nat) (h : d.isLane = false) : d.excludeSelf code = d := by
  rw [Device.excludeSelf, h]
  rfl

/-- A lane's role and state are read from registers. -/
theorem Device.votesSelf_congr {d t : Device} (h1 : t.rd Reg.SYS_ROLE = d.rd Reg.SYS_ROLE)
    (h2 : t.rd Reg.TRI_LANE_STAT = d.rd Reg.TRI_LANE_STAT) :
    t.isLane = d.isLane ∧ t.lane = d.lane ∧ t.votesSelf = d.votesSelf := by
  have hf {f : Fld} (hf : f.addr = Reg.SYS_ROLE) : t.fld f = d.fld f := Device.fld_congr (by rw [hf, h1])
  have hrole : t.role = d.role := hf rfl
  have hlane : t.isLane = d.isLane := by simp only [Device.isLane, hrole]
  have hl : t.lane = d.lane := by simp only [Device.lane, hlane, hrole]
  have hst (i : Nat) : t.laneState i = d.laneState i := Device.fld_congr (by rw [laneFld_addr, h2])
  exact ⟨hlane, hl, by simp only [Device.votesSelf, Device.votes, hlane, hl, hst]⟩

theorem Device.nr3_spec (d : Device) :
    (d.nr3Shown.excludeSelf 4).sluice.tick = { d.tick with nr3Told := true } ∧
    d.KeepsMem (d.nr3Shown.excludeSelf 4).sluice ∧ (d.nr3Shown.excludeSelf 4).sluice.ce = d.ce ∧
    (d.isLane = false → d.Logs (d.nr3Shown.excludeSelf 4).sluice 0x049 [] ∧
      d.KeepsRegs (d.nr3Shown.excludeSelf 4).sluice [Reg.SF_GATE, Reg.EVR_LOSS]) ∧
    (d.votesSelf = true → (d.nr3Shown.excludeSelf 4).sluice.laneState d.lane = 3 ∧
      (d.nr3Shown.excludeSelf 4).sluice.fld Reg.TRI_LANE_STAT_EXCL_CAUSE = 4) := by
  have hsoft : ({ d with tick := { d.tick with nr3Told := true } } : Device).Soft (· ∈ [Reg.EVR_LOSS]) d.nr3Shown :=
    Device.soft_raise _ _ _ (by simp)
  have hwork : ({ d with tick := { d.tick with nr3Told := true } } : Device).LaneWork (d.nr3Shown.excludeSelf 4) :=
    (Device.laneWork_raise _ _ _).trans (Device.laneWork_excludeSelf _ _)
  have hrd {a : Nat} (ha : a ≠ Reg.EVR_LOSS) : d.nr3Shown.rd a = d.rd a := Device.rd_raise _ _ _ ha
  obtain ⟨hlane, hl, hv⟩ := Device.votesSelf_congr (d := d) (t := d.nr3Shown) (hrd (by decide)) (hrd (by decide))
  obtain ⟨⟨hmem, hlarea, hprog⟩, hce⟩ := hwork.quiet
  refine ⟨by rw [Device.sluice_tick, hwork.tick], ⟨hmem, hlarea, hprog⟩, hce, fun hs => ?_, fun hs => ?_⟩
  · rw [Device.excludeSelf_single _ (hlane.trans hs)]
    obtain ⟨-, hregs, -, -⟩ := hsoft.quiet_tick
    have hlogs : d.Logs d.nr3Shown 0x049 [] := d.raise_logs _ 0x049 [] rfl rfl rfl
    exact ⟨hlogs.congr (Device.sluice_evr _), hregs⟩
  · obtain ⟨hst, hcause⟩ := Device.excludeSelf_shows (hv.trans hs) (code := 4) (by decide)
    rw [hl] at hst
    exact ⟨(Device.fld_sluice _ (by rw [laneFld_addr]; decide)).trans hst, (Device.fld_sluice _ (by decide)).trans hcause⟩

/-! ## The watchdog (R64) -/

/-- The device in which the watchdog has tripped, before its lane is excluded. -/
def Device.wdShown (d : Device) : Device := ((d.slAssert slWd).setF Reg.TICK_FLAGS_WD_TRIP 1).raise 0x04C []

theorem completes_watchdog {s : State} {P : Device → Prop} (ha : s.dev.tick.wdArmed = true)
    (hP : P (s.dev.wdShown.excludeSelf 1).sluice) : Completes .tickWatchdogTrip s P :=
  completes_run (i := .tickWatchdogTrip) (s := s)
    (f := fun d => if d.tick.wdArmed then
      (((d.slAssert slWd).setF Reg.TICK_FLAGS_WD_TRIP 1).raise 0x04C []).excludeSelf 1 else d) rfl (if_pos ha) hP

/-- The watchdog's source of Sluice gates every channel off. -/
theorem Device.slWd_gates {d : Device} (h : (d.rd Reg.SF_SLUICE_STAT).toNat.testBit 2 = true) {c : Nat} (hc : c < 24) :
    d.gatedBy c :=
  have hall : ∀ c < 24, (d.slChannels 2).testBit c = true := by
    change ∀ c < 24, (0xFFFFFF : Nat).testBit c = true
    decide
  ⟨2, by decide, h, hall c hc⟩

theorem Device.wd_spec (d : Device) :
    ((d.wdShown.excludeSelf 1).sluice.rd Reg.SF_SLUICE_STAT).toNat.testBit 2 = true ∧
    (d.wdShown.excludeSelf 1).sluice.bit Reg.TICK_FLAGS_WD_TRIP = true ∧
    (∀ c, c < 24 → ((d.wdShown.excludeSelf 1).sluice.rd Reg.SF_GATE).toNat.testBit c = true ∧
      (d.wdShown.excludeSelf 1).sluice.driverOff c) ∧
    d.KeepsMem (d.wdShown.excludeSelf 1).sluice ∧ (d.wdShown.excludeSelf 1).sluice.ce = d.ce ∧
    (d.votesSelf = true → (d.wdShown.excludeSelf 1).sluice.laneState d.lane = 3 ∧
      (d.wdShown.excludeSelf 1).sluice.fld Reg.TRI_LANE_STAT_EXCL_CAUSE = 1) := by
  have hwork : d.wdShown.LaneWork (d.wdShown.excludeSelf 1) := Device.laneWork_excludeSelf _ _
  have hrd {a : Nat} (h1 : a ≠ Reg.EVR_LOSS) (h2 : a ≠ Reg.TICK_FLAGS) : d.wdShown.rd a = (d.slAssert slWd).rd a :=
    (Device.rd_raise _ _ _ h1).trans (Device.rd_setF_other _ _ h2)
  have hkeep {a : Nat} (h1 : a ≠ Reg.EVR_LOSS) (h2 : a ≠ Reg.TICK_FLAGS) (h3 : a ≠ Reg.SF_SLUICE_STAT)
      (h4 : a ≠ Reg.SF_SLUICE_FLAGS) (h5 : a ≠ Reg.SF_GATE) : d.wdShown.rd a = d.rd a :=
    (hrd h1 h2).trans (d.rd_slAssert _ h3 h4 h5 h1)
  have hon : d.wdShown.slOn slWd = true := by
    rw [Device.slOn_congr (hrd (by decide) (by decide)), Device.slOn_slAssert _ (by decide), if_pos rfl]
  have hstat : ((d.wdShown.excludeSelf 1).sluice.rd Reg.SF_SLUICE_STAT).toNat.testBit 2 = true := by
    rw [Device.rd_sluice _ (by decide)]
    exact hwork.holds slWd hon
  have hflag : (d.wdShown.excludeSelf 1).sluice.fld Reg.TICK_FLAGS_WD_TRIP = 1 := by
    rw [Device.fld_sluice _ (by decide), Device.fld_congr (hwork.regs _ (by decide)), Device.wdShown,
      Device.fld_raise _ _ _ (by decide)]
    exact Device.fld_setF_same _ _ _ (by decide)
  obtain ⟨-, hl, hv⟩ := Device.votesSelf_congr (d := d) (t := d.wdShown)
    (hkeep (by decide) (by decide) (by decide) (by decide) (by decide))
    (hkeep (by decide) (by decide) (by decide) (by decide) (by decide))
  obtain ⟨⟨hmem, hlarea, hprog⟩, hce⟩ := hwork.quiet
  have hquiet : d.KeepsMem d.wdShown ∧ d.wdShown.ce = d.ce := by
    exact ⟨⟨by simp [Device.wdShown], by simp [Device.wdShown], by simp [Device.wdShown]⟩, by simp [Device.wdShown]⟩
  obtain ⟨⟨m1, m2, m3⟩, m4⟩ := hquiet
  refine ⟨hstat, (Device.bit_eq_true _ _).mpr (by rw [hflag]; decide), fun c hc => ?_,
    ⟨hmem.trans m1, hlarea.trans m2, hprog.trans m3⟩, hce.trans m4, fun hs => ?_⟩
  · have hshown := (Device.sluice_gated _).shown c hc (Device.slWd_gates hstat hc)
    exact ⟨hshown, (Device.sluice_gated _).off c hc hshown⟩
  · obtain ⟨hst, hcause⟩ := Device.excludeSelf_shows (hv.trans hs) (code := 1) (by decide)
    rw [hl] at hst
    exact ⟨(Device.fld_sluice _ (by rw [laneFld_addr]; decide)).trans hst, (Device.fld_sluice _ (by decide)).trans hcause⟩

/-! ## The statement -/

theorem completes_sourceLost {s : State} {P : Device → Prop} (ht : s.dev.ticking = true) (h1 : s.dev.tick.started = true)
    (hc : ((s.dev.srcAct = 1 ∨ s.dev.srcAct = 3) ∧ max 1 (s.dev.fld Reg.TICK_CFG_LOSS_CNT) ≤ s.dev.tick.noEv) ∨
      (s.dev.srcAct = 2 ∧ s.dev.fld Reg.TB_STAT_STATE ≠ 2)) (hP : P s.dev.loseSource.sluice) :
    Completes .sourceLost s P := by
  refine completes_run (i := .sourceLost) (s := s) rfl (if_pos ?_) hP
  simpa [ht, h1, Device.atLeast1, Device.tbLocked, srcSYNCIN, srcSAHTU, srcNETTIME] using hc

theorem completes_firstTimeout {s : State} {P : Device → Prop} (ht : s.dev.ticking = true)
    (h0 : s.dev.tick.started = false) (hd : s.dev.tick.firstDue = false) (hs : s.dev.srcAct = 1 ∨ s.dev.srcAct = 3)
    (hP : P ({ s.dev with tick := { s.dev.tick with firstDue := true } } : Device).loseSource.sluice) :
    Completes .firstBoundaryTimeout s P := by
  refine completes_run (i := .firstBoundaryTimeout) (s := s) rfl (if_pos ?_) hP
  simpa [ht, h0, hd, srcSYNCIN, srcSAHTU] using hs

/-- Settles O36, clause by clause: an edge near a boundary, far from it, before the first one and of the other sense, the
loss of the source, the first boundary's limit, SET_SOURCE, three ticks that were not ready, the watchdog. -/
theorem tickSources : Obligations.TickSources := by
  intro s e
  refine ⟨fun f hf ht hs hl h1 => ⟨fun hn he => ?near, fun hn => ?far⟩, fun f hf ht hs h0 => ?first, fun f hf => ?other,
    fun ht h1 hl hc => ?lost, fun ht h0 hd hl hs => ?timeout, fun k hl ht => begun_setSource s k hl ht,
    fun h3 hn => completes_notReady3 h3 hn s.dev.nr3_spec, fun ha => completes_watchdog ha s.dev.wd_spec⟩
  case near =>
    exact completes_edge hf (Device.sourceEvent_near ht hs h1 hl hn he) (s.dev.edgeTaken_spec _)
  case far =>
    exact completes_edge hf (Device.sourceEvent_far ht hs h1 hl hn) (s.dev.edgeRejected_spec rfl)
  case first =>
    obtain ⟨htick, hregs, hmem, hce⟩ := (Device.Soft.refl (R := (· ∈ ([] : List Nat)))
      ({ s.dev with tick := { s.dev.tick with firstDue := true } } : Device)).quiet_tick
    exact completes_edge hf (Device.sourceEvent_first ht hs h0) ⟨htick, hregs, hmem, hce, by simp⟩
  case other =>
    exact completes_run (i := .syncinEdge f) rfl (if_neg hf) s.dev.sluice_nothing
  case lost =>
    obtain ⟨hlock, hflag, herr, -, hmem, hce, hlogs⟩ := Device.loseSource_lost hl
    exact completes_sourceLost ht h1 hc ⟨hlock, hflag, herr, hmem, hce, hlogs⟩
  case timeout =>
    obtain ⟨hlock, hflag, -, hdue, ⟨hmem, hlarea, hprog⟩, hce, -⟩ :=
      Device.loseSource_lost (d := { s.dev with tick := { s.dev.tick with firstDue := true } }) hl
    exact completes_firstTimeout ht h0 hd hs ⟨hdue, hlock, hflag, ⟨hmem, hlarea, hprog⟩, hce⟩

end Sys2Proof.Machine
end

section
/-! SUPPORT. Work beside the course of the tick (R52–R66): at a boundary most operations change units, their registers and
the raw inputs alone. One relation says so, and one lemma per operation that it is of this kind. -/

namespace Sys2Proof.Machine

/-! ## Loops -/

section
variable {r : Device → Device → Prop} (hrefl : ∀ x, r x x) (htrans : ∀ {x y z}, r x y → r y z → r x z)
include hrefl htrans

/-- A loop whose turns all keep something keeps it. -/
theorem forN_rel {f : Nat → Device → Device} (n : Nat) (h : ∀ i, i < n → ∀ x, r x (f i x)) (d : Device) :
    r d (forN n f d) := by
  induction n with
  | zero => exact hrefl d
  | succ n ih => exact htrans (ih fun i hi => h i (Nat.lt_succ_of_lt hi)) (h n (Nat.lt_succ_self n) _)

theorem foldl_rel {α : Type} {f : Device → α → Device} (l : List α) (h : ∀ x a, r x (f x a)) (d : Device) :
    r d (l.foldl f d) := by
  induction l generalizing d with
  | nil => exact hrefl d
  | cons a l ih => exact htrans (h d a) (ih _)

end

/-! ## The relation -/

theorem Device.KeepsMem.trans {d t u : Device} (h : d.KeepsMem t) (g : t.KeepsMem u) : d.KeepsMem u :=
  ⟨g.mem.trans h.mem, g.larea.trans h.larea, g.prog.trans h.prog⟩

/-- The tick's course: what decides its phases and commits. The source's own state and a copy under way are apart from it. -/
def TickState.course (k : TickState) : TickState :=
  { k with err := 0, corr := 0, evSeen := false, noEv := 0, nextNs := 0, late := false, copyRunning := false }

/-- A register that a boundary may write beside the course of the tick. -/
abbrev SideReg (a : Nat) : Prop :=
  (0x4028000 ≤ a ∧ a ≠ Reg.FO_CFG ∧ a ≠ Reg.LDR_START_US) ∨
    a ∈ [Reg.TICK_CMD_STATUS, Reg.TICK_CFG, Reg.TICK_PHASE_ERR, Reg.TICK_STATUS]

/-- The tick runs its course in t as in d: memories, engines, time, the tick's own state, RUNNING, and the registers that
a boundary does not write beside it. -/
structure Device.Steady (d t : Device) : Prop where
  mem : d.KeepsMem t
  ce : t.ce = d.ce
  tb : t.tb = d.tb
  course : t.tick.course = d.tick.course
  running : t.fld Reg.TICK_STATUS_RUNNING = d.fld Reg.TICK_STATUS_RUNNING
  regs : ∀ a, ¬SideReg a → t.rd a = d.rd a

theorem Device.Steady.refl (d : Device) : d.Steady d := ⟨⟨rfl, rfl, rfl⟩, rfl, rfl, rfl, rfl, fun _ _ => rfl⟩

theorem Device.Steady.trans {d t u : Device} (h : d.Steady t) (g : t.Steady u) : d.Steady u where
  mem := h.mem.trans g.mem
  ce := g.ce.trans h.ce
  tb := g.tb.trans h.tb
  course := g.course.trans h.course
  running := g.running.trans h.running
  regs := fun a ha => (g.regs a ha).trans (h.regs a ha)

/-- What belongs to the tick's course is as it was. -/
theorem Device.Steady.tick {α : Type} {d t : Device} (h : d.Steady t) (f : TickState → α)
    (hf : ∀ k : TickState, f k.course = f k := by exact fun _ => rfl) : f t.tick = f d.tick := by
  rw [← hf, h.course, hf]

/-- Work of units: beside the tick's course, the images but for the raw inputs, START and the commit sequence stay. -/
structure Device.Calm (d t : Device) : Prop where
  steady : d.Steady t
  img : t.img = { d.img with latch := t.img.latch }
  start : t.slOn slStart = d.slOn slStart
  seq : t.rd Reg.IMG_P_SEQ = d.rd Reg.IMG_P_SEQ

namespace Device.Calm

theorem refl (d : Device) : d.Calm d := ⟨.refl d, rfl, rfl, rfl⟩

theorem trans {d t u : Device} (h : d.Calm t) (g : t.Calm u) : d.Calm u where
  steady := h.steady.trans g.steady
  img := by rw [g.img, h.img]
  start := g.start.trans h.start
  seq := g.seq.trans h.seq

theorem ite {d t u : Device} {p : Prop} [Decidable p] (h : d.Calm t) (g : d.Calm u) : d.Calm (if p then t else u) := by
  split <;> assumption

theorem forN {f : Nat → Device → Device} (n : Nat) (h : ∀ i, i < n → ∀ x : Device, x.Calm (f i x)) (d : Device) :
    d.Calm (forN n f d) := forN_rel refl trans n h d

theorem foldl {α : Type} {f : Device → α → Device} (l : List α) (h : ∀ (x : Device) a, x.Calm (f x a)) (d : Device) :
    d.Calm (l.foldl f d) := foldl_rel refl trans l h d

/-- The registers of units: not those of which a boundary writes some fields alone. -/
abbrev UnitReg (a : Nat) : Prop := SideReg a ∧ a ∉ [Reg.SF_SLUICE_STAT, Reg.TICK_STATUS, Reg.IMG_P_SEQ]

theorem of_regs {d t : Device} (hmem : d.KeepsMem t) (hce : t.ce = d.ce) (htb : t.tb = d.tb) (htick : t.tick = d.tick)
    (himg : t.img = d.img) (hregs : ∀ a, ¬UnitReg a → t.rd a = d.rd a) : d.Calm t where
  steady := ⟨hmem, hce, htb, by rw [htick], Device.fld_congr (hregs _ (by decide)), fun a ha => hregs a fun h => ha h.1⟩
  img := by rw [himg]
  start := Device.slOn_congr (hregs _ (by decide)) _
  seq := hregs _ (by decide)

theorem of_soft {d t : Device} (h : d.Soft UnitReg t) : d.Calm t := by
  obtain ⟨r, v, k, m, hf⟩ := h.form
  exact of_regs ⟨by rw [hf], by rw [hf], by rw [hf]⟩ (by rw [hf]) (by rw [hf]) (by rw [hf]) (by rw [hf]) h.regs

theorem of_lane {d t : Device} (h : d.LaneWork t) : d.Calm t := by
  have hlane : ∀ a ∈ laneRegs, SideReg a := by decide
  obtain ⟨r, v, s, f, k, l, m, hf⟩ := h.form
  refine ⟨⟨h.keepsMem, h.ce, by rw [hf], by rw [hf], Device.fld_congr (h.regs _ (by decide)), fun a ha => h.regs a fun hl =>
    ha (hlane a hl)⟩, by rw [hf], h.start, h.regs _ (by decide)⟩

end Device.Calm

open Device.Calm (UnitReg)

/-- A register of the units from Sahtu on, but for the state of Sluice and the time of the start. -/
theorem unitReg {a : Nat} (h : 0x4080000 ≤ a ∧ a ≠ 0x40d0020 ∧ a ≠ 0x4110030) : UnitReg a := by
  simp only [UnitReg, SideReg, Reg.SF_SLUICE_STAT, Reg.LDR_START_US, Reg.FO_CFG, Reg.TICK_STATUS, Reg.IMG_P_SEQ,
    Reg.TICK_CMD_STATUS, Reg.TICK_CFG, Reg.TICK_PHASE_ERR, List.mem_cons, List.not_mem_nil, or_false]
  omega

theorem unitReg_rel {a : Nat} (h : RelReg a) : UnitReg a := by
  rcases h with ⟨e, c, he, hc, h | h⟩ | h | h <;>
  · simp only [UnitReg, SideReg, h, Reg.TASK_STAT, Reg.TASK_CNT, Reg.EVR_LOSS, Reg.TASK_GRID_STAT, Reg.SF_SLUICE_STAT,
      Reg.LDR_START_US, Reg.FO_CFG, Reg.TICK_STATUS, Reg.IMG_P_SEQ, Reg.TICK_CMD_STATUS, Reg.TICK_CFG, Reg.TICK_PHASE_ERR,
      List.mem_cons, List.not_mem_nil, or_false]
    omega

theorem unitReg_cause {a : Nat} (h : CauseReg a) : UnitReg a := by rcases h with rfl | rfl <;> decide

section
variable (d : Device)

theorem Device.calm_wr {a : Nat} (v : Word) (h : UnitReg a) : d.Calm (d.wr a v) := .of_soft (d.soft_wr v h)
theorem Device.calm_setF {f : Fld} (v : Nat) (h : UnitReg f.addr) : d.Calm (d.setF f v) := .of_soft (d.soft_setF v h)
theorem Device.calm_raise (code : Nat) (snaps : List Word) : d.Calm (d.raise code snaps) :=
  .of_soft (d.soft_raise code snaps (by decide))
theorem Device.calm_cause (k : Nat) : d.Calm (d.cause k) := .of_soft (d.soft_cause k fun _ => unitReg_cause)
theorem Device.calm_fire (src : Nat) : d.Calm (d.fire src) := .of_soft (d.soft_fire src fun _ => unitReg_rel)
theorem Device.calm_finishCmd (p : Port) (code : Nat) (h : UnitReg p.stat) : d.Calm (d.finishCmd p code) :=
  .of_soft (d.soft_finishCmd p code h)

/-- The units' own state. -/
theorem Device.calm_units {sf fd sig sb eth sc fo mb pwr nvm tri kl ldr} : d.Calm { d with
    sf := sf, fd := fd, sig := sig, sb := sb, eth := eth, sc := sc, fo := fo, mb := mb, pwr := pwr, nvm := nvm, tri := tri,
    kl := kl, ldr := ldr } :=
  ⟨⟨⟨rfl, rfl, rfl⟩, rfl, rfl, rfl, rfl, fun _ _ => rfl⟩, rfl, rfl, rfl⟩

theorem Device.calm_latch (m : SMap Byte) : d.Calm { d with img := { d.img with latch := m } } :=
  ⟨⟨⟨rfl, rfl, rfl⟩, rfl, rfl, rfl, rfl, fun _ _ => rfl⟩, rfl, rfl, rfl⟩

theorem Device.calm_fd (x : FdState) : d.Calm { d with fd := x } := d.calm_units

end

end Sys2Proof.Machine
end

section
/-! SUPPORT. The operations of a boundary that are work of units (R52, R53, R57, R58, R260–R287, R387): the P0 latch, the
commit of images at the units, copies, elections and readmission. -/

namespace Sys2Proof.Machine

open Device.Calm (UnitReg)

section
variable (d : Device)

/-! ## The P0 latch (R52, R53) -/

theorem Device.calm_measure (m : FieldMeas) : d.Calm (d.measure m) := by
  have hcur (i : Nat) (hi : i < 24) (x : Device) : x.Calm (x.setF (Reg.FLD_CH_STAT_I_MA i) (m.current.getD i 0)) :=
    x.calm_setF _ (unitReg (by simp only [Reg.FLD_CH_STAT_I_MA, Reg.FLD_CH_STAT]; omega))
  have hvf (i : Nat) (hi : i < 4) (x : Device) : x.Calm (x.setF (Reg.FLD_VF_V_10MV i) (m.vf.getD i 0)) :=
    x.calm_setF _ (unitReg (by simp only [Reg.FLD_VF_V_10MV, Reg.FLD_VF]; omega))
  simp only [Device.measure]
  exact ((((Device.Calm.forN 24 hcur d).trans (.forN 4 hvf _)).trans (Device.calm_setF _ _ (by decide))).trans
    (Device.calm_setF _ _ (by decide))).trans (Device.calm_fd _ _)

theorem Device.calm_fdLatch : d.Calm d.fdLatch := d.calm_latch _

theorem Device.calm_sigBlock {i : Nat} (hi : i < 16) : d.Calm (d.sigBlock i) := by
  have hstat : UnitReg (Reg.SIG_IN_STAT i) := unitReg (by simp only [Reg.SIG_IN_STAT]; omega)
  simp only [Device.sigBlock]
  exact ((d.calm_wr _ hstat).trans (Device.calm_units _)).trans (Device.calm_latch _ _)

theorem Device.calm_sigLatch : d.Calm d.sigLatch :=
  .forN 16 (fun _ hi x => .ite (x.calm_sigBlock hi) (.refl x)) d

theorem Device.calm_sfLatch : d.Calm d.sfLatch := .ite (.refl d) (d.calm_latch _)

theorem Device.calm_sbLatch : d.Calm d.sbLatch := by
  have hage {e : Nat} (he : e < 256) : UnitReg (Reg.SB_TRIG_W2 e) := unitReg (by simp only [Reg.SB_TRIG_W2]; omega)
  simp only [Device.sbLatch]
  refine (Device.Calm.forN 256 (fun e he x => .ite (.refl x) (.trans ?_ (Device.calm_latch _ _))) d).trans
    (Device.calm_units _)
  split
  · exact x.calm_units.trans (Device.calm_setF _ _ (hage he))
  · exact x.calm_setF _ (hage he)

theorem Device.calm_ethEntry (x : EthState) (m : SMap Byte) :
    d.Calm { d with eth := x, img := { d.img with latch := m } } :=
  ⟨⟨⟨rfl, rfl, rfl⟩, rfl, rfl, rfl, rfl, fun _ _ => rfl⟩, rfl, rfl, rfl⟩

theorem Device.calm_ethLatch : d.Calm d.ethLatch := by
  simp only [Device.ethLatch]
  refine ((Device.Calm.forN 64 (fun e he x => .ite (.refl x) ?_) d).trans (.ite (Device.calm_latch _ _) (.refl _))).trans
    (Device.calm_units _)
  split
  · exact x.calm_ethEntry _ _
  · exact x.calm_ethEntry _ _

theorem Device.calm_scLatch : d.Calm d.scLatch := d.calm_units

/-- The P0 latch takes the raw inputs. -/
theorem Device.calm_latchInputs (m : FieldMeas) : d.Calm (d.latchInputs m) := by
  refine .trans ?_ (Device.calm_units _)
  refine .trans (d.calm_latch []) (.trans (Device.calm_measure _ m) ?_)
  generalize Device.measure _ m = x
  exact ((((x.calm_fdLatch.trans (Device.calm_sigLatch _)).trans (Device.calm_sfLatch _)).trans
    (Device.calm_sbLatch _)).trans (Device.calm_ethLatch _)).trans (Device.calm_scLatch _)

/-! ## Failover at a boundary (R272, R278, R283, R284) -/

/-- A copy under way is apart from the course of the tick. -/
theorem Device.calm_copyRunning (x : FoState) (c : Bool) :
    d.Calm { d with fo := x, tick := { d.tick with copyRunning := c } } :=
  ⟨⟨⟨rfl, rfl, rfl⟩, rfl, rfl, rfl, rfl, fun _ _ => rfl⟩, rfl, rfl, rfl⟩

theorem Device.calm_copyDue : d.Calm d.copyDue := d.calm_copyRunning _ _

theorem Device.calm_seeClaim (c : Word) : d.Calm (d.seeClaim c) := .ite (d.calm_wr _ (by decide)) (.refl d)

theorem Device.calm_foTo (st : Nat) : d.Calm (d.foTo st) :=
  .ite (.refl d) ((d.calm_setF _ (by decide)).trans (Device.calm_raise _ _ _))

/-- An active unit that hears a higher claim, or yields. -/
theorem Device.calm_demoted (c : Word) {l : List Word} :
    d.Calm (((((d.setF Reg.FO_STAT_YIELD 0).setF Reg.FO_STAT_RESYNC 0).raise 0x186 l).seeClaim c).foTo foSTALE) :=
  ((((d.calm_setF _ (by decide)).trans (Device.calm_setF _ _ (by decide))).trans (Device.calm_raise _ _ _)).trans
    (Device.calm_seeClaim _ _)).trans (Device.calm_foTo _ _)

theorem Device.calm_foBoundary : d.Calm d.foBoundary := by
  unfold Device.foBoundary
  refine .ite (.refl d) ?_
  have h0 : d.Calm (({ d with fo := { d.fo with take := none, demote := none, toStale := false, hbNow := false } } :
      Device).setB Reg.FO_STAT_PEER_SEEN d.fo.hbNow) := d.calm_units.trans (Device.calm_setF _ _ (by decide))
  extract_lets f0 d0
  change d.Calm d0 at h0
  clear_value d0
  split
  · exact .ite (((h0.trans (Device.calm_wr _ _ (by decide))).trans (Device.calm_seeClaim _ _)).trans
      (Device.calm_foTo _ _)) h0
  · exact .ite (.ite ((h0.trans (Device.calm_demoted _ _)).trans (Device.calm_finishCmd _ _ _ (by decide)))
      (h0.trans (Device.calm_demoted _ _))) h0
  · exact .ite (h0.trans (Device.calm_foTo _ _)) h0

theorem Device.calm_foCommit : d.Calm d.foCommit := by
  simp only [Device.foCommit]
  exact .ite (.refl d) (.forN _ (fun _ _ x => .ite (.refl x) x.calm_units) d)

theorem Device.calm_kloul (p ptype : Nat) (l : List Byte) : d.Calm (d.kloul p ptype l) := .of_lane (d.laneWork_kloul _ _ _)

theorem Device.calm_copySend : d.Calm d.copySend := by
  simp only [Device.copySend]
  refine .ite (.refl d) ?_
  exact (((d.calm_units.trans (.foldl _ (fun x _ => x.calm_kloul _ _ _) _)).trans
    (.foldl _ (fun x _ => x.calm_kloul _ _ _) _)).trans (Device.calm_kloul _ _ _ _)).trans (Device.calm_copyRunning _ _ _)

/-! ## Commits at the units (R57, R58, R387, R412) -/

/-- Ending a source of Sluice other than START. -/
theorem Device.calm_slNegate {i : Nat} (hi : i < 32) (h0 : i ≠ slStart) : d.Calm (d.slNegate i) := by
  obtain ⟨r, s, f, h⟩ := d.slBit_eq i false
  rw [Device.slNegate_eq]
  refine ⟨⟨⟨by rw [h], by rw [h], by rw [h]⟩, by rw [h], by rw [h], by rw [h], ?_, fun a ha => ?_⟩, by rw [h], ?_, ?_⟩
  · exact Device.fld_congr (d.rd_slBit _ _ (by decide) (by decide))
  · exact d.rd_slBit _ _ (fun e => ha (by rw [e]; decide)) (fun e => ha (by rw [e]; decide))
  · rw [d.slOn_slBit hi, if_neg (Ne.symm h0)]
  · exact d.rd_slBit _ _ (by decide) (by decide)

theorem Device.calm_regate : d.Calm d.regate :=
  ((d.calm_units).trans (Device.calm_wr _ (a := Reg.SF_GATE) _ (by decide))).trans (Device.calm_fd _ _)

theorem Device.calm_lockCommit : d.Calm d.lockCommit := by
  refine .forN 8 (fun g hg x => .ite ?_ (.refl x)) d
  exact (((((x.calm_setF _ (by decide)).trans (Device.calm_setF _ _ (by decide))).trans (Device.calm_units _))).trans
    (Device.calm_raise _ _ _)).trans (Device.calm_slNegate _ (by simp only [slLock]; omega)
      (by simp only [slLock, slStart]; omega))

theorem Device.calm_gateCommit : d.Calm d.gateCommit := (d.calm_units).trans (Device.calm_regate _)

theorem unitReg_chStat {c : Nat} (hc : c < 24) : UnitReg (Reg.FLD_CH_STAT c) :=
  unitReg (by simp only [Reg.FLD_CH_STAT]; omega)

section
variable {c : Nat} (hc : c < 24)
include hc

theorem Device.calm_clearBit (k : Nat) : d.Calm (d.clearBit c k) := d.calm_setF _ (unitReg_chStat hc)

theorem Device.calm_setFault (k : Nat) : d.Calm (d.setFault c k) :=
  .ite (.refl d) (((d.calm_setF _ (unitReg_chStat hc)).trans (Device.calm_setF _ _ (unitReg_chStat hc))).trans
    (Device.calm_fire _ _))

theorem Device.calm_clearDark : d.Calm (d.clearDark c) :=
  .ite ((d.calm_fd _).trans (Device.calm_clearBit _ hc _)) (.refl d)

theorem Device.calm_unlatch (how : Nat) : d.Calm (d.unlatch c how) :=
  .ite ((((d.calm_clearBit hc _).trans (Device.calm_clearBit _ hc _)).trans (Device.calm_clearBit _ hc _)).trans
    (Device.calm_raise _ _ _)) (.refl d)

theorem Device.calm_autoRestart : d.Calm (d.autoRestart c) := by
  simp only [Device.autoRestart]
  refine .ite (.refl d) ?_
  have h1 := d.calm_fd { d.fd with restart := putBit d.fd.restart c false }
  exact .ite h1 (.ite (((h1.trans (Device.calm_setFault _ hc _)).trans (Device.calm_setFault _ hc _)).trans
    (Device.calm_raise _ _ _)) (h1.trans (Device.calm_fd _ _)))

end

theorem Device.calm_fdCommit : d.Calm d.fdCommit := by
  simp only [Device.fdCommit]
  refine ((d.calm_fd _).trans (.forN 24 (fun c hc x => ?_) _)).trans (.forN 3 (fun g _ x => x.calm_fd _) _)
  refine .trans (.ite (.refl x) (.ite ?_ ?_)) (Device.calm_autoRestart _ hc)
  · exact x.calm_clearDark hc
  · exact (x.calm_clearDark hc).trans (Device.calm_unlatch _ hc _)

theorem Device.calm_sigCommit (zero : Bool) : d.Calm (d.sigCommit zero) := by
  simp only [Device.sigCommit]
  refine Device.Calm.trans (.forN 8 (fun k hk x => ?_) d) (.ite (.refl _) (.ite (Device.calm_setF _ _ (by decide)) (.refl _)))
  have hstat : UnitReg (Reg.SIG_OUT_STAT k) := unitReg (by simp only [Reg.SIG_OUT_STAT]; omega)
  exact .ite (.refl x) (.ite (.ite (x.calm_units.trans (Device.calm_setF _ _ hstat))
    ((x.calm_units.trans (Device.calm_setF _ _ hstat)).trans (Device.calm_raise _ _ _))) x.calm_units)

theorem Device.calm_publishOne {r : Nat} (hr : r < 16) : d.Calm (d.publishOne r) := by
  have hres {a : Nat} (h1 : 0x4131000 ≤ a) (h2 : a < 0x4132000) : UnitReg a := unitReg (by omega)
  simp only [Device.publishOne]
  refine .ite ((((Device.Calm.forN 15 (fun i hi x => x.calm_wr _ (hres ?_ ?_)) d).trans (Device.calm_wr _ _ (hres ?_ ?_))).trans
    (Device.calm_units _)).trans (Device.calm_cause _ _)) (.refl d) <;>
  · simp only [Reg.MB_RES_DATA, Reg.MB_RES_W0]
    omega

theorem Device.calm_publishResults : d.Calm d.publishResults := .forN 16 (fun _ hr x => x.calm_publishOne hr) d

theorem Device.calm_setLaunches (p : Nat) (l : List Launch) : d.Calm (d.setLaunches p l) := d.calm_units

theorem Device.calm_ethCommit (bc : Nat) : d.Calm (d.ethCommit bc) := by
  simp only [Device.ethCommit]
  refine .forN 3 (fun p hp x => .ite (.refl x) ?_) d
  have herr : UnitReg (Reg.ETH_ERR p) := unitReg (by simp only [Reg.ETH_ERR]; omega)
  refine (((x.calm_setF _ herr).trans (Device.calm_setLaunches _ _ _)).trans (Device.calm_units _)).trans
    (.forN _ (fun k _ y => .ite (.refl y) (.ite ?_ (y.calm_setLaunches _ _))) _)
  exact (y.calm_setF _ herr).trans (Device.calm_raise _ _ _)

/-! ## The end of a boundary -/

theorem Device.calm_ring (ptype : Nat) (l : List Byte) : d.Calm (d.ring ptype l) := .of_lane (d.laneWork_ring _ _)

theorem Device.calm_toLane (i st : Nat) : d.Calm (d.toLane i st) := .of_lane (d.laneWork_toLane _ _)

theorem Device.calm_hopSend : d.Calm d.hopSend := by
  simp only [Device.hopSend]
  exact .ite (.refl d) (.ite (d.calm_units.trans (Device.calm_ring _ _ _)) d.calm_units)

theorem Device.calm_sbElect (b : Bool) : d.Calm (d.sbElect b) :=
  .ite (.refl d) (.ite (.refl d) ((d.calm_setF _ (by decide)).trans (Device.calm_raise _ _ _)))

theorem Device.calm_setSender {p : Nat} (hp : p < 3) (i : Nat) : d.Calm (d.setSender p i) := by
  have hstat : UnitReg (Reg.ETH_STAT p) := unitReg (by simp only [Reg.ETH_STAT]; omega)
  exact .ite (.refl d) ((d.calm_units.trans (Device.calm_setF _ _ hstat)).trans (Device.calm_raise _ _ _))

theorem Device.calm_ethBoundary : d.Calm d.ethBoundary :=
  .forN 3 (fun _ hp x => .ite (.refl x) (.ite (x.calm_setSender hp _) (.ite (x.calm_setSender hp _) (.refl x)))) d

theorem Device.calm_abandonReadmit (reason : Nat) : d.Calm (d.abandonReadmit reason) :=
  .ite (((((d.calm_raise _ _).trans (Device.calm_setF _ _ (by decide))).trans (Device.calm_setF _ _ (by decide))).trans
    (Device.calm_units _)).trans (Device.calm_toLane _ _ _)) (.refl d)

theorem Device.calm_readmitTick : d.Calm d.readmitTick := by
  simp only [Device.readmitTick]
  exact .ite (.ite (d.calm_units.trans (Device.calm_abandonReadmit _ _)) d.calm_units) (.refl d)

theorem Device.calm_sendGrans (r : Nat) (gs : List Nat) : d.Calm (d.sendGrans r gs) := by
  induction gs generalizing d with
  | nil => exact .refl d
  | cons g t ih => exact (d.calm_units.trans (Device.calm_kloul _ _ _ _)).trans (ih _)

theorem Device.calm_donate : d.Calm d.donate := by
  simp only [Device.donate]
  split
  · exact .refl d
  · exact .ite d.calm_units (.ite ((d.calm_sendGrans _ _).trans (Device.calm_kloul _ _ _ _)) (d.calm_sendGrans _ _))

theorem Device.calm_wakeEvent : d.Calm d.wakeEvent :=
  .ite (d.calm_units.trans (Device.calm_raise _ _ _)) (.refl d)

end

end Sys2Proof.Machine
end

section
/-! SUPPORT. The source at a boundary (R43–R48, R240, R241) and the activation of an armed slot (R267, R490): work beside
the course of the tick. -/

namespace Sys2Proof.Machine

open Device.Calm (UnitReg)

section
variable (d : Device)

/-! ## The source at a boundary -/

/-- A field of TICK_STATUS other than RUNNING. -/
theorem Device.calm_status {f : Fld} (v : Nat) (h : f.addr = Reg.TICK_STATUS ∧ f.Apart Reg.TICK_STATUS_RUNNING) :
    d.Calm (d.setF f v) := by
  obtain ⟨hf, hrun⟩ := h
  have hrd {a : Nat} (ha : a ≠ Reg.TICK_STATUS) : (d.setF f v).rd a = d.rd a := Device.rd_setF_other d v (by rwa [hf])
  exact ⟨⟨⟨rfl, rfl, rfl⟩, rfl, rfl, rfl, Device.fld_setF_other d v hrun, fun a ha => hrd fun e => ha (by rw [e]; decide)⟩,
    rfl, Device.slOn_congr (hrd (by decide)) _, hrd (by decide)⟩

/-- The source's own state: what of the tick is apart from its course. -/
theorem Device.calm_source (e c : Int) (s : Bool) (n : Nat) (x : Int) (l : Bool) : d.Calm { d with tick :=
    { d.tick with err := e, corr := c, evSeen := s, noEv := n, nextNs := x, late := l } } :=
  ⟨⟨⟨rfl, rfl, rfl⟩, rfl, rfl, rfl, rfl, fun _ _ => rfl⟩, rfl, rfl, rfl⟩

theorem Device.calm_sourceInEffect : d.Calm d.sourceInEffect := by
  have hover (b : Bool) : d.Calm (d.setB Reg.TICK_STATUS_MASTER_OVERRIDE b) := d.calm_status _ (by decide)
  simp only [Device.sourceInEffect]
  exact .ite (hover _) ((((hover _).trans (Device.calm_source _ _ _ _ _ _ _)).trans (Device.calm_status _ _ (by decide))).trans
    (Device.calm_status _ _ (by decide)))

theorem Device.calm_boundaryErr : d.Calm d.boundaryErr := by
  simp only [Device.boundaryErr]
  exact .ite ((d.calm_source _ _ _ _ _ _).trans (Device.calm_wr _ _ (by decide)))
    (.ite ((d.calm_source _ _ _ _ _ _).trans (Device.calm_setF _ _ (by decide))) (d.calm_source _ _ _ _ _ _))

theorem Device.calm_alignBoundary : d.Calm d.alignBoundary := by
  have hoff {i : Nat} (hi : i < 3) : UnitReg (Reg.TRI_OFFSET i) := by
    have : i = 0 ∨ i = 1 ∨ i = 2 := by omega
    rcases this with rfl | rfl | rfl <;> decide
  simp only [Device.alignBoundary]
  exact .ite (.refl d) ((((((d.calm_source _ _ _ _ _ _).trans (Device.calm_setF _ _ (by decide))).trans
    (Device.calm_units _)).trans (.forN 3 (fun _ hi x => .ite (x.calm_wr _ (hoff hi)) (.refl x)) _)).trans
    (Device.calm_units _)).trans (Device.calm_ring _ _ _))

theorem Device.calm_planPeriod : d.Calm d.planPeriod := by
  simp only [Device.planPeriod]
  exact .ite (d.calm_source _ _ _ _ _ _) ((d.calm_source _ _ _ _ _ _).trans (Device.calm_status _ _ (by decide)))

theorem Device.calm_sourceStep : d.Calm d.sourceStep :=
  ((((d.calm_sourceInEffect).trans (Device.calm_boundaryErr _)).trans (Device.calm_alignBoundary _)).trans
    (Device.calm_planPeriod _)).trans (Device.calm_source _ _ _ _ _ _ _)

/-- SET_SOURCE that takes effect. -/
theorem Device.calm_takeSource :
    ({ d with tick := { d.tick with pendSrc := none } } : Device).Calm d.takeSource := by
  unfold Device.takeSource
  split
  · next h =>
    have : ({ d with tick := { d.tick with pendSrc := none } } : Device) = d := by rw [← h]
    rw [this]
    exact .refl d
  · exact ((Device.calm_setF _ _ (by decide)).trans (Device.calm_raise _ _ _)).trans (Device.calm_finishCmd _ _ _ (by decide))

/-! ## The jobs of the store (R538) -/

/-- The job that is picked is none but one of those that wait, and none that waits precedes it. -/
theorem pickJob_spec {l : List NvmJob} {j : NvmJob} {rest : List NvmJob} (h : pickJob l = some (j, rest)) :
    ∀ k ∈ l, precOf j.work ≤ precOf k.work ∧ (k = j ∨ k ∈ rest) := by
  induction l generalizing j rest with
  | nil => cases h
  | cons i t ih =>
    rw [pickJob] at h
    split at h
    · next hn =>
      have ht : t = [] := by
        cases t with
        | nil => rfl
        | cons a u =>
          rw [pickJob] at hn
          split at hn
          · cases hn
          · split at hn <;> cases hn
      cases h
      subst ht
      intro k hk
      obtain rfl := List.mem_singleton.mp hk
      exact ⟨Nat.le_refl _, .inl rfl⟩
    · next k0 rest0 hk0 =>
      have hspec := ih hk0
      split at h
      · next hlt =>
        cases h
        intro k hk
        rcases List.mem_cons.mp hk with rfl | hk
        · exact ⟨Nat.le_of_lt hlt, .inr List.mem_cons_self⟩
        · obtain ⟨hle, hmem⟩ := hspec k hk
          exact ⟨hle, hmem.imp_right (List.mem_cons_of_mem _)⟩
      · next hge =>
        cases h
        intro k hk
        rcases List.mem_cons.mp hk with rfl | hk
        · exact ⟨Nat.le_refl _, .inl rfl⟩
        · exact ⟨Nat.le_trans (Nat.not_lt.mp hge) (hspec k hk).1, .inr hk⟩

/-- A job of the loader or of the power-fail save ends in the store's own state. -/
theorem Device.jobEnd_loader {w : NvmWork} (h : precOf w ≤ 2) (code : Nat) :
    ∃ x : NvmState, d.jobEnd w code = { d with nvm := x } ∧ x.jobs = d.nvm.jobs := by
  cases w with
  | save | regionErase | regionWrite | arm | disarm | commitCfg | activate => exact ⟨_, rfl, rfl⟩
  | table | refresh | tidy | read | program | erase | desc | archive | ring | scrub =>
    exact absurd h (by simp [precOf])

/-- While an operation of the loader waits, the store starts none behind it. -/
theorem Device.calm_nvmRun (n : Nat) (h : ∃ k ∈ d.nvm.jobs, precOf k.work ≤ 2 ∧ k.ops ≠ []) : d.Calm (d.nvmRun n) := by
  induction n generalizing d with
  | zero => exact .refl d
  | succ n ih =>
    obtain ⟨k, hk, hprec, hops⟩ := h
    rw [Device.nvmRun]
    refine .ite (.refl d) ?_
    split
    · exact .refl d
    · next j rest hj =>
      obtain ⟨hle, hmem⟩ := pickJob_spec hj k hk
      have hj2 : precOf j.work ≤ 2 := Nat.le_trans hle hprec
      split
      · next hempty =>
        obtain ⟨x, hx, hjobs⟩ :=
          Device.jobEnd_loader ({ d with nvm := { d.nvm with jobs := rest } } : Device) hj2 0
        rw [hx]
        refine .trans (t := { d with nvm := x }) d.calm_units (ih _ ⟨k, ?_, hprec, hops⟩)
        rw [hjobs]
        exact hmem.resolve_left fun e => hops (by rw [e]; exact List.isEmpty_iff.mp hempty)
      · rw [if_neg (by omega)]
        exact d.calm_units

/-- The loader's own job of the store starts, or waits for the one under way. -/
theorem Device.calm_pushKick {j : NvmJob} (hprec : precOf j.work ≤ 2) (hops : j.ops ≠ []) :
    d.Calm (d.pushJob j).nvmKick :=
  .trans (t := d.pushJob j) d.calm_units
    (Device.calm_nvmRun _ _ ⟨j, List.mem_append_right _ (List.mem_singleton_self j), hprec, hops⟩)

theorem Device.calm_activateSlot : d.Calm d.activateSlot := by
  simp only [Device.activateSlot]
  exact .ite (.refl d) (.trans d.calm_units (Device.calm_pushKick _ (Nat.le_refl 2) (List.cons_ne_nil _ _)))

theorem Device.calm_slotActivation : d.Calm d.slotActivation := by
  unfold Device.slotActivation
  split
  · exact .refl d
  · exact .ite (.refl d) (.ite (.ite (.refl d) d.calm_activateSlot)
      (.ite ((d.calm_units.trans (Device.calm_activateSlot _)).trans (Device.calm_abandonReadmit _ _))
        (.ite (.refl d) (d.calm_units.trans (Device.calm_raise _ _ _)))))

/-- What follows the commit and the latch at every boundary is work beside the tick's course. -/
theorem Device.calm_boundaryEnd : d.Calm d.boundaryEnd :=
  ((((((d.calm_sourceStep.trans (Device.calm_hopSend _)).trans (Device.calm_sbElect _ _)).trans
    (Device.calm_ethBoundary _)).trans (Device.calm_readmitTick _)).trans (Device.calm_donate _)).trans
    (Device.calm_slotActivation _)).trans (Device.calm_wakeEvent _)

theorem Device.calm_sluice : d.Calm d.sluice := by
  unfold Device.sluice
  exact .ite ((d.calm_regate).trans (Device.calm_fd _ _)) d.calm_regate

end

end Sys2Proof.Machine
end

section
/-! SUPPORT. What a commit and a boundary change (R37, R53, R57–R59, R66, R155, R211): the images that commit, the retained
area, the count, and the timer cells. -/

namespace Sys2Proof.Machine

open Device.Calm (UnitReg)

/-! ## Maps -/

/-- Keeping the keys that satisfy a test keeps their values. -/
theorem sget_skeep {α : Type} (d : Nat → α) (p : Nat → Bool) (m : SMap α) (k : Nat) :
    sget d (skeep p m) k = if p k then sget d m k else d k := by
  induction m with
  | nil => simp [skeep, sget]
  | cons e t ih =>
    obtain ⟨j, v⟩ := e
    have ih' : sget d (t.filter fun e => p e.1) k = if p k then sget d t k else d k := ih
    by_cases hjk : j = k
    · subst hjk
      cases hp : p j <;> simp [skeep, sget, hp, ih']
    · cases hp : p j <;> simp [skeep, sget, hp, ih', hjk]

theorem sget_takeRange (m : SMap Byte) {a n b : Nat} (h1 : a ≤ b) (h2 : b < a + n) :
    sget byte0 (takeRange m a n) b = sget byte0 m b := by
  rw [takeRange, sget_skeep, if_pos (by simp [h1, h2])]

/-- A change of every value that leaves the default as it is. -/
theorem sget_map {α : Type} (d : Nat → α) (f : α → α) (m : SMap α) (k : Nat) (h : f (d k) = d k) :
    sget d (m.map fun e => (e.1, f e.2)) k = f (sget d m k) := by
  induction m with
  | nil => exact h.symm
  | cons e t ih =>
    simp only [List.map_cons, sget, ih]
    split <;> rfl

/-! ## The commit of images (R57, R58) -/

/-- The field output image as it commits: all-off while outputs are withheld or a station holds them off. -/
def Device.fieldImage (d : Device) : SMap Byte :=
  if d.withheld ∨ d.stationOff then mapPut d.img.frozen (d.areaBase areaQ + 0x1FF00) [0, 0, 0] else d.img.frozen

/-- Images have committed: a to the field, b to Sahtu, c to Ethernet. -/
structure Device.Commits (d t : Device) (a b c : SMap Byte) : Prop where
  steady : d.Steady t
  img : t.img = { d.img with latch := t.img.latch, committed := a, committedSb := b, committedEth := c }
  start : t.slOn slStart = d.slOn slStart
  seq : t.rd Reg.IMG_P_SEQ = d.rd Reg.IMG_P_SEQ

theorem Device.Calm.commits {d t : Device} (h : d.Calm t) :
    d.Commits t d.img.committed d.img.committedSb d.img.committedEth := ⟨h.steady, h.img, h.start, h.seq⟩

theorem Device.Commits.trans {d t u : Device} {a b c a' b' c' : SMap Byte} (h : d.Commits t a b c)
    (g : t.Commits u a' b' c') : d.Commits u a' b' c' where
  steady := h.steady.trans g.steady
  img := by rw [g.img, h.img]
  start := g.start.trans h.start
  seq := g.seq.trans h.seq

section
variable (d : Device)

theorem Device.commits_img (a b c : SMap Byte) :
    d.Commits { d with img := { d.img with committed := a, committedSb := b, committedEth := c } } a b c :=
  ⟨⟨⟨rfl, rfl, rfl⟩, rfl, rfl, rfl, rfl, fun _ _ => rfl⟩, rfl, rfl, rfl⟩

theorem Device.commits_field : d.Commits d.commitField d.fieldImage d.img.committedSb d.img.committedEth :=
  (d.commits_img d.fieldImage d.img.committedSb d.img.committedEth).trans
    ((((Device.calm_lockCommit _).trans (Device.calm_gateCommit _)).trans (Device.calm_fdCommit _)).trans
      ((Device.calm_sigCommit _ _).trans (Device.calm_publishResults _))).commits

theorem Device.commits_sahtu : d.Commits d.commitSahtu d.img.committed d.img.frozen d.img.committedEth :=
  (d.commits_img d.img.committed d.img.frozen d.img.committedEth).trans (Device.calm_units _).commits

theorem Device.commits_eth (bc : Nat) : d.Commits (d.commitEth bc) d.img.committed d.img.committedSb d.img.frozen := by
  simp only [Device.commitEth]
  exact (d.commits_img d.img.committed d.img.committedSb d.img.frozen).trans (Device.Calm.commits
    (.ite ((Device.calm_ethCommit _ _).trans (.forN 3 (fun _ _ x => x.calm_setLaunches _ _) _)) (Device.calm_ethCommit _ _)))

end

/-- The images whose TICK_EARLY bit is as given. -/
theorem Device.commits_images (d : Device) (early : Bool) (bc : Nat) : d.Commits (d.commitImages early bc)
    (if d.bit Reg.TICK_EARLY_FIELD = early then d.fieldImage else d.img.committed)
    (if d.bit Reg.TICK_EARLY_SAHTU = early then d.img.frozen else d.img.committedSb)
    (if d.bit Reg.TICK_EARLY_ETH = early then d.img.frozen else d.img.committedEth) := by
  have hbit {t u : Device} (h : t.Steady u) {f : Fld} (hf : f.addr = Reg.TICK_EARLY) : u.bit f = t.bit f := by
    rw [Device.bit, Device.bit, Device.fld_congr (h.regs f.addr (by rw [hf]; decide))]
  have h1 : d.Commits (if d.bit Reg.TICK_EARLY_FIELD = early then d.commitField else d)
      (if d.bit Reg.TICK_EARLY_FIELD = early then d.fieldImage else d.img.committed) d.img.committedSb d.img.committedEth := by
    split
    · exact d.commits_field
    · exact (Device.Calm.refl d).commits
  simp only [Device.commitImages]
  generalize (if d.bit Reg.TICK_EARLY_FIELD = early then d.commitField else d) = d1 at h1 ⊢
  generalize (if d.bit Reg.TICK_EARLY_FIELD = early then d.fieldImage else d.img.committed) = a at h1 ⊢
  have h2 : d.Commits (if d1.bit Reg.TICK_EARLY_SAHTU = early then d1.commitSahtu else d1) a
      (if d.bit Reg.TICK_EARLY_SAHTU = early then d.img.frozen else d.img.committedSb) d.img.committedEth := by
    rw [hbit h1.steady rfl]
    split
    · have := h1.trans d1.commits_sahtu
      rwa [h1.img] at this
    · exact h1
  generalize (if d1.bit Reg.TICK_EARLY_SAHTU = early then d1.commitSahtu else d1) = d2 at h2 ⊢
  generalize (if d.bit Reg.TICK_EARLY_SAHTU = early then d.img.frozen else d.img.committedSb) = b at h2 ⊢
  rw [hbit h2.steady rfl]
  split
  · have := h2.trans (d2.commits_eth bc)
    rwa [h2.img] at this
  · exact h2

/-! ## The commit at a boundary (R37, R211, R245) -/

/-- START ends at a commit; beside it, a lane's own exclusion. -/
theorem Device.commitReleases_spec (d : Device) :
    d.Steady d.commitReleases ∧ d.commitReleases.img = d.img ∧ d.commitReleases.slOn slStart = false ∧
      d.commitReleases.rd Reg.IMG_P_SEQ = d.rd Reg.IMG_P_SEQ := by
  have hrd {a : Nat} (h1 : a ≠ Reg.SF_SLUICE_STAT) (h2 : a ≠ Reg.SF_GATE) : (d.slNegate slStart).rd a = d.rd a := by
    rw [Device.slNegate_eq, d.rd_slBit _ _ h1 h2]
  obtain ⟨r, s, f, hs⟩ := d.slBit_eq slStart false
  have hneg : d.Steady (d.slNegate slStart) := by
    refine ⟨⟨?_, ?_, ?_⟩, ?_, ?_, ?_, Device.fld_congr (hrd (by decide) (by decide)), fun a ha => hrd ?_ ?_⟩
    · rw [Device.slNegate_eq, hs]
    · rw [Device.slNegate_eq, hs]
    · rw [Device.slNegate_eq, hs]
    · rw [Device.slNegate_eq, hs]
    · rw [Device.slNegate_eq, hs]
    · rw [Device.slNegate_eq, hs]
    · exact fun e => ha (by rw [e]; decide)
    · exact fun e => ha (by rw [e]; decide)
  have hstart : (d.slNegate slStart).slOn slStart = false := by
    rw [Device.slNegate_eq, d.slOn_slBit (by decide), if_pos rfl]
  have himg : (d.slNegate slStart).img = d.img := by rw [Device.slNegate_eq, hs]
  have hcalm : (d.slNegate slStart).Calm d.commitReleases := by
    simp only [Device.commitReleases]
    exact Device.Calm.trans (.ite (Device.calm_slNegate _ (by decide) (by decide)) (.refl _)) (Device.calm_units _)
  have himg' : d.commitReleases.img = (d.slNegate slStart).img := by
    simp only [Device.commitReleases]
    split
    · obtain ⟨r', s', f', hs'⟩ := (d.slNegate slStart).slBit_eq slTriad false
      rw [Device.slNegate_eq _ slTriad, hs']
    · rfl
  exact ⟨hneg.trans hcalm.steady, himg'.trans himg, hcalm.start.trans hstart,
    hcalm.seq.trans (hrd (by decide) (by decide))⟩

/-- The images once the retained area and the state regions have committed. -/
def Device.stateImages (d : Device) : ImgState := { d.img with
  retained := takeRange d.mem 0x7F0000 65536
  regions := d.regionParts.foldl (fun m p => copyRange m d.mem p.base (256 * p.grans)) []
  retVer := d.fld Reg.LDR_RET_VER_RET_VER
  retValid := true }

/-- The commit sequence counts, and the marker follows it. -/
def Device.markState (d : Device) : Device :=
  let d2 := d.wr Reg.IMG_P_SEQ (d.rd Reg.IMG_P_SEQ + 1)
  { d2 with
    img := { d2.img with retSeq := (d2.rd Reg.IMG_P_SEQ).toNat }
    fo := { d2.fo with committedNow := true } }

theorem Device.commitState_eq (d : Device) :
    d.commitState = ({ d with img := d.stateImages } : Device).foCommit.markState := rfl

theorem Device.steady_img (d : Device) (x : ImgState) : d.Steady { d with img := x } :=
  ⟨⟨rfl, rfl, rfl⟩, rfl, rfl, rfl, rfl, fun _ _ => rfl⟩

theorem Device.markState_spec (d : Device) :
    d.Steady d.markState ∧ d.markState.slOn slStart = d.slOn slStart ∧
      d.markState.rd Reg.IMG_P_SEQ = d.rd Reg.IMG_P_SEQ + 1 ∧
      d.markState.img = { d.img with retSeq := d.markState.img.retSeq } := by
  have hrd {a : Nat} (h : a ≠ Reg.IMG_P_SEQ) : d.markState.rd a = d.rd a := Device.rd_wr_other d _ h
  exact ⟨⟨⟨rfl, rfl, rfl⟩, rfl, rfl, rfl, Device.fld_congr (hrd (by decide)), fun a ha => hrd fun e => ha (by rw [e]; decide)⟩,
    Device.slOn_congr (hrd (by decide)) _, Device.rd_wr_same d _ _, rfl⟩

/-- The retained area and the state regions commit, and the commit sequence counts. -/
theorem Device.commitState_spec (d : Device) :
    d.Steady d.commitState ∧ d.commitState.slOn slStart = d.slOn slStart ∧
      d.commitState.rd Reg.IMG_P_SEQ = d.rd Reg.IMG_P_SEQ + 1 ∧
      d.commitState.img = { d.stateImages with
        latch := d.commitState.img.latch, retSeq := d.commitState.img.retSeq } := by
  have hcalm := Device.calm_foCommit { d with img := d.stateImages }
  rw [Device.commitState_eq]
  obtain ⟨hsteady, hstart, hseq, himg⟩ := ({ d with img := d.stateImages } : Device).foCommit.markState_spec
  refine ⟨((d.steady_img _).trans hcalm.steady).trans hsteady, hstart.trans hcalm.start, ?_, ?_⟩
  · rw [hseq, hcalm.seq]
    rfl
  · rw [himg, hcalm.img]

/-- The tick's course decides whether its images and its state commit; a role beside it. -/
theorem Device.Steady.commits_iff {d t : Device} (h : d.Steady t) :
    t.stateCommits = d.stateCommits ∧ (d.isLane = false → t.isLane = false ∧ t.tickCommits = d.tickCommits) := by
  have hlane : t.isLane = d.isLane := by
    have : t.role = d.role := Device.fld_congr (h.regs _ (by decide))
    simp only [Device.isLane, this]
  have hphase : t.tick.phase = d.tick.phase := h.tick TickState.phase
  have hready : t.tick.ready = d.tick.ready := h.tick TickState.ready
  have hcommit : t.tick.noCommit = d.tick.noCommit := h.tick TickState.noCommit
  have hstate : t.tick.noState = d.tick.noState := h.tick TickState.noState
  refine ⟨by simp only [Device.stateCommits, hphase, hready, hstate], fun hd => ⟨hlane.trans hd, ?_⟩⟩
  simp only [Device.tickCommits, hlane, hd, hphase, hready, hcommit, Bool.false_eq_true, if_false]

/-- Outputs are neither withheld nor held off by a station, where neither failover nor stations are configured. -/
theorem Device.fieldImage_frozen {d : Device} (h1 : d.bit Reg.FO_CFG_EN = false) (h2 : d.bit Reg.FO_CFG_ST_EN = false) :
    d.fieldImage = d.img.frozen := by
  refine if_neg ?_
  simp [Device.withheld, Device.stationOff, h1, h2]

theorem Device.Steady.fo {d t : Device} (h : d.Steady t) {f : Fld} (hf : f.addr = Reg.FO_CFG) : t.bit f = d.bit f := by
  rw [Device.bit, Device.bit, Device.fld_congr (h.regs f.addr (by rw [hf]; decide))]

/-- The images that a boundary commits where outputs are not withheld. -/
structure Device.ImagesCommit (d t : Device) : Prop where
  start : t.slOn slStart = false
  field : d.bit Reg.TICK_EARLY_FIELD = false → t.img.committed = d.img.frozen
  sahtu : d.bit Reg.TICK_EARLY_SAHTU = false → t.img.committedSb = d.img.frozen
  eth : d.bit Reg.TICK_EARLY_ETH = false → t.img.committedEth = d.img.frozen

/-- The retained state that a boundary commits. -/
structure Device.StateCommit (d t : Device) : Prop where
  seq : t.rd Reg.IMG_P_SEQ = d.rd Reg.IMG_P_SEQ + 1
  valid : t.img.retValid = true
  retained : t.img.retained = takeRange d.mem 0x7F0000 65536

/-- The commit of the images at a boundary, before that of the state. -/
def Device.commitTick (d : Device) : Device :=
  if d.tickCommits then d.commitReleases.commitImages false d.ts64 else d

theorem Device.commitBoundary_eq (d : Device) : d.commitBoundary =
    if d.stateCommits then d.commitTick.commitState
    else { d.commitTick with fo := { d.commitTick.fo with committedNow := false } } := rfl

theorem Device.commitTick_spec (d : Device) :
    d.Steady d.commitTick ∧ d.commitTick.rd Reg.IMG_P_SEQ = d.rd Reg.IMG_P_SEQ ∧
      (d.tickCommits = true → d.bit Reg.FO_CFG_EN = false → d.bit Reg.FO_CFG_ST_EN = false →
        d.ImagesCommit d.commitTick) := by
  unfold Device.commitTick
  split
  · obtain ⟨hrel, himg, hstart, hseq⟩ := d.commitReleases_spec
    have hcommit := d.commitReleases.commits_images false d.ts64
    refine ⟨hrel.trans hcommit.steady, hcommit.seq.trans hseq, fun _ hen hst => ?_⟩
    have hearly {f : Fld} (hf : f.addr = Reg.TICK_EARLY) : d.commitReleases.bit f = d.bit f := by
      rw [Device.bit, Device.bit, Device.fld_congr (hrel.regs f.addr (by rw [hf]; decide))]
    have hfield : d.commitReleases.fieldImage = d.img.frozen := by
      rw [Device.fieldImage_frozen ((hrel.fo rfl).trans hen) ((hrel.fo rfl).trans hst), himg]
    rw [hfield, himg, hearly rfl, hearly rfl, hearly rfl] at hcommit
    refine ⟨hcommit.start.trans hstart, fun h => ?_, fun h => ?_, fun h => ?_⟩ <;> rw [hcommit.img, if_pos h]
  · next hn => exact ⟨.refl d, rfl, fun hc => absurd hc hn⟩

theorem Device.commitBoundary_spec (d : Device) :
    d.Steady d.commitBoundary ∧
      (d.tickCommits = true → d.bit Reg.FO_CFG_EN = false → d.bit Reg.FO_CFG_ST_EN = false →
        d.ImagesCommit d.commitBoundary) ∧
      (d.stateCommits = true → d.StateCommit d.commitBoundary) := by
  obtain ⟨hsteady, hseq, himages⟩ := d.commitTick_spec
  rw [Device.commitBoundary_eq]
  split
  · obtain ⟨hstate, hstart, hseq', himg⟩ := d.commitTick.commitState_spec
    refine ⟨hsteady.trans hstate, fun hc hen hst => ?_, fun _ => ⟨by rw [hseq', hseq], ?_, ?_⟩⟩
    · obtain ⟨hs, hfield, hsahtu, heth⟩ := himages hc hen hst
      exact ⟨hstart.trans hs, fun h => by rw [himg, ← hfield h]; rfl, fun h => by rw [himg, ← hsahtu h]; rfl,
        fun h => by rw [himg, ← heth h]; rfl⟩
    · rw [himg]
      rfl
    · rw [himg, ← hsteady.mem.mem]
      rfl
  · next hn =>
    refine ⟨hsteady.trans (Device.calm_units _).steady, fun hc hen hst => ?_, fun hc => absurd hc hn⟩
    obtain ⟨hs, hfield, hsahtu, heth⟩ := himages hc hen hst
    exact ⟨hs, hfield, hsahtu, heth⟩

end Sys2Proof.Machine
end

section
/-! SUPPORT. Tick boundaries (R45, R53, R57, R65, R66, R155): the advance of the count, what a boundary leaves, the first
boundary and a freeze. -/

namespace Sys2Proof.Machine

open Device.Calm (UnitReg)

/-! ## The advance at a boundary -/

/-- A boundary up to its count: a copy of the tick before is due, and the tick that ends commits. -/
def Device.committed (d : Device) : Device := d.copyDue.foBoundary.commitBoundary

/-- The count advances; `commits`: the state of the tick that ended has committed. -/
def Device.counted (d : Device) (commits : Bool) : Device :=
  let d3 := d.countTick (d.tickCount + 1)
  let d4 : Device := if commits ∧ d3.isLane then
      { d3 with tri := { d3.tri with digest := some (d3.tickCount, d3.stateDigest) } }
    else d3
  if commits then d4.copySend else d4

/-- The timer cells advance, FORCE_COLD ends with the second tick, and SET_SOURCE takes effect. -/
def Device.advanced (d : Device) : Device :=
  let d6 := d.timersAdvance
  (if d6.tickCount = 1 ∧ d6.fld Reg.LDR_STAT_RTYPE = 0 then d6.setF Reg.LDR_STAT_FORCE_COLD 0 else d6).takeSource

/-- A boundary of running ticks up to what follows it. -/
def Device.passed (d : Device) : Device := (d.committed.counted d.stateCommits).advanced

theorem Device.nextBoundary_eq (d : Device) (m : FieldMeas) : d.nextBoundary m =
    if d.tick.stopNext then
      (if d.tick.stopNext then d else d.latchInputs m).passed.freezeNow.setF Reg.TICK_STATUS_RUNNING 0
    else (if d.tick.stopNext then d else d.latchInputs m).passed.boundaryEnd := rfl

theorem Device.nextBoundary_on {d : Device} (m : FieldMeas) (h : d.tick.stopNext = false) :
    d.nextBoundary m = (d.latchInputs m).passed.boundaryEnd := by
  rw [d.nextBoundary_eq, if_neg (by simp [h]), if_neg (by simp [h])]

theorem Device.nextBoundary_stop {d : Device} (m : FieldMeas) (h : d.tick.stopNext = true) :
    d.nextBoundary m = d.passed.freezeNow.setF Reg.TICK_STATUS_RUNNING 0 := by
  rw [d.nextBoundary_eq, if_pos h, if_pos h]

/-! ## What each part leaves -/

/-- The commits of a tick are seen alike after work of units, before it and after it. -/
theorem Device.ImagesCommit.calm {d x t u : Device} (h : x.ImagesCommit t) (g : d.Calm x) (k : t.Calm u) :
    d.ImagesCommit u := by
  have hearly {f : Fld} (hf : f.addr = Reg.TICK_EARLY) : x.bit f = d.bit f := by
    rw [Device.bit, Device.bit, Device.fld_congr (g.steady.regs f.addr (by rw [hf]; decide))]
  have hfrozen : x.img.frozen = d.img.frozen := by rw [g.img]
  refine ⟨k.start.trans h.start, fun he => ?_, fun he => ?_, fun he => ?_⟩
  · rw [k.img, ← hfrozen, ← h.field ((hearly rfl).trans he)]
  · rw [k.img, ← hfrozen, ← h.sahtu ((hearly rfl).trans he)]
  · rw [k.img, ← hfrozen, ← h.eth ((hearly rfl).trans he)]

theorem Device.StateCommit.calm {d x t u : Device} (h : x.StateCommit t) (g : d.Calm x) (k : t.Calm u) :
    d.StateCommit u :=
  ⟨by rw [k.seq, h.seq, g.seq], by rw [k.img, ← h.valid], by rw [k.img, ← g.steady.mem.mem, ← h.retained]⟩

/-- The tick that ends has committed as its course says. -/
theorem Device.committed_spec (d : Device) :
    d.Steady d.committed ∧
      (d.isLane = false → d.tickCommits = true → d.bit Reg.FO_CFG_EN = false → d.bit Reg.FO_CFG_ST_EN = false →
        d.ImagesCommit d.committed) ∧
      (d.stateCommits = true → d.StateCommit d.committed) := by
  have hcalm : d.Calm d.copyDue.foBoundary := d.calm_copyDue.trans (Device.calm_foBoundary _)
  obtain ⟨hsteady, himages, hstate⟩ := d.copyDue.foBoundary.commitBoundary_spec
  obtain ⟨hs, ht⟩ := hcalm.steady.commits_iff
  refine ⟨hcalm.steady.trans hsteady, fun hl hc hen hst => ?_, fun hc => ?_⟩
  · exact (himages ((ht hl).2.trans hc) ((hcalm.steady.fo rfl).trans hen) ((hcalm.steady.fo rfl).trans hst)).calm hcalm
      (.refl _)
  · exact (hstate (hs.trans hc)).calm hcalm (.refl _)

/-- A count that was written modulo 2^64. -/
theorem Device.tickCount_countTick (d : Device) (n : Nat) : (d.countTick n).tickCount = n % 2 ^ 64 := by
  have hlo : (d.countTick n).rd Reg.TICK_COUNT_LO = wd n := by
    refine (Device.rd_wr_other _ _ ?_).trans (Device.rd_wr_same _ _ _)
    decide
  have hhi : (d.countTick n).rd Reg.TICK_COUNT_HI = wd (n / 2 ^ 32) := Device.rd_wr_same _ _ _
  rw [Device.tickCount, hlo, hhi]
  simp only [wd, BitVec.toNat_ofNat]
  omega

theorem Device.rd_countTick (d : Device) (n : Nat) {a : Nat} (h1 : a ≠ Reg.TICK_COUNT_LO) (h2 : a ≠ Reg.TICK_COUNT_HI) :
    (d.countTick n).rd a = d.rd a := (Device.rd_wr_other _ _ h2).trans (Device.rd_wr_other _ _ h1)

theorem Device.calm_counted (d : Device) (c : Bool) : (d.countTick (d.tickCount + 1)).Calm (d.counted c) := by
  simp only [Device.counted]
  exact .ite (.trans (.ite (Device.calm_units _) (.refl _)) (Device.calm_copySend _)) (.ite (Device.calm_units _) (.refl _))

/-- The timer cells advance, and no source waits. -/
def Device.timed (d : Device) : Device := { d.timersAdvance with tick := { d.tick with pendSrc := none } }

theorem Device.Calm.pendSrc {d t : Device} (h : d.Calm t) :
    ({ d with tick := { d.tick with pendSrc := none } } : Device).Calm { t with tick := { t.tick with pendSrc := none } } := by
  obtain ⟨⟨⟨hmem, hlarea, hprog⟩, hce, htb, hcourse, hrun, hregs⟩, himg, hstart, hseq⟩ := h
  refine ⟨⟨⟨hmem, hlarea, hprog⟩, hce, htb, ?_, hrun, hregs⟩, himg, hstart, hseq⟩
  exact congrArg (fun k : TickState => { k with pendSrc := none }) hcourse

theorem Device.calm_advanced (d : Device) : d.timed.Calm d.advanced := by
  have hcold : d.timersAdvance.Calm (if d.timersAdvance.tickCount = 1 ∧ d.timersAdvance.fld Reg.LDR_STAT_RTYPE = 0 then
      d.timersAdvance.setF Reg.LDR_STAT_FORCE_COLD 0 else d.timersAdvance) :=
    .ite (Device.calm_setF _ _ (by decide)) (.refl _)
  exact hcold.pendSrc.trans (Device.calm_takeSource _)

/-- A timer cell that has advanced. -/
def TCell.advance (c : TCell) (us : Nat) : TCell := if c.run then { c with acc := min (2 ^ 48 - 1) (c.acc + us) } else c

theorem Device.tcell_timed (d : Device) (n : Nat) : d.timed.tcell n = (d.tcell n).advance d.periodUs :=
  sget_map tcell0 (TCell.advance · d.periodUs) d.ce.tcells n rfl

theorem Device.Steady.tickCount {d t : Device} (h : d.Steady t) : t.tickCount = d.tickCount := by
  rw [Device.tickCount, h.regs _ (by decide), h.regs _ (by decide), Device.tickCount]

theorem Device.Steady.periodUs {d t : Device} (h : d.Steady t) : t.periodUs = d.periodUs :=
  Device.fld_congr (h.regs _ (by decide))

theorem Device.Steady.ts64 {d t : Device} (h : d.Steady t) : t.ts64 = d.ts64 := by rw [Device.ts64, h.tb, Device.ts64]

theorem Device.course_timed (d : Device) : d.timed.tick.course = { d.tick.course with pendSrc := none } := rfl

theorem Device.countTick_tick (d : Device) (n : Nat) : (d.countTick n).tick = { d.tick with
    boundaryTs := d.ts64, tickT := d.ts64, tickUs := (d.tbNs / 1000).toNat
    ready := false, noCommit := false, noState := false, phase := 1 } := rfl

/-- The count changes the tick and its registers alone. -/
theorem Device.countTick_keeps (d : Device) (n : Nat) : d.KeepsMem (d.countTick n) ∧ (d.countTick n).ce = d.ce ∧
    (d.countTick n).img = d.img := ⟨⟨rfl, rfl, rfl⟩, rfl, rfl⟩

/-- A boundary in parts: x has committed, z has counted, and t is the device after it. -/
structure Device.Parts (d x z t : Device) : Prop where
  commit : d.Steady x
  count : (x.countTick (x.tickCount + 1)).Calm z
  advance : z.timed.Calm t

namespace Device.Parts

variable {d x z t : Device} (h : d.Parts x z t)
include h

/-- A register that neither the count nor work beside the tick's course writes. -/
theorem rd {a : Nat} (ha : ¬SideReg a) : t.rd a = (x.countTick (x.tickCount + 1)).rd a :=
  (h.advance.steady.regs a ha).trans (h.count.steady.regs a ha)

theorem tickCount : t.tickCount = (d.tickCount + 1) % 2 ^ 64 := by
  rw [Device.tickCount, h.rd (by decide), h.rd (by decide), ← Device.tickCount, Device.tickCount_countTick,
    h.commit.tickCount]

/-- What of the tick's course a boundary sets. -/
theorem course : t.tick.phase = 1 ∧ t.tick.ready = false ∧ t.tick.boundaryTs = d.ts64 ∧ t.tick.pendSrc = none := by
  have hcourse : t.tick.course = { (x.countTick (x.tickCount + 1)).tick.course with pendSrc := none } := by
    rw [h.advance.steady.course, Device.course_timed, h.count.steady.course]
  rw [Device.countTick_tick, h.commit.ts64] at hcourse
  exact ⟨congrArg TickState.phase hcourse, congrArg TickState.ready hcourse, congrArg TickState.boundaryTs hcourse,
    congrArg TickState.pendSrc hcourse⟩

theorem counted : z.ce = d.ce ∧ z.periodUs = d.periodUs := by
  obtain ⟨-, hce, -⟩ := x.countTick_keeps (x.tickCount + 1)
  have hperiod : (x.countTick (x.tickCount + 1)).periodUs = x.periodUs :=
    Device.fld_congr (Device.rd_countTick _ _ (by decide) (by decide))
  exact ⟨by rw [h.count.steady.ce, hce, h.commit.ce], by rw [h.count.steady.periodUs, hperiod, h.commit.periodUs]⟩

theorem mem : d.KeepsMem t := by
  obtain ⟨⟨hm, hl, hp⟩, -, -⟩ := x.countTick_keeps (x.tickCount + 1)
  obtain ⟨hm0, hl0, hp0⟩ := h.commit.mem
  obtain ⟨hm1, hl1, hp1⟩ := h.count.steady.mem
  obtain ⟨hm2, hl2, hp2⟩ := h.advance.steady.mem
  exact ⟨hm2.trans (hm1.trans (hm.trans hm0)), hl2.trans (hl1.trans (hl.trans hl0)), hp2.trans (hp1.trans (hp.trans hp0))⟩

theorem cells : (∀ n, t.tcell n = (d.tcell n).advance d.periodUs) ∧ ∀ n, t.ccell n = d.ccell n := by
  obtain ⟨hce, hperiod⟩ := h.counted
  refine ⟨fun n => ?_, fun n => ?_⟩
  · rw [Device.tcell_congr (congrArg CeState.tcells h.advance.steady.ce), Device.tcell_timed,
      Device.tcell_congr (congrArg CeState.tcells hce), hperiod]
  · rw [Device.ccell_congr (congrArg CeState.ccells h.advance.steady.ce)]
    exact Device.ccell_congr (congrArg CeState.ccells hce) n

/-- What has committed stays. -/
theorem committed : t.slOn slStart = x.slOn slStart ∧ t.rd Reg.IMG_P_SEQ = x.rd Reg.IMG_P_SEQ ∧
    t.img = { x.img with latch := t.img.latch } := by
  have hrd {a : Nat} (h1 : a ≠ Reg.TICK_COUNT_LO) (h2 : a ≠ Reg.TICK_COUNT_HI) :=
    x.rd_countTick (x.tickCount + 1) h1 h2
  obtain ⟨-, -, himg⟩ := x.countTick_keeps (x.tickCount + 1)
  refine ⟨h.advance.start.trans (h.count.start.trans (Device.slOn_congr (hrd (by decide) (by decide)) _)),
    h.advance.seq.trans (h.count.seq.trans (hrd (by decide) (by decide))), ?_⟩
  have hz : z.timed.img = { x.img with latch := z.img.latch } := by rw [← himg, ← h.count.img]; rfl
  rw [h.advance.img, hz]

end Device.Parts

theorem Device.parts_passed (d : Device) : d.Parts d.committed (d.committed.counted d.stateCommits) d.passed :=
  ⟨d.committed_spec.1, d.committed.calm_counted _, Device.calm_advanced _⟩

/-- What a boundary of running ticks leaves. -/
structure Device.Passed (d t : Device) : Prop where
  count : t.tickCount = (d.tickCount + 1) % 2 ^ 64
  course : t.tick.phase = 1 ∧ t.tick.ready = false ∧ t.tick.boundaryTs = d.ts64 ∧ t.tick.pendSrc = none
  mem : d.KeepsMem t
  tcell : ∀ n, t.tcell n = (d.tcell n).advance d.periodUs
  ccell : ∀ n, t.ccell n = d.ccell n
  images : d.isLane = false → d.tickCommits = true → d.bit Reg.FO_CFG_EN = false → d.bit Reg.FO_CFG_ST_EN = false →
    d.ImagesCommit t
  state : d.stateCommits = true → d.StateCommit t

theorem Device.passed_spec (d : Device) : d.Passed d.passed := by
  obtain ⟨-, himages, hstate⟩ := d.committed_spec
  have h := d.parts_passed
  obtain ⟨htcell, hccell⟩ := h.cells
  obtain ⟨hstart, hseq, himg⟩ := h.committed
  refine ⟨h.tickCount, h.course, h.mem, htcell, hccell, fun hl hc hen hst => ?_, fun hc => ?_⟩
  · obtain ⟨hs, hfield, hsahtu, heth⟩ := himages hl hc hen hst
    exact ⟨hstart.trans hs, fun he => by rw [himg, ← hfield he], fun he => by rw [himg, ← hsahtu he],
      fun he => by rw [himg, ← heth he]⟩
  · obtain ⟨hs, hvalid, hret⟩ := hstate hc
    exact ⟨hseq.trans hs, by rw [himg, ← hvalid], by rw [himg, ← hret]⟩

/-- Work of units before the boundary and after it. -/
theorem Device.Passed.calm {d x t u : Device} (h : x.Passed t) (g : d.Calm x) (k : t.Calm u) : d.Passed u := by
  obtain ⟨hcount, ⟨hphase, hready, hts, hpend⟩, ⟨hm, hl, hp⟩, htcell, hccell, himages, hstate⟩ := h
  obtain ⟨gm, gl, gp⟩ := g.steady.mem
  obtain ⟨km, kl, kp⟩ := k.steady.mem
  obtain ⟨hs, hc⟩ := g.steady.commits_iff
  refine ⟨?_, ⟨?_, ?_, ?_, ?_⟩, ⟨km.trans (hm.trans gm), kl.trans (hl.trans gl), kp.trans (hp.trans gp)⟩, fun n => ?_,
    fun n => ?_, fun hlane hci hen hst => ?_, fun hcs => ?_⟩
  · rw [k.steady.tickCount, hcount, g.steady.tickCount]
  · rw [k.steady.tick TickState.phase, hphase]
  · rw [k.steady.tick TickState.ready, hready]
  · rw [k.steady.tick TickState.boundaryTs, hts, g.steady.ts64]
  · rw [k.steady.tick TickState.pendSrc, hpend]
  · rw [Device.tcell_congr (congrArg CeState.tcells k.steady.ce), htcell,
      Device.tcell_congr (congrArg CeState.tcells g.steady.ce), g.steady.periodUs]
  · rw [Device.ccell_congr (congrArg CeState.ccells k.steady.ce), hccell,
      Device.ccell_congr (congrArg CeState.ccells g.steady.ce)]
  · exact (himages (hc hlane).1 ((hc hlane).2.trans hci) ((g.steady.fo rfl).trans hen) ((g.steady.fo rfl).trans hst)).calm g k
  · exact (hstate (hs.trans hcs)).calm g k

/-- A boundary of running ticks, with the latch before it, what follows it, and the gate-off network. -/
theorem Device.nextBoundary_passed {d : Device} (m : FieldMeas) (h : d.tick.stopNext = false) :
    d.Passed (d.nextBoundary m).sluice := by
  rw [Device.nextBoundary_on m h]
  exact (Device.passed_spec _).calm (d.calm_latchInputs m) ((Device.calm_boundaryEnd _).trans (Device.calm_sluice _))

end Sys2Proof.Machine
end

section
/-! SUPPORT. Work that leaves the tick alone (R65, R73, R74, R207): the tick's own state and the registers of a set are as
they were. One relation over the set, with the reads and writes of codewords, and a freeze as its first use. -/

namespace Sys2Proof.Machine

/-- The tick's own state and the registers of R hold what they held. -/
structure Device.Spares (R : Nat → Prop) (d t : Device) : Prop where
  tick : t.tick = d.tick
  regs : ∀ a, R a → t.rd a = d.rd a

namespace Device.Spares

variable {R : Nat → Prop}

theorem refl (d : Device) : d.Spares R d := ⟨rfl, fun _ _ => rfl⟩

theorem trans {d t u : Device} (h : d.Spares R t) (g : t.Spares R u) : d.Spares R u :=
  ⟨g.tick.trans h.tick, fun a ha => (g.regs a ha).trans (h.regs a ha)⟩

theorem ite {d t u : Device} {p : Prop} [Decidable p] (h : d.Spares R t) (g : d.Spares R u) :
    d.Spares R (if p then t else u) := by split <;> assumption

theorem forN {f : Nat → Device → Device} (n : Nat) (h : ∀ i, i < n → ∀ x : Device, x.Spares R (f i x)) (d : Device) :
    d.Spares R (forN n f d) := forN_rel refl trans n h d

theorem foldl {α : Type} {f : Device → α → Device} (l : List α) (h : ∀ (x : Device) a, x.Spares R (f x a)) (d : Device) :
    d.Spares R (l.foldl f d) := foldl_rel refl trans l h d

/-- Registers that R spares, releases, the recorder and what is sent. -/
theorem of_soft {S : Nat → Prop} {d t : Device} (h : d.Soft S t) (hR : ∀ a, R a → ¬S a) : d.Spares R t := by
  obtain ⟨r, v, k, m, hf⟩ := h.form
  exact ⟨by rw [hf], fun a ha => h.regs a (hR a ha)⟩

theorem of_lane {d t : Device} (h : d.LaneWork t) (hR : ∀ a, R a → a ∉ laneRegs) : d.Spares R t :=
  ⟨h.tick, fun a ha => h.regs a (hR a ha)⟩

/-- State beside registers and the tick. -/
theorem of_eq {d t : Device} (htick : t.tick = d.tick) (hregs : t.regs = d.regs) : d.Spares R t :=
  ⟨htick, fun a _ => Device.rd_congr hregs a⟩

end Device.Spares

section
variable {R : Nat → Prop} (d : Device)

theorem Device.spares_wr {a : Nat} (v : Word) (h : ¬R a) : d.Spares R (d.wr a v) :=
  ⟨rfl, fun _ hb => Device.rd_wr_other _ _ fun e => h (e ▸ hb)⟩

theorem Device.spares_setF {f : Fld} (v : Nat) (h : ¬R f.addr) : d.Spares R (d.setF f v) := d.spares_wr _ h

theorem Device.spares_raise (code : Nat) (snaps : List Word) (h : ¬R Reg.EVR_LOSS) : d.Spares R (d.raise code snaps) :=
  .of_soft (S := (· = Reg.EVR_LOSS)) (d.soft_raise code snaps rfl) fun _ ha e => h (e ▸ ha)

theorem Device.spares_evr (x : EvrState) : d.Spares R { d with evr := x } := .of_eq rfl rfl
theorem Device.spares_stores (x : EvrState) (y : NvmState) : d.Spares R { d with evr := x, nvm := y } := .of_eq rfl rfl
theorem Device.spares_nvm (x : NvmState) : d.Spares R { d with nvm := x } := .of_eq rfl rfl

theorem Device.spares_setBytes (a : Nat) (l : List Byte) : d.Spares R (d.setBytes a l) := by
  obtain ⟨m, h⟩ := d.setBytes_eq a l
  rw [h]
  exact .of_eq rfl rfl

/-! ## Codewords -/

/-- R spares what the codewords of memory write. -/
structure SparesEcc (R : Nat → Prop) : Prop where
  lane : ∀ a, R a → a ∉ laneRegs
  corr : ¬R Reg.CE_MEM_CORR_CNT

variable (hR : SparesEcc R)
include hR

theorem SparesEcc.loss : ¬R Reg.EVR_LOSS := fun h => hR.lane _ h (by decide)

theorem Device.spares_eccRead (m e : Nat) {k : Nat} (hk : 2 ≤ eccMem k → ¬R (Reg.CE_ECC_CNT (eccEng k))) :
    d.Spares R (d.eccRead m e k).2 := by
  unfold Device.eccRead
  split
  · exact .refl d
  · exact .refl d
  · have hset : d.Spares R (d.setEcc k .counted) := .of_eq rfl rfl
    simp only
    refine .trans ?_ (Device.spares_raise _ _ _ hR.loss)
    split
    · next h => exact hset.trans (Device.spares_setF _ _ (hk h))
    · exact hset.trans (Device.spares_setF _ _ hR.corr)
  · exact .of_lane (d.laneWork_memFault _ _ _ _) hR.lane
  · exact .of_lane (d.laneWork_memFault _ _ _ _) hR.lane

theorem Device.spares_eccReads (m e : Nat) {l : List Nat}
    (hl : ∀ k ∈ l, 2 ≤ eccMem k → ¬R (Reg.CE_ECC_CNT (eccEng k))) : d.Spares R (d.eccReads m e l).2 := by
  induction l generalizing d with
  | nil => exact .refl d
  | cons k t ih =>
    have hread := d.spares_eccRead hR m e (hl k List.mem_cons_self)
    rw [Device.eccReads]
    split
    · next h =>
      rw [h] at hread
      exact hread.trans (ih _ fun j hj => hl j (List.mem_cons_of_mem _ hj))
    · next h =>
      rw [h] at hread
      exact hread

theorem Device.spares_eccWriteShared (m e a n : Nat) {l : List Nat}
    (hl : ∀ k ∈ l, 2 ≤ eccMem k → ¬R (Reg.CE_ECC_CNT (eccEng k))) : d.Spares R (d.eccWriteShared m e a n l).2 := by
  induction l generalizing d with
  | nil => exact .refl d
  | cons k t ih =>
    have hread := d.spares_eccRead hR m e (hl k List.mem_cons_self)
    have hset (x : Device) : x.Spares R (x.setEcc k .clean) := .of_eq rfl rfl
    have ih' (x : Device) := ih (x.setEcc k .clean) fun j hj => hl j (List.mem_cons_of_mem _ hj)
    rw [Device.eccWriteShared]
    split
    · exact (hset d).trans (ih' d)
    · split
      · next h =>
        rw [h] at hread
        exact (hread.trans (hset _)).trans (ih' _)
      · next h =>
        rw [h] at hread
        exact hread

theorem Device.spares_busWrite (m a : Nat) (l : List Byte)
    (hl : ∀ k ∈ sharedKeys a l.length, 2 ≤ eccMem k → ¬R (Reg.CE_ECC_CNT (eccEng k))) :
    d.Spares R (d.busWrite m a l).2 := by
  have hwrite := d.spares_eccWriteShared hR m 0 a l.length hl
  unfold Device.busWrite
  split
  · next h =>
    rw [h] at hwrite
    exact hwrite.trans (Device.spares_setBytes _ _ _)
  · next h =>
    rw [h] at hwrite
    exact hwrite

end

/-! ## A freeze (R65) -/

/-- The registers below those of the compute engines: of the system and of the tick. -/
abbrev TickReg (a : Nat) : Prop := a < 0x4020000

theorem tickReg_ecc : SparesEcc TickReg where
  lane := fun a ha hl => by
    have hall : ∀ a ∈ laneRegs, ¬TickReg a := by decide
    exact hall a hl ha
  corr := by decide

theorem tickReg_eccCnt (e : Nat) : ¬TickReg (Reg.CE_ECC_CNT e) := by
  simp only [TickReg, Reg.CE_ECC_CNT]
  omega

section
variable (d : Device)

theorem Device.spares_busWrite_tick (m a : Nat) (l : List Byte) : d.Spares TickReg (d.busWrite m a l).2 :=
  d.spares_busWrite tickReg_ecc m a l fun _ _ _ => tickReg_eccCnt _

/-- A soft change of registers that are not the tick's. -/
theorem Device.spares_fire (src : Nat) : d.Spares TickReg (d.fire src) :=
  .of_soft (d.soft_fire src fun _ => id) fun _ ha => not_relReg (.inl (Nat.lt_trans ha (by decide)))
    fun e => absurd (e ▸ ha) (by decide)

theorem Device.spares_cause (k : Nat) : d.Spares TickReg (d.cause k) :=
  .of_soft (d.soft_cause k fun _ => id) fun _ ha => not_causeReg (.inl (Nat.lt_trans ha (by decide)))

theorem Device.spares_place (r : EvRec) : d.Spares TickReg (d.place r) := by
  have hslot (x : Device) (k : Nat) : x.Spares TickReg (x.putSlot k r) :=
    (x.spares_evr _).trans (Device.spares_setF _ _ (by decide))
  have hhigh (x : Device) : x.Spares TickReg x.highMark :=
    .ite (((x.spares_setF _ (by decide)).trans (Device.spares_fire _ _)).trans (Device.spares_cause _ _)) (.refl x)
  have harch (x : Device) : x.Spares TickReg (x.archive r) := by
    simp only [Device.archive]
    exact .ite (.refl x) (.ite (x.spares_evr _) (.ite (x.spares_setF _ (by decide))
      (((x.spares_setF _ (by decide)).trans (Device.spares_evr _ _)).trans (Device.spares_raise _ _ _ (by decide)))))
  have henter (k : Nat) : d.Spares TickReg ((d.putSlot k r).highMark.archive r) :=
    ((hslot d k).trans (hhigh _)).trans (harch _)
  have hdrop : d.Spares TickReg (d.inc Reg.EVR_LOSS_DROPPED) := d.spares_setF _ (by decide)
  simp only [Device.place]
  split
  · exact henter _
  · split
    · exact henter _
    · split
      · split
        · exact henter _
        · exact hdrop
      · exact hdrop

theorem Device.spares_placeAll (l : List EvRec) : d.Spares TickReg (d.placeAll l) := by
  induction l generalizing d with
  | nil => exact .refl d
  | cons r t ih => exact (d.spares_place r).trans (ih _)

theorem Device.spares_unfreezeLog : d.Spares TickReg d.unfreezeLog := by
  simp only [Device.unfreezeLog]
  have hplaced : d.Spares TickReg (((({ d with evr := { d.evr with spill := [] } } : Device).placeAll d.evr.spill).setF
      Reg.EVR_STAT_FROZEN 0).setF Reg.EVR_STAT_SPILL 0) :=
    (((d.spares_evr _).trans (Device.spares_placeAll _ _)).trans (Device.spares_setF _ _ (by decide))).trans
      (Device.spares_setF _ _ (by decide))
  exact .ite (.refl d) (.ite (hplaced.trans (Device.spares_raise _ _ _ (by decide))) hplaced)

theorem Device.spares_preErase (r : Nat) : d.Spares TickReg (d.preErase r) := by
  unfold Device.preErase
  split
  · exact .ite (.refl d) (.of_eq rfl rfl)
  · exact .refl d

/-- The end of a job of the store leaves the tick alone, also where it writes its slot of the ring. -/
theorem Device.spares_jobEnd (w : NvmWork) (code : Nat) : d.Spares TickReg (d.jobEnd w code) := by
  have hfinish : d.Spares TickReg (d.finishCmd portNVM code) :=
    .of_soft (S := (· = portNVM.stat)) (d.soft_finishCmd _ _ rfl) fun _ ha e => absurd (e ▸ ha) (by decide)
  cases w with
  | ring k op addr =>
    exact ((d.spares_busWrite_tick _ _ _).trans (Device.spares_busWrite_tick _ _ _ _)).trans
      (Device.spares_setF _ _ (by decide))
  | scrub | table => exact d.spares_setF _ (by decide)
  | archive recs =>
    simp only [Device.jobEnd]
    have hbusy := d.spares_setF (R := TickReg) (f := Reg.EVR_STAT_ARCH_BUSY) 0 (by decide)
    exact .ite (((hbusy.trans (Device.spares_wr _ (a := Reg.EVR_ARCH) _ (by decide))).trans
      (Device.spares_stores _ _ _)).trans (Device.spares_preErase _ _)) (hbusy.trans (Device.spares_evr _ _))
  | read | program | erase | desc => exact hfinish
  | refresh | tidy => exact .refl d
  | save | regionErase | regionWrite | arm | disarm | commitCfg | activate => exact .of_eq rfl rfl

theorem Device.spares_nvmFreeze : d.Spares TickReg d.nvmFreeze := by
  unfold Device.nvmFreeze
  extract_lets d1 canStop suspended d2 ends gone
  have h1 : d.Spares TickReg d1 := d.spares_setF _ (by decide)
  have h2 : d1.Spares TickReg d2 := by
    simp only [d2]
    split
    · exact .ite (d1.spares_nvm _) (.refl _)
    · exact .refl _
  exact ((h1.trans h2).trans (d2.spares_nvm _)).trans (.foldl _ (fun x j => x.spares_jobEnd _ _) _)

/-- A freeze shows, disarms the watchdog, and waits no more. -/
theorem Device.freezeNow_spec : ({ d.setF Reg.TICK_STATUS_FROZEN 1 with
    tick := { d.tick with wdArmed := false, stopNext := false } } : Device).Spares TickReg d.freezeNow :=
  (Device.spares_unfreezeLog _).trans (Device.spares_nvmFreeze _)

end

end Sys2Proof.Machine
end

section
/-! SUPPORT. The first boundary (R45, R66, R182) and a boundary at which the tick freezes (R65), and the statement about
boundaries. -/

namespace Sys2Proof.Machine

/-! ## A freeze at a boundary -/

theorem Device.rd_tick (d : Device) (k : TickState) (a : Nat) : ({ d with tick := k } : Device).rd a = d.rd a := rfl

/-- A boundary at which the tick freezes counts, shows it, and disarms the watchdog. -/
theorem Device.nextBoundary_frozen {d : Device} (m : FieldMeas) (h : d.tick.stopNext = true) :
    (d.nextBoundary m).sluice.tickCount = (d.tickCount + 1) % 2 ^ 64 ∧
    (d.nextBoundary m).sluice.bit Reg.TICK_STATUS_FROZEN = true ∧
    (d.nextBoundary m).sluice.bit Reg.TICK_STATUS_RUNNING = false ∧ (d.nextBoundary m).sluice.tick.wdArmed = false := by
  rw [Device.nextBoundary_stop m h]
  obtain ⟨htick, hregs⟩ := d.passed.freezeNow_spec
  have hrd {a : Nat} (ha : TickReg a) (hs : a ≠ Reg.TICK_STATUS) :
      (d.passed.freezeNow.setF Reg.TICK_STATUS_RUNNING 0).sluice.rd a = d.passed.rd a := by
    rw [Device.rd_sluice _ fun e => absurd (e ▸ ha) (by decide), Device.rd_setF_other _ _ hs, hregs a ha,
      Device.rd_tick, Device.rd_setF_other _ _ hs]
  have hfrozen : (d.passed.freezeNow.setF Reg.TICK_STATUS_RUNNING 0).sluice.fld Reg.TICK_STATUS_FROZEN = 1 := by
    rw [Device.fld_sluice _ (by decide), Device.fld_setF_other _ _ (by decide), Device.fld_congr (hregs _ (by decide)),
      Device.fld_congr (Device.rd_tick _ _ _)]
    exact Device.fld_setF_same _ _ _ (by decide)
  have hrunning : (d.passed.freezeNow.setF Reg.TICK_STATUS_RUNNING 0).sluice.fld Reg.TICK_STATUS_RUNNING = 0 := by
    rw [Device.fld_sluice _ (by decide)]
    exact Device.fld_setF_same _ _ _ (by decide)
  refine ⟨?_, (Device.bit_eq_true _ _).mpr (by rw [hfrozen]; decide), by rw [Device.bit, hrunning]; rfl, ?_⟩
  · rw [Device.tickCount, hrd (by decide) (by decide), hrd (by decide) (by decide), ← Device.tickCount,
      d.passed_spec.count]
  · rw [Device.sluice_tick, Device.setF_tick, htick]

/-! ## The first boundary -/

/-- Step 7 of a start, where it has not been taken. -/
def Device.startPrepared (d : Device) : Device := if d.ldr.phase = 4 then d.prepareStart else d

/-- Tick n starts, and the watchdog is armed. -/
def Device.startTick (d : Device) (n : Nat) : Device :=
  ({ d.countTick n with
    tick := { (d.countTick n).tick with started := true, wdArmed := true }
    ldr := { (d.countTick n).ldr with phase := 5 } } : Device).setF Reg.TICK_STATUS_RUNNING 1

/-- Engine e starts if it is READY. -/
def Device.startEngine (e : Nat) (d : Device) : Device :=
  if d.engState e = stReady then d.setF (Reg.CE_STATUS_STATE e) stRun else d

/-- The time that the start took shows, and event 0x388. -/
def Device.startShown (d : Device) (us : Nat) : Device :=
  (d.wr Reg.LDR_START_US (wd us)).raise 0x388 [wd (d.fld Reg.LDR_STAT_RTYPE), wd (d.fld Reg.LDR_STAT_SLOT_RUN), wd us]

/-- This lane joins a triad that runs. -/
def Device.joins (d : Device) : Bool := d.isLane && !d.tri.startSet.contains d.lane

/-- The engines of the start tick run. -/
def Device.startRun (d : Device) : Device :=
  forN 24 Device.startEngine (d.startTick (if d.joins then d.tri.runTick + 1 else 0))

theorem Device.firstBoundary_eq (d : Device) (m : FieldMeas) (us : Nat) : d.firstBoundary m us =
    (((if d.startPrepared.joins then d.startPrepared.startRun.startShown us
      else (d.startPrepared.startRun.startShown us).tri.startSet.foldl (fun d i => d.toLane i lsVoting)
        (d.startPrepared.startRun.startShown us)).cause 7).latchInputs m).boundaryEnd := rfl

section
variable (d : Device)

/-- What follows the start of the engines is work of units, once the time of the start shows. -/
theorem Device.calm_firstBoundary (m : FieldMeas) (us : Nat) :
    (d.startPrepared.startRun.wr Reg.LDR_START_US (wd us)).Calm (d.firstBoundary m us).sluice := by
  have hshown : (d.startPrepared.startRun.wr Reg.LDR_START_US (wd us)).Calm (d.startPrepared.startRun.startShown us) :=
    Device.calm_raise _ _ _
  rw [Device.firstBoundary_eq]
  exact ((((hshown.trans (.ite (.refl _) (.foldl _ (fun x i => x.calm_toLane i _) _))).trans (Device.calm_cause _ _)).trans
    (Device.calm_latchInputs _ m)).trans (Device.calm_boundaryEnd _)).trans (Device.calm_sluice _)

/-! ## Engines -/

theorem ceStatus_inj {i j : Nat} (h : Reg.CE_STATUS i = Reg.CE_STATUS j) : i = j := by
  simp only [Reg.CE_STATUS] at h
  omega

theorem Device.engState_startEngine (e k : Nat) :
    (d.startEngine e).engState k = if k = e ∧ d.engState k = 2 then 3 else d.engState k := by
  by_cases hs : d.engState e = stReady
  · rw [Device.startEngine, if_pos hs]
    by_cases he : k = e
    · subst he
      rw [if_pos ⟨rfl, hs⟩]
      exact Device.fld_setF_same _ _ _ (by simp [Reg.CE_STATUS_STATE])
    · have hne : (Reg.CE_STATUS_STATE e).addr ≠ (Reg.CE_STATUS_STATE k).addr := fun h => he (ceStatus_inj h).symm
      rw [if_neg fun h => he h.1]
      exact Device.fld_setF_other _ _ (.inl hne)
  · rw [Device.startEngine, if_neg hs, if_neg]
    rintro ⟨rfl, h⟩
    exact hs h

/-- The engines below n that are READY start. -/
theorem Device.engState_startEngines (n k : Nat) :
    (forN n Device.startEngine d).engState k = if k < n ∧ d.engState k = 2 then 3 else d.engState k := by
  induction n with
  | zero => exact (if_neg fun h => Nat.not_lt_zero _ h.1).symm
  | succ n ih =>
    rw [forN, Device.engState_startEngine, ih]
    by_cases hk : k = n
    · subst hk
      simp
    · have : k < n + 1 ↔ k < n := by omega
      simp [hk, this]

theorem Device.plain_startEngines : d.Plain (fun a => ∃ e, a = Reg.CE_STATUS e) (forN 24 Device.startEngine d) :=
  d.plain_forN 24 fun e _ x => .ite (x.plain_setF _ ⟨e, rfl⟩) (.refl x)

/-! ## The preparation of a start -/

/-- The registers of the system, the tick and the engines. -/
abbrev CoreReg (a : Nat) : Prop := a < 0x4028000

theorem Device.spares_zeroRange {R : Nat → Prop} (a n : Nat) : d.Spares R (d.zeroRange a n) := .of_eq rfl rfl

theorem Device.spares_prepareStart : d.Spares CoreReg d.prepareStart := by
  have hconn (n : Nat) : ¬CoreReg (Reg.SC_CONN_W5 n) ∧ ¬CoreReg (Reg.SC_CONN_W6 n) ∧ ¬CoreReg (Reg.SC_CONN_W7 n) := by
    simp only [CoreReg, Reg.SC_CONN_W5, Reg.SC_CONN_W6, Reg.SC_CONN_W7]
    omega
  unfold Device.prepareStart
  extract_lets l ty area d1 d2 runs d3 d4
  have h1 : d.Spares CoreReg d1 := (d.spares_zeroRange _ _).trans (Device.spares_setBytes _ _ _)
  have h2 : d1.Spares CoreReg d2 := .ite ((d1.spares_zeroRange _ _).trans (Device.spares_setBytes _ _ _)) (.refl d1)
  have h3 : d2.Spares CoreReg d3 :=
    (d2.spares_zeroRange _ _).trans (.foldl _ (fun x r => x.spares_setBytes _ _) _)
  have h4 : d3.Spares CoreReg d4 := .forN 256 (fun n _ x =>
    ((x.spares_wr _ (hconn n).1).trans (Device.spares_wr _ _ (hconn n).2.1)).trans (Device.spares_wr _ _ (hconn n).2.2)) _
  clear_value d4
  have h5 : d4.Spares CoreReg { d4 with
      ce := { d4.ce with tcells := [], ccells := [] }
      sc := { d4.sc with lastCode := [], result := [], payload := [], ageUs := [] } } := .of_eq rfl rfl
  exact ((((h1.trans h2).trans h3).trans h4).trans h5).trans (Device.spares_wr _ _ (by decide))

theorem Device.spares_startPrepared : d.Spares CoreReg d.startPrepared := .ite d.spares_prepareStart (.refl d)

theorem Device.Spares.isLane {d t : Device} (h : d.Spares CoreReg t) : t.isLane = d.isLane := by
  have : t.role = d.role := Device.fld_congr (h.regs _ (by decide))
  simp only [Device.isLane, this]

end

/-! ## What the first boundary leaves -/

theorem Device.rd_startTick (d : Device) (n : Nat) {a : Nat} (h1 : a ≠ Reg.TICK_STATUS) (h2 : a ≠ Reg.TICK_COUNT_LO)
    (h3 : a ≠ Reg.TICK_COUNT_HI) : (d.startTick n).rd a = d.rd a :=
  (Device.rd_setF_other _ _ h1).trans (d.rd_countTick n h2 h3)

theorem Device.tickCount_startTick (d : Device) (n : Nat) : (d.startTick n).tickCount = n % 2 ^ 64 := by
  have hrd {a : Nat} (h : a ≠ Reg.TICK_STATUS) : (d.startTick n).rd a = (d.countTick n).rd a := Device.rd_setF_other _ _ h
  rw [Device.tickCount, hrd (by decide), hrd (by decide), ← Device.tickCount, d.tickCount_countTick]

/-- Tick 0 of a device that is no lane: its count, RUNNING, the tick's course, and the engines that were READY. -/
theorem Device.startRun_single {d : Device} (h : d.isLane = false) :
    d.startRun.tickCount = 0 ∧ d.startRun.fld Reg.TICK_STATUS_RUNNING = 1 ∧
    (d.startRun.tick.started = true ∧ d.startRun.tick.wdArmed = true ∧ d.startRun.tick.phase = 1) ∧
    ∀ e : Eng, d.engState e = 2 → d.startRun.engState e = 3 := by
  have hjoins : d.joins = false := by rw [Device.joins, h]; rfl
  have hrun : d.startRun = forN 24 Device.startEngine (d.startTick 0) := by rw [Device.startRun, hjoins]; rfl
  obtain ⟨⟨r, v, hform⟩, hregs⟩ := (d.startTick 0).plain_startEngines
  have hrd {a : Nat} (ha : ∀ e, a ≠ Reg.CE_STATUS e) : d.startRun.rd a = (d.startTick 0).rd a := by
    rw [hrun]
    exact hregs a fun ⟨e, he⟩ => ha e he
  have htick {a : Nat} (ha : a < 0x4020000) (e : Nat) : a ≠ Reg.CE_STATUS e := by
    simp only [Reg.CE_STATUS]
    omega
  refine ⟨?_, ?_, ?_, fun e he => ?_⟩
  · rw [Device.tickCount, hrd (htick (by decide)), hrd (htick (by decide)), ← Device.tickCount, d.tickCount_startTick,
      Nat.zero_mod]
  · rw [Device.fld_congr (hrd (htick (by decide)))]
    exact Device.fld_setF_same _ _ _ (by decide)
  · rw [hrun, hform]
    exact ⟨rfl, rfl, rfl⟩
  · have hstart : (d.startTick 0).engState e = 2 := by
      refine (Device.fld_congr (d.rd_startTick 0 ?_ ?_ ?_)).trans he <;>
      · simp only [Reg.CE_STATUS_STATE, Reg.CE_STATUS, Reg.TICK_STATUS, Reg.TICK_COUNT_LO, Reg.TICK_COUNT_HI]
        omega
    rw [hrun, Device.engState_startEngines, if_pos ⟨e.isLt, hstart⟩]

/-- The first boundary of a device that is no lane. -/
theorem Device.firstBoundary_spec {d : Device} (m : FieldMeas) (us : Nat) (h : d.isLane = false) :
    (d.firstBoundary m us).sluice.tick.started = true ∧ (d.firstBoundary m us).sluice.tick.wdArmed = true ∧
    (d.firstBoundary m us).sluice.tick.phase = 1 ∧ (d.firstBoundary m us).sluice.tickCount = 0 ∧
    (d.firstBoundary m us).sluice.bit Reg.TICK_STATUS_RUNNING = true ∧
    (d.firstBoundary m us).sluice.rd Reg.LDR_START_US = wd us ∧
    ∀ e : Eng, d.engState e = 2 → (d.firstBoundary m us).sluice.engState e = 3 := by
  have hprep := d.spares_startPrepared
  obtain ⟨hcount, hrun, ⟨hstarted, harmed, hphase⟩, heng⟩ := Device.startRun_single (hprep.isLane.trans h)
  have hsteady := (d.calm_firstBoundary m us).steady
  have hshown {a : Nat} (ha : a ≠ Reg.LDR_START_US) :
      (d.startPrepared.startRun.wr Reg.LDR_START_US (wd us)).rd a = d.startPrepared.startRun.rd a :=
    Device.rd_wr_other _ _ ha
  have htick : (d.startPrepared.startRun.wr Reg.LDR_START_US (wd us)).tick = d.startPrepared.startRun.tick := rfl
  refine ⟨?_, ?_, ?_, ?_, (Device.bit_eq_true _ _).mpr ?_, ?_, fun e he => ?_⟩
  · rw [hsteady.tick TickState.started, htick, hstarted]
  · rw [hsteady.tick TickState.wdArmed, htick, harmed]
  · rw [hsteady.tick TickState.phase, htick, hphase]
  · rw [hsteady.tickCount, Device.tickCount, hshown (by decide), hshown (by decide), ← Device.tickCount, hcount]
  · rw [hsteady.running, Device.fld_congr (hshown (by decide)), hrun]
    decide
  · rw [hsteady.regs _ (by decide), Device.rd_wr_same]
  · have hcore : Reg.CE_STATUS e < 0x4028000 := by
      simp only [Reg.CE_STATUS]
      omega
    have hside : ¬SideReg (Reg.CE_STATUS e) := by
      simp only [SideReg, Reg.CE_STATUS, Reg.TICK_CMD_STATUS, Reg.TICK_CFG, Reg.TICK_PHASE_ERR, Reg.TICK_STATUS,
        Reg.FO_CFG, Reg.LDR_START_US, List.mem_cons, List.not_mem_nil, or_false]
      omega
    have hne : Reg.CE_STATUS e ≠ Reg.LDR_START_US := by
      simp only [Reg.CE_STATUS, Reg.LDR_START_US]
      omega
    have hready : d.startPrepared.engState e = 2 := (Device.fld_congr (hprep.regs _ hcore)).trans he
    exact (Device.fld_congr ((hsteady.regs _ hside).trans (hshown hne))).trans (heng e hready)

/-! ## The statement -/

theorem exec_tickBoundary (m : FieldMeas) (us : Nat) (s : State) : exec (.tickBoundary m us) s =
    run (fun d => if !d.ticking then d else if d.tick.started then d.nextBoundary m
      else if d.mayStart then d.firstBoundary m us else d) s := rfl

theorem completes_firstBoundary {s : State} {m : FieldMeas} {us : Nat} {P : Device → Prop} (ht : s.dev.ticking = true)
    (h0 : s.dev.tick.started = false) (hm : s.dev.mayStart = true) (hP : P (s.dev.firstBoundary m us).sluice) :
    Completes (.tickBoundary m us) s P :=
  completes_run (exec_tickBoundary m us s)
    (by rw [if_neg (by simp [ht]), if_neg (by simp [h0]), if_pos hm]) hP

theorem completes_nextBoundary {s : State} {m : FieldMeas} {us : Nat} {P : Device → Prop} (ht : s.dev.ticking = true)
    (h1 : s.dev.tick.started = true) (hP : P (s.dev.nextBoundary m).sluice) : Completes (.tickBoundary m us) s P :=
  completes_run (exec_tickBoundary m us s) (by rw [if_neg (by simp [ht]), if_pos h1]) hP

/-- A device that is no lane may start where its source is FREE or NETTIME, or an event has come. -/
theorem Device.mayStart_single {d : Device} (hl : d.isLane = false)
    (h : d.srcAct = 0 ∨ d.srcAct = 2 ∨ d.tick.firstDue = true) : d.mayStart = true := by
  simpa [Device.mayStart, hl, srcFREE, srcNETTIME, or_assoc] using h

/-- The byte of a retained area that has committed. -/
theorem Device.StateCommit.byte {d t : Device} (h : d.StateCommit t) {a : Nat} (h1 : 0x7F0000 ≤ a) (h2 : a < 0x800000) :
    sget byte0 t.img.retained a = d.byte a := by
  rw [h.retained, sget_takeRange _ h1 h2, Device.byte]

/-- Settles O37: the first boundary starts tick 0, and every other one passes in parts, of which one relation says that
work of units leaves the tick's course alone; a freeze follows its count. -/
theorem tickBoundaries : Obligations.TickBoundaries := by
  intro s m us ht
  refine ⟨fun h0 hl hsrc => ?first, fun h1 hstop => ?next, fun h1 hstop => ?frozen⟩
  case first => exact completes_firstBoundary ht h0 (Device.mayStart_single hl hsrc) (Device.firstBoundary_spec m us hl)
  case frozen => exact completes_nextBoundary ht h1 (Device.nextBoundary_frozen m hstop)
  case next =>
    obtain ⟨hcount, ⟨hphase, hready, hts, hpend⟩, hmem, htcell, hccell, himages, hstate⟩ :=
      Device.nextBoundary_passed m hstop
    refine completes_nextBoundary ht h1 ⟨hcount, hphase, hready, hts, hpend, hmem, htcell, hccell,
      fun hl hen hst h3 hr hn => ?_, fun h3 hr hn => ?_⟩
    · obtain ⟨hstart, hfield, hsahtu, heth⟩ := himages hl (by simp [Device.tickCommits, hl, h3, hr, hn]) hen hst
      exact ⟨hstart, hfield, hsahtu, heth⟩
    · have hcommit := hstate (by simp [Device.stateCommits, h3, hr, hn])
      exact ⟨hcommit.seq, hcommit.valid, fun a ha hb => hcommit.byte ha hb⟩

end Sys2Proof.Machine
end

section
/-! SUPPORT. Releases at t_HOP (R178, R180, R183, R184): what a release does to the state of a context, and what the
release point leaves. -/

namespace Sys2Proof.Machine

/-! ## The state of a context -/

/-- Context c of engine e is as it was, or an IDLE one has become PENDING. -/
def Device.Pends (d t : Device) (e c : Nat) : Prop :=
  t.ctxState e c = d.ctxState e c ∨ (d.ctxState e c = 0 ∧ t.ctxState e c = 1)

theorem Device.Pends.trans {d t u : Device} {e c : Nat} (h : d.Pends t e c) (g : t.Pends u e c) : d.Pends u e c := by
  rcases h with h | ⟨h0, h1⟩
  · rwa [Device.Pends, h] at g
  · rcases g with g | ⟨g0, -⟩
    · exact .inr ⟨h0, g.trans h1⟩
    · rw [h1] at g0
      cases g0

/-- A PENDING context stays PENDING. -/
theorem Device.Pends.pending {d t : Device} {e c : Nat} (h : d.Pends t e c) (hp : d.ctxState e c = 1) :
    t.ctxState e c = 1 := by
  rcases h with h | ⟨h0, -⟩
  · rw [h, hp]
  · rw [hp] at h0
    cases h0

theorem Device.Pends.of_rd {d t : Device} {e c : Nat} (h : t.rd (Reg.TASK_STAT e c) = d.rd (Reg.TASK_STAT e c)) :
    d.Pends t e c := .inl (Device.fld_congr h)

theorem taskStat_inj {e c e' c' : Nat} (hc : c < 16) (hc' : c' < 16) (h : Reg.TASK_STAT e c = Reg.TASK_STAT e' c') :
    e = e' ∧ c = c' := by
  simp only [Reg.TASK_STAT] at h
  omega

/-- The registers of a context's state are none that a count of releases or an event writes. -/
theorem taskStat_apart (e : Eng) (c : CtxNo) :
    (∀ e' c', Reg.TASK_STAT e c ≠ Reg.TASK_CNT e' c') ∧ Reg.TASK_STAT e c ≠ Reg.EVR_LOSS ∧
      Reg.TASK_STAT e c ≠ Reg.TASK_GRID_STAT := by
  simp only [Reg.TASK_STAT, Reg.TASK_CNT, Reg.EVR_LOSS, Reg.TASK_GRID_STAT]
  refine ⟨fun e' c' => ?_, ?_, ?_⟩ <;> omega

section
variable (d : Device) (e : Eng) (c : CtxNo)

theorem Device.pends_dropRelease (e' c' src : Nat) : d.Pends (d.dropRelease e' c' src) e c := by
  obtain ⟨hcnt, hloss, -⟩ := taskStat_apart e c
  exact .of_rd ((Device.rd_raise _ _ _ hloss).trans ((Device.rd_task _ _ _).trans (Device.rd_inc_other _ (hcnt _ _))))

/-- A context that takes a release from IDLE is PENDING, and no other one changes. -/
theorem Device.pends_setPending {e' c' : Nat} (hc' : c' < 16) (r : Option Rel) (h0 : d.ctxState e' c' = 0) :
    d.Pends ((d.setF (Reg.TASK_STAT_STATE e' c') 1).setRel e' c' r) e c := by
  by_cases heq : Reg.TASK_STAT e c = Reg.TASK_STAT e' c'
  · obtain ⟨rfl, rfl⟩ := taskStat_inj c.isLt hc' heq
    refine .inr ⟨h0, (Device.fld_setRel _ _ _ _ _).trans ?_⟩
    exact Device.fld_setF_same _ _ _ (by simp [Reg.TASK_STAT_STATE])
  · exact .of_rd ((Device.rd_setRel _ _ _ _ _).trans (Device.rd_setF_other _ _ heq))

theorem Device.pends_release {e' c' : Nat} (hc' : c' < 16) (r : Rel) : d.Pends (d.release e' c' r) e c := by
  obtain ⟨hcnt, hloss, -⟩ := taskStat_apart e c
  simp only [Device.release]
  split
  · split <;> exact .of_rd rfl
  · split
    · exact .inl rfl
    · split
      · next h0 => exact d.pends_setPending e c hc' _ h0
      · split
        · exact .of_rd ((Device.rd_raise _ _ _ hloss).trans (Device.rd_inc_other _ (hcnt _ _)))
        · split
          · refine .inl ?_
            have hap : (Reg.TASK_STAT_LATCH e' c').Apart (Reg.TASK_STAT_STATE e c) := by
              by_cases h : (Reg.TASK_STAT_LATCH e' c').addr = (Reg.TASK_STAT_STATE e c).addr
              · exact .inr (by simp [Reg.TASK_STAT_STATE, Reg.TASK_STAT_LATCH])
              · exact .inl h
            exact (Device.fld_task _ _ _).trans (Device.fld_setF_other _ _ hap)
          · exact d.pends_dropRelease e c _ _ _

theorem Device.pends_eventRelease {e' c' : Nat} (hc' : c' < 16) (src rt : Nat) :
    d.Pends (d.eventRelease e' c' src rt) e c := by
  simp only [Device.eventRelease]
  split
  · exact d.pends_release e c hc' _
  · split
    · exact d.pends_dropRelease e c _ _ _
    · exact d.pends_release e c hc' _

theorem Device.pends_fire (src : Nat) : d.Pends (d.fire src) e c := by
  obtain ⟨-, -, hgrid⟩ := taskStat_apart e c
  have hroute : d.fld (Reg.TASK_ROUTE_CTX src) < 16 := d.fld_lt _
  simp only [Device.fire]
  split
  · exact .inl rfl
  · split
    · split
      · exact .inl rfl
      · split
        · exact .of_rd (Device.rd_inc_other _ hgrid)
        · split <;> exact .of_rd rfl
    · exact d.pends_eventRelease e c hroute _ _

/-- A release of an engine that runs leaves a context that was IDLE PENDING. -/
theorem Device.release_pending (e c : Nat) (r : Rel) (hrun : d.engState e = 3) (h0 : d.ctxState e c = 0) :
    (d.release e c r).ctxState e c = 1 := by
  have h1 : ¬(d.engState e = stStopped ∨ d.engState e = stFault) := by rw [hrun]; decide
  have h2 : ¬(d.engState e ≠ stRun ∧ d.engState e ≠ stHalted) := by rw [hrun]; decide
  rw [Device.release, if_neg h1, if_neg h2, if_pos h0]
  exact (Device.fld_setRel _ _ _ _ _).trans (Device.fld_setF_same _ _ _ (by simp [Reg.TASK_STAT_STATE]))

end

/-! ## Releases -/

/-- Releases, and nothing else, lie between d and t. -/
structure Device.Releases (d t : Device) : Prop where
  soft : d.Soft RelReg t
  pends : ∀ (e : Eng) (c : CtxNo), d.Pends t e c
  tick1 : t.task.tick1 = d.task.tick1

namespace Device.Releases

theorem refl (d : Device) : d.Releases d := ⟨.refl d, fun _ _ => .inl rfl, rfl⟩

theorem trans {d t u : Device} (h : d.Releases t) (g : t.Releases u) : d.Releases u :=
  ⟨h.soft.trans g.soft, fun e c => (h.pends e c).trans (g.pends e c), g.tick1.trans h.tick1⟩

theorem ite {d t u : Device} {p : Prop} [Decidable p] (h : d.Releases t) (g : d.Releases u) :
    d.Releases (if p then t else u) := by split <;> assumption

end Device.Releases

section
variable (d : Device)

theorem Device.tick1_dropRelease (e c src : Nat) : (d.dropRelease e c src).task.tick1 = d.task.tick1 := by
  simp only [Device.dropRelease, Device.raise_task, Device.inc_task]

theorem Device.tick1_release (e c : Nat) (r : Rel) : (d.release e c r).task.tick1 = d.task.tick1 := by
  simp only [Device.release]
  split
  · split <;> rfl
  · split
    · rfl
    · split
      · simp only [Device.setRel, Device.setF_task]
      · split
        · simp only [Device.raise_task, Device.inc_task]
        · split
          · simp only [Device.setF_task]
          · exact d.tick1_dropRelease _ _ _

theorem Device.tick1_eventRelease (e c src rt : Nat) : (d.eventRelease e c src rt).task.tick1 = d.task.tick1 := by
  simp only [Device.eventRelease]
  split
  · exact d.tick1_release _ _ _
  · split
    · exact d.tick1_dropRelease _ _ _
    · exact d.tick1_release _ _ _

theorem Device.tick1_fire (src : Nat) : (d.fire src).task.tick1 = d.task.tick1 := by
  simp only [Device.fire]
  split
  · rfl
  · split
    · split
      · rfl
      · split
        · simp only [Device.inc_task]
        · split <;> rfl
    · exact d.tick1_eventRelease _ _ _ _

theorem Device.releases_fire (src : Nat) : d.Releases (d.fire src) :=
  ⟨d.soft_fire src fun _ => id, fun e c => d.pends_fire e c src, d.tick1_fire src⟩

section
variable {e c : Nat} (he : e < 32) (hc : c < 16)
include he hc

theorem Device.releases_release (r : Rel) : d.Releases (d.release e c r) :=
  ⟨d.soft_release e c r (relReg_stat he hc) (relReg_cnt he hc) relReg_loss, fun e' c' => d.pends_release e' c' hc r,
    d.tick1_release e c r⟩

theorem Device.releases_eventRelease (src rt : Nat) : d.Releases (d.eventRelease e c src rt) :=
  ⟨d.soft_eventRelease e c src rt (relReg_stat he hc) (relReg_cnt he hc) relReg_loss,
    fun e' c' => d.pends_eventRelease e' c' hc src rt, d.tick1_eventRelease e c src rt⟩

theorem Device.releases_tickRelease (r : Rel) : d.Releases (d.tickRelease e c r) :=
  .ite ⟨d.soft_task _, fun _ _ => .inl rfl, rfl⟩ (d.releases_release he hc r)

end

end

/-! ## The relation at t_HOP -/

/-- A register that t_HOP reads and no release writes: of the system, the tick and the engines, and what configures
tasks, failover, the start and the rings. -/
abbrev HopReg (a : Nat) : Prop :=
  a < 0x4028000 ∨ a ∈ [Reg.FO_CFG, Reg.LDR_STAT, Reg.NVM_QUEUE, Reg.EVR_RING] ∨
    (0x4030000 ≤ a ∧ a < 0x4038000 ∧ a % 32 < 8)

theorem not_relReg_hop {a : Nat} (h : HopReg a) : ¬RelReg a := by
  simp only [HopReg, Reg.FO_CFG, Reg.LDR_STAT, Reg.NVM_QUEUE, Reg.EVR_RING, List.mem_cons, List.not_mem_nil, or_false] at h
  rintro (⟨e, c, he, hc, h2⟩ | h2 | h2)
  · simp only [Reg.TASK_STAT, Reg.TASK_CNT] at h2
    omega
  · simp only [Reg.EVR_LOSS] at h2
    omega
  · simp only [Reg.TASK_GRID_STAT] at h2
    omega

/-- Work of t_HOP: the tick and the registers that it reads stay, and contexts change by releases alone. -/
structure Device.HopWork (d t : Device) : Prop where
  spares : d.Spares HopReg t
  pends : ∀ (e : Eng) (c : CtxNo), d.Pends t e c

/-- The registers that no operation of t_HOP but a release writes. -/
abbrev StillReg (a : Nat) : Prop := HopReg a ∨ (0x4030000 ≤ a ∧ a < 0x4038000)

namespace Device.HopWork

theorem refl (d : Device) : d.HopWork d := ⟨.refl d, fun _ _ => .inl rfl⟩

theorem trans {d t u : Device} (h : d.HopWork t) (g : t.HopWork u) : d.HopWork u :=
  ⟨h.spares.trans g.spares, fun e c => (h.pends e c).trans (g.pends e c)⟩

theorem ite {d t u : Device} {p : Prop} [Decidable p] (h : d.HopWork t) (g : d.HopWork u) :
    d.HopWork (if p then t else u) := by split <;> assumption

theorem forN {f : Nat → Device → Device} (n : Nat) (h : ∀ i, i < n → ∀ x : Device, x.HopWork (f i x)) (d : Device) :
    d.HopWork (forN n f d) := forN_rel refl trans n h d

theorem of_still {d t : Device} (h : d.Spares StillReg t) : d.HopWork t where
  spares := ⟨h.tick, fun a ha => h.regs a (.inl ha)⟩
  pends := fun e c => .of_rd (h.regs _ (.inr (by simp only [Reg.TASK_STAT]; omega)))

theorem of_releases {d t : Device} (h : d.Releases t) : d.HopWork t :=
  ⟨.of_soft h.soft fun _ => not_relReg_hop, h.pends⟩

section
variable {d t : Device} (h : d.HopWork t)
include h

theorem fld {f : Fld} (hf : HopReg f.addr) : t.fld f = d.fld f := Device.fld_congr (h.spares.regs _ hf)

theorem bit {f : Fld} (hf : HopReg f.addr) : t.bit f = d.bit f := by rw [Device.bit, h.fld hf, Device.bit]

theorem isLane : t.isLane = d.isLane := by
  have : t.role = d.role := h.fld (f := Reg.SYS_ROLE_STRAP_ROLE) (by decide)
  simp only [Device.isLane, this]

theorem tickCount : t.tickCount = d.tickCount := by
  rw [Device.tickCount, h.spares.regs _ (by decide), h.spares.regs _ (by decide), Device.tickCount]

end

end Device.HopWork

/-! ## The release point (R180, R184) -/

/-- What a turn of a loop brings about, and no turn undoes, holds after the loop. -/
theorem forN_reaches {r : Device → Device → Prop} {Q : Device → Prop} (hrefl : ∀ x, r x x)
    (htrans : ∀ {x y z}, r x y → r y z → r x z) (hkeep : ∀ {x y}, r x y → Q x → Q y) {f : Nat → Device → Device} {n i : Nat}
    (hi : i < n) (hf : ∀ j, j < n → ∀ x, r x (f j x)) {d : Device} (hset : ∀ x, r d x → Q (f i x)) : Q (forN n f d) := by
  induction n with
  | zero => exact absurd hi (Nat.not_lt_zero i)
  | succ n ih =>
    rcases Nat.lt_succ_iff_lt_or_eq.mp hi with h | rfl
    · exact hkeep (hf n (Nat.lt_succ_self n) _) (ih h fun j hj => hf j (Nat.lt_succ_of_lt hj))
    · exact hset _ (forN_rel hrefl htrans i (fun j hj => hf j (Nat.lt_succ_of_lt hj)) d)

/-- The turn of context c of engine e in the periodic releases. -/
def Device.periodicTurn (e c : Nat) (d : Device) : Device :=
  if d.periodicNow e c then d.tickRelease e c (d.mkRel e c 0 0 d.tick.boundaryTs none) else d

theorem Device.periodicReleases_eq (d : Device) :
    d.periodicReleases = forN 24 (fun e => forN 16 (Device.periodicTurn e)) d := rfl

section
variable (d : Device)

theorem Device.releases_periodicTurn {e c : Nat} (he : e < 32) (hc : c < 16) : d.Releases (d.periodicTurn e c) :=
  .ite (d.releases_tickRelease he hc _) (.refl d)

theorem Device.releases_periodicEngine {e : Nat} (he : e < 24) : d.Releases (forN 16 (Device.periodicTurn e) d) :=
  forN_rel Device.Releases.refl Device.Releases.trans 16
    (fun _ hc x => x.releases_periodicTurn (Nat.lt_trans he (by decide)) hc) d

theorem Device.releases_periodic : d.Releases d.periodicReleases :=
  forN_rel Device.Releases.refl Device.Releases.trans 24 (fun _ he x => x.releases_periodicEngine he) d

theorem Device.releases_timers (l : List Nat) : d.Releases (d.timerReleases l) := by
  induction l generalizing d with
  | nil => exact .refl d
  | cons src t ih =>
    have he : d.fld (Reg.TASK_ROUTE_ENG src) < 32 := d.fld_lt _
    have hc : d.fld (Reg.TASK_ROUTE_CTX src) < 16 := d.fld_lt _
    rw [Device.timerReleases]
    exact .trans (.ite (.refl d) (.ite (d.releases_tickRelease he hc _) (d.releases_eventRelease he hc _ _))) (ih _)

end

/-- A periodic context of an engine that runs, whose turn a tick is. -/
structure Device.DueAt (d : Device) (e : Eng) (c : CtxNo) : Prop where
  single : d.isLane = false
  now : d.periodicNow e c = true
  runs : d.engState e = 3

theorem Device.DueAt.congr {d t : Device} {e : Eng} {c : CtxNo} (h : d.DueAt e c) (g : d.HopWork t) : t.DueAt e c := by
  have hcfg : HopReg (Reg.TASK_CFG e c) := .inr (.inr (by simp only [Reg.TASK_CFG]; omega))
  have hper : HopReg (Reg.TASK_PER e c) := .inr (.inr (by simp only [Reg.TASK_PER]; omega))
  have hce : HopReg (Reg.CE_STATUS e) := .inl (by simp only [Reg.CE_STATUS]; omega)
  refine ⟨g.isLane.trans h.single, ?_, (g.fld hce).trans h.runs⟩
  have hnow := h.now
  simp only [Device.periodicNow] at hnow ⊢
  rwa [g.bit hcfg, g.fld hcfg, g.fld hper, g.fld hper, g.tickCount]

/-- At the turn of a context that is due it is PENDING, if it was IDLE or PENDING. -/
theorem Device.DueAt.turn {d : Device} {e : Eng} {c : CtxNo} (h : d.DueAt e c)
    (hs : d.ctxState e c = 0 ∨ d.ctxState e c = 1) : (d.periodicTurn e c).ctxState e c = 1 := by
  rcases hs with h0 | h1
  · have hv : ¬d.voted e = true := by simp [Device.voted, h.single]
    rw [Device.periodicTurn, if_pos h.now, Device.tickRelease, if_neg hv]
    exact d.release_pending e c _ h.runs h0
  · exact ((d.releases_periodicTurn (Nat.lt_trans e.isLt (by decide)) c.isLt).pends e c).pending h1

/-- The periodic releases leave a context that is due PENDING. -/
theorem Device.DueAt.released {d : Device} {e : Eng} {c : CtxNo} (h : d.DueAt e c)
    (hs : d.ctxState e c = 0 ∨ d.ctxState e c = 1) : d.periodicReleases.ctxState e c = 1 := by
  have hkeep {x y : Device} (g : x.Releases y) : x.ctxState e c = 1 → y.ctxState e c = 1 := (g.pends e c).pending
  have hwait {x : Device} (g : d.Releases x) : x.ctxState e c = 0 ∨ x.ctxState e c = 1 := by
    rcases g.pends e c with g | ⟨-, g⟩
    · rwa [g]
    · exact .inr g
  rw [Device.periodicReleases_eq]
  refine forN_reaches (Q := fun t => t.ctxState e c = 1) Device.Releases.refl Device.Releases.trans hkeep e.isLt
    (fun _ he x => x.releases_periodicEngine he) fun x hx => ?_
  refine forN_reaches (Q := fun t => t.ctxState e c = 1) Device.Releases.refl Device.Releases.trans hkeep c.isLt
    (fun _ hc y => y.releases_periodicTurn (Nat.lt_trans e.isLt (by decide)) hc) fun y hy => ?_
  exact (h.congr (.of_releases (hx.trans hy))).turn (hwait (hx.trans hy))

end Sys2Proof.Machine
end

section
/-! SUPPORT. The operations of t_HOP (R204, R207, R208, R226, R288, R361, R368–R371): each leaves the tick and the registers
that t_HOP reads alone. -/

namespace Sys2Proof.Machine

section
variable (d : Device)

/-- Releases and events at t_HOP, state of units, and registers of units. -/
theorem Device.still_raise (code : Nat) (snaps : List Word) : d.Spares StillReg (d.raise code snaps) :=
  d.spares_raise code snaps (by decide)

theorem Device.still_finishCmd (p : Port) (code : Nat) (h : ¬StillReg p.stat) : d.Spares StillReg (d.finishCmd p code) :=
  .of_soft (S := (· = p.stat)) (d.soft_finishCmd p code rfl) fun _ ha e => h (e ▸ ha)

theorem Device.still_fo (x : FoState) : d.Spares StillReg { d with fo := x } := .of_eq rfl rfl
theorem Device.still_sc (x : ScState) : d.Spares StillReg { d with sc := x } := .of_eq rfl rfl
theorem Device.still_img (x : ImgState) : d.Spares StillReg { d with img := x } := .of_eq rfl rfl

/-! ## Inputs -/

theorem Device.still_putMap (m : SMap Byte) : d.Spares StillReg (d.putMap m) :=
  .foldl _ (fun x _ => x.spares_setBytes _ _) _

theorem Device.still_hopInputs : d.Spares StillReg d.hopInputs := by
  have hpart (x : Device) (a n : Nat) (m : SMap Byte) : x.Spares StillReg ((x.zeroRange a n).putMap m) :=
    (x.spares_zeroRange a n).trans (Device.still_putMap _ m)
  simp only [Device.hopInputs]
  exact ((hpart d _ _ _).trans (hpart _ _ _ _)).trans (.foldl _ (fun x ar => hpart x _ _ _) _)

theorem Device.still_superviseOne (i : Nat) : d.Spares StillReg (d.superviseOne i) := by
  unfold Device.superviseOne
  extract_lets at_ len valid age fo d1 word d2 fo2 old l d3
  have h1 : d.Spares StillReg d1 := d.still_fo _
  have h2 : d1.Spares StillReg d2 := d1.spares_setBytes _ _
  have h3 : d2.Spares StillReg d3 := (d2.spares_setBytes _ _).trans (Device.spares_setF _ _ (by decide))
  exact (h1.trans h2).trans (.ite (d2.still_fo _) (h3.trans (.ite (d3.still_raise _ _) (.refl d3))))

theorem Device.still_supervise : d.Spares StillReg d.supervise :=
  .forN 64 (fun i _ x => .ite (x.still_superviseOne i) (.refl x)) d

/-! ## Connections of SC -/

theorem stillReg_sc {a : Nat} (h1 : 0x40c0000 ≤ a) (h2 : a < 0x40d0000) : ¬StillReg a := by
  simp only [StillReg, HopReg, Reg.FO_CFG, Reg.LDR_STAT, Reg.NVM_QUEUE, Reg.EVR_RING, List.mem_cons, List.not_mem_nil,
    or_false]
  omega

section
variable {n : Nat} (hn : n < 256)
include hn

theorem stillReg_conn : ¬StillReg (Reg.SC_CONN_W5 n) ∧ ¬StillReg (Reg.SC_CONN_W6 n) ∧ ¬StillReg (Reg.SC_CONN_W7 n) := by
  refine ⟨stillReg_sc ?_ ?_, stillReg_sc ?_ ?_, stillReg_sc ?_ ?_⟩ <;>
  · simp only [Reg.SC_CONN_W5, Reg.SC_CONN_W6, Reg.SC_CONN_W7]
    omega

theorem Device.still_w5 {f : Fld} (v : Nat) (hf : f.addr = Reg.SC_CONN_W5 n) : d.Spares StillReg (d.setF f v) :=
  d.spares_setF v (by rw [hf]; exact (stillReg_conn hn).1)

theorem Device.still_scTo (st : Nat) : d.Spares StillReg (d.scTo n st) :=
  .ite (.refl d) ((d.still_w5 hn _ rfl).trans (Device.still_raise _ _ _))

theorem Device.still_scNoRun : d.Spares StillReg (d.scNoRun n) :=
  ((d.still_w5 hn _ rfl).trans (Device.still_w5 _ hn _ rfl)).trans (Device.still_w5 _ hn _ rfl)

theorem Device.still_scPass (c : List Byte) : d.Spares StillReg (d.scPass n c) := by
  obtain ⟨-, h6, h7⟩ := stillReg_conn hn
  unfold Device.scPass
  extract_lets d1 st run d2 given d3
  have h1 : d.Spares StillReg d1 :=
    (((d.spares_setF _ h6).trans (Device.still_w5 _ hn _ rfl)).trans (Device.still_w5 _ hn _ rfl)).trans
      (Device.spares_setF _ _ h7)
  have h2 : d1.Spares StillReg d2 := d1.still_w5 hn _ rfl
  have h3 : d2.Spares StillReg d3 := ((d2.still_sc _).trans (Device.still_scTo _ hn _)).trans (Device.still_scNoRun _ hn)
  refine h1.trans (.ite ((d1.still_sc _).trans (Device.still_scTo _ hn _)) (h2.trans ?_))
  exact .ite (.ite (.ite (h3.trans (d3.still_raise _ _)) h3) (d2.still_w5 hn _ rfl)) (.refl d2)

theorem Device.still_scFail (err : Nat) (c : List Byte) : d.Spares StillReg (d.scFail n err c) := by
  obtain ⟨-, -, h7⟩ := stillReg_conn hn
  unfold Device.scFail
  extract_lets d1 d2 d3
  have h1 : d.Spares StillReg d1 :=
    ((d.still_w5 hn _ rfl).trans (Device.still_w5 _ hn _ rfl)).trans (Device.still_scNoRun _ hn)
  have h2 : d1.Spares StillReg d2 := by
    refine (d1.spares_setF (f := Reg.SC_CONN_W7_FAILED n) _ h7).trans (Device.spares_setF _ _ ?_)
    split
    · decide
    · split
      · decide
      · split <;> decide
  have h3 : d2.Spares StillReg d3 := .ite (d2.still_raise _ _) (d2.still_raise _ _)
  exact ((h1.trans h2).trans h3).trans (.ite (d3.still_scTo hn _) (.refl d3))

theorem Device.still_scStale : d.Spares StillReg (d.scStale n) := .ite (d.still_scTo hn _) (.refl d)

theorem Device.still_scWatch : d.Spares StillReg (d.scWatch n) :=
  .ite (.trans (.ite (d.still_scTo hn _) (.refl d)) (Device.still_scNoRun _ hn)) (.refl d)

theorem Device.still_scProcess (c : List Byte) (v : Option Nat) : d.Spares StillReg (d.scProcess n c v) := by
  unfold Device.scProcess
  extract_lets code fresh sc d1 j d2 d3
  have h1 : d.Spares StillReg d1 := .ite (d.still_sc _) (.refl d)
  clear_value j
  have h2 : d1.Spares StillReg d2 := by
    simp only [d2]
    split
    · exact d1.still_scPass hn c
    · exact d1.still_scFail hn _ c
    · exact .refl d1
  have h3 : d2.Spares StillReg d3 := .ite (.refl d2) (d2.still_w5 hn _ rfl)
  exact (((h1.trans h2).trans h3).trans (d3.still_scStale hn)).trans (Device.still_scWatch _ hn)

theorem Device.still_scHold : d.Spares StillReg (d.scHold n) :=
  .ite (d.still_w5 hn _ rfl) (.ite (d.still_w5 hn _ rfl) (.refl d))

end

theorem Device.still_scBlock (n : Nat) : d.Spares StillReg (d.scBlock n) := by
  have hsubst : d.Spares StillReg (d.scSubst n) := .ite (d.still_sc _) (.refl d)
  exact hsubst.trans (Device.spares_setBytes _ _ _)

theorem Device.still_scSolo : d.Spares StillReg d.scSolo := by
  simp only [Device.scSolo]
  exact .ite ((d.still_sc _).trans (Device.still_raise _ _ _)) (d.still_sc _)

theorem Device.still_scStatus : d.Spares StillReg d.scStatus := by
  have hack {i : Nat} (hi : i < 8) : ¬StillReg (Reg.SC_ACKREQ i) :=
    stillReg_sc (by simp only [Reg.SC_ACKREQ]; omega) (by simp only [Reg.SC_ACKREQ]; omega)
  exact .trans (((d.spares_setF _ (by decide)).trans (Device.spares_setF _ _ (by decide))).trans
    (Device.spares_setF _ _ (by decide))) (.forN 8 (fun _ hi x => x.spares_wr _ (hack hi)) _)

/-- Connections leave contexts alone but for the group sources that they fire. -/
theorem Device.hopWork_scHop : d.HopWork d.scHop := by
  simp only [Device.scHop]
  have hsolo := (d.still_sc { d.sc with fresh := [] }).trans (Device.still_scSolo _)
  refine (((Device.HopWork.of_still hsolo).trans (.of_still (.forN 256 (fun n hn x => .ite ?_ (.refl x)) _))).trans
    (.forN 32 (fun g _ x => .ite (.of_releases (x.releases_fire _)) (.refl x)) _)).trans
    (.of_still (Device.still_scStatus _))
  exact ((x.still_scHold hn).trans (Device.still_scProcess _ hn _ _)).trans (Device.still_scBlock _ n)

/-! ## In-copies, forces and keys -/

theorem stillReg_ecc : SparesEcc StillReg where
  lane := fun a ha hl => by
    have hall : ∀ a ∈ laneRegs, ¬StillReg a := by decide
    exact hall a hl ha
  corr := by decide

/-- Codewords of memory below 2^33 lie below the keys of programs. -/
theorem eccMem_shared {a n k : Nat} (h : a + n < 2 ^ 33) (hk : k ∈ sharedKeys a n) : ¬2 ≤ eccMem k := by
  have hlt : k < 0x40000000 := by
    unfold sharedKeys at hk
    split at hk
    · cases hk
    · simp only [List.mem_map, List.mem_range] at hk
      obtain ⟨i, hi, rfl⟩ := hk
      omega
  rw [eccMem, if_pos hlt]
  split <;> decide

theorem Device.still_busRead {a n : Nat} (h : a + n < 2 ^ 33) : d.Spares StillReg (d.busRead 7 a n).2 := by
  have hread := d.spares_eccReads stillReg_ecc 7 0 (l := sharedKeys a n) fun k hk h2 => absurd h2 (eccMem_shared h hk)
  unfold Device.busRead
  split <;> next hx => rwa [hx] at hread

theorem Device.copyLen_le (i : Nat) : d.copyLen i ≤ 4096 := by
  have : d.fld (Reg.IMG_COPYA_LEN i) < 2 ^ 12 := d.fld_lt _
  simp only [Device.copyLen]
  split <;> omega

/-- The areas of copies and their entries lie in memory. -/
theorem Device.copy_below (i : Nat) :
    d.areaBase (netArea (d.fld (Reg.IMG_COPYB_AREA i))) + d.fld (Reg.IMG_COPYB_AREA_OFF i) + d.copyLen i < 2 ^ 33 := by
  have harea : d.areaBase (netArea (d.fld (Reg.IMG_COPYB_AREA i))) ≤ 0x10E0000 := by
    unfold netArea
    split
    · simp [Device.areaBase, areaI, areaQ, areaM, areaS, areaN]
    · split <;> simp [Device.areaBase, areaI, areaQ, areaM, areaS, areaN, areaA]
  have hoff : d.fld (Reg.IMG_COPYB_AREA_OFF i) < 2 ^ 18 := d.fld_lt _
  have hlen := d.copyLen_le i
  omega

theorem Device.still_inCopies : d.Spares StillReg d.inCopies := by
  refine .forN 64 (fun i _ x => .ite ?_ (.refl x)) d
  have hread := x.still_busRead (x.copy_below i)
  extract_lets n
  split
  · next hx =>
    rw [hx] at hread
    exact hread.trans (Device.spares_setBytes _ _ _)
  · next hx =>
    rw [hx] at hread
    exact hread

theorem Device.still_forceStatus : d.Spares StillReg d.forceStatus :=
  ((d.spares_setF _ (by decide)).trans (Device.spares_setF _ _ (by decide))).trans (Device.spares_wr _ _ (by decide))

theorem Device.still_relocate (recs : List (Nat × Nat)) (m : SMap (Option (Word × Word))) :
    d.Spares StillReg (d.relocate recs m) := by
  induction m generalizing d with
  | nil => exact .refl d
  | cons e t ih =>
    obtain ⟨i, _ | ⟨w0, w1⟩⟩ := e
    · exact ih d
    · refine .trans ?_ (ih _)
      split
      · exact .refl d
      · exact .ite ((d.still_img _).trans (Device.still_raise _ _ _)) ((d.still_img _).trans (Device.still_raise _ _ _))

theorem Device.still_applyForce (x : ForceChg) : d.Spares StillReg (d.applyForce x) := by
  cases x with
  | set i w0 w1 => exact (d.still_img _).trans (Device.still_raise _ _ _)
  | clearAll cause => exact (d.still_img _).trans (Device.still_raise _ _ _)
  | clear i =>
    rw [Device.applyForce]
    split
    · exact (d.still_img _).trans (Device.still_raise _ _ _)
    · exact .refl d

theorem Device.still_applyForces (l : List ForceChg) : d.Spares StillReg (d.applyForces l) := by
  induction l generalizing d with
  | nil => exact .refl d
  | cons x t ih => exact (d.still_applyForce x).trans (ih _)

theorem Device.still_forcesAtHop : d.Spares StillReg d.forcesAtHop := by
  unfold Device.forcesAtHop
  extract_lets img d0 own d1 img2 d2
  have h0 : d.Spares StillReg d0 := (d.still_img _).trans (Device.still_relocate _ _ _)
  have h1 : d0.Spares StillReg d1 :=
    ((d0.still_applyForces _).trans (Device.spares_setF _ _ (by decide))).trans (Device.still_forceStatus _)
  have h2 : d1.Spares StillReg d2 := d1.still_img _
  exact h0.trans (.ite d0.still_forceStatus ((h1.trans h2).trans (.ite (d2.still_finishCmd _ _ (by decide)) (.refl d2))))

theorem Device.still_keyAtHop : d.Spares StillReg d.keyAtHop := by
  have hin {i : Nat} (hi : i < 4) : ¬StillReg (Reg.SC_KEY_IN i) :=
    stillReg_sc (by simp only [Reg.SC_KEY_IN]; omega) (by simp only [Reg.SC_KEY_IN]; omega)
  have hclear (x : Device) : x.Spares StillReg x.clearKeyIn := .forN 4 (fun _ hi y => y.spares_wr _ (hin hi)) x
  have hkey (slot : Nat) (key : List Byte) : d.Spares StillReg (d.setKey slot key) :=
    (d.still_sc _).trans (.ite (Device.spares_setF _ _ (by decide)) (Device.spares_setF _ _ (by decide)))
  unfold Device.keyAtHop
  split
  · exact .refl d
  · next slot key h =>
    refine .ite (.refl d) ?_
    exact (((hkey slot key).trans (Device.still_raise _ _ _)).trans (Device.still_sc _ _)).trans
      (.ite ((Device.still_finishCmd _ _ _ (by decide)).trans (hclear _)) (.refl _))

end

end Sys2Proof.Machine
end

section
/-! SUPPORT. t_HOP of a device that is no lane (R204, R207, R180): its parts in order, I bytes 0 to 3, and the releases of
the tick. -/

namespace Sys2Proof.Machine

/-! ## What a device that is no lane passes over -/

section
variable {d : Device}

theorem Device.copyApply_off (h : d.bit Reg.FO_CFG_EN = false) : d.copyApply = d := if_pos (by simp [Device.foTakes, h])

theorem Device.stationAccept_off (h : d.bit Reg.FO_CFG_ST_EN = false) : d.stationAccept = d := if_pos (by simp [h])

theorem Device.nvmRing_off (h : d.bit Reg.NVM_QUEUE_EN = false) : d.nvmRing = d := by
  rw [Device.nvmRing, Device.nvmTake, if_pos (by simp [h])]

theorem Device.evrRing_off (h : d.bit Reg.EVR_RING_EN = false) : d.evrRing = d := by
  unfold Device.evrRing
  split
  · rw [Device.evrTake, if_pos (by simp [h])]
  · rfl

theorem Device.endMigration_off (h : d.fld Reg.LDR_STAT_RTYPE ≠ 2) : d.endMigration = d := if_neg fun hn => h hn.2

variable (hl : d.isLane = false)
include hl

theorem Device.readmitDone_single : d.readmitDone = d := if_neg (by simp [hl])

theorem Device.hopTime_single : d.hopTime = d := by
  rw [Device.hopTime, hl]
  rfl

theorem Device.votesSelf_single : d.votesSelf = false := by rw [Device.votesSelf, hl]; rfl

theorem Device.hopExclude_single : d.hopExclude = d := if_pos (by rw [Device.votesSelf_single hl]; rfl)

theorem Device.linkExclude_single : d.linkExclude = d := by
  simp [Device.linkExclude, Device.votesSelf_single hl]

end

/-! ## The parts of t_HOP -/

/-- t_HOP up to the inputs, connections, forces and keys. -/
def Device.hopPrepared (d : Device) : Device :=
  ({ d with tick := { d.tick with phase := 2 } } : Device).copyApply.readmitDone.hopTime.hopInputs.stationAccept
    |>.supervise.scHop.inCopies.forcesAtHop.keyAtHop

theorem exec_hopClose (s : State) : exec .hopClose s =
    run (fun d => if !d.ticking ∨ d.tick.phase ≠ 1 then d else
      d.hopPrepared.hopFlags.hopExclude.linkExclude.endMigration.releasePoint.nvmRing.evrRing) s := rfl

/-- A device that is no lane, with neither failover nor stations. -/
structure Device.Single (d : Device) : Prop where
  lane : d.isLane = false
  failover : d.bit Reg.FO_CFG_EN = false
  stations : d.bit Reg.FO_CFG_ST_EN = false

theorem Device.Single.congr {d t : Device} (h : d.Single) (g : d.HopWork t) : t.Single :=
  ⟨g.isLane.trans h.lane, (g.bit (by decide)).trans h.failover, (g.bit (by decide)).trans h.stations⟩

theorem Device.hopWork_prepared {d : Device} (h : d.Single) :
    ({ d with tick := { d.tick with phase := 2 } } : Device).HopWork d.hopPrepared := by
  have h0 : ({ d with tick := { d.tick with phase := 2 } } : Device).Single := ⟨h.lane, h.failover, h.stations⟩
  rw [Device.hopPrepared, Device.copyApply_off h0.failover, Device.readmitDone_single h0.lane,
    Device.hopTime_single h0.lane]
  generalize ({ d with tick := { d.tick with phase := 2 } } : Device) = x at h0 ⊢
  have hin : x.HopWork x.hopInputs := .of_still x.still_hopInputs
  rw [Device.stationAccept_off (h0.congr hin).stations]
  exact ((((hin.trans (.of_still (Device.still_supervise _))).trans (Device.hopWork_scHop _)).trans
    (.of_still (Device.still_inCopies _))).trans (.of_still (Device.still_forcesAtHop _))).trans
      (.of_still (Device.still_keyAtHop _))

/-! ## I bytes 0 to 3 -/

theorem Device.areaBase_I (d : Device) : d.areaBase areaI = 0x1000000 := rfl

theorem Device.hopWork_hopFlags (d : Device) : d.HopWork d.hopFlags :=
  .of_still ((d.spares_zeroRange _ _).trans (Device.spares_setBytes _ _ _))

/-- What I bytes 0 to 3 tell: the first tick, the lock of the source, and whether a force is set. -/
def Device.flagWord (d : Device) : Nat :=
  b2n (d.tickCount == 0) + 2 * b2n (d.fld Reg.TICK_STATUS_LOCK == 1) + 4 * b2n (!d.img.force.isEmpty)

theorem Device.num_hopFlags {d : Device} (h : d.Single) : d.hopFlags.num 0x1000000 4 = d.flagWord := by
  have hv : d.hopFlags = (d.zeroRange 0x1000000 4).setNum 0x1000000 4 d.flagWord := by
    simp [Device.hopFlags, Device.setNum, Device.flagWord, Device.areaBase_I, h.lane, Device.withheld, h.failover,
      lockLOCKED, b2n]
  have hlt : d.flagWord < 256 ^ 4 := by
    have hb (b : Bool) : b2n b ≤ 1 := by cases b <;> decide
    have h1 := hb (d.tickCount == 0)
    have h2 := hb (d.fld Reg.TICK_STATUS_LOCK == 1)
    have h3 := hb (!d.img.force.isEmpty)
    simp only [Device.flagWord]
    omega
  rw [hv, Device.num_setNum, Nat.mod_eq_of_lt hlt]

theorem Device.setBytes_img (d : Device) (a : Nat) (l : List Byte) : (d.setBytes a l).img = d.img := by
  obtain ⟨m, hm⟩ := d.setBytes_eq a l
  rw [hm]

theorem Device.hopFlags_img (d : Device) : d.hopFlags.img = d.img := Device.setBytes_img _ _ _

/-! ## The release point -/

theorem Device.releases_start (d : Device) : d.Releases d.startReleases := by
  refine forN_rel Device.Releases.refl Device.Releases.trans 24 (fun e he x => ?_) d
  split
  · exact x.releases_tickRelease (Nat.lt_trans he (by decide)) (by decide) _
  · exact .refl x

/-- The device at the release point: no release waits, and from tick 1 on event releases are taken. -/
def Device.releasing (d : Device) : Device :=
  if d.tickCount = 0 then { d with task := { d.task with boundarySet := [], timerFired := [] } }
  else { d with task := { d.task with boundarySet := [], timerFired := [], tick1 := true } }

/-- The releases of a tick of a device that is no lane. -/
theorem Device.releases_point {d : Device} (hl : d.isLane = false) : d.releasing.Releases d.releasePoint := by
  have hlane : ¬(d.isLane && d.fld Reg.TRI_LANE_STAT_STATE == lsReadmit) = true := by simp [hl]
  unfold Device.releasePoint Device.releasing
  rw [if_neg hlane]
  split
  · exact Device.releases_start _
  · exact (Device.releases_periodic _).trans (Device.releases_timers _ _)

theorem Device.hopWork_releasing (d : Device) : d.HopWork d.releasing := by
  unfold Device.releasing
  exact .ite (.of_still (.of_eq rfl rfl)) (.of_still (.of_eq rfl rfl))

/-- From tick 1 on event releases are taken, and a context that is due is PENDING. -/
theorem Device.releasePoint_due {d : Device} (hl : d.isLane = false) (hc : 1 ≤ d.tickCount) :
    d.releasePoint.task.tick1 = true ∧ ∀ (e : Eng) (c : CtxNo), d.DueAt e c →
      d.ctxState e c = 0 ∨ d.ctxState e c = 1 → d.releasePoint.ctxState e c = 1 := by
  have hlane : ¬(d.isLane && d.fld Reg.TRI_LANE_STAT_STATE == lsReadmit) = true := by simp [hl]
  have hne : d.tickCount ≠ 0 := by omega
  have hpoint : d.releasePoint = d.releasing.periodicReleases.timerReleases d.task.timerFired := by
    rw [Device.releasePoint, if_neg hlane, if_neg hne, Device.releasing, if_neg hne]
  refine ⟨?_, fun e c hdue hs => ?_⟩
  · rw [(Device.releases_point hl).tick1, Device.releasing, if_neg hne]
  · have hdue' := hdue.congr d.hopWork_releasing
    have hs' : d.releasing.ctxState e c = d.ctxState e c := by
      rw [Device.releasing, if_neg hne]
      rfl
    rw [hpoint]
    exact ((Device.releases_timers _ _).pends e c).pending (hdue'.released (by rwa [hs']))

end Sys2Proof.Machine
end

section
/-! SUPPORT. What t_HOP leaves in a device that is no lane (R180, R207). -/

namespace Sys2Proof.Machine

/-- What t_HOP leaves, before Sluice. -/
def Device.hopClosed (d : Device) : Device :=
  d.hopPrepared.hopFlags.hopExclude.linkExclude.endMigration.releasePoint.nvmRing.evrRing

theorem completes_hopClose {s : State} {P : Device → Prop} (ht : s.dev.ticking = true) (hp : s.dev.tick.phase = 1)
    (hP : P s.dev.hopClosed.sluice) : Completes .hopClose s P :=
  completes_run (exec_hopClose s) (by rw [if_neg (by simp [ht, hp]), Device.hopClosed]) hP

/-- A device that is no lane, with no migration, no stores' rings, and neither failover nor stations. -/
structure Device.Quiet (d : Device) : Prop extends d.Single where
  migration : d.fld Reg.LDR_STAT_RTYPE ≠ 2
  nvm : d.bit Reg.NVM_QUEUE_EN = false
  evr : d.bit Reg.EVR_RING_EN = false

theorem Device.Quiet.congr {d t : Device} (h : d.Quiet) (g : d.HopWork t) : t.Quiet where
  toSingle := h.toSingle.congr g
  migration := by
    rw [g.fld (f := Reg.LDR_STAT_RTYPE) (by decide)]
    exact h.migration
  nvm := (g.bit (by decide)).trans h.nvm
  evr := (g.bit (by decide)).trans h.evr

theorem Device.Single.with_tick {d : Device} (h : d.Single) (k : TickState) : ({ d with tick := k } : Device).Single :=
  ⟨h.lane, h.failover, h.stations⟩

theorem Device.Quiet.with_tick {d : Device} (h : d.Quiet) (k : TickState) : ({ d with tick := k } : Device).Quiet :=
  ⟨h.toSingle.with_tick k, h.migration, h.nvm, h.evr⟩

theorem Device.Single.prepared {d : Device} (h : d.Single) : d.hopPrepared.Single :=
  (h.with_tick _).congr (Device.hopWork_prepared h)

theorem Device.hopWork_point {d : Device} (hl : d.isLane = false) : d.HopWork d.releasePoint :=
  d.hopWork_releasing.trans (.of_releases (Device.releases_point hl))

/-- The release point changes neither memory nor images. -/
theorem Device.releasePoint_keeps {d : Device} (hl : d.isLane = false) :
    d.releasePoint.mem = d.mem ∧ d.releasePoint.img = d.img := by
  obtain ⟨r, v, k, m, hf⟩ := (Device.releases_point hl).soft.form
  rw [hf, Device.releasing]
  split <;> exact ⟨rfl, rfl⟩

/-- The parts of t_HOP that such a device goes through. -/
theorem Device.Quiet.hopClosed {d : Device} (h : d.Quiet) : d.hopClosed = d.hopPrepared.hopFlags.releasePoint := by
  have hflags := (h.with_tick _).congr ((Device.hopWork_prepared h.toSingle).trans (Device.hopWork_hopFlags _))
  have hpoint := hflags.congr (Device.hopWork_point hflags.lane)
  rw [Device.hopClosed, Device.hopExclude_single hflags.lane, Device.linkExclude_single hflags.lane,
    Device.endMigration_off hflags.migration, Device.nvmRing_off hpoint.nvm, Device.evrRing_off hpoint.evr]

theorem Device.num_congr {d t : Device} (h : t.mem = d.mem) (a n : Nat) : t.num a n = d.num a n := by
  simp only [Device.num, Device.bytes, Device.byte, h]

/-- A context that is due stays due where the tick's own state alone changed. -/
theorem Device.DueAt.with_tick {d : Device} {e : Eng} {c : CtxNo} (h : d.DueAt e c) (k : TickState) :
    ({ d with tick := k } : Device).DueAt e c := ⟨h.single, h.now, h.runs⟩

/-- t_HOP: the phase, I bytes 0 to 3, and the contexts that are due. -/
theorem Device.Quiet.hop_spec {d : Device} (h : d.Quiet) :
    d.hopClosed.sluice.tick.phase = 2 ∧ d.hopClosed.sluice.tickCount = d.tickCount ∧
    d.hopClosed.sluice.num 0x1000000 4 = b2n (d.tickCount == 0) + 2 * b2n (d.hopClosed.sluice.fld Reg.TICK_STATUS_LOCK == 1)
      + 4 * b2n (!d.hopClosed.sluice.img.force.isEmpty) ∧
    (1 ≤ d.tickCount → d.hopClosed.sluice.task.tick1 = true ∧ ∀ (e : Eng) (c : CtxNo), d.DueAt e c → d.ctxState e c = 0 →
      d.hopClosed.sluice.ctxState e c = 1) := by
  have hprep := Device.hopWork_prepared h.toSingle
  have hsingle := h.toSingle.prepared
  have hflags := d.hopPrepared.hopWork_hopFlags
  have hlane := (hsingle.congr hflags).lane
  have hpoint := Device.hopWork_point hlane
  have hall := (hprep.trans hflags).trans hpoint
  obtain ⟨hmem, himg⟩ := Device.releasePoint_keeps hlane
  have hcount : d.hopPrepared.hopFlags.releasePoint.tickCount = d.tickCount := hall.tickCount
  rw [h.hopClosed]
  refine ⟨?_, ?_, ?_, fun hc => ?_⟩
  · rw [Device.sluice_tick, hall.spares.tick]
  · rw [Device.tickCount, Device.rd_sluice _ (by decide), Device.rd_sluice _ (by decide), ← Device.tickCount, hcount]
  · have hlock : d.hopPrepared.hopFlags.releasePoint.fld Reg.TICK_STATUS_LOCK = d.hopPrepared.fld Reg.TICK_STATUS_LOCK :=
      (hflags.trans hpoint).fld (by decide)
    have hprepCount : d.hopPrepared.tickCount = d.tickCount := hprep.tickCount
    rw [Device.num_congr ((Device.sluice_mem _).trans hmem), Device.num_hopFlags hsingle, Device.flagWord, hprepCount,
      Device.fld_sluice _ (by decide), hlock, Device.sluice_img, himg, Device.hopFlags_img]
  · have hcount' : d.hopPrepared.hopFlags.tickCount = d.tickCount := (hprep.trans hflags).tickCount
    obtain ⟨h1, hdue⟩ := Device.releasePoint_due hlane (by rwa [hcount'])
    refine ⟨by rw [Device.sluice_task, h1], fun e c hd hs => ?_⟩
    have hwait : d.hopPrepared.hopFlags.ctxState e c = 0 ∨ d.hopPrepared.hopFlags.ctxState e c = 1 := by
      rcases (hprep.trans hflags).pends e c with g | ⟨-, g⟩
      · exact .inl (g.trans hs)
      · exact .inr g
    have hgate : (Reg.TASK_STAT_STATE e c).addr ≠ Reg.SF_GATE := by
      simp only [Reg.TASK_STAT_STATE, Reg.TASK_STAT, Reg.SF_GATE]
      omega
    rw [Device.ctxState, Device.fld_sluice _ hgate, ← Device.ctxState]
    exact hdue e c ((hd.with_tick _).congr (hprep.trans hflags)) hwait

end Sys2Proof.Machine
end

section
/-! SUPPORT. Work at t_VOTE that keeps memory, cells, tasks and the tick (R55, R211, R254, R364, R370): the codewords that
the out-copies read, the containers and acknowledgements of SC, and the exchange of a lane. -/

namespace Sys2Proof.Machine

/-! ## The relation -/

theorem Device.KeepsCells.trans {d t u : Device} (h : d.KeepsCells t) (g : t.KeepsCells u) : d.KeepsCells u :=
  ⟨fun n => (g.timers n).trans (h.timers n), fun n => (g.counters n).trans (h.counters n)⟩

/-- Cells are state of the engines. -/
theorem Device.KeepsCells.of_ce {d t : Device} (h : t.ce = d.ce) : d.KeepsCells t :=
  ⟨fun n => by rw [Device.tcell, h, Device.tcell], fun n => by rw [Device.ccell, h, Device.ccell]⟩

/-- Work of t_VOTE: memory, cells, tasks and the tick stay, and the registers that t_HOP's operations leave alone. -/
structure Device.VoteWork (d t : Device) : Prop where
  spares : d.Spares StillReg t
  mem : d.KeepsMem t
  cells : d.KeepsCells t
  task : t.task = d.task

namespace Device.VoteWork

theorem refl (d : Device) : d.VoteWork d := ⟨.refl d, ⟨rfl, rfl, rfl⟩, ⟨fun _ => rfl, fun _ => rfl⟩, rfl⟩

theorem trans {d t u : Device} (h : d.VoteWork t) (g : t.VoteWork u) : d.VoteWork u where
  spares := h.spares.trans g.spares
  mem := h.mem.trans g.mem
  cells := h.cells.trans g.cells
  task := g.task.trans h.task

theorem ite {d t u : Device} {p : Prop} [Decidable p] (h : d.VoteWork t) (g : d.VoteWork u) :
    d.VoteWork (if p then t else u) := by split <;> assumption

theorem forN {f : Nat → Device → Device} (n : Nat) (h : ∀ i, i < n → ∀ x : Device, x.VoteWork (f i x)) (d : Device) :
    d.VoteWork (forN n f d) := forN_rel refl trans n h d

theorem of_img (d : Device) (x : ImgState) : d.VoteWork { d with img := x } :=
  ⟨.of_eq rfl rfl, ⟨rfl, rfl, rfl⟩, ⟨fun _ => rfl, fun _ => rfl⟩, rfl⟩

theorem of_sc (d : Device) (x : ScState) : d.VoteWork { d with sc := x } :=
  ⟨.of_eq rfl rfl, ⟨rfl, rfl, rfl⟩, ⟨fun _ => rfl, fun _ => rfl⟩, rfl⟩

theorem of_wr (d : Device) {a : Nat} (v : Word) (h : ¬StillReg a) : d.VoteWork (d.wr a v) :=
  ⟨d.spares_wr v h, ⟨rfl, rfl, rfl⟩, ⟨fun _ => rfl, fun _ => rfl⟩, rfl⟩

theorem of_lane {d t : Device} (h : d.LaneWork t) : d.VoteWork t where
  spares := .of_lane h stillReg_ecc.lane
  mem := h.keepsMem
  cells := .of_ce h.ce
  task := by
    obtain ⟨r, v, s, f, k, g, m, hf⟩ := h.form
    rw [hf]

theorem sluice (d : Device) : d.VoteWork d.sluice where
  spares := ⟨d.sluice_tick, fun a ha => Device.rd_sluice _ fun e => stillReg_ecc.lane a ha (e ▸ by decide)⟩
  mem := ⟨d.sluice_mem, d.sluice_larea, d.sluice_prog⟩
  cells := .of_ce d.sluice_ce
  task := d.sluice_task

section
variable {d t : Device} (h : d.VoteWork t)
include h

theorem fld {f : Fld} (hf : StillReg f.addr) : t.fld f = d.fld f := Device.fld_congr (h.spares.regs _ hf)

theorem tickCount : t.tickCount = d.tickCount := (Device.HopWork.of_still h.spares).tickCount

theorem readyNow : t.readyNow = d.readyNow := by
  simp only [Device.readyNow, Device.dueNow, h.task, h.tickCount]

end

end Device.VoteWork

section
variable (d : Device)

/-! ## The freeze -/

theorem Device.voteWork_setEcc (k : Nat) (x : Ecc) : d.VoteWork (d.setEcc k x) :=
  ⟨.of_eq rfl rfl, ⟨rfl, rfl, rfl⟩, ⟨fun _ => rfl, fun _ => rfl⟩, rfl⟩

theorem Device.voteWork_eccRead {m e k : Nat} (hk : ¬2 ≤ eccMem k) : d.VoteWork (d.eccRead m e k).2 := by
  unfold Device.eccRead
  split
  · exact .refl d
  · exact .refl d
  · simp only [if_neg hk]
    exact ((d.voteWork_setEcc _ _).trans (.of_wr _ _ stillReg_ecc.corr)).trans (.of_lane (Device.laneWork_raise _ _ _))
  · exact .of_lane (d.laneWork_memFault _ _ _ _)
  · exact .of_lane (d.laneWork_memFault _ _ _ _)

theorem Device.voteWork_eccReads (m e : Nat) {l : List Nat} (hl : ∀ k ∈ l, ¬2 ≤ eccMem k) :
    d.VoteWork (d.eccReads m e l).2 := by
  induction l generalizing d with
  | nil => exact .refl d
  | cons k t ih =>
    have hread := d.voteWork_eccRead (m := m) (e := e) (hl k List.mem_cons_self)
    rw [Device.eccReads]
    split
    · next h =>
      rw [h] at hread
      exact hread.trans (ih _ fun j hj => hl j (List.mem_cons_of_mem _ hj))
    · next h =>
      rw [h] at hread
      exact hread

theorem Device.outCopy_below (i : Nat) :
    d.areaBase areaQ + d.fld (Reg.IMG_COPYA_LOC_OFF i) + d.copyLen i < 2 ^ 33 := by
  have hbase : d.areaBase areaQ ≤ 0x10E0000 := by simp [Device.areaBase, areaI, areaQ]
  have hoff : d.fld (Reg.IMG_COPYA_LOC_OFF i) < 2 ^ 17 := d.fld_lt _
  have hlen := d.copyLen_le i
  omega

theorem Device.voteWork_outCopies : d.VoteWork d.outCopies := by
  refine .forN 64 (fun i _ x => .ite ?_ (.refl x)) d
  have hread := x.voteWork_eccReads 7 0 fun k hk => eccMem_shared (x.outCopy_below i) hk
  extract_lets n src
  split
  · next hx =>
    rw [hx] at hread
    exact hread.trans (.of_img _ _)
  · next hx =>
    rw [hx] at hread
    exact hread

theorem Device.voteWork_freezeImages : d.VoteWork d.freezeImages := by
  rw [Device.freezeImages]
  exact (VoteWork.of_img d _).trans (Device.voteWork_outCopies _)

/-! ## Acknowledgements and containers -/

theorem Device.voteWork_scAckRead : d.VoteWork d.scAckRead := by
  refine .ite (.refl d) (.forN 256 (fun n hn x => ?_) d)
  extract_lets now req d1
  have h1 : x.VoteWork d1 := .ite (.of_wr _ _ (stillReg_conn hn).1) (.refl x)
  exact h1.trans (.of_sc _ _)

theorem Device.voteWork_images (x : ImgState) (y : ScState) : d.VoteWork { d with img := x, sc := y } :=
  ⟨.of_eq rfl rfl, ⟨rfl, rfl, rfl⟩, ⟨fun _ => rfl, fun _ => rfl⟩, rfl⟩

theorem Device.voteWork_scForm {n : Nat} (hn : n < 256) : d.VoteWork (d.scForm n) := by
  obtain ⟨-, h6, h7⟩ := stillReg_conn hn
  unfold Device.scForm
  extract_lets d1
  have h1 : d.VoteWork d1 := (VoteWork.of_wr d _ h6).trans (.of_wr _ _ h7)
  exact h1.trans (d1.voteWork_images _ _)

theorem Device.voteWork_scFormAll : d.VoteWork d.scFormAll :=
  (VoteWork.of_sc d _).trans (.forN 256 (fun _ hn x => .ite (x.voteWork_scForm hn) (.refl x)) _)

/-! ## The exchange of a lane -/

/-- Parcels change links and what was sent alone. -/
def Device.Parcels (d t : Device) : Prop := ∃ g m, t = { d with kl := g, sent := m }

theorem Device.Parcels.refl : d.Parcels d := ⟨d.kl, d.sent, rfl⟩

theorem Device.Parcels.trans {d t u : Device} (h : d.Parcels t) (g : t.Parcels u) : d.Parcels u := by
  obtain ⟨k, m, rfl⟩ := h
  obtain ⟨k', m', rfl⟩ := g
  exact ⟨k', m', rfl⟩

theorem Device.Parcels.ite {d t u : Device} {p : Prop} [Decidable p] (h : d.Parcels t) (g : d.Parcels u) :
    d.Parcels (if p then t else u) := by split <;> assumption

theorem Device.parcels_send (m : Sent) : d.Parcels (d.send m) := .ite (.refl d) ⟨d.kl, _, rfl⟩

theorem Device.parcels_setKlPort (p : Nat) (k : KlPort) : d.Parcels (d.setKlPort p k) := ⟨_, d.sent, rfl⟩

theorem Device.parcels_kloul (p ptype : Nat) (l : List Byte) : d.Parcels (d.kloul p ptype l) := by
  refine .ite ?_ (.refl d)
  simp only [Device.parcelOut]
  exact .ite (d.parcels_send _) (.ite ((d.parcels_setKlPort _ _).trans (Device.parcels_send _ _)) (d.parcels_setKlPort _ _))

theorem Device.parcels_ring (ptype : Nat) (l : List Byte) : d.Parcels (d.ring ptype l) :=
  (d.parcels_kloul _ _ _).trans (Device.parcels_kloul _ _ _ _)

/-- The exchange changes the digest's register, the triad, links and what was sent. -/
structure Device.Exchange (d t : Device) : Prop where
  form : ∃ r k g m, t = { d with regs := r, tri := k, kl := g, sent := m }
  regs : ∀ a, a ≠ Reg.TRI_STATE_DIG → t.rd a = d.rd a

theorem Device.Exchange.of_tri (k : TriState) : d.Exchange { d with tri := k } :=
  ⟨⟨d.regs, k, d.kl, d.sent, rfl⟩, fun _ _ => rfl⟩

theorem Device.Exchange.of_digest (v : Word) : d.Exchange (d.wr Reg.TRI_STATE_DIG v) :=
  ⟨⟨_, d.tri, d.kl, d.sent, rfl⟩, fun _ ha => Device.rd_wr_other _ _ ha⟩

theorem Device.Exchange.of_parcels {d t : Device} (h : d.Parcels t) : d.Exchange t := by
  obtain ⟨g, m, rfl⟩ := h
  exact ⟨⟨d.regs, d.tri, g, m, rfl⟩, fun _ _ => rfl⟩

theorem Device.Exchange.trans {d t u : Device} (h : d.Exchange t) (g : t.Exchange u) : d.Exchange u := by
  obtain ⟨⟨r, k, l, m, rfl⟩, hr⟩ := h
  obtain ⟨⟨r', k', l', m', rfl⟩, gr⟩ := g
  exact ⟨⟨r', k', l', m', rfl⟩, fun a ha => (gr a ha).trans (hr a ha)⟩

theorem Device.Exchange.voteWork {d t : Device} (h : d.Exchange t) : d.VoteWork t := by
  obtain ⟨⟨r, k, g, m, rfl⟩, hr⟩ := h
  exact ⟨⟨rfl, fun a ha => hr a fun e => absurd ha (e ▸ by decide)⟩, ⟨rfl, rfl, rfl⟩, ⟨fun _ => rfl, fun _ => rfl⟩, rfl⟩

theorem Device.exchange_voteSend : d.Exchange d.voteSend := by
  unfold Device.voteSend
  split
  · exact .of_parcels (.refl d)
  · extract_lets _ d1 m d2 _ d3 _ d4
    have h1 : d.Exchange d1 := .of_tri d _
    have h2 : d1.Exchange d2 := by
      simp only [d2]
      split
      · exact .of_digest d1 _
      · exact .of_parcels (.refl d1)
    exact (((h1.trans h2).trans (.of_tri d2 _)).trans (.of_tri d3 _)).trans (.of_parcels (d4.parcels_ring _ _))

end

end Sys2Proof.Machine
end

section
/-! SUPPORT. What t_VOTE leaves (R54–R56, R59, R60, R211). -/

namespace Sys2Proof.Machine

/-! ## The judgement of readiness -/

/-- The device that was ready, before acknowledgements and containers. -/
def Device.voteTaken (d : Device) : Device :=
  ({ d with tick := { d.tick with ready := true, nr3Told := false } } : Device).setF Reg.TICK_STATUS_NR_CONSEC 0

theorem Device.voteReady_eq (d : Device) : d.voteReady = if d.voteTaken.scAckRead.withheld then
    { d.voteTaken.scAckRead with sc := { d.voteTaken.scAckRead.sc with formed := [] } }
    else d.voteTaken.scAckRead.scFormAll := rfl

theorem Device.voteWork_voteReady (d : Device) : d.voteTaken.VoteWork d.voteReady := by
  rw [Device.voteReady_eq]
  exact (Device.voteWork_scAckRead _).trans (.ite (.of_sc _ _) (Device.voteWork_scFormAll _))

/-- The device that was not ready, before its event. -/
def Device.voteMissed (d : Device) : Device :=
  ((({ d with tick := { d.tick with ready := false, noState := true }, sc := { d.sc with formed := [] } } : Device).setF
    Reg.TICK_FLAGS_NOT_READY 1).inc Reg.TICK_ERR_CNT_NR).inc Reg.TICK_STATUS_NR_CONSEC

/-- A start that migrates fails where its first tick is not ready; any other tick that is not ready only counts. -/
theorem Device.voteNotReady_eq {d : Device} (h : d.fld Reg.LDR_STAT_RTYPE ≠ 2) :
    d.voteNotReady = d.voteMissed.raise 0x048 [] := by
  have hkeep : (d.voteMissed.raise 0x048 []).fld Reg.LDR_STAT_RTYPE = d.fld Reg.LDR_STAT_RTYPE := by
    rw [Device.fld_raise _ _ _ (by decide), Device.voteMissed, Device.fld_congr (Device.rd_inc_other _ (by decide)),
      Device.fld_congr (Device.rd_inc_other _ (by decide)), Device.fld_setF_other _ _ (by decide)]
    rfl
  exact if_neg fun hn => h (hkeep ▸ hn.2.1)

/-! ## The tail of t_VOTE -/

/-- The deadlines that are past leave the record of instances. -/
def Device.pastDropped (d : Device) : Device :=
  { d with task := { d.task with unended := d.task.unended.filter (fun e => decide (d.tickCount < e.2)) } }

/-- What t_VOTE leaves, before Sluice. -/
def Device.voteDone (d : Device) : Device :=
  let d0 := ({ d with tick := { d.tick with phase := 3 } } : Device).freezeImages
  (if d0.readyNow then d0.voteReady else d0.voteNotReady).pastDropped.voteSend

theorem exec_voteFreeze (s : State) : exec .voteFreeze s =
    run (fun d => if !d.ticking ∨ (d.tick.phase ≠ 1 ∧ d.tick.phase ≠ 2) then d else d.voteDone) s := rfl

theorem completes_voteFreeze {s : State} {P : Device → Prop} (ht : s.dev.ticking = true)
    (hp : s.dev.tick.phase = 1 ∨ s.dev.tick.phase = 2) (hP : P s.dev.voteDone.sluice) : Completes .voteFreeze s P := by
  refine completes_run (exec_voteFreeze s) (if_neg ?_) hP
  rcases hp with hp | hp <;> simp [ht, hp]

/-- Memory, cells and releases are as they were. -/
structure Device.Stays (d t : Device) : Prop where
  mem : d.KeepsMem t
  cells : d.KeepsCells t
  rel : t.task.rel = d.task.rel

theorem Device.Stays.trans {d t u : Device} (h : d.Stays t) (g : t.Stays u) : d.Stays u where
  mem := h.mem.trans g.mem
  cells := h.cells.trans g.cells
  rel := g.rel.trans h.rel

theorem Device.Stays.of_eq {d t : Device} (hm : d.KeepsMem t) (hc : t.ce = d.ce) (hr : t.task.rel = d.task.rel) :
    d.Stays t :=
  ⟨hm, .of_ce hc, hr⟩

theorem Device.VoteWork.stays {d t : Device} (h : d.VoteWork t) : d.Stays t := ⟨h.mem, h.cells, by rw [h.task]⟩

/-- What follows the judgement: the exchange and Sluice. -/
structure Device.VoteTail (d t : Device) : Prop where
  spares : d.Spares StillReg t
  stays : d.Stays t
  sc : t.sc = d.sc
  img : t.img = d.img
  evr : t.evr = d.evr

theorem Device.voteTail (d : Device) : d.VoteTail d.pastDropped.voteSend.sluice := by
  have hsend := d.pastDropped.exchange_voteSend
  have hwork := hsend.voteWork.trans (.sluice _)
  have hdrop : d.Spares StillReg d.pastDropped := .of_eq rfl rfl
  have hstays : d.Stays d.pastDropped := .of_eq ⟨rfl, rfl, rfl⟩ rfl rfl
  obtain ⟨r, k, g, m, hf⟩ := hsend.form
  refine ⟨hdrop.trans hwork.spares, hstays.trans hwork.stays, ?_, ?_, ?_⟩
  · rw [Device.sluice_sc, hf]
    rfl
  · rw [Device.sluice_img, hf]
    rfl
  · rw [Device.sluice_evr, hf]
    rfl

/-! ## Ready and not ready -/

/-- The device whose outbound parts froze at t_VOTE. -/
def Device.voteFrozen (d : Device) : Device := ({ d with tick := { d.tick with phase := 3 } } : Device).freezeImages

theorem Device.voteDone_eq (d : Device) : d.voteDone =
    (if d.voteFrozen.readyNow then d.voteFrozen.voteReady else d.voteFrozen.voteNotReady).pastDropped.voteSend := rfl

theorem Device.voteWork_frozen (d : Device) :
    ({ d with tick := { d.tick with phase := 3 } } : Device).VoteWork d.voteFrozen := Device.voteWork_freezeImages _

theorem Device.stays_tick (d : Device) (k : TickState) : d.Stays { d with tick := k } := .of_eq ⟨rfl, rfl, rfl⟩ rfl rfl

theorem Device.stays_frozen (d : Device) : d.Stays d.voteFrozen := (d.stays_tick _).trans d.voteWork_frozen.stays

theorem Device.readyNow_frozen (d : Device) : d.voteFrozen.readyNow = d.readyNow := d.voteWork_frozen.readyNow

/-- A register of the tick, as it was before the freeze. -/
theorem Device.rd_frozen (d : Device) {a : Nat} (h : StillReg a) : d.voteFrozen.rd a = d.rd a :=
  (d.voteWork_frozen.spares.regs a h).trans (d.rd_tick _ a)

theorem Device.fld_frozen (d : Device) {f : Fld} (h : StillReg f.addr) : d.voteFrozen.fld f = d.fld f :=
  Device.fld_congr (d.rd_frozen h)

theorem Device.voteTaken_tick (d : Device) : d.voteTaken.tick = { d.tick with ready := true, nr3Told := false } := by
  rw [Device.voteTaken, Device.setF_tick]

theorem Device.fld_voteTaken (d : Device) : d.voteTaken.fld Reg.TICK_STATUS_NR_CONSEC = 0 := by
  rw [Device.voteTaken, Device.fld_setF_same _ _ _ (by decide), Nat.zero_mod]

theorem Device.stays_taken (d : Device) : d.Stays d.voteTaken :=
  .of_eq ⟨by simp [Device.voteTaken], by simp [Device.voteTaken], by simp [Device.voteTaken]⟩
    (by simp [Device.voteTaken]) (by simp [Device.voteTaken])

/-- A tick that was ready. -/
theorem Device.voteDone_ready {d : Device} (h : d.readyNow = true) :
    d.voteDone.sluice.tick.phase = 3 ∧ d.voteDone.sluice.tick.ready = true ∧
    d.voteDone.sluice.fld Reg.TICK_STATUS_NR_CONSEC = 0 ∧ d.Stays d.voteDone.sluice := by
  rw [Device.voteDone_eq, d.readyNow_frozen, if_pos h]
  have hwork := d.voteFrozen.voteWork_voteReady
  have htail := d.voteFrozen.voteReady.voteTail
  have htick : d.voteFrozen.voteReady.pastDropped.voteSend.sluice.tick = d.voteFrozen.voteTaken.tick :=
    htail.spares.tick.trans hwork.spares.tick
  have htaken := d.voteFrozen.voteTaken_tick
  rw [d.voteWork_frozen.spares.tick] at htaken
  refine ⟨by rw [htick, htaken], by rw [htick, htaken], ?_, ?_⟩
  · rw [Device.fld_congr (htail.spares.regs _ (by decide)), hwork.fld (f := Reg.TICK_STATUS_NR_CONSEC) (by decide),
      Device.fld_voteTaken]
  · exact ((d.stays_frozen.trans d.voteFrozen.stays_taken).trans hwork.stays).trans htail.stays

/-- What a tick that was not ready shows. -/
theorem Device.voteMissed_spec (d : Device) :
    d.voteMissed.tick = { d.tick with ready := false, noState := true } ∧ d.voteMissed.sc.formed = [] ∧
    d.voteMissed.bit Reg.TICK_FLAGS_NOT_READY = true ∧
    d.voteMissed.fld Reg.TICK_ERR_CNT_NR = min (d.fld Reg.TICK_ERR_CNT_NR + 1) (2 ^ Reg.TICK_ERR_CNT_NR.width - 1) ∧
    d.voteMissed.fld Reg.TICK_STATUS_NR_CONSEC = min (d.fld Reg.TICK_STATUS_NR_CONSEC + 1) 15 := by
  refine ⟨by simp only [Device.voteMissed, Device.inc_tick, Device.setF_tick],
    by simp only [Device.voteMissed, Device.inc_sc, Device.setF_sc], (Device.bit_eq_true _ _).mpr ?_, ?_, ?_⟩
  · rw [Device.voteMissed, Device.fld_congr (Device.rd_inc_other _ (by decide)),
      Device.fld_congr (Device.rd_inc_other _ (by decide)), Device.fld_setF_same _ _ _ (by decide)]
    decide
  · rw [Device.voteMissed, Device.fld_congr (Device.rd_inc_other _ (by decide)), Device.fld_inc_same _ _ (by decide),
      Device.fld_setF_other _ _ (by decide)]
    rfl
  · rw [Device.voteMissed, Device.fld_inc_same _ _ (by decide), Device.fld_congr (Device.rd_inc_other _ (by decide)),
      Device.fld_setF_other _ _ (by decide)]
    rfl

theorem Device.stays_missed (d : Device) : d.Stays d.voteMissed :=
  .of_eq ⟨by simp [Device.voteMissed], by simp [Device.voteMissed], by simp [Device.voteMissed]⟩
    (by simp [Device.voteMissed]) (by simp [Device.voteMissed])

/-- A tick that was not ready. -/
theorem Device.voteDone_missed {d : Device} (h : d.readyNow = false) (hr : d.fld Reg.LDR_STAT_RTYPE ≠ 2) :
    (d.voteFrozen.voteMissed.raise 0x048 []).VoteTail d.voteDone.sluice := by
  have hn : ¬d.voteFrozen.readyNow = true := by simp [d.readyNow_frozen, h]
  have hr' : d.voteFrozen.fld Reg.LDR_STAT_RTYPE ≠ 2 := by
    rw [d.fld_frozen (f := Reg.LDR_STAT_RTYPE) (by decide)]
    exact hr
  rw [Device.voteDone_eq, if_neg hn, Device.voteNotReady_eq hr']
  exact Device.voteTail _

theorem Device.voteDone_notReady {d : Device} (h : d.readyNow = false) (hr : d.fld Reg.LDR_STAT_RTYPE ≠ 2) :
    d.voteDone.sluice.tick.phase = 3 ∧ d.voteDone.sluice.tick.ready = false ∧ d.voteDone.sluice.tick.noState = true ∧
    d.voteDone.sluice.bit Reg.TICK_FLAGS_NOT_READY = true ∧
    d.voteDone.sluice.fld Reg.TICK_ERR_CNT_NR = min (d.fld Reg.TICK_ERR_CNT_NR + 1) (2 ^ Reg.TICK_ERR_CNT_NR.width - 1) ∧
    d.voteDone.sluice.fld Reg.TICK_STATUS_NR_CONSEC = min (d.fld Reg.TICK_STATUS_NR_CONSEC + 1) 15 ∧
    d.voteDone.sluice.sc.formed = [] ∧ d.Stays d.voteDone.sluice := by
  have htail := Device.voteDone_missed h hr
  obtain ⟨htick, hformed, hflag, hnr, hconsec⟩ := d.voteFrozen.voteMissed_spec
  have hraise := Device.VoteWork.of_lane (d.voteFrozen.voteMissed.laneWork_raise 0x048 [])
  have hspares := hraise.spares.trans htail.spares
  have hfld {f : Fld} (hf : StillReg f.addr) : d.voteDone.sluice.fld f = d.voteFrozen.voteMissed.fld f :=
    Device.fld_congr (hspares.regs _ hf)
  have hticks : d.voteDone.sluice.tick = { d.tick with phase := 3, ready := false, noState := true } := by
    rw [hspares.tick, htick, d.voteWork_frozen.spares.tick]
  refine ⟨by rw [hticks], by rw [hticks], by rw [hticks], ?_, ?_, ?_, ?_,
    ((d.stays_frozen.trans d.voteFrozen.stays_missed).trans hraise.stays).trans htail.stays⟩
  · rw [Device.bit, hfld (by decide)]
    exact hflag
  · rw [hfld (by decide), hnr, d.fld_frozen (f := Reg.TICK_ERR_CNT_NR) (by decide)]
  · rw [hfld (by decide), hconsec, d.fld_frozen (f := Reg.TICK_STATUS_NR_CONSEC) (by decide)]
  · rw [htail.sc, Device.raise_sc, hformed]

/-! ## The frozen parts -/

/-- A merge of maps in canonical form reads the first one where it holds something. -/
theorem sget_mergeMaps {m n : SMap Byte} {b k : Nat} (hm : swfFrom byte0 b m = true) :
    sget byte0 (mergeMaps m n) k = if sget byte0 m k = byte0 k then sget byte0 n k else sget byte0 m k := by
  induction m generalizing b with
  | nil => rw [mergeMaps, sget, if_pos rfl]
  | cons e t ih =>
    obtain ⟨j, v⟩ := e
    simp only [swfFrom, Bool.and_eq_true, decide_eq_true_eq] at hm
    obtain ⟨⟨-, hv⟩, ht⟩ := hm
    by_cases hjk : j = k
    · subst hjk
      rw [mergeMaps, sget_sinsert_same, sget, if_pos rfl, if_neg hv]
    · rw [mergeMaps, sget_sinsert_other _ _ _ (Ne.symm hjk), sget, if_neg hjk]
      exact ih ht

/-- The parts that a list of ranges takes from memory hold the bytes of every range, and nothing else but zeros. -/
theorem sget_takeRanges {m : SMap Byte} (hm : swf byte0 m = true) (l : List (Nat × Nat)) (k : Nat) :
    (sget byte0 (takeRanges m l) k = sget byte0 m k ∨ sget byte0 (takeRanges m l) k = byte0 k) ∧
    ∀ p ∈ l, p.1 ≤ k → k < p.1 + p.2 → sget byte0 (takeRanges m l) k = sget byte0 m k := by
  induction l with
  | nil => exact ⟨.inr rfl, fun p hp => absurd hp List.not_mem_nil⟩
  | cons q t ih =>
    obtain ⟨a, n⟩ := q
    obtain ⟨hor, hin⟩ := ih
    have hmerge : sget byte0 (takeRanges m ((a, n) :: t)) k = _ := sget_mergeMaps (n := takeRanges m t) (takeRange_wf m a n hm)
    have htake : sget byte0 (takeRange m a n) k = if a ≤ k ∧ k < a + n then sget byte0 m k else byte0 k := by
      rw [takeRange, sget_skeep]
      simp only [Bool.and_eq_true, decide_eq_true_eq]
    by_cases h0 : sget byte0 (takeRange m a n) k = byte0 k
    · rw [if_pos h0] at hmerge
      rw [hmerge]
      refine ⟨hor, fun p hp h1 h2 => ?_⟩
      rcases List.mem_cons.mp hp with rfl | hp
      · rw [if_pos ⟨h1, h2⟩] at htake
        rw [← htake, h0] at hor ⊢
        exact hor.elim id id
      · exact hin p hp h1 h2
    · have hk : a ≤ k ∧ k < a + n := by
        by_contra hn
        exact h0 (htake.trans (if_neg hn))
      rw [if_neg h0, htake, if_pos hk] at hmerge
      exact ⟨.inl hmerge, fun _ _ _ _ => hmerge⟩

/-- Without copy entries the out-copies do nothing. -/
theorem Device.outCopies_none {d : Device} (h : ∀ i, i < 64 → d.bit (Reg.IMG_COPYA_EN i) = false) : d.outCopies = d := by
  refine forN_rel (r := fun x y => x = d → y = d) (fun _ => id) (fun h g e => g (h e)) 64 (fun i hi x hx => ?_) d rfl
  subst hx
  rw [if_neg (by simp [h i hi])]

/-- With neither forces nor copy entries the frozen parts are memory's. -/
theorem Device.freezeImages_plain {d : Device} (hf : d.img.force = [])
    (hc : ∀ i, i < 64 → d.bit (Reg.IMG_COPYA_EN i) = false) :
    d.freezeImages = { d with img := { d.img with frozen := takeRanges d.mem d.outParts } } := by
  rw [Device.freezeImages, hf]
  exact Device.outCopies_none hc

theorem Device.voteMissed_keeps (d : Device) : d.voteMissed.img = d.img ∧ d.voteMissed.evr = d.evr ∧
    d.voteMissed.sys = d.sys ∧ d.voteMissed.rd (Reg.EVR_CODE 0x048) = d.rd (Reg.EVR_CODE 0x048) := by
  refine ⟨by simp [Device.voteMissed], by simp [Device.voteMissed], by simp [Device.voteMissed], ?_⟩
  rw [Device.voteMissed, Device.rd_inc_other _ (by decide), Device.rd_inc_other _ (by decide),
    Device.rd_setF_other _ _ (by decide)]
  rfl

/-- The event and the frozen parts of a tick that was not ready. -/
theorem Device.voteDone_plain {d : Device} (h : d.readyNow = false) (hr : d.fld Reg.LDR_STAT_RTYPE ≠ 2)
    (hf : d.img.force = []) (hm : Memory.wf d.mem = true) (hc : ∀ i, i < 64 → d.bit (Reg.IMG_COPYA_EN i) = false) :
    d.Logs d.voteDone.sluice 0x048 [] ∧ ∀ p ∈ d.outParts, ∀ a, p.1 ≤ a → a < p.1 + p.2 →
      sget byte0 d.voteDone.sluice.img.frozen a = d.byte a := by
  have htail := Device.voteDone_missed h hr
  obtain ⟨himg, hevr, hsys, hcode⟩ := d.voteFrozen.voteMissed_keeps
  have hfrozen := Device.freezeImages_plain (d := { d with tick := { d.tick with phase := 3 } }) hf hc
  rw [← Device.voteFrozen] at hfrozen
  refine ⟨?_, fun p hp a h1 h2 => ?_⟩
  · refine Device.Logs.congr (d.raise_logs _ 0x048 [] ?_ ?_ ?_) htail.evr
    · rw [hcode, hfrozen]
      rfl
    · rw [hsys, hfrozen]
    · rw [hevr, hfrozen]
  · rw [htail.img, Device.raise_img, himg, hfrozen]
    exact (sget_takeRanges hm d.outParts a).2 p hp h1 h2

end Sys2Proof.Machine
end

section
/-! SUPPORT. t_VEND of a device that is no lane (R56, R58), the expiry of a timer cell (R158), and the phases of a tick. -/

namespace Sys2Proof.Machine

/-! ## t_VEND -/

/-- The images of TICK_EARLY commit, where the tick commits. -/
def Device.vendCommit (d : Device) : Device := if d.tickCommits then d.commitImages true d.vendTs else d

theorem exec_voteWindowEnd (s : State) : exec .voteWindowEnd s =
    run (fun d => if !d.ticking ∨ d.tick.phase ≠ 3 then d
      else ({ d with tick := { d.tick with phase := 4 } } : Device).voteEnd.vendCommit) s := rfl

theorem Device.voteEnd_single {d : Device} (h : d.isLane = false) : d.voteEnd = d := if_pos (by simp [h])

theorem completes_voteWindowEnd {s : State} {P : Device → Prop} (ht : s.dev.ticking = true) (hp : s.dev.tick.phase = 3)
    (hl : s.dev.isLane = false)
    (hP : P ({ s.dev with tick := { s.dev.tick with phase := 4 } } : Device).vendCommit.sluice) :
    Completes .voteWindowEnd s P :=
  completes_run (exec_voteWindowEnd s) (by
    rw [if_neg (by simp [ht, hp]), Device.voteEnd_single (d := { s.dev with tick := { s.dev.tick with phase := 4 } }) hl]) hP

/-- The commit at t_VEND leaves the tick's course alone, and the images of a tick that does not commit. -/
theorem Device.vendCommit_steady (d : Device) : d.Steady d.vendCommit := by
  unfold Device.vendCommit
  split
  · exact (d.commits_images true d.vendTs).steady
  · exact .refl d

/-- The early field image of a tick that commits, where outputs are not withheld. -/
theorem Device.vendCommit_field {d : Device} (hc : d.tickCommits = true) (h1 : d.bit Reg.FO_CFG_EN = false)
    (h2 : d.bit Reg.FO_CFG_ST_EN = false) (he : d.bit Reg.TICK_EARLY_FIELD = true) :
    d.vendCommit.img.committed = d.img.frozen := by
  have hcommit := d.commits_images true d.vendTs
  rw [if_pos he, Device.fieldImage_frozen h1 h2] at hcommit
  rw [Device.vendCommit, if_pos hc, hcommit.img]

theorem Device.tickCommits_single {d : Device} (hl : d.isLane = false) (hp : d.tick.phase = 4) :
    d.tickCommits = (!d.tick.noCommit && d.tick.ready) := by simp [Device.tickCommits, hl, hp]

/-- What t_VEND leaves. -/
theorem Device.vend_spec {d : Device} (hl : d.isLane = false) (hp : d.tick.phase = 4) :
    d.vendCommit.sluice.tick.phase = 4 ∧ d.KeepsMem d.vendCommit.sluice ∧ d.KeepsCells d.vendCommit.sluice ∧
    (d.tick.ready = true → d.tick.noCommit = false → d.bit Reg.FO_CFG_EN = false → d.bit Reg.FO_CFG_ST_EN = false →
      d.bit Reg.TICK_EARLY_FIELD = true → d.vendCommit.sluice.img.committed = d.img.frozen) ∧
    (d.tick.ready = false → d.vendCommit.sluice.img = d.img) := by
  have hsteady := d.vendCommit_steady.trans d.vendCommit.calm_sluice.steady
  refine ⟨(hsteady.tick TickState.phase).trans hp, hsteady.mem, .of_ce hsteady.ce,
    fun hr hn h1 h2 he => ?_, fun hr => ?_⟩
  · rw [Device.sluice_img]
    exact Device.vendCommit_field (by simp [Device.tickCommits_single hl hp, hr, hn]) h1 h2 he
  · rw [Device.sluice_img, Device.vendCommit, if_neg (by simp [Device.tickCommits_single hl hp, hr])]

/-! ## The expiry of a timer cell -/

/-- Sources join those that a boundary fires, each once. -/
def Device.armSources (d : Device) (l : List Nat) : Device :=
  { d with task := { d.task with timerFired := d.task.timerFired ++ l.filter (fun k => !d.task.timerFired.contains k) } }

/-- The cell's accumulator reached its preset by the addition of this boundary. -/
def Device.expires (d : Device) (n : Nat) : Prop :=
  d.tick.phase = 1 ∧ (d.tcell n).run = true ∧ (d.tcell n).pt.toNat * baseUs (d.tcell n).base ≤ (d.tcell n).acc ∧
    (d.tcell n).acc < (d.tcell n).pt.toNat * baseUs (d.tcell n).base + d.periodUs

theorem completes_timerCellExpiry {s : State} {n : Fin 4096} {P : Device → Prop} (h : s.dev.expires n)
    (hP : P (s.dev.armSources (s.dev.expirySources n)).sluice) : Completes (.timerCellExpiry n) s P :=
  completes_run (i := .timerCellExpiry n) (s := s) rfl (if_pos h) hP

theorem Device.mem_armSources (d : Device) (l : List Nat) (x : Nat) :
    x ∈ (d.armSources l).task.timerFired ↔ x ∈ d.task.timerFired ∨ x ∈ l := by
  simp only [Device.armSources, List.mem_append, List.mem_filter, Bool.not_eq_true', List.contains_eq_mem,
    decide_eq_false_iff_not]
  tauto

theorem Device.mem_expirySources {d : Device} {n k : Nat} (hk : k < 32) (he : d.bit (Reg.TASK_TEXP_EN k) = true)
    (hc : d.fld (Reg.TASK_TEXP_CELL k) = n) : 0xA0 + k ∈ d.expirySources n := by
  refine List.mem_map.mpr ⟨k, List.mem_filter.mpr ⟨List.mem_range.mpr hk, ?_⟩, rfl⟩
  simp [he, hc]

theorem Device.soft_armSources (d : Device) (l : List Nat) : d.Soft (· ∈ ([] : List Nat)) (d.armSources l) := d.soft_task _

/-! ## The statement -/

/-- A periodic context whose turn the tick count is. -/
theorem Device.DueAt.of_period {d : Device} {e : Eng} {c : CtxNo} (hl : d.isLane = false)
    (h1 : 1 ≤ d.tickCount) (hen : d.bit (Reg.TASK_CFG_EN e c) = true) (hk : d.fld (Reg.TASK_CFG_KIND e c) = 0) (hr : d.engState e = 3)
    (hp : d.tickCount % max 1 (d.fld (Reg.TASK_PER_PERIOD_N e c)) = d.fld (Reg.TASK_PER_PHASE e c)) : d.DueAt e c := by
  refine ⟨hl, ?_, hr⟩
  simp [Device.periodicNow, hen, hk, hp, h1]

/-- Settles O38, phase by phase: t_HOP is releases and work beside them, t_VOTE a freeze, a judgement and an exchange, t_VEND
a commit beside the tick's course, and the expiry of a cell arms sources alone. -/
theorem tickPhases : Obligations.TickPhases := by
  intro s ht
  refine ⟨fun hp hl hen hst hmig hnvm hevr => ?hop, fun hp => ⟨fun hr => ?ready, fun hr hmig => ?missed⟩,
    fun hp hl => ?vend, fun n hp hrun h1 h2 => ?timer⟩
  case hop =>
    have hquiet : s.dev.Quiet := ⟨⟨hl, hen, hst⟩, hmig, hnvm, hevr⟩
    obtain ⟨hphase, hcount, hflags, hdue⟩ := hquiet.hop_spec
    refine completes_hopClose ht hp ⟨hphase, hcount, hflags, fun hc => ?_⟩
    obtain ⟨htick1, hpending⟩ := hdue hc
    exact ⟨htick1, fun e c h1 h2 h3 h4 h5 => hpending e c (.of_period hl hc h1 h2 h3 h5) h4⟩
  case ready =>
    obtain ⟨hphase, hready, hconsec, hmem, hcells, hrel⟩ := Device.voteDone_ready hr
    exact completes_voteFreeze ht hp ⟨hphase, hready, hconsec, hrel, hmem, hcells⟩
  case missed =>
    obtain ⟨hphase, hready, hstate, hflag, hnr, hconsec, hformed, hmem, hcells, -⟩ := Device.voteDone_notReady hr hmig
    exact completes_voteFreeze ht hp ⟨hphase, hready, hstate, hflag, hnr, hconsec, hformed, hmem, hcells,
      Device.voteDone_plain hr hmig⟩
  case vend =>
    obtain ⟨hphase, ⟨hmem, hlarea, hprog⟩, ⟨htimers, hcounters⟩, hfield, himg⟩ :=
      Device.vend_spec (d := { s.dev with tick := { s.dev.tick with phase := 4 } }) hl rfl
    refine completes_voteWindowEnd ht hp hl ⟨hphase, ⟨hmem, hlarea, hprog⟩, ⟨htimers, hcounters⟩, hfield, fun hr => ?_⟩
    rw [himg hr]
    exact ⟨rfl, rfl, rfl⟩
  case timer =>
    obtain ⟨hregs, hmem, hce⟩ := (s.dev.soft_armSources (s.dev.expirySources n)).quiet
    refine completes_timerCellExpiry ⟨hp, hrun, h1, h2⟩ ⟨fun k hk he hc => ?_, fun x hx => ?_, hregs, hmem,
      .of_ce hce, Device.sluice_evr _⟩
    · rw [Device.sluice_task, Device.mem_armSources]
      exact .inr (Device.mem_expirySources hk he hc)
    · rw [Device.sluice_task, Device.mem_armSources]
      exact .inl hx

end Sys2Proof.Machine
end

section
/-! SUPPORT. Faults of memory (R73, R74, R77): a fault line into Sluice gates every output off, an exclusion leaves the
registers of the engines and memories alone, and what the scrubber does with each kind of codeword. -/

namespace Sys2Proof.Machine

/-! ## The fault line into Sluice (R385, R387) -/

/-- The fault line of the engines and memories gates every output off. -/
theorem Device.sluice_faultLine {d : Device} (h : d.slOn slCe = true) :
    d.sluice.slOn slCe = true ∧ (d.sluice.rd Reg.SF_GATE).toNat % 2 ^ 24 = 2 ^ 24 - 1 := by
  have hon : d.sluice.slOn slCe = true := (Device.slOn_congr (Device.rd_sluice d (by decide)) _).trans h
  have hall : ∀ c < 24, (0xFFFFFF : Nat).testBit c = true := by decide
  refine ⟨hon, Nat.eq_of_testBit_eq fun c => ?_⟩
  rw [Nat.testBit_mod_two_pow, Nat.testBit_two_pow_sub_one]
  by_cases hc : c < 24
  · simp [hc, d.sluice_gated.shown c hc ⟨slCe, by decide, hon, hall c hc⟩]
  · simp [hc]

/-! ## What an exclusion leaves alone -/

/-- The registers of the engines, the memories and all that lies below. -/
abbrev LowReg (a : Nat) : Prop := a < 0x4030000

section
variable (d : Device)

theorem Device.spares_tri (k : TriState) : d.Spares LowReg { d with tri := k } := .of_eq rfl rfl

theorem Device.spares_slAssert {i : Nat} (hi : i < 32) (h0 : i ≠ slStart) : d.Spares LowReg (d.slAssert i) where
  tick := (d.laneWork_slAssert hi h0).tick
  regs := fun a ha => by
    simp only [LowReg] at ha
    refine d.rd_slAssert i ?_ ?_ ?_ ?_ <;>
      simp only [Reg.SF_SLUICE_STAT, Reg.SF_SLUICE_FLAGS, Reg.SF_GATE, Reg.EVR_LOSS] <;> omega

theorem Device.spares_ring (ptype : Nat) (l : List Byte) : d.Spares LowReg (d.ring ptype l) :=
  ⟨(d.laneWork_ring ptype l).tick, fun a _ => d.rd_ring ptype l a⟩

theorem Device.spares_service : d.Spares LowReg d.service := by
  simp only [Device.service]
  exact .ite (.refl d) ((d.spares_setF _ (by decide)).trans (Device.spares_raise _ _ _ (by decide)))

theorem Device.spares_laneShown (i st : Nat) : d.Spares LowReg (d.laneShown i st) :=
  (((d.spares_setF st (by rw [laneFld_addr]; decide)).trans (Device.spares_tri _ _)).trans
    (.ite (Device.spares_setF _ _ (by decide)) (.refl _))).trans (Device.spares_raise _ _ _ (by decide))

theorem Device.spares_laneSluice (i st : Nat) (t : Device) : t.Spares LowReg (d.laneSluice i st t) :=
  .ite ((t.spares_tri _).trans (Device.spares_slAssert _ (by decide) (by decide))) (.refl t)

theorem Device.spares_toLane (i st : Nat) : d.Spares LowReg (d.toLane i st) := by
  by_cases h : d.laneState i = st
  · rw [Device.toLane, if_pos h]
    exact .refl d
  · rw [Device.toLane_new h]
    exact ((d.spares_laneShown i st).trans (d.spares_laneSluice i st _)).trans (Device.spares_service _)

theorem Device.spares_ownExcluded (i code : Nat) : d.Spares LowReg (d.ownExcluded i code) :=
  ((((d.spares_setF _ (by decide)).trans (Device.spares_setF _ _ (by decide))).trans
    (Device.spares_setF _ _ (by decide))).trans (Device.spares_tri _ _)).trans (Device.spares_ring _ _ _)

theorem Device.spares_excludeOne (i code : Nat) : d.Spares LowReg (d.excludeOne i code) :=
  .ite (.refl d) (((Device.Spares.ite (d.spares_ownExcluded i code) (.refl d)).trans
    (Device.spares_raise _ _ _ (by decide))).trans (Device.spares_toLane _ _ _))

/-- An exclusion writes no register of engines and memories. -/
theorem Device.spares_excludeSelf (code : Nat) : d.Spares LowReg (d.excludeSelf code) :=
  .ite ((d.spares_excludeOne _ _).trans (.ite (Device.spares_excludeOne _ _ _) (.refl _))) (.refl d)

/-! ## A memory fault (R74) -/

/-- The latch of the first memory fault. -/
def Device.memLatch (d : Device) (master eng k kind : Nat) : Device :=
  if d.bit Reg.CE_MEM_ERR_INFO_VALID then d
  else
    (((((d.wr Reg.CE_MEM_ERR (wd (eccAddr k))).setF Reg.CE_MEM_ERR_INFO_MASTER master).setF
      Reg.CE_MEM_ERR_INFO_KIND kind).setF Reg.CE_MEM_ERR_INFO_ENGINE
        (if 2 ≤ eccMem k then eccEng k else if master = 0 then eng else 0)).setF
      Reg.CE_MEM_ERR_INFO_MEM (eccMem k)).setF Reg.CE_MEM_ERR_INFO_VALID 1

theorem Device.memFault_eq (master eng k kind : Nat) : ∃ words, d.memFault master eng k kind =
    (((d.memLatch master eng k kind).slAssert slCe).raise 0x088 words).excludeSelf 1 := ⟨_, rfl⟩

theorem eccMem_lt (k : Nat) : eccMem k < 4 := by
  unfold eccMem
  split
  · decide
  · split
    · decide
    · split <;> decide

/-- The latch holds a fault, the first one as it was. -/
theorem Device.memLatch_fields {master : Nat} (hm : master < 16) (eng k kind : Nat) :
    let t := d.memLatch master eng k kind
    t.bit Reg.CE_MEM_ERR_INFO_VALID = true ∧
    (d.bit Reg.CE_MEM_ERR_INFO_VALID = true → t.rd Reg.CE_MEM_ERR = d.rd Reg.CE_MEM_ERR) ∧
    (d.bit Reg.CE_MEM_ERR_INFO_VALID = false → t.rd Reg.CE_MEM_ERR = wd (eccAddr k) ∧
      t.fld Reg.CE_MEM_ERR_INFO_MASTER = master ∧ t.fld Reg.CE_MEM_ERR_INFO_MEM = eccMem k) := by
  intro t
  cases hv : d.bit Reg.CE_MEM_ERR_INFO_VALID with
  | true =>
    have ht : t = d := if_pos hv
    exact ⟨by rw [ht, hv], fun _ => by rw [ht], fun h => absurd h (by decide)⟩
  | false =>
    have ht : t = _ := if_neg (by simp [hv])
    refine ⟨?_, fun h => absurd h (by decide), fun _ => ⟨?_, ?_, ?_⟩⟩
    · rw [ht, Device.bit, Device.fld_setF_same _ _ _ (by decide)]
      rfl
    · rw [ht, Device.rd_setF_other _ _ (by decide), Device.rd_setF_other _ _ (by decide),
        Device.rd_setF_other _ _ (by decide), Device.rd_setF_other _ _ (by decide), Device.rd_setF_other _ _ (by decide),
        Device.rd_wr_same]
    · rw [ht, Device.fld_setF_other _ _ (by decide), Device.fld_setF_other _ _ (by decide),
        Device.fld_setF_other _ _ (by decide), Device.fld_setF_other _ _ (by decide),
        Device.fld_setF_same _ _ _ (by decide)]
      exact Nat.mod_eq_of_lt hm
    · rw [ht, Device.fld_setF_other _ _ (by decide), Device.fld_setF_same _ _ _ (by decide)]
      exact Nat.mod_eq_of_lt (Nat.lt_trans (eccMem_lt k) (by decide))

/-- A memory fault asserts its line into Sluice, and what follows it leaves the latch as it is. -/
theorem Device.memFault_spec (master eng k kind : Nat) : (d.memFault master eng k kind).slOn slCe = true ∧
    (d.memLatch master eng k kind).Spares LowReg (d.memFault master eng k kind) := by
  obtain ⟨words, hf⟩ := d.memFault_eq master eng k kind
  generalize d.memLatch master eng k kind = x at hf ⊢
  rw [hf]
  constructor
  · refine (Device.laneWork_excludeSelf _ 1).holds _ ((Device.laneWork_raise _ 0x088 words).holds _ ?_)
    rw [x.slOn_slAssert (by decide), if_pos rfl]
  · exact ((x.spares_slAssert (by decide) (by decide)).trans (Device.spares_raise _ _ _ (by decide))).trans
      (Device.spares_excludeSelf _ 1)

end

/-! ## Codewords (R73) -/

/-- The counter of corrected errors of a codeword's memory. -/
def corrCounter (k : Nat) : Fld :=
  if 2 ≤ eccMem k then Reg.CE_ECC_CNT_CORR (eccEng k) else Reg.CE_MEM_CORR_CNT_CORR

theorem corrCounter_shared {k : Nat} (h : k < 0x40000000) : corrCounter k = Reg.CE_MEM_CORR_CNT_CORR := by
  refine if_neg ?_
  rw [eccMem, if_pos h]
  split <;> decide

theorem corrCounter_engine {k : Nat} (h : 0x40000000 ≤ k) : corrCounter k = Reg.CE_ECC_CNT_CORR (eccEng k) := by
  refine if_pos ?_
  rw [eccMem, if_neg (by omega), if_neg (by omega)]
  split <;> decide

/-- The counters of corrected errors are fields of their words that start at bit 0, away from Sluice and the recorder. -/
theorem corrCounter_apart {k : Nat} (h : eccEng k < 24) : (corrCounter k).addr ≠ Reg.SF_GATE ∧
    (corrCounter k).addr ≠ Reg.EVR_LOSS ∧ (∀ c, Reg.EVR_CODE c ≠ (corrCounter k).addr) ∧
    (corrCounter k).lo + (corrCounter k).width ≤ 32 := by
  have haddr : (corrCounter k).addr < 0x4029000 ∧ (corrCounter k).lo + (corrCounter k).width ≤ 32 := by
    unfold corrCounter
    split
    · simp only [Reg.CE_ECC_CNT_CORR, Reg.CE_ECC_CNT]
      omega
    · decide
  obtain ⟨hlow, hfit⟩ := haddr
  refine ⟨?_, ?_, fun c => ?_, hfit⟩
  · simp only [Reg.SF_GATE]; omega
  · simp only [Reg.EVR_LOSS]; omega
  · simp only [Reg.EVR_CODE]; omega

/-- A field of a whole word is that word. -/
theorem Device.fld_word (d : Device) (a : Nat) : d.fld ⟨a, 0, 32⟩ = (d.rd a).toNat := by
  have hlt := (d.rd a).isLt
  simp only [Device.fld, bitsOf]
  omega

section
variable (d : Device)

/-- A codeword without an error, or with one that is counted, is read, and the device is as before. -/
theorem Device.eccRead_good {k : Nat} (m e : Nat) (h : d.ecc k = .clean ∨ d.ecc k = .counted) :
    d.eccRead m e k = (true, d) := by
  rcases h with h | h <;> simp only [Device.eccRead, h]

/-- A correctable error is counted, marked and reported. -/
theorem Device.eccRead_corr {k : Nat} (m e : Nat) (h : d.ecc k = .corr) : (d.eccRead m e k).2 =
    ((d.setEcc k .counted).inc (corrCounter k)).raise 0x089 [wd (eccMem k), wd (eccAddr k)] := by
  simp only [Device.eccRead, h, corrCounter]
  split <;> rfl

/-- An uncorrectable error is a memory fault. -/
theorem Device.eccRead_bad {k : Nat} (m e : Nat) (h : d.ecc k = .bad ∨ d.ecc k = .badAddr) :
    ∃ kind, (d.eccRead m e k).2 = d.memFault m e k kind := by
  rcases h with h | h
  · exact ⟨0, by simp only [Device.eccRead, h]⟩
  · exact ⟨1, by simp only [Device.eccRead, h]⟩

@[simp] theorem Device.ecc_setEcc_same (k : Nat) (x : Ecc) : (d.setEcc k x).ecc k = x := by
  simp only [Device.ecc, Device.setEcc, sget_sput_same]

theorem Device.ecc_setEcc_other {k j : Nat} (x : Ecc) (h : j ≠ k) : (d.setEcc k x).ecc j = d.ecc j := by
  simp only [Device.ecc, Device.setEcc, sget_sput_other eccNone _ x h]

theorem Device.ecc_congr {d t : Device} (h : t.ce = d.ce) (k : Nat) : t.ecc k = d.ecc k := by
  simp only [Device.ecc, h]

end

/-! ## The scrubber (R77) -/

section
variable {s : State} {key : Nat} {P : Device → Prop}

theorem completes_scrub {found : Codeword} (hen : s.dev.bit Reg.CE_SCRUB_CFG_EN = true)
    (hP : P ((s.dev.found key found).eccRead 1 0 key).2.sluice) : Completes (.scrubberRead key found) s P :=
  completes_run (show execScrubberRead key found s = run _ s from rfl) (if_pos hen) hP

/-- A codeword that is good, or whose error is counted, is read without an effect. -/
theorem completes_scrub_quiet {found : Codeword} (hen : s.dev.bit Reg.CE_SCRUB_CFG_EN = true)
    (hfound : s.dev.found key found = s.dev) (hk : s.dev.ecc key = .clean ∨ s.dev.ecc key = .counted) :
    Completes (.scrubberRead key found) s (fun t => t.ce = s.dev.ce ∧ s.dev.Writes t []) := by
  refine completes_scrub hen ?_
  rw [hfound, s.dev.eccRead_good 1 0 hk]
  exact ⟨s.dev.sluice_ce, s.dev.sluice_nothing.1⟩

/-- The device after the scrubber corrected an error in a codeword. -/
def Device.scrubbed (d : Device) (key : Nat) : Device :=
  (((d.setEcc key .corr).setEcc key .counted).inc (corrCounter key)).raise 0x089 [wd (eccMem key), wd (eccAddr key)]

theorem completes_scrub_corrected (hen : s.dev.bit Reg.CE_SCRUB_CFG_EN = true) (hk : s.dev.ecc key = .clean)
    (hP : P (s.dev.scrubbed key).sluice) : Completes (.scrubberRead key .correctable) s P := by
  have hfound : s.dev.found key .correctable = s.dev.setEcc key .corr := if_pos hk
  refine completes_scrub hen ?_
  rw [hfound, Device.eccRead_corr _ 1 0 (by simp)]
  exact hP

/-- The effect of a correction: the mark, the count and the event. -/
theorem Device.scrubbed_spec (d : Device) {key : Nat} (he : eccEng key < 24) :
    let t := (d.scrubbed key).sluice
    t.ecc key = .counted ∧ (∀ k, k ≠ key → t.ecc k = d.ecc k) ∧
    t.fld (corrCounter key) = min (d.fld (corrCounter key) + 1) (2 ^ (corrCounter key).width - 1) ∧
    d.Logs t 0x089 [wd (eccMem key), wd (eccAddr key)] ∧ d.KeepsMem t ∧ d.KeepsCells t := by
  intro t
  obtain ⟨hgate, hloss, hcode, hfit⟩ := corrCounter_apart he
  have hce : t.ce = ((d.setEcc key .corr).setEcc key .counted).ce := by simp [t, Device.scrubbed]
  refine ⟨?_, fun k hk => ?_, ?_, ?_, ⟨?_, ?_, ?_⟩, ?_⟩
  · rw [Device.ecc_congr hce, Device.ecc_setEcc_same]
  · rw [Device.ecc_congr hce, Device.ecc_setEcc_other _ _ hk, Device.ecc_setEcc_other _ _ hk]
  · rw [Device.fld_sluice _ hgate, Device.scrubbed, Device.fld_raise _ _ _ hloss, Device.fld_inc_same _ _ hfit]
    rfl
  · have hlogs : d.Logs (d.scrubbed key) 0x089 [wd (eccMem key), wd (eccAddr key)] :=
      d.raise_logs _ 0x089 _ (Device.rd_inc_other _ (hcode _)) (by simp) (by simp)
    exact hlogs.congr (Device.sluice_evr _)
  · simp [t, Device.scrubbed]
  · simp [t, Device.scrubbed]
  · simp [t, Device.scrubbed]
  · exact ⟨Device.tcell_congr (by rw [hce]; rfl), Device.ccell_congr (by rw [hce]; rfl)⟩

/-- An uncorrectable codeword is a fault of the memory, latched with the scrubber as master. -/
theorem completes_scrub_fault {found : Codeword} (hen : s.dev.bit Reg.CE_SCRUB_CFG_EN = true)
    (hf : found = .badData ∨ found = .badAddress) : Completes (.scrubberRead key found) s (fun t =>
      t.slOn slCe = true ∧ (t.rd Reg.SF_GATE).toNat % 2 ^ 24 = 2 ^ 24 - 1 ∧
      t.bit Reg.CE_MEM_ERR_INFO_VALID = true ∧
      (s.dev.bit Reg.CE_MEM_ERR_INFO_VALID = true → t.rd Reg.CE_MEM_ERR = s.dev.rd Reg.CE_MEM_ERR) ∧
      (s.dev.bit Reg.CE_MEM_ERR_INFO_VALID = false → t.rd Reg.CE_MEM_ERR = wd (eccAddr key) ∧
        t.fld Reg.CE_MEM_ERR_INFO_MASTER = 1 ∧ t.fld Reg.CE_MEM_ERR_INFO_MEM = eccMem key) ∧ s.dev.KeepsMem t) := by
  obtain ⟨x, hx, hbad⟩ : ∃ x, s.dev.found key found = s.dev.setEcc key x ∧ (x = .bad ∨ x = .badAddr) := by
    rcases hf with rfl | rfl
    · exact ⟨_, rfl, .inl rfl⟩
    · exact ⟨_, rfl, .inr rfl⟩
  obtain ⟨kind, hread⟩ := (s.dev.setEcc key x).eccRead_bad (k := key) 1 0 (by simpa using hbad)
  refine completes_scrub hen ?_
  rw [hx, hread]
  obtain ⟨hline, hspares⟩ := (s.dev.setEcc key x).memFault_spec 1 0 key kind
  obtain ⟨hvalid, hheld, hfirst⟩ := (s.dev.setEcc key x).memLatch_fields (master := 1) (by decide) 0 key kind
  obtain ⟨hmem, hlarea, hprog⟩ := ((s.dev.setEcc key x).laneWork_memFault 1 0 key kind).keepsMem
  have hrd (a : Nat) (ha : LowReg a) : ((s.dev.setEcc key x).memFault 1 0 key kind).sluice.rd a
      = ((s.dev.setEcc key x).memLatch 1 0 key kind).rd a := by
    refine (Device.rd_sluice _ fun e => ?_).trans (hspares.regs a ha)
    rw [e] at ha
    exact absurd ha (by decide)
  have herr := hrd Reg.CE_MEM_ERR (by decide)
  have hinfo (f : Fld) (hf : f.addr = Reg.CE_MEM_ERR_INFO) := Device.fld_congr (f := f) (hrd f.addr (by rw [hf]; decide))
  obtain ⟨hon, hgate⟩ := Device.sluice_faultLine hline
  refine ⟨hon, hgate, ?_, fun hv => herr.trans (hheld hv), fun hv => ?_, ?_⟩
  · rw [Device.bit, hinfo _ rfl]
    exact hvalid
  · obtain ⟨haddr, hmaster, hcode⟩ := hfirst hv
    exact ⟨herr.trans haddr, (hinfo _ rfl).trans hmaster, (hinfo _ rfl).trans hcode⟩
  · exact ⟨(Device.sluice_mem _).trans hmem, (Device.sluice_larea _).trans hlarea, (Device.sluice_prog _).trans hprog⟩

/-- The write-back clears the mark of its codeword. -/
theorem completes_writeback (hk : s.dev.ecc key = .counted) : Completes (.eccWriteback key) s (fun t =>
    t.ecc key = .clean ∧ (∀ k, k ≠ key → t.ecc k = s.dev.ecc k) ∧ s.dev.KeepsRegs t [Reg.SF_GATE] ∧
    s.dev.KeepsMem t ∧ s.dev.KeepsUnits t) := by
  have hce := (s.dev.setEcc key .clean).sluice_ce
  refine completes_run (show execEccWriteback key s = run _ s from rfl) (if_pos hk) ⟨?_, fun k hne => ?_, fun a ha => ?_,
    ⟨?_, ?_, ?_⟩, ?_⟩
  · rw [Device.ecc_congr hce, Device.ecc_setEcc_same]
  · rw [Device.ecc_congr hce, Device.ecc_setEcc_other _ _ hne]
  · exact Device.rd_sluice _ (List.ne_of_not_mem_cons ha)
  · simp
  · simp
  · simp
  · constructor <;> simp

end

/-- Settles O26, by what the codeword holds and what the scrubber finds in it. -/
theorem scrubbedMemory : Obligations.ScrubbedMemory := by
  intro s key hen
  refine ⟨fun hk => ?good, fun hk he => ?corrected, fun hk found hf => ?counted, fun hk => ?writeback,
    fun found hf => ?fault⟩
  case good => exact completes_scrub_quiet hen rfl (.inl hk)
  case corrected =>
    obtain ⟨hmark, hothers, hcount, hlogs, hmem, hcells⟩ := s.dev.scrubbed_spec he
    refine completes_scrub_corrected hen hk ⟨hmark, hothers, fun h => ?_, fun h => ?_, hlogs, hmem, hcells⟩
    · rw [corrCounter_shared h, Reg.CE_MEM_CORR_CNT_CORR, Device.fld_word, Device.fld_word] at hcount
      refine BitVec.eq_of_toNat_eq ?_
      rw [hcount, wd, BitVec.toNat_ofNat, Nat.mod_eq_of_lt (by omega)]
    · rwa [corrCounter_engine h] at hcount
  case counted =>
    refine completes_scrub_quiet hen ?_ (.inr hk)
    rcases hf with rfl | rfl
    · rfl
    · exact if_neg (by simp [hk])
  case writeback => exact completes_writeback hk
  case fault => exact completes_scrub_fault hen hf

end Sys2Proof.Machine
end

section
/-! SUPPORT. Engine faults (R78, R79, R86, R87, R89): what the stop of an engine leaves, what an engine fault shows, and a
run of cycles in which synchronisers differ. -/

namespace Sys2Proof.Machine

/-! ## Addresses -/

/-- The stop of engine e writes no other register of the engines and memories than its command register and status. -/
theorem not_stopReg {e a : Nat} (h : LowReg a) (hc : a ≠ Reg.CE_CMD_STATUS e) : ¬StopReg e a := by
  simp only [LowReg] at h
  rintro ((⟨k, -, hk⟩ | hk | ⟨c, -, hk | hk⟩) | (⟨k, hk⟩ | hk | hk | hk | hk) | hk)
  · simp only [Reg.HSEM] at hk; omega
  · simp only [Reg.EVR_LOSS] at hk; omega
  · simp only [Reg.TASK_STAT] at hk; omega
  · simp only [Reg.TASK_MAXRUN] at hk; omega
  · simp only [Reg.MB_EP_W0, Reg.MB_EP_W1, Reg.MB_EP_W2, Reg.MB_EP_W3, Reg.MB_EP_W4] at hk; omega
  · simp only [Reg.MB_CNT] at hk; omega
  · simp only [Reg.EVR_LOSS] at hk; omega
  · simp only [Reg.HP_IRQ_STAT] at hk; omega
  · simp only [Reg.HP_PBA] at hk; omega
  · exact hc hk

/-- The registers of contexts are none of endpoints, host causes and the recorder. -/
theorem not_boxReg_stat {e c : Nat} (he : e < 24) (hc : c < 16) : ¬BoxReg (Reg.TASK_STAT e c) := by
  rintro (⟨k, hk⟩ | hk | hk | hk | hk)
  · simp only [Reg.TASK_STAT, Reg.MB_EP_W0, Reg.MB_EP_W1, Reg.MB_EP_W2, Reg.MB_EP_W3, Reg.MB_EP_W4] at hk; omega
  · simp only [Reg.TASK_STAT, Reg.MB_CNT] at hk; omega
  · simp only [Reg.TASK_STAT, Reg.EVR_LOSS] at hk; omega
  · simp only [Reg.TASK_STAT, Reg.HP_IRQ_STAT] at hk; omega
  · simp only [Reg.TASK_STAT, Reg.HP_PBA] at hk; omega

/-- Neither the engines' own registers nor those of contexts are written with the lanes. -/
theorem not_mem_laneRegs {a : Nat} (h : a < 0x4028000 ∨ (0x4030000 ≤ a ∧ a < 0x4060000)) : a ∉ laneRegs := by
  simp only [laneRegs, List.mem_cons, List.not_mem_nil, or_false, Reg.TRI_LANE_STAT, Reg.TRI_RDM_STAT, Reg.EVR_LOSS,
    Reg.SF_SLUICE_STAT, Reg.SF_SLUICE_FLAGS, Reg.SF_GATE, Reg.CE_MEM_ERR, Reg.CE_MEM_ERR_INFO]
  omega

/-! ## The stop of an engine (R89, R171) -/

section
variable (d : Device) {e : Nat}

theorem Device.rd_leaveUnended (c : Nat) (r : Option Rel) (a : Nat) : (d.leaveUnended e c r).rd a = d.rd a :=
  (d.soft_leaveUnended (R := fun _ => False) e c r).regs a id

/-- One turn of `endContexts`: context n ends. -/
def Device.endOne (d : Device) (e n : Nat) : Device :=
  let d2 := (d.leaveUnended e n (d.relOf e n)).leaveUnended e n (sget noRel d.task.latched (16 * e + n))
  let d3 := (((d2.semRelease e n 64).setF (Reg.TASK_STAT_LATCH e n) 0).setF (Reg.TASK_STAT_STATE e n) 0).setRel e n none
  { d3 with task := { d3.task with latched := sput noRel d3.task.latched (16 * e + n) none } }

theorem Device.endContexts_succ (n : Nat) : d.endContexts e (n + 1) = (d.endContexts e n).endOne e n := rfl

/-- A context that ends is IDLE. -/
theorem Device.ctxState_endOne_same (n : Nat) : (d.endOne e n).ctxState e n = 0 := by
  simp only [Device.ctxState, Device.endOne, Device.fld_task, Device.fld_setRel]
  rw [Device.fld_setF_same _ _ _ (by simp [Reg.TASK_STAT_STATE]), Nat.zero_mod]

/-- The end of a context leaves the state of every other one. -/
theorem Device.ctxState_endOne_other (he : e < 24) {n k : Nat} (hk : k < 16) (h : k ≠ n) :
    (d.endOne e n).ctxState e k = d.ctxState e k := by
  obtain ⟨hsem, hloss, -⟩ := endKeeps_stat e n e k he hk
  have hne : Reg.TASK_STAT e k ≠ Reg.TASK_STAT e n := by simp only [Reg.TASK_STAT]; omega
  have hrd : (d.endOne e n).rd (Reg.TASK_STAT e k) = d.rd (Reg.TASK_STAT e k) := by
    simp only [Device.endOne, Device.rd_task, Device.rd_setRel]
    rw [Device.rd_setF_other _ _ hne, Device.rd_setF_other _ _ hne, Device.rd_semRelease _ _ _ _ hsem hloss,
      Device.rd_leaveUnended, Device.rd_leaveUnended]
  exact Device.fld_congr hrd

theorem Device.ctxState_endContexts (he : e < 24) {n k : Nat} (hn : n ≤ 16) (hk : k < n) :
    (d.endContexts e n).ctxState e k = 0 := by
  induction n with
  | zero => omega
  | succ n ih =>
    rw [Device.endContexts_succ]
    by_cases h : k = n
    · rw [h, Device.ctxState_endOne_same]
    · rw [Device.ctxState_endOne_other _ he (by omega) h, ih (by omega) (by omega)]

/-- An engine that has stopped: its state, its contexts, and what it leaves. -/
structure Device.Stopped (d t : Device) (e st : Nat) : Prop where
  state : t.engState e = st
  contexts : ∀ k, k < 16 → t.ctxState e k = 0
  regs : ∀ a, LowReg a → a ≠ Reg.CE_CMD_STATUS e → a ≠ Reg.CE_STATUS e → t.rd a = d.rd a
  mem : d.KeepsMem t
  ce : t.ce = d.ce

theorem Device.stopEngine_stopped (he : e < 24) {st : Nat} (hst : st < 8) : d.Stopped (d.stopEngine e st) e st := by
  obtain ⟨x, hsx, hxt⟩ := d.stopEngine_soft e st
  have hlow : LowReg (Reg.CE_STATUS e) := by simp only [LowReg, Reg.CE_STATUS]; omega
  have hcmd : Reg.CE_STATUS e ≠ Reg.CE_CMD_STATUS e := by simp only [Reg.CE_STATUS, Reg.CE_CMD_STATUS]; omega
  refine ⟨?_, fun k hk => ?_, fun a ha hc hs => ?_, ?_, ?_⟩
  · rw [Device.engState, Device.fld_congr (hxt.regs _ (not_stopReg hlow hcmd)),
      Device.fld_setF_same _ _ _ (by simp [Reg.CE_STATUS_STATE])]
    exact Nat.mod_eq_of_lt hst
  · have hport : Reg.TASK_STAT e k ≠ (portCE e).stat := by simp only [Reg.TASK_STAT, portCE, Reg.CE_CMD_STATUS]; omega
    have hstat : Reg.TASK_STAT e k ≠ Reg.CE_STATUS e := by simp only [Reg.TASK_STAT, Reg.CE_STATUS]; omega
    have hrd : (d.stopEngine e st).rd (Reg.TASK_STAT e k) = (d.endContexts e 16).rd (Reg.TASK_STAT e k) := by
      rw [Device.stopEngine, (Device.soft_finishCmd (R := (· = (portCE e).stat)) _ _ _ rfl).regs _ hport,
        (Device.soft_epReset _ e fun _ => id).regs _ (not_boxReg_stat he hk), Device.rd_setF_other _ _ hstat]
    exact (Device.fld_congr hrd).trans (d.ctxState_endContexts he (Nat.le_refl _) hk)
  · rw [hxt.regs _ (not_stopReg ha hc), Device.rd_setF_other _ _ hs, hsx.regs _ (not_stopReg ha hc)]
  · obtain ⟨r, v, k, m, hx⟩ := hsx.form
    obtain ⟨r', v', k', m', ht⟩ := hxt.form
    rw [ht]
    simp only [Device.setF, Device.wr, hx]
    exact ⟨rfl, rfl, rfl⟩
  · obtain ⟨r, v, k, m, hx⟩ := hsx.form
    obtain ⟨r', v', k', m', ht⟩ := hxt.form
    rw [ht]
    simp only [Device.setF, Device.wr, hx]

/-! ## An engine fault (R79, R89) -/

/-- The position that an engine fault latches: the active context and its PC. -/
def Device.faultPos (d : Device) (e : Nat) : Word :=
  wd (d.fld (Reg.CE_STATUS_ACTIVE_CTX e) * 65536 + (d.ctx e (d.fld (Reg.CE_STATUS_ACTIVE_CTX e))).pc.toNat)

/-- The first fault of an engine as it is latched and reported. -/
def Device.faultLatched (d : Device) (e fault ev : Nat) (words : List Word) : Device :=
  let c := d.fld (Reg.CE_STATUS_ACTIVE_CTX e)
  ((d.wr (Reg.CE_FAULT e) (wd fault)).wr (Reg.CE_FAULT_PC e) (d.faultPos e)).raiseFrom e c (d.ctx e c).pc.toNat ev words

theorem Device.engineFault_first {first causes extra ev : Nat} {snaps : Word → List Word} (h : d.engState e ≠ 6) :
    ∃ words, d.engineFault e first causes extra ev snaps =
      (((d.faultLatched e (causes + first * 256 + extra) ev words).stopEngine e stFault).slAssert slCe).excludeSelf 1 :=
  ⟨_, if_neg h⟩

/-- What a fault of engine e shows, before Sluice has acted. -/
structure Device.Faulted (d t : Device) (e fault : Nat) : Prop where
  state : t.engState e = 6
  cause : t.rd (Reg.CE_FAULT e) = wd fault
  pos : t.rd (Reg.CE_FAULT_PC e) = d.faultPos e
  contexts : ∀ k, k < 16 → t.ctxState e k = 0
  line : t.slOn slCe = true
  others : ∀ e', e' < 24 → e' ≠ e → t.engState e' = d.engState e'
  mem : d.KeepsMem t
  cells : d.KeepsCells t

/-- Latching and reporting a fault writes two registers of the engine. -/
theorem Device.plain_faultLatched (fault ev : Nat) (words : List Word) :
    d.Plain (· ∈ [Reg.CE_FAULT e, Reg.CE_FAULT_PC e, Reg.EVR_LOSS]) (d.faultLatched e fault ev words) :=
  ((d.plain_wr _ (by simp)).trans (Device.plain_wr _ _ (by simp))).trans (Device.plain_raiseFrom _ _ _ _ _ _ (by simp))

theorem Device.faultLatched_shows (fault ev : Nat) (words : List Word) :
    (d.faultLatched e fault ev words).rd (Reg.CE_FAULT e) = wd fault ∧
    (d.faultLatched e fault ev words).rd (Reg.CE_FAULT_PC e) = d.faultPos e := by
  have h1 : Reg.CE_FAULT e ≠ Reg.EVR_LOSS := by simp only [Reg.CE_FAULT, Reg.EVR_LOSS]; omega
  have h2 : Reg.CE_FAULT_PC e ≠ Reg.EVR_LOSS := by simp only [Reg.CE_FAULT_PC, Reg.EVR_LOSS]; omega
  have h3 : Reg.CE_FAULT e ≠ Reg.CE_FAULT_PC e := by simp only [Reg.CE_FAULT, Reg.CE_FAULT_PC]; omega
  constructor
  · rw [Device.faultLatched, Device.rd_raiseFrom _ _ _ _ _ _ h1, Device.rd_wr_other _ _ h3, Device.rd_wr_same]
  · rw [Device.faultLatched, Device.rd_raiseFrom _ _ _ _ _ _ h2, Device.rd_wr_same]

theorem Device.engineFault_faulted {first causes extra ev : Nat} {snaps : Word → List Word} (he : e < 24)
    (h : d.engState e ≠ 6) :
    d.Faulted (d.engineFault e first causes extra ev snaps) e (causes + first * 256 + extra) := by
  obtain ⟨words, ht⟩ := d.engineFault_first (first := first) (causes := causes) (extra := extra) (ev := ev)
    (snaps := snaps) h
  obtain ⟨hfault, hpos⟩ := d.faultLatched_shows (causes + first * 256 + extra) ev words
  have hplain := d.plain_faultLatched (e := e) (causes + first * 256 + extra) ev words
  generalize d.faultLatched e (causes + first * 256 + extra) ev words = x at ht hfault hpos hplain
  have hstop : x.Stopped (x.stopEngine e stFault) e 6 := x.stopEngine_stopped he (by decide)
  generalize x.stopEngine e stFault = y at ht hstop
  have hexcl := (y.slAssert slCe).laneWork_excludeSelf 1
  have hlane : y.LaneWork ((y.slAssert slCe).excludeSelf 1) :=
    (y.laneWork_slAssert (by decide) (by decide)).trans hexcl
  rw [ht]
  have hrd (a : Nat) (ha : a < 0x4028000) (hc : a ≠ Reg.CE_CMD_STATUS e) (hs : a ≠ Reg.CE_STATUS e) :
      ((y.slAssert slCe).excludeSelf 1).rd a = x.rd a :=
    (hlane.regs a (not_mem_laneRegs (.inl ha))).trans (hstop.regs a (Nat.lt_trans ha (by decide)) hc hs)
  have hstat (e' : Nat) (he' : e' < 24) : ((y.slAssert slCe).excludeSelf 1).engState e' = y.engState e' :=
    Device.fld_congr (hlane.regs _ (not_mem_laneRegs (.inl (by simp only [Reg.CE_STATUS_STATE, Reg.CE_STATUS]; omega))))
  obtain ⟨r, v, hx⟩ := hplain.form
  refine ⟨(hstat e he).trans hstop.state, ?_, ?_, fun k hk => ?_, ?_, fun e' he' hne => ?_, ?_, ?_⟩
  · rw [hrd _ (by simp only [Reg.CE_FAULT]; omega) (by simp only [Reg.CE_FAULT, Reg.CE_CMD_STATUS]; omega)
      (by simp only [Reg.CE_FAULT, Reg.CE_STATUS]; omega), hfault]
  · rw [hrd _ (by simp only [Reg.CE_FAULT_PC]; omega) (by simp only [Reg.CE_FAULT_PC, Reg.CE_CMD_STATUS]; omega)
      (by simp only [Reg.CE_FAULT_PC, Reg.CE_STATUS]; omega), hpos]
  · rw [← hstop.contexts k hk]
    exact Device.fld_congr (hlane.regs _ (not_mem_laneRegs (.inr (by
      simp only [Reg.TASK_STAT_STATE, Reg.TASK_STAT]; omega))))
  · exact hexcl.holds _ (by rw [y.slOn_slAssert (by decide), if_pos rfl])
  · rw [hstat e' he']
    refine (Device.fld_congr (hstop.regs _ ?_ ?_ ?_)).trans (Device.fld_congr (hplain.regs _ ?_))
    · simp only [LowReg, Reg.CE_STATUS_STATE, Reg.CE_STATUS]; omega
    · simp only [Reg.CE_STATUS_STATE, Reg.CE_STATUS, Reg.CE_CMD_STATUS]; omega
    · simp only [Reg.CE_STATUS_STATE, Reg.CE_STATUS]; omega
    · simp only [Reg.CE_STATUS_STATE, Reg.CE_STATUS, Reg.CE_FAULT, Reg.CE_FAULT_PC, Reg.EVR_LOSS, List.mem_cons,
        List.not_mem_nil, or_false]
      omega
  · have hxmem : d.KeepsMem x := by rw [hx]; exact ⟨rfl, rfl, rfl⟩
    exact (hxmem.trans hstop.mem).trans hlane.keepsMem
  · exact .of_ce (hlane.ce.trans (hstop.ce.trans (by rw [hx])))

end

/-- A fault of a device that shows the engines as d does, with the same memory and cells, is one of d. -/
theorem Device.Faulted.of_like {d d' t : Device} {e fault : Nat} (h : d'.Faulted t e fault)
    (hstat : ∀ e', e' < 24 → d'.rd (Reg.CE_STATUS e') = d.rd (Reg.CE_STATUS e')) (he : e < 24)
    (hmain : d'.ce.main = d.ce.main) (hmem : d.KeepsMem d') (hcells : d.KeepsCells d') : d.Faulted t e fault where
  state := h.state
  cause := h.cause
  pos := by
    have hc : d'.fld (Reg.CE_STATUS_ACTIVE_CTX e) = d.fld (Reg.CE_STATUS_ACTIVE_CTX e) := Device.fld_congr (hstat e he)
    rw [h.pos, Device.faultPos, Device.faultPos, hc, Device.ctx, Device.ctx, hmain]
  contexts := h.contexts
  line := h.line
  others := fun e' he' hne => (h.others e' he' hne).trans (Device.fld_congr (hstat e' he'))
  mem := hmem.trans h.mem
  cells := hcells.trans h.cells

/-- Sluice leaves what a fault shows. -/
theorem Device.Faulted.sluice {d t : Device} {e fault : Nat} (h : d.Faulted t e fault) (he : e < 24) :
    d.Faulted t.sluice e fault where
  state := (Device.fld_sluice _ (status_ne_gate e he)).trans h.state
  cause := (Device.rd_sluice _ (by simp only [Reg.CE_FAULT, Reg.SF_GATE]; omega)).trans h.cause
  pos := (Device.rd_sluice _ (by simp only [Reg.CE_FAULT_PC, Reg.SF_GATE]; omega)).trans h.pos
  contexts := fun k hk =>
    (Device.fld_sluice _ (by simp only [Reg.TASK_STAT_STATE, Reg.TASK_STAT, Reg.SF_GATE]; omega)).trans (h.contexts k hk)
  line := (Device.sluice_faultLine h.line).1
  others := fun e' he' hne => (Device.fld_sluice _ (status_ne_gate e' he')).trans (h.others e' he' hne)
  mem := h.mem.trans ⟨t.sluice_mem, t.sluice_larea, t.sluice_prog⟩
  cells := h.cells.trans (.of_ce t.sluice_ce)

/-! ## The comparators (R78, R79) -/

/-- What the comparators of an engine see, as the causes and the rest of CE_FAULT: COMPARE where both differ,
COMP_DISAGREE first where one of them does. -/
theorem exec_engineFault {s : State} {e : Eng} (h0 : s.dev.engState e ≠ 0) {a b : Bool} (hab : (a || b) = true)
    (g : Fin 9) : ∃ ev snaps, exec (.engineFault e a b g) s = .next ⟨(s.dev.engineFault e (if a && b then 0 else 1)
      (if a && b then 1 else 3) (g.val * 65536 + b2n a * 4096 + b2n b * 8192) ev snaps).sluice, s.pending⟩ := by
  have hx : exec (.engineFault e a b g) s = execEngineFault e a b g s := rfl
  have hnone : (!a && !b) = false := by rw [← Bool.not_or, hab]; rfl
  have hoff : (s.dev.engState e == stOff) = false := by simpa [stOff] using h0
  have hact : ¬((!a && !b) || s.dev.engState e == stOff) = true := by simp [hnone, hoff]
  simp only [hx, execEngineFault, run, if_neg hact]
  by_cases hboth : (a && b) = true
  · simp only [if_pos hboth]
    exact ⟨_, _, rfl⟩
  · simp only [if_neg hboth]
    exact ⟨_, _, rfl⟩

/-! ## The agreement stage (R86, R87) -/

/-- A difference is seen, and the longest run of cycles kept. -/
def Device.agreeSeen (d : Device) (e sig cycles : Nat) : Device :=
  (d.setBitAt (Reg.CE_AGREE_STAT_DIFF_SEEN e) sig true).setF (Reg.CE_AGREE_STAT_MAX_DIFF e)
    (max (d.fld (Reg.CE_AGREE_STAT_MAX_DIFF e)) (min cycles 5))

/-- A run of five cycles, before its engine faults. -/
def Device.agreeFive (d : Device) (e sig cycles : Nat) : Device :=
  let d1 := d.agreeSeen e sig cycles
  ({ d1 with ce := { d1.ce with diff := sput zeroAt d1.ce.diff (5 * e + sig) 5 } } : Device).setBitAt
    (Reg.CE_AGREE_STAT_FAULT e) sig true

/-- A shorter run, which ends with a level. -/
def Device.agreeShort (d : Device) (e sig cycles : Nat) (level : Bool) : Device :=
  let d1 := d.agreeSeen e sig cycles
  { d1 with ce := { d1.ce with diff := sput zeroAt d1.ce.diff (5 * e + sig) 0,
                               agreed := sput falseAt d1.ce.agreed (5 * e + sig) level } }

section
variable {s : State} {e : Eng} {sig : Fin 5} {n : Nat} {level : Bool}

theorem exec_agreeFault_five (h0 : s.dev.engState e ≠ 0) (hn : 5 ≤ n) : ∃ snaps, exec (.agreeFault e sig n level) s =
    .next ⟨((s.dev.agreeFive e sig n).engineFault e 2 4 0 0x086 snaps).sluice, s.pending⟩ := by
  have hx : exec (.agreeFault e sig n level) s = execAgreeFault e sig n level s := rfl
  have hact : ¬(n = 0 ∨ s.dev.engState e = stOff) := not_or.mpr ⟨by omega, h0⟩
  simp only [hx, execAgreeFault, run, if_neg hact, if_pos hn]
  exact ⟨_, rfl⟩

theorem exec_agreeFault_short (h0 : s.dev.engState e ≠ 0) (hpos : 0 < n) (hn : n < 5) :
    exec (.agreeFault e sig n level) s = .next ⟨(s.dev.agreeShort e sig n level).sluice, s.pending⟩ := by
  have hx : exec (.agreeFault e sig n level) s = execAgreeFault e sig n level s := rfl
  have hact : ¬(n = 0 ∨ s.dev.engState e = stOff) := not_or.mpr ⟨by omega, h0⟩
  simp only [hx, execAgreeFault, run, if_neg hact, if_neg (Nat.not_le.mpr hn)]
  rfl

end

section
variable (d : Device)

theorem Device.rd_ce (x : CeState) (a : Nat) : ({ d with ce := x } : Device).rd a = d.rd a := Device.rd_congr rfl a

theorem Device.rd_agreeSeen (e sig n : Nat) {a : Nat} (h : a ≠ Reg.CE_AGREE_STAT e) :
    (d.agreeSeen e sig n).rd a = d.rd a := by
  rw [Device.agreeSeen, Device.rd_setF_other _ _ h, Device.setBitAt, Device.rd_setF_other _ _ h]

/-- The register of the agreement stage after a run of cycles. -/
theorem Device.agreeSeen_shows (e n : Nat) (sig : Fin 5) :
    (d.agreeSeen e sig n).bitAt (Reg.CE_AGREE_STAT_DIFF_SEEN e) sig = true ∧
    (d.agreeSeen e sig n).fld (Reg.CE_AGREE_STAT_MAX_DIFF e) = max (d.fld (Reg.CE_AGREE_STAT_MAX_DIFF e)) (min n 5) := by
  have hold := d.fld_lt (Reg.CE_AGREE_STAT_MAX_DIFF e)
  simp only [Reg.CE_AGREE_STAT_MAX_DIFF] at hold
  constructor
  · rw [Device.bitAt, Device.agreeSeen,
      Device.fld_setF_other _ _ (.inr (by simp [Reg.CE_AGREE_STAT_MAX_DIFF, Reg.CE_AGREE_STAT_DIFF_SEEN])),
      Device.setBitAt, Device.fld_setF_same _ _ _ (by simp [Reg.CE_AGREE_STAT_DIFF_SEEN]),
      show (Reg.CE_AGREE_STAT_DIFF_SEEN e).width = 5 from rfl, Nat.testBit_mod_two_pow, testBit_putBit]
    simp
  · rw [Device.agreeSeen, Device.fld_setF_same _ _ _ (by simp [Reg.CE_AGREE_STAT_MAX_DIFF])]
    simp only [Reg.CE_AGREE_STAT_MAX_DIFF]
    omega

/-- A fault after a run of five cycles is one of the device before it. -/
theorem Device.faulted_agreeFive {e : Nat} (sig n : Nat) (snaps : Word → List Word) (he : e < 24) (h : d.engState e ≠ 6) :
    d.Faulted ((d.agreeFive e sig n).engineFault e 2 4 0 0x086 snaps) e (4 + 2 * 256) := by
  have hstat (e' : Nat) (_ : e' < 24) : (d.agreeFive e sig n).rd (Reg.CE_STATUS e') = d.rd (Reg.CE_STATUS e') := by
    have hne : Reg.CE_STATUS e' ≠ Reg.CE_AGREE_STAT e := by simp only [Reg.CE_STATUS, Reg.CE_AGREE_STAT]; omega
    rw [Device.agreeFive, Device.setBitAt, Device.rd_setF_other _ _ hne, Device.rd_ce, d.rd_agreeSeen e sig n hne]
  have h6 : (d.agreeFive e sig n).engState e ≠ 6 := by
    rw [Device.engState, Device.fld_congr (hstat e he)]
    exact h
  refine ((d.agreeFive e sig n).engineFault_faulted he h6).of_like hstat he ?_ ⟨?_, ?_, ?_⟩
    ⟨Device.tcell_congr ?_, Device.ccell_congr ?_⟩ <;> simp [Device.agreeFive, Device.agreeSeen]

/-- A shorter run shows a difference and the level that ends it. -/
theorem Device.agreeShort_spec {e n : Nat} (sig : Fin 5) (level : Bool) (he : e < 24) (hn : n < 5) :
    let t := (d.agreeShort e sig n level).sluice
    t.bitAt (Reg.CE_AGREE_STAT_DIFF_SEEN e) sig = true ∧
    t.fld (Reg.CE_AGREE_STAT_MAX_DIFF e) = max (d.fld (Reg.CE_AGREE_STAT_MAX_DIFF e)) n ∧
    sget falseAt t.ce.agreed (5 * e + sig.val) = level ∧ t.engState e = d.engState e ∧
    d.KeepsRegs t [Reg.SF_GATE, Reg.CE_AGREE_STAT e] ∧ d.KeepsMem t ∧ d.KeepsUnits t := by
  intro t
  have hne : Reg.CE_AGREE_STAT e ≠ Reg.SF_GATE := by simp only [Reg.CE_AGREE_STAT, Reg.SF_GATE]; omega
  have hrd (a : Nat) (ha : a ≠ Reg.SF_GATE) : t.rd a = (d.agreeSeen e sig n).rd a := by
    rw [Device.rd_sluice _ ha, Device.agreeShort, Device.rd_ce]
  have hseen (f : Fld) (hf : f.addr = Reg.CE_AGREE_STAT e) : t.fld f = (d.agreeSeen e sig n).fld f :=
    Device.fld_congr (hrd _ (hf ▸ hne))
  have hregs : d.KeepsRegs t [Reg.SF_GATE, Reg.CE_AGREE_STAT e] := fun a ha => by
    simp only [List.mem_cons, List.not_mem_nil, or_false, not_or] at ha
    rw [hrd a ha.1, d.rd_agreeSeen e sig n ha.2]
  obtain ⟨hbit, hmax⟩ := d.agreeSeen_shows e n sig
  refine ⟨?_, ?_, ?_, Device.fld_congr (hregs _ ?_), hregs, ⟨?_, ?_, ?_⟩, ?_⟩
  · rw [Device.bitAt, hseen _ rfl]
    exact hbit
  · rw [hseen _ rfl, hmax, Nat.min_eq_left (by omega)]
  · simp only [t, Device.sluice_ce, Device.agreeShort, sget_sput_same]
  · simp only [Reg.CE_STATUS_STATE, Reg.CE_STATUS, Reg.CE_AGREE_STAT, Reg.SF_GATE, List.mem_cons, List.not_mem_nil,
      or_false]
    omega
  · simp [t, Device.agreeShort, Device.agreeSeen]
  · simp [t, Device.agreeShort, Device.agreeSeen]
  · simp [t, Device.agreeShort, Device.agreeSeen]
  · constructor <;> simp [t, Device.agreeShort, Device.agreeSeen]

end

/-- Settles O27: the comparators and a run of five cycles fault the engine, a shorter run is only seen. -/
theorem engineFaults : Obligations.EngineFaults := by
  intro s e h0 h6 c faults
  have hfault {i : Instr} {fault : Nat} {t : Device} (hx : exec i s = .next ⟨t.sluice, s.pending⟩)
      (h : s.dev.Faulted t e fault) : faults i fault :=
    have hs := h.sluice e.isLt
    completes_next hx ⟨hs.state, hs.cause, hs.pos, hs.contexts, hs.line, (Device.sluice_faultLine h.line).2,
      fun e' _ hne => hs.others e' e'.isLt (Fin.val_ne_of_ne hne), hs.mem, hs.cells⟩
  have hcompare {a b : Bool} (hab : (a || b) = true) (g : Fin 9) {fault : Nat} (hf : fault = (if a && b then 1 else 3) +
      (if a && b then 0 else 1) * 256 + (g.val * 65536 + b2n a * 4096 + b2n b * 8192)) :
      faults (.engineFault e a b g) fault := by
    obtain ⟨ev, snaps, hx⟩ := exec_engineFault h0 hab g
    exact hfault hx (hf ▸ s.dev.engineFault_faulted e.isLt h6)
  refine ⟨fun g => ?both, fun g => ?zero, fun g => ?one, fun sig n level hn => ?five, fun sig n level hpos hn => ?short⟩
  case both =>
    refine hcompare (by decide) g ?_
    simp only [b2n, Bool.and_self, if_true]
    omega
  case zero =>
    refine hcompare (by decide) g ?_
    simp only [b2n, Bool.and_false, Bool.false_eq_true, if_false, if_true]
    omega
  case one =>
    refine hcompare (by decide) g ?_
    simp only [b2n, Bool.and_true, Bool.false_eq_true, if_false, if_true]
    omega
  case five =>
    obtain ⟨snaps, hx⟩ := exec_agreeFault_five (sig := sig) (level := level) h0 hn
    exact hfault hx (s.dev.faulted_agreeFive sig n snaps e.isLt h6)
  case short => exact completes_next (exec_agreeFault_short h0 hpos hn) (s.dev.agreeShort_spec sig level e.isLt hn)

end Sys2Proof.Machine
end

section
/-! SUPPORT. Debug commands with the DEBUG permission (R92–R97, R99, R100): HALT, REG_READ, REG_WRITE, RESUME, STEP and
breakpoints. -/

namespace Sys2Proof.Machine

/-! ## Commands of an engine that are complete at once -/

theorem Device.commandNow_ok (d : Device) (p : Port) (op arg : Nat) (w : Word) {k : Checks} (body : Device → Device)
    (hb : d.fld p.busy = 0) (h1 : k.arg = true) (h2 : k.grant = true) (h3 : k.legal = true) :
    d.commandNow p op arg w k body = (body d).endCmd p 0 :=
  d.command_ok p op arg w k (fun d => (body d).endCmd p 0) hb h1 h2 h3

/-- A command of an engine that ends at once with code 0, on a device x that its effect leaves. -/
theorem done_ce {i : Instr} {s : State} {e : Eng} {t x : Device} {P : Device → Prop}
    (hx : exec i s = .next ⟨t.sluice, s.pending⟩)
    (ht : s.dev.fld (portCE e).busy = 0 → t = x.endCmd (portCE e) 0)
    (hseq : x.fld (portCE e).seq = s.dev.fld (portCE e).seq) (hP : P (x.endCmd (portCE e) 0).sluice) :
    Done i s (portCE e) P := by
  intro hb
  have hgate := (portOf_apart (i := .halt e 0) rfl).gate
  obtain ⟨hbusy, hcode, hnext⟩ := x.endCmd_ended (portCE e) (code := 0) hgate (by decide)
  obtain rfl := ht hb
  exact completes_next hx ⟨⟨hbusy, hcode, hseq ▸ hnext⟩, hP⟩

section
variable (d : Device) {e : Nat}

theorem status_ne_cmd (e e' : Nat) : Reg.CE_STATUS e ≠ Reg.CE_CMD_STATUS e' := by
  simp only [Reg.CE_STATUS, Reg.CE_CMD_STATUS]; omega

theorem Device.rd_ended {a : Nat} (hg : a ≠ Reg.SF_GATE) (hc : a ≠ Reg.CE_CMD_STATUS e) :
    (d.endCmd (portCE e) 0).sluice.rd a = d.rd a :=
  (Device.rd_sluice _ hg).trans (d.rd_endCmd (portCE e) 0 hc)

/-- The status of an engine after a command of it has ended. -/
theorem Device.fld_ended_status (he : e < 24) {f : Fld} (hf : f.addr = Reg.CE_STATUS e) :
    (d.endCmd (portCE e) 0).sluice.fld f = d.fld f :=
  Device.fld_congr (hf ▸ d.rd_ended (status_ne_gate e he) (status_ne_cmd e e))

/-! ## Halting (R93) -/

theorem Device.plain_haltEngine {R : Nat → Prop} (hs : R (Reg.CE_STATUS e)) (hl : R Reg.EVR_LOSS) :
    d.Plain R (d.haltEngine e) :=
  ((d.plain_setF _ hs).trans (Device.plain_setF _ _ hs)).trans (Device.plain_raise _ _ _ hl)

/-- An engine that halts is HALTED, and DBG_TOUCHED. -/
theorem Device.haltEngine_shows (he : e < 24) :
    (d.haltEngine e).engState e = 4 ∧ (d.haltEngine e).bit (Reg.CE_STATUS_DBG_TOUCHED e) = true := by
  have hloss : Reg.CE_STATUS e ≠ Reg.EVR_LOSS := by simp only [Reg.CE_STATUS, Reg.EVR_LOSS]; omega
  constructor
  · rw [Device.engState, Device.haltEngine, Device.fld_raise _ _ _ hloss,
      Device.fld_setF_other _ _ (.inr (by simp [Reg.CE_STATUS_DBG_TOUCHED, Reg.CE_STATUS_STATE])),
      Device.fld_setF_same _ _ _ (by simp [Reg.CE_STATUS_STATE])]
    rfl
  · rw [Device.bit, Device.haltEngine, Device.fld_raise _ _ _ hloss,
      Device.fld_setF_same _ _ _ (by simp [Reg.CE_STATUS_DBG_TOUCHED])]
    rfl

theorem Device.haltEngine_logs (he : e < 24) : d.Logs (d.haltEngine e) 0x08B (wd e :: d.pcs e) := by
  refine d.raise_logs _ _ _ ?_ (by simp) (by simp)
  rw [Device.rd_setF_other _ _ (evrcode_ne_status e _ he), Device.rd_setF_other _ _ (evrcode_ne_status e _ he)]

theorem Device.cmdHalt_ok (hb : d.fld (portCE e).busy = 0) (hp : d.perm permDebug = true) (hrun : d.engState e = 3)
    (hl : d.debugLane = true) : d.cmdHalt e 0 = (d.haltEngine e).endCmd (portCE e) 0 :=
  d.commandNow_ok _ _ _ _ _ hb rfl hp (by simp [hrun, hl, stRun])

end

theorem done_halt {s : State} {e : Eng} (hp : s.dev.perm permDebug = true) (hrun : s.dev.engState e = 3)
    (hl : s.dev.debugLane = true) : Done (.halt e 0) s (portCE e) (fun t =>
      t.engState e = 4 ∧ t.bit (Reg.CE_STATUS_DBG_TOUCHED e) = true ∧
      s.dev.Logs t 0x08B (wd e :: s.dev.pcs e) ∧ s.dev.Writes t [Reg.CE_STATUS e, Reg.CE_CMD_STATUS e, Reg.EVR_LOSS]) := by
  have hhalt : s.dev.Plain (· ∈ [Reg.CE_STATUS e, Reg.CE_CMD_STATUS e, Reg.EVR_LOSS]) (s.dev.haltEngine e) :=
    s.dev.plain_haltEngine (by simp) (by simp)
  obtain ⟨hstate, htouched⟩ := s.dev.haltEngine_shows e.isLt
  refine done_ce (t := s.dev.cmdHalt e 0) rfl (fun hb => s.dev.cmdHalt_ok hb hp hrun hl) ?_ ⟨?_, ?_, ?_, ?_⟩
  · refine Device.fld_congr ((s.dev.plain_haltEngine (R := (· ∈ [Reg.CE_STATUS e, Reg.EVR_LOSS])) (by simp) (by simp)).regs
      _ ?_)
    simp only [Port.seq, portCE, Reg.CE_STATUS, Reg.CE_CMD_STATUS, Reg.EVR_LOSS, List.mem_cons, List.not_mem_nil, or_false]
    omega
  · exact (Device.fld_ended_status _ e.isLt rfl).trans hstate
  · rw [Device.bit, Device.fld_ended_status _ e.isLt rfl]
    exact htouched
  · exact (s.dev.haltEngine_logs e.isLt).congr (by simp)
  · exact (hhalt.trans (Device.plain_endCmd _ _ _ (by simp [portCE]))).writes

/-! ## Registers of a context (R95, R99) -/

/-- A, B, X, Y and PC by their debug index. -/
def Ctx.userReg (x : Ctx) (n : Nat) : Word :=
  if n = 1 then x.a else if n = 2 then x.b else if n = 3 then x.x else if n = 4 then x.y else wd x.pc.toNat

/-- A context with one of A, B, X, Y and PC written. -/
def Ctx.withUserReg (x : Ctx) (n : Nat) (v : Word) : Ctx :=
  if n = 1 then { x with a := v } else if n = 2 then { x with b := v } else if n = 3 then { x with x := v }
  else if n = 4 then { x with y := v } else { x with pc := BitVec.ofNat 16 v.toNat }

theorem Ctx.dbgRead_userReg (x : Ctx) {n : Nat} (h0 : n ≠ 0) (hn : n < 6) : x.dbgRead n = some (x.userReg n) := by
  obtain rfl | rfl | rfl | rfl | rfl : n = 1 ∨ n = 2 ∨ n = 3 ∨ n = 4 ∨ n = 5 := by omega
  all_goals rfl

theorem Ctx.dbgWrite_userReg (x : Ctx) (v : Word) {n : Nat} (h0 : n ≠ 0) (hn : n < 6) :
    x.dbgWrite n v = x.withUserReg n v := by
  obtain rfl | rfl | rfl | rfl | rfl : n = 1 ∨ n = 2 ∨ n = 3 ∨ n = 4 ∨ n = 5 := by omega
  all_goals rfl

/-- The argument of REG_READ and REG_WRITE names context and register. -/
theorem dbgArg_fields (c : Fin 16) {n : Fin 6} (h0 : n.val ≠ 0) {arg : Nat}
    (ha : arg = (BitVec.ofNat 24 (256 * c + n)).toNat) : dbgArg arg = true ∧ arg / 256 = c ∧ arg % 256 = n := by
  have hc := c.isLt
  have hn := n.isLt
  rw [BitVec.toNat_ofNat, Nat.mod_eq_of_lt (by omega)] at ha
  have hmod : arg % 256 = n := by omega
  refine ⟨?_, by omega, hmod⟩
  rw [dbgArg, hmod, Ctx.dbgRead_userReg _ h0 hn]
  simp
  omega

/-- The device after REG_WRITE: the main copy is written, the queue of the checker takes the write. -/
def Device.regWritten (d : Device) (e c n : Nat) : Device :=
  let v := d.rd (Reg.CE_DBG_DATA e)
  let q := sget noReplay d.ce.replay e ++ [(c, n, v)]
  ({ d with ce := { d.ce with
      main := sput ctx0 d.ce.main (16 * e + c) ((d.ctx e c).dbgWrite n v),
      replay := sput noReplay d.ce.replay e q } } : Device).setF (Reg.CE_REPLAY_STAT_DEPTH e) q.length

section
variable (d : Device) {e : Nat} {c : Fin 16} {n : Fin 6}
  (hb : d.fld (portCE e).busy = 0) (hp : d.perm permDebug = true) (hh : d.engState e = 4) (h0 : n.val ≠ 0)
include hb hp hh h0

theorem Device.cmdRegRead_ok : d.cmdRegRead e (BitVec.ofNat 24 (256 * c + n)).toNat =
    (d.wr (Reg.CE_DBG_DATA e) ((d.ctx e c).userReg n)).endCmd (portCE e) 0 := by
  obtain ⟨harg, hc, hn⟩ := dbgArg_fields c h0 rfl
  rw [Device.cmdRegRead, d.commandNow_ok _ _ _ _ _ hb harg hp (by simp [hh, stHalted]), hc, hn,
    Ctx.dbgRead_userReg _ h0 n.isLt]
  rfl

theorem Device.cmdRegWrite_ok (hq : (sget noReplay d.ce.replay e).length < 64) :
    d.cmdRegWrite e (BitVec.ofNat 24 (256 * c + n)).toNat = (d.regWritten e c n).endCmd (portCE e) 0 := by
  obtain ⟨harg, hc, hn⟩ := dbgArg_fields c h0 rfl
  rw [Device.cmdRegWrite, d.commandNow_ok _ _ _ _ _ hb harg hp (by simp [hh, stHalted, hq]), hc, hn]
  rfl

end

section
variable {s : State} {e : Eng} (hp : s.dev.perm permDebug = true) (hh : s.dev.engState e = 4) (c : Fin 16) {n : Fin 6}
  (h0 : n.val ≠ 0)
include hp hh h0

theorem done_regRead : Done (.regRead e (BitVec.ofNat 24 (256 * c + n))) s (portCE e) (fun t =>
    t.rd (Reg.CE_DBG_DATA e) = (s.dev.ctx e c).userReg n ∧
    s.dev.Writes t [Reg.CE_DBG_DATA e, Reg.CE_CMD_STATUS e]) := by
  have hgate : Reg.CE_DBG_DATA e ≠ Reg.SF_GATE := by simp only [Reg.CE_DBG_DATA, Reg.SF_GATE]; omega
  have hcmd : Reg.CE_CMD_STATUS e ≠ Reg.CE_DBG_DATA e := by simp only [Reg.CE_DBG_DATA, Reg.CE_CMD_STATUS]; omega
  refine done_ce (t := s.dev.cmdRegRead e (BitVec.ofNat 24 (256 * c + n)).toNat) rfl
    (fun hb => s.dev.cmdRegRead_ok hb hp hh h0) (Device.fld_wr_other _ _ hcmd) ⟨?_, ?_⟩
  · rw [Device.rd_ended _ hgate hcmd.symm, Device.rd_wr_same]
  · exact ((s.dev.plain_wr _ (by simp)).trans (Device.plain_endCmd _ _ _ (by simp [portCE]))).writes

theorem done_regWrite (hq : (sget noReplay s.dev.ce.replay e).length < 64) :
    Done (.regWrite e (BitVec.ofNat 24 (256 * c + n))) s (portCE e) (fun t =>
      t.ctx e c = (s.dev.ctx e c).withUserReg n (s.dev.rd (Reg.CE_DBG_DATA e)) ∧ t.ce.chk = s.dev.ce.chk ∧
      sget noReplay t.ce.replay e
        = sget noReplay s.dev.ce.replay e ++ [(c.val, n.val, s.dev.rd (Reg.CE_DBG_DATA e))] ∧
      t.fld (Reg.CE_REPLAY_STAT_DEPTH e) = (sget noReplay s.dev.ce.replay e).length + 1 ∧ s.dev.KeepsMem t ∧
      s.dev.KeepsCells t) := by
  have hgate : Reg.CE_REPLAY_STAT e ≠ Reg.SF_GATE := by simp only [Reg.CE_REPLAY_STAT, Reg.SF_GATE]; omega
  have hcmd : Reg.CE_CMD_STATUS e ≠ Reg.CE_REPLAY_STAT e := by simp only [Reg.CE_REPLAY_STAT, Reg.CE_CMD_STATUS]; omega
  refine done_ce (t := s.dev.cmdRegWrite e (BitVec.ofNat 24 (256 * c + n)).toNat) rfl
    (fun hb => s.dev.cmdRegWrite_ok hb hp hh h0 hq) ?_ ⟨?_, ?_, ?_, ?_, ⟨?_, ?_, ?_⟩, ?_⟩
  · exact Device.fld_congr ((Device.rd_setF_other _ _ hcmd).trans (Device.rd_ce _ _ _))
  · rw [← Ctx.dbgWrite_userReg _ _ h0 n.isLt]
    simp [Device.ctx, Device.regWritten]
  · simp [Device.regWritten]
  · simp [Device.regWritten]
  · rw [Device.fld_congr (Device.rd_ended _ hgate hcmd.symm), Device.regWritten,
      Device.fld_setF_same _ _ _ (by simp [Reg.CE_REPLAY_STAT_DEPTH])]
    simp only [Reg.CE_REPLAY_STAT_DEPTH, List.length_append, List.length_singleton]
    omega
  · simp [Device.regWritten]
  · simp [Device.regWritten]
  · simp [Device.regWritten]
  · exact ⟨Device.tcell_congr (by simp [Device.regWritten]), Device.ccell_congr (by simp [Device.regWritten])⟩

end

/-! ## The replay queue (R96) -/

/-- The copies of an engine agree once the replay queue is applied. -/
def Device.CopiesAgree (d : Device) (e : Nat) : Prop :=
  copiesDiffer e d.ce.main (applyReplay e d.ce.chk (sget noReplay d.ce.replay e)) 16 = none

/-- The checker is up to date, and the replay queue empty. -/
def Device.replayed (d : Device) (e : Nat) : Device :=
  ({ d with ce := { d.ce with chk := applyReplay e d.ce.chk (sget noReplay d.ce.replay e),
                              replay := sput noReplay d.ce.replay e [] } } : Device).setF (Reg.CE_REPLAY_STAT_DEPTH e) 0

/-- The device that RESUME and STEP go on with: the replay is done, and the engine runs. -/
def Device.resumed (d : Device) (e : Nat) : Device :=
  ((d.beginCmd (portCE e)).replayed e).setF (Reg.CE_STATUS_STATE e) stRun

section
variable (d : Device) {e : Nat}

/-- Where the copies agree, the replay goes on. -/
theorem Device.replay_ok (h : d.CopiesAgree e) (go : Device → Device) : d.replay e go = go (d.replayed e) := by
  unfold Device.CopiesAgree at h
  unfold Device.replay
  simp only [h]
  rfl

theorem Device.resumed_def : ((d.beginCmd (portCE e)).replayed e).setF (Reg.CE_STATUS_STATE e) stRun = d.resumed e := rfl

theorem Device.CopiesAgree.begin {d : Device} (h : d.CopiesAgree e) : (d.beginCmd (portCE e)).CopiesAgree e := by
  rw [Device.CopiesAgree, Device.beginCmd_ce]
  exact h

/-- The registers that a resumed engine has written. -/
theorem Device.rd_resumed {a : Nat} (h1 : a ≠ Reg.CE_CMD_STATUS e) (h2 : a ≠ Reg.CE_REPLAY_STAT e)
    (h3 : a ≠ Reg.CE_STATUS e) : (d.resumed e).rd a = d.rd a := by
  rw [Device.resumed, Device.rd_setF_other _ _ h3, Device.replayed, Device.rd_setF_other _ _ h2, Device.rd_ce,
    Device.rd_beginCmd _ _ h1]

theorem Device.engState_resumed : (d.resumed e).engState e = 3 := by
  rw [Device.engState, Device.resumed, Device.fld_setF_same _ _ _ (by simp [Reg.CE_STATUS_STATE])]
  rfl

/-- SEQ has not advanced yet. -/
theorem Device.seq_resumed : (d.resumed e).fld (portCE e).seq = d.fld (portCE e).seq := by
  have h1 : Reg.CE_CMD_STATUS e ≠ Reg.CE_STATUS e := (status_ne_cmd e e).symm
  have h2 : Reg.CE_CMD_STATUS e ≠ Reg.CE_REPLAY_STAT e := by simp only [Reg.CE_CMD_STATUS, Reg.CE_REPLAY_STAT]; omega
  have hbegin : (d.resumed e).rd (Reg.CE_CMD_STATUS e) = (d.beginCmd (portCE e)).rd (Reg.CE_CMD_STATUS e) := by
    rw [Device.resumed, Device.rd_setF_other _ _ h1, Device.replayed, Device.rd_setF_other _ _ h2, Device.rd_ce]
  have hseq : (d.resumed e).fld (portCE e).seq = (d.beginCmd (portCE e)).fld (portCE e).seq := Device.fld_congr hbegin
  rw [hseq, Device.beginCmd, Device.fld_setF_other _ _ (.inr (by simp [Port.code, Port.seq])),
    Device.fld_setF_other _ _ (.inr (by simp [Port.busy, Port.seq]))]

theorem Device.depth_resumed : (d.resumed e).fld (Reg.CE_REPLAY_STAT_DEPTH e) = 0 := by
  have h : Reg.CE_REPLAY_STAT e ≠ Reg.CE_STATUS e := by simp only [Reg.CE_REPLAY_STAT, Reg.CE_STATUS]; omega
  rw [Device.resumed, Device.fld_congr (Device.rd_setF_other _ _ h), Device.replayed,
    Device.fld_setF_same _ _ _ (by simp [Reg.CE_REPLAY_STAT_DEPTH]), Nat.zero_mod]

theorem Device.resumed_ce : (d.resumed e).ce = { d.ce with
    chk := applyReplay e d.ce.chk (sget noReplay d.ce.replay e), replay := sput noReplay d.ce.replay e [] } := by
  simp [Device.resumed, Device.replayed]

theorem Device.resumed_mem : d.KeepsMem (d.resumed e) :=
  ⟨by simp [Device.resumed, Device.replayed], by simp [Device.resumed, Device.replayed],
    by simp [Device.resumed, Device.replayed]⟩

/-! ## RESUME (R96) -/

/-- Without an overrun that waits, the return to RUN has no further effect. -/
theorem Device.overdueReact_none {n : Nat} (h : ∀ c, c < n → sget falseAt d.task.overdue (16 * e + c) = false) :
    d.overdueReact e n = d := by
  induction n with
  | zero => rfl
  | succ n ih =>
    have hn : ¬sget falseAt d.task.overdue (16 * e + n) = true := by simp [h n (Nat.lt_succ_self n)]
    rw [Device.overdueReact, ih fun c hc => h c (Nat.lt_succ_of_lt hc)]
    exact if_neg hn

/-- The device that RESUME leaves, before the command ends. -/
def Device.resumeDone (d : Device) (e : Nat) : Device :=
  (d.resumed e).raise 0x08C [wd e, wd (sget noReplay d.ce.replay e).length]

theorem Device.cmdResume_ok (hb : d.fld (portCE e).busy = 0) (hp : d.perm permDebug = true) (hh : d.engState e = 4)
    (hc : d.CopiesAgree e) (ho : ∀ c, c < 16 → sget falseAt d.task.overdue (16 * e + c) = false) :
    d.cmdResume e 0 = (d.resumeDone e).endCmd (portCE e) 0 := by
  have hk : (d.engState e == stHalted) = true := by simp [hh, stHalted]
  rw [Device.cmdResume, d.command_ok _ _ _ _ _ _ hb rfl hp hk]
  simp only [Device.replay_ok _ hc.begin]
  refine Device.overdueReact_none _ ?_
  simpa [Device.replayed] using ho

end

theorem done_resume {s : State} {e : Eng} (hp : s.dev.perm permDebug = true) (hh : s.dev.engState e = 4)
    (hc : s.dev.CopiesAgree e) (ho : ∀ c, c < 16 → sget falseAt s.dev.task.overdue (16 * e + c) = false) :
    Done (.resume e 0) s (portCE e) (fun t =>
      t.engState e = 3 ∧ sget noReplay t.ce.replay e = [] ∧ t.fld (Reg.CE_REPLAY_STAT_DEPTH e) = 0 ∧
      s.dev.Logs t 0x08C [wd e, wd (sget noReplay s.dev.ce.replay e).length] ∧ t.ce.main = s.dev.ce.main ∧
      s.dev.KeepsMem t ∧ s.dev.KeepsCells t) := by
  have hloss (a : Nat) (ha : a < 0x4030000) :
      (s.dev.resumeDone e).rd a = (s.dev.resumed e).rd a :=
    Device.rd_raise _ _ _ (by simp only [Reg.EVR_LOSS]; omega)
  have hce : ((s.dev.resumeDone e).endCmd (portCE e) 0).sluice.ce = (s.dev.resumed e).ce := by simp [Device.resumeDone]
  obtain ⟨hmem, hlarea, hprog⟩ := s.dev.resumed_mem (e := e)
  refine done_ce (t := s.dev.cmdResume e 0) rfl (fun hb => s.dev.cmdResume_ok hb hp hh hc ho) ?_
    ⟨?_, ?_, ?_, ?_, ?_, ⟨?_, ?_, ?_⟩, ?_⟩
  · exact (Device.fld_congr (hloss _ (by simp only [Port.seq, portCE, Reg.CE_CMD_STATUS]; omega))).trans s.dev.seq_resumed
  · exact ((Device.fld_ended_status _ e.isLt rfl).trans (Device.fld_congr (hloss _ (by
      simp only [Reg.CE_STATUS_STATE, Reg.CE_STATUS]; omega)))).trans s.dev.engState_resumed
  · rw [hce, s.dev.resumed_ce, sget_sput_same]
  · have hgate : Reg.CE_REPLAY_STAT e ≠ Reg.SF_GATE := by simp only [Reg.CE_REPLAY_STAT, Reg.SF_GATE]; omega
    have hcmd : Reg.CE_REPLAY_STAT e ≠ Reg.CE_CMD_STATUS e := by simp only [Reg.CE_REPLAY_STAT, Reg.CE_CMD_STATUS]; omega
    have hlow : Reg.CE_REPLAY_STAT e < 0x4030000 := by simp only [Reg.CE_REPLAY_STAT]; omega
    exact (Device.fld_congr ((Device.rd_ended _ hgate hcmd).trans (hloss _ hlow))).trans s.dev.depth_resumed
  · refine (s.dev.raise_logs (s.dev.resumed e) _ _ (s.dev.rd_resumed ?_ ?_ ?_) ?_ ?_).congr (t := s.dev.resumeDone e)
      (by simp)
    · simp only [Reg.EVR_CODE, Reg.CE_CMD_STATUS]; omega
    · simp only [Reg.EVR_CODE, Reg.CE_REPLAY_STAT]; omega
    · exact evrcode_ne_status e _ e.isLt
    · simp [Device.resumed, Device.replayed]
    · simp [Device.resumed, Device.replayed]
  · rw [hce, s.dev.resumed_ce]
  · simpa [Device.resumeDone] using hmem
  · simpa [Device.resumeDone] using hlarea
  · simpa [Device.resumeDone] using hprog
  · exact ⟨Device.tcell_congr (by rw [hce, s.dev.resumed_ce]), Device.ccell_congr (by rw [hce, s.dev.resumed_ce])⟩

/-! ## STEP (R96) -/

section
variable (d : Device) {e : Eng} {c : Nat}

/-- The program word 0x6D000000 is NOP: it changes nothing. -/
theorem progOp_nop {d : Device} {x : Ctx} (h : d.fetched e x.pc = 0x6D000000) : progOp e d c x = .ok d x := by
  have hlegal : wordLegal (0x6D000000 : Word).toNat = true := by decide
  rw [progOp, h]
  simp only [hlegal, if_true]
  rfl

/-- Engine e may step in context c: it is the one that the dispatcher selects, ACTIVE, at a NOP that can be fetched and is
not the last instruction of its bank. -/
structure Device.AtNop (d : Device) (e c : Nat) : Prop where
  picks : d.pickCtx e 16 = some c
  active : d.ctxState e c = 2
  fetches : d.ecc (fetchKey e (d.ctx e c).pc) = .clean
  inside : (d.ctx e c).pc.toNat % 32768 ≠ 32767
  nop : d.fetched e (d.ctx e c).pc = 0x6D000000

/-- The states of contexts decide which one is picked. -/
theorem Device.pickCtx_congr {d t : Device} {e n : Nat} (h : ∀ k, k < n → t.ctxState e k = d.ctxState e k) :
    t.pickCtx e n = d.pickCtx e n := by
  induction n with
  | zero => rfl
  | succ n ih => rw [Device.pickCtx, Device.pickCtx, h n (Nat.lt_succ_self n), ih fun k hk => h k (Nat.lt_succ_of_lt hk)]

theorem Device.ctx_resumed : (d.resumed e).ctx e c = d.ctx e c := by
  rw [Device.ctx, d.resumed_ce]
  rfl

theorem Device.ctxState_resumed {k : Nat} : (d.resumed e).ctxState e k = d.ctxState e k := by
  refine Device.fld_congr (d.rd_resumed ?_ ?_ ?_)
  · simp only [Reg.TASK_STAT_STATE, Reg.TASK_STAT, Reg.CE_CMD_STATUS]; omega
  · simp only [Reg.TASK_STAT_STATE, Reg.TASK_STAT, Reg.CE_REPLAY_STAT]; omega
  · simp only [Reg.TASK_STAT_STATE, Reg.TASK_STAT, Reg.CE_STATUS]; omega

theorem Device.AtNop.executes {d : Device} (h : d.AtNop e c) : (d.resumed e).Executes e c where
  runs := d.engState_resumed
  picks := (Device.pickCtx_congr fun _ _ => d.ctxState_resumed).trans h.picks
  active := d.ctxState_resumed.trans h.active
  fetches := by
    rw [d.ctx_resumed, Device.ecc, d.resumed_ce]
    exact h.fetches
  inside := by
    rw [d.ctx_resumed]
    exact h.inside

/-- The device after the NOP, before the engine halts. -/
abbrev Device.stepped (d : Device) (e c : Nat) : Device :=
  (((d.resumed e).dispatched e c).retire e 1).setCtx e c { d.ctx e c with pc := (d.ctx e c).pc + 1 }

theorem Device.AtNop.azStep {d : Device} (h : d.AtNop e c) :
    Sys2Proof.Machine.azStep e (Sys2Proof.Machine.progOp e) (d.resumed e) = d.stepped e c := by
  have hnop : ((d.resumed e).dispatched e c).fetched e (d.ctx e c).pc = 0x6D000000 := by
    rw [← h.nop, Device.fetched, Device.fetched, Device.setF_prog, d.resumed_mem.prog]
  rw [h.executes.azStep, d.ctx_resumed, progOp_nop hnop, settle_ok _ _ _ h.inside]

theorem Device.rd_stepped {a : Nat} (hlo : a ≠ Reg.TASK_ENG_RETIRED_LO e) (hhi : a ≠ Reg.TASK_ENG_RETIRED_HI e) :
    (d.stepped e c).rd a = ((d.resumed e).dispatched e c).rd a := by
  rw [Device.rd_setCtx, Device.rd_retire_other _ _ _ hlo hhi]

theorem Device.engState_stepped : (d.stepped e c).engState e = 3 := by
  rw [Device.engState, Device.fld_congr (d.rd_stepped (status_ne_lo e e.isLt) (status_ne_hi e e.isLt)),
    Device.fld_setF_other _ _ (.inr (by simp [Reg.CE_STATUS_ACTIVE_CTX, Reg.CE_STATUS_STATE]))]
  exact d.engState_resumed

/-- The step counts. -/
theorem Device.retired_stepped : (d.stepped e c).retired e = (d.retired e + 1) % 2 ^ 64 := by
  have hhi : ((d.resumed e).dispatched e c).rd (Reg.TASK_ENG_RETIRED_HI e) = d.rd (Reg.TASK_ENG_RETIRED_HI e) := by
    rw [Device.rd_setF_other _ _ (status_ne_hi e e.isLt).symm, d.rd_resumed _ _ (status_ne_hi e e.isLt).symm]
    · simp only [Reg.TASK_ENG_RETIRED_HI, Reg.CE_CMD_STATUS]; omega
    · simp only [Reg.TASK_ENG_RETIRED_HI, Reg.CE_REPLAY_STAT]; omega
  have hlo : ((d.resumed e).dispatched e c).rd (Reg.TASK_ENG_RETIRED_LO e) = d.rd (Reg.TASK_ENG_RETIRED_LO e) := by
    rw [Device.rd_setF_other _ _ (status_ne_lo e e.isLt).symm, d.rd_resumed _ _ (status_ne_lo e e.isLt).symm]
    · simp only [Reg.TASK_ENG_RETIRED_LO, Reg.CE_CMD_STATUS]; omega
    · simp only [Reg.TASK_ENG_RETIRED_LO, Reg.CE_REPLAY_STAT]; omega
  rw [Device.retired_congr (Device.rd_setCtx _ _ _ _ _) (Device.rd_setCtx _ _ _ _ _), Device.retired_retire,
    Device.retired_congr hhi hlo]

theorem Device.cmdStep_ok (hb : d.fld (portCE e).busy = 0) (hp : d.perm permDebug = true) (hh : d.engState e = 4)
    (hl : d.debugLane = true) (hc : d.CopiesAgree e) (hn : d.AtNop e c) :
    d.cmdStep e 0 = ((d.stepped e c).haltEngine e).endCmd (portCE e) 0 := by
  have hk : (d.engState e == stHalted && d.debugLane) = true := by simp [hh, hl, stHalted]
  rw [Device.cmdStep, d.command_ok _ _ _ _ _ _ hb rfl hp hk]
  simp only [Device.replay_ok _ hc.begin, Device.resumed_def, hn.azStep]
  exact if_pos d.engState_stepped

end

theorem done_step {s : State} {e : Eng} {c : Nat} (hp : s.dev.perm permDebug = true) (hh : s.dev.engState e = 4)
    (hl : s.dev.debugLane = true) (hc : s.dev.CopiesAgree e) (hn : s.dev.AtNop e c) :
    Done (.step e 0) s (portCE e) (fun t =>
      t.engState e = 4 ∧ t.ctx e c = { s.dev.ctx e c with pc := (s.dev.ctx e c).pc + 1 } ∧
      t.retired e = (s.dev.retired e + 1) % 2 ^ 64 ∧ s.dev.KeepsMem t ∧ s.dev.KeepsCells t) := by
  have hhalt : (s.dev.stepped e c).Plain (· ∈ [Reg.CE_STATUS e, Reg.EVR_LOSS]) ((s.dev.stepped e c).haltEngine e) :=
    Device.plain_haltEngine _ (by simp) (by simp)
  have hrd (a : Nat) (hs : a ≠ Reg.CE_STATUS e) (hev : a ≠ Reg.EVR_LOSS) :
      ((s.dev.stepped e c).haltEngine e).rd a = (s.dev.stepped e c).rd a := hhalt.regs a (by simp [hs, hev])
  obtain ⟨r, v, hform⟩ := hhalt.form
  have hce : (((s.dev.stepped e c).haltEngine e).endCmd (portCE e) 0).sluice.ce = (s.dev.stepped e c).ce := by
    simp [hform]
  obtain ⟨hmem, hlarea, hprog⟩ := s.dev.resumed_mem (e := e)
  refine done_ce (t := s.dev.cmdStep e 0) rfl (fun hb => s.dev.cmdStep_ok hb hp hh hl hc hn) ?_
    ⟨?_, ?_, ?_, ⟨?_, ?_, ?_⟩, ?_⟩
  · have h1 : Reg.CE_CMD_STATUS e ≠ Reg.CE_STATUS e := (status_ne_cmd e e).symm
    have h2 : Reg.CE_CMD_STATUS e ≠ Reg.EVR_LOSS := by simp only [Reg.CE_CMD_STATUS, Reg.EVR_LOSS]; omega
    have h3 : Reg.CE_CMD_STATUS e ≠ Reg.TASK_ENG_RETIRED_LO e := by
      simp only [Reg.CE_CMD_STATUS, Reg.TASK_ENG_RETIRED_LO]; omega
    have h4 : Reg.CE_CMD_STATUS e ≠ Reg.TASK_ENG_RETIRED_HI e := by
      simp only [Reg.CE_CMD_STATUS, Reg.TASK_ENG_RETIRED_HI]; omega
    exact (Device.fld_congr (((hrd _ h1 h2).trans (s.dev.rd_stepped h3 h4)).trans (Device.rd_setF_other _ _ h1))).trans
      s.dev.seq_resumed
  · exact (Device.fld_ended_status _ e.isLt rfl).trans (Device.haltEngine_shows _ e.isLt).1
  · rw [Device.ctx_congr hce, Device.ctx_setCtx_same]
  · rw [← s.dev.retired_stepped (c := c)]
    refine Device.retired_congr ((Device.rd_ended _ (hi_ne_gate e e.isLt) ?_).trans (hrd _ ?_ ?_))
      ((Device.rd_ended _ (lo_ne_gate e e.isLt) ?_).trans (hrd _ ?_ ?_))
    · simp only [Reg.TASK_ENG_RETIRED_HI, Reg.CE_CMD_STATUS]; omega
    · exact (status_ne_hi e e.isLt).symm
    · simp only [Reg.TASK_ENG_RETIRED_HI, Reg.EVR_LOSS]; omega
    · simp only [Reg.TASK_ENG_RETIRED_LO, Reg.CE_CMD_STATUS]; omega
    · exact (status_ne_lo e e.isLt).symm
    · simp only [Reg.TASK_ENG_RETIRED_LO, Reg.EVR_LOSS]; omega
  · simpa [hform] using hmem
  · simpa [hform] using hlarea
  · simpa [hform] using hprog
  · refine ⟨Device.tcell_congr ?_, Device.ccell_congr ?_⟩ <;>
      rw [hce] <;> simp [Device.setCtx, s.dev.resumed_ce]

/-! ## Breakpoints (R97) -/

theorem completes_breakpointWrite {s : State} {e : Eng} (hp : s.dev.perm permDebug = true) (n : Fin 4) (v : Word) :
    Completes (.breakpointWrite e n v) s (fun t =>
      t.rd (Reg.CE_BP e n) = v &&& 0x801F7FFF ∧ s.dev.Writes t [Reg.CE_BP e n]) := by
  have hw : s.dev.bpWrite e n v = s.dev.wr (Reg.CE_BP e n) (v &&& bpMask) := if_pos hp
  have hgate : Reg.CE_BP e n ≠ Reg.SF_GATE := by simp only [Reg.CE_BP, Reg.SF_GATE]; omega
  refine completes_next (t := s.dev.bpWrite e n v) rfl ?_
  rw [hw]
  exact ⟨(Device.rd_sluice _ hgate).trans (s.dev.rd_wr_same _ _), (s.dev.plain_wr _ List.mem_cons_self).writes⟩

/-- A breakpoint that matches the context that the dispatcher selects halts the engine. -/
theorem completes_breakpointHit {s : State} {e : Eng} {n : Fin 4} {c : Nat} (hrun : s.dev.engState e = 3)
    (hl : s.dev.debugLane = true) (hpick : s.dev.pickCtx e 16 = some c) (hactive : s.dev.ctxState e c = 2)
    (hmatch : s.dev.bpMatch e n c = true) : Completes (.breakpointHit e n) s (fun t =>
      t.engState e = 4 ∧ t.bit (Reg.CE_STATUS_DBG_TOUCHED e) = true ∧
      s.dev.Writes t [Reg.CE_STATUS e, Reg.EVR_LOSS]) := by
  have hdisp : s.dev.dispatch e c = s.dev.dispatched e c := by
    rw [Device.dispatch, if_neg (by rw [hactive]; decide)]
  have hbp (f : Fld) (hf : f.addr = Reg.CE_BP e n) : (s.dev.dispatched e c).fld f = s.dev.fld f := by
    refine Device.fld_congr (Device.rd_setF_other _ _ ?_)
    simp only [hf, Reg.CE_BP, Reg.CE_STATUS_ACTIVE_CTX, Reg.CE_STATUS]; omega
  have hmatch' : (s.dev.dispatched e c).bpMatch e n c = true := by
    rw [← hmatch]
    simp only [Device.bpMatch, Device.bit, hbp (Reg.CE_BP_EN e n) rfl, hbp (Reg.CE_BP_PC e n) rfl,
      hbp (Reg.CE_BP_ANY_CTX e n) rfl, hbp (Reg.CE_BP_CTX e n) rfl, Device.ctx_setF]
  obtain ⟨words, hhit⟩ : ∃ words, exec (.breakpointHit e n) s
      = .next ⟨(((s.dev.dispatched e c).haltEngine e).raise 0x08E words).sluice, s.pending⟩ := by
    have hx : exec (.breakpointHit e n) s = execBreakpointHit e n s := rfl
    have hgo : ¬(s.dev.engState e ≠ stRun ∨ (!s.dev.debugLane) = true) := by simp [hrun, hl, stRun]
    simp only [hx, execBreakpointHit, run, if_neg hgo, hpick, hdisp, hmatch', if_true]
    exact ⟨_, rfl⟩
  obtain ⟨hstate, htouched⟩ := (s.dev.dispatched e c).haltEngine_shows e.isLt
  have hloss : Reg.CE_STATUS e ≠ Reg.EVR_LOSS := by simp only [Reg.CE_STATUS, Reg.EVR_LOSS]; omega
  have hshow (f : Fld) (hf : f.addr = Reg.CE_STATUS e) :
      (((s.dev.dispatched e c).haltEngine e).raise 0x08E words).sluice.fld f
        = ((s.dev.dispatched e c).haltEngine e).fld f :=
    (Device.fld_sluice _ (hf ▸ status_ne_gate e e.isLt)).trans (Device.fld_raise _ _ _ (hf ▸ hloss))
  refine completes_next hhit ⟨(hshow _ rfl).trans hstate, ?_, ?_⟩
  · rw [Device.bit, hshow _ rfl]
    exact htouched
  · exact (((s.dev.plain_setF _ (by simp [Reg.CE_STATUS_ACTIVE_CTX])).trans
      (Device.plain_haltEngine _ (by simp) (by simp))).trans (Device.plain_raise _ _ _ (by simp))).writes

/-- Settles O28, command by command. -/
theorem debugCommands : Obligations.DebugCommands := by
  intro s e hp
  refine ⟨fun hrun hl => done_halt hp hrun hl, fun hh c n h0 => done_regRead hp hh c h0,
    fun hh hq c n h0 => done_regWrite hp hh c h0 hq, fun hh hc ho => done_resume hp hh hc ho,
    fun hh hl hc c h1 h2 h3 h4 h5 => done_step hp hh hl hc ⟨h1, h2, h3, h4, h5⟩,
    fun n v => completes_breakpointWrite hp n v, fun hrun hl n c hpick hactive hen hpc hctx => ?_⟩
  refine completes_breakpointHit hrun hl hpick hactive ?_
  simpa [Device.bpMatch, hen, hpc] using hctx

end Sys2Proof.Machine
end

section
/-! SUPPORT. Debug commands without the DEBUG permission (R29, R92): what a command leaves that the seal refuses. -/

namespace Sys2Proof.Machine

/-- The effect of a command that the seal refuses: it ends with code 4, with the event at offset 2. -/
def Device.denied (d : Device) (p : Port) (words : List Word) : Device := (d.endCmd p 4).raise (p.ev + 2) words

theorem Device.command_denied (d : Device) (p : Port) (op arg : Nat) (w : Word) {k : Checks} (body : Device → Device)
    (hb : d.fld p.busy = 0) (harg : k.arg = true) (hgrant : k.grant = false) :
    ∃ words, d.command p op arg w k body = d.denied p words := by
  have hbusy : d.bit p.busy = false := by simp [Device.bit, hb]
  refine ⟨p.words [wd (op * 0x1000000 + arg), wd (d.fld Reg.SF_SEAL_STAT_PERM_NOW)], ?_⟩
  simp [Device.command, hbusy, harg, hgrant, Device.denied]

/-- A refused command ends with code 4, is reported, and leaves everything else as it was. -/
theorem completes_denied {i : Instr} {s : State} {t : Device} {e : Eng} (hx : exec i s = .next ⟨t.sluice, s.pending⟩)
    (ht : ∃ words, t = s.dev.denied (portCE e) words) : Completes i s (fun t =>
      t.Ended s.dev (portCE e) 4 ∧ s.dev.Writes t [Reg.CE_CMD_STATUS e, Reg.EVR_LOSS] ∧
      ∃ words, s.dev.Logs t 0x082 words) := by
  obtain ⟨words, rfl⟩ := ht
  obtain ⟨hgate, hloss, -⟩ := portOf_apart (i := .halt e 0) rfl
  have hcode : Reg.EVR_CODE 0x082 ≠ (portCE e).stat := by simp only [Reg.EVR_CODE, portCE, Reg.CE_CMD_STATUS]; omega
  have hend (f : Fld) (hf : f.addr = (portCE e).stat) :
      (s.dev.denied (portCE e) words).sluice.fld f = (s.dev.endCmd (portCE e) 4).fld f :=
    (Device.fld_sluice _ (hf ▸ hgate)).trans (Device.fld_raise _ _ _ (hf ▸ hloss))
  have hplain : s.dev.Plain (· ∈ [Reg.CE_CMD_STATUS e, Reg.EVR_LOSS]) (s.dev.denied (portCE e) words) :=
    (s.dev.plain_endCmd (portCE e) 4 List.mem_cons_self).trans (Device.plain_raise _ _ _ (by simp))
  have hlogs : s.dev.Logs (s.dev.denied (portCE e) words) 0x082 words :=
    s.dev.raise_logs _ _ _ (s.dev.rd_endCmd _ _ hcode) (by simp) (by simp)
  exact completes_next hx ⟨⟨(hend _ rfl).trans (s.dev.endCmd_busy _ _), (hend _ rfl).trans (s.dev.endCmd_code _ _),
    (hend _ rfl).trans (s.dev.endCmd_seq _ _)⟩, hplain.writes, words, hlogs.congr (Device.sluice_evr _)⟩

/-- Settles O29: the seal refuses the five commands, and a breakpoint write is reported alone. -/
theorem debugNeedsSeal : Obligations.DebugNeedsSeal := by
  intro s e hp
  refine ⟨fun i hi hb => ?commands, fun n v => ?breakpoint⟩
  case commands =>
    have hdenied (op arg : Nat) (legal : Bool) (body : Device → Device) : ∃ words,
        s.dev.command (portCE e) op arg (s.dev.ceState e) ⟨true, s.dev.perm permDebug, legal⟩ body
          = s.dev.denied (portCE e) words := s.dev.command_denied _ _ _ _ _ hb rfl hp
    have hdeniedNow (op arg : Nat) (legal : Bool) (body : Device → Device) : ∃ words,
        s.dev.commandNow (portCE e) op arg (s.dev.ceState e) ⟨true, s.dev.perm permDebug, legal⟩ body
          = s.dev.denied (portCE e) words := hdenied ..
    simp only [List.mem_cons, List.not_mem_nil, or_false] at hi
    rcases hi with rfl | rfl | rfl | rfl | rfl
    · exact completes_denied (t := s.dev.cmdHalt e 0) rfl (hdeniedNow ..)
    · exact completes_denied (t := s.dev.cmdResume e 0) rfl (hdenied ..)
    · exact completes_denied (t := s.dev.cmdStep e 0) rfl (hdenied ..)
    · exact completes_denied (t := s.dev.cmdRegRead e 1) rfl (hdeniedNow ..)
    · exact completes_denied (t := s.dev.cmdRegWrite e 1) rfl (hdeniedNow ..)
  case breakpoint =>
    obtain ⟨words, hw⟩ : ∃ words, s.dev.bpWrite e n v = s.dev.raise 0x082 words :=
      ⟨_, if_neg (by simp [hp])⟩
    refine completes_next (t := s.dev.bpWrite e n v) rfl ?_
    rw [hw]
    exact ⟨(s.dev.plain_raise 0x082 words (by simp)).writes, words,
      (s.dev.raise_logs s.dev 0x082 words rfl rfl rfl).congr (Device.sluice_evr _)⟩

end Sys2Proof.Machine
end

section
/-! SUPPORT. The TAP (R102, R104): an instruction update, and an access of DBG_ACCESS from its Update-DR on. Each changes
the state of the TAP alone. -/

namespace Sys2Proof.Machine

/-! ## The state of the TAP -/

/-- The device with another state of the TAP: its instruction, what Capture-DR shows and the access that runs. -/
def Device.withTap (d : Device) (ir : Nat) (prev : DbgAcc) (acc : Option DbgAcc) : Device :=
  { d with ce := { d.ce with tapIr := ir, dbgPrev := prev, dbgRun := acc } }

/-- Registers, memory, engines and units hold what they held. -/
def Device.TapKeeps (d t : Device) : Prop :=
  d.KeepsRegs t [Reg.SF_GATE] ∧ d.KeepsMem t ∧ d.KeepsCells t ∧ d.KeepsUnits t ∧ t.ce.main = d.ce.main ∧
    t.ce.chk = d.ce.chk

theorem Device.withTap_keeps (d : Device) (ir : Nat) (prev : DbgAcc) (acc : Option DbgAcc) :
    d.TapKeeps (d.withTap ir prev acc).sluice := by
  have hce : (d.withTap ir prev acc).sluice.ce = { d.ce with tapIr := ir, dbgPrev := prev, dbgRun := acc } :=
    Device.sluice_ce _
  refine ⟨fun a ha => Device.rd_sluice _ (List.ne_of_not_mem_cons ha), ?_, ?_, ?_, by rw [hce], by rw [hce]⟩
  · exact ⟨Device.sluice_mem _, Device.sluice_larea _, Device.sluice_prog _⟩
  · exact ⟨Device.tcell_congr (by rw [hce]), Device.ccell_congr (by rw [hce])⟩
  · constructor <;> simp [Device.withTap]

/-- A command that changes the TAP alone. -/
theorem completes_tap {i : Instr} {s : State} {f : Device → Device} {P : Device → Prop} {ir : Nat} {prev : DbgAcc}
    {acc : Option DbgAcc} (hx : exec i s = run f s) (hf : f s.dev = s.dev.withTap ir prev acc)
    (hP : ∀ t : Device, t.ce.tapIr = ir → t.ce.dbgPrev = prev → t.ce.dbgRun = acc → s.dev.TapKeeps t → P t) :
    Completes i s P := by
  have hce := (s.dev.withTap ir prev acc).sluice_ce
  exact completes_run hx hf (hP _ (by rw [hce]; rfl) (by rw [hce]; rfl) (by rw [hce]; rfl)
    (s.dev.withTap_keeps ir prev acc))

/-! ## Update-DR of DBG_ACCESS (R104) -/

/-- OP, the word address and the data of a DBG_ACCESS register. -/
theorem dbgWord_fields (op : Fin 4) (wa : BitVec 30) (v : Word) {dr : BitVec 64}
    (hdr : dr = BitVec.ofNat 64 (op.val * 2 ^ 62 + wa.toNat * 2 ^ 32 + v.toNat)) :
    dr.toNat / 2 ^ 62 = op.val ∧ dr.toNat / 2 ^ 32 % 2 ^ 30 = wa.toNat ∧ wd dr.toNat = v := by
  have hop := op.isLt
  have hwa := wa.isLt
  have hv := v.isLt
  have hn : dr.toNat = op.val * 2 ^ 62 + wa.toNat * 2 ^ 32 + v.toNat := by
    rw [hdr, BitVec.toNat_ofNat, Nat.mod_eq_of_lt (by omega)]
  refine ⟨by omega, by omega, BitVec.eq_of_toNat_eq ?_⟩
  rw [wd, BitVec.toNat_ofNat]
  omega

/-- DBG_ACCESS is in effect with DEBUG, and acts as BYPASS without. -/
theorem Device.tapEffective_access (d : Device) : d.tapEffective 8 = if d.perm permDebug then 8 else 15 := by
  simp [Device.tapEffective, irIdcode, irExtest, irSample, irAccess, irBypass]

section
variable {s : State} {op : Fin 4} {wa : BitVec 30} {v : Word} {dr : BitVec 64} {P : Device → Prop}
  (hir : s.dev.ce.tapIr = 8)
include hir

/-- Without DEBUG the access is refused. -/
theorem dbgUpdate_refused (hdr : dr = BitVec.ofNat 64 (op.val * 2 ^ 62 + wa.toNat * 2 ^ 32 + v.toNat))
    (hp : s.dev.perm permDebug = false)
    (hP : ∀ t : Device, t.ce.dbgPrev = ⟨3, wa.toNat, 0⟩ → t.ce.dbgRun = s.dev.ce.dbgRun → s.dev.TapKeeps t → P t) :
    Completes (.dbgAccess dr) s P := by
  obtain ⟨-, hwa, -⟩ := dbgWord_fields op wa v hdr
  refine completes_tap (ir := 8) (show execDbgAccess dr s = run _ s from rfl) ?_ fun t _ => hP t
  simp only [hir, s.dev.tapEffective_access, hp, hwa]
  exact if_pos (by decide)

variable (hp : s.dev.perm permDebug = true)
include hp

/-- While an access runs, another is discarded. -/
theorem dbgUpdate_discarded {r : DbgAcc} (hr : s.dev.ce.dbgRun = some r)
    (hP : ∀ t : Device, t.ce.dbgPrev = ⟨1, r.waddr, 0⟩ → t.ce.dbgRun = some r → s.dev.TapKeeps t → P t) :
    Completes (.dbgAccess dr) s P := by
  refine completes_tap (ir := 8) (show execDbgAccess dr s = run _ s from rfl) ?_ fun t _ => hP t
  simp only [hir, s.dev.tapEffective_access, hp, hr]
  rw [if_neg (by decide), if_neg (by decide)]
  rfl

variable (hdr : dr = BitVec.ofNat 64 (op.val * 2 ^ 62 + wa.toNat * 2 ^ 32 + v.toNat)) (hr : s.dev.ce.dbgRun = none)
include hdr hr

/-- OP 3 makes no access. -/
theorem dbgUpdate_error (hop : op.val = 3)
    (hP : ∀ t : Device, t.ce.dbgPrev = ⟨2, wa.toNat, 0⟩ → t.ce.dbgRun = none → s.dev.TapKeeps t → P t) :
    Completes (.dbgAccess dr) s P := by
  obtain ⟨ho, hwa, -⟩ := dbgWord_fields op wa v hdr
  refine completes_tap (ir := 8) (show execDbgAccess dr s = run _ s from rfl) ?_ fun t _ => hP t
  simp only [hir, s.dev.tapEffective_access, hp, hr, ho, hwa, hop]
  rw [if_neg (by decide), if_neg (by decide), if_neg (by decide), if_pos trivial]
  rfl

/-- A read or a write starts. -/
theorem dbgUpdate_starts (hop : op.val = 1 ∨ op.val = 2)
    (hP : ∀ t : Device, t.ce.dbgRun = some ⟨op.val, wa.toNat, v⟩ → s.dev.TapKeeps t → P t) :
    Completes (.dbgAccess dr) s P := by
  obtain ⟨ho, hwa, hv⟩ := dbgWord_fields op wa v hdr
  refine completes_tap (ir := 8) (prev := s.dev.ce.dbgPrev) (show execDbgAccess dr s = run _ s from rfl) ?_
    fun t _ _ => hP t
  simp only [hir, s.dev.tapEffective_access, hp, hr, ho, hwa, hv]
  rw [if_neg (by decide), if_neg (by decide), if_neg (by omega), if_neg (by omega)]
  rfl

end

/-- Settles O30: every command of the TAP changes the state of the TAP alone. -/
theorem tapAccess : Obligations.TapAccess := by
  intro s
  refine ⟨?reset, fun ir => ?update, fun op wa v hir dr hdr => ⟨fun hp => ?refused, fun hp hr hop => ?starts,
    fun hp hr hop => ?error, fun hp r hr => ?discarded⟩⟩
  case reset => exact completes_tap (show execTapReset s = run _ s from rfl) rfl fun t hir _ _ hk => ⟨hir, hk⟩
  case update =>
    exact completes_tap (show execTapInstructionUpdate ir s = run _ s from rfl) rfl fun t hir _ _ hk => ⟨hir, hk⟩
  case refused =>
    exact dbgUpdate_refused hir hdr hp fun t hprev hacc hk => ⟨by rw [hprev], by rw [hprev], hacc, hk⟩
  case starts => exact dbgUpdate_starts hir hp hdr hr hop fun t hacc hk => ⟨hacc, hk⟩
  case error => exact dbgUpdate_error hir hp hdr hr hop fun t hprev hacc hk => ⟨hacc, by rw [hprev], by rw [hprev], hk⟩
  case discarded => exact dbgUpdate_discarded hir hp hr fun t hprev hacc hk => ⟨hacc, by rw [hprev], hk⟩

end Sys2Proof.Machine
end

section
/-! SUPPORT. Aznum bit logic (R117–R127): combines, stores of a bit, branches and LA control, and the statement about
them. -/

namespace Sys2Proof.Machine

/-! ## Bits of a number -/

/-- A number of w bits keeps its width when one of them is written. -/
theorem putBit_lt {n i w : Nat} (b : Bool) (hn : n < 2 ^ w) (hi : i < w) : putBit n i b < 2 ^ w := by
  refine Nat.lt_pow_two_of_testBit _ fun j hj => ?_
  rw [testBit_putBit, if_neg (by omega)]
  exact Nat.testBit_lt_two_pow (lt_of_lt_of_le hn (Nat.pow_le_pow_right (by decide) hj))

/-- A word with one bit written. -/
theorem getLsbD_wd_putBit (w : Word) (i : Nat) (b : Bool) {j : Nat} (hj : j < 32) :
    (wd (putBit w.toNat i b)).getLsbD j = if j = i then b else w.getLsbD j := by
  rw [getLsbD_wd _ hj, testBit_putBit, BitVec.testBit_toNat]

/-! ## The target of a bit instruction (R117–R119) -/

section
variable {d : Device} {e : Eng} {c ar p : Nat} {x : Ctx} {mode : BitVec 2} {area : BitVec 4} {ba : BitVec 20}

/-- An instruction that reads goes on with the bit that its fields name. -/
theorem Device.BitTarget.onBit_read (h : d.BitTarget e c x mode area ba ar p) (k : Device → Nat → Nat → Res) :
    onBit e mode area ba false k d c x = k d ar p := by
  simp only [onBit, h.legal, h.bitPlace, Bool.false_eq_true, if_false, Bool.false_and]

/-- An instruction that stores goes on with the bit that its fields name, outside areas I, T and C. -/
theorem Device.BitTarget.onBit_store (h : d.BitTarget e c x mode area ba ar p) (hI : ar ≠ areaI) (hT : ar ≠ areaT)
    (hC : ar ≠ areaC) (k : Device → Nat → Nat → Res) : onBit e mode area ba true k d c x = k d ar p := by
  simp [onBit, h.legal, h.bitPlace, hI, hT, hC]

/-- A bit without an error is read. -/
theorem readBit_clean (h : d.Clean (d.bitKeys e c ar p)) (k : Device → Bool → Res) :
    readBit e c x d ar p k = k d (d.areaBit e c ar p) := by
  rw [readBit, Device.eccReads_clean d 0 e _ h]

end

/-- The byte of bit p holds v there, and its other bits as before. -/
def Device.StoredBit (d t : Device) (e c ar p : Nat) (v : Bool) : Prop :=
  ∃ b : Byte, (∀ j, j < 8 → b.getLsbD j = if j = p % 8 then v else (d.underByte e c ar (p / 8)).getLsbD j) ∧
    d.Stored t e c ar (p / 8) 1 b.toNat

/-- The codeword of a byte of an L area is the one behind its bits. -/
theorem Device.bitKeys_L (d : Device) (e c p : Nat) : d.bitKeys e c areaL p = [eccLocal e c (p / 8)] := by
  have hn : (p / 8 + 1 - 1) / 4 - p / 8 / 4 + 1 = 1 := by omega
  rw [Device.bitKeys, Device.areaKeys, if_pos rfl, if_neg (by decide), hn]
  rfl

/-- A bit write that meets no error: what it stores, and that it changes memories and codeword errors alone (R120). -/
theorem Device.writeBit_clean (d : Device) {e c ar p : Nat} (v : Bool) (h : d.Clean (d.bitKeys e c ar p))
    (hT : ar ≠ areaT) (hC : ar ≠ areaC) :
    ∃ m l x, d.writeBit e c ar p v = (true, { d with mem := m, larea := l, ce := { d.ce with ecc := x } }) ∧
      d.Stored { d with mem := m, larea := l, ce := { d.ce with ecc := x } } e c ar (p / 8) 1
        (putBit (d.underByte e c ar (p / 8)).toNat (p % 8) v) := by
  have hl : ar = areaL → d.ecc (eccLocal e c (p / 8)) = .clean := by
    rintro rfl
    exact h _ (by simp [Device.bitKeys_L])
  obtain ⟨m, l, x, hw, hs, -⟩ := d.areaWrite_clean e c ar (p / 8) 1 _ h hl hT hC
  exact ⟨m, l, x, hw, hs⟩

section
variable {s : State} {e : Eng} {c : Nat} (h : s.dev.Executes e c) {i : Instr}
include h

section
variable {mode : BitVec 2} {area : BitVec 4} {ba : BitVec 20} {ar p : Nat}
  (ht : s.dev.BitTarget e c (s.dev.ctx e c) mode area ba ar p) (hk : s.dev.Clean (s.dev.bitKeys e c ar p))
include ht hk

/-- A combine folds the bit that it reads, negated for the N forms (R122). -/
theorem Device.Executes.runs_combine (op : BitOp) {neg v : Bool} (hv : (s.dev.areaBit e c ar p != neg) = v)
    (hx : exec i s = run (Sys2Proof.Machine.azStep e (combineOp op neg e mode area ba)) s) :
    Runs i s e c ((s.dev.ctx e c).combine op v) := by
  have hd := s.dev.same_dispatched e c
  refine h.runs_ok hx ?_
  rw [combineOp, (hd.bitTarget ht).onBit_read, readBit_clean (by rw [hd.bitKeys]; exact hd.clean hk), hd.areaBit, hv]

variable (hI : ar ≠ areaI) (hT : ar ≠ areaT) (hC : ar ≠ areaC)
include hI hT hC

omit ht hI in
/-- An instruction that comes to a store of v in its bit, and leaves the registers y. -/
theorem Device.Executes.stores_bit {f : Device → Nat → Ctx → Res} {v : Bool} {y : Ctx}
    (hx : exec i s = run (Sys2Proof.Machine.azStep e f) s)
    (hf : f (s.dev.dispatched e c) c (s.dev.ctx e c) =
      storeBit e c (s.dev.ctx e c) (s.dev.dispatched e c) ar p v (fun d => .ok d y)) :
    Completes i s (fun t => s.dev.Wrote t e c y ∧ s.dev.StoredBit t e c ar p v) := by
  have hd := s.dev.same_dispatched e c
  have hb : (s.dev.underByte e c ar (p / 8)).toNat < 2 ^ 8 := BitVec.isLt _
  have hlt := putBit_lt v hb (Nat.mod_lt p (by decide))
  obtain ⟨m, l, z, hw, hst⟩ := (s.dev.dispatched e c).writeBit_clean v
    (by rw [hd.bitKeys]; exact hd.clean hk) hT hC
  rw [storeBit, hw] at hf
  rw [hd.underByte] at hst
  obtain ⟨t, hn, hp, hwr, hs⟩ := h.completes_store hx hf hst
  refine ⟨t, hn, hp, hwr, BitVec.ofNat 8 (putBit (s.dev.underByte e c ar (p / 8)).toNat (p % 8) v), fun j hj => ?_, ?_⟩
  · rw [BitVec.getLsbD_ofNat, testBit_putBit, BitVec.testBit_toNat]
    simp [hj]
  · rwa [BitVec.toNat_ofNat, Nat.mod_eq_of_lt hlt]

/-- STO and STON store LA, negated for STON (R124). -/
theorem Device.Executes.stores_sto {neg v : Bool} (hv : ((s.dev.ctx e c).la != neg) = v)
    (hx : exec i s = run (Sys2Proof.Machine.azStep e (storeOp neg e mode area ba)) s) :
    Completes i s (fun t => s.dev.Wrote t e c { s.dev.ctx e c with co := true } ∧
      s.dev.StoredBit t e c ar p v) := by
  refine h.stores_bit hk hT hC hx ?_
  rw [storeOp, ((s.dev.same_dispatched e c).bitTarget ht).onBit_store hI hT hC, hv]

/-- SET and RST store their value with LA = 1 (R124). -/
theorem Device.Executes.stores_set {v : Bool} (hla : (s.dev.ctx e c).la = true)
    (hx : exec i s = run (Sys2Proof.Machine.azStep e (setOp v e mode area ba)) s) :
    Completes i s (fun t => s.dev.Wrote t e c { s.dev.ctx e c with co := true } ∧ s.dev.StoredBit t e c ar p v) := by
  refine h.stores_bit hk hT hC hx ?_
  rw [setOp, ((s.dev.same_dispatched e c).bitTarget ht).onBit_store hI hT hC, if_pos hla]

omit hk in
/-- SET and RST with LA = 0 leave memory alone. -/
theorem Device.Executes.runs_set {v : Bool} (hla : (s.dev.ctx e c).la = false)
    (hx : exec i s = run (Sys2Proof.Machine.azStep e (setOp v e mode area ba)) s) :
    Runs i s e c { s.dev.ctx e c with co := true } := by
  refine h.runs_ok hx ?_
  rw [setOp, ((s.dev.same_dispatched e c).bitTarget ht).onBit_store hI hT hC, if_neg (by simp [hla])]

/-- EDGR and EDGF store LA in the edge bit and leave the edge in LA (R125). -/
theorem Device.Executes.stores_edge {falling : Bool}
    (hx : exec i s = run (Sys2Proof.Machine.azStep e (edgeOp falling e mode area ba)) s) :
    Completes i s (fun t => s.dev.Wrote t e c { s.dev.ctx e c with
        la := if falling then !(s.dev.ctx e c).la && s.dev.areaBit e c ar p
          else (s.dev.ctx e c).la && !s.dev.areaBit e c ar p } ∧
      s.dev.StoredBit t e c ar p (s.dev.ctx e c).la) := by
  have hd := s.dev.same_dispatched e c
  refine h.stores_bit hk hT hC hx ?_
  rw [edgeOp, (hd.bitTarget ht).onBit_store hI hT hC, readBit_clean (by rw [hd.bitKeys]; exact hd.clean hk), hd.areaBit]

end

/-! ## Branches (R126, R127) -/

/-- BR pushes LA and CO, as long as the branch stack has room. -/
theorem Device.Executes.runs_branchOpen (hl : (s.dev.ctx e c).lsp < 32)
    (hx : exec i s = run (Sys2Proof.Machine.azStep e (branchOpen 0)) s) :
    Runs i s e c { s.dev.ctx e c with
      ls := wd (putBit (s.dev.ctx e c).ls.toNat (s.dev.ctx e c).lsp (s.dev.ctx e c).la)
      lse := wd (putBit (s.dev.ctx e c).lse.toNat (s.dev.ctx e c).lsp (s.dev.ctx e c).co)
      lsp := (s.dev.ctx e c).lsp + 1, co := true } := by
  refine h.runs_ok hx ?_
  rw [branchOpen, if_neg (by simp), if_neg (by omega)]

/-- JOIN pops the branch stack and folds the branch result. -/
theorem Device.Executes.runs_branchJoin {k : Fin 6} {p : Nat} (hp : (s.dev.ctx e c).lsp = p + 1) {r : Bool}
    (hr : ((s.dev.ctx e c).la != decide (k.val % 2 = 1)) = r)
    (hx : exec i s = run (Sys2Proof.Machine.azStep e (branchJoin k 0)) s) :
    Runs i s e c { s.dev.ctx e c with
      lsp := p, co := false
      la := if (s.dev.ctx e c).lse.getLsbD p then r else (joinOp k).apply ((s.dev.ctx e c).ls.getLsbD p) r } := by
  refine h.runs_ok hx ?_
  simp only [branchJoin, ne_eq, not_true_eq_false, if_false, hp, Nat.add_one_ne_zero, Nat.add_sub_cancel, hr,
    BitVec.testBit_toNat]

end

/-- The kinds of JOIN: the odd ones negate, and each pair has its operator. -/
theorem joinKind (k : Fin 6) (la p r : Bool) :
    (la != decide (k.val % 2 = 1)) = (if k.val = 1 ∨ k.val = 3 ∨ k.val = 5 then !la else la) ∧
    (joinOp k).apply p r = if k.val < 2 then p && r else if k.val < 4 then p || r else p ^^ r := by
  revert k la p r
  decide

/-- Settles O2, by the shape of the instruction: LA control and branches, combines, stores of a bit. -/
theorem bitLogic : Obligations.BitLogic := by
  refine ⟨?chain, ?combines, ?stores⟩
  case chain =>
    rintro s e c h x rfl
    refine ⟨h.runs_regOp rfl rfl rfl, h.runs_regOp rfl rfl rfl, h.runs_regOp rfl rfl rfl, h.runs_regOp rfl rfl rfl,
      fun hl => ⟨_, _, fun i hi => getLsbD_wd_putBit _ _ _ hi, fun i hi => getLsbD_wd_putBit _ _ _ hi,
        h.runs_branchOpen hl rfl⟩, ?_⟩
    rintro p - hp k r v rfl rfl
    rw [← (joinKind k (s.dev.ctx e c).la false false).1, ← (joinKind k false _ _).2]
    exact h.runs_branchJoin hp rfl rfl
  case combines =>
    rintro s e c h x rfl mode area ba ar p v ht hk rfl
    have plain := Bool.bne_false (s.dev.areaBit e c ar p)
    have negated := Bool.bne_true (s.dev.areaBit e c ar p)
    exact ⟨h.runs_combine ht hk .and plain rfl, h.runs_combine ht hk .and negated rfl,
      h.runs_combine ht hk .or plain rfl, h.runs_combine ht hk .or negated rfl,
      h.runs_combine ht hk .xor plain rfl, h.runs_combine ht hk .xor negated rfl⟩
  case stores =>
    rintro s e c h x rfl mode area ba ar p m ht hk rfl hI hT hC
    exact ⟨h.stores_sto ht hk hI hT hC (Bool.bne_false _) rfl, h.stores_sto ht hk hI hT hC (Bool.bne_true _) rfl,
      fun hla => h.stores_set ht hk hI hT hC hla rfl, fun hla => h.stores_set ht hk hI hT hC hla rfl,
      fun hla => h.runs_set ht hI hT hC hla rfl, fun hla => h.runs_set ht hI hT hC hla rfl,
      h.stores_edge ht hk hI hT hC (falling := false) rfl, h.stores_edge ht hk hI hT hC (falling := true) rfl⟩

end Sys2Proof.Machine
end

section
/-! SUPPORT. Aznum control flow (R128–R132, R178): jumps, returns and how instances end, and the statement about
them. -/

namespace Sys2Proof.Machine

/-! ## Instructions that name the next position -/

/-- One instruction in context c of engine e has changed registers of its context only, the PC among them. -/
def Device.WentOn (d t : Device) (e c : Nat) (y : Ctx) : Prop :=
  d.Ran t e c 1 y ∧ d.KeepsRegs t (stepRegs e) ∧ d.KeepsMem t ∧ d.KeepsCells t ∧ d.KeepsUnits t ∧ t.evr = d.evr

/-- An instruction that goes to an index of a bank: the step counts, and the context goes on there. -/
theorem settle_goto (e c : Nat) (pc : BitVec 16) (d : Device) (x : Ctx) (bank : Nat) {q : Nat} (hq : q < 32768) :
    Device.settle e c pc (.goto d x bank q) =
      (d.retire e 1).setCtx e c { x with pc := BitVec.ofNat 16 (bank * 32768 + q) } := by
  rw [Device.settle, Device.advance, if_pos (by omega), Int.toNat_natCast]

/-- An instruction that completes on the device as it found it leaves everything but its context's registers. -/
theorem Device.wentOn_completed {d : Device} {e : Eng} {c : Nat} (h : d.Executes e c) (y : Ctx) :
    d.WentOn ((d.dispatched e c).completed e c 1 y) e c y := by
  have he := e.isLt
  refine ⟨Device.ran_completed h 1 _ rfl (Device.rd_setF_other _ _ (status_ne_lo e he).symm)
    (Device.rd_setF_other _ _ (status_ne_hi e he).symm) (by simp only [Device.setF_ce]), fun a ha => ?_,
    ⟨by simp, by simp, by simp⟩, ⟨Device.tcell_congr ?_, Device.ccell_congr ?_⟩, ?_, by simp⟩
  · simp only [stepRegs, List.mem_cons, List.not_mem_nil, or_false, not_or] at ha
    obtain ⟨hs, hlo, hhi, hg⟩ := ha
    rw [Device.rd_completed _ _ _ _ _ hg hlo hhi, Device.rd_setF_other _ _ hs]
  · simp [Device.setCtx]
  · simp [Device.setCtx]
  · constructor <;> simp

section
variable {s : State} {e : Eng} {c : Nat} (h : s.dev.Executes e c) {i : Instr}
include h

/-- An instruction that goes to an index of a bank, with the device as it found it. -/
theorem Device.Executes.goes {f : Device → Nat → Ctx → Res} {y : Ctx} {bank q : Nat} (hq : q < 32768)
    (hx : exec i s = run (Sys2Proof.Machine.azStep e f) s)
    (hf : f (s.dev.dispatched e c) c (s.dev.ctx e c) = .goto (s.dev.dispatched e c) y bank q) :
    Completes i s (fun t => s.dev.WentOn t e c { y with pc := BitVec.ofNat 16 (bank * 32768 + q) }) := by
  refine completes_run hx (t := ((s.dev.dispatched e c).retire e 1).setCtx e c _) ?_ (Device.wentOn_completed h _)
  rw [h.azStep f, hf, settle_goto _ _ _ _ _ _ hq]

end

/-- A key reads as what was written there, and every other key as before. -/
theorem sget_sput {α : Type} [DecidableEq α] (d : Nat → α) (m : SMap α) (k : Nat) (v : α) (j : Nat) :
    sget d (sput d m k v) j = if j = k then v else sget d m j := by
  split
  · next hj => rw [hj, sget_sput_same]
  · next hj => exact sget_sput_other d m v hj

/-! ## Jumps, calls, loops (R128–R130) -/

/-- The condition of a jump is met as R128 says. -/
theorem condMet_iff (x : Ctx) {k : Nat} (hk : k < 15) : condMet x k = true ↔ x.Meets k := by
  interval_cases k <;> simp [condMet, Ctx.Meets, and_assoc]

/-- A condition code other than 15, which R128 leaves unassigned. -/
theorem cond_lt {cond : BitVec 4} (h : cond ≠ 15) : cond.toNat < 15 := by
  have := cond.isLt
  have : cond.toNat ≠ 15 := fun hc => h (BitVec.eq_of_toNat_eq hc)
  omega

/-- A condition that tests LA sets CO. -/
theorem condCo_eq (x : Ctx) (cond : BitVec 4) :
    condCo x cond.toNat = if cond = 1 ∨ cond = 2 then { x with co := true } else x := by
  simp only [condCo, ← BitVec.toNat_inj]
  rfl

/-- The position after a call that is not the last one of its bank (R108). -/
theorem Ctx.pushCall_cs (x : Ctx) (h : x.pc.toNat % 32768 ≠ 32767) :
    x.pushCall.cs = sput (fun _ => 0) x.cs x.csp (x.pc + 1) := by
  have hp : BitVec.ofNat 16 (x.pc.toNat / 32768 * 32768 + (x.pc.toNat + 1) % 32768) = x.pc + 1 := by
    apply BitVec.eq_of_toNat_eq
    have := x.pc.isLt
    rw [BitVec.toNat_ofNat, BitVec.toNat_add]
    simp
    omega
  rw [Ctx.pushCall, hp]

/-- The call stack does not depend on CO. -/
theorem Ctx.pushCall_condCo (x : Ctx) (k : Nat) :
    (condCo x k).pushCall = { condCo x k with cs := x.pushCall.cs, csp := x.csp + 1 } := by
  unfold condCo
  split <;> rfl

/-- Counting down by one. -/
theorem ofInt_toInt_sub_one (w : Word) : BitVec.ofInt 32 (w.toInt - 1) = w - 1 := by
  rw [Int.sub_eq_add_neg, BitVec.ofInt_add, BitVec.ofInt_toInt]
  simp [BitVec.sub_eq_add_neg]

section
variable {s : State} {e : Eng} {c : Nat} (h : s.dev.Executes e c) {target : BitVec 22} {q : Nat}
  (hq : q < 32768) (ht : (q : Int) = ((s.dev.ctx e c).pc.toNat % 32768 : Nat) + target.toInt)

section
variable {cond : BitVec 4} (hc : cond ≠ 15)
include h hc

/-- A jump whose condition is not met falls through. -/
theorem Device.Executes.runs_jmp_unmet (hm : ¬ (s.dev.ctx e c).Meets cond.toNat) :
    Runs (.azJmp e cond target) s e c (condCo (s.dev.ctx e c) cond.toNat) := by
  refine h.runs_ok (f := jumpOp cond target) rfl ?_
  rw [jumpOp, if_neg hc, if_neg (by rwa [condMet_iff _ (cond_lt hc)])]

/-- A call whose condition is not met falls through. -/
theorem Device.Executes.runs_call_unmet (hm : ¬ (s.dev.ctx e c).Meets cond.toNat) :
    Runs (.azCall e cond target) s e c (condCo (s.dev.ctx e c) cond.toNat) := by
  refine h.runs_ok (f := callOp cond target) rfl ?_
  rw [callOp, if_neg hc, if_neg (by rwa [condMet_iff _ (cond_lt hc)])]

variable (hm : (s.dev.ctx e c).Meets cond.toNat)
include hq ht hm

/-- A jump whose condition is met goes to its target. -/
theorem Device.Executes.goes_jmp : Completes (.azJmp e cond target) s (fun t => s.dev.WentOn t e c
    { condCo (s.dev.ctx e c) cond.toNat with
      pc := BitVec.ofNat 16 ((s.dev.ctx e c).pc.toNat / 32768 * 32768 + q) }) := by
  refine h.goes (f := jumpOp cond target) hq rfl ?_
  rw [jumpOp, if_neg hc, if_pos ((condMet_iff _ (cond_lt hc)).mpr hm), jumpTo, ht]

/-- A call whose condition is met pushes the position after it and goes to its target. -/
theorem Device.Executes.goes_call (hs : (s.dev.ctx e c).csp < 16) :
    Completes (.azCall e cond target) s (fun t => s.dev.WentOn t e c
      { condCo (s.dev.ctx e c) cond.toNat with
        cs := sput (fun _ => 0) (s.dev.ctx e c).cs (s.dev.ctx e c).csp ((s.dev.ctx e c).pc + 1)
        csp := (s.dev.ctx e c).csp + 1
        pc := BitVec.ofNat 16 ((s.dev.ctx e c).pc.toNat / 32768 * 32768 + q) }) := by
  rw [← Ctx.pushCall_cs _ h.inside]
  refine h.goes (f := callOp cond target) (y := { condCo (s.dev.ctx e c) cond.toNat with
    cs := (s.dev.ctx e c).pushCall.cs, csp := (s.dev.ctx e c).csp + 1 }) hq rfl ?_
  rw [callOp, if_neg hc, if_pos ((condMet_iff _ (cond_lt hc)).mpr hm), if_neg (by omega), jumpTo, ← ht,
    Ctx.pushCall_condCo]

end

include h hq ht in
/-- DECJ jumps while the count exceeds 1. -/
theorem Device.Executes.goes_decj {r : BitVec 4} {y : Ctx}
    (hy : decjOp r target (s.dev.dispatched e c) c (s.dev.ctx e c) =
      .goto (s.dev.dispatched e c) y ((s.dev.ctx e c).pc.toNat / 32768) (jumpTo (s.dev.ctx e c) target)) :
    Completes (.azDecj e r target) s (fun t => s.dev.WentOn t e c
      { y with pc := BitVec.ofNat 16 ((s.dev.ctx e c).pc.toNat / 32768 * 32768 + q) }) :=
  h.goes hq rfl (by rw [hy, jumpTo, ht])

end

/-- What DECJ on X answers, by its count. -/
theorem decjOp_x (target : BitVec 22) (d : Device) (c : Nat) (x : Ctx) : decjOp 0 target d c x =
    if 1 < x.x.toInt then
      .goto d { x with x := BitVec.ofInt 32 (x.x.toInt - 1) } (x.pc.toNat / 32768) (jumpTo x target)
    else .ok d { x with x := 0 } := by
  rw [ofInt_toInt_sub_one]
  rfl

/-- What DECJ on Y answers, by its count. -/
theorem decjOp_y (target : BitVec 22) (d : Device) (c : Nat) (x : Ctx) : decjOp 1 target d c x =
    if 1 < x.y.toInt then
      .goto d { x with y := BitVec.ofInt 32 (x.y.toInt - 1) } (x.pc.toNat / 32768) (jumpTo x target)
    else .ok d { x with y := 0 } := by
  rw [ofInt_toInt_sub_one]
  rfl

/-! ## Returns (R131) -/

/-- A return pops the call stack and goes on at the position popped. -/
theorem returnTo_succ (d : Device) (x : Ctx) {p : Nat} (hp : x.csp = p + 1) : returnTo d x =
    .goto d { x with csp := p } ((sget (fun _ => 0) x.cs p).toNat / 32768)
      (((sget (fun _ => 0) x.cs p).toNat % 32768 : Nat) : Int) := by
  rw [returnTo, if_neg (by omega), hp]
  rfl

/-- An instruction that answers a return pops the call stack and goes on there. -/
theorem Device.Executes.goes_back {s : State} {e : Eng} {c : Nat} (h : s.dev.Executes e c) {i : Instr}
    {f : Device → Nat → Ctx → Res} {y : Ctx} {p : Nat} (hp : y.csp = p + 1)
    (hx : exec i s = run (Sys2Proof.Machine.azStep e f) s)
    (hf : f (s.dev.dispatched e c) c (s.dev.ctx e c) = returnTo (s.dev.dispatched e c) y) :
    Completes i s (fun t => s.dev.WentOn t e c { y with csp := p, pc := sget (fun _ => 0) y.cs p }) := by
  have hg := h.goes (Nat.mod_lt _ (by decide)) hx (hf.trans (returnTo_succ _ _ hp))
  rwa [Nat.div_add_mod', BitVec.ofNat_toNat, BitVec.setWidth_eq] at hg

/-! ## How instances end (R132, R161, R178) -/

/-- What context c of engine e was running has ended: the context is IDLE, or PENDING with the release that was latched,
and owns no semaphore. -/
def Device.InstanceEnded (d t : Device) (e : Eng) (c : Nat) : Prop :=
  t.ctxState e c = (if d.bit (Reg.TASK_STAT_LATCH e c) then 1 else 0) ∧
  t.bit (Reg.TASK_STAT_LATCH e c) = false ∧
  t.relOf e c = (if d.bit (Reg.TASK_STAT_LATCH e c) then sget noRel d.task.latched (16 * e + c) else none) ∧
  t.retired e = (d.retired e + 1) % 2 ^ 64 ∧ t.engState e = stRun ∧
  (∀ n, n < 64 → t.semOwner n = if d.semOwner n = ownerEng e c then ownerFree else d.semOwner n) ∧
  (∀ (e' : Eng) (c' : Nat), c' < 16 → e' ≠ e ∨ c' ≠ c →
    t.ctx e' c' = d.ctx e' c' ∧ t.ctxState e' c' = d.ctxState e' c') ∧
  d.KeepsMem t ∧ d.KeepsCells t

/-- The device that END acts on: the context active and the step counted. -/
def Device.stepCounted (d : Device) (e c : Nat) : Device := (d.dispatched e c).retire e 1

/-- Counting the step writes the engine's status and step count alone. -/
theorem Device.rd_stepCounted (d : Device) (e : Eng) (c : Nat) {a : Nat} (h : a ∉ stepRegs e) :
    (d.stepCounted e c).rd a = d.rd a := by
  simp only [stepRegs, List.mem_cons, List.not_mem_nil, or_false, not_or] at h
  obtain ⟨hs, hlo, hhi, -⟩ := h
  rw [Device.stepCounted, Device.rd_retire_other _ _ _ hlo hhi, Device.rd_setF_other _ _ hs]

/-- The state registers of contexts, and the semaphores, are no registers that every instruction writes. -/
theorem stat_not_stepRegs (e e' : Eng) {c' : Nat} (_ : c' < 16) : Reg.TASK_STAT e' c' ∉ stepRegs e := by
  have := e.isLt
  have := e'.isLt
  simp only [stepRegs, List.mem_cons, List.not_mem_nil, or_false, not_or, Reg.TASK_STAT, Reg.CE_STATUS,
    Reg.TASK_ENG_RETIRED_LO, Reg.TASK_ENG_RETIRED_HI, Reg.SF_GATE]
  omega

theorem hsem_not_stepRegs (e : Eng) {n : Nat} (hn : n < 64) : Reg.HSEM n ∉ stepRegs e := by
  have := e.isLt
  simp only [stepRegs, List.mem_cons, List.not_mem_nil, or_false, not_or, Reg.HSEM, Reg.CE_STATUS,
    Reg.TASK_ENG_RETIRED_LO, Reg.TASK_ENG_RETIRED_HI, Reg.SF_GATE]
  omega

theorem ne_gate_of_stepRegs {e a : Nat} (h : a ∉ stepRegs e) : a ≠ Reg.SF_GATE := fun ha => h (by simp [stepRegs, ha])

/-- Contexts have state registers of their own. -/
theorem stat_inj {e c e' c' : Nat} (hc : c < 16) (hc' : c' < 16) (h : Reg.TASK_STAT e' c' = Reg.TASK_STAT e c) :
    e' = e ∧ c' = c := by
  simp only [Reg.TASK_STAT] at h
  omega

/-- END leaves its engine's status and step count alone. -/
theorem endKeeps_engine (e : Eng) {c a : Nat} (hc : c < 16) (ha : a = Reg.CE_STATUS e ∨
    a = Reg.TASK_ENG_RETIRED_LO e ∨ a = Reg.TASK_ENG_RETIRED_HI e) : EndKeeps e c a ∧ a ≠ Reg.TASK_STAT e c := by
  have := e.isLt
  simp only [Reg.CE_STATUS, Reg.TASK_ENG_RETIRED_LO, Reg.TASK_ENG_RETIRED_HI] at ha
  refine ⟨⟨fun k hk => ?_, ?_, ?_⟩, ?_⟩
  · simp only [Reg.HSEM]
    omega
  · simp only [Reg.EVR_LOSS]
    omega
  · simp only [Reg.TASK_MAXRUN]
    omega
  · simp only [Reg.TASK_STAT]
    omega

/-- The device after END, once Sluice has acted. -/
abbrev Device.afterEnd (d : Device) (e c : Nat) : Device := ((d.stepCounted e c).endInst e c).sluice

/-- A register that neither every instruction nor the end of a run writes holds what it held. -/
theorem Device.rd_instanceEnd (d : Device) (e : Eng) (c : Nat) {a : Nat} (ha : EndKeeps e c a)
    (hs : a ≠ Reg.TASK_STAT e c) (hr : a ∉ stepRegs e) : (d.afterEnd e c).rd a = d.rd a := by
  rw [Device.rd_sluice _ (ne_gate_of_stepRegs hr), Device.rd_endInst _ _ _ ha hs, d.rd_stepCounted e c hr]

/-- END leaves memories and the engines' state beside the registers alone. -/
theorem Device.instanceEnd_keeps (d : Device) (e : Eng) (c : Nat) :
    d.KeepsMem (d.afterEnd e c) ∧ (d.afterEnd e c).ce = d.ce := by
  obtain ⟨r, v, t, heq⟩ := (d.stepCounted e c).endInst_eq e c
  rw [Device.afterEnd, heq]
  exact ⟨⟨by simp [Device.stepCounted], by simp [Device.stepCounted], by simp [Device.stepCounted]⟩,
    by simp [Device.stepCounted]⟩

section
variable {d : Device} {e : Eng} {c : Nat} (h : d.Executes e c)
include h

/-- The engine goes on running, with one step more. -/
theorem Device.instanceEnd_engine : (d.afterEnd e c).retired e = (d.retired e + 1) % 2 ^ 64 ∧
    (d.afterEnd e c).engState e = stRun := by
  have he := e.isLt
  have hk {a : Nat} (hg : a ≠ Reg.SF_GATE) (ha : a = Reg.CE_STATUS e ∨ a = Reg.TASK_ENG_RETIRED_LO e ∨
      a = Reg.TASK_ENG_RETIRED_HI e) : (d.afterEnd e c).rd a = (d.stepCounted e c).rd a := by
    obtain ⟨hend, hstat⟩ := endKeeps_engine e h.lt ha
    rw [Device.rd_sluice _ hg, Device.rd_endInst _ _ _ hend hstat]
  constructor
  · rw [Device.retired_congr (hk (hi_ne_gate e he) (.inr (.inr rfl))) (hk (lo_ne_gate e he) (.inr (.inl rfl))),
      Device.stepCounted, Device.retired_retire,
      Device.retired_congr (Device.rd_setF_other _ _ (status_ne_hi e he).symm)
        (Device.rd_setF_other _ _ (status_ne_lo e he).symm)]
  · have hst : (d.stepCounted e c).rd (Reg.CE_STATUS e) = (d.dispatched e c).rd (Reg.CE_STATUS e) :=
      Device.rd_retire_other _ _ _ (status_ne_lo e he) (status_ne_hi e he)
    rw [Device.engState, Device.fld_congr ((hk (status_ne_gate e he) (.inl rfl)).trans hst),
      Device.fld_setF_other _ _ (.inr (by simp [Reg.CE_STATUS_STATE, Reg.CE_STATUS_ACTIVE_CTX]))]
    exact h.runs

/-- The context is IDLE, or PENDING with the release that was latched. -/
theorem Device.instanceEnd_state :
    (d.afterEnd e c).ctxState e c = (if d.bit (Reg.TASK_STAT_LATCH e c) then 1 else 0) ∧
    (d.afterEnd e c).bit (Reg.TASK_STAT_LATCH e c) = false ∧
    (d.afterEnd e c).relOf e c =
      (if d.bit (Reg.TASK_STAT_LATCH e c) then sget noRel d.task.latched (16 * e + c) else none) := by
  have hn := stat_not_stepRegs e e h.lt
  have hl : (d.stepCounted e c).bit (Reg.TASK_STAT_LATCH e c) = d.bit (Reg.TASK_STAT_LATCH e c) := by
    simp only [Device.bit, Device.fld_congr (f := Reg.TASK_STAT_LATCH e c) (d.rd_stepCounted e c hn)]
  have ht : (d.stepCounted e c).task = d.task := by simp [Device.stepCounted]
  have hs := (d.stepCounted e c).endInst_state e c e.isLt h.lt
  rw [hl, ht] at hs
  obtain ⟨hstate, hlatch, hrel⟩ := hs
  refine ⟨?_, ?_, ?_⟩
  · rw [Device.ctxState, Device.fld_sluice _ (ne_gate_of_stepRegs hn)]
    exact hstate
  · rw [Device.bit, Device.fld_sluice _ (ne_gate_of_stepRegs hn)]
    exact hlatch
  · rw [Device.relOf, Device.sluice_task]
    exact hrel

/-- The semaphores of the context are free, and every other one has the owner that it had. -/
theorem Device.instanceEnd_semOwner {n : Nat} (hn : n < 64) : (d.afterEnd e c).semOwner n =
    if d.semOwner n = ownerEng e c then ownerFree else d.semOwner n := by
  have hr := hsem_not_stepRegs e hn
  rw [Device.semOwner_congr (Device.rd_sluice _ (ne_gate_of_stepRegs hr)),
    Device.endInst_semOwner _ _ _ _ e.isLt h.lt hn,
    Device.semOwner_congr (d.rd_stepCounted e c hr)]

/-- Every other context is as it was. -/
theorem Device.instanceEnd_others (e' : Eng) {c' : Nat} (hc' : c' < 16) (hne : e' ≠ e ∨ c' ≠ c) :
    (d.afterEnd e c).ctxState e' c' = d.ctxState e' c' := by
  refine Device.fld_congr (d.rd_instanceEnd e c (endKeeps_stat e c e' c' e'.isLt hc') (fun hs => ?_)
    (stat_not_stepRegs e e' hc'))
  obtain ⟨heng, hctx⟩ := stat_inj h.lt hc' hs
  exact hne.elim (fun hn => hn (Fin.ext heng)) (fun hn => hn hctx)

/-- What END leaves in its context, in its engine and in the rest of the device. -/
theorem Device.instanceEnded : d.InstanceEnded (d.afterEnd e c) e c := by
  obtain ⟨hstate, hlatch, hrel⟩ := Device.instanceEnd_state h
  obtain ⟨hsteps, hruns⟩ := Device.instanceEnd_engine h
  obtain ⟨hmem, hce⟩ := d.instanceEnd_keeps e c
  exact ⟨hstate, hlatch, hrel, hsteps, hruns, fun _ hn => Device.instanceEnd_semOwner h hn,
    fun e' c' hc' hne => ⟨Device.ctx_congr hce e' c', Device.instanceEnd_others h e' hc' hne⟩, hmem, .of_ce hce⟩

end

/-- An instruction that answers the end. -/
theorem Device.Executes.ends {s : State} {e : Eng} {c : Nat} (h : s.dev.Executes e c) {i : Instr}
    {f : Device → Nat → Ctx → Res} (hx : exec i s = run (Sys2Proof.Machine.azStep e f) s)
    (hf : f (s.dev.dispatched e c) c (s.dev.ctx e c) = .fin (s.dev.dispatched e c)) :
    Completes i s (fun t => s.dev.InstanceEnded t e c) := by
  refine completes_run hx (t := (s.dev.stepCounted e c).endInst e c) ?_ (Device.instanceEnded h)
  rw [h.azStep f, hf]
  rfl

/-- Settles O3, by what the instruction answers: a position to go to, the end, or neither. -/
theorem controlFlow : Obligations.ControlFlow := by
  refine ⟨?jumps, ?ends⟩
  case jumps =>
    rintro s e c h x rfl target q hq ht
    refine ⟨?conditions, fun hx => ?_, fun hx => ?_, fun hy => ?_, fun hy => ?_⟩
    case conditions =>
      intro cond hc y hy
      rw [← condCo_eq] at hy
      subst hy
      exact ⟨h.goes_jmp hq ht hc, fun hm => ⟨h.runs_jmp_unmet hc hm, h.runs_call_unmet hc hm⟩,
        fun hm hs => ⟨_, sget_sput (fun _ => 0) _ _ _, h.goes_call hq ht hc hm hs⟩⟩
    · exact h.goes_decj hq ht ((decjOp_x _ _ _ _).trans (if_pos hx))
    · exact h.runs_ok rfl ((decjOp_x _ _ _ _).trans (if_neg (by omega)))
    · exact h.goes_decj hq ht ((decjOp_y _ _ _ _).trans (if_pos hy))
    · exact h.runs_ok rfl ((decjOp_y _ _ _ _).trans (if_neg (by omega)))
  case ends =>
    rintro s e c h x rfl
    refine ⟨fun p hp => ⟨h.goes_back hp rfl rfl, fun hla => ?_⟩, fun hla => ?_, h.ends rfl rfl, fun hla => ?_,
      fun hla => ?_, h.runs_regOp rfl rfl rfl⟩
    · refine h.goes_back (f := retlaOp 0) (y := { s.dev.ctx e c with co := true }) hp rfl ?_
      rw [retlaOp, if_neg (by simp), if_pos hla, if_neg (by omega)]
    · exact h.runs_ok (f := retlaOp 0) rfl (by rw [retlaOp, if_neg (by simp), if_neg (by simp [hla])])
    · exact h.ends (f := endlaOp 0) rfl (by rw [endlaOp, if_neg (by simp), if_pos hla])
    · exact h.runs_ok (f := endlaOp 0) rfl (by rw [endlaOp, if_neg (by simp), if_neg (by simp [hla])])

end Sys2Proof.Machine
end

section
/-! SUPPORT. Aznum words in registers (R133, R138, R139, R142–R150): moves, constants, arithmetic, comparison, shifts and
conversions, and the statements about them. -/

namespace Sys2Proof.Machine

/-! ## Words -/

/-- The number of two bit vectors side by side. -/
theorem toNat_append_add {m n : Nat} (p : BitVec m) (q : BitVec n) :
    (p ++ q).toNat = p.toNat * 2 ^ n + q.toNat := by
  rw [BitVec.toNat_append, Nat.shiftLeft_eq, Nat.mul_comm, ← Nat.two_pow_add_eq_or_of_lt q.isLt]

/-- A half word set above the low half of a word. -/
theorem wd_high_low (k : BitVec 16) (a : Word) :
    wd ((k.zeroExtend 22).toNat * 65536 + a.toNat % 65536) = k ++ a.extractLsb' 0 16 := by
  apply BitVec.eq_of_toNat_eq
  have := k.isLt
  rw [wd, BitVec.toNat_ofNat, toNat_append_add]
  simp
  omega

/-- The immediate of LITF is the upper 22 bits of the word (R138). -/
theorem wd_upper (imm : BitVec 22) : wd (imm.toNat * 1024) = imm ++ (0 : BitVec 10) := by
  apply BitVec.eq_of_toNat_eq
  have := imm.isLt
  rw [wd, BitVec.toNat_ofNat, toNat_append_add]
  simp
  omega

/-- The bytes of a word in reverse order. -/
theorem wd_bytes_reversed (a : Word) :
    wd (a.toNat % 256 * 2 ^ 24 + a.toNat / 2 ^ 8 % 256 * 2 ^ 16 + a.toNat / 2 ^ 16 % 256 * 2 ^ 8 + a.toNat / 2 ^ 24) =
      a.extractLsb' 0 8 ++ a.extractLsb' 8 8 ++ a.extractLsb' 16 8 ++ a.extractLsb' 24 8 := by
  apply BitVec.eq_of_toNat_eq
  have ha := a.isLt
  have hlow (n : Nat) : n % 256 < 256 := Nat.mod_lt n (by decide)
  have htop : a.toNat / 2 ^ 24 % 2 ^ 8 = a.toNat / 2 ^ 24 := Nat.mod_eq_of_lt (by omega)
  simp only [wd, BitVec.toNat_ofNat, toNat_append_add, BitVec.extractLsb'_toNat, Nat.shiftRight_eq_div_pow,
    Nat.pow_zero, Nat.div_one, htop]
  have h0 := hlow a.toNat
  have h1 := hlow (a.toNat / 2 ^ 8)
  have h2 := hlow (a.toNat / 2 ^ 16)
  have h3 : a.toNat / 2 ^ 24 < 256 := by omega
  rw [Nat.mod_eq_of_lt (by omega)]
  omega

/-- A signed immediate is added modulo 2^32. -/
theorem add_signExtend (w : Word) (imm : BitVec 22) :
    w + imm.signExtend 32 = BitVec.ofInt 32 (w.toInt + imm.toInt) := by
  rw [BitVec.ofInt_add, BitVec.ofInt_toInt]
  rfl

/-- The flags of a sum do not depend on the order of the summands (R142). -/
theorem addV_comm (p q : Word) : addV p q = addV q p := by
  simp only [addV, Int.add_comm, BitVec.add_comm]

theorem addC_comm (p q : Word) : addC p q = addC q p := by
  simp only [addC, Nat.add_comm]

/-- An instruction that leaves a result in A and sets the flags (R142). -/
theorem Device.Executes.runs_result {s : State} {e : Eng} {c : Nat} (h : s.dev.Executes e c) {i : Instr} {legal : Bool}
    {r : Ctx → Word} {v k : Ctx → Bool} {w : Word} {vw kw : Bool} (hl : legal = true)
    (hx : exec i s = run (Sys2Proof.Machine.azStep e (regOp legal (fun x => x.result (r x) (v x) (k x) false))) s)
    (hr : r (s.dev.ctx e c) = w) (hv : v (s.dev.ctx e c) = vw) (hk : k (s.dev.ctx e c) = kw) :
    Runs i s e c { s.dev.ctx e c with
      a := w, z := decide (w = 0), n := w.getLsbD 31, v := vw, c := kw, u := false } := by
  subst hr hv hk
  exact h.runs_regOp hl hx rfl

/-! ## Moves, constants and index registers (R133, R138, R139) -/

/-- Settles O1: every one of them changes registers of the context alone. -/
theorem movesAndIndexes : Obligations.MovesAndIndexes := by
  refine ⟨?moves, ?constants⟩
  case moves =>
    rintro s e c h x rfl
    refine ⟨h.runs_regOp rfl rfl rfl, h.runs_regOp rfl rfl rfl, h.runs_regOp rfl rfl rfl, h.runs_regOp rfl rfl rfl,
      h.runs_regOp rfl rfl rfl, h.runs_regOp rfl rfl rfl, h.runs_regOp rfl rfl rfl, h.runs_regOp rfl rfl rfl,
      h.runs_regOp rfl rfl ?_⟩
    simp only [Ctx.combine, BitOp.apply, ne_eq, decide_not, bne, beq_eq_decide]
  case constants =>
    rintro s e c h x rfl imm
    refine ⟨h.runs_regOp rfl rfl rfl, fun k => h.runs_regOp ?_ rfl ?_, h.runs_regOp rfl rfl ?_, ?_,
      h.runs_regOp rfl rfl rfl, h.runs_regOp rfl rfl rfl, h.runs_regOp rfl rfl ?_, h.runs_regOp rfl rfl ?_⟩
    · have := k.isLt
      simp
      omega
    · rw [wd_high_low]
    · rw [wd_upper]
      rfl
    · rintro k r rfl rfl
      exact h.runs_result rfl rfl (BitVec.add_comm _ _) (addV_comm _ _) (addC_comm _ _)
    · rw [add_signExtend]
    · rw [add_signExtend]

/-! ## Integer arithmetic (R143) -/

/-- A negative word is one with its sign bit set. -/
theorem msb_iff_neg (w : Word) : w.msb = true ↔ w.toInt < 0 := by
  rw [BitVec.msb_eq_toInt, decide_eq_true_iff]

theorem neg_eq_zero_sub (w : Word) : -w = 0 - w := (BitVec.zero_sub w).symm

/-- Settles O6: each is one operation on B and A, with its flags. -/
theorem integerArithmetic : Obligations.IntegerArithmetic := by
  rintro s e c h x rfl
  refine ⟨h.runs_result rfl rfl rfl rfl rfl, h.runs_result rfl rfl rfl rfl rfl, h.runs_result rfl rfl rfl rfl rfl,
    h.runs_result rfl rfl rfl rfl rfl, h.runs_result rfl rfl rfl rfl rfl, h.runs_result rfl rfl rfl rfl rfl,
    h.runs_result rfl rfl (neg_eq_zero_sub _) rfl rfl, h.runs_result rfl rfl ?_ rfl rfl,
    h.runs_result rfl rfl rfl rfl rfl⟩
  simp only [msb_iff_neg, neg_eq_zero_sub]

/-! ## Division (R144) -/

/-- Quotient and remainder of signed words, truncated toward zero. -/
theorem wdi_tmod (b a : Word) : wdi (b.toInt.tmod a.toInt) = b.srem a := by
  rw [wdi, ← BitVec.toInt_srem, BitVec.ofInt_toInt]

theorem divS_eq {b a : Word} (h : ¬(b = 0x80000000 ∧ a = 0xFFFFFFFF)) : divS b a = (b.sdiv a, false) := by
  have hi : b.toInt.tdiv a.toInt = (b.sdiv a).toInt := by
    refine (BitVec.toInt_sdiv_of_ne_or_ne b a ?_).symm
    rw [← not_and_or]
    exact h
  rw [divS, if_neg h, wdi, hi, BitVec.ofInt_toInt]

theorem wd_div (b a : Word) : wd (b.toNat / a.toNat) = b / a := by
  rw [wd, ← BitVec.toNat_udiv, BitVec.ofNat_toNat, BitVec.setWidth_eq]

theorem wd_mod (b a : Word) : wd (b.toNat % a.toNat) = b % a := by
  rw [wd, ← BitVec.toNat_umod, BitVec.ofNat_toNat, BitVec.setWidth_eq]

section
variable {s : State} {e : Eng} {c : Nat} (h : s.dev.Executes e c) {i : Instr} {sat : Word → Word}
  {f : Word → Word → Word × Bool} {r : Word} {v : Bool}
include h

/-- A division by other than 0 gives what its operation gives. -/
theorem Device.Executes.runs_div (ha : (s.dev.ctx e c).a ≠ 0)
    (hx : exec i s = run (Sys2Proof.Machine.azStep e (divOp e 0 sat f)) s)
    (hr : f (s.dev.ctx e c).b (s.dev.ctx e c).a = (r, v)) :
    Runs i s e c { s.dev.ctx e c with
      a := r, z := decide (r = 0), n := r.getLsbD 31, v := v, c := false, u := false } := by
  refine h.runs_ok hx ?_
  rw [divOp, if_neg (by simp), if_neg ha, hr]
  rfl

/-- A division by 0 gives the saturated result with V, where the task asks for it. -/
theorem Device.Executes.runs_divZero (ha : (s.dev.ctx e c).a = 0) (hs : s.dev.bit (Reg.TASK_CFG_DIV0_SAT e c) = true)
    (hx : exec i s = run (Sys2Proof.Machine.azStep e (divOp e 0 sat f)) s) (hr : sat (s.dev.ctx e c).b = r) :
    Runs i s e c { s.dev.ctx e c with
      a := r, z := decide (r = 0), n := r.getLsbD 31, v := true, c := false, u := false } := by
  have hne : Reg.TASK_CFG e c ≠ Reg.CE_STATUS e := by
    have := h.lt
    simp only [Reg.TASK_CFG, Reg.CE_STATUS]
    omega
  have hb : (s.dev.dispatched e c).bit (Reg.TASK_CFG_DIV0_SAT e c) = true := by
    rwa [Device.bit, Device.fld_congr (Device.rd_setF_other _ _ hne)]
  refine h.runs_ok hx ?_
  rw [divOp, if_neg (by simp), if_pos ha, if_pos hb, hr]
  rfl

end

/-- Settles O7, by whether A is 0. -/
theorem division : Obligations.Division := by
  rintro s e c h x rfl
  refine ⟨fun ha => ⟨fun hb => ?_, fun hb => ?_, ?_, ?_, ?_⟩, fun ha hs => ⟨?_, ?_, ?_, ?_⟩⟩
  · exact h.runs_div ha rfl (if_pos hb)
  · exact h.runs_div ha rfl (divS_eq hb)
  · exact h.runs_div ha rfl (congrArg (·, false) (wdi_tmod _ _))
  · exact h.runs_div ha rfl (congrArg (·, false) (wd_div _ _))
  · exact h.runs_div ha rfl (congrArg (·, false) (wd_mod _ _))
  · exact h.runs_divZero ha hs rfl (by simp only [msb_iff_neg])
  · exact h.runs_divZero ha hs rfl rfl
  · exact h.runs_divZero ha hs rfl rfl
  · exact h.runs_divZero ha hs rfl rfl

/-! ## Floating point (R145–R147) -/

/-- A float is zero when every bit but the sign is 0. -/
theorem fIsZero_eq (r : Word) : fIsZero r = decide (r.toNat % 2 ^ 31 = 0) := by
  have := r.isLt
  rw [fIsZero, ← Bool.decide_and, decide_eq_decide, fExp, fFrac]
  omega

/-- A float result with its flags (R142). -/
theorem Ctx.fresult_eq (x : Ctx) (r : Word) (finite : Bool) : x.fresult r finite =
    { x with a := r, z := decide (r.toNat % 2 ^ 31 = 0), n := r.getLsbD 31 && !fIsNaN r, v := fIsInf r && finite,
             c := false, u := fIsNaN r } := by
  rw [← fIsZero_eq]
  rfl

section
variable {s : State} {e : Eng} {c : Nat} (h : s.dev.Executes e c) {i : Instr} {r : Word}
include h

/-- A float operation that is valid on B and A. -/
theorem Device.Executes.runs_float {f : Word → Word → Option Word}
    (hx : exec i s = run (Sys2Proof.Machine.azStep e (floatOp 0 f)) s)
    (hr : f (s.dev.ctx e c).b (s.dev.ctx e c).a = some r) : Runs i s e c { s.dev.ctx e c with
      a := r, z := decide (r.toNat % 2 ^ 31 = 0), n := r.getLsbD 31 && !fIsNaN r
      v := fIsInf r && (fFinite (s.dev.ctx e c).b && fFinite (s.dev.ctx e c).a), c := false, u := fIsNaN r } := by
  refine h.runs_ok hx ?_
  rw [floatOp, if_neg (by simp), hr, ← Ctx.fresult_eq]

/-- A float operation that is valid on A. -/
theorem Device.Executes.runs_float1 {f : Word → Option Word}
    (hx : exec i s = run (Sys2Proof.Machine.azStep e (floatOp1 0 f)) s) (hr : f (s.dev.ctx e c).a = some r) :
    Runs i s e c { s.dev.ctx e c with
      a := r, z := decide (r.toNat % 2 ^ 31 = 0), n := r.getLsbD 31 && !fIsNaN r
      v := fIsInf r && fFinite (s.dev.ctx e c).a, c := false, u := fIsNaN r } := by
  refine h.runs_ok hx ?_
  rw [floatOp1, if_neg (by simp), hr, ← Ctx.fresult_eq]

end

/-- Settles O8: each is one float operation on its operands. -/
theorem floatArithmetic : Obligations.FloatArithmetic := by
  rintro s e c h x rfl gives r
  exact ⟨h.runs_float rfl, h.runs_float rfl, h.runs_float rfl, h.runs_float rfl, h.runs_float1 rfl,
    h.runs_float1 rfl rfl, h.runs_float1 rfl rfl⟩

/-! ## Comparison (R148) -/

/-- An integer compare sets the flags of a difference. -/
theorem cmpCtx_int {k : Nat} (h : ¬(6 ≤ k ∧ k ≤ 11)) (x : Ctx) :
    cmpCtx k x = (x.flags (x.b - x.a) (subV x.b x.a) (subC x.b x.a) false).combine .and (cmpRel k x.b x.a) := by
  rw [cmpCtx, if_neg h]

/-- A float compare sets Z for equality, N for less than and U for a NaN. -/
theorem cmpCtx_float {k : Nat} (h : 6 ≤ k ∧ k ≤ 11) (x : Ctx) :
    cmpCtx k x = { x with
      z := fEq x.b x.a, n := fLt x.b x.a, v := false, c := false, u := fIsNaN x.b || fIsNaN x.a
      la := if x.co then cmpRel k x.b x.a else x.la && cmpRel k x.b x.a, co := false } := by
  rw [cmpCtx, if_pos h]
  rfl

/-- Settles O9, by the kind of the compare. -/
theorem comparison : Obligations.Comparison := by
  rintro s e c h x rfl sub r la hr rfl
  have hrel : cmpRel sub.toNat (s.dev.ctx e c).b (s.dev.ctx e c).a = r := by
    have := sub.isLt
    rw [hr]
    generalize sub.toNat = k at *
    interval_cases k <;> rfl
  rw [← hrel]
  refine ⟨fun hk => h.runs_regOp rfl rfl ?_, fun hk => h.runs_regOp rfl rfl (cmpCtx_float (by omega) _)⟩
  rw [cmpCtx_int (by omega)]
  rfl

/-! ## Shifts and rotations (R149) -/

/-- An immediate that gives the amount n: itself below 32, or B where it is 32. -/
theorem shf_amount {imm : BitVec 22} {n : Nat} {x : Ctx}
    (h : imm.toNat < 32 ∧ n = imm.toNat ∨ imm.toNat = 32 ∧ n = x.b.toNat % 32) :
    shfLegal imm = true ∧ shfAmount imm x = n := by
  rw [shfLegal, shfAmount]
  rcases h with ⟨hlt, rfl⟩ | ⟨heq, rfl⟩
  · have hbit : imm.toNat.testBit 5 = false := Nat.testBit_lt_two_pow hlt
    simp [hbit, Nat.mod_eq_of_lt hlt]
    omega
  · have hbit : Nat.testBit 32 5 = true := by decide
    simp [heq, hbit]

/-- A shift by n leaves its result in A, and in C the bit that it shifts out last. -/
theorem Device.Executes.runs_shift {s : State} {e : Eng} {c : Nat} (h : s.dev.Executes e c) {i : Instr}
    {imm : BitVec 22} {n : Nat}
    (hn : imm.toNat < 32 ∧ n = imm.toNat ∨ imm.toNat = 32 ∧ n = (s.dev.ctx e c).b.toNat % 32) {f : Word → Nat → Word}
    {out : Nat → Nat} (hx : exec i s = run (Sys2Proof.Machine.azStep e (shiftOp imm f out)) s) {r : Word} {k : Bool}
    (hr : f (s.dev.ctx e c).a n = r) (hk : (s.dev.ctx e c).a.getLsbD (out n) = k) :
    Runs i s e c { s.dev.ctx e c with
      a := r, z := decide (r = 0), n := r.getLsbD 31, v := false, c := decide (n ≠ 0) && k, u := false } := by
  obtain ⟨hlegal, hamount⟩ := shf_amount hn
  subst hamount hr hk
  exact h.runs_result hlegal hx rfl rfl rfl

/-! ## Conversions (R150) -/

section
variable {s : State} {e : Eng} {c : Nat} (h : s.dev.Executes e c) {i : Instr}
include h

/-- ITF and UTF: a float result without V, C and U. -/
theorem Device.Executes.runs_convFloat {r : Ctx → Word}
    (hx : exec i s = run (Sys2Proof.Machine.azStep e (regOp true fun x => convFloat x (r x))) s) {w : Word}
    (hw : r (s.dev.ctx e c) = w) : Runs i s e c { s.dev.ctx e c with
      a := w, z := decide (w.toNat % 2 ^ 31 = 0), n := w.getLsbD 31, v := false, c := false, u := false } := by
  refine h.runs_regOp rfl hx ?_
  rw [hw, ← fIsZero_eq]
  rfl

variable {nearest : Bool} (hx : exec i s = run (Sys2Proof.Machine.azStep e (toIntOp 0 nearest)) s)
  (hn : fIsNaN (s.dev.ctx e c).a = false)
include hx hn

/-- FTI and FTIR of a float in the range of a signed word. -/
theorem Device.Executes.runs_toInt {k : Int} (hk : fToInt (s.dev.ctx e c).a nearest = k)
    (hi : fIsInf (s.dev.ctx e c).a = false) (hlo : -(2 ^ 31) ≤ k) (hhi : k < 2 ^ 31) :
    Runs i s e c { s.dev.ctx e c with
      a := BitVec.ofInt 32 k, z := decide (BitVec.ofInt 32 k = 0), n := (BitVec.ofInt 32 k).getLsbD 31
      v := false, c := false, u := false } := by
  subst hk
  refine h.runs_ok hx ?_
  rw [toIntOp, if_neg (by simp), if_neg (by simp [hn]), if_neg (by rw [hi]; simp; omega)]
  rfl

/-- FTI and FTIR of a float outside it saturate. -/
theorem Device.Executes.runs_toInt_saturated {k : Int} (hk : fToInt (s.dev.ctx e c).a nearest = k)
    (ho : fIsInf (s.dev.ctx e c).a = true ∨ k < -(2 ^ 31) ∨ 2 ^ 31 ≤ k) {r : Word}
    (hr : (if (s.dev.ctx e c).a.getLsbD 31 then 0x80000000 else 0x7FFFFFFF) = r) :
    Runs i s e c { s.dev.ctx e c with
      a := r, z := decide (r = 0), n := r.getLsbD 31, v := true, c := false, u := false } := by
  subst hk hr
  refine h.runs_ok hx ?_
  rw [toIntOp, if_neg (by simp), if_neg (by simp [hn]), if_pos (ho.imp_right Or.symm)]
  rfl

end

/-- Settles O10: shifts and rotations by their amount, conversions by their kind. -/
theorem shiftsAndConversions : Obligations.ShiftsAndConversions := by
  refine ⟨?shifts, ?conversions⟩
  case shifts =>
    rintro s e c h x rfl imm n hn
    exact ⟨h.runs_shift hn rfl rfl rfl, h.runs_shift hn rfl rfl rfl, h.runs_shift hn rfl rfl rfl,
      h.runs_shift hn rfl rfl rfl, h.runs_shift hn rfl rfl rfl⟩
  case conversions =>
    rintro s e c h x rfl
    refine ⟨h.runs_convFloat rfl rfl, h.runs_convFloat rfl rfl, fun hn =>
      ⟨⟨h.runs_toInt rfl hn rfl, fun ho => h.runs_toInt_saturated rfl hn rfl ho rfl⟩,
        ⟨h.runs_toInt rfl hn rfl, fun ho => h.runs_toInt_saturated rfl hn rfl ho rfl⟩⟩,
      h.runs_result rfl rfl (congrArg (BitVec.signExtend 32) (BitVec.setWidth_eq_extractLsb' (by decide))) rfl rfl,
      h.runs_result rfl rfl (congrArg (BitVec.signExtend 32) (BitVec.setWidth_eq_extractLsb' (by decide))) rfl rfl,
      h.runs_result rfl rfl (congrArg (BitVec.setWidth 32) (BitVec.setWidth_eq_extractLsb' (by decide))) rfl rfl,
      h.runs_result rfl rfl (congrArg (BitVec.setWidth 32) (BitVec.setWidth_eq_extractLsb' (by decide))) rfl rfl,
      h.runs_result rfl rfl (wd_bytes_reversed _) rfl rfl⟩

end Sys2Proof.Machine
end

section
/-! SUPPORT. Aznum words in memory (R134–R137, R151, R152): parts of the number that an area holds, the target of a word
instruction, loads and stores, limit and scale, and the statements about them. -/

namespace Sys2Proof.Machine

/-! ## Parts of a number in memory -/

theorem leNat_append (l t : List Byte) : leNat (l ++ t) = leNat l + 256 ^ l.length * leNat t := by
  induction l with
  | nil => simp [leNat]
  | cons b l ih =>
    rw [List.cons_append, leNat, ih, leNat, List.length_cons, pow_succ]
    ring

section
variable (d : Device) (e c ar p : Nat)

/-- The number in m + n bytes, by its low m bytes and the n bytes above. -/
theorem Device.areaNum_add (m n : Nat) :
    d.areaNum e c ar p (m + n) = d.areaNum e c ar p m + 256 ^ m * d.areaNum e c ar (p + m) n := by
  have hsplit : (List.range (m + n)).map (fun i => d.areaByte e c ar (p + i)) =
      (List.range m).map (fun i => d.areaByte e c ar (p + i)) ++
        (List.range n).map (fun i => d.areaByte e c ar (p + m + i)) := by
    simp [List.range_add, Function.comp_def, Nat.add_assoc]
  rw [Device.areaNum, hsplit, leNat_append, List.length_map, List.length_range]
  rfl

/-- The number in n bytes above the low m ones, of all the bytes that are read. -/
theorem Device.areaNum_part {m n k : Nat} (h : m + n ≤ k) :
    d.areaNum e c ar p k / 256 ^ m % 256 ^ n = d.areaNum e c ar (p + m) n := by
  obtain ⟨r, rfl⟩ := Nat.exists_eq_add_of_le h
  have hlow := d.areaNum_lt e c ar p m
  have hpart := d.areaNum_lt e c ar (p + m) n
  rw [Nat.add_assoc, Device.areaNum_add, Device.areaNum_add, Nat.add_mul_div_left _ _ (Nat.two_pow_pos 8 |> Nat.pow_pos),
    Nat.div_eq_of_lt hlow, Nat.zero_add, Nat.add_mul_mod_self_left, Nat.mod_eq_of_lt hpart]

/-- A byte of a number that was read is the byte of the area. -/
theorem Device.areaNum_byte {i k : Nat} (h : i < k) :
    BitVec.ofNat 8 (d.areaNum e c ar p k / 256 ^ i) = d.areaByte e c ar (p + i) := by
  apply BitVec.eq_of_toNat_eq
  have hone : d.areaNum e c ar (p + i) 1 = (d.areaByte e c ar (p + i)).toNat := by simp [Device.areaNum, leNat]
  rw [BitVec.toNat_ofNat, ← hone, ← d.areaNum_part e c ar p (n := 1) h, Nat.pow_one]

/-- A word of a number that was read is the word of the area. -/
theorem Device.areaNum_word {i k : Nat} {q : Word} (h : 4 * i + 4 ≤ k) (hq : q.toNat = d.areaNum e c ar (p + 4 * i) 4) :
    wd (d.areaNum e c ar p k / 2 ^ (32 * i)) = q := by
  apply BitVec.eq_of_toNat_eq
  have hpow : 2 ^ (32 * i) = 256 ^ (4 * i) := by rw [Nat.pow_mul, Nat.pow_mul]
  rw [hq, wd, BitVec.toNat_ofNat, ← d.areaNum_part e c ar p h, hpow]
  rfl

/-- The first codeword behind bytes of an L area. -/
theorem Device.eccLocal_mem_areaKeys {n : Nat} (hn : n ≠ 0) : eccLocal e c p ∈ d.areaKeys e c areaL p n := by
  rw [Device.areaKeys, if_pos rfl, if_neg hn]
  exact List.mem_map.mpr ⟨0, List.mem_range.mpr (Nat.succ_pos _), rfl⟩

end

/-! ## The target of a word instruction (R134) -/

/-- The widths of the W format. -/
theorem widthOf_eq (width : BitVec 2) : widthOf width.toNat = if width = 0 then 1 else if width = 1 then 2 else 4 := by
  simp only [widthOf, ← BitVec.toNat_inj]
  rfl

/-- A word instruction goes on with the byte that its fields name. -/
theorem Device.WordTarget.onWord {d : Device} {e : Eng} {c ar p w n : Nat} {x : Ctx} {mode : BitVec 2}
    {area : BitVec 4} {off : BitVec 18} (h : d.WordTarget e c x mode area off w n ar p) {legal : Bool}
    (hl : legal = true) (k : Device → Nat → Nat → Res) : onWord e mode area legal w n off k d c x = k d ar p := by
  subst hl
  simp only [Sys2Proof.Machine.onWord, h.legal, h.wordPlace, Bool.not_true, Bool.or_self, Bool.false_eq_true, if_false]

section
variable {s : State} {e : Eng} {c : Nat} (h : s.dev.Executes e c) {i : Instr}
  {mode : BitVec 2} {area : BitVec 4} {off : BitVec 18} {ar p w : Nat}
include h

omit h in
/-- What a word instruction reads at its target. -/
theorem Device.areaRead_dispatched {n : Nat} (hk : s.dev.Clean (s.dev.areaKeys e c ar p n)) :
    (s.dev.dispatched e c).areaRead e c ar p n = (some (s.dev.areaNum e c ar p n), s.dev.dispatched e c) := by
  have hd := s.dev.same_dispatched e c
  rw [Device.areaRead_clean _ _ _ _ _ _ (by rw [hd.areaKeys]; exact hd.clean hk), hd.areaNum]

/-! ## Loads and stores (R137) -/

section
variable (ht : s.dev.WordTarget e c (s.dev.ctx e c) mode area off w w ar p)
  (hk : s.dev.Clean (s.dev.areaKeys e c ar p w))
include ht hk

/-- A load puts the number that it reads into registers. -/
theorem Device.Executes.runs_load {legal : Bool} {g : Word → Ctx → Ctx} (hl : legal = true)
    (hx : exec i s = run (Sys2Proof.Machine.azStep e (loadOp e mode area legal w off g)) s) {y : Ctx}
    (hg : g (wd (s.dev.areaNum e c ar p w)) (s.dev.ctx e c) = y) : Runs i s e c y := by
  subst hg
  refine h.runs_ok hx ?_
  rw [loadOp, ((s.dev.same_dispatched e c).wordTarget ht).onWord hl, Device.areaRead_dispatched hk]

/-- A store writes the low bytes of A at its target. -/
theorem Device.Executes.stores_word (hw : w ≠ 0) (hI : ar ≠ areaI) (hT : ar ≠ areaT) (hC : ar ≠ areaC)
    (hx : exec i s = run (Sys2Proof.Machine.azStep e (storeWord e mode area w off)) s) :
    Completes i s (fun t => s.dev.Wrote t e c (s.dev.ctx e c) ∧
      s.dev.Stored t e c ar p w (s.dev.ctx e c).a.toNat) := by
  have hd := s.dev.same_dispatched e c
  have hk' : (s.dev.dispatched e c).Clean ((s.dev.dispatched e c).areaKeys e c ar p w) := by
    rw [hd.areaKeys]
    exact hd.clean hk
  obtain ⟨m, l, z, hwrite, hst, -⟩ := (s.dev.dispatched e c).areaWrite_clean e c ar p w (s.dev.ctx e c).a.toNat hk'
    (by rintro rfl; exact hk' _ (Device.eccLocal_mem_areaKeys _ _ _ _ hw)) hT hC
  refine h.completes_store hx ?_ hst
  rw [storeWord, (hd.wordTarget ht).onWord rfl, if_neg (not_or.mpr ⟨hT, hC⟩), if_neg hI, hwrite]

end

/-- LEA pushes the pointer word of its target (R117). -/
theorem Device.Executes.runs_lea (ht : s.dev.WordTarget e c (s.dev.ctx e c) mode area off 1 1 ar p) :
    Runs (.azLea e mode area 0 off) s e c
      { s.dev.ctx e c with b := (s.dev.ctx e c).a, a := BitVec.ofNat 32 (ar * 2 ^ 28 + 8 * p) } := by
  refine h.runs_ok (f := leaOp e mode area 0 off) rfl ?_
  rw [leaOp, ((s.dev.same_dispatched e c).wordTarget ht).onWord (beq_self_eq_true _), Nat.mul_comm p 8]
  rfl

end

/-- Settles O4: a load reads the bytes of its target, LEA names them, ST writes them. -/
theorem loadsAndStores : Obligations.LoadsAndStores := by
  refine ⟨?loads, ?stores⟩
  case loads =>
    rintro s e c h x rfl mode area width off ar p w v hw rfl
    rw [← widthOf_eq] at hw
    subst hw
    exact ⟨fun ht hk => ⟨h.runs_load ht hk rfl rfl rfl, fun h3 => h.runs_load ht hk (bne_iff_ne.mpr h3) rfl rfl,
      fun h3 => h.runs_load ht hk (bne_iff_ne.mpr h3) rfl rfl⟩, h.runs_lea⟩
  case stores =>
    rintro s e c h x rfl mode area width off ar p w hw ht hk hI hT hC
    have hpos : w ≠ 0 := by
      rw [hw]
      split_ifs <;> decide
    rw [← widthOf_eq] at hw
    subst hw
    exact h.stores_word ht hk hpos hI hT hC rfl

/-! ## Limit and scale (R151, R152) -/

/-- An integer LIM clamps A and tells at which bound. -/
theorem limCtx_int (x : Ctx) {lo hi r : Word} {lt gt : Bool} (hlt : lt = x.a.slt lo) (hgt : gt = (!lt && hi.slt x.a))
    (hr : r = if lt then lo else if gt then hi else x.a) : limCtx false lo hi x =
      { x with a := r, z := decide (r = 0), n := r.getLsbD 31, v := gt, c := lt, u := false } := by
  have hclamp : (if x.a.slt lo then lo else if hi.slt x.a then hi else x.a) = r := by
    subst hr hgt hlt
    cases x.a.slt lo <;> simp
  subst hgt hlt
  rw [← hclamp]
  rfl

/-- A float LIM clamps A and tells at which bound. -/
theorem limCtx_float (x : Ctx) {lo hi r : Word} {lt gt : Bool} (hlt : lt = fLt x.a lo) (hgt : gt = (!lt && fLt hi x.a))
    (hr : r = if lt then lo else if gt then hi else x.a) : limCtx true lo hi x =
      { x with a := r, z := decide (r.toNat % 2 ^ 31 = 0), n := r.getLsbD 31, v := gt, c := lt, u := false } := by
  have hclamp : (if fLt x.a lo then lo else if fLt hi x.a then hi else x.a) = r := by
    subst hr hgt hlt
    cases fLt x.a lo <;> simp
  subst hgt hlt
  rw [← fIsZero_eq, ← hclamp]
  rfl

section
variable {s : State} {e : Eng} {c : Nat} (h : s.dev.Executes e c)
  {mode : BitVec 2} {area : BitVec 4} {off : BitVec 18} {ar p : Nat} {q : Nat → Word}
  (hq : ∀ i, i < 4 → (q i).toNat = s.dev.areaNum e c ar (p + 4 * i) 4)
include h hq

/-- LIM clamps A to the two words at its target, as integers, or as floats where none of the three is a NaN. -/
theorem Device.Executes.runs_lim {width : BitVec 2} (hw : 2 ≤ width.toNat)
    (ht : s.dev.WordTarget e c (s.dev.ctx e c) mode area off 4 8 ar p)
    (hk : s.dev.Clean (s.dev.areaKeys e c ar p 8))
    (hn : ¬(width = 3 ∧ (fIsNaN (s.dev.ctx e c).a ∨ fIsNaN (q 0) ∨ fIsNaN (q 1)))) :
    Runs (.azLim e mode area width off) s e c (limCtx (width == 3) (q 0) (q 1) (s.dev.ctx e c)) := by
  have hlo := s.dev.areaNum_word e c ar p (i := 0) (k := 8) (by decide) (hq 0 (by decide))
  have hhi := s.dev.areaNum_word e c ar p (i := 1) (k := 8) (by decide) (hq 1 (by decide))
  rw [Nat.mul_zero, Nat.pow_zero, Nat.div_one] at hlo
  rw [Nat.mul_one] at hhi
  refine h.runs_ok (f := limOp e mode area width off) rfl ?_
  rw [limOp, ((s.dev.same_dispatched e c).wordTarget ht).onWord (decide_eq_true hw), Device.areaRead_dispatched hk]
  simp only [hlo, hhi]
  rw [if_neg hn]

/-- SCL maps A through the four floats at its target, where every step is valid. -/
theorem Device.Executes.runs_scl (ht : s.dev.WordTarget e c (s.dev.ctx e c) mode area off 4 16 ar p)
    (hk : s.dev.Clean (s.dev.areaKeys e c ar p 16)) {r : Word}
    (hr : sclValue (s.dev.ctx e c).a (q 0) (q 1) (q 2) (q 3) = some r) :
    Runs (.azScl e mode area 3 off) s e c ((s.dev.ctx e c).fresult r (fFinite (s.dev.ctx e c).a &&
      fFinite (q 0) && fFinite (q 1) && fFinite (q 2) && fFinite (q 3))) := by
  have hword (i : Nat) (hi : i < 4) : wd (s.dev.areaNum e c ar p 16 / 2 ^ (32 * i)) = q i :=
    s.dev.areaNum_word e c ar p (by omega) (hq i hi)
  refine h.runs_ok (f := sclOp e mode area 3 off) rfl ?_
  rw [sclOp, ((s.dev.same_dispatched e c).wordTarget ht).onWord (beq_self_eq_true _), Device.areaRead_dispatched hk]
  simp only [hword 0 (by decide), hword 1 (by decide), hword 2 (by decide), hword 3 (by decide), hr]

end

/-- The value of SCL, step by step. -/
theorem sclValue_eq {a inLo inHi outLo outHi t1 t2 t3 t4 t5 : Word} (h1 : fSub a inLo = some t1)
    (h2 : fSub outHi outLo = some t2) (h3 : fSub inHi inLo = some t3) (h0 : t3.toNat % 2 ^ 31 ≠ 0)
    (h4 : fMul t1 t2 = some t4) (h5 : fDiv t4 t3 = some t5) : sclValue a inLo inHi outLo outHi = fAdd t5 outLo := by
  have hz : ¬fIsZero t3 = true := by rwa [fIsZero_eq, decide_eq_true_iff]
  simp only [sclValue, h1, h2, h3, if_neg hz, h4, h5]

/-- Settles O11: LIM by the kind of its words, SCL by its steps. -/
theorem limitAndScale : Obligations.LimitAndScale := by
  rintro s e c h x rfl mode area off ar p q hq
  refine ⟨fun ht hk => ⟨?_, ?_⟩, ?_⟩
  · intro lt gt r hlt hgt hr
    rw [← limCtx_int _ hlt hgt hr]
    exact h.runs_lim hq (by decide) ht hk (fun hn => absurd hn.1 (by decide))
  · intro ha h0 h1 lt gt r hlt hgt hr
    rw [← limCtx_float _ hlt hgt hr]
    exact h.runs_lim hq (by decide) ht hk (by simp [ha, h0, h1])
  · intro ht hk t1 t2 t3 t4 t5 r h1 h2 h3 h0 h4 h5 hr
    rw [← Ctx.fresult_eq]
    exact h.runs_scl hq ht hk ((sclValue_eq h1 h2 h3 h0 h4 h5).trans hr)

end Sys2Proof.Machine
end

section
/-! SUPPORT. The block move (R140, R141): what copying elements in ascending order leaves, and the statement about it. -/

namespace Sys2Proof.Machine

/-! ## Work on memories alone -/

/-- The device t differs from d in memories and codeword errors, and a codeword without an error stays so. -/
structure Device.Rewritten (d t : Device) : Prop where
  form : ∃ m l x, t = { d with mem := m, larea := l, ce := { d.ce with ecc := x } }
  clean : ∀ k, d.ecc k = .clean → t.ecc k = .clean

theorem Device.Rewritten.refl (d : Device) : d.Rewritten d := ⟨⟨d.mem, d.larea, d.ce.ecc, rfl⟩, fun _ h => h⟩

theorem Device.Rewritten.trans {d t u : Device} (h : d.Rewritten t) (g : t.Rewritten u) : d.Rewritten u := by
  obtain ⟨m, l, x, rfl⟩ := h.form
  obtain ⟨m', l', x', rfl⟩ := g.form
  exact ⟨⟨m', l', x', rfl⟩, fun k hk => g.clean k (h.clean k hk)⟩

section
variable {d t : Device} (h : d.Rewritten t)
include h

theorem Device.Rewritten.areaBase : t.areaBase = d.areaBase := by
  obtain ⟨m, l, x, rfl⟩ := h.form
  rfl

theorem Device.Rewritten.areaKeys (e c ar p n : Nat) : t.areaKeys e c ar p n = d.areaKeys e c ar p n := by
  simp only [Device.areaKeys, h.areaBase]

theorem Device.Rewritten.cleanKeys {l : List Nat} (hl : d.Clean l) : t.Clean l := fun k hk => h.clean k (hl k hk)

/-- The byte of an area where the memory behind it holds what it held. -/
theorem Device.Rewritten.areaByte {e c ar off : Nat}
    (hl : ar = areaL → sget byte0 t.larea (larKey e c off) = sget byte0 d.larea (larKey e c off))
    (hm : ar ≠ areaL → ar ≠ areaT → ar ≠ areaC → t.byte (d.areaBase ar + off) = d.byte (d.areaBase ar + off)) :
    t.areaByte e c ar off = d.areaByte e c ar off := by
  by_cases hL : ar = areaL
  · rw [Device.areaByte, if_pos hL, Device.areaByte, if_pos hL, hl hL]
  · by_cases hTC : ar = areaT ∨ ar = areaC
    · obtain ⟨m, l, x, rfl⟩ := h.form
      rw [Device.areaByte, if_neg hL, if_pos hTC, Device.areaByte, if_neg hL, if_pos hTC]
      rfl
    · obtain ⟨hT, hC⟩ := not_or.mp hTC
      rw [Device.areaByte, if_neg hL, if_neg hTC, Device.areaByte, if_neg hL, if_neg hTC, Device.seen, Device.seen,
        h.areaBase, hm hL hT hC]
      obtain ⟨m, l, x, rfl⟩ := h.form
      rfl

end

/-! ## A block and its copy -/

/-- n bytes of one area and n bytes of another share no byte. -/
def Device.BytesApart (d : Device) (sa sp da dp n : Nat) : Prop :=
  sa = areaL ∧ da ≠ areaL ∨ sa ≠ areaL ∧ da = areaL ∨ sa = areaT ∨ sa = areaC ∨
    d.areaBase sa + sp + n ≤ d.areaBase da + dp ∨ d.areaBase da + dp + n ≤ d.areaBase sa + sp

theorem Device.BytesApart.mono {d : Device} {sa sp da dp m n : Nat} (h : d.BytesApart sa sp da dp n) (hm : m ≤ n) :
    d.BytesApart sa sp da dp m := by
  unfold Device.BytesApart at h ⊢
  omega

/-- The first n bytes of a block have been copied; every other byte holds what it held. -/
structure Device.Copied (d t : Device) (e c sa sp da dp n : Nat) : Prop where
  larea : ∀ j, ¬(da = areaL ∧ larKey e c dp ≤ j ∧ j < larKey e c dp + n) → sget byte0 t.larea j = sget byte0 d.larea j
  mem : ∀ j, ¬(da ≠ areaL ∧ d.areaBase da + dp ≤ j ∧ j < d.areaBase da + dp + n) → t.byte j = d.byte j
  bytes : d.BytesApart sa sp da dp n → ∀ j, j < n → t.underByte e c da (dp + j) = d.areaByte e c sa (sp + j)

theorem Device.Copied.none (d : Device) (e c sa sp da dp : Nat) : d.Copied d e c sa sp da dp 0 :=
  ⟨fun _ _ => rfl, fun _ _ => rfl, fun _ _ h => absurd h (Nat.not_lt_zero _)⟩

/-- A copy is seen in a device with the same memories, and is one of a device with the same operands. -/
theorem Device.Copied.transfer {d d0 t t' : Device} {e c sa sp da dp n : Nat} (h : d0.Copied t e c sa sp da dp n)
    (hd : d.SameAreas d0) (hm : t'.mem = t.mem) (hl : t'.larea = t.larea) (hb : t'.areaBase = t.areaBase) :
    d.Copied t' e c sa sp da dp n where
  larea j hj := by rw [hl, h.larea j hj, hd.larea]
  mem j hj := by
    rw [Device.byte_congr hm, h.mem j (by rwa [hd.areaBase]), Device.byte_congr hd.mem]
  bytes ha j hj := by
    rw [← hd.areaByte, ← h.bytes (by rwa [Device.BytesApart, hd.areaBase]) j hj]
    simp only [Device.underByte, Device.byte, hm, hl, hb]

section
variable {d t : Device} {e c sa sp da dp n : Nat} (h : d.Copied t e c sa sp da dp n) (hr : d.Rewritten t)
include h hr

/-- A source byte that lies apart from the destination is still there. -/
theorem Device.Copied.source {m j : Nat} (hm : n ≤ m) (ha : d.BytesApart sa sp da dp m) (hj : j < m) :
    t.areaByte e c sa (sp + j) = d.areaByte e c sa (sp + j) := by
  refine hr.areaByte (fun hL => h.larea _ ?_) (fun hL hT hC => h.mem _ ?_)
  · rintro ⟨hda, hlo, hhi⟩
    subst hL hda
    simp only [Device.BytesApart, larKey, areaL, areaT, areaC] at ha hlo hhi
    omega
  · rintro ⟨hda, hlo, hhi⟩
    unfold Device.BytesApart at ha
    omega

variable {w : Nat} (hw : w ≠ 0)
  (hsrc : d.Clean (d.areaKeys e c sa (sp + n) w)) (hdst : d.Clean (d.areaKeys e c da (dp + n) w))
  (hT : da ≠ areaT) (hC : da ≠ areaC)
include hw hsrc hdst hT hC

/-- The next element is read and written without an error. -/
theorem Device.Copied.next : ∃ v u, t.areaRead e c sa (sp + n) w = (some v, t) ∧
    t.areaWrite e c da (dp + n) w v = (true, u) ∧ d.Rewritten u ∧ d.Copied u e c sa sp da dp (n + w) := by
  have hread := t.areaRead_clean e c sa (sp + n) w (by rw [hr.areaKeys]; exact hr.cleanKeys hsrc)
  have hkeys : t.Clean (t.areaKeys e c da (dp + n) w) := by
    rw [hr.areaKeys]
    exact hr.cleanKeys hdst
  obtain ⟨m, l, x, hwrite, hst, hclean⟩ := t.areaWrite_clean e c da (dp + n) w (t.areaNum e c sa (sp + n) w) hkeys
    (by rintro rfl; exact hkeys _ (Device.eccLocal_mem_areaKeys _ _ _ _ hw)) hT hC
  refine ⟨_, _, hread, hwrite, hr.trans ⟨⟨m, l, x, rfl⟩, hclean⟩, fun j hj => ?_, fun j hj => ?_, fun ha j hj => ?_⟩
  · rw [hst.larea j (by simp only [larKey] at hj ⊢; omega), h.larea j (by omega)]
  · rw [hst.mem j (by rw [hr.areaBase]; omega), h.mem j (by omega)]
  · by_cases hlow : j < n
    · rw [← h.bytes (ha.mono (by omega)) j hlow]
      have hold : ¬(da = areaL ∧ larKey e c (dp + n) ≤ larKey e c (dp + j) ∧
          larKey e c (dp + j) < larKey e c (dp + n) + w) := by simp only [larKey]; omega
      have hold' : ¬(da ≠ areaL ∧ t.areaBase da + (dp + n) ≤ t.areaBase da + (dp + j) ∧
          t.areaBase da + (dp + j) < t.areaBase da + (dp + n) + w) := by omega
      have hl := hst.larea _ hold
      have hm := hst.mem _ hold'
      simp only [Device.underByte] at hl hm ⊢
      split
      · exact hl
      · exact hm
    · obtain ⟨i, rfl⟩ := Nat.exists_eq_add_of_le (Nat.le_of_not_lt hlow)
      have hi : i < w := by omega
      rw [← Nat.add_assoc, hst.bytes i hi, t.areaNum_byte e c sa (sp + n) hi, Nat.add_assoc,
        h.source hr (Nat.le_add_right n w) ha (by omega)]

end

/-! ## The elements of a block move -/

/-- The registers after k elements of w bytes (R141). -/
def Ctx.blockAt (x : Ctx) (w k : Nat) : Ctx :=
  { x with
    a := BitVec.ofNat 32 (x.a.toNat + 8 * w * k), b := BitVec.ofNat 32 (x.b.toNat + 8 * w * k)
    x := BitVec.ofNat 32 (x.x.toNat - k) }

theorem Ctx.blockAt_zero (x : Ctx) (w : Nat) : x.blockAt w 0 = x := by
  simp [Ctx.blockAt]

/-- One element more. -/
theorem Ctx.blockAt_succ (x : Ctx) (w : Nat) {k : Nat} (hk : k < x.x.toNat) : x.blockAt w (k + 1) =
    { x.blockAt w k with
      a := (x.blockAt w k).a + wd (8 * w), b := (x.blockAt w k).b + wd (8 * w), x := (x.blockAt w k).x - 1 } := by
  have hx : BitVec.ofNat 32 (x.x.toNat - (k + 1)) = BitVec.ofNat 32 (x.x.toNat - k) - 1 := by
    apply BitVec.eq_of_toNat_eq
    have := x.x.isLt
    have hone : (1 : Word).toNat = 1 := rfl
    simp only [BitVec.toNat_sub, BitVec.toNat_ofNat, hone]
    omega
  simp only [Ctx.blockAt, hx, wd, ← BitVec.ofNat_add, Nat.mul_add, Nat.mul_one, Nat.add_assoc]

/-- A pointer word advanced within its area, split into area and byte (R117). -/
theorem pointer_split {a ar p q : Nat} (ha : a = ar * 2 ^ 28 + 8 * p) (har : ar < 12) (hq : p + q ≤ 2 ^ 24) :
    (BitVec.ofNat 32 (a + 8 * q)).toNat / 2 ^ 28 = ar ∧ (BitVec.ofNat 32 (a + 8 * q)).toNat % 2 ^ 28 / 8 = p + q := by
  rw [BitVec.toNat_ofNat]
  omega

/-- The ranges of a block move: its registers name X elements of w bytes of an area that is read, and as many of an area
that is written, and the first n of them meet no error. -/
structure Device.BlockRanges (d : Device) (e c : Nat) (x : Ctx) (w sa sp da dp n : Nat) : Prop where
  src : x.a.toNat = sa * 2 ^ 28 + 8 * sp
  dst : x.b.toNat = da * 2 ^ 28 + 8 * dp
  area : sa < 12
  stores : da < 12 ∧ da ≠ areaT ∧ da ≠ areaC ∧ da ≠ areaI
  aligned : sp % w = 0 ∧ dp % w = 0
  inside : sp + x.x.toNat * w ≤ d.areaSize sa ∧ dp + x.x.toNat * w ≤ d.areaSize da
  count : n ≤ x.x.toNat
  reads : ∀ i, i < n → d.Clean (d.areaKeys e c sa (sp + i * w) w)
  writes : ∀ i, i < n → d.Clean (d.areaKeys e c da (dp + i * w) w)

namespace Device.BlockRanges

variable {d : Device} {e c w sa sp da dp n : Nat} {x : Ctx} (h : d.BlockRanges e c x w sa sp da dp n)
include h

/-- Where element k lies. -/
theorem place {k : Nat} (hk : k ≤ x.x.toNat) :
    (x.blockAt w k).a.toNat / 2 ^ 28 = sa ∧ (x.blockAt w k).a.toNat % 2 ^ 28 / 8 = sp + k * w ∧
    (x.blockAt w k).b.toNat / 2 ^ 28 = da ∧ (x.blockAt w k).b.toNat % 2 ^ 28 / 8 = dp + k * w := by
  obtain ⟨hs, hd⟩ := h.inside
  have hle : k * w ≤ x.x.toNat * w := Nat.mul_le_mul_right w hk
  have hsize := d.areaSize_le sa
  have hsize' := d.areaSize_le da
  obtain ⟨h1, h2⟩ := pointer_split h.src h.area (q := k * w) (by omega)
  obtain ⟨h3, h4⟩ := pointer_split h.dst h.stores.1 (q := k * w) (by omega)
  rw [← show 8 * w * k = 8 * (k * w) by ring] at h1 h2 h3 h4
  exact ⟨h1, h2, h3, h4⟩

/-- The check of the whole range finds nothing (R119). -/
theorem check : bmovCheck d x w = none := by
  obtain ⟨h1, h2, h3, h4⟩ := h.place (Nat.zero_le _)
  simp only [Ctx.blockAt_zero, Nat.zero_mul, Nat.add_zero] at h1 h2 h3 h4
  obtain ⟨hs, hd⟩ := h.inside
  obtain ⟨hda, hT, hC, hI⟩ := h.stores
  obtain ⟨hals, hald⟩ := h.aligned
  have hsa := h.area
  have hsrc := h.src
  have hdst := h.dst
  have hsize := d.areaSize_le sa
  have hsize' := d.areaSize_le da
  have hm : x.a.toNat % 2 ^ 28 = 8 * sp := by omega
  have hm' : x.b.toNat % 2 ^ 28 = 8 * dp := by omega
  simp only [bmovCheck, h1, h2, h3, h4]
  rw [if_neg (by rw [hm, Nat.mul_mod_mul_left]; omega), if_neg (by rw [hm', Nat.mul_mod_mul_left]; omega),
    if_neg (by omega), if_neg (by omega), if_neg hI]

/-- Copying N more elements, after k of them. -/
theorem copy (hw : w ≠ 0) (N : Nat) {k : Nat} (hN : k + N = n) {t : Device} (hr : d.Rewritten t)
    (hc : d.Copied t e c sa sp da dp (k * w)) : ∃ u, bmovCopy e c w N k t (x.blockAt w k) =
      .moved u (x.blockAt w n) n ((x.blockAt w n).x == 0) ∧ d.Rewritten u ∧ d.Copied u e c sa sp da dp (n * w) := by
  induction N generalizing k t with
  | zero =>
    obtain rfl : k = n := hN
    exact ⟨t, rfl, hr, hc⟩
  | succ N ih =>
    have hcount := h.count
    have hlt := x.x.isLt
    obtain ⟨h1, h2, h3, h4⟩ := h.place (k := k) (by omega)
    have hx : (x.blockAt w k).x ≠ 0 := by
      rw [ne_eq, ← BitVec.toNat_inj, Ctx.blockAt, BitVec.toNat_ofNat]
      simp
      omega
    obtain ⟨v, u, hread, hwrite, hru, hcu⟩ := hc.next hr hw (h.reads k (by omega)) (h.writes k (by omega))
      h.stores.2.1 h.stores.2.2.1
    rw [bmovCopy, if_neg hx]
    simp only [h1, h2, h3, h4, hread, hwrite]
    rw [← Ctx.blockAt_succ x w (by omega)]
    exact ih (k := k + 1) (by omega) hru (by rwa [Nat.succ_mul])

end Device.BlockRanges

/-! ## A block move as an instruction -/

/-- The instruction after this one, in the same bank (R115). -/
theorem Device.advance_next (d : Device) (e c : Nat) (x : Ctx) {pc : BitVec 16} (h : pc.toNat % 32768 ≠ 32767) :
    d.advance e c x (pc.toNat / 32768) (pc.toNat % 32768 + 1) = d.setCtx e c { x with pc := pc + 1 } := by
  rw [Device.advance, if_pos (by omega)]
  congr 2
  exact_mod_cast next_pc pc

/-- A block move that has copied elements counts one step for each; the context goes on when it is done. -/
theorem settle_moved (e c : Nat) {pc : BitVec 16} (h : pc.toNat % 32768 ≠ 32767) (d : Device) (x : Ctx) {n : Nat}
    (hn : 0 < n) (done : Bool) : Device.settle e c pc (.moved d x n done) =
      (d.retire e n).setCtx e c { x with pc := if done then pc + 1 else x.pc } := by
  cases done with
  | false => rfl
  | true =>
    rw [Device.settle, Nat.max_eq_left hn, Device.advance_next _ _ _ _ h]
    rfl

/-- What an instruction leaves that changed memories and codeword errors alone. -/
theorem Device.Rewritten.completed {d u : Device} {e : Eng} {c : Nat} (h : d.Executes e c)
    (hr : (d.dispatched e c).Rewritten u) (n : Nat) (y : Ctx) :
    d.Ran (u.completed e c n y) e c n y ∧ d.KeepsRegs (u.completed e c n y) (stepRegs e) ∧
      d.KeepsCells (u.completed e c n y) ∧ d.KeepsUnits (u.completed e c n y) ∧ (u.completed e c n y).evr = d.evr := by
  obtain ⟨m, l, k, rfl⟩ := hr.form
  have he := e.isLt
  refine ⟨Device.ran_completed h n _ rfl (Device.rd_setF_other _ _ (status_ne_lo e he).symm)
    (Device.rd_setF_other _ _ (status_ne_hi e he).symm) (by simp), fun a ha => ?_,
    ⟨Device.tcell_congr (by simp [Device.setCtx]), Device.ccell_congr (by simp [Device.setCtx])⟩,
    by constructor <;> simp, by simp⟩
  simp only [stepRegs, List.mem_cons, List.not_mem_nil, or_false, not_or] at ha
  obtain ⟨hs, hlo, hhi, hg⟩ := ha
  rw [Device.rd_completed _ _ _ _ _ hg hlo hhi]
  exact Device.rd_setF_other _ _ hs

/-- Steps and Sluice move no area. -/
theorem Device.areaBase_completed (d : Device) (e c n : Nat) (y : Ctx) : (d.completed e c n y).areaBase = d.areaBase := by
  have hw : (d.completed e c n y).fld Reg.HP_HWIN_BASE_4K = d.fld Reg.HP_HWIN_BASE_4K := by
    refine Device.fld_congr (Device.rd_completed _ _ _ _ _ (by decide) ?_ ?_)
    · simp only [Reg.HP_HWIN_BASE_4K, Reg.HP_HWIN, Reg.TASK_ENG_RETIRED_LO]
      omega
    · simp only [Reg.HP_HWIN_BASE_4K, Reg.HP_HWIN, Reg.TASK_ENG_RETIRED_HI]
      omega
  funext ar
  simp only [Device.areaBase, hw]

/-- A block move is done when no element is left. -/
theorem Ctx.blockAt_done (x : Ctx) (w : Nat) {n : Nat} (hn : n ≤ x.x.toNat) :
    ((x.blockAt w n).x == 0) = decide (n = x.x.toNat) := by
  have := x.x.isLt
  rw [beq_eq_decide, decide_eq_decide, ← BitVec.toNat_inj, Ctx.blockAt, BitVec.toNat_ofNat]
  have hz : (0 : Word).toNat = 0 := rfl
  omega

/-- The sub-operations of a block move are legal and select the width. -/
theorem bmov_code (k : Fin 3) : ¬((0 : BitVec 22) ≠ 0 ∨ 3 ≤ (BitVec.ofNat 4 k.val).toNat) ∧
    widthOf (BitVec.ofNat 4 k.val).toNat = 2 ^ k.val := by
  revert k
  decide

section
variable {s : State} {e : Eng} {c : Nat} (h : s.dev.Executes e c) (k : Fin 3) {elems : Nat}
include h

/-- With X = 0 a block move copies nothing. -/
theorem Device.Executes.runs_bmov_none (hx : (s.dev.ctx e c).x = 0) :
    Runs (.azBmov e (BitVec.ofNat 4 k.val) 0 elems) s e c (s.dev.ctx e c) := by
  refine h.runs_ok (f := bmovOp e (BitVec.ofNat 4 k.val) 0 elems) rfl ?_
  rw [bmovOp, if_neg (bmov_code k).1, if_pos hx]

/-- A block move whose ranges are legal copies its elements. -/
theorem Device.Executes.completes_bmov {n w sa sp da dp : Nat} (hw : w = 2 ^ k.val) (hx : (s.dev.ctx e c).x ≠ 0)
    (hn : n = min elems (s.dev.ctx e c).x.toNat) (hpos : 0 < n)
    (hb : (s.dev.dispatched e c).BlockRanges e c (s.dev.ctx e c) w sa sp da dp n) :
    Completes (.azBmov e (BitVec.ofNat 4 k.val) 0 elems) s (fun t => ∃ u y,
      t = u.completed e c n y ∧ (s.dev.dispatched e c).Rewritten u ∧
      (s.dev.dispatched e c).Copied u e c sa sp da dp (n * w) ∧
      y = { (s.dev.ctx e c).blockAt w n with
        pc := if n = (s.dev.ctx e c).x.toNat then (s.dev.ctx e c).pc + 1 else (s.dev.ctx e c).pc }) := by
  obtain ⟨hlegal, hwidth⟩ := bmov_code k
  rw [← hw] at hwidth
  have hw0 : w ≠ 0 := hw ▸ (Nat.two_pow_pos _).ne'
  obtain ⟨u, hcopy, hr, hc⟩ := hb.copy hw0 n (Nat.zero_add n) (.refl _)
    (by rw [Nat.zero_mul]; exact .none _ _ _ _ _ _ _)
  rw [Ctx.blockAt_zero, Ctx.blockAt_done _ _ hb.count] at hcopy
  refine completes_run (f := Sys2Proof.Machine.azStep e (bmovOp e (BitVec.ofNat 4 k.val) 0 elems)) rfl ?_
    ⟨u, _, rfl, hr, hc, rfl⟩
  rw [h.azStep, bmovOp, if_neg hlegal, if_neg hx]
  simp only [hwidth, hb.check, ← hn, hcopy]
  rw [settle_moved _ _ h.inside _ _ hpos]
  simp only [decide_eq_true_eq]
  rfl

end

/-- Settles O5: the elements are copied one by one, and the registers follow. -/
theorem blockMove : Obligations.BlockMove := by
  rintro s e c h x rfl
  refine ⟨fun hx k elems => h.runs_bmov_none k hx, ?_⟩
  intro k elems n w sa sp da dp hw hx hn hpos hsrc hdst _ _ hsp hdp hsa hda hT hC hI hins hind hreads hwrites
  have hd := s.dev.same_dispatched e c
  have hb : (s.dev.dispatched e c).BlockRanges e c (s.dev.ctx e c) w sa sp da dp n :=
    ⟨hsrc, hdst, hsa, ⟨hda, hT, hC, hI⟩, ⟨hsp, hdp⟩, by rw [hd.areaSize, hd.areaSize]; exact ⟨hins, hind⟩,
      hn ▸ Nat.min_le_right _ _, fun i hi => by rw [hd.areaKeys]; exact hd.clean (hreads i hi),
      fun i hi => by rw [hd.areaKeys]; exact hd.clean (hwrites i hi)⟩
  obtain ⟨t, hexec, hpend, u, y, ht, hr, hc, hy⟩ := h.completes_bmov k hw hx hn hpos hb
  obtain ⟨hran, hregs, hcells, hunits, hevr⟩ := hr.completed h n y
  have hcopied : s.dev.Copied (u.completed e c n y) e c sa sp da dp (n * w) :=
    hc.transfer hd (by simp) (by simp) (u.areaBase_completed e c n y)
  rw [← ht] at hran hregs hcells hunits hevr hcopied
  subst hy
  exact ⟨t, hexec, hpend, hran, hregs, hcells, hunits, hevr, hcopied.larea, hcopied.mem, hcopied.bytes⟩

end Sys2Proof.Machine
end

section
/-! SUPPORT. Timer and counter cells (R154, R156, R157, R159): what a cell holds after its instruction, what the
instruction leaves alone, and the statements about them. -/

namespace Sys2Proof.Machine

/-! ## Work on cells, registers and the recorder -/

/-- One instruction has changed registers of its context, cells, registers of a list and the recorder. -/
structure Device.Worked (d t : Device) (e c : Nat) (l : List Nat) (y : Ctx) : Prop where
  ran : d.Ran t e c 1 { y with pc := (d.ctx e c).pc + 1 }
  regs : d.KeepsRegs t (l ++ stepRegs e)
  mem : d.KeepsMem t
  units : d.KeepsUnits t

/-- A list of registers that holds none that every instruction writes. -/
def OutsideStep (e : Nat) (l : List Nat) : Prop := ∀ a ∈ stepRegs e, a ∉ l

theorem outsideStep_nil (e : Nat) : OutsideStep e [] := fun _ _ => List.not_mem_nil

theorem outsideStep_loss (e : Eng) : OutsideStep e [Reg.EVR_LOSS] := by
  have := e.isLt
  intro a ha
  simp only [stepRegs, List.mem_cons, List.not_mem_nil, or_false, Reg.CE_STATUS, Reg.TASK_ENG_RETIRED_LO,
    Reg.TASK_ENG_RETIRED_HI, Reg.SF_GATE, Reg.EVR_LOSS] at ha ⊢
  omega

/-- An instruction that changes cells, registers of a list and the recorder alone. -/
theorem Device.Executes.completes_cells {s : State} {e : Eng} {c : Nat} (h : s.dev.Executes e c) {i : Instr} {y : Ctx}
    {f : Device → Nat → Ctx → Res} {d1 : Device} {l : List Nat} {T : SMap TCell} {C : SMap CCell}
    (hx : exec i s = run (Sys2Proof.Machine.azStep e f) s)
    (hf : f (s.dev.dispatched e c) c (s.dev.ctx e c) = .ok { d1 with ce := { d1.ce with tcells := T, ccells := C } } y)
    (hp : (s.dev.dispatched e c).Plain (· ∈ l) d1) (hl : OutsideStep e l) : Completes i s (fun t =>
      s.dev.Worked t e c l y ∧ t.ce.tcells = T ∧ t.ce.ccells = C ∧ t.evr = d1.evr) := by
  have he := e.isLt
  obtain ⟨r, v, hform⟩ := hp.form
  have hrd (a : Nat) (ha : a ∉ l) : ({ d1 with ce := { d1.ce with tcells := T, ccells := C } } : Device).rd a =
      (s.dev.dispatched e c).rd a := hp.regs a ha
  refine completes_run hx (by rw [h.azStep f, hf, settle_ok _ _ _ h.inside]) ⟨⟨Device.ran_completed h 1 _ ?_ ?_ ?_ ?_,
    fun a ha => ?_, ⟨by simp [hform], by simp [hform], by simp [hform]⟩, by constructor <;> simp [hform]⟩,
    by simp [Device.setCtx], by simp [Device.setCtx], by simp⟩
  · exact hrd _ (hl _ (by simp [stepRegs]))
  · exact (hrd _ (hl _ (by simp [stepRegs]))).trans (Device.rd_setF_other _ _ (status_ne_lo e he).symm)
  · exact (hrd _ (hl _ (by simp [stepRegs]))).trans (Device.rd_setF_other _ _ (status_ne_hi e he).symm)
  · simp [hform]
  · simp only [stepRegs, List.mem_append, List.mem_cons, List.not_mem_nil, or_false, not_or] at ha
    obtain ⟨hlist, hs, hlo, hhi, hg⟩ := ha
    exact (Device.rd_completed _ _ _ _ _ hg hlo hhi).trans
      ((hrd _ hlist).trans (Device.rd_setF_other _ _ hs))

/-! ## Timer cells (R156) -/

section
variable (t : TCell) {inp : Bool} {a : Nat}

/-- The cell with an accumulator, and the elapsed time that it gives. -/
def TCell.timed (a : Nat) : TCell := { t with acc := a, et := wd (min t.pt.toNat (a / baseUs t.base)) }

/-- The preset has been reached with an accumulator. -/
def TCell.reached (a : Nat) : Bool := decide (t.pt.toNat ≤ a / baseUs t.base)

/-- The elapsed time that a cell shows reaches the preset when the time has. -/
theorem TCell.elapsed_reached : decide (t.pt.toNat ≤ t.elapsed.toNat) = t.reached t.acc := by
  have := t.pt.isLt
  rw [TCell.elapsed, wd, BitVec.toNat_ofNat, Nat.mod_eq_of_lt (by omega), TCell.reached, decide_eq_decide]
  omega

theorem TCell.ton_off (h : inp = false) : t.ton inp = { t with run := false, acc := 0, et := 0, q := false } := by
  subst h
  rfl

theorem TCell.ton_on (h : inp = true) (ha : (if t.inp then t.acc else 0) = a) :
    t.ton inp = { t.timed a with run := true, q := t.reached a } := by
  subst h ha
  have hacc : (if t.inp then t else { t with acc := 0 }) = { t with acc := if t.inp then t.acc else 0 } := by
    split <;> rfl
  have hdone := TCell.elapsed_reached { t with acc := if t.inp then t.acc else 0 }
  simp only [TCell.ton, if_true, hacc, hdone]
  rfl

/-- A cell that runs ends at its preset. -/
theorem TCell.runOut_eq : t.runOut = if t.reached t.acc then { t.timed t.acc with q := false, run := false }
    else t.timed t.acc := by
  have hdone : (t.pt.toNat ≤ t.elapsed.toNat) = (t.reached t.acc = true) := by
    rw [← TCell.elapsed_reached, decide_eq_true_eq]
  simp only [TCell.runOut, hdone]
  rfl

theorem TCell.tof_on (h : inp = true) : t.tof inp = { t with run := false, acc := 0, et := 0, q := true } := by
  subst h
  rfl

theorem TCell.tof_idle (h : inp = false) (hr : (t.inp || t.run) = false) : t.tof inp = t := by
  obtain ⟨hin, hrun⟩ := Bool.or_eq_false_iff.mp hr
  simp [TCell.tof, h, hin, hrun]

theorem TCell.tof_runs (h : inp = false) (hr : (t.inp || t.run) = true) (ha : (if t.inp then 0 else t.acc) = a) :
    t.tof inp = if t.reached a then { t.timed a with q := false, run := false } else { t.timed a with run := true } := by
  subst h ha
  simp only [TCell.tof, Bool.false_eq_true, if_false]
  by_cases hin : t.inp = true
  · rw [if_pos hin, if_pos hin, if_pos rfl, TCell.runOut_eq]
    rfl
  · have hrun : t.run = true := by simpa [hin] using hr
    rw [if_neg hin, if_neg hin, if_pos hrun, TCell.runOut_eq]
    simp only [TCell.timed, hrun]

theorem TCell.tp_runs (hr : t.run = true) (ha : t.acc = a) :
    t.tp inp = if t.reached a then { t.timed a with q := false, run := false } else t.timed a := by
  subst ha
  simp [TCell.tp, hr, TCell.runOut_eq]

theorem TCell.tp_starts (hr : t.run = false) (h : inp = true) (hin : t.inp = false) : t.tp inp =
    if t.reached 0 then { t.timed 0 with q := false, run := false }
    else { t.timed 0 with q := true, run := true } := by
  have hstart : (inp && !t.inp && !t.run) = true := by simp [h, hin, hr]
  simp only [TCell.tp, if_pos hstart, if_true, TCell.runOut_eq]
  rfl

theorem TCell.tp_held (hr : t.run = false) (h : inp = true) (hin : t.inp = true) : t.tp inp = t := by
  simp [TCell.tp, hr, h, hin]

theorem TCell.tp_idle (hr : t.run = false) (h : inp = false) : t.tp inp = { t with et := 0 } := by
  simp [TCell.tp, hr, h]

end

/-! ## Timer instructions (R157) -/

/-- The cell as a timer instruction finds it: cleared where it was of another kind, with kind, base and preset set. -/
def Device.timerCell (d : Device) (n kind base : Nat) (pt : Word) : TCell :=
  { (if (d.tcell n).kind ≠ 0 ∧ (d.tcell n).kind ≠ kind then TCell.zero else d.tcell n) with
    kind := kind, base := base, pt := pt }

/-- What a cell keeps of the last execution of its own kind. -/
theorem Device.timerCell_kept (d : Device) (n kind base : Nat) (pt : Word) :
    (d.timerCell n kind base pt).inp =
      (decide ((d.tcell n).kind = 0 ∨ (d.tcell n).kind = kind) && (d.tcell n).inp) ∧
    (d.timerCell n kind base pt).run =
      (decide ((d.tcell n).kind = 0 ∨ (d.tcell n).kind = kind) && (d.tcell n).run) ∧
    (d.timerCell n kind base pt).acc =
      if (d.tcell n).kind = 0 ∨ (d.tcell n).kind = kind then (d.tcell n).acc else 0 := by
  unfold Device.timerCell
  by_cases hk : (d.tcell n).kind = 0 ∨ (d.tcell n).kind = kind
  · rw [if_neg (by omega)]
    simp [hk]
  · rw [if_pos (by omega)]
    simp [hk, TCell.zero]

/-- Cell n of the timers holds `cell` after an instruction of a kind; a cell of another kind was reported (R157). -/
def Device.TimerLeft (d t : Device) (e : Eng) (c n kind : Nat) (cell : TCell) (y : Ctx) : Prop :=
  d.Ran t e c 1 { y with pc := (d.ctx e c).pc + 1 } ∧ t.tcell n = cell ∧ (∀ m, m ≠ n → t.tcell m = d.tcell m) ∧
  (∀ m, t.ccell m = d.ccell m) ∧ d.KeepsMem t ∧ d.KeepsUnits t ∧ d.KeepsRegs t (Reg.EVR_LOSS :: stepRegs e) ∧
  if kind ≠ 0 ∧ (d.tcell n).kind ≠ 0 ∧ (d.tcell n).kind ≠ kind then
    d.Logs t 0x091 [wd n, wd (d.tcell n).kind, wd kind, wd (16 * e + c)]
  else t.evr = d.evr

/-- The sub-operation of a timer instruction with a base (R153). -/
theorem timer_code (base : Fin 3) : (BitVec.ofNat 6 (16 * base.val)).toNat / 16 = base.val ∧
    (decide ((BitVec.ofNat 6 (16 * base.val)).toNat % 16 = 0) && decide (base.val < 3)) = true := by
  revert base
  decide

theorem onCell_ok {idx : BitVec 16} (hi : idx.toNat < 4096) {legal : Bool} (hl : legal = true) (k : Res) (d : Device)
    (x : Ctx) : onCell idx legal k d x = k := by
  subst hl
  rw [onCell, if_neg (by decide), if_neg (by omega)]

/-- A cell of another kind is reported before it is cleared. -/
def Device.timerReported (d : Device) (e : Eng) (c n kind : Nat) (pos : BitVec 16) : Device :=
  if (d.tcell n).kind ≠ 0 ∧ (d.tcell n).kind ≠ kind then
    d.raiseFrom e c pos.toNat 0x091 [wd n, wd (d.tcell n).kind, wd kind, wd (16 * e + c)]
  else d

theorem Device.timerReported_other {d : Device} {n kind : Nat} (h : (d.tcell n).kind ≠ 0 ∧ (d.tcell n).kind ≠ kind)
    (e : Eng) (c : Nat) (pos : BitVec 16) : d.timerReported e c n kind pos =
      d.raiseFrom e c pos.toNat 0x091 [wd n, wd (d.tcell n).kind, wd kind, wd (16 * e + c)] := if_pos h

theorem Device.timerReported_same {d : Device} {n kind : Nat} (h : ¬((d.tcell n).kind ≠ 0 ∧ (d.tcell n).kind ≠ kind))
    (e : Eng) (c : Nat) (pos : BitVec 16) : d.timerReported e c n kind pos = d := if_neg h

theorem Device.plain_timerReported (d : Device) (e : Eng) (c n kind : Nat) (pos : BitVec 16) :
    d.Plain (· ∈ [Reg.EVR_LOSS]) (d.timerReported e c n kind pos) :=
  .ite (d.plain_raiseFrom _ _ _ _ _ List.mem_cons_self) (.refl d)

/-- What a timer instruction answers on a cell that exists. -/
theorem timerOp_eq (e : Eng) (kind : Nat) (f : TCell → Bool → TCell) (base : Fin 3) {idx : BitVec 16}
    (hi : idx.toNat < 4096) (d : Device) (c : Nat) (x : Ctx) :
    timerOp e kind f (BitVec.ofNat 6 (16 * base.val)) idx d c x =
      .ok ((d.timerReported e c idx.toNat kind x.pc).setTcell idx.toNat
          { f (d.timerCell idx.toNat kind base x.a) x.la with inp := x.la })
        { x with la := (f (d.timerCell idx.toNat kind base x.a) x.la).q, co := false } := by
  obtain ⟨hbase, hlegal⟩ := timer_code base
  simp only [timerOp, hbase, onCell_ok hi hlegal, Bool.and_eq_true, decide_eq_true_eq]
  rfl

section
variable {s : State} {e : Eng} {c : Nat} (h : s.dev.Executes e c) {i : Instr} {idx : BitVec 16} (hi : idx.toNat < 4096)
include h hi

/-- TON, TOF and TP leave in their cell what their operation makes of it, and in LA the output of the cell. -/
theorem Device.Executes.leaves_timer {base : Fin 3} {kind : Nat} {f : TCell → Bool → TCell} (hk : kind ≠ 0)
    (hx : exec i s = run (Sys2Proof.Machine.azStep e (timerOp e kind f (BitVec.ofNat 6 (16 * base.val)) idx)) s)
    {cell : TCell} (hcell : f (s.dev.timerCell idx.toNat kind base (s.dev.ctx e c).a) (s.dev.ctx e c).la = cell) :
    Completes i s (fun t => s.dev.TimerLeft t e c idx.toNat kind { cell with inp := (s.dev.ctx e c).la }
      { s.dev.ctx e c with la := cell.q, co := false }) := by
  subst hcell
  have hp := (s.dev.dispatched e c).plain_timerReported e c idx.toNat kind (s.dev.ctx e c).pc
  obtain ⟨r, v, hform⟩ := hp.form
  obtain ⟨t, hexec, hpend, hwork, htc, hcc, hevr⟩ := h.completes_cells hx (timerOp_eq e kind f base hi _ _ _) hp
    (outsideStep_loss e)
  refine ⟨t, hexec, hpend, hwork.ran, ?_, fun m hm => ?_, ?_, hwork.mem, hwork.units, hwork.regs, ?_⟩
  · rw [Device.tcell, htc, sget_sput_same]
    rfl
  · rw [Device.tcell, htc, sget_sput_other _ _ _ hm, hform]
    rfl
  · exact Device.ccell_congr (by rw [hcc, hform]; rfl)
  · split
    · next hother =>
      refine Device.Logs.congr ?_ hevr
      rw [Device.timerReported_other (d := s.dev.dispatched e c) hother.2]
      exact s.dev.raiseFrom_logs _ _ _ _ _ _
        (Device.rd_setF_other _ _ (evrcode_ne_status e _ e.isLt)) rfl rfl
    · next hother =>
      rw [hevr, Device.timerReported_same (d := s.dev.dispatched e c) fun hn => hother ⟨hk, hn⟩]
      rfl

/-- TRST clears its cell with LA = 1. -/
theorem Device.Executes.leaves_trst : Completes (.azTrst e 0 idx) s (fun t => s.dev.TimerLeft t e c idx.toNat 0
    (if (s.dev.ctx e c).la then TCell.zero else s.dev.tcell idx.toNat) { s.dev.ctx e c with co := true }) := by
  have hf : trstOp 0 idx (s.dev.dispatched e c) c (s.dev.ctx e c) = .ok
      (if (s.dev.ctx e c).la then (s.dev.dispatched e c).setTcell idx.toNat TCell.zero else s.dev.dispatched e c)
      { s.dev.ctx e c with co := true } := onCell_ok hi rfl _ _ _
  by_cases hla : (s.dev.ctx e c).la = true
  · rw [if_pos hla] at hf
    obtain ⟨t, hexec, hpend, hwork, htc, hcc, hevr⟩ := h.completes_cells (i := .azTrst e 0 idx) rfl hf (.refl _)
      (outsideStep_loss e)
    refine ⟨t, hexec, hpend, hwork.ran, ?_, fun m hm => ?_, Device.ccell_congr hcc, hwork.mem, hwork.units, hwork.regs, ?_⟩
    · rw [if_pos hla, Device.tcell, htc, sget_sput_same]
    · rw [Device.tcell, htc, sget_sput_other _ _ _ hm]
      rfl
    · exact hevr
  · rw [if_neg hla] at hf
    obtain ⟨t, hexec, hpend, hwork, htc, hcc, hevr⟩ := h.completes_cells (i := .azTrst e 0 idx) rfl hf (.refl _)
      (outsideStep_loss e)
    exact ⟨t, hexec, hpend, hwork.ran, by rw [if_neg hla]; exact Device.tcell_congr htc _,
      fun m _ => Device.tcell_congr htc m, Device.ccell_congr hcc, hwork.mem, hwork.units, hwork.regs, hevr⟩

end

/-- Settles O12: each clause is a case of what the instruction makes of its cell. -/
theorem timers : Obligations.Timers := by
  rintro s e c h x rfl base idx hi unit was leaves start held runs acc timed done gives
  have hkept (kind : Nat) : (s.dev.timerCell idx.toNat kind base (s.dev.ctx e c).a).inp = held kind ∧
      (s.dev.timerCell idx.toNat kind base (s.dev.ctx e c).a).run = runs kind ∧
      (s.dev.timerCell idx.toNat kind base (s.dev.ctx e c).a).acc = acc kind := s.dev.timerCell_kept _ _ _ _
  obtain ⟨hin1, -, hacc1⟩ := hkept 1
  obtain ⟨hin2, hrun2, hacc2⟩ := hkept 2
  obtain ⟨hin3, hrun3, hacc3⟩ := hkept 3
  have ton {cell : TCell} := h.leaves_timer (i := .azTon e (BitVec.ofNat 6 (16 * base.val)) idx) (base := base) (kind := 1)
    (f := TCell.ton) (cell := cell) hi (by decide) rfl
  have tof {cell : TCell} := h.leaves_timer (i := .azTof e (BitVec.ofNat 6 (16 * base.val)) idx) (base := base) (kind := 2)
    (f := TCell.tof) (cell := cell) hi (by decide) rfl
  have tp {cell : TCell} := h.leaves_timer (i := .azTp e (BitVec.ofNat 6 (16 * base.val)) idx) (base := base) (kind := 3)
    (f := TCell.tp) (cell := cell) hi (by decide) rfl
  refine ⟨fun hla => ?_, fun hla a ha => ?_, fun hla => ?_, fun hla hr => ?_, fun hla hr a ha => ?_, fun hr => ?_,
    fun hr hla hin => ?_, fun hr hla hin => ?_, fun hr hla => ?_, h.leaves_trst hi⟩
  · exact (ton (TCell.ton_off _ hla) :)
  · exact (ton (TCell.ton_on _ hla (a := a) (by rw [hin1, hacc1, ha])) :)
  · exact (tof (TCell.tof_on _ hla) :)
  · exact (tof (TCell.tof_idle _ hla (by rw [hin2, hrun2, hr])) :)
  · have hcell := TCell.tof_runs _ hla (by rw [hin2, hrun2, hr]) (a := a) (by rw [hin2, hacc2, ha])
    split
    · next hd => exact (tof (hcell.trans (if_pos hd)) :)
    · next hd => exact (tof (hcell.trans (if_neg hd)) :)
  · have hcell := TCell.tp_runs _ (hrun3.trans hr) hacc3 (inp := (s.dev.ctx e c).la)
    split
    · next hd => exact (tp (hcell.trans (if_pos hd)) :)
    · next hd => exact (tp (hcell.trans (if_neg hd)) :)
  · have hcell := TCell.tp_starts _ (hrun3.trans hr) hla (hin3.trans hin)
    split
    · next hd => exact (tp (hcell.trans (if_pos hd)) :)
    · next hd => exact (tp (hcell.trans (if_neg hd)) :)
  · exact (tp (TCell.tp_held _ (hrun3.trans hr) hla (hin3.trans hin)) :)
  · exact (tp (TCell.tp_idle _ (hrun3.trans hr) hla) :)

/-! ## Counter cells (R159) -/

/-- A rising LA is one that the cell has not seen. -/
theorem rising_iff (la seen : Bool) : (la && !seen) = true ↔ la = true ∧ seen = false := by
  simp

/-- CU counts up on a rising LA, or sets OVF at the greatest count. -/
theorem CCell.cu_eq (k : CCell) (pv : Word) (la : Bool) : k.cu pv la = ({ k with
    pv := pv, cum := la, ovf := if (la = true ∧ k.cum = false) ∧ k.cv = 0x7FFFFFFF then true else k.ovf
    cv := if (la = true ∧ k.cum = false) ∧ k.cv ≠ 0x7FFFFFFF then k.cv + 1 else k.cv } : CCell).outputs := by
  simp only [CCell.cu, rising_iff]
  by_cases hup : la = true ∧ k.cum = false
  · by_cases hmax : k.cv = 0x7FFFFFFF
    · simp only [eq_true hup, eq_true hmax, ne_eq, not_true_eq_false, and_true, and_false, if_true, if_false]
    · simp only [eq_true hup, eq_false hmax, ne_eq, not_false_eq_true, and_true, and_false, if_true, if_false]
  · simp only [if_neg hup, if_neg fun h => hup (And.left h)]

/-- CD counts down on a rising LA, or sets OVF at the least count. -/
theorem CCell.cd_eq (k : CCell) (pv : Word) (la : Bool) : k.cd pv la = ({ k with
    pv := pv, cdm := la, ovf := if (la = true ∧ k.cdm = false) ∧ k.cv = 0x80000000 then true else k.ovf
    cv := if (la = true ∧ k.cdm = false) ∧ k.cv ≠ 0x80000000 then k.cv - 1 else k.cv } : CCell).outputs := by
  simp only [CCell.cd, rising_iff]
  by_cases hdown : la = true ∧ k.cdm = false
  · by_cases hmin : k.cv = 0x80000000
    · simp only [eq_true hdown, eq_true hmin, ne_eq, not_true_eq_false, and_true, and_false, if_true, if_false]
    · simp only [eq_true hdown, eq_false hmin, ne_eq, not_false_eq_true, and_true, and_false, if_true, if_false]
  · simp only [if_neg hdown, if_neg fun h => hdown (And.left h)]

/-- Cell n of the counters holds `cell` after an instruction. -/
def Device.CounterLeft (d t : Device) (e : Eng) (c n : Nat) (cell : CCell) (y : Ctx) : Prop :=
  d.Ran t e c 1 { y with pc := (d.ctx e c).pc + 1 } ∧ t.ccell n = cell ∧ (∀ m, m ≠ n → t.ccell m = d.ccell m) ∧
  (∀ m, t.tcell m = d.tcell m) ∧ d.KeepsMem t ∧ d.KeepsUnits t ∧ d.KeepsRegs t (stepRegs e) ∧ t.evr = d.evr

section
variable {s : State} {e : Eng} {c : Nat} (h : s.dev.Executes e c) {i : Instr} {idx : BitVec 16} (hi : idx.toNat < 4096)
include h

/-- An instruction that changes counter cell n alone. -/
theorem Device.Executes.leaves_counter {f : Device → Nat → Ctx → Res} {n : Nat} {C : SMap CCell} {cell : CCell} {y : Ctx}
    (hx : exec i s = run (Sys2Proof.Machine.azStep e f) s)
    (hf : f (s.dev.dispatched e c) c (s.dev.ctx e c) =
      .ok { s.dev.dispatched e c with ce := { (s.dev.dispatched e c).ce with ccells := C } } y)
    (hn : sget ccell0 C n = cell) (hother : ∀ m, m ≠ n → sget ccell0 C m = s.dev.ccell m) :
    Completes i s (fun t => s.dev.CounterLeft t e c n cell y) := by
  obtain ⟨t, hexec, hpend, hwork, htc, hcc, hevr⟩ := h.completes_cells hx hf (.refl _) (outsideStep_nil e)
  refine ⟨t, hexec, hpend, hwork.ran, ?_, fun m hm => ?_, Device.tcell_congr htc, hwork.mem, hwork.units, hwork.regs, hevr⟩
  · rw [Device.ccell, hcc, hn]
  · rw [Device.ccell, hcc, hother m hm]

include hi

/-- CU and CD leave their count, and in LA one of its outputs. -/
theorem Device.Executes.leaves_count {f : CCell → Word → Bool → CCell} {out : CCell → Bool} {cell : CCell}
    (hx : exec i s = run (Sys2Proof.Machine.azStep e (countOp f out 0 idx)) s)
    (hcell : f (s.dev.ccell idx.toNat) (s.dev.ctx e c).a (s.dev.ctx e c).la = cell) : Completes i s (fun t =>
      s.dev.CounterLeft t e c idx.toNat cell { s.dev.ctx e c with la := out cell, co := false }) := by
  subst hcell
  exact h.leaves_counter hx (onCell_ok hi rfl _ _ _) (sget_sput_same _ _ _ _) (fun m hm => sget_sput_other _ _ _ hm)

/-- CR and CLD set their cell with LA = 1. -/
theorem Device.Executes.leaves_countSet {f : CCell → Word → CCell}
    (hx : exec i s = run (Sys2Proof.Machine.azStep e (countSet f 0 idx)) s) : Completes i s (fun t =>
      s.dev.CounterLeft t e c idx.toNat
        (if (s.dev.ctx e c).la then
            ({ f (s.dev.ccell idx.toNat) (s.dev.ctx e c).a with ovf := false } : CCell).outputs
          else s.dev.ccell idx.toNat) { s.dev.ctx e c with co := true }) := by
  have hf : countSet f 0 idx (s.dev.dispatched e c) c (s.dev.ctx e c) = .ok
      (if (s.dev.ctx e c).la then (s.dev.dispatched e c).setCcell idx.toNat
          ({ f (s.dev.ccell idx.toNat) (s.dev.ctx e c).a with ovf := false } : CCell).outputs
        else s.dev.dispatched e c) { s.dev.ctx e c with co := true } := onCell_ok hi rfl _ _ _
  by_cases hla : (s.dev.ctx e c).la = true
  · rw [if_pos hla] at hf ⊢
    exact h.leaves_counter hx hf (sget_sput_same _ _ _ _) (fun m hm => sget_sput_other _ _ _ hm)
  · rw [if_neg hla] at hf ⊢
    exact h.leaves_counter hx hf rfl (fun m _ => rfl)

end

/-- Settles O13: each is one operation on its cell. -/
theorem counters : Obligations.Counters := by
  rintro s e c h x rfl idx hi was leaves shown up down
  refine ⟨?_, ?_, (h.leaves_countSet (i := .azCr e 0 idx) hi rfl :), (h.leaves_countSet (i := .azCld e 0 idx) hi rfl :)⟩
  · rintro cell rfl
    exact (h.leaves_count (i := .azCu e 0 idx) (out := CCell.qu) hi rfl (CCell.cu_eq _ _ _) :)
  · rintro cell rfl
    exact (h.leaves_count (i := .azCd e 0 idx) (out := CCell.qd) hi rfl (CCell.cd_eq _ _ _) :)

end Sys2Proof.Machine
end

section
/-! SUPPORT. Instructions that record, read the time or work on doorbells (R163–R167, R517): what each leaves, and the
statements about them. -/

namespace Sys2Proof.Machine

/-! ## Instructions that change registers and the recorder -/

theorem Device.Plain.soft {R : Nat → Prop} {d t : Device} (h : d.Plain R t) : d.Soft R t := by
  obtain ⟨r, v, hform⟩ := h.form
  exact ⟨⟨r, v, d.task, d.sent, hform⟩, h.regs⟩

theorem Completes.imp {i : Instr} {s : State} {P Q : Device → Prop} (h : Completes i s P) (hpq : ∀ t, P t → Q t) :
    Completes i s Q := by
  obtain ⟨t, hexec, hpend, hP⟩ := h
  exact ⟨t, hexec, hpend, hpq _ hP⟩

/-- The dispatch of an instruction writes none but its engine's status. -/
theorem Device.rd_dispatched (d : Device) (e c : Nat) {a : Nat} (h : a ∉ stepRegs e) :
    (d.dispatched e c).rd a = d.rd a :=
  Device.rd_setF_other _ _ (List.ne_of_not_mem_cons h)

/-- The end of an instruction writes step counts, and SF_GATE follows Sluice. -/
theorem Device.rd_completed_outside (d : Device) (e c n : Nat) (x : Ctx) {a : Nat} (h : a ∉ stepRegs e) :
    (d.completed e c n x).rd a = d.rd a := by
  simp only [stepRegs, List.mem_cons, List.not_mem_nil, or_false, not_or] at h
  obtain ⟨-, hlo, hhi, hg⟩ := h
  exact Device.rd_completed _ _ _ _ _ hg hlo hhi

section
variable {d d1 : Device} {e c : Nat} {l : List Nat} (hp : (d.dispatched e c).Plain (· ∈ l) d1) (x : Ctx)
include hp

/-- Registers after an instruction that changed those of a list. -/
theorem Device.Plain.completed_regs : d.KeepsRegs (d1.completed e c 1 x) (l ++ stepRegs e) := by
  intro a ha
  rw [List.mem_append, not_or] at ha
  obtain ⟨hlist, hstep⟩ := ha
  rw [Device.rd_completed_outside _ _ _ _ _ hstep, hp.regs _ hlist, Device.rd_dispatched _ _ _ hstep]

theorem Device.Plain.completed_units : d.KeepsUnits (d1.completed e c 1 x) := by
  obtain ⟨r, v, hform⟩ := hp.form
  exact hp.soft.units (by rw [hform]; rfl) (by rw [hform]; rfl)

end

/-- An instruction that changes registers of a list and the recorder alone. -/
theorem Device.Executes.completes_plain {s : State} {e : Eng} {c : Nat} (h : s.dev.Executes e c) {i : Instr} {y : Ctx}
    {f : Device → Nat → Ctx → Res} {d1 : Device} {l : List Nat} (hx : exec i s = run (Sys2Proof.Machine.azStep e f) s)
    (hf : f (s.dev.dispatched e c) c (s.dev.ctx e c) = .ok d1 y) (hp : (s.dev.dispatched e c).Plain (· ∈ l) d1)
    (hl : OutsideStep e l) : Completes i s (fun t => s.dev.Worked t e c l y ∧ s.dev.KeepsCells t ∧ t.evr = d1.evr ∧
      ∀ a, a ∉ stepRegs e → t.rd a = d1.rd a) := by
  refine (h.completes_soft hx hf hp.soft (hl _ (by simp [stepRegs])) (hl _ (by simp [stepRegs]))
    (hl _ (by simp [stepRegs]))).imp ?_
  rintro _ ⟨rfl, hran, hmem, hcells, -⟩
  exact ⟨⟨hran, hp.completed_regs _, hmem, hp.completed_units _⟩, hcells, by simp,
    fun a ha => Device.rd_completed_outside _ _ _ _ _ ha⟩

/-! ## Resource indexes (R113) -/

theorem onIndex_ok {bound : Nat} {idx : BitVec 16} (h : idx.toNat < bound) (k : Device → Nat → Ctx → Res) :
    onIndex bound 0 idx k = k := by
  funext d c x
  rw [onIndex, if_neg (by decide), if_neg (by omega)]

theorem onZero_ok (k : Device → Nat → Ctx → Res) : onZero 0 0 k = k := rfl

/-! ## Events and time -/

/-- The words of an EVW are the first of A, B, X and Y. -/
theorem evw_words (sub : Fin 4) (x : Ctx) :
    (if BitVec.ofNat 4 sub.val = 0 then [] else if BitVec.ofNat 4 sub.val = 1 then [x.a]
      else if BitVec.ofNat 4 sub.val = 2 then [x.a, x.b] else [x.a, x.b, x.x, x.y]) =
    [x.a, x.b, x.x, x.y].take (if sub.val = 3 then 4 else sub.val) := by
  match sub with
  | 0 | 1 | 2 | 3 => rfl

theorem evwOp_eq (e : Eng) (sub : Fin 4) {idx : BitVec 16} (hi : idx.toNat < 1024) (d : Device) (c : Nat) (x : Ctx) :
    evwOp e (BitVec.ofNat 4 sub.val) 0 idx d c x = .ok (d.raiseFrom e c x.pc.toNat (0x400 + idx.toNat)
      ([x.a, x.b, x.x, x.y].take (if sub.val = 3 then 4 else sub.val))) x := by
  have hsub : ¬4 ≤ (BitVec.ofNat 4 sub.val).toNat := by
    revert sub
    decide
  rw [evwOp, if_neg hsub, onIndex_ok hi]
  simp only [evw_words]

theorem trap_0_not_stepRegs (e : Eng) : Reg.CE_TRAP_0 e ∉ stepRegs e := by
  have := e.isLt
  simp only [stepRegs, List.mem_cons, List.not_mem_nil, or_false, Reg.CE_STATUS, Reg.TASK_ENG_RETIRED_LO,
    Reg.TASK_ENG_RETIRED_HI, Reg.SF_GATE, Reg.CE_TRAP_0]
  omega

theorem trap_1_not_stepRegs (e : Eng) : Reg.CE_TRAP_1 e ∉ stepRegs e := by
  have := e.isLt
  simp only [stepRegs, List.mem_cons, List.not_mem_nil, or_false, Reg.CE_STATUS, Reg.TASK_ENG_RETIRED_LO,
    Reg.TASK_ENG_RETIRED_HI, Reg.SF_GATE, Reg.CE_TRAP_1]
  omega

/-- Settles O17: EVW records its event, and the others read what the instruction finds. -/
theorem eventAndTime : Obligations.EventAndTime := by
  rintro s e c h x rfl
  have he := e.isLt
  refine ⟨fun sub idx hi => ?_, h.runs_ok rfl rfl, h.runs_ok rfl rfl, h.runs_ok rfl rfl, h.runs_ok rfl ?_⟩
  · obtain ⟨t, hexec, hpend, hwork, hcells, hevr, -⟩ := h.completes_plain (i := .azEvw e (BitVec.ofNat 4 sub.val) 0 idx) rfl
      (evwOp_eq e sub hi _ _ _) (Device.plain_raiseFrom _ _ _ _ _ _ List.mem_cons_self) (outsideStep_loss e)
    refine ⟨t, hexec, hpend, hwork.ran, hwork.regs, hwork.mem, hcells, hwork.units, Device.Logs.congr ?_ hevr⟩
    exact s.dev.raiseFrom_logs _ _ _ _ _ _ (Device.rd_setF_other _ _ (evrcode_ne_status e _ he)) rfl rfl
  · have h0 := s.dev.rd_dispatched e c (trap_0_not_stepRegs e)
    have h1 := s.dev.rd_dispatched e c (trap_1_not_stepRegs e)
    simp only [tinfoOp, onZero_ok, h0, h1]

/-! ## Doorbells (R517) -/

section
variable (d : Device) {n : Nat} (hn : n < 25) (bits : Word)
include hn

/-- A ring sets its bits; what else it does, it does to releases and host causes. -/
theorem Device.doorbell_soft : (d.wr (Reg.MB_EP_W4 n) (d.rd (Reg.MB_EP_W4 n) ||| bits)).Soft
    (fun a => RelReg a ∨ CauseReg a) (d.doorbell n bits) := by
  simp only [Device.doorbell, if_neg (show ¬n > 24 by omega)]
  split
  · exact .refl _
  · split
    · exact Device.soft_fire _ _ fun _ => .inl
    · exact (Device.Soft.ite (Device.soft_cause _ _ fun _ => .inr) (.refl _)).trans
        (Device.soft_ringCauses _ _ _ fun _ => .inr)

/-- A ring with no fresh unmasked bit sets its bits alone. -/
theorem Device.doorbell_quiet
    (hq : bits &&& ~~~ d.rd (Reg.MB_EP_W4 n) &&& ~~~ d.rd (Reg.MB_EP_W6 n) = 0) :
    d.doorbell n bits = d.wr (Reg.MB_EP_W4 n) (d.rd (Reg.MB_EP_W4 n) ||| bits) := by
  simp only [Device.doorbell, if_neg (show ¬n > 24 by omega), if_pos hq]

end

/-- A register of the mailbox block is none that releases and host causes write. -/
theorem not_relReg_causeReg {a : Nat} (h1 : 0x4130000 ≤ a) (h2 : a < 0x4140000) : ¬(RelReg a ∨ CauseReg a) := by
  refine not_or.mpr ⟨not_relReg (by omega) ?_, not_causeReg (by omega)⟩
  simp only [Reg.EVR_LOSS]
  omega

theorem mb_not_stepRegs (e : Eng) {a : Nat} (h1 : 0x4130000 ≤ a) (h2 : a < 0x4140000) : a ∉ stepRegs e := by
  have := e.isLt
  simp only [stepRegs, List.mem_cons, List.not_mem_nil, or_false, Reg.CE_STATUS, Reg.TASK_ENG_RETIRED_LO,
    Reg.TASK_ENG_RETIRED_HI, Reg.SF_GATE]
  omega

/-- The doorbell word of an endpoint is a register of the mailbox block. -/
theorem dbPend_mb {n : Nat} (hn : n < 25) : 0x4130000 ≤ Reg.MB_EP_W4 n ∧ Reg.MB_EP_W4 n < 0x4140000 := by
  simp only [Reg.MB_EP_W4]
  omega

theorem dbMask_mb {n : Nat} (hn : n < 25) : 0x4130000 ≤ Reg.MB_EP_W6 n ∧ Reg.MB_EP_W6 n < 0x4140000 := by
  simp only [Reg.MB_EP_W6]
  omega

/-- A ring on the dispatched device leaves the doorbell words of the other endpoints alone. -/
theorem Device.rd_doorbell_dispatched (d : Device) (e : Eng) (c : Nat) {n k : Nat} (hn : n < 25) (hk : k < 25)
    (bits : Word) : ((d.dispatched e c).doorbell n bits).rd (Reg.MB_EP_W4 k) =
      if k = n then d.rd (Reg.MB_EP_W4 n) ||| bits else d.rd (Reg.MB_EP_W4 k) := by
  have hstep {k : Nat} (hk : k < 25) : (d.dispatched e c).rd (Reg.MB_EP_W4 k) = d.rd (Reg.MB_EP_W4 k) :=
    d.rd_dispatched e c (mb_not_stepRegs e (dbPend_mb hk).1 (dbPend_mb hk).2)
  rw [((d.dispatched e c).doorbell_soft hn bits).regs _ (not_relReg_causeReg (dbPend_mb hk).1 (dbPend_mb hk).2)]
  split
  · next heq => rw [heq, Device.rd_wr_same, hstep hn]
  · next hne =>
    have : Reg.MB_EP_W4 k ≠ Reg.MB_EP_W4 n := by
      simp only [Reg.MB_EP_W4]
      omega
    rw [Device.rd_wr_other _ _ this, hstep hk]

/-- A list of registers of the mailbox block. -/
def MbRegs (l : List Nat) : Prop := ∀ a ∈ l, 0x4130000 ≤ a ∧ a < 0x4140000

theorem MbRegs.outsideStep {l : List Nat} (h : MbRegs l) (e : Eng) : OutsideStep e l :=
  fun a ha hmem => mb_not_stepRegs e (h a hmem).1 (h a hmem).2 ha

theorem mbRegs_dbPend {n : Nat} (hn : n < 25) : MbRegs [Reg.MB_EP_W4 n] := by
  simpa [MbRegs] using dbPend_mb hn

/-- Registers of a list, and those that releases and host causes write. -/
def SentReg (l : List Nat) (a : Nat) : Prop := a ∈ l ∨ RelReg a ∨ CauseReg a

section
variable {l : List Nat} (hl : MbRegs l) (e : Eng)
include hl

theorem not_sentReg_status : ¬SentReg l (Reg.CE_STATUS e) := by
  have := e.isLt
  refine not_or.mpr ⟨hl.outsideStep e _ (by simp [stepRegs]), not_or.mpr ⟨not_relReg ?_ ?_, not_causeReg ?_⟩⟩ <;>
    simp only [Reg.CE_STATUS, Reg.EVR_LOSS] <;> omega

theorem not_sentReg_lo : ¬SentReg l (Reg.TASK_ENG_RETIRED_LO e) := by
  have := e.isLt
  refine not_or.mpr ⟨hl.outsideStep e _ (by simp [stepRegs]), not_or.mpr ⟨not_relReg_lo e this, not_causeReg ?_⟩⟩
  simp only [Reg.TASK_ENG_RETIRED_LO]
  omega

theorem not_sentReg_hi : ¬SentReg l (Reg.TASK_ENG_RETIRED_HI e) := by
  have := e.isLt
  refine not_or.mpr ⟨hl.outsideStep e _ (by simp [stepRegs]), not_or.mpr ⟨not_relReg_hi e this, not_causeReg ?_⟩⟩
  simp only [Reg.TASK_ENG_RETIRED_HI]
  omega

end

/-- An instruction that changes registers of the mailbox block, and sends releases and host causes. -/
theorem Device.Executes.completes_sent {s : State} {e : Eng} {c : Nat} (h : s.dev.Executes e c) {i : Instr} {y : Ctx}
    {f : Device → Nat → Ctx → Res} {d1 : Device} {l : List Nat} (hx : exec i s = run (Sys2Proof.Machine.azStep e f) s)
    (hf : f (s.dev.dispatched e c) c (s.dev.ctx e c) = .ok d1 y) (hs : (s.dev.dispatched e c).Soft (SentReg l) d1)
    (hl : MbRegs l) : Completes i s (fun t => t = d1.completed e c 1 { y with pc := (s.dev.ctx e c).pc + 1 } ∧
      s.dev.Ran t e c 1 { y with pc := (s.dev.ctx e c).pc + 1 } ∧ s.dev.KeepsMem t ∧ s.dev.KeepsCells t) :=
  (h.completes_soft hx hf hs (not_sentReg_status hl e) (not_sentReg_lo hl e) (not_sentReg_hi hl e)).imp
    fun _ ⟨ht, hran, hmem, hcells, _⟩ => ⟨ht, hran, hmem, hcells⟩

/-- A ring with no fresh unmasked bit writes the doorbell word alone. -/
theorem Device.ring_quiet (d : Device) (e : Eng) (c : Nat) {n : Nat} (hn : n < 25) {bits : Word}
    (hq : bits &&& ~~~ d.rd (Reg.MB_EP_W4 n) &&& ~~~ d.rd (Reg.MB_EP_W6 n) = 0) :
    (d.dispatched e c).Plain (· ∈ [Reg.MB_EP_W4 n]) ((d.dispatched e c).doorbell n bits) := by
  rw [Device.doorbell_quiet _ hn]
  · exact Device.plain_wr _ _ List.mem_cons_self
  · rw [Device.rd_dispatched _ _ _ (mb_not_stepRegs e (dbPend_mb hn).1 (dbPend_mb hn).2),
      Device.rd_dispatched _ _ _ (mb_not_stepRegs e (dbMask_mb hn).1 (dbMask_mb hn).2)]
    exact hq

/-- What TAKE answers. -/
theorem dblTakeOp_eq (d : Device) (e : Eng) (c : Nat) (x : Ctx) {take : Word}
    (ht : take = d.rd (Reg.MB_EP_W4 e) &&& ~~~ d.rd (Reg.MB_EP_W6 e)) :
    dblTakeOp e 0 0 (d.dispatched e c) c x =
      .ok ((d.dispatched e c).wr (Reg.MB_EP_W4 e) (d.rd (Reg.MB_EP_W4 e) &&& ~~~ take))
        { x with a := take, b := x.a, la := take != 0, co := false } := by
  subst ht
  have he : e.val < 25 := by omega
  simp only [dblTakeOp, onZero_ok, Device.rd_dispatched _ _ _ (mb_not_stepRegs e (dbPend_mb he).1 (dbPend_mb he).2),
    Device.rd_dispatched _ _ _ (mb_not_stepRegs e (dbMask_mb he).1 (dbMask_mb he).2), Ctx.box, Ctx.push]

/-- Settles O16: RING through what a ring writes, TAKE through the one register that it writes. -/
theorem doorbellInstructions : Obligations.DoorbellInstructions := by
  rintro s e c h x rfl
  refine ⟨fun idx n hidx hn => ?_, fun take htake => ?_⟩
  · refine (h.completes_sent (i := .azDblRing e 0 idx) rfl (by subst hidx; rw [dblRingOp, onIndex_ok hn])
      (Device.soft_doorbell _ n _ (.inl List.mem_cons_self) (fun _ => .inr ∘ .inl) (fun _ => .inr ∘ .inr))
      (mbRegs_dbPend hn)).imp ?_
    rintro _ ⟨rfl, hran, hmem, hcells⟩
    have hword (y : Ctx) {k : Nat} (hk : k < 25) := (Device.rd_completed_outside _ e c 1 y
      (mb_not_stepRegs e (dbPend_mb hk).1 (dbPend_mb hk).2)).trans
      (s.dev.rd_doorbell_dispatched e c hn hk (s.dev.ctx e c).a)
    refine ⟨hran, (hword _ hn).trans (if_pos rfl), fun k hk hne => (hword _ hk).trans (if_neg hne), hmem, hcells,
      fun hq => ?_⟩
    exact ⟨(s.dev.ring_quiet e c hn hq).completed_regs _, (s.dev.ring_quiet e c hn hq).completed_units _⟩
  · have hmb := dbPend_mb (n := e) (by omega)
    refine (h.completes_plain (i := .azDblTake e 0 0) rfl (dblTakeOp_eq _ _ _ _ htake)
      (Device.plain_wr _ _ List.mem_cons_self) ((mbRegs_dbPend (by omega)).outsideStep e)).imp ?_
    rintro t ⟨hwork, hcells, hevr, hregs⟩
    refine ⟨hwork.ran, ?_, hwork.regs, hwork.mem, hcells, hwork.units, hevr⟩
    rw [hregs _ (mb_not_stepRegs e hmb.1 hmb.2), Device.rd_wr_same]

end Sys2Proof.Machine
end

section
/-! SUPPORT. The semaphore instructions (R160, R518–R520): who wins a contended cycle, what each leaves, and the
statement about them. -/

namespace Sys2Proof.Machine

/-! ## The winner of a contended cycle (R520) -/

section
variable (q : Nat)

/-- The rank of a requester. -/
def semRank (i : Nat) : Nat := (i + 32 - q) % 32

theorem semWinner_cons (i : Nat) (t : List Nat) (best : Nat) :
    semWinner q (i :: t) best = semWinner q t (if semRank q i < semRank q best then i else best) := rfl

theorem semWinner_mem (l : List Nat) (best : Nat) : semWinner q l best = best ∨ semWinner q l best ∈ l := by
  induction l generalizing best with
  | nil => exact .inl rfl
  | cons i t ih =>
    rw [semWinner_cons]
    split
    · exact .inr (List.mem_cons.mpr (ih i))
    · exact (ih best).imp_right (List.mem_cons_of_mem i)

/-- No candidate has a lesser rank than the winner. -/
theorem semRank_semWinner_le (l : List Nat) (best : Nat) : semRank q (semWinner q l best) ≤ semRank q best := by
  induction l generalizing best with
  | nil => exact Nat.le_refl _
  | cons i t ih =>
    rw [semWinner_cons]
    split
    · next hlt => exact (ih i).trans hlt.le
    · exact ih best

/-- The first candidate wins exactly where no other has a lesser rank. -/
theorem semWinner_eq_first (l : List Nat) (best : Nat) :
    semWinner q l best = best ↔ ∀ r ∈ l, semRank q best ≤ semRank q r := by
  induction l generalizing best with
  | nil => simp [semWinner]
  | cons i t ih =>
    rw [semWinner_cons, List.forall_mem_cons]
    split
    · next hlt =>
      refine iff_of_false (fun heq => ?_) (fun hall => absurd hlt (Nat.not_lt.mpr hall.1))
      have := semRank_semWinner_le q t i
      rw [heq] at this
      omega
    · next hle => rw [ih, and_iff_right (Nat.not_lt.mp hle)]

/-- Requesters have different ranks. -/
theorem semRank_lt_iff_le (hq : q < 32) {i r : Nat} (hi : i < 24) (hr : r ≤ 25) (hne : r ≠ i) :
    semRank q i < semRank q r ↔ semRank q i ≤ semRank q r := by
  simp only [semRank]
  omega

end

/-- Among rivals of the same cycle, a requester wins exactly with the least rank of all. -/
theorem semWinner_iff {q i : Nat} (hq : q < 32) (hi : i < 24) {rivals : List Nat} (hr : ∀ r ∈ rivals, r ≤ 25 ∧ r ≠ i) :
    semWinner q rivals i = i ↔ ∀ r ∈ rivals, semRank q i < semRank q r := by
  rw [semWinner_eq_first]
  exact forall₂_congr fun r hmem => (semRank_lt_iff_le q hq hi (hr r hmem).1 (hr r hmem).2).symm

/-! ## Owner codes (R518) -/

theorem ownerEng_lt (e : Eng) {c : Nat} (hc : c < 16) : ownerEng e c < 512 := by
  simp only [ownerEng]
  omega

/-- The code of a rival is a code, and not that of a context of another engine. -/
theorem Device.rivalCode_other (d : Device) (e : Eng) {c : Nat} (hc : c < 16) {r : Nat} (hr : r ≤ 25) (hne : r ≠ e) :
    d.rivalCode r < 512 ∧ d.rivalCode r ≠ ownerEng e c := by
  have he := e.isLt
  have hctx : d.fld (Reg.CE_STATUS_ACTIVE_CTX r) < 16 := d.fld_lt _
  simp only [Device.rivalCode, ownerHost, ownerDbg, ownerEng]
  split
  · omega
  · split <;> omega

/-! ## Work on semaphores -/

/-- The device t differs from d in registers of a list and in the mailbox block's own state. -/
structure Device.Boxed (l : List Nat) (d t : Device) : Prop where
  form : ∃ r m, t = { d with regs := r, mb := m }
  regs : ∀ a, a ∉ l → t.rd a = d.rd a

theorem Device.Boxed.refl (l : List Nat) (d : Device) : d.Boxed l d := ⟨⟨d.regs, d.mb, rfl⟩, fun _ _ => rfl⟩

theorem Device.boxed_setF {l : List Nat} (d : Device) {f : Fld} (v : Nat) (h : f.addr ∈ l) : d.Boxed l (d.setF f v) :=
  ⟨⟨_, d.mb, rfl⟩, fun _ ha => Device.rd_setF_other _ _ fun heq => ha (heq ▸ h)⟩

theorem Device.boxed_mb {l : List Nat} (d : Device) (m : MbState) : d.Boxed l { d with mb := m } :=
  ⟨⟨d.regs, m, rfl⟩, fun _ _ => rfl⟩

theorem Device.Boxed.trans {l : List Nat} {d t u : Device} (h : d.Boxed l t) (g : t.Boxed l u) : d.Boxed l u := by
  obtain ⟨r, m, h1⟩ := h.form
  obtain ⟨r', m', g1⟩ := g.form
  exact ⟨⟨r', m', by rw [g1, h1]⟩, fun a ha => (g.regs a ha).trans (h.regs a ha)⟩

theorem mbRegs_nil : MbRegs [] := fun _ h => absurd h List.not_mem_nil

/-- One instruction on semaphore n: its owner, what LA tells of the owner, and what stays. -/
def Device.SemLeft (d t : Device) (e c n : Nat) (owner : Nat → Prop) (la : Nat → Bool) (regs : List Nat) : Prop :=
  owner (t.semOwner n) ∧
  d.Ran t e c 1 { d.ctx e c with la := la (t.semOwner n), co := false, pc := (d.ctx e c).pc + 1 } ∧
  d.KeepsRegs t (regs ++ stepRegs e) ∧ d.KeepsMem t ∧ d.KeepsCells t ∧ t.evr = d.evr ∧
  ∀ k, k ≠ n → sget zeroAt t.mb.q k = sget zeroAt d.mb.q k

section
variable {n : Nat} (hn : n < 64)
include hn

theorem hsem_mb : 0x4130000 ≤ Reg.HSEM n ∧ Reg.HSEM n < 0x4140000 := by
  simp only [Reg.HSEM]
  omega

theorem mbRegs_hsem : MbRegs [Reg.HSEM n] := by
  simpa [MbRegs] using hsem_mb hn

theorem mbRegs_contended : MbRegs [Reg.HSEM n, Reg.MB_CNT] := by
  simpa [MbRegs, Reg.MB_CNT] using hsem_mb hn

theorem Device.semOwner_completed (d : Device) (e : Eng) (c : Nat) (x : Ctx) :
    (d.completed e c 1 x).semOwner n = d.semOwner n :=
  Device.semOwner_congr (Device.rd_completed_outside _ _ _ _ _ (mb_not_stepRegs e (hsem_mb hn).1 (hsem_mb hn).2))

theorem Device.semOwner_dispatched (d : Device) (e : Eng) (c : Nat) : (d.dispatched e c).semOwner n = d.semOwner n :=
  Device.semOwner_congr (Device.rd_dispatched _ _ _ (mb_not_stepRegs e (hsem_mb hn).1 (hsem_mb hn).2))

/-- A semaphore instruction that answers with its registers and the mailbox block changed. -/
theorem Device.Executes.leaves_sem {s : State} {e : Eng} {c : Nat} (h : s.dev.Executes e c) {i : Instr}
    {f : Device → Nat → Ctx → Res} {d1 : Device} {owner : Nat → Prop} {la : Nat → Bool} {l : List Nat}
    (hx : exec i s = run (Sys2Proof.Machine.azStep e f) s)
    (hf : f (s.dev.dispatched e c) c (s.dev.ctx e c) = .ok d1 ((s.dev.ctx e c).box (la (d1.semOwner n))))
    (hb : (s.dev.dispatched e c).Boxed l d1) (hl : MbRegs l) (ho : owner (d1.semOwner n))
    (hq : ∀ k, k ≠ n → sget zeroAt d1.mb.q k = sget zeroAt s.dev.mb.q k) :
    Completes i s (fun t => s.dev.SemLeft t e c n owner la l ∧ t.mb = d1.mb) := by
  obtain ⟨r, m, hform⟩ := hb.form
  have hout := hl.outsideStep e
  refine (h.completes_ok hx hf (hb.regs _ (hout _ (by simp [stepRegs]))) ?_ ?_ (by rw [hform]; rfl)).imp ?_
  · rw [hb.regs _ (hout _ (by simp [stepRegs])), Device.rd_setF_other _ _ (status_ne_lo e e.isLt).symm]
  · rw [hb.regs _ (hout _ (by simp [stepRegs])), Device.rd_setF_other _ _ (status_ne_hi e e.isLt).symm]
  · rintro _ ⟨rfl, hran⟩
    have howner := Device.semOwner_completed hn d1 e c
    refine ⟨⟨by rwa [howner], by rw [howner]; exact hran, fun a ha => ?_,
      ⟨by simp [hform], by simp [hform], by simp [hform]⟩, ⟨fun k => Device.tcell_congr (by simp [Device.setCtx, hform]) k,
        fun k => Device.ccell_congr (by simp [Device.setCtx, hform]) k⟩, by simp [hform], by simpa using hq⟩, by simp⟩
    rw [List.mem_append, not_or] at ha
    obtain ⟨hlist, hstep⟩ := ha
    rw [Device.rd_completed_outside _ _ _ _ _ hstep, hb.regs _ hlist, Device.rd_dispatched _ _ _ hstep]

end

/-! ## TRY, REL and OWN -/

/-- A contended cycle moves the pointer of its semaphore on, and counts (R520). -/
def Device.countContended (d : Device) (n : Nat) : Device :=
  ({ d with mb := { d.mb with q := sput zeroAt d.mb.q n ((sget zeroAt d.mb.q n + 1) % 32) } } : Device).inc
    Reg.MB_CNT_CONTENDED

/-- A contended cycle: the semaphore has the code of the winner. -/
def Device.contended (d : Device) (n code : Nat) : Device := (d.setF (Reg.HSEM_OWNER n) code).countContended n

theorem Device.semTry_contended (d : Device) {n i : Nat} {code : Nat} {rivals : List Nat} (h0 : d.semOwner n = ownerFree)
    (hne : rivals ≠ []) (hr : ∀ r ∈ rivals, r ≤ 25 ∧ r ≠ i) : d.semTry n i code rivals =
      d.contended n (if semWinner (sget zeroAt d.mb.q n) rivals i = i then code
        else d.rivalCode (semWinner (sget zeroAt d.mb.q n) rivals i)) := by
  have hall : rivals.filter (fun r => decide (r ≠ i) && decide (r ≤ 25)) = rivals :=
    List.filter_eq_self.mpr fun r hmem => by simp [(hr r hmem).1, (hr r hmem).2]
  simp only [Device.semTry, if_neg (not_not.mpr h0), hall, if_neg hne, Device.setF_mb, Device.contended,
    Device.countContended]

theorem Device.semOwner_setF (d : Device) (n : Nat) {code : Nat} (h : code < 512) :
    (d.setF (Reg.HSEM_OWNER n) code).semOwner n = code := by
  rw [Device.semOwner, Device.fld_setF_same _ _ _ (by simp [Reg.HSEM_OWNER])]
  exact Nat.mod_eq_of_lt h

section
variable (d : Device) {n : Nat}

theorem Device.boxed_countContended {l : List Nat} (h : Reg.MB_CNT ∈ l) : d.Boxed l (d.countContended n) :=
  (Device.boxed_mb _ _).trans (Device.boxed_setF _ _ h)

theorem Device.boxed_contended (code : Nat) : d.Boxed [Reg.HSEM n, Reg.MB_CNT] (d.contended n code) :=
  (Device.boxed_setF _ (f := Reg.HSEM_OWNER n) _ List.mem_cons_self).trans (Device.boxed_countContended _ (by simp))

theorem Device.semOwner_contended {code : Nat} (hn : n < 64) (h : code < 512) : (d.contended n code).semOwner n = code := by
  have hne : Reg.HSEM n ∉ [Reg.MB_CNT] := by
    simp only [Reg.HSEM, Reg.MB_CNT, List.mem_singleton]
    omega
  rw [Device.contended, Device.semOwner_congr ((Device.boxed_countContended _ List.mem_cons_self).regs _ hne),
    Device.semOwner_setF _ _ h]

theorem Device.contended_pointers (code : Nat) :
    (d.contended n code).mb.q = sput zeroAt d.mb.q n ((sget zeroAt d.mb.q n + 1) % 32) := by
  simp [Device.contended, Device.countContended, Device.inc, Device.satAdd]

end

/-- The code that a contended cycle gives a semaphore: that of the requester itself exactly where it wins. -/
theorem Device.winnerCode (d : Device) (e : Eng) {c : Nat} (hc : c < 16) (q : Nat) {rivals : List Nat}
    (hr : ∀ r ∈ rivals, r ≤ 25 ∧ r ≠ e) {code : Nat} (hcode : code = if semWinner q rivals e = e then ownerEng e c
      else d.rivalCode (semWinner q rivals e)) :
    code < 512 ∧ (code = ownerEng e c ↔ semWinner q rivals e = e) := by
  by_cases hw : semWinner q rivals e = e
  · rw [if_pos hw] at hcode
    exact ⟨hcode ▸ ownerEng_lt e hc, iff_of_true hcode hw⟩
  · rw [if_neg hw] at hcode
    have hmem := (semWinner_mem q rivals e).resolve_left hw
    obtain ⟨hlt, hne⟩ := d.rivalCode_other e hc (hr _ hmem).1 hw
    exact ⟨hcode ▸ hlt, iff_of_false (hcode ▸ hne) hw⟩

theorem Device.semTry_owned (d : Device) {n : Nat} (i code : Nat) (rivals : List Nat) (h0 : d.semOwner n ≠ ownerFree) :
    d.semTry n i code rivals = d := if_pos h0

theorem Device.semTry_alone (d : Device) {n : Nat} (i code : Nat) (h0 : d.semOwner n = ownerFree) :
    d.semTry n i code [] = d.setF (Reg.HSEM_OWNER n) code := by
  simp [Device.semTry, h0]

section
variable (e : Eng) {idx : BitVec 16} (hi : idx.toNat < 64) (d : Device) (c : Nat) (x : Ctx)
include hi

theorem semTryOp_eq (rivals : List Nat) : semTryOp e 0 idx rivals d c x =
    .ok (d.semTry idx.toNat e (ownerEng e c) rivals)
      (x.box ((d.semTry idx.toNat e (ownerEng e c) rivals).semOwner idx.toNat == ownerEng e c)) := by
  rw [semTryOp, onIndex_ok hi]

theorem semRelOp_eq : semRelOp e 0 idx d c x =
    if d.semOwner idx.toNat = ownerEng e c then .ok (d.semFree idx.toNat) (x.box true) else .ok d (x.box false) := by
  rw [semRelOp, onIndex_ok hi]

theorem semOwnOp_eq : semOwnOp e 0 idx d c x = .ok d (x.box (d.semOwner idx.toNat == ownerEng e c)) := by
  rw [semOwnOp, onIndex_ok hi]

end

section
variable {s : State} {e : Eng} {c : Nat} (h : s.dev.Executes e c) {i : Instr} {f : Device → Nat → Ctx → Res}
  {la : Nat → Bool}
include h

/-- A semaphore instruction that changes no owner. -/
theorem Device.Executes.leaves_sem_alone {n : Nat} (hn : n < 64) (hx : exec i s = run (Sys2Proof.Machine.azStep e f) s)
    (hf : f (s.dev.dispatched e c) c (s.dev.ctx e c) =
      .ok (s.dev.dispatched e c) ((s.dev.ctx e c).box (la ((s.dev.dispatched e c).semOwner n)))) :
    Completes i s (fun t => s.dev.SemLeft t e c n (· = s.dev.semOwner n) la []) :=
  (h.leaves_sem (owner := (· = s.dev.semOwner n)) hn hx hf (.refl _ _) mbRegs_nil (s.dev.semOwner_dispatched hn e c)
    fun k _ => by rw [Device.setF_mb]).imp fun t ht => ht.1

/-- A semaphore instruction that gives a semaphore an owner. -/
theorem Device.Executes.leaves_sem_owned {n code : Nat} (hn : n < 64) (hcode : code < 512)
    (hx : exec i s = run (Sys2Proof.Machine.azStep e f) s)
    (hf : f (s.dev.dispatched e c) c (s.dev.ctx e c) =
      .ok ((s.dev.dispatched e c).setF (Reg.HSEM_OWNER n) code) ((s.dev.ctx e c).box (la code))) :
    Completes i s (fun t => s.dev.SemLeft t e c n (· = code) la [Reg.HSEM n]) := by
  have howner := Device.semOwner_setF (s.dev.dispatched e c) n hcode
  refine (h.leaves_sem (owner := (· = code)) hn hx (by rw [howner]; exact hf)
    (Device.boxed_setF _ (f := Reg.HSEM_OWNER n) _ List.mem_cons_self) (mbRegs_hsem hn) howner fun k _ => ?_).imp
    fun t ht => ht.1
  rw [Device.setF_mb, Device.setF_mb]

end

/-- TRY on a free semaphore among rivals of the same cycle. -/
theorem Device.Executes.contends {s : State} {e : Eng} {c : Nat} (h : s.dev.Executes e c) {idx : BitVec 16}
    (hn : idx.toNat < 64) (hfree : s.dev.semOwner idx.toNat = 0) {q : Nat} (hq : q < 32)
    (hpointer : sget zeroAt s.dev.mb.q idx.toNat = q) {rivals : List Nat} (hne : rivals ≠ [])
    (hr : ∀ r ∈ rivals, r ≤ 25 ∧ r ≠ e) : Completes (.azSemTry e 0 idx rivals) s (fun t =>
      s.dev.SemLeft t e c idx.toNat (fun o => o = ownerEng e c ↔ ∀ r ∈ rivals, semRank q e < semRank q r)
        (fun o => o == ownerEng e c) [Reg.HSEM idx.toNat, Reg.MB_CNT] ∧
      sget zeroAt t.mb.q idx.toNat = (q + 1) % 32) := by
  have hq' : sget zeroAt (s.dev.dispatched e c).mb.q idx.toNat = q := by rw [Device.setF_mb, hpointer]
  have htry := Device.semTry_contended (s.dev.dispatched e c) (code := ownerEng e c)
    ((s.dev.semOwner_dispatched hn e c).trans hfree) hne hr
  rw [hq'] at htry
  obtain ⟨hlt, hwins⟩ := Device.winnerCode (s.dev.dispatched e c) e h.lt q hr rfl
  have howner := Device.semOwner_contended (s.dev.dispatched e c) hn hlt
  refine (h.leaves_sem (i := .azSemTry e 0 idx rivals) (la := fun o => o == ownerEng e c)
    (owner := fun o => o = ownerEng e c ↔ ∀ r ∈ rivals, semRank q e < semRank q r)
    (d1 := (s.dev.dispatched e c).semTry idx.toNat e (ownerEng e c) rivals) hn rfl (semTryOp_eq e hn _ _ _ _)
    (by rw [htry]; exact Device.boxed_contended _ _) (mbRegs_contended hn) ?_ fun k hk => ?_).imp ?_
  · rw [htry, howner]
    exact hwins.trans (semWinner_iff hq e.isLt hr)
  · rw [htry, Device.contended_pointers, sget_sput_other _ _ _ hk, Device.setF_mb]
  · rintro t ⟨hleft, hmb⟩
    exact ⟨hleft, by rw [hmb, htry, Device.contended_pointers, sget_sput_same, hq']⟩

/-- Settles O14: each instruction is one device that it makes of the one it finds; in a contended cycle the context owns
the semaphore exactly where its engine wins. -/
theorem semaphoreInstructions : Obligations.SemaphoreInstructions := by
  rintro s e c h x rfl idx _ rfl hn mine leaves q rank
  have hmine : mine < 512 := ownerEng_lt e h.lt
  have howner := s.dev.semOwner_dispatched hn e c
  refine ⟨fun hown rivals => ?_, fun hfree => ?_, fun hfree hq rivals hne hr => ?_, fun hown => ?_, fun hother => ?_, ?_⟩
  · refine h.leaves_sem_alone (i := .azSemTry e 0 idx rivals) (la := (· == mine)) hn rfl ?_
    rw [semTryOp_eq e hn, Device.semTry_owned _ _ _ _ (by rwa [howner])]
    rfl
  · refine h.leaves_sem_owned (i := .azSemTry e 0 idx []) (la := fun _ => true) hn hmine rfl ?_
    rw [semTryOp_eq e hn, Device.semTry_alone _ _ _ (howner.trans hfree), show ownerEng e c = mine from rfl,
      Device.semOwner_setF _ _ hmine, beq_self_eq_true]
  · have hleft := h.contends hn hfree hq rfl hne hr
    exact ⟨hleft.imp fun t ht => ht.1, hleft.imp fun t ht => ht.2⟩
  · exact h.leaves_sem_owned (i := .azSemRel e 0 idx) (la := fun _ => true) hn (by decide) rfl
      ((semRelOp_eq e hn _ _ _).trans (if_pos (howner.trans hown)))
  · exact h.leaves_sem_alone (i := .azSemRel e 0 idx) (la := fun _ => false) hn rfl
      ((semRelOp_eq e hn _ _ _).trans (if_neg (by rwa [howner])))
  · exact h.leaves_sem_alone (i := .azSemOwn e 0 idx) (la := (· == mine)) hn rfl (semOwnOp_eq e hn _ _ _)

end Sys2Proof.Machine
end

section
/-! SUPPORT. The mailbox instructions (R162, R512, R513): what a notice and its acknowledgement write, and the statement
about them. -/

namespace Sys2Proof.Machine

/-! ## Registers of endpoints -/

/-- The words of an endpoint and the block's counters are registers of the mailbox block. -/
theorem mbRegs_notice {r k : Nat} (hr : r < 32) (hk : k < 32) :
    MbRegs [Reg.MB_EP_W0 r, Reg.MB_EP_W1 r, Reg.MB_EP_W2 r, Reg.MB_EP_W3 k, Reg.MB_CNT] := by
  simp only [MbRegs, List.forall_mem_cons, Reg.MB_EP_W0, Reg.MB_EP_W1, Reg.MB_EP_W2, Reg.MB_EP_W3, Reg.MB_CNT]
  refine ⟨?_, ?_, ?_, ?_, ?_, fun _ h => absurd h List.not_mem_nil⟩ <;> omega

/-- What the device after an instruction holds in a register of the mailbox block, where the instruction sent releases
and host causes last. -/
theorem Device.rd_completed_sent {d2 d1 : Device} (hs : d2.Soft (fun a => RelReg a ∨ CauseReg a) d1) (e : Eng) (c : Nat)
    (x : Ctx) {a : Nat} (h1 : 0x4130000 ≤ a) (h2 : a < 0x4140000) : (d1.completed e c 1 x).rd a = d2.rd a := by
  rw [Device.rd_completed_outside _ _ _ _ _ (mb_not_stepRegs e h1 h2), hs.regs _ (not_relReg_causeReg h1 h2)]

theorem Device.rd_dispatched_mb (d : Device) (e : Eng) (c : Nat) {a : Nat} (h1 : 0x4130000 ≤ a) (h2 : a < 0x4140000) :
    (d.dispatched e c).rd a = d.rd a := d.rd_dispatched e c (mb_not_stepRegs e h1 h2)

/-! ## A notice (R512) -/

/-- A notice of sender k lies in the box of endpoint r. -/
def Device.noticeIn (d : Device) (k r : Nat) (ptr lt : Word) : Device :=
  (((d.wr (Reg.MB_EP_W0 r) ptr).wr (Reg.MB_EP_W1 r) lt).setF (Reg.MB_EP_W2_VALID r) 1).setF (Reg.MB_EP_W2_SENDER r) k

/-- The outbound box of sender k is PENDING for endpoint r. -/
def Device.noticeOut (d : Device) (k r : Nat) : Device :=
  ((d.setF (Reg.MB_EP_W3_OUT_STATE k) outPending).setF (Reg.MB_EP_W3_DEST k) r).setF (Reg.MB_EP_W3_CODE k) 0

/-- A device holds a notice in the box of endpoint r. -/
def Device.Holds (d : Device) (r k : Nat) (ptr lt : Word) : Prop :=
  d.bit (Reg.MB_EP_W2_VALID r) = true ∧ d.fld (Reg.MB_EP_W2_SENDER r) = k ∧ d.rd (Reg.MB_EP_W0 r) = ptr ∧
    d.rd (Reg.MB_EP_W1 r) = lt

/-- Whether a box holds a notice is told by its three registers. -/
theorem Device.Holds.congr {d t : Device} {r k : Nat} {ptr lt : Word} (h : d.Holds r k ptr lt)
    (h0 : t.rd (Reg.MB_EP_W0 r) = d.rd (Reg.MB_EP_W0 r)) (h1 : t.rd (Reg.MB_EP_W1 r) = d.rd (Reg.MB_EP_W1 r))
    (h2 : t.rd (Reg.MB_EP_W2 r) = d.rd (Reg.MB_EP_W2 r)) : t.Holds r k ptr lt := by
  obtain ⟨hvalid, hsender, hptr, hlt⟩ := h
  have hv : t.fld (Reg.MB_EP_W2_VALID r) = d.fld (Reg.MB_EP_W2_VALID r) := Device.fld_congr h2
  have hs : t.fld (Reg.MB_EP_W2_SENDER r) = d.fld (Reg.MB_EP_W2_SENDER r) := Device.fld_congr h2
  exact ⟨by rwa [Device.bit, hv], hs.trans hsender, h0.trans hptr, h1.trans hlt⟩

theorem Device.noticeIn_holds (d : Device) {k r : Nat} (hk : k < 32) (ptr lt : Word) :
    (d.noticeIn k r ptr lt).Holds r k ptr lt := by
  have hapart : (Reg.MB_EP_W2_SENDER r).Apart (Reg.MB_EP_W2_VALID r) :=
    .inr (by simp [Reg.MB_EP_W2_SENDER, Reg.MB_EP_W2_VALID])
  have h01 : Reg.MB_EP_W0 r ≠ Reg.MB_EP_W1 r := by simp only [Reg.MB_EP_W0, Reg.MB_EP_W1]; omega
  have h02 : Reg.MB_EP_W0 r ≠ Reg.MB_EP_W2 r := by simp only [Reg.MB_EP_W0, Reg.MB_EP_W2]; omega
  have h12 : Reg.MB_EP_W1 r ≠ Reg.MB_EP_W2 r := by simp only [Reg.MB_EP_W1, Reg.MB_EP_W2]; omega
  refine ⟨?_, ?_, ?_, ?_⟩
  · rw [Device.bit_eq_true, Device.noticeIn, Device.fld_setF_other _ _ hapart,
      Device.fld_setF_same _ _ _ (by simp [Reg.MB_EP_W2_VALID])]
    simp [Reg.MB_EP_W2_VALID]
  · rw [Device.noticeIn, Device.fld_setF_same _ _ _ (by simp [Reg.MB_EP_W2_SENDER])]
    exact Nat.mod_eq_of_lt hk
  · rw [Device.noticeIn, Device.rd_setF_other _ (f := Reg.MB_EP_W2_SENDER r) _ h02,
      Device.rd_setF_other _ (f := Reg.MB_EP_W2_VALID r) _ h02, Device.rd_wr_other _ _ h01, Device.rd_wr_same]
  · rw [Device.noticeIn, Device.rd_setF_other _ (f := Reg.MB_EP_W2_SENDER r) _ h12,
      Device.rd_setF_other _ (f := Reg.MB_EP_W2_VALID r) _ h12, Device.rd_wr_same]

/-- The registers that a notice writes in the box of its destination. -/
theorem Device.noticeIn_plain (d : Device) (k r : Nat) (ptr lt : Word) :
    d.Plain (· ∈ [Reg.MB_EP_W0 r, Reg.MB_EP_W1 r, Reg.MB_EP_W2 r]) (d.noticeIn k r ptr lt) :=
  (((d.plain_wr _ (by simp)).trans (Device.plain_wr _ _ (by simp))).trans
    (Device.plain_setF _ (f := Reg.MB_EP_W2_VALID r) _ (by simp [Reg.MB_EP_W2_VALID]))).trans
      (Device.plain_setF _ (f := Reg.MB_EP_W2_SENDER r) _ (by simp [Reg.MB_EP_W2_SENDER]))

theorem Device.noticeOut_plain (d : Device) (k r : Nat) : d.Plain (· ∈ [Reg.MB_EP_W3 k]) (d.noticeOut k r) :=
  ((d.plain_setF (f := Reg.MB_EP_W3_OUT_STATE k) _ List.mem_cons_self).trans
    (Device.plain_setF _ (f := Reg.MB_EP_W3_DEST k) _ List.mem_cons_self)).trans
      (Device.plain_setF _ (f := Reg.MB_EP_W3_CODE k) _ List.mem_cons_self)

theorem Device.noticeOut_pending (d : Device) {k r : Nat} (hr : r < 32) :
    (d.noticeOut k r).fld (Reg.MB_EP_W3_OUT_STATE k) = 1 ∧ (d.noticeOut k r).fld (Reg.MB_EP_W3_DEST k) = r := by
  have hstate : (Reg.MB_EP_W3_DEST k).Apart (Reg.MB_EP_W3_OUT_STATE k) := by
    simp [Fld.Apart, Reg.MB_EP_W3_DEST, Reg.MB_EP_W3_OUT_STATE]
  have hcode : (Reg.MB_EP_W3_CODE k).Apart (Reg.MB_EP_W3_OUT_STATE k) := by
    simp [Fld.Apart, Reg.MB_EP_W3_CODE, Reg.MB_EP_W3_OUT_STATE]
  have hdest : (Reg.MB_EP_W3_CODE k).Apart (Reg.MB_EP_W3_DEST k) := by
    simp [Fld.Apart, Reg.MB_EP_W3_DEST, Reg.MB_EP_W3_CODE]
  constructor
  · rw [Device.noticeOut, Device.fld_setF_other _ _ hcode, Device.fld_setF_other _ _ hstate,
      Device.fld_setF_same _ _ _ (by simp [Reg.MB_EP_W3_OUT_STATE])]
    simp [Reg.MB_EP_W3_OUT_STATE, outPending]
  · rw [Device.noticeOut, Device.fld_setF_other _ _ hdest, Device.fld_setF_same _ _ _ (by simp [Reg.MB_EP_W3_DEST])]
    exact Nat.mod_eq_of_lt hr

/-- The registers that a notice has written before its destination is told. -/
def Device.noticed (d : Device) (k r : Nat) (ptr lt : Word) : Device :=
  ((d.noticeIn k r ptr lt).noticeOut k r).inc Reg.MB_CNT_SENT

section
variable (d : Device) {k r : Nat} (ptr lt : Word)

theorem Device.noticed_plain : d.Plain
    (· ∈ [Reg.MB_EP_W0 r, Reg.MB_EP_W1 r, Reg.MB_EP_W2 r, Reg.MB_EP_W3 k, Reg.MB_CNT]) (d.noticed k r ptr lt) :=
  (((d.noticeIn_plain k r ptr lt).mono fun a ha => by simp at ha ⊢; omega).trans
    ((Device.noticeOut_plain _ k r).mono fun a ha => by simp at ha ⊢; omega)).trans
      (Device.plain_inc _ (by simp [Reg.MB_CNT_SENT]))

/-- What the outbound box and the counters take leaves the boxes alone. -/
theorem Device.noticed_box {a : Nat} (h3 : a ≠ Reg.MB_EP_W3 k) (hc : a ≠ Reg.MB_CNT) :
    (d.noticed k r ptr lt).rd a = (d.noticeIn k r ptr lt).rd a := by
  rw [Device.noticed, Device.rd_inc_other _ (f := Reg.MB_CNT_SENT) hc,
    (Device.noticeOut_plain _ k r).regs _ (by simpa using h3)]

theorem Device.noticed_holds (hk : k < 32) : (d.noticed k r ptr lt).Holds r k ptr lt := by
  refine (d.noticeIn_holds hk ptr lt).congr ?_ ?_ ?_ <;> refine Device.noticed_box _ _ _ ?_ ?_ <;>
    simp only [Reg.MB_EP_W0, Reg.MB_EP_W1, Reg.MB_EP_W2, Reg.MB_EP_W3, Reg.MB_CNT] <;> omega

theorem Device.noticed_pending (hr : r < 32) : (d.noticed k r ptr lt).fld (Reg.MB_EP_W3_OUT_STATE k) = 1 ∧
    (d.noticed k r ptr lt).fld (Reg.MB_EP_W3_DEST k) = r := by
  have hne : Reg.MB_EP_W3 k ≠ Reg.MB_CNT := by simp only [Reg.MB_EP_W3, Reg.MB_CNT]; omega
  obtain ⟨hstate, hdest⟩ := (d.noticeIn k r ptr lt).noticeOut_pending (k := k) hr
  have hkept := Device.rd_inc_other ((d.noticeIn k r ptr lt).noticeOut k r) (f := Reg.MB_CNT_SENT) hne
  rw [Device.noticed, Device.fld_congr (f := Reg.MB_EP_W3_OUT_STATE k) hkept,
    Device.fld_congr (f := Reg.MB_EP_W3_DEST k) hkept]
  exact ⟨hstate, hdest⟩

theorem Device.noticed_sent : (d.noticed k r ptr lt).fld Reg.MB_CNT_SENT = min (d.fld Reg.MB_CNT_SENT + 1) 255 := by
  have h3 : Reg.MB_CNT ∉ [Reg.MB_EP_W3 k] := by
    simp only [Reg.MB_EP_W3, Reg.MB_CNT, List.mem_singleton]
    omega
  have hbox : Reg.MB_CNT ∉ [Reg.MB_EP_W0 r, Reg.MB_EP_W1 r, Reg.MB_EP_W2 r] := by
    simp only [Reg.MB_EP_W0, Reg.MB_EP_W1, Reg.MB_EP_W2, Reg.MB_CNT, List.mem_cons, List.not_mem_nil, or_false]
    omega
  have hkept : ((d.noticeIn k r ptr lt).noticeOut k r).fld Reg.MB_CNT_SENT = d.fld Reg.MB_CNT_SENT :=
    Device.fld_congr (((Device.noticeOut_plain _ k r).regs _ h3).trans ((d.noticeIn_plain k r ptr lt).regs _ hbox))
  rw [Device.noticed, Device.fld_inc_same _ _ (by simp [Reg.MB_CNT_SENT]), hkept]
  rfl

end

/-! ## SEND -/

theorem Device.mbSend_accepted (d : Device) {k r : Nat} (h : d.mbCanSend k r = true) (ptr lt : Word) :
    d.mbSend k r ptr lt = (true, if r ≤ 23 then (d.noticed k r ptr lt).fire (0xC0 + r)
      else (d.noticed k r ptr lt).cause 1) := if_pos h

theorem Device.mbSend_refused (d : Device) {k r : Nat} (h : ¬d.mbCanSend k r = true) (ptr lt : Word) :
    d.mbSend k r ptr lt = (false, d.inc Reg.MB_CNT_REFUSED) := if_neg h

/-- The four conditions of R512, on the device that an instruction works on. -/
theorem Device.mbCanSend_dispatched (d : Device) (e : Eng) (c : Nat) {r : Nat} (hr : r < 25) :
    (d.dispatched e c).mbCanSend e r = true ↔ r ≠ e ∧ d.bit (Reg.MB_EP_W2_VALID r) = false ∧
      d.fld (Reg.MB_EP_W3_OUT_STATE e) ≠ 1 ∧ (r = 24 ∨ d.engState r = 2 ∨ d.engState r = 3 ∨ d.engState r = 4) := by
  have hbox := d.rd_dispatched_mb e c (a := Reg.MB_EP_W2 r) (by simp only [Reg.MB_EP_W2]; omega)
    (by simp only [Reg.MB_EP_W2]; omega)
  have hout := d.rd_dispatched_mb e c (a := Reg.MB_EP_W3 e) (by simp only [Reg.MB_EP_W3]; omega)
    (by simp only [Reg.MB_EP_W3]; omega)
  have hvalid : (d.dispatched e c).fld (Reg.MB_EP_W2_VALID r) = d.fld (Reg.MB_EP_W2_VALID r) := Device.fld_congr hbox
  have hstate : (d.dispatched e c).fld (Reg.MB_EP_W3_OUT_STATE e) = d.fld (Reg.MB_EP_W3_OUT_STATE e) :=
    Device.fld_congr hout
  have heng : (d.dispatched e c).engState r = d.engState r :=
    Device.fld_setF_other _ _ (.inr (by simp [Reg.CE_STATUS_STATE, Reg.CE_STATUS_ACTIVE_CTX]))
  simp only [Device.mbCanSend, Device.bit, hvalid, hstate, heng, outPending, stReady, stRun, stHalted, Bool.and_eq_true,
    Bool.or_eq_true, decide_eq_true_eq, Bool.not_eq_true', show r ≤ 24 by omega, true_and, and_assoc, or_assoc]

/-- A host cause that is raised stands in its register (R506). -/
theorem Device.bitAt_cause (d : Device) {k : Nat} (hk : k < 32) : (d.cause k).bitAt Reg.HP_IRQ_STAT_CAUSE k = true := by
  have hset : (d.setBitAt Reg.HP_IRQ_STAT_CAUSE k true).bitAt Reg.HP_IRQ_STAT_CAUSE k = true := by
    rw [Device.bitAt, Device.setBitAt, Device.fld_setF_same _ _ _ (by simp [Reg.HP_IRQ_STAT_CAUSE]),
      Nat.testBit_mod_two_pow, testBit_putBit]
    simp [Reg.HP_IRQ_STAT_CAUSE, hk]
  have hmsix (t : Device) : (t.msix k).fld Reg.HP_IRQ_STAT_CAUSE = t.fld Reg.HP_IRQ_STAT_CAUSE := by
    rw [Device.msix]
    split
    · exact Device.fld_setF_other _ _ (.inl (by decide))
    · rw [Device.send]
      split <;> rfl
  simp only [Device.cause]
  split
  · assumption
  · split
    · rw [Device.bitAt, hmsix]
      exact hset
    · exact hset

/-- A SEND sends releases and host causes after it has written the notice. -/
theorem Device.mbSend_soft (d : Device) {k r : Nat} (h : d.mbCanSend k r = true) (ptr lt : Word) :
    (d.noticed k r ptr lt).Soft (fun a => RelReg a ∨ CauseReg a) (d.mbSend k r ptr lt).2 := by
  rw [d.mbSend_accepted h]
  exact .ite (Device.soft_fire _ _ fun _ => .inl) (Device.soft_cause _ _ fun _ => .inr)

theorem mbxSendOp_eq (e : Eng) {idx : BitVec 16} (hi : idx.toNat < 25) (d : Device) (c : Nat) (x : Ctx) :
    mbxSendOp e 0 idx d c x = .ok (d.mbSend e idx.toNat x.a x.b).2 (x.box (d.mbSend e idx.toNat x.a x.b).1) := by
  rw [mbxSendOp, onIndex_ok hi]

section
variable {s : State} {e : Eng} {c : Nat} (h : s.dev.Executes e c) {idx : BitVec 16} (hr : idx.toNat < 25)
include h hr

/-- A SEND that is accepted completes with the registers of the notice, and with what it sends. -/
theorem Device.Executes.sends (hcan : (s.dev.dispatched e c).mbCanSend e idx.toNat = true) :
    Completes (.azMbxSend e 0 idx) s (fun t =>
      t = ((s.dev.dispatched e c).mbSend e idx.toNat (s.dev.ctx e c).a (s.dev.ctx e c).b).2.completed e c 1
        { s.dev.ctx e c with la := true, co := false, pc := (s.dev.ctx e c).pc + 1 } ∧
      s.dev.Ran t e c 1 { s.dev.ctx e c with la := true, co := false, pc := (s.dev.ctx e c).pc + 1 } ∧
      s.dev.KeepsMem t ∧ s.dev.KeepsCells t) := by
  refine h.completes_sent (i := .azMbxSend e 0 idx) (y := (s.dev.ctx e c).box true) rfl ?_ ?_
    (mbRegs_notice (r := idx.toNat) (k := e) (by omega) (by omega))
  · rw [mbxSendOp_eq e hr, Device.mbSend_accepted _ hcan]
  · exact ((Device.noticed_plain _ _ _).soft.mono fun _ => .inl).trans
      ((Device.mbSend_soft _ hcan _ _).mono fun _ => .inr)

/-- A SEND that is refused counts, and answers 0. -/
theorem Device.Executes.refuses (hcan : ¬(s.dev.dispatched e c).mbCanSend e idx.toNat = true) :
    Completes (.azMbxSend e 0 idx) s (fun t =>
      s.dev.Ran t e c 1 { s.dev.ctx e c with la := false, co := false, pc := (s.dev.ctx e c).pc + 1 } ∧
      t.fld Reg.MB_CNT_REFUSED = min (s.dev.fld Reg.MB_CNT_REFUSED + 1) 255 ∧
      s.dev.KeepsRegs t (Reg.MB_CNT :: stepRegs e) ∧ s.dev.KeepsMem t ∧ s.dev.KeepsCells t ∧ s.dev.KeepsUnits t ∧
      t.evr = s.dev.evr) := by
  have hmb : MbRegs [Reg.MB_CNT] := by simp [MbRegs, Reg.MB_CNT]
  refine (h.completes_plain (i := .azMbxSend e 0 idx) (y := (s.dev.ctx e c).box false) rfl
    (by rw [mbxSendOp_eq e hr, Device.mbSend_refused _ hcan]) (Device.plain_inc _ List.mem_cons_self)
    (hmb.outsideStep e)).imp ?_
  rintro t ⟨hwork, hcells, hevr, hregs⟩
  have hold := s.dev.rd_dispatched_mb e c (a := Reg.MB_CNT) (by decide) (by decide)
  refine ⟨hwork.ran, ?_, hwork.regs, hwork.mem, hcells, hwork.units, by simp [hevr, Device.inc, Device.satAdd]⟩
  rw [Device.fld_congr (f := Reg.MB_CNT_REFUSED) (hregs _ (mb_not_stepRegs e (by decide) (by decide))),
    Device.fld_inc_same _ _ (by simp [Reg.MB_CNT_REFUSED]), Device.fld_congr (f := Reg.MB_CNT_REFUSED) hold]
  rfl

end

/-! ## ACK (R513) -/

/-- The registers that the acknowledgement of a notice in box r writes, of sender k. -/
def Device.acked (d : Device) (r k code : Nat) : Device :=
  ((d.mbClearIn r).setF (Reg.MB_EP_W3_OUT_STATE k) outAcked).setF (Reg.MB_EP_W3_CODE k) code

section
variable (d : Device) (r k code : Nat)

theorem Device.mbOut_acked : ((d.mbClearIn r).mbOut k outAcked code) = if k = 24 then (d.acked r k code).cause 3
    else d.acked r k code := rfl

theorem Device.acked_soft : (d.acked r k code).Soft (fun a => RelReg a ∨ CauseReg a)
    ((d.mbClearIn r).mbOut k outAcked code) := by
  rw [Device.mbOut_acked]
  exact .ite (Device.soft_cause _ _ fun _ => .inr) (.refl _)

theorem Device.acked_plain : d.Plain
    (· ∈ [Reg.MB_EP_W0 r, Reg.MB_EP_W1 r, Reg.MB_EP_W2 r, Reg.MB_EP_W3 k, Reg.MB_CNT]) (d.acked r k code) :=
  ((((d.plain_wr _ (by simp)).trans (Device.plain_wr _ _ (by simp))).trans (Device.plain_wr _ _ (by simp))).trans
    (Device.plain_setF _ (f := Reg.MB_EP_W3_OUT_STATE k) _ (by simp [Reg.MB_EP_W3_OUT_STATE]))).trans
      (Device.plain_setF _ (f := Reg.MB_EP_W3_CODE k) _ (by simp [Reg.MB_EP_W3_CODE]))

theorem Device.acked_box : (d.acked r k code).rd (Reg.MB_EP_W0 r) = 0 ∧ (d.acked r k code).rd (Reg.MB_EP_W1 r) = 0 ∧
    (d.acked r k code).rd (Reg.MB_EP_W2 r) = 0 := by
  have h01 : Reg.MB_EP_W0 r ≠ Reg.MB_EP_W1 r := by simp only [Reg.MB_EP_W0, Reg.MB_EP_W1]; omega
  have h02 : Reg.MB_EP_W0 r ≠ Reg.MB_EP_W2 r := by simp only [Reg.MB_EP_W0, Reg.MB_EP_W2]; omega
  have h12 : Reg.MB_EP_W1 r ≠ Reg.MB_EP_W2 r := by simp only [Reg.MB_EP_W1, Reg.MB_EP_W2]; omega
  have hout {a : Nat} (h : a ≠ Reg.MB_EP_W3 k) : (d.acked r k code).rd a = (d.mbClearIn r).rd a :=
    (Device.rd_setF_other _ (f := Reg.MB_EP_W3_CODE k) _ h).trans
      (Device.rd_setF_other _ (f := Reg.MB_EP_W3_OUT_STATE k) _ h)
  refine ⟨(hout ?_).trans ?_, (hout ?_).trans ?_, (hout ?_).trans (Device.rd_wr_same _ _ _)⟩
  · simp only [Reg.MB_EP_W0, Reg.MB_EP_W3]; omega
  · rw [Device.mbClearIn, Device.rd_wr_other _ _ h02, Device.rd_wr_other _ _ h01, Device.rd_wr_same]
  · simp only [Reg.MB_EP_W1, Reg.MB_EP_W3]; omega
  · rw [Device.mbClearIn, Device.rd_wr_other _ _ h12, Device.rd_wr_same]
  · simp only [Reg.MB_EP_W2, Reg.MB_EP_W3]; omega

theorem Device.acked_out : (d.acked r k code).fld (Reg.MB_EP_W3_OUT_STATE k) = 2 ∧
    (d.acked r k code).fld (Reg.MB_EP_W3_CODE k) = code % 65536 := by
  have hcode : (Reg.MB_EP_W3_CODE k).Apart (Reg.MB_EP_W3_OUT_STATE k) := by
    simp [Fld.Apart, Reg.MB_EP_W3_CODE, Reg.MB_EP_W3_OUT_STATE]
  constructor
  · rw [Device.acked, Device.fld_setF_other _ _ hcode, Device.fld_setF_same _ _ _ (by simp [Reg.MB_EP_W3_OUT_STATE])]
    rfl
  · rw [Device.acked, Device.fld_setF_same _ _ _ (by simp [Reg.MB_EP_W3_CODE])]
    rfl

end

/-- An acknowledgement with a code that is not delivered is reported first. -/
def Device.ackReported (d : Device) (e code : Nat) : Device :=
  if code = 0xFFFF ∧ d.bit (Reg.MB_EP_W2_VALID e) then d.raise 0x3D3 [wd e, wd (d.fld (Reg.MB_EP_W2_SENDER e))] else d

theorem Device.ackReported_plain (d : Device) (e code : Nat) : d.Plain (· ∈ [Reg.EVR_LOSS]) (d.ackReported e code) :=
  .ite (d.plain_raise _ _ List.mem_cons_self) (.refl d)

/-- An acknowledgement finds the notice that its box held. -/
theorem Device.mbAck_reported (d : Device) (e : Eng) (c given code : Nat)
    (hvalid : d.bit (Reg.MB_EP_W2_VALID e) = true) {k : Nat} (hsender : d.fld (Reg.MB_EP_W2_SENDER e) = k) :
    ((d.dispatched e c).ackReported e given).mbAck e code =
      (true, (((d.dispatched e c).ackReported e given).mbClearIn e).mbOut k outAcked code) := by
  have hne : Reg.MB_EP_W2 e ∉ [Reg.EVR_LOSS] := by
    simp only [Reg.EVR_LOSS, Reg.MB_EP_W2, List.mem_singleton]
    omega
  have hbox : ((d.dispatched e c).ackReported e given).rd (Reg.MB_EP_W2 e) = d.rd (Reg.MB_EP_W2 e) := by
    rw [(Device.ackReported_plain _ _ _).regs _ hne, Device.rd_dispatched_mb] <;> simp only [Reg.MB_EP_W2] <;> omega
  rw [Device.mbAck, Device.bit, Device.fld_congr (f := Reg.MB_EP_W2_VALID e) hbox,
    Device.fld_congr (f := Reg.MB_EP_W2_SENDER e) hbox, hsender]
  exact if_pos hvalid

theorem mbxAckOp_eq (e : Eng) (d : Device) (c : Nat) (x : Ctx) : mbxAckOp e 0 0 d c x =
    .ok ((d.ackReported e (x.a.toNat % 65536)).mbAck e (min (x.a.toNat % 65536) 0xFFFE)).2
      (x.box ((d.ackReported e (x.a.toNat % 65536)).mbAck e (min (x.a.toNat % 65536) 0xFFFE)).1) := by
  have hcode : (if x.a.toNat % 65536 = 0xFFFF then 0xFFFE else x.a.toNat % 65536) = min (x.a.toNat % 65536) 0xFFFE := by
    split <;> omega
  rw [← hcode]
  rfl

section
variable {s : State} {e : Eng} {c : Nat} (h : s.dev.Executes e c)
include h

/-- ACK on a box that holds a notice. -/
theorem Device.Executes.acks (hvalid : s.dev.bit (Reg.MB_EP_W2_VALID e) = true) {k : Nat}
    (hsender : s.dev.fld (Reg.MB_EP_W2_SENDER e) = k) : Completes (.azMbxAck e 0 0) s (fun t =>
      s.dev.Ran t e c 1 { s.dev.ctx e c with la := true, co := false, pc := (s.dev.ctx e c).pc + 1 } ∧
      t.rd (Reg.MB_EP_W0 e) = 0 ∧ t.rd (Reg.MB_EP_W1 e) = 0 ∧ t.bit (Reg.MB_EP_W2_VALID e) = false ∧
      t.fld (Reg.MB_EP_W3_OUT_STATE k) = 2 ∧
      t.fld (Reg.MB_EP_W3_CODE k) = min ((s.dev.ctx e c).a.toNat % 65536) 0xFFFE ∧
      s.dev.KeepsMem t ∧ s.dev.KeepsCells t) := by
  have he := e.isLt
  have hk : k < 32 := hsender ▸ s.dev.fld_lt _
  obtain ⟨code, hcode⟩ : ∃ code, code = min ((s.dev.ctx e c).a.toNat % 65536) 0xFFFE := ⟨_, rfl⟩
  have hack := s.dev.mbAck_reported e c ((s.dev.ctx e c).a.toNat % 65536) code hvalid hsender
  have hplain := (s.dev.dispatched e c).ackReported_plain e ((s.dev.ctx e c).a.toNat % 65536)
  have hop := mbxAckOp_eq e (s.dev.dispatched e c) c (s.dev.ctx e c)
  rw [← hcode, hack] at hop
  generalize (s.dev.dispatched e c).ackReported e ((s.dev.ctx e c).a.toNat % 65536) = found at hop hplain
  have hsent := found.acked_soft e k code
  have hmb : MbRegs [Reg.MB_EP_W0 e, Reg.MB_EP_W1 e, Reg.MB_EP_W2 e, Reg.MB_EP_W3 k, Reg.MB_CNT] :=
    mbRegs_notice (by omega) hk
  refine (h.completes_sent (i := .azMbxAck e 0 0) rfl hop ((hplain.soft.mono ?_).trans
    (((found.acked_plain e k code).soft.mono fun _ => .inl).trans (hsent.mono fun _ => .inr)))
    hmb).imp ?_
  · intro a ha
    exact .inr (.inl (List.mem_singleton.mp ha ▸ relReg_loss))
  · rintro _ ⟨rfl, hran, hmem, hcells⟩
    obtain ⟨h0, h1, h2⟩ := found.acked_box e k code
    obtain ⟨hstate, hout⟩ := found.acked_out e k code
    have hreg (y : Ctx) {a : Nat}
        (ha : a ∈ [Reg.MB_EP_W0 e, Reg.MB_EP_W1 e, Reg.MB_EP_W2 e, Reg.MB_EP_W3 k, Reg.MB_CNT]) :=
      Device.rd_completed_sent hsent e c y (hmb a ha).1 (hmb a ha).2
    refine ⟨hran, (hreg _ (by simp)).trans h0, (hreg _ (by simp)).trans h1, ?_, ?_, ?_, hmem, hcells⟩
    · rw [Device.bit, Device.fld, show (Reg.MB_EP_W2_VALID e).addr = Reg.MB_EP_W2 e from rfl, hreg _ (by simp), h2]
      simp [bitsOf]
    · exact (Device.fld_congr (f := Reg.MB_EP_W3_OUT_STATE k) (hreg _ (by simp [Reg.MB_EP_W3_OUT_STATE]))).trans hstate
    · rw [Device.fld_congr (f := Reg.MB_EP_W3_CODE k) (hreg _ (by simp [Reg.MB_EP_W3_CODE])), hout, hcode]
      omega

end

/-- The registers of the inbound box of an endpoint. -/
def boxWords (r : Nat) : List Nat := [Reg.MB_EP_W0 r, Reg.MB_EP_W1 r, Reg.MB_EP_W2 r]

/-- A notice for endpoint r writes no register of another inbound box. -/
theorem boxWords_other {r r' : Nat} (hr' : r' < 25) (hne : r' ≠ r) (k : Nat) {a : Nat} (ha : a ∈ boxWords r') :
    0x4130000 ≤ a ∧ a < 0x4140000 ∧
      a ∉ [Reg.MB_EP_W0 r, Reg.MB_EP_W1 r, Reg.MB_EP_W2 r, Reg.MB_EP_W3 k, Reg.MB_CNT] := by
  simp only [boxWords, Reg.MB_EP_W0, Reg.MB_EP_W1, Reg.MB_EP_W2, Reg.MB_EP_W3, Reg.MB_CNT, List.mem_cons,
    List.not_mem_nil, or_false] at ha ⊢
  omega

theorem irqStat_not_stepRegs (e : Eng) : Reg.HP_IRQ_STAT ∉ stepRegs e := by
  have := e.isLt
  simp only [stepRegs, List.mem_cons, List.not_mem_nil, or_false, Reg.CE_STATUS, Reg.TASK_ENG_RETIRED_LO,
    Reg.TASK_ENG_RETIRED_HI, Reg.SF_GATE, Reg.HP_IRQ_STAT]
  omega

/-- What an accepted SEND leaves of the boxes and the counters. -/
theorem Device.Executes.sends_notice {s : State} {e : Eng} {c : Nat} (h : s.dev.Executes e c) {idx : BitVec 16}
    (hr : idx.toNat < 25) (hcan : (s.dev.dispatched e c).mbCanSend e idx.toNat = true) :
    Completes (.azMbxSend e 0 idx) s (fun t =>
      s.dev.Ran t e c 1 { s.dev.ctx e c with la := true, co := false, pc := (s.dev.ctx e c).pc + 1 } ∧
      t.Holds idx.toNat e (s.dev.ctx e c).a (s.dev.ctx e c).b ∧
      t.fld (Reg.MB_EP_W3_OUT_STATE e) = 1 ∧ t.fld (Reg.MB_EP_W3_DEST e) = idx.toNat ∧
      t.fld Reg.MB_CNT_SENT = min (s.dev.fld Reg.MB_CNT_SENT + 1) 255 ∧
      (∀ r', r' < 25 → r' ≠ idx.toNat → t.rd (Reg.MB_EP_W0 r') = s.dev.rd (Reg.MB_EP_W0 r') ∧
        t.rd (Reg.MB_EP_W1 r') = s.dev.rd (Reg.MB_EP_W1 r') ∧ t.rd (Reg.MB_EP_W2 r') = s.dev.rd (Reg.MB_EP_W2 r')) ∧
      (idx.toNat = 24 → t.bitAt Reg.HP_IRQ_STAT_CAUSE 1 = true) ∧ s.dev.KeepsMem t ∧ s.dev.KeepsCells t) := by
  have he := e.isLt
  have hsent := Device.mbSend_soft _ hcan (s.dev.ctx e c).a (s.dev.ctx e c).b
  refine (h.sends hr hcan).imp ?_
  rintro _ ⟨rfl, hran, hmem, hcells⟩
  obtain ⟨hstate, hdest⟩ := (s.dev.dispatched e c).noticed_pending (k := e) (r := idx.toNat) (s.dev.ctx e c).a
    (s.dev.ctx e c).b (by omega)
  have hreg (y : Ctx) {a : Nat} (ha : 0x4130000 ≤ a) (ha' : a < 0x4140000) :=
    Device.rd_completed_sent hsent e c y ha ha'
  have hkept (y : Ctx) {r' a : Nat} (hr' : r' < 25) (hne : r' ≠ idx.toNat) (ha : a ∈ boxWords r') := by
    obtain ⟨hlo, hhi, hlist⟩ := boxWords_other hr' hne e ha
    exact ((hreg y hlo hhi).trans ((Device.noticed_plain _ _ _).regs a hlist)).trans
      (s.dev.rd_dispatched_mb e c hlo hhi)
  refine ⟨hran, ?_, ?_, ?_, ?_, fun r' hr' hne => ⟨hkept _ hr' hne (by simp [boxWords]),
    hkept _ hr' hne (by simp [boxWords]), hkept _ hr' hne (by simp [boxWords])⟩, fun h24 => ?_, hmem, hcells⟩
  · refine ((s.dev.dispatched e c).noticed_holds _ _ (by omega)).congr (hreg _ ?_ ?_) (hreg _ ?_ ?_) (hreg _ ?_ ?_) <;>
      simp only [Reg.MB_EP_W0, Reg.MB_EP_W1, Reg.MB_EP_W2] <;> omega
  · refine (Device.fld_congr (f := Reg.MB_EP_W3_OUT_STATE e) (hreg _ ?_ ?_)).trans hstate <;>
      simp only [Reg.MB_EP_W3_OUT_STATE, Reg.MB_EP_W3] <;> omega
  · refine (Device.fld_congr (f := Reg.MB_EP_W3_DEST e) (hreg _ ?_ ?_)).trans hdest <;>
      simp only [Reg.MB_EP_W3_DEST, Reg.MB_EP_W3] <;> omega
  · have hold := s.dev.rd_dispatched_mb e c (a := Reg.MB_CNT) (by decide) (by decide)
    rw [Device.fld_congr (f := Reg.MB_CNT_SENT) (hreg _ (by decide) (by decide)), Device.noticed_sent,
      Device.fld_congr (f := Reg.MB_CNT_SENT) hold]
  · rw [Device.mbSend_accepted _ hcan, if_neg (by omega), Device.bitAt, Device.fld_congr (f := Reg.HP_IRQ_STAT_CAUSE)
      (Device.rd_completed_outside _ _ _ _ _ (irqStat_not_stepRegs e))]
    exact Device.bitAt_cause _ (by decide)

/-- Settles O15: a notice and its acknowledgement write their registers before anything is sent. -/
theorem mailboxInstructions : Obligations.MailboxInstructions := by
  rintro s e c h x rfl holds
  have he := e.isLt
  have hread {a : Nat} (ha : a ∈ [Reg.MB_EP_W0 e, Reg.MB_EP_W1 e, Reg.MB_EP_W2 e, Reg.MB_EP_W3 e, Reg.MB_CNT]) :
      (s.dev.dispatched e c).rd a = s.dev.rd a :=
    s.dev.rd_dispatched_mb e c (mbRegs_notice (by omega) (by omega) a ha).1 (mbRegs_notice (by omega) (by omega) a ha).2
  have hvalid : (s.dev.dispatched e c).fld (Reg.MB_EP_W2_VALID e) = s.dev.fld (Reg.MB_EP_W2_VALID e) :=
    Device.fld_congr (hread (by simp [Reg.MB_EP_W2_VALID]))
  refine ⟨?_, ?_, fun hnone => ?_, ?_, fun hnone => ?_, ?_⟩
  · rintro idx _ rfl hr accepted
    have hiff := s.dev.mbCanSend_dispatched e c hr
    exact ⟨fun hacc => h.sends_notice hr (hiff.mpr hacc), fun hno => h.refuses hr (mt hiff.mp hno)⟩
  · rintro ptr lt k ⟨hbox, -, rfl, rfl⟩
    refine h.runs_ok rfl ?_
    rw [← hread (by simp), ← hread (by simp)]
    exact if_pos (by rwa [Device.bit, hvalid])
  · exact h.runs_ok rfl (if_neg (by simpa [Device.bit, hvalid] using hnone))
  · rintro ptr lt k ⟨hbox, hsender, -, -⟩
    exact h.acks hbox hsender
  · refine h.runs_ok rfl ((mbxAckOp_eq e _ c _).trans ?_)
    have hno : ¬(s.dev.dispatched e c).bit (Reg.MB_EP_W2_VALID e) = true := by simpa [Device.bit, hvalid] using hnone
    rw [Device.ackReported, if_neg fun hb => hno hb.2, Device.mbAck, if_neg hno]
    rfl
  · refine h.runs_ok rfl ?_
    have hstate : (s.dev.dispatched e c).fld (Reg.MB_EP_W3_OUT_STATE e) = s.dev.fld (Reg.MB_EP_W3_OUT_STATE e) :=
      Device.fld_congr (hread (by simp [Reg.MB_EP_W3_OUT_STATE]))
    have hcode : (s.dev.dispatched e c).fld (Reg.MB_EP_W3_CODE e) = s.dev.fld (Reg.MB_EP_W3_CODE e) :=
      Device.fld_congr (hread (by simp [Reg.MB_EP_W3_CODE]))
    have hlt : s.dev.fld (Reg.MB_EP_W3_OUT_STATE e) < 4 := s.dev.fld_lt _
    have hla : decide (2 ≤ s.dev.fld (Reg.MB_EP_W3_OUT_STATE e)) =
        decide (s.dev.fld (Reg.MB_EP_W3_OUT_STATE e) = 2 ∨ s.dev.fld (Reg.MB_EP_W3_OUT_STATE e) = 3) :=
      decide_eq_decide.mpr (by omega)
    simp only [mbxStatOp, onZero_ok, hstate, hcode, hla, Ctx.push, Ctx.box]

end Sys2Proof.Machine
end

section
/-! SUPPORT. Traps (R167–R172, R185): what the trap registers show, what each reaction keeps of them, and the statement
about them. -/

namespace Sys2Proof.Machine

/-! ## The device that a trap finds -/

/-- The device on which the trap of an instruction acts: its step has counted. -/
def Device.trapFound (d : Device) (e c : Nat) : Device := ((d.dispatched e c).setCtx e c (d.ctx e c)).retire e 1

section
variable (d : Device) (e : Eng) (c : Nat)

theorem Device.rd_trapFound {a : Nat} (h : a ∉ stepRegs e) : (d.trapFound e c).rd a = d.rd a := by
  have hstep := h
  simp only [stepRegs, List.mem_cons, List.not_mem_nil, or_false, not_or] at h
  obtain ⟨-, hlo, hhi, -⟩ := h
  rw [Device.trapFound, Device.rd_retire_other _ _ _ hlo hhi, Device.rd_setCtx, Device.rd_dispatched _ _ _ hstep]

theorem Device.engState_trapFound : (d.trapFound e c).engState e = d.engState e := by
  have hstatus : (d.trapFound e c).rd (Reg.CE_STATUS e) = (d.dispatched e c).rd (Reg.CE_STATUS e) := by
    rw [Device.trapFound, Device.rd_retire_other _ _ _ (status_ne_lo e e.isLt) (status_ne_hi e e.isLt), Device.rd_setCtx]
  rw [Device.engState, Device.fld_congr (f := Reg.CE_STATUS_STATE e) hstatus,
    Device.fld_setF_other _ _ (.inr (by simp [Reg.CE_STATUS_STATE, Reg.CE_STATUS_ACTIVE_CTX]))]
  rfl

theorem Device.trapFound_keeps : d.KeepsMem (d.trapFound e c) ∧ d.KeepsCells (d.trapFound e c) :=
  ⟨⟨by simp [Device.trapFound], by simp [Device.trapFound], by simp [Device.trapFound]⟩,
    fun n => Device.tcell_congr (by simp [Device.trapFound, Device.setCtx]) n,
    fun n => Device.ccell_congr (by simp [Device.trapFound, Device.setCtx]) n⟩

theorem Device.migrating_trapFound : (d.trapFound e c).migrating e c = d.migrating e c := by
  simp [Device.migrating, Device.relOf, Device.trapFound]

end

/-! ## The trap registers (R172) -/

/-- What the trap registers of an engine show. -/
structure Device.TrapShown (t : Device) (e : Nat) (word : Word) (area pc count : Nat) (addr : Word) : Prop where
  word : t.rd (Reg.CE_TRAP_0 e) = word
  area : t.fld (Reg.CE_TRAP_1_AREA e) = area
  pos : (t.rd (Reg.CE_TRAP_1 e)).toNat % 65536 = pc
  count : t.fld (Reg.CE_TRAP_1_COUNT e) = count
  addr : t.rd (Reg.CE_TRAP_2 e) = addr

/-- The trap registers of an engine. -/
def trapRegs (e : Nat) : List Nat := [Reg.CE_TRAP_0 e, Reg.CE_TRAP_1 e, Reg.CE_TRAP_2 e]

theorem Device.TrapShown.congr {d t : Device} {e : Nat} {word : Word} {area pc count : Nat} {addr : Word}
    (h : d.TrapShown e word area pc count addr) (hk : ∀ a ∈ trapRegs e, t.rd a = d.rd a) :
    t.TrapShown e word area pc count addr := by
  have h1 : t.rd (Reg.CE_TRAP_1 e) = d.rd (Reg.CE_TRAP_1 e) := hk _ (by simp [trapRegs])
  exact ⟨(hk _ (by simp [trapRegs])).trans h.word, (Device.fld_congr (f := Reg.CE_TRAP_1_AREA e) h1).trans h.area,
    by rw [h1, h.pos], (Device.fld_congr (f := Reg.CE_TRAP_1_COUNT e) h1).trans h.count,
    (hk _ (by simp [trapRegs])).trans h.addr⟩

/-- Cause, context, code and reaction as CE_TRAP_0 shows them. -/
def trapWord (c cause code react : Nat) : Word := wd (code * 65536 + c * 4096 + react * 1024 + cause)

/-- The first two trap registers of a trap. -/
def Device.trapLatched (d : Device) (e : Nat) (word : Word) (area pc : Nat) : Device :=
  (((d.wr (Reg.CE_TRAP_0 e) word).setF (Reg.CE_TRAP_1_AREA e) area).setF ⟨Reg.CE_TRAP_1 e, 0, 16⟩ pc).inc
    (Reg.CE_TRAP_1_COUNT e)

/-- A trap that has shown itself, and has been recorded. -/
def Device.trapReported (d : Device) (e c : Nat) (word : Word) (area pc : Nat) (addr : Word) : Device :=
  ((d.trapLatched e word area pc).wr (Reg.CE_TRAP_2 e) addr).raiseFrom e c pc 0x090
    [wd e, (d.trapLatched e word area pc).rd (Reg.CE_TRAP_0 e), (d.trapLatched e word area pc).rd (Reg.CE_TRAP_1 e), addr]

section
variable (d : Device) (e : Nat) (word : Word) (area pc : Nat)

theorem Device.trapLatched_plain : d.Plain (· ∈ [Reg.CE_TRAP_0 e, Reg.CE_TRAP_1 e]) (d.trapLatched e word area pc) :=
  (((d.plain_wr _ (by simp)).trans (Device.plain_setF _ (f := Reg.CE_TRAP_1_AREA e) _ (by simp [Reg.CE_TRAP_1_AREA]))).trans
    (Device.plain_setF _ (f := ⟨Reg.CE_TRAP_1 e, 0, 16⟩) _ (by simp))).trans
      (Device.plain_inc _ (f := Reg.CE_TRAP_1_COUNT e) (by simp [Reg.CE_TRAP_1_COUNT]))

theorem Device.trapReported_plain (c : Nat) (addr : Word) :
    d.Plain (· ∈ Reg.EVR_LOSS :: trapRegs e) (d.trapReported e c word area pc addr) :=
  (((d.trapLatched_plain e word area pc).mono fun a ha => by simp [trapRegs] at ha ⊢; omega).trans
    (Device.plain_wr _ _ (by simp [trapRegs]))).trans (Device.plain_raiseFrom _ _ _ _ _ _ List.mem_cons_self)

/-- A field of the low half of a register is the register modulo 2^16. -/
theorem Device.fld_low_half (a : Nat) : d.fld ⟨a, 0, 16⟩ = (d.rd a).toNat % 65536 := by
  simp [Device.fld, bitsOf]

theorem Device.trapLatched_shows (ha : area < 16) (hpc : pc < 65536) (e : Nat) :
    (d.trapLatched e word area pc).rd (Reg.CE_TRAP_0 e) = word ∧
    (d.trapLatched e word area pc).fld (Reg.CE_TRAP_1_AREA e) = area ∧
    ((d.trapLatched e word area pc).rd (Reg.CE_TRAP_1 e)).toNat % 65536 = pc ∧
    (d.trapLatched e word area pc).fld (Reg.CE_TRAP_1_COUNT e) = min (d.fld (Reg.CE_TRAP_1_COUNT e) + 1) 255 := by
  have h01 : Reg.CE_TRAP_0 e ≠ Reg.CE_TRAP_1 e := by simp only [Reg.CE_TRAP_0, Reg.CE_TRAP_1]; omega
  have hca : (Reg.CE_TRAP_1_COUNT e).Apart (Reg.CE_TRAP_1_AREA e) := .inr (by simp [Reg.CE_TRAP_1_COUNT, Reg.CE_TRAP_1_AREA])
  have hcp : (Reg.CE_TRAP_1_COUNT e).Apart ⟨Reg.CE_TRAP_1 e, 0, 16⟩ := .inr (by simp [Reg.CE_TRAP_1_COUNT])
  have hpa : Fld.Apart ⟨Reg.CE_TRAP_1 e, 0, 16⟩ (Reg.CE_TRAP_1_AREA e) := .inr (by simp [Reg.CE_TRAP_1_AREA])
  have hpc' : Fld.Apart ⟨Reg.CE_TRAP_1 e, 0, 16⟩ (Reg.CE_TRAP_1_COUNT e) := .inr (by simp [Reg.CE_TRAP_1_COUNT])
  have hac : (Reg.CE_TRAP_1_AREA e).Apart (Reg.CE_TRAP_1_COUNT e) := .inr (by simp [Reg.CE_TRAP_1_COUNT, Reg.CE_TRAP_1_AREA])
  refine ⟨?_, ?_, ?_, ?_⟩
  · rw [Device.trapLatched, Device.rd_inc_other _ (f := Reg.CE_TRAP_1_COUNT e) h01,
      Device.rd_setF_other _ (f := ⟨Reg.CE_TRAP_1 e, 0, 16⟩) _ h01, Device.rd_setF_other _ (f := Reg.CE_TRAP_1_AREA e) _ h01,
      Device.rd_wr_same]
  · rw [Device.trapLatched, Device.inc, Device.satAdd, Device.fld_setF_other _ _ hca, Device.fld_setF_other _ _ hpa,
      Device.fld_setF_same _ _ _ (by simp [Reg.CE_TRAP_1_AREA])]
    exact Nat.mod_eq_of_lt ha
  · rw [← Device.fld_low_half, Device.trapLatched, Device.inc, Device.satAdd, Device.fld_setF_other _ _ hcp,
      Device.fld_setF_same _ _ _ (by simp)]
    exact Nat.mod_eq_of_lt hpc
  · rw [Device.trapLatched, Device.fld_inc_same _ _ (by simp [Reg.CE_TRAP_1_COUNT]), Device.fld_setF_other _ _ hpc',
      Device.fld_setF_other _ _ hac, Device.fld_wr_other _ _ h01.symm]
    rfl

theorem Device.trapReported_shows (ha : area < 16) (hpc : pc < 65536) (e c : Nat) (addr : Word) :
    (d.trapReported e c word area pc addr).TrapShown e word area pc (min (d.fld (Reg.CE_TRAP_1_COUNT e) + 1) 255) addr := by
  obtain ⟨hword, harea, hpos, hcount⟩ := d.trapLatched_shows word area pc ha hpc e
  have hkept {a : Nat} (ha : a = Reg.CE_TRAP_0 e ∨ a = Reg.CE_TRAP_1 e) :
      (d.trapReported e c word area pc addr).rd a = (d.trapLatched e word area pc).rd a := by
    simp only [Reg.CE_TRAP_0, Reg.CE_TRAP_1] at ha
    rw [Device.trapReported, Device.rd_raiseFrom, Device.rd_wr_other] <;>
      simp only [Reg.CE_TRAP_2, Reg.EVR_LOSS] <;> omega
  have hloss : Reg.CE_TRAP_2 e ≠ Reg.EVR_LOSS := by simp only [Reg.CE_TRAP_2, Reg.EVR_LOSS]; omega
  refine ⟨(hkept (.inl rfl)).trans hword, (Device.fld_congr (f := Reg.CE_TRAP_1_AREA e) (hkept (.inr rfl))).trans harea, ?_,
    (Device.fld_congr (f := Reg.CE_TRAP_1_COUNT e) (hkept (.inr rfl))).trans hcount, ?_⟩
  · rw [hkept (.inr rfl), hpos]
  · rw [Device.trapReported, Device.rd_raiseFrom _ _ _ _ _ _ hloss, Device.rd_wr_same]

end

/-! ## A trap and its reaction -/

/-- The reaction STOP_TASK (R171, R185): the instance ends, and the fault context of the engine is released unless it was
the one that trapped. -/
def Device.taskStopped (d : Device) (e c : Nat) : Device :=
  if d.bit (Reg.TASK_ENG_CFG_FAULT_EN e) && decide (d.fld (Reg.TASK_ENG_CFG_FAULT_CTX e) = c) then d.endInst e c
  else (d.endInst e c).faultRelease e c

theorem Device.trap_eq (d : Device) {e c react : Nat} (hmig : d.migrating e c = false)
    (hreact : d.fld (Reg.TASK_CFG_TRAP_REACT e c) = react) (hle : react ≤ 1) (cause area addr code pc : Nat) :
    d.trap e c cause area addr code pc =
      if react = 0 then (d.trapReported e c (trapWord c cause code react) area pc (wd addr)).taskStopped e c
      else (d.trapReported e c (trapWord c cause code react) area pc (wd addr)).stopEngine e stStopped := by
  have hmig' : (d.trapLatched e (trapWord c cause code react) area pc).migrating e c = false := by
    rw [← hmig]
    simp [Device.migrating, Device.relOf, Device.trapLatched, Device.inc, Device.satAdd]
  have hsame : (if react = 3 then 0 else react) = react := if_neg (by omega)
  simp only [Device.trapLatched, trapWord] at hmig'
  simp only [Device.trap, hreact, hsame, hmig', Bool.false_eq_true, if_false]
  by_cases h0 : react = 0
  · rw [if_pos h0, if_pos h0]
    rfl
  · rw [if_neg h0, if_neg h0, Device.stopReact, if_neg (by omega)]
    rfl

/-- The registers that the end of a task's instance and a fault release write. -/
def TaskStopReg (e a : Nat) : Prop := EndReg e a ∨ RelReg a

theorem Device.taskStopped_soft (d : Device) (e : Eng) {c : Nat} (hc : c < 16) :
    d.Soft (TaskStopReg e) (d.taskStopped e c) := by
  have hend := d.soft_endInst (R := TaskStopReg e) e c hc fun _ => .inl
  have hf : (d.endInst e c).fld (Reg.TASK_ENG_CFG_FAULT_CTX e) < 16 := Device.fld_lt _ _
  have he : e.val < 32 := by omega
  refine .ite hend (hend.trans ?_)
  rw [Device.faultRelease]
  exact .ite (.ite (.refl _) (Device.soft_release _ _ _ _ (.inr (relReg_stat he hf)) (.inr (relReg_cnt he hf))
    (.inr relReg_loss))) (.refl _)

/-- The registers of engines are none that the end of an instance and releases write. -/
theorem not_taskStopReg {e a : Nat} (h : LowReg a) (hc : a ≠ Reg.CE_CMD_STATUS e) : ¬TaskStopReg e a := by
  refine not_or.mpr ⟨fun hend => not_stopReg h hc (.inl hend), not_relReg (.inl h) ?_⟩
  simp only [LowReg] at h
  simp only [Reg.EVR_LOSS]
  omega

/-- Without a fault context the stop of a task is the end of its instance. -/
theorem Device.taskStopped_plain (d : Device) (e : Eng) (c : Nat)
    (hen : d.bit (Reg.TASK_ENG_CFG_FAULT_EN e) = false) : d.taskStopped e c = d.endInst e c := by
  have hne : Reg.TASK_ENG_CFG e ≠ Reg.TASK_STAT e c := by simp only [Reg.TASK_ENG_CFG, Reg.TASK_STAT]; omega
  have hkeeps : EndKeeps e c (Reg.TASK_ENG_CFG e) := by
    have := e.isLt
    refine ⟨fun k _ => ?_, ?_, ?_⟩ <;> simp only [Reg.TASK_ENG_CFG, Reg.HSEM, Reg.EVR_LOSS, Reg.TASK_MAXRUN] <;> omega
  have hen' : ¬(d.endInst e c).bit (Reg.TASK_ENG_CFG_FAULT_EN e) = true := by
    rw [Device.bit, Device.fld_congr (f := Reg.TASK_ENG_CFG_FAULT_EN e) (d.rd_endInst e c hkeeps hne)]
    simpa [Device.bit] using hen
  rw [Device.taskStopped, hen, Bool.false_and, if_neg Bool.false_ne_true, Device.faultRelease, if_neg hen']

/-! ## What a trap leaves -/

/-- The trap registers of an engine are registers of the engines, and neither its status nor its command register. -/
theorem trapRegs_low {e a : Nat} (he : e < 24) (ha : a ∈ trapRegs e) :
    LowReg a ∧ a ≠ Reg.CE_CMD_STATUS e ∧ a ≠ Reg.CE_STATUS e := by
  simp only [trapRegs, List.mem_cons, List.not_mem_nil, or_false, Reg.CE_TRAP_0, Reg.CE_TRAP_1, Reg.CE_TRAP_2] at ha
  simp only [LowReg, Reg.CE_CMD_STATUS, Reg.CE_STATUS]
  omega

/-- A trap shows nothing in the registers of tasks, and in its engine's status. -/
theorem not_trapReported_task {e a : Nat} (h : 0x4030000 ≤ a) (hl : a < 0x4040000) (he : e < 24) :
    a ∉ Reg.EVR_LOSS :: trapRegs e := by
  simp only [trapRegs, List.mem_cons, List.not_mem_nil, or_false, Reg.CE_TRAP_0, Reg.CE_TRAP_1, Reg.CE_TRAP_2, Reg.EVR_LOSS]
  omega

theorem not_trapReported_status {e : Nat} (he : e < 24) : Reg.CE_STATUS e ∉ Reg.EVR_LOSS :: trapRegs e := by
  simp only [trapRegs, List.mem_cons, List.not_mem_nil, or_false, Reg.CE_TRAP_0, Reg.CE_TRAP_1, Reg.CE_TRAP_2, Reg.EVR_LOSS,
    Reg.CE_STATUS]
  omega

/-- What a reaction leaves of the trap registers, memories and the engines' state beside registers. -/
structure Device.TrapKept (d t : Device) (e : Nat) : Prop where
  shown : ∀ a ∈ trapRegs e, t.rd a = d.rd a
  mem : d.KeepsMem t
  ce : t.ce = d.ce

theorem Device.taskStopped_kept (d : Device) (e : Eng) {c : Nat} (hc : c < 16) : d.TrapKept (d.taskStopped e c) e := by
  have hsoft := d.taskStopped_soft e hc
  obtain ⟨r, v, k, m, hform⟩ := hsoft.form
  refine ⟨fun a ha => ?_, ⟨by rw [hform], by rw [hform], by rw [hform]⟩, by rw [hform]⟩
  obtain ⟨hlow, hcmd, -⟩ := trapRegs_low e.isLt ha
  exact hsoft.regs a (not_taskStopReg hlow hcmd)

theorem Device.Stopped.kept {d t : Device} {e : Eng} {st : Nat} (h : d.Stopped t e st) : d.TrapKept t e := by
  refine ⟨fun a ha => ?_, h.mem, h.ce⟩
  obtain ⟨hlow, hcmd, hstatus⟩ := trapRegs_low e.isLt ha
  exact h.regs a hlow hcmd hstatus

theorem Device.TrapKept.sluice {d t : Device} {e : Eng} (h : d.TrapKept t e) : d.TrapKept t.sluice e := by
  refine ⟨fun a ha => (Device.rd_sluice _ ?_).trans (h.shown a ha), ⟨by simp [h.mem.mem], by simp [h.mem.larea],
    by simp [h.mem.prog]⟩, by simp [h.ce]⟩
  obtain ⟨hlow, -⟩ := trapRegs_low e.isLt ha
  simp only [LowReg] at hlow
  simp only [Reg.SF_GATE]
  omega

theorem taskCfg_not_stepRegs (e : Eng) {c : Nat} (_ : c < 16) : Reg.TASK_CFG e c ∉ stepRegs e := by
  have := e.isLt
  simp only [stepRegs, List.mem_cons, List.not_mem_nil, or_false, Reg.CE_STATUS, Reg.TASK_ENG_RETIRED_LO,
    Reg.TASK_ENG_RETIRED_HI, Reg.SF_GATE, Reg.TASK_CFG]
  omega

theorem engCfg_not_stepRegs (e : Eng) : Reg.TASK_ENG_CFG e ∉ stepRegs e := by
  have := e.isLt
  simp only [stepRegs, List.mem_cons, List.not_mem_nil, or_false, Reg.CE_STATUS, Reg.TASK_ENG_RETIRED_LO,
    Reg.TASK_ENG_RETIRED_HI, Reg.SF_GATE, Reg.TASK_ENG_CFG]
  omega

/-- The device of a trap that an instruction has met: its step has counted, and the trap has shown itself. -/
def Device.trapMet (d : Device) (e c cause code addr react : Nat) : Device :=
  (d.trapFound e c).trapReported e c (trapWord c cause code react) noArea (d.ctx e c).pc.toNat (wd addr)

section
variable (d : Device) (e : Eng) (c cause code addr react : Nat)

theorem Device.trapMet_plain :
    (d.trapFound e c).Plain (· ∈ Reg.EVR_LOSS :: trapRegs e) (d.trapMet e c cause code addr react) :=
  Device.trapReported_plain _ _ _ _ _ _ _

theorem Device.trapMet_shows : (d.trapMet e c cause code addr react).TrapShown e (trapWord c cause code react) 15
    (d.ctx e c).pc.toNat (min (d.fld (Reg.CE_TRAP_1_COUNT e) + 1) 255) (wd addr) := by
  have hcount : (d.trapFound e c).fld (Reg.CE_TRAP_1_COUNT e) = d.fld (Reg.CE_TRAP_1_COUNT e) :=
    Device.fld_congr (d.rd_trapFound e c (trap_1_not_stepRegs e))
  rw [← hcount]
  exact Device.trapReported_shows _ _ _ _ (by decide) (d.ctx e c).pc.isLt _ _ _

theorem Device.trapMet_keeps : d.KeepsMem (d.trapMet e c cause code addr react) ∧
    d.KeepsCells (d.trapMet e c cause code addr react) := by
  obtain ⟨r, v, hform⟩ := (d.trapMet_plain e c cause code addr react).form
  obtain ⟨hmem, hcells⟩ := d.trapFound_keeps e c
  generalize d.trapFound e c = found at *
  rw [hform]
  exact ⟨hmem.trans ⟨rfl, rfl, rfl⟩, hcells.trans (.of_ce rfl)⟩

theorem Device.engState_trapMet : (d.trapMet e c cause code addr react).engState e = d.engState e :=
  (Device.fld_congr (f := Reg.CE_STATUS_STATE e)
    ((d.trapMet_plain e c cause code addr react).regs _ (not_trapReported_status e.isLt))).trans
    (d.engState_trapFound e c)

/-- A trap that has been shown leaves the registers of tasks alone. -/
theorem Device.rd_trapMet_task {a : Nat} (h : 0x4030000 ≤ a) (hl : a < 0x4040000) (hs : a ∉ stepRegs e) :
    (d.trapMet e c cause code addr react).rd a = d.rd a :=
  ((d.trapMet_plain e c cause code addr react).regs _ (not_trapReported_task h hl e.isLt)).trans (d.rd_trapFound e c hs)

end

section
variable {s : State} {e : Eng} {c : Nat} (h : s.dev.Executes e c)
include h

/-- An instruction that answers a trap meets it, and its reaction follows. -/
theorem Device.Executes.meets_trap {i : Instr} {f : Device → Nat → Ctx → Res} {cause code addr react : Nat}
    (hx : exec i s = run (Sys2Proof.Machine.azStep e f) s)
    (hf : f (s.dev.dispatched e c) c (s.dev.ctx e c) =
      .trap cause noArea addr code (s.dev.dispatched e c) (s.dev.ctx e c))
    (hmig : s.dev.migrating e c = false) (hreact : s.dev.fld (Reg.TASK_CFG_TRAP_REACT e c) = react) (hle : react ≤ 1)
    {P : Device → Prop} (hP : P ((if react = 0 then (s.dev.trapMet e c cause code addr react).taskStopped e c
      else (s.dev.trapMet e c cause code addr react).stopEngine e stStopped) : Device).sluice) : Completes i s P := by
  refine completes_run hx ?_ hP
  have hcfg : (s.dev.trapFound e c).fld (Reg.TASK_CFG_TRAP_REACT e c) = react :=
    (Device.fld_congr (s.dev.rd_trapFound e c (taskCfg_not_stepRegs e h.lt))).trans hreact
  rw [h.azStep f, hf]
  exact Device.trap_eq _ ((s.dev.migrating_trapFound e c).trans hmig) hcfg hle _ _ _ _ _

end

/-- The reaction STOP_TASK ends the instance, and the engine runs on. -/
theorem Device.taskStopped_state (d : Device) (e : Eng) {c : Nat} (hc : c < 16) (hrun : d.engState e = 3) :
    (d.taskStopped e c).sluice.engState e = 3 ∧ (d.bit (Reg.TASK_ENG_CFG_FAULT_EN e) = false →
      (d.taskStopped e c).sluice.ctxState e c = if d.bit (Reg.TASK_STAT_LATCH e c) then 1 else 0) := by
  have hlow : LowReg (Reg.CE_STATUS e) := by simp only [LowReg, Reg.CE_STATUS]; omega
  have hcmd : Reg.CE_STATUS e ≠ Reg.CE_CMD_STATUS e := by simp only [Reg.CE_STATUS, Reg.CE_CMD_STATUS]; omega
  constructor
  · rw [Device.engState, Device.fld_sluice _ (status_ne_gate e e.isLt)]
    exact (Device.fld_congr ((d.taskStopped_soft e hc).regs _ (not_taskStopReg hlow hcmd))).trans hrun
  · intro hen
    obtain ⟨hstate, -, -⟩ := d.endInst_state e c e.isLt hc
    rw [d.taskStopped_plain e c hen, Device.ctxState, Device.fld_sluice _ (ne_gate_of_stepRegs (stat_not_stepRegs e e hc))]
    exact hstate

/-- An instruction that answers a trap outside a migrate instance. -/
theorem Device.Executes.traps {s : State} {e : Eng} {c : Nat} (h : s.dev.Executes e c) {i : Instr}
    {f : Device → Nat → Ctx → Res} {cause code addr react : Nat}
    (hx : exec i s = run (Sys2Proof.Machine.azStep e f) s)
    (hf : f (s.dev.dispatched e c) c (s.dev.ctx e c) =
      .trap cause noArea addr code (s.dev.dispatched e c) (s.dev.ctx e c))
    (hmig : s.dev.migrating e c = false) (hreact : s.dev.fld (Reg.TASK_CFG_TRAP_REACT e c) = react) (hle : react ≤ 1) :
    Completes i s (fun t =>
      t.TrapShown e (trapWord c cause code react) 15 (s.dev.ctx e c).pc.toNat
        (min (s.dev.fld (Reg.CE_TRAP_1_COUNT e) + 1) 255) (wd addr) ∧
      (react = 1 → t.engState e = 5) ∧
      (react = 0 → t.engState e = 3 ∧ (s.dev.bit (Reg.TASK_ENG_CFG_FAULT_EN e) = false →
        t.ctxState e c = if s.dev.bit (Reg.TASK_STAT_LATCH e c) then 1 else 0)) ∧
      s.dev.KeepsMem t ∧ s.dev.KeepsCells t) := by
  have hshown := s.dev.trapMet_shows e c cause code addr react
  have hrun := (s.dev.engState_trapMet e c cause code addr react).trans h.runs
  have hlatch := s.dev.rd_trapMet_task e c cause code addr react (a := Reg.TASK_STAT e c)
    (by simp only [Reg.TASK_STAT]; omega) (by have := h.lt; simp only [Reg.TASK_STAT]; omega) (stat_not_stepRegs e e h.lt)
  have hcfg := s.dev.rd_trapMet_task e c cause code addr react (a := Reg.TASK_ENG_CFG e)
    (by simp only [Reg.TASK_ENG_CFG]; omega) (by simp only [Reg.TASK_ENG_CFG]; omega) (engCfg_not_stepRegs e)
  obtain ⟨hmem, hcells⟩ := s.dev.trapMet_keeps e c cause code addr react
  refine h.meets_trap hx hf hmig hreact hle ?_
  generalize s.dev.trapMet e c cause code addr react = d at *
  by_cases h0 : react = 0
  · rw [if_pos h0]
    have hkept := (d.taskStopped_kept e h.lt).sluice
    obtain ⟨hstate, hctx⟩ := d.taskStopped_state e h.lt hrun
    refine ⟨hshown.congr hkept.shown, fun h1 => by omega, fun _ => ⟨hstate, fun hen => ?_⟩, hmem.trans hkept.mem,
      hcells.trans (.of_ce hkept.ce)⟩
    have hfault : d.bit (Reg.TASK_ENG_CFG_FAULT_EN e) = s.dev.bit (Reg.TASK_ENG_CFG_FAULT_EN e) := by
      rw [Device.bit, Device.fld_congr (f := Reg.TASK_ENG_CFG_FAULT_EN e) hcfg, Device.bit]
    have hold : d.bit (Reg.TASK_STAT_LATCH e c) = s.dev.bit (Reg.TASK_STAT_LATCH e c) := by
      rw [Device.bit, Device.fld_congr (f := Reg.TASK_STAT_LATCH e c) hlatch, Device.bit]
    rw [← hold]
    exact hctx (hfault.trans hen)
  · rw [if_neg h0]
    have hstop : d.Stopped (d.stopEngine e stStopped) e 5 := d.stopEngine_stopped e.isLt (by decide)
    have hkept := hstop.kept.sluice
    refine ⟨hshown.congr hkept.shown, fun _ => ?_, fun h => absurd h h0, hmem.trans hkept.mem,
      hcells.trans (.of_ce hkept.ce)⟩
    rw [Device.engState, Device.fld_sluice _ (status_ne_gate e e.isLt)]
    exact hstop.state

/-- Settles O18: the trap shows itself, and neither reaction writes the trap registers. -/
theorem traps : Obligations.Traps := by
  rintro s e c h x rfl hmig react hreact hle trapsWith
  have hwith {i : Instr} {f : Device → Nat → Ctx → Res} {cause code addr : Nat}
      (hx : exec i s = run (Sys2Proof.Machine.azStep e f) s)
      (hf : f (s.dev.dispatched e c) c (s.dev.ctx e c) =
        .trap cause noArea addr code (s.dev.dispatched e c) (s.dev.ctx e c)) : trapsWith i cause code addr :=
    (h.traps hx hf hmig hreact.symm hle).imp fun t ⟨hshown, hstop, htask, hmem, hcells⟩ =>
      ⟨hshown.word, hshown.area, hshown.pos, hshown.count, hshown.addr, hstop, htask, hmem, hcells⟩
  refine ⟨fun idx => hwith (i := .azTrap e 0 idx) rfl rfl, fun w hw => hwith (f := fun d _ x => illegal d x) ?_ rfl⟩
  have hstep (d : Device) : (if wordLegal w.toNat then d else azStep e (fun d _ x => illegal d x) d) =
      azStep e (fun d _ x => illegal d x) d := if_neg (by simp [hw])
  exact congrArg (run · s) (funext hstep)

end Sys2Proof.Machine
end

section
/-! SUPPORT. Deadlines (R61, R186–R188): what an overrun counts, what the reactions CONTINUE and ABORT leave of it,
and the statement about them. -/

namespace Sys2Proof.Machine

/-! ## Counting an overrun (R61, R187) -/

theorem Device.fld_inc_other (d : Device) {f g : Fld} (h : f.Apart g) : (d.inc f).fld g = d.fld g :=
  d.fld_setF_other _ h

/-- The registers in which an overrun counts. -/
def overrunRegs (e c : Nat) : List Nat := [Reg.TASK_CNT e c, Reg.TICK_FLAGS, Reg.TICK_ERR_CNT, Reg.EVR_LOSS]

/-- What an overrun of context c of engine e counts, and what it leaves alone. -/
structure Device.OverrunCounted (d t : Device) (e c : Nat) : Prop where
  task : t.fld (Reg.TASK_CNT_OVR e c) = min (d.fld (Reg.TASK_CNT_OVR e c) + 1) 255
  flag : t.bit Reg.TICK_FLAGS_OVERRUN = true
  tick : t.fld Reg.TICK_ERR_CNT_OVR = min (d.fld Reg.TICK_ERR_CNT_OVR + 1) 255
  mem : d.KeepsMem t
  ce : t.ce = d.ce

/-- Later work that keeps the fields of the count, memories and engines keeps what was counted. -/
theorem Device.OverrunCounted.kept {d t u : Device} {e c : Nat} (h : d.OverrunCounted t e c)
    (hfld : ∀ f ∈ [Reg.TASK_CNT_OVR e c, Reg.TICK_FLAGS_OVERRUN, Reg.TICK_ERR_CNT_OVR], u.fld f = t.fld f)
    (hmem : t.KeepsMem u) (hce : u.ce = t.ce) : d.OverrunCounted u e c where
  task := (hfld _ (by simp)).trans h.task
  flag := by rw [Device.bit, hfld _ (by simp)]; exact h.flag
  tick := (hfld _ (by simp)).trans h.tick
  mem := h.mem.trans hmem
  ce := hce.trans h.ce

section
variable (d : Device) (e : Eng) (c : CtxNo)

/-- The counters of a context have a register of their own. -/
theorem taskCnt_apart : Reg.TASK_CNT e c ≠ Reg.EVR_LOSS ∧ Reg.TASK_CNT e c ≠ Reg.TICK_FLAGS ∧
    Reg.TASK_CNT e c ≠ Reg.TICK_ERR_CNT ∧ Reg.TASK_CNT e c ≠ Reg.SF_GATE ∧ Reg.TASK_CNT e c ≠ Reg.CE_STATUS e := by
  simp only [Reg.TASK_CNT, Reg.EVR_LOSS, Reg.TICK_FLAGS, Reg.TICK_ERR_CNT, Reg.SF_GATE, Reg.CE_STATUS]
  omega

theorem taskStat_ne_gate : Reg.TASK_STAT e c ≠ Reg.SF_GATE := by
  simp only [Reg.TASK_STAT, Reg.SF_GATE]
  omega

theorem Device.countOverrun_plain : d.Plain (· ∈ overrunRegs e c) (d.countOverrun e c) :=
  (((d.plain_inc (f := Reg.TASK_CNT_OVR e c) (by simp [overrunRegs, Reg.TASK_CNT_OVR])).trans
    (Device.plain_setF _ _ (by simp [overrunRegs, Reg.TICK_FLAGS_OVERRUN]))).trans
    (Device.plain_inc _ (by simp [overrunRegs, Reg.TICK_ERR_CNT_OVR]))).trans
    (Device.plain_raise _ _ _ (by simp [overrunRegs]))

theorem Device.countOverrun_counted : d.OverrunCounted (d.countOverrun e c) e c := by
  obtain ⟨hloss, hflags, herr, -⟩ := taskCnt_apart e c
  obtain ⟨r, v, hform⟩ := (d.countOverrun_plain e c).form
  refine ⟨?_, ?_, ?_, by rw [hform]; exact ⟨rfl, rfl, rfl⟩, by rw [hform]⟩
  · rw [Device.countOverrun, Device.fld_raise _ _ _ hloss, Device.fld_inc_other _ (.inl herr.symm),
      Device.fld_setF_other _ _ (.inl hflags.symm), Device.fld_inc_same _ _ (by simp [Reg.TASK_CNT_OVR])]
    rfl
  · rw [Device.bit_eq_true, Device.countOverrun, Device.fld_raise _ _ _ (by decide),
      Device.fld_inc_other _ (by decide), Device.fld_setF_same _ _ _ (by decide)]
    decide
  · rw [Device.countOverrun, Device.fld_raise _ _ _ (by decide), Device.fld_inc_same _ _ (by decide),
      Device.fld_setF_other _ _ (by decide), d.fld_inc_other (.inl herr)]
    rfl

theorem Device.countOverrun_logs : d.Logs (d.countOverrun e c) 0x047 [] := by
  refine d.raise_logs _ 0x047 [] ?_ (by simp) (by simp)
  have hcnt : Reg.EVR_CODE 0x047 ≠ Reg.TASK_CNT e c := by simp only [Reg.EVR_CODE, Reg.TASK_CNT]; omega
  rw [Device.rd_inc_other _ (by decide), Device.rd_setF_other _ _ (by decide),
    Device.rd_inc_other _ (f := Reg.TASK_CNT_OVR e c) hcnt]

/-! ## The instance that has overrun (R186, R188) -/

/-- The deadline of a release passes at the command: of kind REL at any moment (log 14), of kind VOTE once its tick has
come. -/
def Device.DuePassed (d : Device) (e c : Nat) (r : Rel) : Prop :=
  r.due = none ∧ d.fld (Reg.TASK_CFG_DL_KIND e c) = 1 ∨ ∃ n, r.due = some n ∧ n ≤ d.tickCount

/-- The device once the overrun of release r has counted, before the reaction. -/
def Device.overran (d : Device) (e c : Nat) (r : Rel) : Device :=
  (if r.due.isSome then (d.countOverrun e c).leaveUnended e c (some r) else d.countOverrun e c).setRel e c
    (some r.overrun)

variable (r : Rel)

theorem Device.overran_soft : (d.countOverrun e c).Soft (fun _ => False) (d.overran e c r) :=
  .trans (.ite (Device.soft_leaveUnended _ _ _ _) (.refl _)) (Device.soft_setRel _ _ _ _)

theorem Device.rd_overran (a : Nat) : (d.overran e c r).rd a = (d.countOverrun e c).rd a :=
  (d.overran_soft e c r).regs a id

theorem Device.fld_overran (f : Fld) : (d.overran e c r).fld f = (d.countOverrun e c).fld f :=
  Device.fld_congr (d.rd_overran e c r _)

theorem Device.relOf_overran : (d.overran e c r).relOf e c = some r.overrun := by
  simp only [Device.relOf, Device.overran, Device.setRel, sget_sput_same]

theorem Device.leaveUnended_evr (e c : Nat) (r : Option Rel) : (d.leaveUnended e c r).evr = d.evr := by
  unfold Device.leaveUnended
  split <;> rfl

theorem Device.overran_evr : (d.overran e c r).evr = (d.countOverrun e c).evr := by
  rw [Device.overran, Device.setRel_evr]
  split
  · exact Device.leaveUnended_evr _ _ _ _
  · rfl

/-- An overrun writes no register but those in which it counts. -/
theorem Device.rd_overran_other {a : Nat} (h : a ∉ overrunRegs e c) : (d.overran e c r).rd a = d.rd a :=
  (d.rd_overran e c r a).trans ((d.countOverrun_plain e c).regs a h)

/-- An overrun leaves the count of aborts alone. -/
theorem Device.aborted_overran :
    (d.overran e c r).fld (Reg.TASK_CNT_ABORTED e c) = d.fld (Reg.TASK_CNT_ABORTED e c) := by
  obtain ⟨hloss, hflags, herr, -⟩ := taskCnt_apart e c
  rw [d.fld_overran, Device.countOverrun, Device.fld_raise _ _ _ hloss, Device.fld_inc_other _ (.inl herr.symm),
    Device.fld_setF_other _ _ (.inl hflags.symm),
    Device.fld_inc_other _ (.inr (by simp [Reg.TASK_CNT_ABORTED, Reg.TASK_CNT_OVR]))]

theorem Device.overran_counted : d.OverrunCounted (d.overran e c r) e c := by
  obtain ⟨x, v, k, m, hform⟩ := (d.overran_soft e c r).form
  exact (d.countOverrun_counted e c).kept (fun _ _ => d.fld_overran e c r _) (by rw [hform]; exact ⟨rfl, rfl, rfl⟩)
    (by rw [hform])

/-- An overrun counts in registers that neither configure nor show its context and engine. -/
theorem not_overrunRegs : Reg.TASK_CFG e c ∉ overrunRegs e c ∧ Reg.TASK_STAT e c ∉ overrunRegs e c ∧
    Reg.CE_STATUS e ∉ overrunRegs e c := by
  simp only [overrunRegs, List.mem_cons, List.not_mem_nil, or_false, Reg.TASK_CFG, Reg.TASK_STAT, Reg.CE_STATUS,
    Reg.TASK_CNT, Reg.TICK_FLAGS, Reg.TICK_ERR_CNT, Reg.EVR_LOSS]
  omega

theorem Device.overran_shows : (d.overran e c r).engState e = d.engState e ∧
    (d.overran e c r).ctxState e c = d.ctxState e c ∧
    (d.overran e c r).bit (Reg.TASK_STAT_LATCH e c) = d.bit (Reg.TASK_STAT_LATCH e c) ∧
    (d.overran e c r).fld (Reg.TASK_CFG_OVR_REACT e c) = d.fld (Reg.TASK_CFG_OVR_REACT e c) := by
  obtain ⟨hcfg, hstat, hstatus⟩ := not_overrunRegs e c
  have hstat' := d.rd_overran_other e c r hstat
  have hlatch := Device.fld_congr (f := Reg.TASK_STAT_LATCH e c) hstat'
  exact ⟨Device.fld_congr (d.rd_overran_other e c r hstatus), Device.fld_congr hstat',
    by simp only [Device.bit, hlatch], Device.fld_congr (d.rd_overran_other e c r hcfg)⟩

variable {d e c r}

/-- An instance of an engine in RUN that overruns for the first time counts, and its reaction follows. -/
theorem Device.deadline_passed (hrun : d.engState e = 3) (hrel : d.relOf e c = some r) (hlate : r.late = false)
    (hdue : d.DuePassed e c r) : d.deadline e c false = (d.overran e c r).overrunReact e c := by
  have hnot : ¬(d.overran e c r).engState e = stHalted := by
    rw [(d.overran_shows e c r).1, hrun]
    decide
  simp only [Device.deadline, Bool.false_eq_true, if_false, hrel]
  refine (if_neg ?_).trans (if_neg hnot)
  rcases hdue with ⟨hnone, hkind⟩ | ⟨n, hsome, hn⟩
  · simp [hlate, hnone, hkind]
  · simp [hlate, hsome, hn]

end

/-! ## The reactions CONTINUE and ABORT (R187) -/

theorem Device.overrunReact_continue {d : Device} {e c : Nat} (h : d.fld (Reg.TASK_CFG_OVR_REACT e c) = 0) :
    d.overrunReact e c = d := by
  simp [Device.overrunReact, h]

/-- The device that has counted an abort and recorded event 0x0C6 with the instance's position. -/
def Device.abortShown (d : Device) (e c pc : Nat) : Device :=
  (d.inc (Reg.TASK_CNT_ABORTED e c)).raiseFrom e c pc 0x0C6 [engCtx e c, wd pc]

theorem Device.overrunReact_abort {d : Device} {e c : Nat} (h : d.fld (Reg.TASK_CFG_OVR_REACT e c) = 1) :
    ∃ pc, d.overrunReact e c = (d.abortShown e c pc).endInst e c :=
  ⟨_, if_pos h⟩

section
variable (d : Device) (e : Eng) (c : CtxNo) (pc : Nat)

theorem Device.fld_abortShown {f : Fld} (hf : f.addr ≠ Reg.EVR_LOSS) (ha : (Reg.TASK_CNT_ABORTED e c).Apart f) :
    (d.abortShown e c pc).fld f = d.fld f :=
  (Device.fld_congr (Device.rd_raiseFrom _ _ _ _ _ _ hf)).trans (d.fld_inc_other ha)

theorem Device.aborted_abortShown : (d.abortShown e c pc).fld (Reg.TASK_CNT_ABORTED e c) =
    min (d.fld (Reg.TASK_CNT_ABORTED e c) + 1) 255 := by
  obtain ⟨hloss, -⟩ := taskCnt_apart e c
  exact (Device.fld_congr (f := Reg.TASK_CNT_ABORTED e c) (Device.rd_raiseFrom _ _ _ _ _ _ hloss)).trans
    (d.fld_inc_same _ (by simp [Reg.TASK_CNT_ABORTED]))

/-- The registers of the counts of overruns and of the engine's state are none that the end of an instance writes. -/
theorem endKeeps_counts {a : Nat} (ha : a ∈ [Reg.TASK_CNT e c, Reg.TICK_FLAGS, Reg.TICK_ERR_CNT, Reg.CE_STATUS e]) :
    EndKeeps e c a ∧ a ≠ Reg.TASK_STAT e c ∧ a ≠ Reg.EVR_LOSS ∧ a ≠ Reg.SF_GATE := by
  simp only [List.mem_cons, List.not_mem_nil, or_false, Reg.TASK_CNT, Reg.TICK_FLAGS, Reg.TICK_ERR_CNT,
    Reg.CE_STATUS] at ha
  refine ⟨⟨fun k hk => ?_, ?_, ?_⟩, ?_, ?_, ?_⟩ <;>
    simp only [Reg.HSEM, Reg.EVR_LOSS, Reg.TASK_MAXRUN, Reg.TASK_STAT, Reg.SF_GATE] <;> omega

/-- The instance that an overrun aborts, once Sluice has acted. -/
def Device.overrunAborted (d : Device) (e c pc : Nat) : Device := ((d.abortShown e c pc).endInst e c).sluice

/-- A field that shows counts of overruns or the engine's state, after an abort. -/
theorem Device.fld_overrunAborted {f : Fld}
    (hf : f.addr ∈ [Reg.TASK_CNT e c, Reg.TICK_FLAGS, Reg.TICK_ERR_CNT, Reg.CE_STATUS e]) :
    (d.overrunAborted e c pc).fld f = (d.abortShown e c pc).fld f := by
  obtain ⟨hend, hstat, -, hgate⟩ := endKeeps_counts e c hf
  exact (Device.fld_sluice _ hgate).trans (Device.fld_congr (Device.rd_endInst _ _ _ hend hstat))

theorem Device.overrunAborted_keeps : d.KeepsMem (d.overrunAborted e c pc) ∧ (d.overrunAborted e c pc).ce = d.ce := by
  obtain ⟨r, v, t, hform⟩ := (d.abortShown e c pc).endInst_eq e c
  rw [Device.overrunAborted, hform]
  exact ⟨⟨by simp [Device.abortShown], by simp [Device.abortShown], by simp [Device.abortShown]⟩,
    by simp [Device.abortShown]⟩

/-- An abort keeps what the overrun has counted. -/
theorem Device.OverrunCounted.aborted {d t : Device} {e : Eng} {c : CtxNo} (h : d.OverrunCounted t e c) (pc : Nat) :
    d.OverrunCounted (t.overrunAborted e c pc) e c := by
  obtain ⟨hmem, hce⟩ := t.overrunAborted_keeps e c pc
  refine h.kept (fun f hf => ?_) hmem hce
  have hreg : f.addr ∈ [Reg.TASK_CNT e c, Reg.TICK_FLAGS, Reg.TICK_ERR_CNT, Reg.CE_STATUS e] ∧
      (Reg.TASK_CNT_ABORTED e c).Apart f := by
    obtain ⟨-, hflags, herr, -⟩ := taskCnt_apart e c
    simp only [List.mem_cons, List.not_mem_nil, or_false] at hf
    rcases hf with rfl | rfl | rfl
    · exact ⟨by simp [Reg.TASK_CNT_OVR], .inr (by simp [Reg.TASK_CNT_ABORTED, Reg.TASK_CNT_OVR])⟩
    · exact ⟨by simp [Reg.TICK_FLAGS_OVERRUN], .inl hflags⟩
    · exact ⟨by simp [Reg.TICK_ERR_CNT_OVR], .inl herr⟩
  obtain ⟨haddr, hapart⟩ := hreg
  obtain ⟨-, -, hloss, -⟩ := endKeeps_counts e c haddr
  rw [t.fld_overrunAborted e c pc haddr, t.fld_abortShown e c pc hloss hapart]

/-- An abort without a latched release leaves the context IDLE, counts in ABORTED, and the engine goes on. -/
theorem Device.overrunAborted_shows (hlatch : d.bit (Reg.TASK_STAT_LATCH e c) = false) :
    (d.overrunAborted e c pc).ctxState e c = 0 ∧ (d.overrunAborted e c pc).relOf e c = none ∧
    (d.overrunAborted e c pc).engState e = d.engState e ∧
    (d.overrunAborted e c pc).fld (Reg.TASK_CNT_ABORTED e c) = min (d.fld (Reg.TASK_CNT_ABORTED e c) + 1) 255 := by
  obtain ⟨hcnt, hloss, -⟩ := taskStat_apart e c
  obtain ⟨-, -, -, -, hstatus⟩ := taskCnt_apart e c
  obtain ⟨-, -, hloss', -⟩ := endKeeps_counts e c (a := Reg.CE_STATUS e) (by simp)
  have hlatch' : (d.abortShown e c pc).bit (Reg.TASK_STAT_LATCH e c) = false := by
    rw [← hlatch, Device.bit, d.fld_abortShown e c pc (f := Reg.TASK_STAT_LATCH e c) hloss (.inl (hcnt e c).symm),
      Device.bit]
  obtain ⟨hstate, -, hrel⟩ := (d.abortShown e c pc).endInst_state e c e.isLt c.isLt
  rw [hlatch', if_neg Bool.false_ne_true] at hstate hrel
  refine ⟨(Device.fld_sluice _ (f := Reg.TASK_STAT_STATE e c) (taskStat_ne_gate e c)).trans hstate, ?_, ?_, ?_⟩
  · rwa [Device.relOf, Device.overrunAborted, Device.sluice_task]
  · exact (d.fld_overrunAborted e c pc (f := Reg.CE_STATUS_STATE e) (by simp [Reg.CE_STATUS_STATE])).trans
      (d.fld_abortShown e c pc (f := Reg.CE_STATUS_STATE e) hloss' (.inl hstatus))
  · rw [d.fld_overrunAborted e c pc (f := Reg.TASK_CNT_ABORTED e c) (by simp [Reg.TASK_CNT_ABORTED]),
      d.aborted_abortShown]

/-! ## The statement -/

variable (r : Rel)

/-- Once Sluice has acted, the overrun of an instance that goes on leaves what it counted. -/
theorem Device.overran_continues : d.OverrunCounted (d.overran e c r).sluice e c ∧
    d.Logs (d.overran e c r).sluice 0x047 [] ∧ (d.overran e c r).sluice.ctxState e c = d.ctxState e c ∧
    (d.overran e c r).sluice.relOf e c = some { r with late := true } ∧
    d.KeepsRegs (d.overran e c r).sluice (Reg.SF_GATE :: overrunRegs e c) := by
  obtain ⟨-, -, -, hcnt, -⟩ := taskCnt_apart e c
  obtain ⟨-, hstate, -, -⟩ := d.overran_shows e c r
  obtain ⟨hregs, -, -⟩ := ((d.countOverrun_plain e c).soft.trans
    ((d.overran_soft e c r).mono fun _ => False.elim)).quiet
  refine ⟨(d.overran_counted e c r).kept (fun f hf => Device.fld_sluice _ ?_) ⟨by simp, by simp, by simp⟩ (by simp),
    (d.countOverrun_logs e c).congr (by rw [Device.sluice_evr, d.overran_evr]),
    (Device.fld_sluice _ (f := Reg.TASK_STAT_STATE e c) (taskStat_ne_gate e c)).trans hstate, ?_, hregs⟩
  · simp only [List.mem_cons, List.not_mem_nil, or_false] at hf
    rcases hf with rfl | rfl | rfl
    · exact hcnt
    · decide
    · decide
  · rw [Device.relOf, Device.sluice_task]
    exact d.relOf_overran e c r

end

/-- Settles O31: the overrun counts before its reaction, and neither reaction writes what has counted. -/
theorem deadlineOverruns : Obligations.DeadlineOverruns := by
  intro s e c r hrun hrel hlate hdue counted
  have hcounted {t : Device} (h : s.dev.OverrunCounted t e c) : counted t := ⟨h.task, h.flag, h.tick, h.mem, h.ce⟩
  have hexec : exec (.deadlineOverrun e c false) s = run (fun d => d.deadline e c false) s := rfl
  have hpassed := Device.deadline_passed hrun hrel hlate hdue
  obtain ⟨hstate, -, hlatch, hreact⟩ := s.dev.overran_shows e c r
  refine ⟨fun h0 => ?_, fun h1 hl => ?_⟩
  · obtain ⟨hcount, hshows⟩ := s.dev.overran_continues e c r
    exact completes_run hexec (hpassed.trans (Device.overrunReact_continue (hreact.trans h0)))
      ⟨hcounted hcount, hshows⟩
  · obtain ⟨pc, hpc⟩ := Device.overrunReact_abort (hreact.trans h1)
    obtain ⟨hctx, hnone, heng, habort⟩ := (s.dev.overran e c r).overrunAborted_shows e c pc (hlatch.trans hl)
    have hcount := (s.dev.overran_counted e c r).aborted pc
    exact completes_run hexec (hpassed.trans hpc) ⟨hcounted hcount, hctx, hnone,
      heng.trans (hstate.trans hrun), habort.trans (by rw [s.dev.aborted_overran])⟩

end Sys2Proof.Machine
end

section
/-! SUPPORT. The command TRIGGER (R178, R202): what a release does to a context of an engine in RUN that is IDLE or
PENDING, and the statement about the command. -/

namespace Sys2Proof.Machine

/-! ## Releases of an engine in RUN (R178) -/

section
variable {d : Device} {e c : Nat} {r : Rel} (hrun : d.engState e = 3)
include hrun

theorem Device.release_running : ¬(d.engState e = stStopped ∨ d.engState e = stFault) ∧
    ¬(d.engState e ≠ stRun ∧ d.engState e ≠ stHalted) := by
  rw [hrun]
  decide

/-- An IDLE context becomes PENDING with the release. -/
theorem Device.release_idle (h0 : d.ctxState e c = 0) :
    d.release e c r = (d.setF (Reg.TASK_STAT_STATE e c) 1).setRel e c (some r) := by
  obtain ⟨hstop, hready⟩ := Device.release_running hrun
  rw [Device.release, if_neg hstop, if_neg hready, if_pos h0]

/-- A PENDING context drops a release that is not periodic. -/
theorem Device.release_waiting (h1 : d.ctxState e c = 1) (hkind : r.kind ≠ 0) :
    d.release e c r = d.dropRelease e c r.source := by
  obtain ⟨hstop, hready⟩ := Device.release_running hrun
  rw [Device.release, if_neg hstop, if_neg hready]
  simp [h1, hkind]

end

section
variable (d : Device) (e : Eng) (c : CtxNo)

theorem Device.setPending_shows (r : Rel) :
    ((d.setF (Reg.TASK_STAT_STATE e c) 1).setRel e c (some r)).ctxState e c = 1 ∧
    ((d.setF (Reg.TASK_STAT_STATE e c) 1).setRel e c (some r)).relOf e c = some r := by
  refine ⟨(Device.fld_setRel _ _ _ _ _).trans (Device.fld_setF_same _ _ _ (by simp [Reg.TASK_STAT_STATE])), ?_⟩
  simp only [Device.relOf, Device.setRel, sget_sput_same]

/-- A dropped release counts in DROP, is recorded, and leaves the context its release. -/
theorem Device.dropRelease_shows (src : Nat) :
    (d.dropRelease e c src).fld (Reg.TASK_CNT_DROP e c) = min (d.fld (Reg.TASK_CNT_DROP e c) + 1) 255 ∧
    (d.dropRelease e c src).relOf e c = d.relOf e c ∧
    d.Logs (d.dropRelease e c src) 0x0C5 [wd (16 * e + c), wd src] := by
  obtain ⟨hloss, -⟩ := taskCnt_apart e c
  have hcode : Reg.EVR_CODE 0x0C5 ≠ Reg.TASK_CNT e c := by simp only [Reg.EVR_CODE, Reg.TASK_CNT]; omega
  refine ⟨?_, ?_, d.raise_logs _ 0x0C5 _ (d.rd_inc_other (f := Reg.TASK_CNT_DROP e c) hcode) (by simp) (by simp)⟩
  · rw [Device.dropRelease, Device.fld_raise _ _ _ hloss, Device.fld_task,
      Device.fld_inc_same _ _ (by simp [Reg.TASK_CNT_DROP])]
    rfl
  · simp only [Device.relOf, Device.dropRelease, Device.raise_task, Device.inc_task]

/-! ## The command (R202) -/

/-- The argument of TRIGGER that names context c of engine e. -/
theorem trigger_arg : (BitVec.ofNat 24 (256 * e + c)).toNat = 256 * e.val + c.val := by
  rw [BitVec.toNat_ofNat]
  omega

/-- TRIGGER of context c of engine e releases it, where the context and its engine permit it. -/
theorem Device.cmdTrigger_eq : d.cmdTrigger (BitVec.ofNat 24 (256 * e + c)).toNat =
    d.commandNow portTASK 2 (256 * e + c) (d.rd (Reg.TASK_STAT e c))
      ⟨true, true, d.bit (Reg.TASK_CFG_EN e c) && d.fld (Reg.TASK_CFG_KIND e c) == 1 && d.engState e == stRun
        && d.task.tick1 && !d.voted e⟩ (fun d => d.release e c (d.mkRel e c 6 0 d.ts64 none)) := by
  have heng : (256 * e.val + c.val) / 256 % 32 = e := by omega
  have hctx : (256 * e.val + c.val) % 16 = c := by omega
  have harg : (decide (256 * e.val + c.val < 2 ^ 13) && decide ((256 * e.val + c.val) / 16 % 16 = 0) &&
      decide (e.val ≤ 23)) = true := by
    simp only [Bool.and_eq_true, decide_eq_true_eq]
    omega
  rw [trigger_arg]
  simp only [Device.cmdTrigger, heng, hctx, harg]

/-- The release that TRIGGER makes. -/
def Device.triggerRel (d : Device) (e c : Nat) : Rel := d.mkRel e c 6 0 d.ts64 none

end

/-- A command is what its effect on the device of the state is. -/
theorem run_congr {f g : Device → Device} {s : State} (h : f s.dev = g s.dev) : run f s = run g s := by
  rw [run, h, run]

/-- A context that TRIGGER may release. -/
structure Device.Triggers (d : Device) (e : Eng) (c : CtxNo) : Prop where
  enabled : d.bit (Reg.TASK_CFG_EN e c) = true
  event : d.fld (Reg.TASK_CFG_KIND e c) = 1
  runs : d.engState e = 3
  tick1 : d.task.tick1 = true
  single : d.voted e = false

/-- TRIGGER ends with code 0 and leaves what its release leaves. -/
theorem Device.Triggers.done {s : State} {e : Eng} {c : CtxNo} (h : s.dev.Triggers e c) {t : Device} {P : Device → Prop}
    (hrel : s.dev.release e c (s.dev.triggerRel e c) = t)
    (hstat : t.rd Reg.TASK_CMD_STATUS = s.dev.rd Reg.TASK_CMD_STATUS) (hP : P (t.endCmd portTASK 0).sluice) :
    Done (.trigger (BitVec.ofNat 24 (256 * e + c))) s portTASK P := by
  obtain ⟨hen, hkind, hrun, htick, hvoted⟩ := h
  subst hrel
  have hexec : exec (.trigger (BitVec.ofNat 24 (256 * e + c))) s =
      run (fun d => d.cmdTrigger (BitVec.ofNat 24 (256 * e + c)).toNat) s := rfl
  refine done_now (hexec.trans (run_congr (g := fun d => d.commandNow _ _ _ _ _ _) (s.dev.cmdTrigger_eq e c)))
    rfl rfl ?_ (by decide) (Device.fld_congr hstat) hP
  simp [hen, hkind, hrun, htick, hvoted, stRun]

section
variable {d t : Device} {l : List Nat} (h : d.Soft (· ∈ l) t)
include h

/-- The end of a command after work of the tasks block. -/
theorem Device.Soft.taskEnded : d.KeepsRegs (t.endCmd portTASK 0).sluice (Reg.SF_GATE :: Reg.TASK_CMD_STATUS :: l) ∧
    d.KeepsMem (t.endCmd portTASK 0).sluice ∧ (t.endCmd portTASK 0).sluice.ce = d.ce :=
  ((h.mono fun _ => List.mem_cons_of_mem _).trans (Device.plain_endCmd _ _ 0 List.mem_cons_self).soft).quiet

end

/-- The end of the command and Sluice leave the registers of tasks. -/
theorem Device.fld_taskEnded (t : Device) {f : Fld} (h : f.addr < Reg.TASK_CMD_STATUS) :
    (t.endCmd portTASK 0).sluice.fld f = t.fld f := by
  have hgate : f.addr ≠ Reg.SF_GATE := by
    simp only [Reg.TASK_CMD_STATUS] at h
    simp only [Reg.SF_GATE]
    omega
  rw [Device.fld_sluice _ hgate, Device.fld_endCmd _ _ _ (Nat.ne_of_lt h)]

theorem Device.relOf_taskEnded (t : Device) (e c : Nat) : (t.endCmd portTASK 0).sluice.relOf e c = t.relOf e c := by
  simp only [Device.relOf, Device.sluice_task, Device.endCmd_task]

/-- Settles O32, by the state of the context that the release meets. -/
theorem triggerReleases : Obligations.TriggerReleases := by
  intro s e c hen hkind hrun htick hvoted
  have htrig : s.dev.Triggers e c := ⟨hen, hkind, hrun, htick, hvoted⟩
  have hstat : Reg.TASK_STAT e c < Reg.TASK_CMD_STATUS := by simp only [Reg.TASK_STAT, Reg.TASK_CMD_STATUS]; omega
  have hcnt : Reg.TASK_CNT e c < Reg.TASK_CMD_STATUS := by simp only [Reg.TASK_CNT, Reg.TASK_CMD_STATUS]; omega
  refine ⟨fun h0 => ?_, fun h1 => ?_⟩
  · have hsoft : s.dev.Soft (· ∈ [Reg.TASK_STAT e c]) ((s.dev.setF (Reg.TASK_STAT_STATE e c) 1).setRel e c
        (some (s.dev.triggerRel e c))) :=
      (Device.soft_setF _ _ (by simp [Reg.TASK_STAT_STATE])).trans (Device.soft_setRel _ _ _ _)
    obtain ⟨hstate, hrel⟩ := s.dev.setPending_shows e c (s.dev.triggerRel e c)
    refine htrig.done (Device.release_idle hrun h0) (hsoft.regs _ (by simpa using Nat.ne_of_gt hstat))
      ⟨?_, ?_, hsoft.taskEnded⟩
    · exact (Device.fld_taskEnded _ (f := Reg.TASK_STAT_STATE e c) hstat).trans hstate
    · exact ⟨_, (Device.relOf_taskEnded _ _ _).trans hrel, rfl, rfl, rfl⟩
  · have hsoft : s.dev.Soft (· ∈ [Reg.TASK_CNT e c, Reg.EVR_LOSS]) (s.dev.dropRelease e c 0) :=
      s.dev.soft_dropRelease e c 0 (by simp) (by simp)
    have hother : Reg.TASK_CMD_STATUS ∉ [Reg.TASK_CNT e c, Reg.EVR_LOSS] := by
      simp only [List.mem_cons, List.not_mem_nil, or_false, not_or]
      exact ⟨Nat.ne_of_gt hcnt, by decide⟩
    obtain ⟨hdrop, hrel, hlogs⟩ := s.dev.dropRelease_shows e c 0
    have hstate := (s.dev.pends_dropRelease e c e c 0).pending h1
    have hevent : (s.dev.triggerRel e c).kind ≠ 0 := by simp [Device.triggerRel, Device.mkRel]
    refine htrig.done (t := s.dev.dropRelease e c 0) (Device.release_waiting hrun h1 hevent) (hsoft.regs _ hother)
      ⟨?_, ?_, ?_, ?_, hsoft.taskEnded⟩
    · exact (Device.fld_taskEnded _ (f := Reg.TASK_STAT_STATE e c) hstat).trans hstate
    · exact (Device.fld_taskEnded _ (f := Reg.TASK_CNT_DROP e c) hcnt).trans hdrop
    · exact (Device.relOf_taskEnded _ _ _).trans hrel
    · exact hlogs.congr (by simp)

end Sys2Proof.Machine
end

section
/-! SUPPORT. Delivery in the lane roles (R193–R195): what grid points and the samples of other lanes leave, what an
engine delivers at its mark, and what an unagreed flag leaves, and the statement about them. -/

namespace Sys2Proof.Machine

/-! ## Work at a grid point -/

/-- The device t differs from d in the agreed set, the marks and flags, and as lane work does: the grid point and its
samples, memories and engines are as they were. -/
structure Device.GridWork (d t : Device) : Prop where
  mem : d.KeepsMem t
  ce : t.ce = d.ce
  point : t.task.gridPoint = d.task.gridPoint
  own : t.task.ownSample = d.task.ownSample
  peers : t.task.peerSample = d.task.peerSample

namespace Device.GridWork

theorem refl (d : Device) : d.GridWork d := ⟨⟨rfl, rfl, rfl⟩, rfl, rfl, rfl, rfl⟩

theorem trans {d t u : Device} (h : d.GridWork t) (g : t.GridWork u) : d.GridWork u :=
  ⟨h.mem.trans g.mem, g.ce.trans h.ce, g.point.trans h.point, g.own.trans h.own, g.peers.trans h.peers⟩

theorem ite {d t u : Device} {p : Prop} [Decidable p] (h : d.GridWork t) (g : d.GridWork u) :
    d.GridWork (if p then t else u) := by split <;> assumption

theorem of_lane {d t : Device} (h : d.LaneWork t) : d.GridWork t := by
  obtain ⟨r, v, s, f, k, g, m, hform⟩ := h.form
  exact ⟨h.keepsMem, h.ce, by rw [hform], by rw [hform], by rw [hform]⟩

/-- After Sluice has acted. -/
theorem sluice {d t : Device} (h : d.GridWork t) : d.GridWork t.sluice :=
  h.trans ⟨⟨by simp, by simp, by simp⟩, by simp, by simp, by simp, by simp⟩

end Device.GridWork

section
variable (d : Device)

theorem Device.laneWork_gotParcel (p : Nat) : d.LaneWork (d.gotParcel p) :=
  (d.laneWork_setKlPort _ _).trans (Device.laneWork_parcelOut _ _ _ _)

theorem Device.laneWork_markMissed (e m : Nat) : d.LaneWork (d.markMissed e m) :=
  .ite ((d.laneWork_raise _ _).trans (Device.laneWork_exclude _ _ _)) (.refl d)

/-- The mark of an engine at a grid point. -/
def Device.setMark (d : Device) (e m : Nat) : Device :=
  { d with task := { d.task with mark := sput noMark d.task.mark e (some m) } }

/-- Engine e takes its mark from the samples of a grid point, if it is voted, and may have missed it (R193, R194). -/
def Device.markTurn (samples : List (Option GridSample)) (e : Nat) (d : Device) : Device :=
  if d.voted e then
    let m := topCount e samples + max 1040 (d.fld Reg.TASK_GRID_CFG_SLACK)
    if m < (d.setMark e m).retired e then (d.setMark e m).markMissed e m else d.setMark e m
  else d

theorem Device.gridWork_markTurn (samples : List (Option GridSample)) (e : Nat) : d.GridWork (d.markTurn samples e) := by
  have hmark (m : Nat) : d.GridWork (d.setMark e m) := ⟨⟨rfl, rfl, rfl⟩, rfl, rfl, rfl, rfl⟩
  exact .ite (.ite ((hmark _).trans (.of_lane (Device.laneWork_markMissed _ _ _))) (hmark _)) (.refl d)

/-- The agreed set is formed, then each engine takes its mark. -/
theorem Device.formGrid_eq :
    ∃ agreed samples, d.formGrid = forN 24 (Device.markTurn samples) agreed ∧ d.GridWork agreed :=
  ⟨_, _, rfl, ⟨rfl, rfl, rfl⟩, rfl, rfl, rfl, rfl⟩

theorem Device.gridWork_formGrid : d.GridWork d.formGrid := by
  obtain ⟨agreed, samples, hform, hwork⟩ := d.formGrid_eq
  rw [hform]
  exact hwork.trans (forN_rel .refl .trans 24 (fun e _ x => x.gridWork_markTurn samples e) agreed)

/-- The own sample is sent while the lane votes, and the agreed set is formed once every sample is there. -/
theorem Device.gridWork_sampled (l : List Byte) {t : Device} (ht : (if d.votesSelf then d.ring pGRID l else d) = t) :
    d.GridWork (if t.gridComplete then t.formGrid else t) := by
  subst ht
  exact .trans (.ite (.of_lane (d.laneWork_ring _ _)) (.refl d)) (.ite (Device.gridWork_formGrid _) (.refl _))

/-- With the last sample that arrives the agreed set is formed, once in a grid point. -/
theorem Device.gridWork_arrived :
    d.GridWork (if d.gridComplete && !d.task.gridFormed && d.task.ownSample.isSome then d.formGrid else d) :=
  .ite d.gridWork_formGrid (.refl d)

end

/-- A grid point of a lane. -/
theorem gridPoint_completes {s : State} (hlane : s.dev.isLane = true) (j : Nat) : Completes (.gridPoint j) s (fun t =>
    t.task.gridPoint = j ∧ t.task.ownSample = some ⟨s.dev.task.flags,
      ((List.range 24).filter (fun e => s.dev.voted e)).map (fun e => (e, s.dev.retired e))⟩ ∧ s.dev.KeepsMem t ∧
    s.dev.KeepsCells t) := by
  have hexec : exec (.gridPoint j) s = execGridPoint j s := rfl
  rw [execGridPoint] at hexec
  refine completes_run hexec (if_neg (by simp [hlane])) ?_
  obtain ⟨⟨hmem, hlarea, hprog⟩, hce, hpoint, hown, -⟩ := (Device.gridWork_sampled _ _ rfl).sluice
  exact ⟨hpoint, hown, ⟨hmem, hlarea, hprog⟩, .of_ce hce⟩

/-- Another lane's sample arrives on a ring port. -/
theorem gridParcel_completes {s : State} {port lane : Fin 3} (hlane : s.dev.isLane = true) (hport : port.val ≠ 2)
    (hother : lane.val ≠ s.dev.lane) (flags : List Nat) (counts : List (Nat × Nat)) :
    Completes (.gridParcelReceived port lane flags counts) s (fun t =>
      sget noSample t.task.peerSample lane = some ⟨flags, counts⟩ ∧ s.dev.KeepsMem t ∧ s.dev.KeepsCells t) := by
  have hexec : exec (.gridParcelReceived port lane flags counts) s =
      execGridParcelReceived port lane flags counts s := rfl
  rw [execGridParcelReceived] at hexec
  refine completes_run hexec (if_neg (by simp [hlane, hport, hother])) ?_
  have hgot := s.dev.laneWork_gotParcel port
  obtain ⟨⟨hmem, hlarea, hprog⟩, hce, -, -, hpeers⟩ := (Device.gridWork_arrived _).sluice
  refine ⟨?_, hgot.keepsMem.trans ⟨hmem, hlarea, hprog⟩, .of_ce (hce.trans hgot.ce)⟩
  rw [hpeers]
  exact sget_sput_same noSample (s.dev.gotParcel port).task.peerSample lane (some ⟨flags, counts⟩)

/-! ## Delivery at a mark (R194) -/

/-- The device once engine e has no mark to come. -/
def Device.markDone (d : Device) (e : Nat) : Device :=
  { d with task := { d.task with mark := sput noMark d.task.mark e none } }

section
variable {s : State} {e : Eng} {m : Nat} (hm : sget noMark s.dev.task.mark e = some m) {P : Device → Prop}
include hm

/-- At its mark an engine delivers the releases of the boundary, then those of the agreed sources. -/
theorem gridDelivery_atMark (hcount : s.dev.retired e = m)
    (hP : P (((s.dev.markDone e).deliverTick e s.dev.task.boundarySet).deliverEvents e s.dev.task.agreedSet).sluice) :
    Completes (.gridDelivery e) s P := by
  have hexec : exec (.gridDelivery e) s = execGridDelivery e s := rfl
  rw [execGridDelivery] at hexec
  refine completes_run hexec ?_ hP
  simp only [hm]
  exact if_pos (.inl hcount)

/-- A lane past the mark of an engine has missed it, unless it is in SHADOW. -/
theorem gridDelivery_missed (hcount : m < s.dev.retired e) (hshadow : s.dev.fld Reg.TRI_LANE_STAT_STATE ≠ 4)
    (hP : P ((s.dev.markDone e).markMissed e m).sluice) : Completes (.gridDelivery e) s P := by
  have hexec : exec (.gridDelivery e) s = execGridDelivery e s := rfl
  rw [execGridDelivery] at hexec
  refine completes_run hexec ?_ hP
  simp only [hm]
  refine (if_neg ?_).trans (if_pos hcount)
  rintro (hat | ⟨hbelow, -⟩ | ⟨-, hsh⟩)
  · omega
  · omega
  · exact hshadow (beq_iff_eq.mp hsh)

end

section
variable (d : Device) (e : Eng) (c : CtxNo)

/-- The one release of the boundary is delivered to its engine. -/
theorem Device.deliverTick_single (r : Rel) : d.deliverTick e [(16 * e.val + c.val, r)] = d.release e c r := by
  have heng : (16 * e.val + c.val) / 16 = e := by omega
  have hctx : (16 * e.val + c.val) % 16 = c := by omega
  simp only [Device.deliverTick, heng, hctx, if_true]

/-- A lane that has missed a mark is EXCLUDED. -/
theorem Device.markMissed_excluded (e m : Nat) (hv : d.votesSelf = true) : (d.markMissed e m).laneState d.lane = 3 := by
  have hrd {a : Nat} (ha : a ≠ Reg.EVR_LOSS) :
      (d.raise 0x0C7 [wd e, wd m, d.rd (Reg.TASK_ENG_RETIRED_LO e)]).rd a = d.rd a := Device.rd_raise _ _ _ ha
  obtain ⟨hlane, hl, hv'⟩ := Device.votesSelf_congr (hrd (by decide)) (hrd (by decide))
  have hself (x : Device) (hx : x.votesSelf = true) : x.exclude x.lane 3 = x.excludeSelf 3 := by
    simp only [Device.votesSelf, Bool.and_eq_true] at hx
    rw [Device.excludeSelf, if_pos hx.1]
  rw [Device.markMissed, if_pos hv, ← hl, hself _ (hv'.trans hv)]
  exact (Device.excludeSelf_shows (hv'.trans hv) (by decide)).1

end

/-- An agreed release takes effect at its engine's mark. -/
theorem gridDelivery_releases {s : State} {e : Eng} {c : CtxNo} {r : Rel} {m : Nat}
    (hm : sget noMark s.dev.task.mark e = some m) (hcount : s.dev.retired e = m)
    (hset : s.dev.task.boundarySet = [(16 * e.val + c.val, r)]) (hagreed : s.dev.task.agreedSet = [])
    (hrun : s.dev.engState e = 3) (h0 : s.dev.ctxState e c = 0) : Completes (.gridDelivery e) s (fun t =>
      t.ctxState e c = 1 ∧ t.relOf e c = some r ∧ sget noMark t.task.mark e = none ∧
      s.dev.KeepsRegs t [Reg.SF_GATE, Reg.TASK_STAT e c] ∧ s.dev.KeepsMem t ∧ t.ce = s.dev.ce) := by
  refine gridDelivery_atMark hm hcount ?_
  rw [hset, hagreed, Device.deliverTick_single, Device.deliverEvents,
    Device.release_idle (d := s.dev.markDone e) hrun h0]
  obtain ⟨hstate, hrel⟩ := (s.dev.markDone e).setPending_shows e c r
  have hsoft : s.dev.Soft (· ∈ [Reg.TASK_STAT e c])
      (((s.dev.markDone e).setF (Reg.TASK_STAT_STATE e c) 1).setRel e c (some r)) :=
    ((s.dev.soft_task _).trans (Device.soft_setF _ _ (by simp [Reg.TASK_STAT_STATE]))).trans
      (Device.soft_setRel _ _ _ _)
  refine ⟨(Device.fld_sluice _ (f := Reg.TASK_STAT_STATE e c) (taskStat_ne_gate e c)).trans hstate, ?_, ?_, hsoft.quiet⟩
  · rwa [Device.relOf, Device.sluice_task]
  · rw [Device.sluice_task]
    exact sget_sput_same noMark s.dev.task.mark e none

/-- A lane that is past the mark of an engine is excluded (R194). -/
theorem gridDelivery_excludes {s : State} {e : Eng} {m : Nat} (hm : sget noMark s.dev.task.mark e = some m)
    (hcount : m < s.dev.retired e) (hv : s.dev.votesSelf = true) (hshadow : s.dev.fld Reg.TRI_LANE_STAT_STATE ≠ 4) :
    Completes (.gridDelivery e) s (fun t => t.laneState s.dev.lane = 3 ∧ s.dev.KeepsMem t) := by
  obtain ⟨⟨hmem, hlarea, hprog⟩, -⟩ := ((s.dev.markDone e).laneWork_markMissed e m).quiet
  refine gridDelivery_missed hm hcount hshadow ⟨(Device.fld_sluice _ (by rw [laneFld_addr]; decide)).trans
    ((s.dev.markDone e).markMissed_excluded e m hv),
    ⟨hmem, hlarea, hprog⟩⟩

/-! ## Unagreed flags (R195) -/

theorem flagUnagreed_completes {s : State} {src : Fin 256} (hage : 3 ≤ sget zeroAt s.dev.task.flagAge src)
    (hflag : src.val ∈ s.dev.task.flags) : Completes (.flagUnagreed src) s (fun t =>
      src.val ∉ t.task.flags ∧ (∀ f, f ≠ src.val → (f ∈ t.task.flags ↔ f ∈ s.dev.task.flags)) ∧
      t.fld Reg.TASK_GRID_STAT_UNAGREED = min (s.dev.fld Reg.TASK_GRID_STAT_UNAGREED + 1)
        (2 ^ Reg.TASK_GRID_STAT_UNAGREED.width - 1) ∧
      s.dev.KeepsRegs t [Reg.SF_GATE, Reg.TASK_GRID_STAT, Reg.EVR_LOSS] ∧ s.dev.KeepsMem t ∧ t.ce = s.dev.ce) := by
  have hexec : exec (.flagUnagreed src) s = execFlagUnagreed src s := rfl
  rw [execFlagUnagreed] at hexec
  refine completes_run hexec (if_pos ⟨hage, by simpa using hflag⟩) ⟨?_, ?_, ?_, ?_⟩
  · simp
  · intro f hf
    simp [hf]
  · rw [Device.fld_sluice _ (by decide), Device.fld_raise _ _ _ (by decide), Device.fld_inc_same _ _ (by decide)]
    rfl
  · exact (((Device.soft_task _ _).trans (Device.soft_inc _ (by decide))).trans
      (Device.soft_raise _ _ _ (by decide))).quiet

/-- Settles O33, clause by clause: a grid point, a sample, an engine at its mark and past it, and an unagreed flag. -/
theorem gridDelivery : Obligations.GridDelivery := fun _ hlane =>
  ⟨gridPoint_completes hlane, fun _ _ flags counts hport hother => gridParcel_completes hlane hport hother flags counts,
    fun _ _ _ _ => gridDelivery_releases, fun _ _ => gridDelivery_excludes, fun _ => flagUnagreed_completes⟩

end Sys2Proof.Machine
end

section
/-! SUPPORT. The force commands (R214, R216, R231): a change of the image state beside registers, how a command of the
images begins and ends, and the statement about the force commands. -/

namespace Sys2Proof.Machine

/-! ## A change of the image state -/

/-- The device with the image state g. -/
def Device.withImg (d : Device) (g : ImgState) : Device := { d with img := g }

@[simp] theorem Device.withImg_rd (d : Device) (g : ImgState) (a : Nat) : (d.withImg g).rd a = d.rd a := by
  simp only [Device.withImg, Device.rd]
@[simp] theorem Device.withImg_fld (d : Device) (g : ImgState) (f : Fld) : (d.withImg g).fld f = d.fld f := by
  simp only [Device.fld, Device.withImg_rd]
@[simp] theorem Device.withImg_img (d : Device) (g : ImgState) : (d.withImg g).img = g := by
  simp only [Device.withImg]
@[simp] theorem Device.withImg_evr (d : Device) (g : ImgState) : (d.withImg g).evr = d.evr := by
  simp only [Device.withImg]
@[simp] theorem Device.withImg_sys (d : Device) (g : ImgState) : (d.withImg g).sys = d.sys := by
  simp only [Device.withImg]

/-- A change of registers and the recorder is the same beside any image state. -/
theorem Device.Plain.withImg {R : Nat → Prop} {d t : Device} (h : d.Plain R t) (g : ImgState) :
    (d.withImg g).Plain R (t.withImg g) := by
  obtain ⟨r, v, rfl⟩ := h.form
  exact ⟨⟨r, v, rfl⟩, h.regs⟩

/-- The image state changes, then registers of a list: memories and engines are as they were. -/
theorem Device.Plain.quiet_img {d t : Device} {g : ImgState} {l : List Nat}
    (h : (d.withImg g).Plain (· ∈ l) t) :
    t.sluice.img = g ∧ d.KeepsRegs t.sluice (Reg.SF_GATE :: l) ∧ d.KeepsMem t.sluice ∧ t.sluice.ce = d.ce := by
  obtain ⟨hregs, ⟨hmem, hlarea, hprog⟩, hce⟩ := h.soft.quiet
  obtain ⟨r, v, hform⟩ := h.form
  exact ⟨by simp [hform], hregs, ⟨hmem, hlarea, hprog⟩, hce⟩

/-! ## Commands that stay BUSY or were BUSY -/

/-- What the start of a command leaves in CMD_STATUS (R28). -/
theorem Device.beginCmd_shows (d : Device) (p : Port) :
    (d.beginCmd p).fld p.busy = 1 ∧ (d.beginCmd p).fld p.code = 1 := by
  refine ⟨?_, ?_⟩
  · rw [Device.beginCmd, Device.fld_setF_other _ _ (.inr (by simp [Port.code, Port.busy]))]
    exact d.fld_setF_same _ _ (by simp [Port.busy])
  · exact Device.fld_setF_same _ _ _ (by simp [Port.code])

/-- A command that starts stays BUSY where its effect leaves CMD_STATUS alone. -/
theorem begun_run {i : Instr} {s : State} {p : Port} {f : Device → Device} {t : Device} {P : Device → Prop}
    (hx : exec i s = run f s) (hf : s.dev.fld p.busy = 0 → f s.dev = t) (hp : p.stat ≠ Reg.SF_GATE)
    (hstat : t.rd p.stat = (s.dev.beginCmd p).rd p.stat) (hP : P t.sluice) : Begun i s p P := by
  intro hb
  have hshow (g : Fld) (hg : g.addr = p.stat) : t.sluice.fld g = (s.dev.beginCmd p).fld g :=
    (Device.fld_sluice _ (hg ▸ hp)).trans (Device.fld_congr (hg ▸ hstat))
  obtain ⟨hbusy, hcode⟩ := s.dev.beginCmd_shows p
  exact completes_run hx (hf hb) ⟨(hshow p.busy rfl).trans hbusy, (hshow p.code rfl).trans hcode, hP⟩

/-- A command that was BUSY ends with its code where what it did left CMD_STATUS alone. -/
theorem Device.finishCmd_ended {d t : Device} {p : Port} {code : Nat} (hp : p.stat ≠ Reg.SF_GATE) (hc : code < 8)
    (hstat : t.rd p.stat = d.rd p.stat) (hb : d.fld p.busy = 1) : (t.finishCmd p code).sluice.Ended d p code := by
  have hshow (g : Fld) (hg : g.addr = p.stat) : t.fld g = d.fld g := Device.fld_congr (hg ▸ hstat)
  obtain ⟨hbusy, hcode, hseq⟩ := t.endCmd_ended p hp hc
  rw [Device.finishCmd, if_pos (Device.busy_bit ((hshow p.busy rfl).trans hb))]
  exact ⟨hbusy, hcode, hseq.trans (by rw [hshow p.seq rfl])⟩

/-- The end of a command that may run writes its CMD_STATUS alone. -/
theorem Device.plain_finishCmd {R : Nat → Prop} (d : Device) (p : Port) (code : Nat) (h : R p.stat) :
    d.Plain R (d.finishCmd p code) := .ite (d.plain_endCmd p code h) (.refl d)

/-! ## Staged changes (R216) -/

/-- The image state with a change of this device staged. -/
def ImgState.stage (g : ImgState) (x : ForceChg) : ImgState :=
  { g with staged := g.staged ++ [x], stagedOwn := true, stagedAge := 0, confirmed := false }

/-- The image state with no change staged. -/
def ImgState.unstage (g : ImgState) : ImgState := { g with staged := [], stagedOwn := false, stagedAge := 0 }

/-- What a force command that is staged leaves: FORCE_PEND and the staged change, with the force table as it was. -/
def Device.ForceStaged (d t : Device) (x : ForceChg) : Prop :=
  t.img.staged = d.img.staged ++ [x] ∧ t.img.stagedOwn = true ∧ t.bit Reg.IMG_STAT_FORCE_PEND = true ∧
    t.img.force = d.img.force ∧ d.KeepsRegs t [Reg.SF_GATE, Reg.IMG_CMD_STATUS, Reg.IMG_STAT] ∧ d.KeepsMem t ∧
    t.ce = d.ce

/-- The device with a command of the images under way and FORCE_PEND set. -/
def Device.forcePending (d : Device) : Device := (d.beginCmd portIMG).setF Reg.IMG_STAT_FORCE_PEND 1

theorem Device.stageForce_eq (d : Device) (x : ForceChg) :
    d.stageForce x = d.forcePending.withImg (d.img.stage x) := by
  have himg : d.forcePending.img = d.img := by simp [Device.forcePending]
  rw [← himg]
  rfl

theorem Device.stageForce_staged (d : Device) (x : ForceChg) : d.ForceStaged (d.stageForce x).sluice x := by
  have hplain : d.Plain (· ∈ [Reg.IMG_CMD_STATUS, Reg.IMG_STAT]) d.forcePending :=
    (d.plain_beginCmd portIMG (by decide)).trans (Device.plain_setF _ (f := Reg.IMG_STAT_FORCE_PEND) 1 (by decide))
  rw [Device.stageForce_eq]
  obtain ⟨himg, hregs, hmem, hce⟩ := (hplain.withImg (d.img.stage x)).quiet_img
  refine ⟨by rw [himg]; rfl, by rw [himg]; rfl, ?_, by rw [himg]; rfl, hregs, hmem, hce⟩
  rw [Device.bit, Device.fld_sluice _ (by decide), Device.withImg_fld, Device.forcePending,
    Device.fld_setF_same _ _ _ (by decide)]
  rfl

/-- A command whose effect is to stage a change. -/
theorem begun_stageForce {i : Instr} {s : State} {f : Device → Device} {x : ForceChg} (hx : exec i s = run f s)
    (hf : s.dev.fld portIMG.busy = 0 → f s.dev = s.dev.stageForce x) :
    Begun i s portIMG (fun t => s.dev.ForceStaged t x) := by
  refine begun_run hx hf (by decide) ?_ (s.dev.stageForce_staged x)
  rw [Device.stageForce_eq, Device.withImg_rd, Device.forcePending, Device.rd_setF_other _ _ (by decide)]

/-! ## The commands (R231) -/

/-- The argument of a force command that names entry n. -/
theorem forceArg_toNat (n : Fin 1024) : (BitVec.ofNat 24 n).toNat = n := by
  rw [BitVec.toNat_ofNat]
  omega

theorem begun_forceSet {s : State} (n : Fin 1024) (hargs : s.dev.forceArgs = true)
    (hperm : s.dev.permLanes permForce = true)
    (hclash : forceClash s.dev.img.force n (s.dev.rd Reg.IMG_FORCE_ARG0) = false) :
    Begun (.forceSet (BitVec.ofNat 24 n)) s portIMG (fun t =>
      s.dev.ForceStaged t (.set n (s.dev.rd Reg.IMG_FORCE_ARG0) (s.dev.rd Reg.IMG_FORCE_ARG1))) := by
  refine begun_stageForce (f := fun d => d.cmdForceSet (BitVec.ofNat 24 n).toNat) rfl fun hb => ?_
  rw [forceArg_toNat, Device.cmdForceSet]
  refine s.dev.command_ok _ _ _ _ _ _ hb ?_ hperm ?_
  · simp [hargs]
  · simp [hclash]

/-- FORCE_CLEAR of an entry with a free command register goes on by whether the entry is in force. -/
theorem Device.cmdForceClear_ok {d : Device} (hb : d.fld portIMG.busy = 0) (n : Fin 1024) :
    d.cmdForceClear (BitVec.ofNat 24 n).toNat =
      if (sget noForce d.img.force n).isSome then d.stageForce (.clear n) else d.endCmd portIMG 0 := by
  rw [forceArg_toNat]
  exact d.command_ok _ _ _ _ _ _ hb (by simp) rfl rfl

theorem begun_forceClear {s : State} (n : Fin 1024) (h : sget noForce s.dev.img.force n ≠ none) :
    Begun (.forceClear (BitVec.ofNat 24 n)) s portIMG (fun t => s.dev.ForceStaged t (.clear n)) :=
  begun_stageForce (f := fun d => d.cmdForceClear (BitVec.ofNat 24 n).toNat) rfl fun hb =>
    (Device.cmdForceClear_ok hb n).trans (if_pos (Option.isSome_iff_ne_none.mpr h))

/-- FORCE_CLEAR of an entry that is not in force is done at once. -/
theorem done_forceClear {s : State} (n : Fin 1024) (h : sget noForce s.dev.img.force n = none) :
    Done (.forceClear (BitVec.ofNat 24 n)) s portIMG (fun t => s.dev.Writes t [Reg.IMG_CMD_STATUS]) := fun hb =>
  completes_run (f := fun d => d.cmdForceClear (BitVec.ofNat 24 n).toNat) rfl
    ((Device.cmdForceClear_ok hb n).trans (if_neg (by simp [h])))
    ⟨s.dev.endCmd_ended portIMG (by decide) (by decide), (s.dev.plain_endCmd portIMG 0 (by decide)).writes⟩

theorem begun_forceClearAll (s : State) :
    Begun (.forceClearAll 0) s portIMG (fun t => s.dev.ForceStaged t (.clearAll 0)) :=
  begun_stageForce (f := fun d => d.cmdForceClearAll 0) rfl fun hb => s.dev.command_ok _ _ _ _ _ _ hb rfl rfl rfl

/-! ## Changes that are not confirmed (R216) -/

/-- The device once the staged changes are dropped. -/
def Device.forcesDropped (d : Device) : Device :=
  (d.withImg d.img.unstage).setF Reg.IMG_STAT_FORCE_PEND 0

/-- A lane drops the changes that the others do not confirm, and its own command ends with code 6. -/
theorem completes_confirmTimeout {s : State} {P : Device → Prop} (hlane : s.dev.isLane = true)
    (hstaged : s.dev.img.staged ≠ []) (hconf : s.dev.img.confirmed = false) (hage : 4 ≤ s.dev.img.stagedAge)
    (hP : P (if s.dev.img.stagedOwn then s.dev.forcesDropped.finishCmd portIMG 6 else s.dev.forcesDropped).sluice) :
    Completes .forceConfirmTimeout s P := by
  have hexec : exec .forceConfirmTimeout s = execForceConfirmTimeout s := rfl
  rw [execForceConfirmTimeout] at hexec
  exact completes_run hexec (if_pos ⟨hlane, hstaged, by simp [hconf], hage⟩) hP

theorem Device.forcesDropped_shows (d : Device) {t : Device}
    (ht : (if d.img.stagedOwn then d.forcesDropped.finishCmd portIMG 6 else d.forcesDropped) = t) :
    t.sluice.img.staged = [] ∧ t.sluice.bit Reg.IMG_STAT_FORCE_PEND = false ∧ t.sluice.img.force = d.img.force ∧
      (d.img.stagedOwn = true → d.fld portIMG.busy = 1 → t.sluice.Ended d portIMG 6) ∧ d.KeepsMem t.sluice ∧
      t.sluice.ce = d.ce := by
  have hdropped : (d.withImg d.img.unstage).Plain (· ∈ [Reg.IMG_CMD_STATUS, Reg.IMG_STAT])
      d.forcesDropped := Device.plain_setF _ 0 (by decide)
  have hended : d.forcesDropped.Plain (· = portIMG.stat) t := ht ▸ .ite (Device.plain_finishCmd _ _ _ rfl) (.refl _)
  have hpend : t.sluice.fld Reg.IMG_STAT_FORCE_PEND = 0 := by
    rw [Device.fld_sluice _ (by decide), Device.fld_congr (hended.regs _ (by decide)), Device.forcesDropped,
      Device.fld_setF_same _ _ _ (by decide)]
    rfl
  obtain ⟨himg, -, hmem, hce⟩ := (hdropped.trans (hended.mono fun _ h => h ▸ by decide)).quiet_img
  refine ⟨by rw [himg]; rfl, by rw [Device.bit, hpend]; rfl, by rw [himg]; rfl, fun hown hb => ?_, hmem, hce⟩
  rw [← ht, if_pos hown]
  exact Device.finishCmd_ended (by decide) (by decide) (Device.rd_setF_other _ 0 (by decide)) hb

/-- Settles O34: each of the commands stages its change, or has none to stage, and the timeout drops what is staged. -/
theorem forceCommands : Obligations.ForceCommands := by
  intro s staged
  exact ⟨fun n => begun_forceSet n, fun n => begun_forceClear n, fun n => done_forceClear n, begun_forceClearAll s,
    fun hlane hstaged hconf hage => completes_confirmTimeout hlane hstaged hconf hage (s.dev.forcesDropped_shows rfl)⟩

end Sys2Proof.Machine
end

section
/-! SUPPORT. Online change (R221–R226): which program words the load of a package writes, what each command and each
moment of a change leaves, and the statement about them. -/

namespace Sys2Proof.Machine

/-! ## Words of a bank (R114, R223) -/

theorem length_bytesToWords (n : Nat) (l : List Byte) : (bytesToWords n l).length = n := by
  induction n generalizing l with
  | zero => rfl
  | succ n ih => rw [bytesToWords, List.length_cons, ih]

/-- A run of words leaves every word outside it alone. -/
theorem sget_wordsPut_other (m : SMap Word) {k j : Nat} (ws : List Word) (h : j < k ∨ k + ws.length ≤ j) :
    sget (fun _ => 0) (wordsPut m k ws) j = sget (fun _ => 0) m j := by
  induction ws generalizing m k with
  | nil => rfl
  | cons w t ih =>
    rw [List.length_cons] at h
    rw [wordsPut, ih _ (by omega), sget_sput_other _ _ _ (by omega)]

/-- The load of a bank leaves the words of every other bank alone. -/
theorem Device.loadBank_other (d : Device) (e b : Nat) {ws : List Word} (hws : ws.length ≤ 32768) {k : Nat}
    (hk : k / 32768 ≠ 2 * e + b) :
    sget (fun _ => 0) (d.loadBank e b ws).prog k = sget (fun _ => 0) d.prog k := by
  have hout : k < (2 * e + b) * 32768 ∨ (2 * e + b) * 32768 + 32768 ≤ k := by omega
  rw [Device.loadBank, sget_wordsPut_other _ _ (by omega), sget_skeep, if_pos (by simpa using hout)]

/-! ## The load of the banks -/

/-- Word k lies in the bank that engine e of a mask does not run from. -/
def Device.SpareWord (d : Device) (mask k : Nat) : Prop :=
  ∃ e, mask.testBit e = true ∧ k / 32768 = 2 * e + (1 - d.bank e)

/-- The device t differs from d in words of banks that engines of a mask do not run from, and in codeword errors. -/
structure Device.FillsSpares (mask : Nat) (d t : Device) : Prop where
  form : ∃ p x, t = { d with prog := p, ce := { d.ce with ecc := x } }
  keeps : ∀ k, ¬d.SpareWord mask k → sget (fun _ => 0) t.prog k = sget (fun _ => 0) d.prog k

theorem Device.FillsSpares.refl {mask : Nat} (d : Device) : d.FillsSpares mask d :=
  ⟨⟨d.prog, d.ce.ecc, rfl⟩, fun _ _ => rfl⟩

theorem Device.FillsSpares.trans {mask : Nat} {d t u : Device} (h : d.FillsSpares mask t) (g : t.FillsSpares mask u) :
    d.FillsSpares mask u := by
  obtain ⟨p, x, rfl⟩ := h.form
  obtain ⟨q, y, rfl⟩ := g.form
  exact ⟨⟨q, y, rfl⟩, fun k hk => (g.keeps k hk).trans (h.keeps k hk)⟩

/-- Registers, memory, the system and the recorder are as they were. -/
theorem Device.FillsSpares.keepsOthers {mask : Nat} {d t : Device} (h : d.FillsSpares mask t) :
    (∀ a, t.rd a = d.rd a) ∧ t.mem = d.mem ∧ t.larea = d.larea ∧ t.sys = d.sys ∧ t.evr = d.evr := by
  obtain ⟨p, x, rfl⟩ := h.form
  exact ⟨fun _ => rfl, rfl, rfl, rfl, rfl⟩

/-- Every bank that a package brings fits. -/
def BanksFit (l : List Byte) : Prop :=
  ∀ e, e < 24 → (numAt l 12 4).testBit e = true → numAt l (24 + 16 * e + 4) 4 ≤ 131072

theorem Device.fillsSpares_loadBank (d : Device) {mask e : Nat} (he : mask.testBit e = true) {ws : List Word}
    (hws : ws.length ≤ 32768) : d.FillsSpares mask (d.loadBank e (1 - d.bank e) ws) :=
  ⟨⟨_, _, rfl⟩, fun _ hk => d.loadBank_other e _ hws fun h => hk ⟨e, he, h⟩⟩

theorem Device.fillsSpares_olcBanks (d : Device) {l : List Byte} (hfit : BanksFit l) :
    d.FillsSpares (numAt l 12 4) (d.olcBanks l) := by
  refine forN_rel Device.FillsSpares.refl Device.FillsSpares.trans 24 (fun e he x => ?_) d
  split
  · next hmask =>
    refine x.fillsSpares_loadBank hmask ?_
    rw [length_bytesToWords]
    have hlen := hfit e he hmask
    omega
  · exact .refl x

theorem Device.bank_le_one (d : Device) (e : Nat) : d.bank e ≤ 1 := by
  unfold Device.bank b2n
  split <;> decide

/-- The code that an engine runs, and every bank of an engine outside the mask, keep their words. -/
theorem Device.FillsSpares.fetched {mask : Nat} {d t : Device} (h : d.FillsSpares mask t) {e : Nat} {pc : BitVec 16}
    (hkeep : mask.testBit e = false ∨ pc.toNat / 32768 = d.bank e) : t.fetched e pc = d.fetched e pc := by
  refine h.keeps _ ?_
  rintro ⟨e', hmask, hk⟩
  have hpc := pc.isLt
  have hb := d.bank_le_one e'
  obtain rfl : e' = e := by omega
  rcases hkeep with hkeep | hkeep
  · rw [hmask] at hkeep
    exact absurd hkeep (by decide)
  · omega

/-! ## The REASON of a package (R222, R223) -/

/-- A REASON is one of the codes 1 to 7, or 0. -/
theorem Device.olcReason_lt (d : Device) (l : List Byte) (len : Nat) : d.olcReason l len < 8 := by
  simp only [Device.olcReason]
  repeat' split
  all_goals decide

/-- A package without a REASON brings banks that fit. -/
theorem Device.olcReason_fit {d : Device} {l : List Byte} {len : Nat} (h : d.olcReason l len = 0) : BanksFit l := by
  intro e he hmask
  simp only [Device.olcReason, ite_eq_iff, one_ne_zero, OfNat.ofNat_ne_zero, and_false, false_or] at h
  obtain ⟨-, -, -, -, -, hdesc, -⟩ := h
  simp only [not_or, Bool.not_eq_true, Bool.not_eq_false'] at hdesc
  have hok := List.all_eq_true.mp hdesc.2 e (List.mem_range.mpr he)
  simp only [olcDescOk, hmask, if_true, Bool.and_eq_true, decide_eq_true_eq] at hok
  obtain ⟨⟨⟨⟨-, hlen⟩, -⟩, -⟩, -⟩ := hok
  exact hlen

/-! ## OLC_LOAD, OLC_ARM, OLC_DISARM (R223, R225) -/

theorem begun_olcLoad {s : State} (hsrc : (s.dev.rd Reg.IMG_OLC_SRC).toNat % 4 = 0)
    (hperm : s.dev.permLanes permOlc = true) (hst : s.dev.olcState = olcIdle ∨ s.dev.olcState = olcLoaded) :
    Begun (.olcLoad 0) s portIMG (fun t =>
      t.olcState = olcLoading ∧ s.dev.Writes t [Reg.IMG_CMD_STATUS, Reg.IMG_OLC_STAT]) := by
  have hplain : s.dev.Plain (· ∈ [Reg.IMG_CMD_STATUS, Reg.IMG_OLC_STAT])
      ((s.dev.beginCmd portIMG).setF Reg.IMG_OLC_STAT_STATE olcLoading) :=
    (s.dev.plain_beginCmd portIMG (by decide)).trans (Device.plain_setF _ (f := Reg.IMG_OLC_STAT_STATE) _ (by decide))
  refine begun_run (f := fun d => d.cmdOlcLoad 0) rfl (fun hb => s.dev.command_ok _ _ _ _ _ _ hb ?_ hperm ?_)
    (by decide) (Device.rd_setF_other _ _ (by decide)) ⟨?_, hplain.writes⟩
  · simp [hsrc]
  · simpa using hst
  · rw [Device.olcState, Device.fld_sluice _ (by decide), Device.fld_setF_same _ _ _ (by decide)]
    rfl

/-- A state of the online change shows once the command that set it has ended. -/
theorem Device.olcState_ended (d : Device) {st : Nat} (h : st < 8) :
    ((d.setF Reg.IMG_OLC_STAT_STATE st).endCmd portIMG 0).sluice.olcState = st := by
  rw [Device.olcState, Device.fld_sluice _ (by decide), Device.fld_endCmd _ _ _ (by decide),
    Device.fld_setF_same _ _ _ (by decide)]
  exact Nat.mod_eq_of_lt h

/-- A command that is complete at once and passes its checks, from its effect on the device of the state. -/
theorem done_run {i : Instr} {s : State} {p : Port} {op arg : Nat} {w : Word} {k : Checks} {f body : Device → Device}
    {P : Device → Prop} (hx : exec i s = run f s) (hf : f s.dev = s.dev.commandNow p op arg w k body)
    (hk : k = ⟨true, true, true⟩) (hp : p.stat ≠ Reg.SF_GATE) (hstat : (body s.dev).rd p.stat = s.dev.rd p.stat)
    (hP : P ((body s.dev).endCmd p 0).sluice) : Done i s p P := by
  subst hk
  exact done_now (hx.trans (run_congr (g := fun d => d.commandNow p op arg w ⟨true, true, true⟩ body) hf)) rfl rfl rfl
    hp (Device.fld_congr (f := p.seq) hstat) hP

/-- The image state with a target given to its change (R225). -/
def ImgState.aim (g : ImgState) (target : Nat) : ImgState :=
  { g with olc := g.olc.map (fun o => { o with target := target, agreed := false }) }

/-- The state of the online change and the end of the command are all that is written. -/
theorem Device.plain_olcState (d : Device) (st : Nat) : d.Plain (· ∈ [Reg.IMG_CMD_STATUS, Reg.IMG_OLC_STAT])
    ((d.setF Reg.IMG_OLC_STAT_STATE st).endCmd portIMG 0) :=
  (d.plain_setF (f := Reg.IMG_OLC_STAT_STATE) _ (by decide)).trans (Device.plain_endCmd _ portIMG 0 (by decide))

theorem done_olcArm {s : State} {o : Olc}
    (htick : s.dev.tickCount + (if s.dev.isLane then 4 else 2) ≤ s.dev.olcTarget)
    (hperm : s.dev.permLanes permOlc = true) (hst : s.dev.olcState = olcLoaded) (ho : s.dev.img.olc = some o) :
    Done (.olcArm 0) s portIMG (fun t =>
      t.olcState = olcArmed ∧ t.img.olc = some { o with target := s.dev.olcTarget, agreed := false } ∧
      s.dev.KeepsRegs t [Reg.SF_GATE, Reg.IMG_CMD_STATUS, Reg.IMG_OLC_STAT] ∧ s.dev.KeepsMem t ∧ t.ce = s.dev.ce) := by
  obtain ⟨himg, hregs, hmem, hce⟩ :=
    (Device.plain_olcState (s.dev.withImg (s.dev.img.aim s.dev.olcTarget)) olcArmed).quiet_img
  refine done_run (f := fun d => d.cmdOlcArm 0)
    (body := fun d => (d.withImg (d.img.aim d.olcTarget)).setF Reg.IMG_OLC_STAT_STATE olcArmed) rfl rfl ?_
    (by decide) (Device.rd_setF_other _ _ (by decide)) ⟨Device.olcState_ended _ (by decide), ?_, hregs, hmem, hce⟩
  · simp [htick, hperm, hst]
  · rw [himg, ImgState.aim, ho]
    rfl

theorem done_olcDisarm {s : State} (hst : s.dev.olcState = olcArmed) : Done (.olcDisarm 0) s portIMG (fun t =>
    t.olcState = olcLoaded ∧ s.dev.Writes t [Reg.IMG_CMD_STATUS, Reg.IMG_OLC_STAT]) := by
  exact done_run (f := fun d => d.cmdOlcDisarm 0) (body := fun d => d.setF Reg.IMG_OLC_STAT_STATE olcLoaded) rfl rfl
    (by simp [hst]) (by decide) (Device.rd_setF_other _ _ (by decide))
    ⟨s.dev.olcState_ended (by decide), (s.dev.plain_olcState olcLoaded).writes⟩

/-! ## The swap at the target (R226) -/

/-- The registers once the banks of a mask have swapped. -/
def Device.banksSwapped (d : Device) (o : Olc) : Device :=
  ((d.setF Reg.IMG_BANK_CUR (d.fld Reg.IMG_BANK_CUR ^^^ o.mask)).setF Reg.IMG_OLC_STAT_CHANGE_NO o.number).setF
    Reg.IMG_OLC_STAT_STATE olcDraining

/-- The device once a change without new ENTRY fields has taken effect. -/
def Device.olcSwapped (d : Device) (o : Olc) : Device :=
  ((d.banksSwapped o).withImg { d.img with relocs := o.reloc }).raise 0x109
    [wd o.number, wd o.mask, wd (d.tickCount % 2 ^ 32)]

theorem completes_olcSwap {s : State} {o : Olc} {P : Device → Prop} (ho : s.dev.img.olc = some o)
    (hst : s.dev.olcState = olcArmed) (htick : s.dev.tickCount = o.target)
    (hagreed : s.dev.isLane = true → o.agreed = true) (hentries : o.entries = [])
    (hP : P (s.dev.olcSwapped o).sluice) : Completes .olcSwap s P := by
  have hexec : exec .olcSwap s = execOlcSwap s := rfl
  rw [execOlcSwap] at hexec
  refine completes_run hexec ?_ hP
  have hnow : ¬(s.dev.olcState ≠ olcArmed ∨ s.dev.tickCount ≠ o.target ∨
      (s.dev.isLane = true ∧ (!o.agreed) = true)) := by
    rintro (h | h | ⟨hlane, h⟩)
    · exact h hst
    · exact h htick
    · rw [hagreed hlane] at h
      exact absurd h (by decide)
  simp only [ho]
  rw [if_neg hnow, hentries]
  simp only [Device.setEntries, Device.setF_img]
  rfl

theorem Device.olcSwapped_fld (d : Device) (o : Olc) {f : Fld} (h : f.addr ≠ Reg.SF_GATE) (h' : f.addr ≠ Reg.EVR_LOSS) :
    (d.olcSwapped o).sluice.fld f = (d.banksSwapped o).fld f := by
  rw [Device.fld_sluice _ h, Device.olcSwapped, Device.fld_raise _ _ _ h', Device.withImg_fld]

/-- The engines of the mask run from their other bank. -/
theorem Device.olcSwapped_bank (d : Device) {o : Olc} {e : Nat} (he : e < 24) :
    (d.olcSwapped o).sluice.bank e = if o.mask.testBit e then 1 - d.bank e else d.bank e := by
  have hcur : (d.olcSwapped o).sluice.fld Reg.IMG_BANK_CUR = (d.fld Reg.IMG_BANK_CUR ^^^ o.mask) % 2 ^ 24 := by
    rw [d.olcSwapped_fld o (by decide) (by decide), Device.banksSwapped, Device.fld_setF_other _ _ (by decide),
      Device.fld_setF_other _ _ (by decide), Device.fld_setF_same _ _ _ (by decide)]
    rfl
  simp only [Device.bank, Device.bitAt, hcur, Nat.testBit_mod_two_pow, he, decide_true, Bool.true_and, Nat.testBit_xor]
  cases (d.fld Reg.IMG_BANK_CUR).testBit e <;> cases o.mask.testBit e <;> decide

/-- A swap writes the bank register and the state of the online change. -/
theorem Device.plain_banksSwapped (d : Device) (o : Olc) :
    d.Plain (· ∈ [Reg.IMG_BANK, Reg.IMG_OLC_STAT, Reg.EVR_LOSS]) (d.banksSwapped o) :=
  ((d.plain_setF (f := Reg.IMG_BANK_CUR) _ (by decide)).trans
    (Device.plain_setF _ (f := Reg.IMG_OLC_STAT_CHANGE_NO) _ (by decide))).trans
    (Device.plain_setF _ (f := Reg.IMG_OLC_STAT_STATE) _ (by decide))

theorem Device.olcSwapped_logs (d : Device) (o : Olc) :
    d.Logs (d.olcSwapped o).sluice 0x109 [wd o.number, wd o.mask, wd (d.tickCount % 2 ^ 32)] := by
  have hcode := (d.plain_banksSwapped o).regs (Reg.EVR_CODE 0x109) (by decide)
  refine Device.Logs.congr ?_ (Device.sluice_evr _)
  exact d.raise_logs _ 0x109 _ ((Device.withImg_rd _ _ _).trans hcode) (by simp [Device.banksSwapped])
    (by simp [Device.banksSwapped])

theorem Device.olcSwapped_spec (d : Device) (o : Olc) :
    (∀ e, e < 24 → (d.olcSwapped o).sluice.bank e = if o.mask.testBit e then 1 - d.bank e else d.bank e) ∧
    (d.olcSwapped o).sluice.olcState = olcDraining ∧ (d.olcSwapped o).sluice.img.relocs = o.reloc ∧
    (d.olcSwapped o).sluice.fld Reg.IMG_OLC_STAT_CHANGE_NO = o.number % 65536 ∧
    d.Logs (d.olcSwapped o).sluice 0x109 [wd o.number, wd o.mask, wd (d.tickCount % 2 ^ 32)] ∧
    d.KeepsMem (d.olcSwapped o).sluice ∧ (d.olcSwapped o).sluice.ce = d.ce := by
  obtain ⟨himg, -, hmem, hce⟩ := (((d.plain_banksSwapped o).withImg { d.img with relocs := o.reloc }).trans
    (Device.plain_raise _ 0x109 _ (by decide))).quiet_img
  refine ⟨fun e he => d.olcSwapped_bank he, ?_, by rw [Device.olcSwapped, himg], ?_, d.olcSwapped_logs o, hmem, hce⟩
  · rw [Device.olcState, d.olcSwapped_fld o (by decide) (by decide)]
    exact Device.fld_setF_same _ _ _ (by decide)
  · rw [d.olcSwapped_fld o (by decide) (by decide), Device.banksSwapped, Device.fld_setF_other _ _ (by decide)]
    exact Device.fld_setF_same _ _ _ (by decide)

/-! ## The end of draining (R226) -/

/-- The device once the old banks are drained. -/
def Device.olcOver (d : Device) (mask : Nat) : Device :=
  ((d.withImg { d.img with olc := none }).setF Reg.IMG_OLC_STAT_STATE olcIdle).raise 0x10E [wd mask]

theorem completes_olcDrained {s : State} {o : Olc} {P : Device → Prop} (ho : s.dev.img.olc = some o)
    (hst : s.dev.olcState = olcDraining) (hdrained : ∀ e, e < 24 → s.dev.draining e = false)
    (hP : P (s.dev.olcOver o.mask).sluice) : Completes .olcDrained s P := by
  have hexec : exec .olcDrained s = execOlcDrained s := rfl
  rw [execOlcDrained] at hexec
  refine completes_run hexec ?_ hP
  have hnone : ¬(s.dev.olcState ≠ olcDraining ∨ (List.range 24).any (fun e => s.dev.draining e) = true) := by
    rintro (h | h)
    · exact h hst
    · obtain ⟨e, he, hdrains⟩ := List.any_eq_true.mp h
      rw [hdrained e (List.mem_range.mp he)] at hdrains
      exact absurd hdrains (by decide)
  simp only [ho]
  exact if_neg hnone

theorem Device.olcOver_spec (d : Device) (mask : Nat) :
    (d.olcOver mask).sluice.olcState = olcIdle ∧ (d.olcOver mask).sluice.img.olc = none ∧
    d.Logs (d.olcOver mask).sluice 0x10E [wd mask] ∧ d.KeepsMem (d.olcOver mask).sluice ∧
    (d.olcOver mask).sluice.ce = d.ce := by
  have hstate : (d.withImg { d.img with olc := none }).Plain (· ∈ [Reg.IMG_OLC_STAT, Reg.EVR_LOSS])
      ((d.withImg { d.img with olc := none }).setF Reg.IMG_OLC_STAT_STATE olcIdle) :=
    Device.plain_setF _ (f := Reg.IMG_OLC_STAT_STATE) _ (by decide)
  obtain ⟨himg, -, hmem, hce⟩ := (hstate.trans (Device.plain_raise _ 0x10E [wd mask] (by decide))).quiet_img
  refine ⟨?_, by rw [Device.olcOver, himg], ?_, hmem, hce⟩
  · rw [Device.olcState, Device.fld_sluice _ (by decide), Device.olcOver, Device.fld_raise _ _ _ (by decide)]
    exact Device.fld_setF_same _ _ _ (by decide)
  · exact Device.Logs.congr (d.raise_logs _ 0x10E _ (hstate.regs _ (by decide)) (by simp) (by simp))
      (Device.sluice_evr _)

/-! ## The end of a load (R222, R223) -/

theorem Device.busRead_clean (d : Device) {m a n : Nat} (h : d.Clean (sharedKeys a n)) :
    d.busRead m a n = (some (d.seenBytes a n), d) := by
  rw [Device.busRead, Device.eccReads_clean d m 0 _ h]

/-- Where the package lies. -/
def Device.olcSrc (d : Device) : Nat := (d.rd Reg.IMG_OLC_SRC).toNat % 2 ^ 23

/-- The length that the package states. -/
def Device.olcLen (d : Device) : Nat := leNat (d.seenBytes (d.olcSrc + 20) 4)

/-- The package. -/
def Device.olcPackage (d : Device) : List Byte := d.seenBytes d.olcSrc d.olcLen

/-- A package lies in SDM and can be read, and the command that loads it is BUSY. -/
structure Device.LoadsPackage (d : Device) : Prop where
  loading : d.olcState = olcLoading
  inside : d.olcSrc + d.olcLen ≤ 0x800000
  clean : d.Clean (sharedKeys d.olcSrc d.olcLen)
  busy : d.fld portIMG.busy = 1

/-- The change that a package brings. -/
def olcOf (l : List Byte) (len : Nat) : Olc :=
  { mask := numAt l 12 4, number := numAt l 8 2, crc := wd (numAt l (len - 4) 4), target := 0, entries := olcEntries l,
    reloc := olcReloc l, agreed := false }

/-- The device once the banks of a package are loaded. -/
def Device.olcFilled (d : Device) (l : List Byte) : Device :=
  ((d.setF Reg.IMG_OLC_STAT_REASON 0).olcBanks l).setF Reg.IMG_OLC_STAT_STATE olcLoaded

/-- The device once a package has been taken. -/
def Device.olcTaken (d : Device) (l : List Byte) (len : Nat) : Device :=
  (((d.olcFilled l).withImg { (d.olcFilled l).img with olc := some (olcOf l len) }).raise 0x108
    [wd (numAt l 8 2), wd (numAt l 12 4)]).finishCmd portIMG 0

/-- The registers once a package has been refused for REASON k. -/
def Device.reasonShown (d : Device) (k : Nat) : Device :=
  (d.setF Reg.IMG_OLC_STAT_REASON k).setF Reg.IMG_OLC_STAT_STATE (if d.img.olc.isSome then olcLoaded else olcIdle)

/-- The device once a package has been refused for REASON k. -/
def Device.olcRefused (d : Device) (k : Nat) : Device :=
  (d.reasonShown k).finishCmd portIMG (if k = 1 ∨ k = 2 ∨ k = 6 then 2 else 3)

/-- The end of a load takes the package where it finds no REASON against it. -/
theorem completes_olcLoadDone {s : State} (h : s.dev.LoadsPackage) {P : Device → Prop}
    (hP : P (if s.dev.olcReason s.dev.olcPackage s.dev.olcLen = 0 then s.dev.olcTaken s.dev.olcPackage s.dev.olcLen
      else s.dev.olcRefused (s.dev.olcReason s.dev.olcPackage s.dev.olcLen)).sluice) : Completes .olcLoadDone s P := by
  have hexec : exec .olcLoadDone s = execOlcLoadDone s := rfl
  obtain ⟨hloading, hinside, hclean, -⟩ := h
  rw [execOlcLoadDone] at hexec
  refine completes_run hexec ?_ hP
  rw [if_neg (not_not.mpr hloading)]
  rw [Device.olcLen, Device.olcSrc] at hinside hclean
  simp only [if_pos hinside, s.dev.busRead_clean hclean]
  split
  · next hreason =>
    rw [if_pos (show s.dev.olcReason s.dev.olcPackage s.dev.olcLen = 0 from hreason), hreason]
    rfl
  · next hreason =>
    rw [if_neg (show ¬s.dev.olcReason s.dev.olcPackage s.dev.olcLen = 0 from hreason)]
    rfl

/-- The device t is LOADED with the banks of a mask: the registers but that of the change, memory, the system and the
recorder are as they were, and so is the code that runs. -/
structure Device.Filled (d t : Device) (mask : Nat) : Prop where
  loaded : t.olcState = olcLoaded
  reason : t.fld Reg.IMG_OLC_STAT_REASON = 0
  regs : ∀ a, a ≠ Reg.IMG_OLC_STAT → t.rd a = d.rd a
  mem : t.mem = d.mem
  larea : t.larea = d.larea
  sys : t.sys = d.sys
  evr : t.evr = d.evr
  code : ∀ (e : Nat) (pc : BitVec 16), mask.testBit e = false ∨ pc.toNat / 32768 = d.bank e →
    t.fetched e pc = d.fetched e pc

section
variable (d : Device) {l : List Byte}

theorem Device.olcFilled_filled (hfit : BanksFit l) : d.Filled (d.olcFilled l) (numAt l 12 4) := by
  have hfill := (d.setF Reg.IMG_OLC_STAT_REASON 0).fillsSpares_olcBanks hfit
  obtain ⟨hrd, hmem, hlarea, hsys, hevr⟩ := hfill.keepsOthers
  refine ⟨Device.fld_setF_same _ _ _ (by decide), ?_, fun a ha => ?_, ?_, ?_, ?_, ?_, fun e pc hkeep => ?_⟩
  · rw [Device.olcFilled, Device.fld_setF_other _ _ (by decide), Device.fld_congr (hrd _)]
    exact Device.fld_setF_same _ _ _ (by decide)
  · rw [Device.olcFilled, Device.rd_setF_other _ _ ha, hrd, Device.rd_setF_other _ _ ha]
  · simp [Device.olcFilled, hmem]
  · simp [Device.olcFilled, hlarea]
  · simp [Device.olcFilled, hsys]
  · simp [Device.olcFilled, hevr]
  · have hbank : (d.setF Reg.IMG_OLC_STAT_REASON 0).bank e = d.bank e := by
      rw [Device.bank, Device.bitAt, Device.fld_setF_other _ _ (by decide)]
      rfl
    rw [Device.fetched, Device.olcFilled, Device.setF_prog]
    exact hfill.fetched (hbank ▸ hkeep)

/-- The recorder and the end of the command are all that follows the banks. -/
theorem Device.plain_olcTaken (len : Nat) : ((d.olcFilled l).withImg
    { (d.olcFilled l).img with olc := some (olcOf l len) }).Plain (· ∈ [Reg.EVR_LOSS, Reg.IMG_CMD_STATUS])
    (d.olcTaken l len) :=
  (Device.plain_raise _ _ _ (by decide)).trans (Device.plain_finishCmd _ portIMG 0 (by decide))

/-- A package that has been taken is LOADED, its command has ended with code 0, and the code that runs is as it was. -/
theorem Device.olcTaken_spec (hfit : BanksFit l) (len : Nat) (hbusy : d.fld portIMG.busy = 1) :
    (d.olcTaken l len).sluice.olcState = olcLoaded ∧ (d.olcTaken l len).sluice.fld Reg.IMG_OLC_STAT_REASON = 0 ∧
    (d.olcTaken l len).sluice.Ended d portIMG 0 ∧
    (∃ o, (d.olcTaken l len).sluice.img.olc = some o ∧ o.number = numAt l 8 2 ∧ o.mask = numAt l 12 4) ∧
    (∀ e, e < 24 → ∀ pc : BitVec 16, (numAt l 12 4).testBit e = false ∨ pc.toNat / 32768 = d.bank e →
      (d.olcTaken l len).sluice.fetched e pc = d.fetched e pc) ∧
    d.Logs (d.olcTaken l len).sluice 0x108 [wd (numAt l 8 2), wd (numAt l 12 4)] ∧
    (d.olcTaken l len).sluice.mem = d.mem ∧ (d.olcTaken l len).sluice.larea = d.larea := by
  have hfilled := d.olcFilled_filled hfit
  obtain ⟨himg, hregs, ⟨hmem, hlarea, hprog⟩, -⟩ := (d.plain_olcTaken (l := l) len).quiet_img
  have hstat : (d.olcTaken l len).sluice.rd Reg.IMG_OLC_STAT = (d.olcFilled l).rd Reg.IMG_OLC_STAT :=
    hregs _ (by decide)
  refine ⟨?_, ?_, ?_, ⟨olcOf l len, by rw [himg], rfl, rfl⟩, fun e _ pc hkeep => ?_, ?_, hmem.trans hfilled.mem,
    hlarea.trans hfilled.larea⟩
  · exact (Device.fld_congr (f := Reg.IMG_OLC_STAT_STATE) hstat).trans hfilled.loaded
  · exact (Device.fld_congr (f := Reg.IMG_OLC_STAT_REASON) hstat).trans hfilled.reason
  · refine Device.finishCmd_ended (by decide) (by decide) ?_ hbusy
    rw [Device.rd_raise _ _ _ (by decide), Device.withImg_rd]
    exact hfilled.regs _ (by decide)
  · rw [Device.fetched, hprog]
    exact hfilled.code e pc hkeep
  · have hcode := hfilled.regs (Reg.EVR_CODE 0x108) (by decide)
    refine Device.Logs.congr (d.raise_logs _ 0x108 _ ((Device.withImg_rd _ _ _).trans hcode) ?_ ?_)
      ((Device.sluice_evr _).trans (Device.finishCmd_evr _ _ _))
    · exact (Device.withImg_sys _ _).trans hfilled.sys
    · exact (Device.withImg_evr _ _).trans hfilled.evr

/-- A package that has been refused shows its REASON, and its command has ended with the code of the REASON. -/
theorem Device.olcRefused_spec {k : Nat} (hk : k < 8) (hbusy : d.fld portIMG.busy = 1) :
    (d.olcRefused k).sluice.olcState = (if d.img.olc.isSome then olcLoaded else olcIdle) ∧
    (d.olcRefused k).sluice.fld Reg.IMG_OLC_STAT_REASON = k ∧
    (d.olcRefused k).sluice.Ended d portIMG (if k = 1 ∨ k = 2 ∨ k = 6 then 2 else 3) ∧
    (d.olcRefused k).sluice.img.olc = d.img.olc ∧
    d.Writes (d.olcRefused k).sluice [Reg.IMG_CMD_STATUS, Reg.IMG_OLC_STAT] := by
  have hshown : d.Plain (· = Reg.IMG_OLC_STAT) (d.reasonShown k) :=
    (d.plain_setF (R := (· = Reg.IMG_OLC_STAT)) (f := Reg.IMG_OLC_STAT_REASON) k rfl).trans
      (Device.plain_setF _ (f := Reg.IMG_OLC_STAT_STATE) _ rfl)
  have hended : (d.reasonShown k).Plain (· = Reg.IMG_CMD_STATUS) (d.olcRefused k) :=
    Device.plain_finishCmd _ portIMG _ rfl
  have hwrites : d.Writes (d.olcRefused k).sluice [Reg.IMG_CMD_STATUS, Reg.IMG_OLC_STAT] :=
    ((hshown.mono (by simp)).trans (hended.mono (by simp))).writes
  have hfld {f : Fld} (hf : f.addr = Reg.IMG_OLC_STAT) : (d.olcRefused k).sluice.fld f = (d.reasonShown k).fld f := by
    rw [Device.fld_sluice _ (by rw [hf]; decide), Device.fld_congr (hended.regs _ (by rw [hf]; decide))]
  refine ⟨?_, ?_, ?_, congrArg ImgState.olc hwrites.units.img, hwrites⟩
  · rw [Device.olcState, hfld rfl, Device.reasonShown, Device.fld_setF_same _ _ _ (by decide)]
    split <;> rfl
  · rw [hfld rfl, Device.reasonShown, Device.fld_setF_other _ _ (by decide), Device.fld_setF_same _ _ _ (by decide)]
    exact Nat.mod_eq_of_lt (Nat.lt_trans hk (by decide))
  · exact Device.finishCmd_ended (by decide) (by split <;> decide) (hshown.regs _ (by decide)) hbusy

end

/-- Settles O35: the load by the REASON that it finds, then each command and each moment of a change. -/
theorem onlineChange : Obligations.OnlineChange := by
  intro s src len
  refine ⟨begun_olcLoad, fun hst hinside hclean hbusy l hl => ?load,
    fun htick hperm hst o => done_olcArm htick hperm hst, done_olcDisarm,
    fun o ho hst htick hagreed hentries _ => ?swap, fun o ho hst hdrained => ?drained⟩
  case load =>
    have hload : s.dev.LoadsPackage := ⟨hst, hinside, hclean, hbusy⟩
    subst hl
    refine ⟨fun h0 => completes_olcLoadDone hload ?_, fun k hk hne => completes_olcLoadDone hload ?_⟩
    · rw [if_pos (show s.dev.olcReason s.dev.olcPackage s.dev.olcLen = 0 from h0)]
      exact s.dev.olcTaken_spec (Device.olcReason_fit h0) _ hbusy
    · subst hk
      rw [if_neg (show ¬s.dev.olcReason s.dev.olcPackage s.dev.olcLen = 0 from hne)]
      exact s.dev.olcRefused_spec (s.dev.olcReason_lt _ _) hbusy
  case swap => exact completes_olcSwap ho hst htick hagreed hentries (s.dev.olcSwapped_spec o)
  case drained => exact completes_olcDrained ho hst hdrained (s.dev.olcOver_spec o.mask)

end Sys2Proof.Machine
end

section
/-! SUPPORT. Work on links and the triad (R232–R280): one relation for what such work leaves alone, and the rules of the
parcels of a link. -/

namespace Sys2Proof.Machine

/-! ## What work on links and lanes leaves alone -/

/-- The device t has the memories and the engines of d, and the registers that R does not name. -/
structure Device.Leaves (R : Nat → Prop) (d t : Device) : Prop where
  regs : ∀ a, ¬R a → t.rd a = d.rd a
  mem : d.KeepsMem t
  ce : t.ce = d.ce

namespace Device.Leaves

variable {R S : Nat → Prop} {d t u : Device}

theorem refl (d : Device) : d.Leaves R d := ⟨fun _ _ => rfl, ⟨rfl, rfl, rfl⟩, rfl⟩

theorem trans (h : d.Leaves R t) (g : t.Leaves R u) : d.Leaves R u :=
  ⟨fun a ha => (g.regs a ha).trans (h.regs a ha), h.mem.trans g.mem, g.ce.trans h.ce⟩

theorem mono (h : d.Leaves R t) (hs : ∀ a, R a → S a) : d.Leaves S t :=
  ⟨fun a ha => h.regs a fun hr => ha (hs a hr), h.mem, h.ce⟩

theorem ite {p : Prop} [Decidable p] (h : d.Leaves R t) (g : d.Leaves R u) : d.Leaves R (if p then t else u) := by
  split <;> assumption

theorem of_soft (h : d.Soft R t) : d.Leaves R t := by
  obtain ⟨r, v, k, m, hform⟩ := h.form
  exact ⟨h.regs, ⟨by rw [hform], by rw [hform], by rw [hform]⟩, by rw [hform]⟩

theorem of_plain (h : d.Plain R t) : d.Leaves R t := .of_soft h.soft

theorem of_lane (h : d.LaneWork t) : d.Leaves (· ∈ laneRegs) t := ⟨h.regs, h.keepsMem, h.ce⟩

theorem of_parcels (h : d.Parcels t) : d.Leaves R t := by
  obtain ⟨g, m, rfl⟩ := h
  exact ⟨fun _ _ => rfl, ⟨rfl, rfl, rfl⟩, rfl⟩

/-- After Sluice has acted, memories and engines are as they were. -/
theorem still (h : d.Leaves R t) : d.KeepsMem t.sluice ∧ t.sluice.ce = d.ce :=
  ⟨h.mem.trans ⟨by simp, by simp, by simp⟩, by rw [Device.sluice_ce, h.ce]⟩

/-- After Sluice has acted, registers outside a list and SF_GATE, memories and engines are as they were. -/
theorem quiet {l : List Nat} (h : d.Leaves (· ∈ l) t) :
    d.KeepsRegs t.sluice (Reg.SF_GATE :: l) ∧ d.KeepsMem t.sluice ∧ t.sluice.ce = d.ce := by
  refine ⟨fun a ha => ?_, h.still⟩
  simp only [List.mem_cons, not_or] at ha
  obtain ⟨hgate, hl⟩ := ha
  rw [Device.rd_sluice _ hgate, h.regs a hl]

end Device.Leaves

/-- State of units beside registers, memories and engines. -/
theorem Device.leaves_units {R : Nat → Prop} (d : Device) {tri img fo sc sys freeCtr} : d.Leaves R { d with
    tri := tri, img := img, fo := fo, sc := sc, sys := sys, freeCtr := freeCtr } :=
  ⟨fun _ _ => rfl, ⟨rfl, rfl, rfl⟩, rfl⟩

/-! ## Parcels (R234, R238) -/

section
variable {d t : Device} (h : d.Parcels t)
include h

theorem Device.Parcels.rd (a : Nat) : t.rd a = d.rd a := by obtain ⟨g, m, rfl⟩ := h; rfl
theorem Device.Parcels.fld (f : Fld) : t.fld f = d.fld f := Device.fld_congr (h.rd _)
theorem Device.Parcels.bit (f : Fld) : t.bit f = d.bit f := by rw [Device.bit, h.fld, Device.bit]
theorem Device.Parcels.tri : t.tri = d.tri := by obtain ⟨g, m, rfl⟩ := h; rfl
theorem Device.Parcels.evr : t.evr = d.evr := by obtain ⟨g, m, rfl⟩ := h; rfl
theorem Device.Parcels.img : t.img = d.img := by obtain ⟨g, m, rfl⟩ := h; rfl

end

section
variable (d : Device) (p : Nat)

theorem Device.parcels_parcelOut (ptype : Nat) (l : List Byte) : d.Parcels (d.parcelOut p ptype l) := by
  simp only [Device.parcelOut]
  exact .ite (d.parcels_send _) (.ite ((d.parcels_setKlPort _ _).trans (Device.parcels_send _ _)) (d.parcels_setKlPort _ _))

theorem Device.parcels_gotParcel : d.Parcels (d.gotParcel p) :=
  (d.parcels_setKlPort _ _).trans (Device.parcels_parcelOut _ _ _ _)

@[simp] theorem Device.klPort_setKlPort (k : KlPort) : (d.setKlPort p k).klPort p = k := by
  simp only [Device.klPort, Device.setKlPort, sget_sput_same]

theorem Device.klPort_congr {d t : Device} (h : t.kl = d.kl) (p : Nat) : t.klPort p = d.klPort p := by
  rw [Device.klPort, h, Device.klPort]

/-- Parcels are sent except in the no-service state (R484). -/
theorem Device.send_parcel (m : Parcel) (hserv : d.bit Reg.SYS_ROLE_NO_SERVICE = false) :
    (d.send (.parcel p m)).sent = .parcel p m :: d.sent := by
  simp [Device.send, hserv]

/-- A link acknowledgement is sent, and takes no place in the replay buffer. -/
theorem Device.parcelOut_ack {ptype : Nat} (ht : ptype = pACK ∨ ptype = pNAK) (l : List Byte) :
    d.parcelOut p ptype l = d.send (.parcel p ⟨ptype, 0, false, pad8 l⟩) := if_pos ht

/-- Any other parcel takes the next SEQ and a free place in the replay buffer. -/
theorem Device.parcelOut_free {ptype : Nat} (ht : ¬(ptype = pACK ∨ ptype = pNAK)) (l : List Byte)
    (hfree : (d.klPort p).unacked.length < 32) {m : Parcel} (hm : m = ⟨ptype, (d.klPort p).tx, false, pad8 l⟩) :
    d.parcelOut p ptype l = (d.setKlPort p { d.klPort p with
      tx := ((d.klPort p).tx + 1) % 65536, unacked := (d.klPort p).unacked ++ [m] }).send (.parcel p m) := by
  subst hm
  exact (if_neg ht).trans (if_pos hfree)

/-- A parcel that arrives advances the next SEQ that is expected. -/
theorem Device.gotParcel_klPort : (d.gotParcel p).klPort p = { d.klPort p with rx := ((d.klPort p).rx + 1) % 65536 } := by
  simp only [Device.gotParcel, Device.parcelOut_ack _ _ (.inl rfl)]
  rw [Device.klPort_congr (Device.send_kl _ _), Device.klPort_setKlPort]

/-- A parcel that arrives is acknowledged. -/
theorem Device.gotParcel_sent (hserv : d.bit Reg.SYS_ROLE_NO_SERVICE = false) :
    ∃ ack, (d.gotParcel p).sent = .parcel p ack :: d.sent := by
  simp only [Device.gotParcel, Device.parcelOut_ack _ _ (.inl rfl)]
  exact ⟨_, Device.send_parcel _ p _ hserv⟩

end

end Sys2Proof.Machine
end

section
/-! SUPPORT. Bring-up of a Kloul port (R232–R237, R239): what each step leaves, one device and one lemma per step, and the
statement about them. -/

namespace Sys2Proof.Machine

/-! ## The registers of a port -/

/-- The registers that the work of port p writes. -/
def linkRegs (p : Nat) : List Nat := [Reg.KL_STAT p, Reg.KL_ERR p, Reg.KL_DELAY p, Reg.KL_PEER p]

theorem linkRegs_bounds {p : Fin 3} {a : Nat} (ha : a ∈ linkRegs p) : 0x4050100 ≤ a ∧ a < 0x40501c0 := by
  have hp := p.isLt
  simp only [linkRegs, Reg.KL_STAT, Reg.KL_ERR, Reg.KL_DELAY, Reg.KL_PEER, List.mem_cons, List.not_mem_nil, or_false] at ha
  omega

theorem klStat_mem (p : Nat) : Reg.KL_STAT p ∈ linkRegs p := by simp [linkRegs]
theorem klErr_mem (p : Nat) : Reg.KL_ERR p ∈ linkRegs p := by simp [linkRegs]
theorem klDelay_mem (p : Nat) : Reg.KL_DELAY p ∈ linkRegs p := by simp [linkRegs]
theorem klPeer_mem (p : Nat) : Reg.KL_PEER p ∈ linkRegs p := by simp [linkRegs]

/-- A register of a port is none outside the registers of the ports. -/
theorem linkRegs_ne {p : Fin 3} {a b : Nat} (ha : a ∈ linkRegs p) (hb : ¬(0x4050100 ≤ b ∧ b < 0x40501c0)) : b ≠ a :=
  fun h => hb (h ▸ linkRegs_bounds ha)

/-- Sluice leaves the fields of a port alone. -/
theorem Device.fld_sluice_link (d : Device) {p : Fin 3} {f : Fld} (hf : f.addr ∈ linkRegs p) :
    d.sluice.fld f = d.fld f := d.fld_sluice (linkRegs_ne hf (by decide)).symm

/-- An event leaves the fields of a port alone. -/
theorem Device.fld_raise_link (d : Device) {p : Fin 3} {f : Fld} (hf : f.addr ∈ linkRegs p) (code : Nat) (l : List Word) :
    (d.raise code l).fld f = d.fld f := d.fld_raise code l (linkRegs_ne hf (by decide)).symm

/-- A one-bit or wider field shows a value that fits. -/
theorem Device.fld_setF_fits (d : Device) {f : Fld} {v : Nat} (hf : f.lo + f.width ≤ 32) (hv : v < 2 ^ f.width) :
    (d.setF f v).fld f = v := by rw [d.fld_setF_same f v hf, Nat.mod_eq_of_lt hv]

/-- The state of a port is what was written there. -/
theorem Device.klState_setF (d : Device) (p : Nat) {v : Nat} (hv : v < 8) :
    (d.setF (Reg.KL_STAT_STATE p) v).klState p = v :=
  d.fld_setF_fits (by simp [Reg.KL_STAT_STATE]) (by simpa [Reg.KL_STAT_STATE] using hv)

/-! ## Channels lock (step 2) -/

/-- The device once a channel of port p has locked. -/
def Device.channelLocked (d : Device) (p ch : Nat) : Device :=
  let d1 := d.setBitAt (Reg.KL_STAT_CH_LOCK p) ch true
  d1.setF (Reg.KL_STAT_STATE p) (if d1.fld (Reg.KL_STAT_CH_LOCK p) = d.klChannels p then klDeskew else klLock)

theorem completes_channelLock {s : State} {p : Fin 3} {ch : Fin 4} {P : Device → Prop}
    (hst : s.dev.klState p = 1 ∨ s.dev.klState p = 2) (hch : (s.dev.klChannels p).testBit ch = true)
    (hP : P (s.dev.channelLocked p ch).sluice) : Completes (.klChannelLock p ch) s P := by
  have hexec : exec (.klChannelLock p ch) s = execKlChannelLock p ch s := rfl
  rw [execKlChannelLock] at hexec
  exact completes_run hexec (if_pos ⟨hst, hch⟩) hP

theorem Device.channelLocked_spec (d : Device) (p : Fin 3) (ch : Fin 4) :
    (d.channelLocked p ch).sluice.fld (Reg.KL_STAT_CH_LOCK p) = putBit (d.fld (Reg.KL_STAT_CH_LOCK p)) ch true ∧
    (d.channelLocked p ch).sluice.klState p
      = (if putBit (d.fld (Reg.KL_STAT_CH_LOCK p)) ch true = d.klChannels p then 3 else 2) ∧
    d.Writes (d.channelLocked p ch).sluice [Reg.KL_STAT p] ∧ (d.channelLocked p ch).sluice.evr = d.evr := by
  have hlock : (d.setBitAt (Reg.KL_STAT_CH_LOCK p) ch true).fld (Reg.KL_STAT_CH_LOCK p)
      = putBit (d.fld (Reg.KL_STAT_CH_LOCK p)) ch true :=
    d.fld_setF_fits (by simp [Reg.KL_STAT_CH_LOCK]) (putBit_lt true (d.fld_lt _) ch.isLt)
  have hplain : d.Plain (· ∈ [Reg.KL_STAT p]) (d.channelLocked p ch) :=
    (d.plain_setBitAt (f := Reg.KL_STAT_CH_LOCK p) _ _ List.mem_cons_self).trans
      (Device.plain_setF _ (f := Reg.KL_STAT_STATE p) _ List.mem_cons_self)
  refine ⟨?_, ?_, hplain.writes, by simp [Device.channelLocked]⟩
  · rw [Device.fld_sluice_link _ (klStat_mem p), Device.channelLocked, Device.fld_setF_other _ _ (.inr (by simp
      [Reg.KL_STAT_STATE, Reg.KL_STAT_CH_LOCK])), hlock]
  · rw [Device.klState, Device.fld_sluice_link _ (klStat_mem p), Device.channelLocked, hlock]
    exact Device.klState_setF _ _ (by split <;> decide)

/-! ## Deskew ends (step 3) -/

/-- The device once the channels of port p are deskewed: it sends IDENT. -/
def Device.deskewed (d : Device) (p : Nat) : Device :=
  (d.setF (Reg.KL_STAT_STATE p) klIdent).parcelOut p pIDENT (d.identBytes p)

theorem completes_deskew {s : State} {p : Fin 3} {P : Device → Prop} (hst : s.dev.klState p = 3)
    (hP : P (s.dev.deskewed p).sluice) : Completes (.klDeskewComplete p) s P := by
  have hexec : exec (.klDeskewComplete p) s = execKlDeskewComplete p s := rfl
  rw [execKlDeskewComplete] at hexec
  exact completes_run hexec (if_pos hst) hP

theorem Device.deskewed_spec (d : Device) (p : Fin 3) :
    (d.deskewed p).sluice.klState p = 4 ∧ d.KeepsRegs (d.deskewed p).sluice [Reg.SF_GATE, Reg.KL_STAT p] ∧
    d.KeepsMem (d.deskewed p).sluice ∧ (d.deskewed p).sluice.ce = d.ce ∧ (d.deskewed p).sluice.evr = d.evr := by
  have hsent := (d.setF (Reg.KL_STAT_STATE p) klIdent).parcels_parcelOut p pIDENT (d.identBytes p)
  have hleaves : d.Leaves (· ∈ [Reg.KL_STAT p]) (d.deskewed p) :=
    (Device.Leaves.of_plain (d.plain_setF (f := Reg.KL_STAT_STATE p) _ List.mem_cons_self)).trans (.of_parcels hsent)
  obtain ⟨hregs, hmem, hce⟩ := hleaves.quiet
  refine ⟨?_, hregs, hmem, hce, ?_⟩
  · rw [Device.klState, Device.fld_sluice_link _ (klStat_mem p), Device.deskewed, hsent.fld]
    exact Device.klState_setF _ _ (by decide)
  · rw [Device.sluice_evr, Device.deskewed, hsent.evr, Device.setF_evr]

/-- In service, with a place free in the replay buffer, IDENT is sent at once. -/
theorem Device.deskewed_sends (d : Device) (p : Fin 3) (hfree : (d.klPort p).unacked.length < 32)
    (hserv : d.bit Reg.SYS_ROLE_NO_SERVICE = false) {m : Parcel}
    (hm : m = ⟨10, (d.klPort p).tx, false, pad8 (d.identBytes p)⟩) :
    (d.deskewed p).sluice.sent = .parcel p m :: d.sent ∧
    ((d.deskewed p).sluice.klPort p).unacked = (d.klPort p).unacked ++ [m] ∧
    ((d.deskewed p).sluice.klPort p).tx = ((d.klPort p).tx + 1) % 65536 := by
  have hkl : (d.setF (Reg.KL_STAT_STATE p) klIdent).klPort p = d.klPort p := Device.klPort_congr (by simp) p
  rw [← hkl] at hfree hm ⊢
  rw [Device.deskewed, Device.parcelOut_free (ptype := pIDENT) _ _ (by decide) _ hfree hm]
  refine ⟨?_, ?_, ?_⟩
  · rw [Device.sluice_sent, Device.send_parcel _ _ _ ?_, Device.setKlPort_sent, Device.setF_sent]
    rw [← hserv, Device.bit, Device.bit, (Device.parcels_setKlPort _ _ _).fld,
      Device.fld_setF_other _ _ (.inl (linkRegs_ne (klStat_mem p) (by decide)).symm)]
  all_goals rw [Device.klPort_congr (Device.sluice_kl _), Device.klPort_congr (Device.send_kl _ _),
    Device.klPort_setKlPort]

/-! ## A port returns to step 1 (R235, R238) -/

section
variable (d : Device)

theorem Device.laneWork_abandonReadmit (reason : Nat) : d.LaneWork (d.abandonReadmit reason) := by
  simp only [Device.abandonReadmit]
  refine .ite ?_ (.refl d)
  exact ((((d.laneWork_raise _ _).trans (Device.laneWork_setF _ _ (by decide) (by decide))).trans
    (Device.laneWork_setF _ _ (by decide) (by decide))).trans (Device.laneWork_tri _ _)).trans
      (Device.laneWork_toLane _ _ _)

theorem Device.laneWork_lostLink (p : Nat) : d.LaneWork (d.lostLink p) := by
  simp only [Device.lostLink]
  refine .ite (.trans ?_ (Device.laneWork_abandonReadmit _ _)) (.refl d)
  exact (d.laneWork_tri _).trans (.ite (Device.laneWork_excludeSelf _ _) (.refl _))

/-- What the loss of a port that was UP brings. -/
def Device.linkDropped (p : Nat) : Device :=
  if d.klState p = klUp then (d.raise 0x145 [wd p, d.rd (Reg.KL_STAT p), d.rd (Reg.KL_ERR p)]).lostLink p else d

theorem Device.laneWork_linkDropped (p : Nat) : d.LaneWork (d.linkDropped p) :=
  .ite ((d.laneWork_raise _ _).trans (Device.laneWork_lostLink _ _)) (.refl d)

/-- Port p in step 1, with its retraining counted. -/
def Device.retrained (p : Nat) : Device :=
  (((d.setF (Reg.KL_STAT_STATE p) klTrain).setF (Reg.KL_STAT_CH_LOCK p) 0).inc (Reg.KL_ERR_RETRAIN p)).setKlPort p
    { d.klPort p with resent := 0 }

/-- A port that is neither DOWN nor MISWIRED retrains. -/
theorem Device.klRetrain_eq {p : Nat} (h0 : d.klState p ≠ 0) (h7 : d.klState p ≠ 7) :
    d.klRetrain p = (d.linkDropped p).retrained p := if_neg (by simp [klDown, klMiswired, h0, h7])

theorem Device.leaves_retrained (p : Nat) : d.Leaves (· ∈ [Reg.KL_STAT p, Reg.KL_ERR p]) (d.retrained p) :=
  (Device.Leaves.of_plain (((d.plain_setF (f := Reg.KL_STAT_STATE p) _ (by simp [Reg.KL_STAT_STATE])).trans
    (Device.plain_setF _ (f := Reg.KL_STAT_CH_LOCK p) _ (by simp [Reg.KL_STAT_CH_LOCK]))).trans
    (Device.plain_inc _ (f := Reg.KL_ERR_RETRAIN p) (by simp [Reg.KL_ERR_RETRAIN])))).trans
    (.of_parcels (Device.parcels_setKlPort _ _ _))

theorem Device.retrained_evr (p : Nat) : (d.retrained p).evr = d.evr := by simp [Device.retrained]

theorem Device.retrained_shows (p : Fin 3) :
    (d.retrained p).klState p = 1 ∧ (d.retrained p).fld (Reg.KL_STAT_CH_LOCK p) = 0 ∧
    (d.retrained p).fld (Reg.KL_ERR_RETRAIN p)
      = min (d.fld (Reg.KL_ERR_RETRAIN p) + 1) (2 ^ (Reg.KL_ERR_RETRAIN p).width - 1) ∧
    ((d.retrained p).klPort p).resent = 0 := by
  have hne : Reg.KL_STAT p ≠ Reg.KL_ERR p := by simp [Reg.KL_STAT, Reg.KL_ERR]
  have hap : (Reg.KL_STAT_CH_LOCK p).Apart (Reg.KL_STAT_STATE p) :=
    .inr (by simp [Reg.KL_STAT_STATE, Reg.KL_STAT_CH_LOCK])
  have hport (f : Fld) : (d.retrained p).fld f = (((d.setF (Reg.KL_STAT_STATE p) klTrain).setF
      (Reg.KL_STAT_CH_LOCK p) 0).inc (Reg.KL_ERR_RETRAIN p)).fld f := (Device.parcels_setKlPort _ _ _).fld f
  refine ⟨?_, ?_, ?_, ?_⟩
  · rw [Device.klState, hport, Device.fld_inc_other _ (.inl hne.symm), Device.fld_setF_other _ _ hap]
    exact Device.klState_setF _ _ (by decide)
  · rw [hport, Device.fld_inc_other _ (.inl hne.symm)]
    exact Device.fld_setF_fits _ (by simp [Reg.KL_STAT_CH_LOCK]) (Nat.two_pow_pos _)
  · rw [hport, Device.fld_inc_same _ _ (by simp [Reg.KL_ERR_RETRAIN]), Device.fld_setF_other _ _ (.inl hne),
      Device.fld_setF_other _ _ (.inl hne)]
  · rw [Device.retrained, Device.klPort_setKlPort]

end

/-- A step of bring-up that does not end in time returns its port to step 1. -/
theorem completes_stepTimeout {s : State} {p : Fin 3} {P : Device → Prop} (h1 : 1 ≤ s.dev.klState p)
    (h5 : s.dev.klState p ≤ 5) (hP : P (s.dev.retrained p).sluice) : Completes (.klStepTimeout p) s P := by
  have hexec : exec (.klStepTimeout p) s = execKlStepTimeout p s := rfl
  rw [execKlStepTimeout] at hexec
  have hup : s.dev.linkDropped p = s.dev := if_neg (by simp only [klUp]; omega)
  refine completes_run hexec ((if_pos ⟨h1, h5⟩).trans ?_) hP
  rw [s.dev.klRetrain_eq (by omega) (by omega), hup]

theorem Device.retrained_spec (d : Device) (p : Fin 3) :
    (d.retrained p).sluice.klState p = 1 ∧ (d.retrained p).sluice.fld (Reg.KL_STAT_CH_LOCK p) = 0 ∧
    (d.retrained p).sluice.fld (Reg.KL_ERR_RETRAIN p)
      = min (d.fld (Reg.KL_ERR_RETRAIN p) + 1) (2 ^ (Reg.KL_ERR_RETRAIN p).width - 1) ∧
    ((d.retrained p).sluice.klPort p).resent = 0 ∧
    d.KeepsRegs (d.retrained p).sluice [Reg.SF_GATE, Reg.KL_STAT p, Reg.KL_ERR p] ∧ d.KeepsMem (d.retrained p).sluice ∧
    (d.retrained p).sluice.ce = d.ce ∧ (d.retrained p).sluice.evr = d.evr := by
  obtain ⟨hstate, hlock, hcount, hresent⟩ := d.retrained_shows p
  obtain ⟨hregs, hmem, hce⟩ := (d.leaves_retrained p).quiet
  refine ⟨(Device.fld_sluice_link _ (klStat_mem p)).trans hstate, (Device.fld_sluice_link _ (klStat_mem p)).trans hlock,
    (Device.fld_sluice_link _ (klErr_mem p)).trans hcount, ?_, hregs, hmem, hce,
    (Device.sluice_evr _).trans (d.retrained_evr p)⟩
  rw [Device.klPort_congr (Device.sluice_kl _), hresent]

/-! ## The peer's identity (step 4; R236, R237) -/

section
variable (d : Device) (p : Nat) (x : Ident)

/-- The identity of the peer of port p in the registers. -/
def Device.peerShown : Device :=
  ((d.wr (Reg.KL_PEER p) x.devId).setF (Reg.KL_STAT_PEER_PORT p) x.port).setF (Reg.KL_STAT_PEER_ROLE p) x.role

/-- The identity of the peer of port p kept for the rendezvous. -/
def Device.identKept : Device :=
  if d.isLane ∧ p < 2 then { d with tri := { d.tri with idents := sput noIdent d.tri.idents (d.peerLane p) (some x) } }
  else d

/-- The device once the identity of a peer that fits has arrived. -/
def Device.identTaken : Device := (((d.peerShown p x).identKept p x).gotParcel p).setF (Reg.KL_STAT_STATE p) klCal

/-- The device once an identity that breaks a rule has arrived, with its event. -/
def Device.miswired (code w : Nat) : Device :=
  ((d.peerShown p x).setF (Reg.KL_STAT_STATE p) klMiswired).raise code [wd p, wd w]

theorem Device.plain_peerShown : d.Plain (· ∈ [Reg.KL_STAT p, Reg.KL_PEER p]) (d.peerShown p x) :=
  ((d.plain_wr _ (by simp)).trans (Device.plain_setF _ (f := Reg.KL_STAT_PEER_PORT p) _ (by simp
    [Reg.KL_STAT_PEER_PORT]))).trans (Device.plain_setF _ (f := Reg.KL_STAT_PEER_ROLE p) _ (by simp [Reg.KL_STAT_PEER_ROLE]))

theorem Device.leaves_identKept {R : Nat → Prop} : d.Leaves R (d.identKept p x) := .ite d.leaves_units (.refl d)

end

/-- Role and lane are read from SYS_ROLE. -/
theorem Device.role_congr {d t : Device} (h : t.rd Reg.SYS_ROLE = d.rd Reg.SYS_ROLE) :
    t.role = d.role ∧ t.isLane = d.isLane ∧ t.lane = d.lane := by
  have hrole : t.role = d.role := Device.fld_congr h
  have hlane : t.isLane = d.isLane := by simp only [Device.isLane, hrole]
  exact ⟨hrole, hlane, by simp only [Device.lane, hlane, hrole]⟩

theorem Device.peerLane_congr {d t : Device} (h : t.rd Reg.SYS_ROLE = d.rd Reg.SYS_ROLE) (p : Nat) :
    t.peerLane p = d.peerLane p := by
  obtain ⟨-, hlane, hl⟩ := Device.role_congr h
  simp only [Device.peerLane, hlane, hl]

/-- The check of a peer reads the role and the failover setting. -/
theorem Device.miswire_congr {d t : Device} (h : t.rd Reg.SYS_ROLE = d.rd Reg.SYS_ROLE)
    (hfo : t.rd Reg.FO_CFG = d.rd Reg.FO_CFG) (p : Nat) (x : Ident) : t.miswire p x = d.miswire p x := by
  obtain ⟨hrole, hlane, -⟩ := Device.role_congr h
  have hen : t.fld Reg.FO_CFG_EN = d.fld Reg.FO_CFG_EN := Device.fld_congr hfo
  have hunit : t.fld Reg.FO_CFG_UNIT = d.fld Reg.FO_CFG_UNIT := Device.fld_congr hfo
  unfold Device.miswire Device.bit
  rw [hrole, hlane, Device.peerLane_congr h, hen, hunit]

theorem Device.rd_peerShown (d : Device) (p : Fin 3) (x : Ident) {a : Nat} (ha : ¬(0x4050100 ≤ a ∧ a < 0x40501c0)) :
    (d.peerShown p x).rd a = d.rd a := by
  refine (d.plain_peerShown p x).regs a ?_
  simp only [List.mem_cons, List.not_mem_nil, or_false, not_or]
  exact ⟨linkRegs_ne (klStat_mem p) ha, linkRegs_ne (klPeer_mem p) ha⟩

/-- The identity of the peer is judged by what it finds: kept and answered, or reported with its event. -/
theorem exec_identReceived {s : State} {p : Fin 3} {x : Ident} (hst : s.dev.klState p = 4) :
    exec (.identReceived p x) s = run (fun d =>
      if s.dev.miswire p x = 0x147 then d.miswired p x 0x147 (x.role - 1)
      else if s.dev.miswire p x ≠ 0 then d.miswired p x 0x146 (x.role + 256 * x.port)
      else d.identTaken p x) s := by
  have hexec : exec (.identReceived p x) s = execIdentReceived p x s := rfl
  have hbad : (s.dev.peerShown p x).miswire p x = s.dev.miswire p x :=
    Device.miswire_congr (s.dev.rd_peerShown p x (by decide)) (s.dev.rd_peerShown p x (by decide)) p x
  rw [hexec, execIdentReceived]
  refine run_congr ?_
  refine (if_neg (not_not.mpr hst)).trans ?_
  rw [← hbad]
  rfl

section
variable {s : State} {p : Fin 3} {x : Ident} {P : Device → Prop} (hst : s.dev.klState p = 4)
include hst

theorem completes_identFits (hfits : s.dev.miswire p x = 0) (hP : P (s.dev.identTaken p x).sluice) :
    Completes (.identReceived p x) s P :=
  completes_run (exec_identReceived hst) (by simp [hfits]) hP

/-- A peer with the own role is reported with event 0x147. -/
theorem completes_identTwin (hlane : s.dev.isLane = true) (hp : p.val < 2) (hrole : x.role = s.dev.role)
    (hP : P (s.dev.miswired p x 0x147 (x.role - 1)).sluice) : Completes (.identReceived p x) s P := by
  have hbad : s.dev.miswire p x = 0x147 := by simp [Device.miswire, hlane, hp, hrole]
  exact completes_run (exec_identReceived hst) (if_pos hbad) hP

/-- A peer that is not the lane or the port that belongs there is reported with event 0x146. -/
theorem completes_identMiswired (hlane : s.dev.isLane = true) (hp : p.val < 2) (hrole : x.role ≠ s.dev.role)
    (hpeer : x.role ≠ s.dev.peerLane p + 1 ∨ x.port ≠ 1 - p.val)
    (hP : P (s.dev.miswired p x 0x146 (x.role + 256 * x.port)).sluice) : Completes (.identReceived p x) s P := by
  have hbad : s.dev.miswire p x = 0x146 := by
    have hnot : ¬(x.role = s.dev.peerLane p + 1 ∧ x.port = 1 - p.val) := fun ⟨h1, h2⟩ => hpeer.elim (· h1) (· h2)
    simp [Device.miswire, hlane, hp, hrole, hnot]
  exact completes_run (exec_identReceived hst) (by rw [hbad]; rfl) hP

end

theorem Device.miswired_spec (d : Device) (p : Fin 3) (x : Ident) (code w : Nat) (hcode : code < 1024) :
    (d.miswired p x code w).sluice.klState p = 7 ∧ d.Logs (d.miswired p x code w).sluice code [wd p, wd w] ∧
    d.Writes (d.miswired p x code w).sluice [Reg.KL_STAT p, Reg.KL_PEER p, Reg.EVR_LOSS] := by
  have hset : d.Plain (· ∈ [Reg.KL_STAT p, Reg.KL_PEER p]) ((d.peerShown p x).setF (Reg.KL_STAT_STATE p) klMiswired) :=
    (d.plain_peerShown p x).trans (Device.plain_setF _ (f := Reg.KL_STAT_STATE p) _ (by simp [Reg.KL_STAT_STATE]))
  have hev : ¬(0x4050100 ≤ Reg.EVR_CODE code ∧ Reg.EVR_CODE code < 0x40501c0) := by
    simp only [Reg.EVR_CODE]
    omega
  refine ⟨?_, ?_, (Device.Plain.trans (hset.mono (by simp +contextual)) (Device.plain_raise _ _ _ (by simp))).writes⟩
  · rw [Device.klState, Device.fld_sluice_link _ (klStat_mem p), Device.miswired,
      Device.fld_raise_link _ (klStat_mem p)]
    exact Device.klState_setF _ _ (by decide)
  · refine (d.raise_logs _ code _ ?_ (by simp [Device.peerShown]) (by simp [Device.peerShown])).congr (Device.sluice_evr _)
    rw [Device.rd_setF_other _ _ (linkRegs_ne (klStat_mem p) hev), d.rd_peerShown p x hev]

theorem Device.identTaken_spec (d : Device) (p : Fin 3) (x : Ident) :
    (d.identTaken p x).sluice.klState p = 5 ∧ (d.identTaken p x).sluice.rd (Reg.KL_PEER p) = x.devId ∧
    ((d.identTaken p x).sluice.klPort p).rx = ((d.klPort p).rx + 1) % 65536 ∧
    (d.isLane = true → p.val < 2 → sget noIdent (d.identTaken p x).sluice.tri.idents (d.peerLane p) = some x) ∧
    d.KeepsRegs (d.identTaken p x).sluice [Reg.SF_GATE, Reg.KL_STAT p, Reg.KL_PEER p] ∧
    d.KeepsMem (d.identTaken p x).sluice ∧ (d.identTaken p x).sluice.ce = d.ce := by
  have hne : Reg.KL_PEER p ≠ Reg.KL_STAT p := by simp [Reg.KL_PEER, Reg.KL_STAT]
  have hgot := ((d.peerShown p x).identKept p x).parcels_gotParcel p
  have hrd {a : Nat} (ha : a ≠ Reg.KL_STAT p) : (d.identTaken p x).rd a = (d.peerShown p x).rd a := by
    rw [Device.identTaken, Device.rd_setF_other _ _ ha, hgot.rd,
      ((d.peerShown p x).leaves_identKept (R := fun _ => False) p x).regs a not_false]
  have hleaves : d.Leaves (· ∈ [Reg.KL_STAT p, Reg.KL_PEER p]) (d.identTaken p x) :=
    (((Device.Leaves.of_plain (d.plain_peerShown p x)).trans (Device.leaves_identKept _ _ _)).trans
      (.of_parcels hgot)).trans (.of_plain (Device.plain_setF _ (f := Reg.KL_STAT_STATE p) _ (by simp [Reg.KL_STAT_STATE])))
  have hkl : ((d.peerShown p x).identKept p x).kl = d.kl := by
    rw [Device.identKept]
    split <;> simp [Device.peerShown]
  refine ⟨?_, ?_, ?_, fun hlane hp => ?_, hleaves.quiet⟩
  · rw [Device.klState, Device.fld_sluice_link _ (klStat_mem p)]
    exact Device.klState_setF _ _ (by decide)
  · rw [Device.rd_sluice _ (linkRegs_ne (klPeer_mem p) (by decide)).symm, hrd hne, Device.peerShown,
      Device.rd_setF_other _ _ hne, Device.rd_setF_other _ _ hne, Device.rd_wr_same]
  · rw [Device.klPort_congr (Device.sluice_kl _), Device.identTaken, Device.klPort_congr (Device.setF_kl _ _ _),
      Device.gotParcel_klPort, Device.klPort_congr hkl]
  · obtain ⟨-, hlane', -⟩ := Device.role_congr (d.rd_peerShown p x (by decide))
    rw [Device.sluice_tri, Device.identTaken, Device.setF_tri, hgot.tri, Device.identKept, if_pos ⟨hlane'.trans hlane, hp⟩,
      ← Device.peerLane_congr (d.rd_peerShown p x (by decide)) p]
    exact sget_sput_same noIdent (d.peerShown p x).tri.idents _ (some x)

/-! ## The link delay (step 5; R239) -/

section
variable (d : Device) (p : Nat)

theorem Device.parcels_klFill (n : Nat) : d.Parcels (d.klFill p n) := by
  induction n generalizing d with
  | zero => exact .refl d
  | succ n ih =>
    simp only [Device.klFill]
    split
    · exact .refl d
    · split
      · exact ((d.parcels_setKlPort _ _).trans (Device.parcels_send _ _)).trans (ih _)
      · exact .refl d

/-- What a port measured of its link does not change as waiting parcels are sent. -/
theorem Device.klFill_asym (n : Nat) : ((d.klFill p n).klPort p).asym = (d.klPort p).asym := by
  induction n generalizing d with
  | zero => rfl
  | succ n ih =>
    simp only [Device.klFill]
    split
    · rfl
    · split
      · rw [ih, Device.klPort_congr (Device.send_kl _ _), Device.klPort_setKlPort]
      · rfl

/-- With no parcel waiting none is sent. -/
theorem Device.klFill_none (n : Nat) (h : (d.klPort p).waiting = []) : d.klFill p n = d := by
  cases n with
  | zero => rfl
  | succ n => simp only [Device.klFill, h]

/-- The registers of port p once its link delay is known. -/
def Device.delayShown (trip turn : Nat) (asym : Int) : Device :=
  ((d.setF (Reg.KL_DELAY_DELAY_PS p) (linkDelay trip turn asym)).setF (Reg.KL_DELAY_CAL p) 1).setF (Reg.KL_STAT_STATE p) klUp

/-- Port p is UP with the asymmetry of its link, and counts no longer as lost. -/
def Device.linkUp (trip turn : Nat) (asym : Int) : Device :=
  let d1 := (d.delayShown p trip turn asym).setKlPort p { d.klPort p with asym := asym }
  { d1 with tri := { d1.tri with lost := d1.tri.lost.filter (fun q => decide (q ≠ p)) } }

/-- The device once the CAL step of port p has ended, before the parcels that wait are sent. -/
def Device.calibrated (trip turn : Nat) (asym : Int) : Device :=
  let d2 := d.linkUp p trip turn asym
  d2.raise 0x144 [wd p, wd (d2.peerLane p), d2.rd (Reg.KL_DELAY p)]

theorem Device.plain_delayShown (trip turn : Nat) (asym : Int) :
    d.Plain (· ∈ [Reg.KL_STAT p, Reg.KL_DELAY p]) (d.delayShown p trip turn asym) :=
  ((d.plain_setF (f := Reg.KL_DELAY_DELAY_PS p) _ (by simp [Reg.KL_DELAY_DELAY_PS])).trans
    (Device.plain_setF _ (f := Reg.KL_DELAY_CAL p) _ (by simp [Reg.KL_DELAY_CAL]))).trans
    (Device.plain_setF _ (f := Reg.KL_STAT_STATE p) _ (by simp [Reg.KL_STAT_STATE]))

theorem Device.leaves_linkUp {R : Nat → Prop} (trip turn : Nat) (asym : Int) :
    (d.delayShown p trip turn asym).Leaves R (d.linkUp p trip turn asym) :=
  (Device.Leaves.of_parcels (Device.parcels_setKlPort _ p _)).trans (Device.leaves_units _)

theorem Device.rd_linkUp (trip turn : Nat) (asym : Int) (a : Nat) :
    (d.linkUp p trip turn asym).rd a = (d.delayShown p trip turn asym).rd a :=
  (d.leaves_linkUp (R := fun _ => False) p trip turn asym).regs a not_false

theorem Device.linkUp_asym (trip turn : Nat) (asym : Int) : ((d.linkUp p trip turn asym).klPort p).asym = asym := by
  rw [Device.klPort_congr (t := d.linkUp p trip turn asym)
    (d := (d.delayShown p trip turn asym).setKlPort p { d.klPort p with asym := asym }) rfl, Device.klPort_setKlPort]

end

theorem completes_cal {s : State} {p : Fin 3} {trip turn : Nat} {asym : Int} {P : Device → Prop}
    (hst : s.dev.klState p = 5) (hP : P ((s.dev.calibrated p trip turn asym).klFill p 32).sluice) :
    Completes (.klCalComplete p trip turn asym) s P := by
  have hexec : exec (.klCalComplete p trip turn asym) s = execKlCalComplete p trip turn asym s := rfl
  rw [execKlCalComplete] at hexec
  exact completes_run hexec (if_pos hst) hP

theorem Device.delayShown_shows (d : Device) (p : Nat) (trip turn : Nat) (asym : Int) :
    (d.delayShown p trip turn asym).klState p = 6 ∧ (d.delayShown p trip turn asym).bit (Reg.KL_DELAY_CAL p) = true ∧
    (d.delayShown p trip turn asym).fld (Reg.KL_DELAY_DELAY_PS p)
      = (((trip : Int) - turn) / 2 + asym).toNat % 2 ^ (Reg.KL_DELAY_DELAY_PS p).width := by
  have hne : Reg.KL_STAT p ≠ Reg.KL_DELAY p := by simp [Reg.KL_STAT, Reg.KL_DELAY]
  refine ⟨Device.klState_setF _ _ (by decide), ?_, ?_⟩
  · rw [Device.bit_eq_true, Device.delayShown, Device.fld_setF_other _ _ (.inl hne), Device.fld_setF_same _ _ _ (by simp
      [Reg.KL_DELAY_CAL])]
    simp [Reg.KL_DELAY_CAL]
  · rw [Device.delayShown, Device.fld_setF_other _ _ (.inl hne), Device.fld_setF_other _ _ (.inr (by simp
      [Reg.KL_DELAY_DELAY_PS, Reg.KL_DELAY_CAL])), Device.fld_setF_same _ _ _ (by simp [Reg.KL_DELAY_DELAY_PS]), linkDelay]

theorem Device.calibrated_spec (d : Device) (p : Fin 3) (trip turn : Nat) (asym : Int) {t : Device}
    (ht : t = ((d.calibrated p trip turn asym).klFill p 32).sluice) :
    t.klState p = 6 ∧ t.bit (Reg.KL_DELAY_CAL p) = true ∧ t.fld (Reg.KL_DELAY_DELAY_PS p)
      = (((trip : Int) - turn) / 2 + asym).toNat % 2 ^ (Reg.KL_DELAY_DELAY_PS p).width ∧ (t.klPort p).asym = asym ∧
    d.Logs t 0x144 [wd p, wd (d.peerLane p), t.rd (Reg.KL_DELAY p)] ∧ p.val ∉ t.tri.lost ∧
    d.KeepsRegs t [Reg.SF_GATE, Reg.KL_STAT p, Reg.KL_DELAY p, Reg.EVR_LOSS] ∧ d.KeepsMem t ∧ t.ce = d.ce := by
  have hfill := (d.calibrated p trip turn asym).parcels_klFill p 32
  have hshown := d.plain_delayShown p trip turn asym
  have hout {a : Nat} (ha : ¬(0x4050100 ≤ a ∧ a < 0x40501c0)) : (d.delayShown p trip turn asym).rd a = d.rd a := by
    refine hshown.regs a ?_
    simp only [List.mem_cons, List.not_mem_nil, or_false, not_or]
    exact ⟨linkRegs_ne (klStat_mem p) ha, linkRegs_ne (klDelay_mem p) ha⟩
  have hrd {a : Nat} (ha : a ∈ linkRegs p) : t.rd a = (d.delayShown p trip turn asym).rd a := by
    rw [ht, Device.rd_sluice _ (linkRegs_ne ha (by decide)).symm, hfill.rd, Device.calibrated,
      Device.rd_raise _ _ _ (linkRegs_ne ha (by decide)).symm, Device.rd_linkUp]
  have hfld {f : Fld} (hf : f.addr ∈ linkRegs p) : t.fld f = (d.delayShown p trip turn asym).fld f :=
    Device.fld_congr (hrd hf)
  have hleaves : d.Leaves (· ∈ [Reg.KL_STAT p, Reg.KL_DELAY p, Reg.EVR_LOSS]) ((d.calibrated p trip turn asym).klFill p 32) :=
    (((Device.Leaves.of_plain hshown).mono (by simp +contextual)).trans (d.leaves_linkUp p trip turn asym)).trans
      ((Device.Leaves.of_plain (Device.plain_raise _ _ _ (by simp))).trans (.of_parcels hfill))
  obtain ⟨hstate, hcal, hdelay⟩ := d.delayShown_shows p trip turn asym
  refine ⟨(hfld (klStat_mem p)).trans hstate, ?_, (hfld (klDelay_mem p)).trans hdelay, ?_, ?_, ?_, ht ▸ hleaves.quiet⟩
  · rw [Device.bit, hfld (klDelay_mem p)]
    exact hcal
  · rw [ht, Device.klPort_congr (Device.sluice_kl _), Device.klFill_asym, Device.calibrated,
      Device.klPort_congr (Device.raise_kl _ _ _), d.linkUp_asym]
  · have hwords : [wd p, wd (d.peerLane p), t.rd (Reg.KL_DELAY p)] = [wd p, wd ((d.linkUp p trip turn asym).peerLane p),
        (d.linkUp p trip turn asym).rd (Reg.KL_DELAY p)] := by
      rw [hrd (klDelay_mem p), d.rd_linkUp, Device.peerLane_congr ((d.rd_linkUp p _ _ _ _).trans (hout (by decide)))]
    rw [hwords]
    refine (d.raise_logs (d.linkUp p trip turn asym) 0x144 _ ?_ ?_ ?_).congr ?_
    · rw [d.rd_linkUp, hout (by decide)]
    · simp [Device.linkUp, Device.delayShown]
    · simp [Device.linkUp, Device.delayShown]
    · rw [ht, Device.sluice_evr, hfill.evr, Device.calibrated]
  · rw [ht, Device.sluice_tri, hfill.tri, Device.calibrated, Device.raise_tri, Device.linkUp]
    simp

/-- Settles O41, step by step: a channel locks, deskew ends, a step runs out of time, the peer's identity arrives, CAL
ends. -/
theorem kloulBringUp : Obligations.KloulBringUp := by
  intro s p
  refine ⟨fun ch hst hch => completes_channelLock hst hch (s.dev.channelLocked_spec p ch), fun hst => ?deskew,
    fun h1 h5 => completes_stepTimeout h1 h5 (s.dev.retrained_spec p), fun x hst => ⟨fun hfits => ?fits,
    fun hlane hp hrole => ?twin, fun hlane hp hrole hpeer => ?miswired⟩, fun trip turn asym hst => ?cal⟩
  case deskew =>
    obtain ⟨hstate, hregs, hmem, hce, hevr⟩ := s.dev.deskewed_spec p
    exact completes_deskew hst ⟨hstate, hregs, hmem, hce, hevr, fun hfree hserv m hm =>
      s.dev.deskewed_sends p hfree hserv hm⟩
  case fits => exact completes_identFits hst hfits (s.dev.identTaken_spec p x)
  case twin => exact completes_identTwin hst hlane hp hrole (s.dev.miswired_spec p x _ _ (by decide))
  case miswired => exact completes_identMiswired hst hlane hp hrole hpeer (s.dev.miswired_spec p x _ _ (by decide))
  case cal => exact completes_cal hst (s.dev.calibrated_spec p trip turn asym rfl)

end Sys2Proof.Machine
end

section
/-! SUPPORT. Acknowledgement, replay and retraining of a Kloul port (R234, R238, R269), and the statement about them. -/

namespace Sys2Proof.Machine

/-! ## A port that retrains -/

section
variable (d : Device) (p : Fin 3) (h0 : d.klState p ≠ 0) (h7 : d.klState p ≠ 7)
include h0 h7

theorem Device.klRetrain_shows : (d.klRetrain p).klState p = 1 ∧ (d.klRetrain p).fld (Reg.KL_STAT_CH_LOCK p) = 0 ∧
    ((d.klRetrain p).klPort p).resent = 0 := by
  obtain ⟨hstate, hlock, -, hresent⟩ := (d.linkDropped p).retrained_shows p
  rw [d.klRetrain_eq h0 h7]
  exact ⟨hstate, hlock, hresent⟩

theorem Device.leaves_klRetrain : d.Leaves (· ∈ laneRegs ++ [Reg.KL_STAT p, Reg.KL_ERR p]) (d.klRetrain p) := by
  rw [d.klRetrain_eq h0 h7]
  exact ((Device.Leaves.of_lane (d.laneWork_linkDropped p)).mono fun _ => List.mem_append_left _).trans
    ((Device.leaves_retrained _ p).mono fun _ => List.mem_append_right _)

theorem Device.klRetrain_spec : (d.klRetrain p).sluice.klState p = 1 ∧
    (d.klRetrain p).sluice.fld (Reg.KL_STAT_CH_LOCK p) = 0 ∧ ((d.klRetrain p).sluice.klPort p).resent = 0 ∧
    d.KeepsMem (d.klRetrain p).sluice ∧ (d.klRetrain p).sluice.ce = d.ce := by
  obtain ⟨hstate, hlock, hresent⟩ := d.klRetrain_shows p h0 h7
  refine ⟨(Device.fld_sluice_link _ (klStat_mem p)).trans hstate, (Device.fld_sluice_link _ (klStat_mem p)).trans hlock, ?_,
    (d.leaves_klRetrain p h0 h7).still⟩
  rw [Device.klPort_congr (Device.sluice_kl _), hresent]

/-- Outside the lane roles a port that was UP reports its loss. -/
theorem Device.klRetrain_logs (hlane : d.isLane = false) (hup : d.klState p = 6) :
    d.Logs (d.klRetrain p).sluice 0x145 [wd p, d.rd (Reg.KL_STAT p), d.rd (Reg.KL_ERR p)] := by
  refine (d.raise_logs d 0x145 _ rfl rfl rfl).congr ?_
  obtain ⟨-, hlane', -⟩ := Device.role_congr (d.rd_raise 0x145 [wd p, d.rd (Reg.KL_STAT p), d.rd (Reg.KL_ERR p)]
    (a := Reg.SYS_ROLE) (by decide))
  have hnone : ¬((d.raise 0x145 [wd p, d.rd (Reg.KL_STAT p), d.rd (Reg.KL_ERR p)]).isLane = true ∧ p.val < 2) := by
    rw [hlane', hlane]
    exact fun h => Bool.false_ne_true h.1
  rw [Device.sluice_evr, d.klRetrain_eq h0 h7, Device.retrained_evr, Device.linkDropped, if_pos (show _ = klUp from hup),
    Device.lostLink, if_neg hnone]

end

/-! ## Parcels sent again -/

section
variable (d : Device) (p : Nat) (l : List Parcel)

theorem Device.parcels_klAgain : d.Parcels (d.klAgain p l) := by
  induction l generalizing d with
  | nil => exact .refl d
  | cons m l ih => exact (d.parcels_send _).trans (ih _)

theorem Device.klAgain_kl : (d.klAgain p l).kl = d.kl := by
  induction l generalizing d with
  | nil => rfl
  | cons m l ih => exact (ih _).trans (d.send_kl _)

/-- In service the parcels are sent again in order, marked as a replay. -/
theorem Device.klAgain_sent (hserv : d.bit Reg.SYS_ROLE_NO_SERVICE = false) :
    (d.klAgain p l).sent = (l.map (fun m => Sent.parcel p { m with replay := true })).reverse ++ d.sent := by
  induction l generalizing d with
  | nil => rfl
  | cons m l ih =>
    rw [Device.klAgain, ih _ (((d.parcels_send _).bit _).trans hserv), d.send_parcel p _ hserv]
    simp

/-- The parcels from a SEQ on that are not acknowledged. -/
def Device.unreached (seq : Nat) : List Parcel := (d.klPort p).unacked.filter (fun m => !seqBefore m.seq seq)

/-- Port p with one more replay counted, before it sends. -/
def Device.replayCounted : Device :=
  (d.setKlPort p { d.klPort p with resent := (d.klPort p).resent + 1 }).inc (Reg.KL_ERR_REPLAY p)

theorem Device.klReplay_again {seq : Nat} (hl : d.unreached p seq ≠ []) (hres : (d.klPort p).resent < 4) :
    d.klReplay p seq = (d.replayCounted p).klAgain p (d.unreached p seq) :=
  (if_neg hl).trans (if_neg (Nat.not_le.mpr hres))

/-- After four replays the port retrains. -/
theorem Device.klReplay_retrains {seq : Nat} (hl : d.unreached p seq ≠ []) (hres : 4 ≤ (d.klPort p).resent) :
    d.klReplay p seq = d.klRetrain p := (if_neg hl).trans (if_pos hres)

end

section
variable (d : Device) (p : Fin 3) (l : List Parcel)

theorem Device.leaves_replay : d.Leaves (· ∈ [Reg.KL_ERR p]) ((d.replayCounted p).klAgain p l) :=
  ((Device.Leaves.of_parcels (d.parcels_setKlPort p _)).trans
    (.of_plain (Device.plain_inc _ (f := Reg.KL_ERR_REPLAY p) List.mem_cons_self))).trans
    (.of_parcels (Device.parcels_klAgain _ _ _))

theorem Device.replay_spec {t : Device} (ht : t = ((d.replayCounted p).klAgain p l).sluice) :
    (t.klPort p).resent = (d.klPort p).resent + 1 ∧ (t.klPort p).unacked = (d.klPort p).unacked ∧
    t.fld (Reg.KL_ERR_REPLAY p) = min (d.fld (Reg.KL_ERR_REPLAY p) + 1) (2 ^ (Reg.KL_ERR_REPLAY p).width - 1) ∧
    (d.bit Reg.SYS_ROLE_NO_SERVICE = false →
      t.sent = (l.map (fun m => Sent.parcel p { m with replay := true })).reverse ++ d.sent) ∧
    d.KeepsRegs t [Reg.SF_GATE, Reg.KL_ERR p] ∧ d.KeepsMem t ∧ t.ce = d.ce ∧ t.evr = d.evr := by
  have hport : t.klPort p = { d.klPort p with resent := (d.klPort p).resent + 1 } := by
    rw [ht, Device.klPort_congr (Device.sluice_kl _), Device.klPort_congr (Device.klAgain_kl _ _ _), Device.replayCounted,
      Device.klPort_congr (Device.inc_kl _ _), Device.klPort_setKlPort]
  have hagain := (d.replayCounted p).parcels_klAgain p l
  have hset := d.parcels_setKlPort p { d.klPort p with resent := (d.klPort p).resent + 1 }
  obtain ⟨hregs, hmem, hce⟩ := (d.leaves_replay p l).quiet
  refine ⟨by rw [hport], by rw [hport], ?_, fun hserv => ?_, ht ▸ hregs, ht ▸ hmem, ht ▸ hce, ?_⟩
  · rw [ht, Device.fld_sluice_link _ (klErr_mem p), hagain.fld, Device.replayCounted,
      Device.fld_inc_same _ _ (by simp [Reg.KL_ERR_REPLAY]), hset.fld]
  · have hserv' : (d.replayCounted p).bit Reg.SYS_ROLE_NO_SERVICE = false := by
      rw [← hserv, Device.bit, Device.replayCounted,
        Device.fld_inc_other _ (.inl (linkRegs_ne (klErr_mem p) (by decide)).symm), hset.fld, Device.bit]
    rw [ht, Device.sluice_sent, Device.klAgain_sent _ _ _ hserv', Device.replayCounted, Device.inc_sent,
      Device.setKlPort_sent]
  · rw [ht, Device.sluice_evr, hagain.evr, Device.replayCounted, Device.inc_evr, Device.setKlPort_evr]

end

/-- What an instruction does that asks port p to send the parcels l again. -/
def ReplaysOn (i : Instr) (s : State) (p : Fin 3) (l : List Parcel) : Prop :=
  ((s.dev.klPort p).resent < 4 → Completes i s (fun t =>
    (t.klPort p).resent = (s.dev.klPort p).resent + 1 ∧ (t.klPort p).unacked = (s.dev.klPort p).unacked ∧
    t.fld (Reg.KL_ERR_REPLAY p) = min (s.dev.fld (Reg.KL_ERR_REPLAY p) + 1) (2 ^ (Reg.KL_ERR_REPLAY p).width - 1) ∧
    (s.dev.bit Reg.SYS_ROLE_NO_SERVICE = false →
      t.sent = (l.map (fun m => Sent.parcel p { m with replay := true })).reverse ++ s.dev.sent) ∧
    s.dev.KeepsRegs t [Reg.SF_GATE, Reg.KL_ERR p] ∧ s.dev.KeepsMem t ∧ t.ce = s.dev.ce ∧ t.evr = s.dev.evr)) ∧
  (4 ≤ (s.dev.klPort p).resent → s.dev.klState p ≠ 0 → s.dev.klState p ≠ 7 → Completes i s (fun t =>
    t.klState p = 1 ∧ t.fld (Reg.KL_STAT_CH_LOCK p) = 0 ∧ (t.klPort p).resent = 0 ∧ s.dev.KeepsMem t ∧ t.ce = s.dev.ce))

theorem replaysOn_of_klReplay {i : Instr} {s : State} {p : Fin 3} {seq : Nat} {f : Device → Device}
    (hexec : exec i s = run f s) (hf : f s.dev = s.dev.klReplay p seq) (hl : s.dev.unreached p seq ≠ []) :
    ReplaysOn i s p (s.dev.unreached p seq) :=
  ⟨fun hres => completes_run hexec (hf.trans (s.dev.klReplay_again p hl hres)) (s.dev.replay_spec p _ rfl),
    fun hres h0 h7 => completes_run hexec (hf.trans (s.dev.klReplay_retrains p hl hres)) (s.dev.klRetrain_spec p h0 h7)⟩

theorem replaysOn_nak {s : State} {p : Fin 3} {seq : Nat} (hl : s.dev.unreached p seq ≠ []) :
    ReplaysOn (.nakReceived p seq) s p (s.dev.unreached p seq) := by
  have hexec : exec (.nakReceived p seq) s = execNakReceived p seq s := rfl
  rw [execNakReceived] at hexec
  exact replaysOn_of_klReplay hexec rfl hl

/-- The oldest parcel is sent again, and those after it. -/
theorem replaysOn_timeout {s : State} {p : Fin 3} {m : Parcel} {l : List Parcel}
    (hold : (s.dev.klPort p).unacked = m :: l) (hl : s.dev.unreached p m.seq ≠ []) :
    ReplaysOn (.parcelAckTimeout p) s p (s.dev.unreached p m.seq) := by
  have hexec : exec (.parcelAckTimeout p) s = execParcelAckTimeout p s := rfl
  rw [execParcelAckTimeout] at hexec
  exact replaysOn_of_klReplay hexec (by simp only [hold]) hl

/-! ## An ACK -/

/-- Port p without the parcels that an ACK covers. -/
def Device.klAcked (d : Device) (p seq : Nat) : Device :=
  d.setKlPort p { d.klPort p with unacked := d.unreached p seq, resent :=
    if (decide ((d.unreached p seq).length < (d.klPort p).unacked.length)) = true then 0 else (d.klPort p).resent }

theorem completes_ack {s : State} {p : Fin 3} {seq : Nat} {P : Device → Prop} (hwait : (s.dev.klPort p).waiting = [])
    (hP : P (s.dev.klAcked p seq).sluice) : Completes (.ackReceived p seq) s P := by
  have hexec : exec (.ackReceived p seq) s = execAckReceived p seq s := rfl
  rw [execAckReceived] at hexec
  refine completes_run (t := s.dev.klAcked p seq) hexec ((s.dev.klAcked p seq).klFill_none p 32 ?_) hP
  rw [Device.klAcked, Device.klPort_setKlPort, hwait]

theorem Device.klAcked_spec (d : Device) (p : Fin 3) (seq : Nat) :
    ((d.klAcked p seq).sluice.klPort p).unacked = d.unreached p seq ∧
    (d.unreached p seq ≠ (d.klPort p).unacked → ((d.klAcked p seq).sluice.klPort p).resent = 0) ∧
    d.KeepsRegs (d.klAcked p seq).sluice [Reg.SF_GATE] ∧ d.KeepsMem (d.klAcked p seq).sluice ∧
    (d.klAcked p seq).sluice.ce = d.ce ∧ (d.klAcked p seq).sluice.evr = d.evr ∧ (d.klAcked p seq).sluice.sent = d.sent := by
  have hset : d.Parcels (d.klAcked p seq) := d.parcels_setKlPort p _
  obtain ⟨hregs, hmem, hce⟩ := (Device.Leaves.of_parcels (R := (· ∈ [])) hset).quiet
  refine ⟨?_, fun hgone => ?_, hregs, hmem, hce, (Device.sluice_evr _).trans hset.evr, by
    rw [Device.sluice_sent, Device.klAcked, Device.setKlPort_sent]⟩
  · rw [Device.klPort_congr (Device.sluice_kl _), Device.klAcked, Device.klPort_setKlPort]
  · have hless : (d.unreached p seq).length < (d.klPort p).unacked.length :=
      lt_of_le_of_ne (List.length_filter_le _ _) fun h => hgone (List.filter_sublist.eq_of_length h)
    rw [Device.klPort_congr (Device.sluice_kl _), Device.klAcked, Device.klPort_setKlPort, if_pos (decide_eq_true hless)]

/-! ## A parcel with an error (R234) -/

/-- Code errors and CRC errors are counted, gaps in SEQ are not. -/
def Device.errorCounted (d : Device) (p : Nat) (kind : Fin 3) : Device :=
  if kind = 1 then d else d.inc (Reg.KL_ERR_CRC p)

/-- Port p answers a CRC error or a gap with the SEQ that is missing. -/
def Device.errorAnswered (d : Device) (p : Nat) (kind : Fin 3) : Device :=
  if kind = 2 then d.errorCounted p kind
  else (d.errorCounted p kind).send (.parcel p ⟨pNAK, 0, false, pad8 (leBytes 2 (d.klPort p).rx)⟩)

theorem Device.errorCounted_kl (d : Device) (p : Nat) (kind : Fin 3) : (d.errorCounted p kind).kl = d.kl := by
  unfold Device.errorCounted
  split
  · rfl
  · exact d.inc_kl _

theorem completes_parcelError {s : State} {p kind : Fin 3} {P : Device → Prop} (h4 : 4 ≤ s.dev.klState p)
    (h7 : s.dev.klState p ≠ 7) (hP : P (s.dev.errorAnswered p kind).sluice) : Completes (.klParcelError p kind) s P := by
  have hexec : exec (.klParcelError p kind) s = execKlParcelError p kind s := rfl
  rw [execKlParcelError] at hexec
  have hnot : ¬(s.dev.klState p < klIdent ∨ s.dev.klState p = klMiswired) := by
    simp only [klIdent, klMiswired]
    omega
  have hport := Device.klPort_congr (s.dev.errorCounted_kl p kind) p
  refine completes_run hexec ((if_neg hnot).trans ?_) hP
  rw [Device.errorAnswered, ← hport, ← Device.parcelOut_ack _ _ (.inr rfl)]
  rfl

theorem Device.errorAnswered_spec (d : Device) (p kind : Fin 3) {t : Device} (ht : t = (d.errorAnswered p kind).sluice) :
    t.fld (Reg.KL_ERR_CRC p) = (if kind.val = 1 then d.fld (Reg.KL_ERR_CRC p)
      else min (d.fld (Reg.KL_ERR_CRC p) + 1) (2 ^ (Reg.KL_ERR_CRC p).width - 1)) ∧
    t.klPort p = d.klPort p ∧ d.KeepsRegs t [Reg.SF_GATE, Reg.KL_ERR p] ∧ d.KeepsMem t ∧ t.ce = d.ce ∧ t.evr = d.evr ∧
    (d.bit Reg.SYS_ROLE_NO_SERVICE = false → t.sent =
      if kind.val = 2 then d.sent else .parcel p ⟨4, 0, false, pad8 (leBytes 2 (d.klPort p).rx)⟩ :: d.sent) := by
  have hcount : d.Plain (· ∈ [Reg.KL_ERR p]) (d.errorCounted p kind) :=
    .ite (.refl d) (d.plain_inc (f := Reg.KL_ERR_CRC p) List.mem_cons_self)
  have hsend : (d.errorCounted p kind).Parcels (d.errorAnswered p kind) := .ite (.refl _) (Device.parcels_send _ _)
  have hcounted : (d.errorCounted p kind).evr = d.evr ∧ (d.errorCounted p kind).sent = d.sent := by
    unfold Device.errorCounted
    split <;> simp
  have hkl : (d.errorAnswered p kind).kl = d.kl := by
    unfold Device.errorAnswered
    split
    · exact d.errorCounted_kl p kind
    · exact (Device.send_kl _ _).trans (d.errorCounted_kl p kind)
  obtain ⟨hregs, hmem, hce⟩ := ((Device.Leaves.of_plain hcount).trans (.of_parcels hsend)).quiet
  refine ⟨?_, ht ▸ (Device.klPort_congr (Device.sluice_kl _) p).trans (Device.klPort_congr hkl p), ht ▸ hregs, ht ▸ hmem,
    ht ▸ hce, ?_, fun hserv => ?_⟩
  · rw [ht, Device.fld_sluice_link _ (klErr_mem p), hsend.fld, Device.errorCounted]
    split
    · next h1 => rw [if_pos (c := kind.val = 1) (congrArg Fin.val h1)]
    · next h1 => rw [if_neg (c := kind.val = 1) fun h => h1 (Fin.ext h), Device.fld_inc_same _ _ (by simp [Reg.KL_ERR_CRC])]
  · rw [ht, Device.sluice_evr, hsend.evr, hcounted.1]
  · have hserv' : (d.errorCounted p kind).bit Reg.SYS_ROLE_NO_SERVICE = false := by
      rw [← hserv, Device.bit, Device.fld_congr (hcount.regs _ ?_), Device.bit]
      simpa using linkRegs_ne (klErr_mem p) (by decide)
    rw [ht, Device.sluice_sent, Device.errorAnswered]
    split
    · next h2 => rw [if_pos (c := kind.val = 2) (congrArg Fin.val h2), hcounted.2]
    · next h2 => rw [if_neg (c := kind.val = 2) fun h => h2 (Fin.ext h), Device.send_parcel _ _ _ hserv', hcounted.2, pNAK]

/-! ## RETRAIN (R269) -/

theorem portNumber (p : Fin 3) : (BitVec.ofNat 24 p.val).toNat = p.val := by
  rw [BitVec.toNat_ofNat, Nat.mod_eq_of_lt (by omega)]

theorem exec_retrain (s : State) (p : Fin 3) :
    exec (.retrain (BitVec.ofNat 24 p)) s = run (fun d => d.cmdRetrain p) s := by
  have hexec : exec (.retrain (BitVec.ofNat 24 p)) s = execRetrain (BitVec.ofNat 24 p) s := rfl
  rw [hexec, execRetrain, portNumber]

theorem done_retrain {s : State} {p : Fin 3} (hfree : s.dev.klVoting p = false) (h0 : s.dev.klState p ≠ 0)
    (h7 : s.dev.klState p ≠ 7) : Done (.retrain (BitVec.ofNat 24 p)) s portKL (fun t =>
      t.klState p = 1 ∧ t.fld (Reg.KL_STAT_CH_LOCK p) = 0 ∧ s.dev.KeepsMem t ∧ t.ce = s.dev.ce) := by
  have hleaves := s.dev.leaves_klRetrain p h0 h7
  obtain ⟨hstate, hlock, -⟩ := s.dev.klRetrain_shows p h0 h7
  have hport {f : Fld} (hf : f.addr ∈ linkRegs p) :
      ((s.dev.klRetrain p).endCmd portKL 0).sluice.fld f = (s.dev.klRetrain p).fld f :=
    (Device.fld_sluice_link _ hf).trans (Device.fld_endCmd _ _ _ (linkRegs_ne hf (by decide)).symm)
  have hstat : (s.dev.klRetrain p).rd portKL.stat = s.dev.rd portKL.stat := by
    refine hleaves.regs _ fun hmem => ?_
    rcases List.mem_append.mp hmem with hmem | hmem
    · exact absurd hmem (by decide)
    · simp only [List.mem_cons, List.not_mem_nil, or_false] at hmem
      exact hmem.elim (linkRegs_ne (klStat_mem p) (by decide)) (linkRegs_ne (klErr_mem p) (by decide))
  refine done_run (exec_retrain s p) (body := fun d => d.klRetrain p) rfl ?_ (by decide) hstat
    ⟨(hport (klStat_mem p)).trans hstate, (hport (klStat_mem p)).trans hlock, ?_⟩
  · rw [hfree, decide_eq_true p.isLt]
    rfl
  · exact (Device.Leaves.trans (hleaves.mono fun _ _ => trivial)
      (.of_plain (R := fun _ => True) (Device.plain_endCmd _ portKL 0 trivial))).still

/-- On a link between two lanes in VOTING the command ends with code 3. -/
theorem completes_retrain_refused {s : State} {p : Fin 3} (hvoting : s.dev.klVoting p = true)
    (hfree : s.dev.fld portKL.busy = 0) : Completes (.retrain (BitVec.ofNat 24 p)) s (fun t =>
      t.Ended s.dev portKL 3 ∧ s.dev.Writes t [Reg.KL_CMD_STATUS, Reg.EVR_LOSS]) := by
  have hbusy : s.dev.bit portKL.busy = false := by simp [Device.bit, hfree]
  obtain ⟨l, hrefused⟩ : ∃ l, s.dev.cmdRetrain p = (s.dev.endCmd portKL 3).raise 0x140 l :=
    ⟨_, by simp [Device.cmdRetrain, Device.commandNow, Device.command, hbusy, hvoting]; rfl⟩
  have hplain : s.dev.Plain (· ∈ [Reg.KL_CMD_STATUS, Reg.EVR_LOSS]) ((s.dev.endCmd portKL 3).raise 0x140 l) :=
    (s.dev.plain_endCmd portKL 3 (by simp [portKL])).trans (Device.plain_raise _ _ _ (by simp))
  have hshow (f : Fld) (hf : f.addr = portKL.stat) :
      ((s.dev.endCmd portKL 3).raise 0x140 l).sluice.fld f = (s.dev.endCmd portKL 3).sluice.fld f := by
    have hgate : f.addr ≠ Reg.SF_GATE := hf ▸ (by decide)
    rw [Device.fld_sluice _ hgate, Device.fld_sluice _ hgate, Device.fld_raise _ _ _ (hf ▸ by decide)]
  obtain ⟨hbusy', hcode, hseq⟩ := s.dev.endCmd_ended portKL (code := 3) (by decide) (by decide)
  exact completes_run (exec_retrain s p) hrefused ⟨⟨(hshow _ rfl).trans hbusy', (hshow _ rfl).trans hcode,
    (hshow _ rfl).trans hseq⟩, hplain.writes⟩

/-- Settles O42, for an ACK, a NAK, an ACK that stays away, an error of the link, an error of a parcel, and RETRAIN. -/
theorem kloulReplay : Obligations.KloulReplay := by
  intro s p
  refine ⟨fun seq hwait => completes_ack hwait (s.dev.klAcked_spec p seq), fun seq hl => replaysOn_nak hl,
    fun m l hold hl => replaysOn_timeout hold hl, fun h0 h7 => ?linkError,
    fun h4 h7 kind => completes_parcelError h4 h7 (s.dev.errorAnswered_spec p kind rfl),
    fun hfree h0 h7 => done_retrain hfree h0 h7, fun hvoting hfree => completes_retrain_refused hvoting hfree⟩
  case linkError =>
    have hexec : exec (.klLinkErrorRetrain p) s = execKlLinkErrorRetrain p s := rfl
    rw [execKlLinkErrorRetrain] at hexec
    obtain ⟨hstate, hlock, -, hmem, hce⟩ := s.dev.klRetrain_spec p h0 h7
    exact completes_run hexec rfl ⟨hstate, hlock, hmem, hce, s.dev.klRetrain_logs p h0 h7⟩

end Sys2Proof.Machine
end

section
/-! SUPPORT. States of lanes and exclusions (R244, R257–R262): what a lane that takes a state, or is excluded, shows, and
what these operations leave of the triad's state. -/

namespace Sys2Proof.Machine

/-! ## The triad's state -/

/-- Beside the times of states and of the own exclusion, and LANE_OK, t holds the triad's state of d. -/
def Device.NotesLanes (d t : Device) : Prop :=
  ∃ at' ok ex, t.tri = { d.tri with stateAt := at', laneOk := ok, exclAt := ex }

namespace Device.NotesLanes

variable {d t u : Device}

theorem of_eq (h : t.tri = d.tri) : d.NotesLanes t := ⟨d.tri.stateAt, d.tri.laneOk, d.tri.exclAt, h⟩

theorem refl (d : Device) : d.NotesLanes d := of_eq rfl

theorem trans (h : d.NotesLanes t) (g : t.NotesLanes u) : d.NotesLanes u := by
  obtain ⟨a, ok, ex, h⟩ := h
  obtain ⟨a', ok', ex', g⟩ := g
  exact ⟨a', ok', ex', by rw [g, h]⟩

theorem ite {p : Prop} [Decidable p] (h : d.NotesLanes t) (g : d.NotesLanes u) : d.NotesLanes (if p then t else u) := by
  split <;> assumption

end Device.NotesLanes

section
variable (d : Device)

theorem Device.service_tri : d.service.tri = d.tri := by
  simp only [Device.service]
  split
  · rfl
  · rw [Device.raise_tri, Device.setF_tri]

theorem Device.notesLanes_laneShown (i st : Nat) : d.NotesLanes (d.laneShown i st) := by
  refine ⟨sput zeroAt d.tri.stateAt i d.ts64, d.tri.laneOk, d.tri.exclAt, ?_⟩
  rw [Device.laneShown, Device.raise_tri]
  split <;> simp

theorem Device.notesLanes_laneSluice (i st : Nat) (t : Device) : t.NotesLanes (d.laneSluice i st t) :=
  .ite ⟨t.tri.stateAt, false, t.tri.exclAt, by rw [Device.slAssert_tri]⟩ (.refl t)

theorem Device.notesLanes_toLane (i st : Nat) : d.NotesLanes (d.toLane i st) := by
  by_cases h : d.laneState i = st
  · rw [Device.toLane, if_pos h]
    exact .refl d
  · rw [Device.toLane_new h]
    exact ((d.notesLanes_laneShown i st).trans (d.notesLanes_laneSluice i st _)).trans (.of_eq (Device.service_tri _))

theorem Device.notesLanes_ownExcluded (i code : Nat) : d.NotesLanes (d.ownExcluded i code) :=
  ⟨d.tri.stateAt, d.tri.laneOk, _, by rw [Device.ownExcluded, (Device.parcels_ring _ _ _).tri]; simp; rfl⟩

theorem Device.notesLanes_excludeOne (i code : Nat) : d.NotesLanes (d.excludeOne i code) :=
  .ite (.refl d) (((Device.NotesLanes.ite (d.notesLanes_ownExcluded i code) (.refl d)).trans
    (.of_eq (Device.raise_tri _ _ _))).trans (Device.notesLanes_toLane _ _ _))

theorem Device.notesLanes_exclude (i code : Nat) : d.NotesLanes (d.exclude i code) :=
  (d.notesLanes_excludeOne i code).trans (.ite (Device.notesLanes_excludeOne _ _ _) (.refl _))

/-! ## Registers -/

theorem Device.rd_tri (k : TriState) (a : Nat) : ({ d with tri := k } : Device).rd a = d.rd a := rfl

/-- A lane that takes a state writes TRI_LANE_STAT, the recorder's loss count and Sluice. -/
theorem Device.rd_toLane (i st : Nat) {a : Nat} (hlane : a ≠ Reg.TRI_LANE_STAT) (hloss : a ≠ Reg.EVR_LOSS)
    (hs : a ≠ Reg.SF_SLUICE_STAT) (hf : a ≠ Reg.SF_SLUICE_FLAGS) (hg : a ≠ Reg.SF_GATE) :
    (d.toLane i st).rd a = d.rd a := by
  have hserv (t : Device) : t.service.rd a = t.rd a := by
    simp only [Device.service]
    split
    · rfl
    · rw [Device.rd_raise _ _ _ hloss, Device.rd_setF_other _ _ (show a ≠ Reg.TRI_LANE_STAT_SERVICE.addr from hlane)]
  have hsl (t : Device) : (d.laneSluice i st t).rd a = t.rd a :=
    Device.rd_ite (d := t) (Device.rd_slAssert _ _ hs hf hg hloss) rfl
  by_cases h : d.laneState i = st
  · rw [Device.toLane, if_pos h]
  · rw [Device.toLane_new h, hserv, hsl, Device.laneShown, Device.rd_raise _ _ _ hloss]
    have hset : (d.setF (laneFld i) st).rd a = d.rd a := d.rd_setF_other _ (by rwa [laneFld_addr])
    split
    · rw [Device.rd_setF_other _ _ (show a ≠ Reg.TRI_LANE_STAT_STATE.addr from hlane), Device.rd_tri, hset]
    · rw [Device.rd_tri, hset]

/-! ## Fields of TRI_LANE_STAT -/

theorem laneFld_ne {i j : Nat} (hi : i < 3) (hj : j < 3) (h : i ≠ j) : (laneFld i).Apart (laneFld j) := by
  have hall : ∀ a b : Fin 3, a ≠ b → (laneFld a).Apart (laneFld b) := by decide
  exact hall ⟨i, hi⟩ ⟨j, hj⟩ fun e => h (Fin.mk.inj e)

/-- A lane that took a state shows it. -/
theorem Device.laneState_toLane (i : Nat) {st : Nat} (hst : st < 8) : (d.toLane i st).laneState i = st := by
  by_cases h : d.laneState i = st
  · rw [Device.toLane, if_pos h, h]
  · obtain ⟨hw, hfit⟩ := laneFld_width i
    obtain ⟨hown, hserv, -, -⟩ := laneFld_apart i
    rw [Device.laneState, Device.fld_toLane h (laneFld_addr i) hown hserv, Device.fld_setF_same _ _ _ (by rwa [hw]), hw]
    exact Nat.mod_eq_of_lt hst

/-- A field of TRI_LANE_STAT that shows neither the lane i, the own state nor the service level, as lane i takes a state. -/
theorem Device.fld_toLane_kept (i st : Nat) {f : Fld} (hf : f.addr = Reg.TRI_LANE_STAT)
    (hown : Reg.TRI_LANE_STAT_STATE.Apart f) (hserv : Reg.TRI_LANE_STAT_SERVICE.Apart f) (hi : (laneFld i).Apart f) :
    (d.toLane i st).fld f = d.fld f := by
  by_cases h : d.laneState i = st
  · rw [Device.toLane, if_pos h]
  · rw [Device.fld_toLane h hf hown hserv, Device.fld_setF_other _ _ hi]

/-! ## Exclusion -/

/-- Lane j shows EXCLUDED, and if it is the own lane, the cause. -/
def Device.ShowsExcluded (j code : Nat) : Prop :=
  d.laneState j = 3 ∧ (j = d.lane → d.fld Reg.TRI_LANE_STAT_EXCL_CAUSE = code)

end

theorem Device.LaneWork.role {d t : Device} (h : d.LaneWork t) :
    t.role = d.role ∧ t.isLane = d.isLane ∧ t.lane = d.lane := Device.role_congr (h.regs _ (by decide))

section
variable {d : Device} {i j code : Nat}

/-- A lane that is excluded stays as it is. -/
theorem Device.excludeOne_excluded (h : d.laneState i = 3) (code : Nat) : d.excludeOne i code = d :=
  if_pos (by simp [h, lsVoting, lsMinority, lsReadmit])

/-- What the exclusion of lane i leaves of TRI_LANE_STAT. -/
theorem Device.fld_excludeOne {f : Fld} (hf : f.addr = Reg.TRI_LANE_STAT) (hown : Reg.TRI_LANE_STAT_STATE.Apart f)
    (hserv : Reg.TRI_LANE_STAT_SERVICE.Apart f) (hi : (laneFld i).Apart f)
    (hcause : i = d.lane → Reg.TRI_LANE_STAT_EXCL_CAUSE.Apart f) : (d.excludeOne i code).fld f = d.fld f := by
  by_cases h : (!d.isLane || !(d.laneState i = lsVoting || d.laneState i = lsMinority || d.laneState i = lsReadmit)) = true
  · rw [Device.excludeOne, if_pos h]
  · obtain ⟨l, hout⟩ := d.excludeOne_in code h
    rw [hout, Device.fld_toLane_kept _ _ _ hf hown hserv hi, Device.fld_raise _ _ _ (by rw [hf]; decide)]
    split
    · next hlane => rw [d.fld_ownExcluded _ _ hf, Device.fld_setF_other _ _ (hcause hlane)]
    · rfl

theorem Device.laneState_excludeOne_other (hi : i < 3) (hj : j < 3) (h : i ≠ j) :
    (d.excludeOne i code).laneState j = d.laneState j := by
  obtain ⟨hown, hserv, -, hcause⟩ := laneFld_apart j
  exact Device.fld_excludeOne (laneFld_addr j) hown hserv (laneFld_ne hi hj h) fun _ => hcause

theorem Device.votes_excludeOne_other (hi : i < 3) (hj : j < 3) (h : i ≠ j) :
    (d.excludeOne i code).votes j = d.votes j := by
  rw [Device.votes, Device.laneState_excludeOne_other hi hj h, Device.votes]

/-- A lane that counted as in VOTING shows its exclusion. -/
theorem Device.excludeOne_shows (hlane : d.isLane = true) (hv : d.votes i = true)
    (hcode : i = d.lane → code < 16) : (d.excludeOne i code).ShowsExcluded i code := by
  have hin : ¬(!d.isLane || !(d.laneState i = lsVoting || d.laneState i = lsMinority || d.laneState i = lsReadmit)) = true := by
    simp only [Device.votes] at hv
    simp [hlane, hv]
  obtain ⟨l, hout⟩ := d.excludeOne_in code hin
  obtain ⟨-, -, hlane'⟩ := (d.laneWork_excludeOne i code).role
  refine ⟨?_, fun hown => ?_⟩
  · rw [hout]
    exact Device.laneState_toLane _ _ (by decide)
  · obtain ⟨-, -, hcause, -⟩ := laneFld_apart i
    rw [hout, Device.fld_toLane_kept _ _ _ rfl (by decide) (by decide) hcause, Device.fld_raise _ _ _ (by decide),
      if_pos (hown.trans hlane'), d.fld_ownExcluded _ _ rfl, Device.fld_setF_same _ _ _ (by decide)]
    exact Nat.mod_eq_of_lt (hcode (hown.trans hlane'))

/-- An exclusion leaves what another lane, or one already excluded, shows. -/
theorem Device.ShowsExcluded.excludeOne (h : d.ShowsExcluded j code) (hi : i < 3) (hj : j < 3) (code' : Nat) :
    (d.excludeOne i code').ShowsExcluded j code := by
  by_cases hij : i = j
  · rw [hij, Device.excludeOne_excluded h.1]
    exact h
  · obtain ⟨hstate, hcause⟩ := h
    obtain ⟨-, -, hlane⟩ := (d.laneWork_excludeOne i code').role
    obtain ⟨-, -, hap, -⟩ := laneFld_apart i
    refine ⟨(Device.laneState_excludeOne_other hi hj hij).trans hstate, fun hown => ?_⟩
    rw [Device.fld_excludeOne rfl (by decide) (by decide) hap fun hi' => absurd (hi'.trans (hlane.symm.trans hown.symm)) hij]
    exact hcause (hown.trans hlane)

end

section
variable (d : Device) {l code : Nat}

theorem Device.lane_lt (hlane : d.isLane = true) : d.lane < 3 := by
  rw [Device.lane, if_pos hlane]
  simp only [Device.isLane, Bool.and_eq_true, decide_eq_true_eq] at hlane
  omega

/-- The exclusion of a lane shows, also when the last lane in VOTING follows. -/
theorem Device.exclude_shows (hlane : d.isLane = true) (hl : l < 3) (hv : d.votes l = true)
    (hcode : l = d.lane → code < 16) : (d.exclude l code).ShowsExcluded l code := by
  have hout := d.excludeOne_shows hlane hv hcode
  obtain ⟨-, hlane', -⟩ := (d.laneWork_excludeOne l code).role
  simp only [Device.exclude]
  split
  · exact hout.excludeOne (Device.lane_lt _ (hlane'.trans hlane)) hl 10
  · exact hout

/-- Lanes excluded one after the other show it. -/
theorem Device.ShowsExcluded.foldl {j : Nat} (hj : j < 3) (hcode : code < 16) (vs : List Nat) :
    ∀ d : Device, d.isLane = true → (∀ i ∈ vs, i < 3) → d.ShowsExcluded j code ∨ (d.votes j = true ∧ j ∈ vs) →
      (vs.foldl (fun d i => d.excludeOne i code) d).ShowsExcluded j code := by
  induction vs with
  | nil => exact fun d _ _ h => h.resolve_right fun hn => absurd hn.2 List.not_mem_nil
  | cons i vs ih =>
    intro d hlane hall h
    obtain ⟨hi, hall⟩ := List.forall_mem_cons.mp hall
    obtain ⟨-, hlane', -⟩ := (d.laneWork_excludeOne i code).role
    refine ih _ (hlane'.trans hlane) hall ?_
    rcases h with h | ⟨hv, hmem⟩
    · exact .inl (h.excludeOne hi hj code)
    · by_cases hij : i = j
      · subst hij
        exact .inl (Device.excludeOne_shows hlane hv fun _ => hcode)
      · exact .inr ⟨(Device.votes_excludeOne_other hi hj hij).trans hv, (List.mem_cons.mp hmem).resolve_left (Ne.symm hij)⟩

theorem Device.mem_votingLanes {j : Nat} : j ∈ d.votingLanes ↔ j < 3 ∧ d.votes j = true := by
  rw [Device.votingLanes, List.mem_filter, List.mem_range]

/-- When every lane in VOTING is excluded, each of them shows it. -/
theorem Device.excludeAll_shows {j : Nat} (hlane : d.isLane = true) (hcode : code < 16) (hj : j < 3) (hv : d.votes j = true)
    {vs : List Nat} (hvs : vs = d.votingLanes) :
    (vs.foldl (fun d i => d.excludeOne i code) d).ShowsExcluded j code := by
  subst hvs
  exact .foldl hj hcode _ d hlane (fun i hi => (d.mem_votingLanes.mp hi).1) (.inr ⟨hv, d.mem_votingLanes.mpr ⟨hj, hv⟩⟩)

theorem Device.laneWork_excludeAll (vs : List Nat) (code : Nat) :
    d.LaneWork (vs.foldl (fun d i => d.excludeOne i code) d) := by
  induction vs generalizing d with
  | nil => exact .refl d
  | cons i vs ih => exact (d.laneWork_excludeOne i code).trans (ih _)

end

end Sys2Proof.Machine
end

section
/-! SUPPORT. Readmission of a lane (R263–R265, R270): the commands, the automatic requests, the transfer and its timeout, and
the statement about them. -/

namespace Sys2Proof.Machine

/-! ## EXCLUDE, SHADOW and READMIT -/

theorem Device.laneState_congr {d t : Device} (h : t.rd Reg.TRI_LANE_STAT = d.rd Reg.TRI_LANE_STAT) (i : Nat) :
    t.laneState i = d.laneState i := Device.fld_congr (by rwa [laneFld_addr])

theorem Device.laneState_sluice (d : Device) (i : Nat) : d.sluice.laneState i = d.laneState i :=
  Device.laneState_congr (d.rd_sluice (by decide)) i

/-- A command of the triad that changes its state alone, and ends with code 0. -/
theorem Device.triEnded_spec (d : Device) (k : TriState) {t : Device}
    (ht : t = (({ d with tri := k } : Device).endCmd portTRI 0).sluice) :
    t.tri = k ∧ d.KeepsRegs t [Reg.SF_GATE, Reg.TRI_CMD_STATUS] ∧ d.KeepsMem t ∧ t.ce = d.ce := by
  have hleaves : d.Leaves (· ∈ [Reg.TRI_CMD_STATUS]) (({ d with tri := k } : Device).endCmd portTRI 0) :=
    d.leaves_units.trans (.of_plain (Device.plain_endCmd _ portTRI 0 List.mem_cons_self))
  exact ⟨by rw [ht, Device.sluice_tri, Device.endCmd_tri], ht ▸ hleaves.quiet⟩

theorem done_exclude {s : State} {l : Fin 3} (hself : s.dev.votesSelf = true) (hv : s.dev.votes l = true)
    (hthree : 3 ≤ s.dev.votingLanes.length) : Done (.exclude (BitVec.ofNat 24 l)) s portTRI (fun t =>
      t.tri = { s.dev.tri with exclReq := l.val :: s.dev.tri.exclReq } ∧
      s.dev.KeepsRegs t [Reg.SF_GATE, Reg.TRI_CMD_STATUS] ∧ s.dev.KeepsMem t ∧ t.ce = s.dev.ce) := by
  have hexec : exec (.exclude (BitVec.ofNat 24 l)) s = execExclude (BitVec.ofNat 24 l) s := rfl
  rw [execExclude, portNumber] at hexec
  exact done_run hexec (body := fun d => { d with tri := { d.tri with exclReq := l.val :: d.tri.exclReq } }) rfl
    (by simp [hself, hv, hthree]) (by decide) rfl (s.dev.triEnded_spec _ rfl)

theorem done_shadow {s : State} (hlane : s.dev.isLane = true) (hst : s.dev.fld Reg.TRI_LANE_STAT_STATE = 3) :
    Done (.shadow 0) s portTRI (fun t => t.laneState s.dev.lane = 4 ∧ s.dev.KeepsMem t ∧ t.ce = s.dev.ce) := by
  have hexec : exec (.shadow 0) s = execShadow 0 s := rfl
  rw [execShadow] at hexec
  have hleaves : s.dev.Leaves (fun _ => True) ((s.dev.toLane s.dev.lane lsShadow).endCmd portTRI 0) :=
    ((Device.Leaves.of_lane (s.dev.laneWork_toLane _ _)).mono fun _ _ => trivial).trans
      (.of_plain (Device.plain_endCmd _ portTRI 0 trivial))
  refine done_run hexec (body := fun d => d.toLane d.lane lsShadow) rfl ?_ (by decide)
    (s.dev.rd_toLane _ _ (by decide) (by decide) (by decide) (by decide) (by decide)) ⟨?_, hleaves.still⟩
  · simp [hlane, hst, lsExcluded]
  · rw [Device.laneState_sluice, Device.laneState_congr (Device.rd_endCmd _ _ _ (by decide)),
      Device.laneState_toLane _ _ (by decide), lsShadow]

theorem done_readmit {s : State} (hok : s.dev.readmitOk = true) : Done (.readmit 0) s portTRI (fun t =>
    t.tri = { s.dev.tri with readmitReq := true } ∧ s.dev.KeepsRegs t [Reg.SF_GATE, Reg.TRI_CMD_STATUS] ∧
    s.dev.KeepsMem t ∧ t.ce = s.dev.ce) := by
  have hexec : exec (.readmit 0) s = execReadmit 0 s := rfl
  rw [execReadmit] at hexec
  exact done_run hexec (body := fun d => d.askReadmit) rfl (by rw [hok]; rfl) (by decide) rfl (s.dev.triEnded_spec _ rfl)

/-! ## The automatic requests (R263) -/

theorem completes_autoReadmit {s : State} (hok : s.dev.readmitOk = true) (hauto : s.dev.bit Reg.TRI_CFG_AUTO_READMIT = true)
    (hatt : s.dev.fld Reg.TRI_RDM_STAT_ATTEMPTS < 3) (hreq : s.dev.tri.readmitReq = false) :
    Completes .autoReadmitRequest s (fun t => t.tri = { s.dev.tri with readmitReq := true } ∧
      t.fld Reg.TRI_RDM_STAT_ATTEMPTS = s.dev.fld Reg.TRI_RDM_STAT_ATTEMPTS + 1 ∧
      s.dev.KeepsRegs t [Reg.SF_GATE, Reg.TRI_RDM_STAT] ∧ s.dev.KeepsMem t ∧ t.ce = s.dev.ce) := by
  have hexec : exec .autoReadmitRequest s = execAutoReadmitRequest s := rfl
  rw [execAutoReadmitRequest] at hexec
  have hleaves : s.dev.Leaves (· ∈ [Reg.TRI_RDM_STAT]) (s.dev.inc Reg.TRI_RDM_STAT_ATTEMPTS).askReadmit :=
    (Device.Leaves.of_plain (s.dev.plain_inc (f := Reg.TRI_RDM_STAT_ATTEMPTS) List.mem_cons_self)).trans (Device.leaves_units _)
  refine completes_run hexec (if_pos ⟨hauto, hok, hatt, by simp [hreq]⟩) ⟨?_, ?_, hleaves.quiet⟩
  · rw [Device.sluice_tri, Device.askReadmit, Device.inc_tri]
  · rw [Device.fld_sluice _ (by decide), Device.askReadmit, Device.fld_tri, Device.fld_inc_same _ _ (by decide)]
    exact Nat.min_eq_left (by simp only [Reg.TRI_RDM_STAT_ATTEMPTS] at hatt ⊢; omega)

theorem completes_autoReset {s : State} {n : Nat} (hlane : s.dev.isLane = true) (hat : s.dev.tri.exclAt = some n)
    (hticks : n + 100 ≤ s.dev.tickCount) (hauto : s.dev.bit Reg.TRI_CFG_AUTO_RESET = true)
    (hst : s.dev.fld Reg.TRI_LANE_STAT_STATE = 3) (hfit : s.dev.sluiceFit = false) :
    Completes .autoResetRequest s (fun t => t.sys.request.testBit srcTriAuto = true ∧
      s.dev.KeepsRegs t [Reg.SF_GATE] ∧ s.dev.KeepsMem t ∧ t.ce = s.dev.ce) := by
  have hexec : exec .autoResetRequest s = execAutoResetRequest s := rfl
  rw [execAutoResetRequest] at hexec
  have hleaves : s.dev.Leaves (· ∈ []) (s.dev.requestReset srcTriAuto) := Device.leaves_units _
  refine completes_run (t := s.dev.requestReset srcTriAuto) hexec ?_ ⟨?_, hleaves.quiet⟩
  · simp only [hat]
    exact if_pos ⟨hlane, hauto, hst, by simp [hfit], hticks⟩
  · rw [Device.sluice_sys, Device.requestReset, testBit_putBit, if_pos rfl]

/-! ## The transfer (R264, R265) -/

/-- The readmitting lane keeps the granules and the FINAL of lane l. -/
def Device.xferTaken (d : Device) (l g : Nat) (data : List Byte) (final : Option Nat) : Device :=
  let d2 : Device := { d with tri := { d.tri with
    xfer := [(g, data)].foldl (fun m p => sput noBytes m p.1 p.2) d.tri.xfer
    finals := match final with
      | some t => (l, t) :: d.tri.finals.filter (fun p => decide (p.1 ≠ l))
      | none => d.tri.finals } }
  (d2.setF Reg.TRI_RDM_STAT_PHASE (if final.isSome then 3 else if d2.tri.readmitTicks = 0 then 1 else 2)).setF
    Reg.TRI_RDM_STAT_KIB_LEFT (min 16383 ((xferSize - d2.tri.xfer.length) / 4))

theorem Device.xferTaken_tri (d : Device) (l g : Nat) (data : List Byte) (final : Option Nat) :
    sget noBytes (d.xferTaken l g data final).tri.xfer g = data ∧
    ∀ k, final = some k → (l, k) ∈ (d.xferTaken l g data final).tri.finals := by
  simp only [Device.xferTaken, Device.setF_tri]
  refine ⟨sget_sput_same noBytes d.tri.xfer g data, ?_⟩
  rintro k rfl
  exact List.mem_cons_self

theorem Device.xferTaken_phase (d : Device) (l g : Nat) (data : List Byte) (k : Nat) :
    (d.xferTaken l g data (some k)).fld Reg.TRI_RDM_STAT_PHASE = 3 := by
  rw [Device.xferTaken, Device.fld_setF_other _ _ (by decide), Device.fld_setF_same _ _ _ (by decide)]
  rfl

theorem Device.leaves_xferTaken (d : Device) (l g : Nat) (data : List Byte) (final : Option Nat) :
    d.Leaves (· ∈ [Reg.TRI_RDM_STAT]) (d.xferTaken l g data final) :=
  d.leaves_units.trans (.of_plain ((Device.plain_setF _ (f := Reg.TRI_RDM_STAT_PHASE) _ List.mem_cons_self).trans
    (Device.plain_setF _ (f := Reg.TRI_RDM_STAT_KIB_LEFT) _ List.mem_cons_self)))

/-- A granule of the donor's retained area. -/
def Device.retainedTaken (d : Device) (g : Nat) (data : List Byte) : Device :=
  { d with img := { d.img with retained := [(g, data)].foldl (fun m p => mapPut m (256 * p.1) p.2) d.img.retained } }

section
variable {s : State} {l : Fin 3} (g : Nat) (data : List Byte) (final : Option Nat) (hlane : s.dev.isLane = true)
  (hl : l.val ≠ s.dev.lane)
include hlane hl

theorem completes_xfer_readmit (hst : s.dev.fld Reg.TRI_LANE_STAT_STATE = 5) :
    Completes (.xferParcelReceived l [(g, data)] final) s (fun t =>
      sget noBytes t.tri.xfer g = data ∧ (∀ k, final = some k → (l.val, k) ∈ t.tri.finals ∧
        t.fld Reg.TRI_RDM_STAT_PHASE = 3) ∧
      s.dev.KeepsRegs t [Reg.SF_GATE, Reg.TRI_RDM_STAT] ∧ s.dev.KeepsMem t ∧ t.ce = s.dev.ce) := by
  have hexec : exec (.xferParcelReceived l [(g, data)] final) s = execXferParcelReceived l [(g, data)] final s := rfl
  rw [execXferParcelReceived] at hexec
  have hgot := s.dev.parcels_gotParcel (s.dev.portTo l)
  have hleaves := (Device.Leaves.of_parcels hgot).trans (Device.leaves_xferTaken _ l.val g data final)
  obtain ⟨hxfer, hfinals⟩ := (s.dev.gotParcel (s.dev.portTo l)).xferTaken_tri l g data final
  refine completes_run hexec ((if_neg (by simp [hlane, hl])).trans (if_pos ((hgot.fld _).trans hst)))
    ⟨(congrArg (fun k : TriState => sget noBytes k.xfer g) (Device.sluice_tri _)).trans hxfer, fun k hk => ⟨?_, ?_⟩,
      hleaves.quiet⟩
  · rw [Device.sluice_tri]
    exact hfinals k hk
  · subst hk
    exact (Device.fld_sluice _ (by decide)).trans (Device.xferTaken_phase _ _ _ _ _)

/-- Before a start a member of the start set takes the donor's retained area (R247). -/
theorem completes_xfer_retained (hst : s.dev.fld Reg.TRI_LANE_STAT_STATE ≠ 5) (hdonor : s.dev.tri.donor = some l.val)
    (hstart : s.dev.tick.started = false) : Completes (.xferParcelReceived l [(g, data)] final) s (fun t =>
      t.img.retained = mapPut s.dev.img.retained (256 * g) data ∧ s.dev.KeepsRegs t [Reg.SF_GATE] ∧
      s.dev.KeepsMem t ∧ t.ce = s.dev.ce) := by
  have hexec : exec (.xferParcelReceived l [(g, data)] final) s = execXferParcelReceived l [(g, data)] final s := rfl
  rw [execXferParcelReceived] at hexec
  have hgot := s.dev.parcels_gotParcel (s.dev.portTo l)
  have htick : (s.dev.gotParcel (s.dev.portTo l)).tick = s.dev.tick := by
    obtain ⟨k, m, h⟩ := hgot
    rw [h]
  have hleaves : s.dev.Leaves (· ∈ []) ((s.dev.gotParcel (s.dev.portTo l)).retainedTaken g data) :=
    (Device.Leaves.of_parcels hgot).trans (Device.leaves_units _)
  refine completes_run (t := (s.dev.gotParcel (s.dev.portTo l)).retainedTaken g data) hexec
    ((if_neg (by simp [hlane, hl])).trans ((if_neg ((hgot.fld _).trans_ne hst)).trans
    (if_pos ⟨by rw [hgot.tri, hdonor], by rw [htick, hstart]; rfl⟩))) ⟨?_, hleaves.quiet⟩
  rw [Device.sluice_img, Device.retainedTaken, hgot.img]
  rfl

end

/-! ## The timeout (R265) -/

/-- What abandoning a readmission records, before the lane returns to SHADOW. -/
def Device.readmitDropped (d : Device) (reason : Nat) : Device :=
  let d1 := d.raise 0x14C [wd d.lane, wd reason, d.rd Reg.TRI_RDM_STAT]
  let d2 := (d1.setF Reg.TRI_RDM_STAT_PHASE 0).setF Reg.TRI_RDM_STAT_KIB_LEFT 0
  { d2 with tri := { d2.tri with xfer := [], finals := [] } }

theorem Device.abandonReadmit_eq {d : Device} (hlane : d.isLane = true) (hst : d.fld Reg.TRI_LANE_STAT_STATE = 5)
    (reason : Nat) : d.abandonReadmit reason = (d.readmitDropped reason).toLane d.lane lsShadow := if_pos ⟨hlane, hst⟩

theorem Device.readmitDropped_phase (d : Device) (reason : Nat) :
    (d.readmitDropped reason).fld Reg.TRI_RDM_STAT_PHASE = 0 := by
  rw [Device.readmitDropped, Device.fld_tri, Device.fld_setF_other _ _ (by decide), Device.fld_setF_same _ _ _ (by decide)]
  rfl

theorem completes_readmitTimeout {s : State} (hlane : s.dev.isLane = true) (hst : s.dev.fld Reg.TRI_LANE_STAT_STATE = 5)
    (hticks : max 1 (s.dev.fld Reg.TRI_RDM_CFG_TIMEOUT_TICKS) ≤ s.dev.tri.readmitTicks) :
    Completes .readmitTimeout s (fun t => t.laneState s.dev.lane = 4 ∧ t.tri.xfer = [] ∧ t.tri.finals = [] ∧
      t.fld Reg.TRI_RDM_STAT_PHASE = 0 ∧ s.dev.KeepsMem t ∧ t.ce = s.dev.ce) := by
  have hexec : exec .readmitTimeout s = execReadmitTimeout s := rfl
  rw [execReadmitTimeout] at hexec
  have hleaves := Device.Leaves.of_lane (s.dev.laneWork_abandonReadmit 1)
  rw [Device.abandonReadmit_eq hlane hst] at hleaves
  obtain ⟨a, ok, ex, htri⟩ := (s.dev.readmitDropped 1).notesLanes_toLane s.dev.lane lsShadow
  refine completes_run hexec ((if_pos hticks).trans (Device.abandonReadmit_eq hlane hst 1)) ⟨?_, ?_, ?_, ?_, hleaves.still⟩
  · rw [Device.laneState_sluice, Device.laneState_toLane _ _ (by decide), lsShadow]
  · rw [Device.sluice_tri, htri]
    rfl
  · rw [Device.sluice_tri, htri]
    rfl
  · rw [Device.fld_sluice _ (by decide), Device.fld_congr (Device.rd_toLane _ _ _ (by decide) (by decide) (by decide)
      (by decide) (by decide)), Device.readmitDropped_phase]

/-- Settles O45, for each command, automatic request and parcel. -/
theorem triadReadmission : Obligations.TriadReadmission := by
  intro s hlane
  exact ⟨fun l hself hv hthree => done_exclude hself hv hthree, fun hst => done_shadow hlane hst,
    fun hok => done_readmit hok, fun hok hauto hatt hreq => completes_autoReadmit hok hauto hatt hreq,
    fun n hat hticks hauto hst hfit => completes_autoReset hlane hat hticks hauto hst hfit,
    fun l g data final hl => ⟨fun hst => completes_xfer_readmit g data final hlane hl hst,
      fun hst hdonor hstart => completes_xfer_retained g data final hlane hl hst hdonor hstart⟩,
    fun hst hticks => completes_readmitTimeout hlane hst hticks⟩

end Sys2Proof.Machine
end

section
/-! SUPPORT. The vote exchange, the fetch of segments and the exclusions (R242, R250, R254–R262), and the statement about
them. -/

namespace Sys2Proof.Machine

/-! ## Parcels leave what the exchange reads -/

section
variable {d t : Device} (h : d.Parcels t)
include h

theorem Device.Parcels.tickCount : t.tickCount = d.tickCount := by
  rw [Device.tickCount, h.rd, h.rd, Device.tickCount]

theorem Device.Parcels.votes (i : Nat) : t.votes i = d.votes i := by
  rw [Device.votes, Device.laneState, h.fld, Device.votes, Device.laneState]

theorem Device.Parcels.elemRange (id : Nat) : t.elemRange id = d.elemRange id := by
  obtain ⟨g, m, rfl⟩ := h
  rfl

theorem Device.Parcels.toFetch : t.toFetch = d.toFetch := by
  obtain ⟨g, m, rfl⟩ := h
  rfl

theorem Device.Parcels.majority (id : Nat) : t.majority id = d.majority id := by
  obtain ⟨g, m, rfl⟩ := h
  rfl

end

/-! ## What the exchange keeps once a vote message is noted -/

/-- The device t differs from d as lanes that change state do, and holds the vote messages of d and what was read of them. -/
structure Device.VoteKept (d t : Device) : Prop where
  votes : t.tri.votes = d.tri.votes
  perm : t.tri.lastPerm = d.tri.lastPerm
  bundle : t.tri.runBundle = d.tri.runBundle
  tick : t.tri.runTick = d.tri.runTick
  work : d.LaneWork t

namespace Device.VoteKept

variable {d t u : Device}

theorem refl (d : Device) : d.VoteKept d := ⟨rfl, rfl, rfl, rfl, .refl d⟩

theorem trans (h : d.VoteKept t) (g : t.VoteKept u) : d.VoteKept u :=
  ⟨g.votes.trans h.votes, g.perm.trans h.perm, g.bundle.trans h.bundle, g.tick.trans h.tick, h.work.trans g.work⟩

theorem ite {p : Prop} [Decidable p] (h : d.VoteKept t) (g : d.VoteKept u) : d.VoteKept (if p then t else u) := by
  split <;> assumption

theorem of_notes (h : d.NotesLanes t) (hw : d.LaneWork t) : d.VoteKept t := by
  obtain ⟨a, ok, ex, h⟩ := h
  exact ⟨by rw [h], by rw [h], by rw [h], by rw [h], hw⟩

end Device.VoteKept

theorem Device.LaneWork.img {d t : Device} (h : d.LaneWork t) : t.img = d.img := by
  obtain ⟨r, v, s, f, k, g, m, rfl⟩ := h.form
  rfl

section
variable (d : Device)

theorem Device.voteKept_toLane (i st : Nat) : d.VoteKept (d.toLane i st) :=
  .of_notes (d.notesLanes_toLane i st) (d.laneWork_toLane i st)

theorem Device.voteKept_raise (code : Nat) (l : List Word) : d.VoteKept (d.raise code l) :=
  .of_notes (.of_eq (d.raise_tri code l)) (d.laneWork_raise code l)

theorem Device.voteKept_joinRunning (l : Nat) (m : VoteMsg) : d.VoteKept (d.joinRunning l m) := by
  have hask : d.VoteKept d.askReadmit := ⟨rfl, rfl, rfl, rfl, d.laneWork_tri _⟩
  have htold : d.VoteKept { d with tri := { d.tri with joinTold := true } } := ⟨rfl, rfl, rfl, rfl, d.laneWork_tri _⟩
  exact .ite (.refl d) (.ite (.ite (.refl d) (htold.trans (Device.voteKept_raise _ _ _)))
    (.ite (hask.trans (Device.voteKept_toLane _ _ _))
      ((Device.VoteKept.ite (.refl d) (d.voteKept_raise _ _)).trans (Device.voteKept_toLane _ _ _))))

/-- The device asks lane i for an element. -/
def Device.segAsked (d : Device) (id i : Nat) : Device :=
  ({ d with tri := { d.tri with asked := id :: d.tri.asked } } : Device).kloul (d.portTo i) pSEGMENT (0 :: leBytes 8 id)

/-- Each element is asked for where it was not asked for before, and where a lane has it. -/
theorem Device.askSegs_cons (id : Nat) (l : List Nat) :
    d.askSegs (id :: l) = d.askSegs l ∨ ∃ i, d.askSegs (id :: l) = (d.segAsked id i).askSegs l := by
  rw [Device.askSegs]
  split
  · exact .inl rfl
  · split
    · exact .inr ⟨_, rfl⟩
    · exact .inl rfl

theorem Device.parcels_segAsked (id i : Nat) :
    ({ d with tri := { d.tri with asked := id :: d.tri.asked } } : Device).Parcels (d.segAsked id i) :=
  Device.parcels_kloul _ _ _ _

theorem Device.voteKept_segAsked (id i : Nat) : d.VoteKept (d.segAsked id i) := by
  have hsent := d.parcels_segAsked id i
  exact ⟨by rw [hsent.tri], by rw [hsent.tri], by rw [hsent.tri], by rw [hsent.tri],
    (d.laneWork_tri _).trans (Device.laneWork_kloul _ _ _ _)⟩

/-- Requests for segments write no register. -/
theorem Device.askSegs_spec (l : List Nat) : d.VoteKept (d.askSegs l) ∧ ∀ a, (d.askSegs l).rd a = d.rd a := by
  induction l generalizing d with
  | nil => exact ⟨.refl d, fun _ => rfl⟩
  | cons id l ih =>
    rcases d.askSegs_cons id l with h | ⟨i, h⟩
    · rw [h]
      exact ih d
    · obtain ⟨hkept, hrd⟩ := ih (d.segAsked id i)
      rw [h]
      exact ⟨(d.voteKept_segAsked id i).trans hkept, fun a => (hrd a).trans (((d.parcels_segAsked id i).rd a).trans rfl)⟩

/-! ## A vote message (R254, R256) -/

/-- A lane that says VOTING or MINORITY counts as in VOTING. -/
theorem stateVotes {st : Nat} (h : st = 1 ∨ st = 2) : (decide (st = lsVoting) || decide (st = lsMinority)) = true := by
  rcases h with h | h <;> simp [h, lsVoting, lsMinority]

/-- The device with a vote message of lane l noted. -/
def Device.voteNoted (l : Nat) (m : VoteMsg) : Device :=
  let votes := decide (m.state = lsVoting) || decide (m.state = lsMinority)
  { d with
    tri := { d.tri with
      votes := sput noVote d.tri.votes l (some m)
      lastPerm := sput zeroAt d.tri.lastPerm l m.perm
      runBundle := if votes then some m.bundle else d.tri.runBundle
      runTick := if votes then m.tick else d.tri.runTick
      exitSeen := if votes then d.tri.exitSeen.filter (fun i => decide (i ≠ l)) else d.tri.exitSeen }
    img := if m.forces ≠ [] ∧ d.img.staged = [] then
        { d.img with staged := m.forces, stagedOwn := false, stagedAge := 0, confirmed := false }
      else d.img
    sc := if m.key.isSome ∧ d.sc.stage.isNone then
        { d.sc with stage := m.key, stageOwn := false, stageAge := 0, stageOk := false }
      else d.sc }

/-- Staged force changes show in IMG_STAT. -/
def Device.stagedShown : Device := if d.img.staged ≠ [] then d.setF Reg.IMG_STAT_FORCE_PEND 1 else d

/-- The sender's state is taken over. -/
def Device.senderState (l : Nat) (m : VoteMsg) : Device :=
  if inService m.state && inService (d.laneState l) then d else d.toLane l m.state

/-- What follows once a vote message is noted: the sender's state, joining a running triad, requests for segments. -/
def Device.voteFollowed (l : Nat) (m : VoteMsg) : Device :=
  let d4 := d.senderState l m
  let d5 := if decide (m.state = lsVoting) || decide (m.state = lsMinority) then d4.joinRunning l m else d4
  d5.askSegs d5.toFetch

theorem Device.voteKept_voteFollowed (l : Nat) (m : VoteMsg) : d.VoteKept (d.voteFollowed l m) := by
  have hstate : d.VoteKept (d.senderState l m) := .ite (.refl d) (d.voteKept_toLane l m.state)
  exact (hstate.trans (.ite (Device.voteKept_joinRunning _ l m) (.refl _))).trans (Device.askSegs_spec _ _).1

/-- A sender that is EXCLUDED is seen as EXCLUDED. -/
theorem Device.laneState_voteFollowed (l : Nat) {m : VoteMsg} (h3 : m.state = 3) :
    (d.voteFollowed l m).laneState l = 3 := by
  have hstate : d.senderState l m = d.toLane l 3 := by simp [Device.senderState, h3, inService, lsVoting, lsMinority]
  have hfollow : d.voteFollowed l m = (d.toLane l 3).askSegs (d.toLane l 3).toFetch := by
    simp [Device.voteFollowed, hstate, h3, lsVoting, lsMinority]
  rw [hfollow, Device.laneState_congr ((Device.askSegs_spec _ _).2 _), Device.laneState_toLane _ _ (by decide)]

theorem Device.leaves_voteNoted {R : Nat → Prop} (l : Nat) (m : VoteMsg) : d.Leaves R (d.voteNoted l m) := d.leaves_units

theorem Device.stagedShown_tri : d.stagedShown.tri = d.tri := by
  unfold Device.stagedShown
  split <;> simp

theorem Device.stagedShown_img : d.stagedShown.img = d.img := by
  unfold Device.stagedShown
  split <;> simp

theorem Device.leaves_stagedShown : d.Leaves (· ∈ [Reg.IMG_STAT]) d.stagedShown :=
  .ite (.of_plain (d.plain_setF (f := Reg.IMG_STAT_FORCE_PEND) 1 List.mem_cons_self)) (.refl d)

theorem Device.stagedShown_pend (h : d.img.staged ≠ []) : d.stagedShown.bit Reg.IMG_STAT_FORCE_PEND = true := by
  rw [Device.bit_eq_true, Device.stagedShown, if_pos h, Device.fld_setF_same _ _ _ (by decide)]
  decide

end

section
variable {s : State} {l : Fin 3} {m : VoteMsg} (hlane : s.dev.isLane = true) (hl : l.val ≠ s.dev.lane)
include hlane hl

theorem completes_vote (hexit : s.dev.tri.exitSeen.contains l.val = false) {P : Device → Prop}
    (hP : P ((((s.dev.gotParcel (s.dev.portTo l)).voteNoted l m).stagedShown).voteFollowed l m).sluice) :
    Completes (.voteParcelReceived l m) s P := by
  have hexec : exec (.voteParcelReceived l m) s = execVoteParcelReceived l m s := rfl
  rw [execVoteParcelReceived] at hexec
  have hgot := s.dev.parcels_gotParcel (s.dev.portTo l)
  exact completes_run hexec ((if_neg (by simp [hlane, hl])).trans (if_neg (by rw [hgot.tri, hexit]; simp))) hP

/-- A lane that has left and lags is not heard. -/
theorem completes_vote_ignored (hexit : s.dev.tri.exitSeen.contains l.val = true) (hst : m.state = 1 ∨ m.state = 2)
    (hv : s.dev.votes l = false) (htick : m.tick ≤ s.dev.tickCount) : Completes (.voteParcelReceived l m) s (fun t =>
      t.tri = s.dev.tri ∧ s.dev.KeepsRegs t [Reg.SF_GATE] ∧ s.dev.KeepsMem t ∧ t.ce = s.dev.ce) := by
  have hexec : exec (.voteParcelReceived l m) s = execVoteParcelReceived l m s := rfl
  rw [execVoteParcelReceived] at hexec
  have hgot := s.dev.parcels_gotParcel (s.dev.portTo l)
  refine completes_run hexec ((if_neg (by simp [hlane, hl])).trans (if_pos ?_))
    ⟨(Device.sluice_tri _).trans hgot.tri, (Device.Leaves.of_parcels (R := (· ∈ [])) hgot).quiet⟩
  rw [stateVotes hst, hgot.tri, hexit, hgot.votes, hv, hgot.tickCount, decide_eq_true htick]
  rfl

end

theorem Device.voteTaken_spec (d : Device) (q l : Nat) (m : VoteMsg) {t : Device}
    (ht : t = ((((d.gotParcel q).voteNoted l m).stagedShown).voteFollowed l m).sluice) :
    sget noVote t.tri.votes l = some m ∧ sget zeroAt t.tri.lastPerm l = m.perm ∧
    (m.state = 1 ∨ m.state = 2 → t.tri.runBundle = some m.bundle ∧ t.tri.runTick = m.tick) ∧
    (m.state = 3 → t.laneState l = 3) ∧
    (m.forces ≠ [] → d.img.staged = [] → t.img.staged = m.forces ∧ t.bit Reg.IMG_STAT_FORCE_PEND = true) ∧
    d.KeepsMem t ∧ t.ce = d.ce := by
  have hgot := d.parcels_gotParcel q
  obtain ⟨hvotes, hperm, hbundle, htick, hwork⟩ := Device.voteKept_voteFollowed ((d.gotParcel q).voteNoted l m).stagedShown l m
  have hleaves : d.Leaves (fun _ => True) ((((d.gotParcel q).voteNoted l m).stagedShown).voteFollowed l m) :=
    (((Device.Leaves.of_parcels hgot).trans (Device.leaves_voteNoted _ l m)).trans
      ((Device.leaves_stagedShown _).mono fun _ _ => trivial)).trans ((Device.Leaves.of_lane hwork).mono fun _ _ => trivial)
  have htri : ((d.gotParcel q).voteNoted l m).stagedShown.tri = ((d.gotParcel q).voteNoted l m).tri :=
    Device.stagedShown_tri _
  refine ⟨?_, ?_, fun hst => ⟨?_, ?_⟩, fun h3 => ?_, fun hforces hnone => ?_, ht ▸ hleaves.still⟩
  · rw [ht, Device.sluice_tri, hvotes, htri]
    exact sget_sput_same noVote (d.gotParcel q).tri.votes l (some m)
  · rw [ht, Device.sluice_tri, hperm, htri]
    exact sget_sput_same zeroAt (d.gotParcel q).tri.lastPerm l m.perm
  · rw [ht, Device.sluice_tri, hbundle, htri]
    exact if_pos (stateVotes hst)
  · rw [ht, Device.sluice_tri, htick, htri]
    exact if_pos (stateVotes hst)
  · rw [ht, Device.laneState_sluice, Device.laneState_voteFollowed _ _ h3]
  · have himg : ((d.gotParcel q).voteNoted l m).img.staged = m.forces := by
      rw [Device.voteNoted, hgot.img]
      exact congrArg ImgState.staged (if_pos ⟨hforces, hnone⟩)
    refine ⟨?_, ?_⟩
    · rw [ht, Device.sluice_img, hwork.img, Device.stagedShown_img, himg]
    · have hrd : t.rd Reg.IMG_STAT = ((d.gotParcel q).voteNoted l m).stagedShown.rd Reg.IMG_STAT := by
        rw [ht, Device.rd_sluice _ (by decide), hwork.regs _ (by decide)]
      rw [Device.bit, Device.fld_congr (f := Reg.IMG_STAT_FORCE_PEND) hrd]
      exact Device.stagedShown_pend _ (by rwa [himg])

/-! ## Segments (R255) -/

/-- The content of an element taken into the frozen image. -/
def Device.segmentTaken (d : Device) (id a : Nat) (data : List Byte) : Device :=
  { d with img := { d.img with frozen := mapPut d.img.frozen a data }
           tri := { d.tri with fetched := sput falseAt d.tri.fetched id true } }

section
variable {s : State} {l : Fin 3} {id a n : Nat} (hlane : s.dev.isLane = true) (hl : l.val ≠ s.dev.lane)
  (hrange : s.dev.elemRange id = some (a, n))
include hlane hl hrange

/-- A requested segment is sent from the frozen image. -/
theorem completes_segment_request {q : Nat} (hq : q = s.dev.portTo l) (hup : s.dev.klState q = 6)
    (hfree : (s.dev.klPort q).unacked.length < 32) (hserv : s.dev.bit Reg.SYS_ROLE_NO_SERVICE = false) :
    Completes (.segmentParcelReceived l id none) s (fun t =>
      (∃ ack, t.sent = .parcel q ⟨8, (s.dev.klPort q).tx, false,
        pad8 (1 :: leBytes 8 id ++ mapGet s.dev.img.frozen a n)⟩ :: .parcel q ack :: s.dev.sent) ∧
      t.img = s.dev.img ∧ s.dev.KeepsRegs t [Reg.SF_GATE] ∧ s.dev.KeepsMem t ∧ t.ce = s.dev.ce) := by
  subst hq
  have hexec : exec (.segmentParcelReceived l id none) s = execSegmentParcelReceived l id none s := rfl
  rw [execSegmentParcelReceived] at hexec
  have hgot := s.dev.parcels_gotParcel (s.dev.portTo l)
  have hport : (s.dev.gotParcel (s.dev.portTo l)).portTo l = s.dev.portTo l := by
    obtain ⟨-, -, hl'⟩ := Device.role_congr (hgot.rd Reg.SYS_ROLE)
    rw [Device.portTo, hl', Device.portTo]
  have hfree' : ((s.dev.gotParcel (s.dev.portTo l)).klPort (s.dev.portTo l)).unacked.length < 32 := by
    rwa [Device.gotParcel_klPort]
  have hm : (⟨8, (s.dev.klPort (s.dev.portTo l)).tx, false,
      pad8 (1 :: leBytes 8 id ++ mapGet s.dev.img.frozen a n)⟩ : Parcel) = ⟨pSEGMENT, ((s.dev.gotParcel (s.dev.portTo l)).klPort
        (s.dev.portTo l)).tx, false, pad8 (1 :: leBytes 8 id ++ mapGet s.dev.img.frozen a n)⟩ := by
    rw [Device.gotParcel_klPort, pSEGMENT]
  have hout := (s.dev.gotParcel (s.dev.portTo l)).parcels_parcelOut (s.dev.portTo l) pSEGMENT
    (1 :: leBytes 8 id ++ mapGet s.dev.img.frozen a n)
  obtain ⟨ack, hack⟩ := s.dev.gotParcel_sent (s.dev.portTo l) hserv
  refine completes_run (t := (s.dev.gotParcel (s.dev.portTo l)).parcelOut (s.dev.portTo l) pSEGMENT
      (1 :: leBytes 8 id ++ mapGet s.dev.img.frozen a n)) hexec ((if_neg (by simp [hlane, hl])).trans ?_)
    ⟨⟨ack, ?_⟩, by rw [Device.sluice_img, hout.img, hgot.img], (Device.Leaves.of_parcels (R := (· ∈ [])) (hgot.trans hout)).quiet⟩
  · simp only [hgot.elemRange, hrange, hport, hgot.img]
    exact if_pos ((hgot.fld _).trans hup)
  · rw [Device.sluice_sent, Device.parcelOut_free (ptype := pSEGMENT) _ _ (by decide) _ hfree' hm, Device.send_parcel,
      Device.setKlPort_sent, hack]
    rw [(Device.parcels_setKlPort _ _ _).bit, hgot.bit, hserv]

/-- Content with the majority's CRC is taken into the frozen image. -/
theorem completes_segment_taken {data : List Byte} (hfetch : s.dev.toFetch.contains id = true) (hlen : data.length = n)
    (hcrc : s.dev.majority id = some (crc32c data)) : Completes (.segmentParcelReceived l id (some data)) s (fun t =>
      t.img.frozen = mapPut s.dev.img.frozen a data ∧ sget falseAt t.tri.fetched id = true ∧
      s.dev.KeepsRegs t [Reg.SF_GATE] ∧ s.dev.KeepsMem t ∧ t.ce = s.dev.ce) := by
  have hexec : exec (.segmentParcelReceived l id (some data)) s = execSegmentParcelReceived l id (some data) s := rfl
  rw [execSegmentParcelReceived] at hexec
  have hgot := s.dev.parcels_gotParcel (s.dev.portTo l)
  have hleaves : s.dev.Leaves (· ∈ []) ((s.dev.gotParcel (s.dev.portTo l)).segmentTaken id a data) :=
    (Device.Leaves.of_parcels hgot).trans (Device.leaves_units _)
  refine completes_run (t := (s.dev.gotParcel (s.dev.portTo l)).segmentTaken id a data) hexec
    ((if_neg (by simp [hlane, hl])).trans ?_) ⟨?_, ?_, hleaves.quiet⟩
  · simp only [hgot.elemRange, hrange, hgot.toFetch, hgot.majority]
    exact if_pos ⟨hfetch, hlen, hcrc⟩
  · rw [Device.sluice_img, Device.segmentTaken, hgot.img]
  · rw [Device.sluice_tri, Device.segmentTaken]
    exact sget_sput_same falseAt (s.dev.gotParcel (s.dev.portTo l)).tri.fetched id true

end

/-! ## Exclusions (R257–R262) -/

/-- The instruction i excludes lane l, the own lane with a cause. -/
def Excludes (i : Instr) (s : State) (l cause : Nat) : Prop :=
  Completes i s (fun t => t.laneState l = 3 ∧ (l = s.dev.lane → t.fld Reg.TRI_LANE_STAT_EXCL_CAUSE = cause) ∧
    s.dev.KeepsMem t ∧ t.ce = s.dev.ce)

/-- The instruction i excludes every lane in VOTING with a cause. -/
def ExcludesAll (i : Instr) (s : State) (cause : Nat) : Prop :=
  Completes i s (fun t => (∀ l, l < 3 → s.dev.votes l = true → t.laneState l = 3) ∧
    t.fld Reg.TRI_LANE_STAT_EXCL_CAUSE = cause ∧ s.dev.KeepsMem t ∧ t.ce = s.dev.ce)

/-- What a lane shows of its exclusion stays as Sluice acts. -/
theorem Device.ShowsExcluded.sluice {d t : Device} {l code : Nat} (h : t.ShowsExcluded l code) (hw : d.LaneWork t) :
    t.sluice.laneState l = 3 ∧ (l = d.lane → t.sluice.fld Reg.TRI_LANE_STAT_EXCL_CAUSE = code) := by
  obtain ⟨hstate, hcause⟩ := h
  obtain ⟨-, -, hlane⟩ := hw.role
  exact ⟨(t.laneState_sluice l).trans hstate, fun hown => (t.fld_sluice (by decide)).trans (hcause (hown.trans hlane.symm))⟩

section
variable {i : Instr} {s : State} {f : Device → Device} {code : Nat} {k : TriState} (hexec : exec i s = run f s)
  (hlane : s.dev.isLane = true) (hcode : code < 16)
include hexec hlane hcode

theorem excludes_of_run {l : Nat} (hl : l < 3) (hv : s.dev.votes l = true)
    (hf : f s.dev = ({ s.dev with tri := k } : Device).exclude l code) : Excludes i s l code := by
  have hwork := (s.dev.laneWork_tri k).trans (Device.laneWork_exclude _ l code)
  obtain ⟨hstate, hcause⟩ := (Device.exclude_shows { s.dev with tri := k } hlane hl hv fun _ => hcode).sluice hwork
  exact completes_run hexec hf ⟨hstate, hcause, (Device.Leaves.of_lane hwork).still⟩

theorem excludesAll_of_run (hself : s.dev.votesSelf = true)
    (hf : f s.dev = s.dev.votingLanes.foldl (fun d i => d.excludeOne i code) { s.dev with tri := k }) :
    ExcludesAll i s code := by
  have hwork := (s.dev.laneWork_tri k).trans (Device.laneWork_excludeAll _ s.dev.votingLanes code)
  have hshows {l : Nat} (hl : l < 3) (hv : s.dev.votes l = true) :=
    (Device.excludeAll_shows { s.dev with tri := k } hlane hcode hl hv (vs := s.dev.votingLanes) rfl).sluice hwork
  have hown : s.dev.votes s.dev.lane = true := by
    rw [Device.votesSelf, hlane] at hself
    exact hself
  exact completes_run hexec hf ⟨fun l hl hv => (hshows hl hv).1, (hshows (s.dev.lane_lt hlane) hown).2 rfl,
    (Device.Leaves.of_lane hwork).still⟩

end

section
variable {s : State} (hlane : s.dev.isLane = true) (hself : s.dev.votesSelf = true)
include hlane hself

theorem excludes_misaligned {l : Fin 3} (hv : s.dev.votes l = true) (hnot2 : s.dev.votingLanes.length ≠ 2)
    (hbad : 3 ≤ sget zeroAt s.dev.tri.alignBad l) : Excludes (.alignExclusion l) s l 6 := by
  have hexec : exec (.alignExclusion l) s = execAlignExclusion l s := rfl
  rw [execAlignExclusion] at hexec
  exact excludes_of_run (k := s.dev.tri) hexec hlane (by decide) l.isLt hv ((if_neg (by simp [hself])).trans
    ((if_neg fun h => hnot2 h.1).trans (if_pos ⟨hbad, hv⟩)))

theorem excludesAll_misaligned (l : Fin 3) (htwo : s.dev.votingLanes.length = 2) (hbad : 3 ≤ s.dev.tri.twoBad) :
    ExcludesAll (.alignExclusion l) s 10 := by
  have hexec : exec (.alignExclusion l) s = execAlignExclusion l s := rfl
  rw [execAlignExclusion] at hexec
  exact excludesAll_of_run (k := s.dev.tri) hexec hlane (by decide) hself ((if_neg (by simp [hself])).trans
    (if_pos ⟨htwo, hbad⟩))

theorem excludes_absent {l : Fin 3} (hv : s.dev.votes l = true) (habsent : 3 ≤ sget zeroAt s.dev.tri.absent l) :
    Excludes (.absentExclusion l) s l 7 := by
  have hexec : exec (.absentExclusion l) s = execAbsentExclusion l s := rfl
  rw [execAbsentExclusion] at hexec
  exact excludes_of_run hexec hlane (by decide) l.isLt hv (if_pos ⟨hself, hv, habsent⟩)

/-- A lane in the minority: cause 4 where it sent no CRCs, else 5. -/
theorem excludes_minority {l : Fin 3} (hv : s.dev.votes l = true)
    (hlimit : max 1 (s.dev.fld Reg.TRI_CFG_MIN_LIMIT) ≤ s.dev.minOf l) :
    Excludes (.minorityExclusion l) s l (if 3 ≤ sget zeroAt s.dev.tri.nrLane l then 4 else 5) := by
  have hexec : exec (.minorityExclusion l) s = execMinorityExclusion l s := rfl
  rw [execMinorityExclusion] at hexec
  exact excludes_of_run hexec hlane (by split <;> decide) l.isLt hv (if_pos ⟨hself, hv, hlimit⟩)

theorem excludesAll_noMajority (hno : 3 ≤ s.dev.tri.noMaj) : ExcludesAll .nomajExclusion s 11 := by
  have hexec : exec .nomajExclusion s = execNomajExclusion s := rfl
  rw [execNomajExclusion] at hexec
  exact excludesAll_of_run hexec hlane (by decide) hself (if_pos ⟨hself, hno⟩)

theorem excludesAll_mismatch (hmis : 3 ≤ s.dev.tri.mismatch) : ExcludesAll .twoLaneMismatchExclusion s 10 := by
  have hexec : exec .twoLaneMismatchExclusion s = execTwoLaneMismatchExclusion s := rfl
  rw [execTwoLaneMismatchExclusion] at hexec
  exact excludesAll_of_run hexec hlane (by decide) hself (if_pos ⟨hself, hmis⟩)

end

/-! ## EXIT of another lane (R258) -/

/-- The device does not count the vote and the contribution of lane l any more. -/
def Device.exitNoted (d : Device) (l : Nat) : Device :=
  { d with tri := { d.tri with contrib := sput noData d.tri.contrib l none, votes := serase l d.tri.votes,
                               exitSeen := l :: d.tri.exitSeen.filter (fun i => decide (i ≠ l)) } }

theorem completes_ctrlExit {s : State} {l : Fin 3} (code : Nat) (hlane : s.dev.isLane = true) (hl : l.val ≠ s.dev.lane)
    (hv : s.dev.votes l = true) : Completes (.ctrlExitReceived l code) s (fun t => t.laneState l = 3 ∧
      sget noData t.tri.contrib l = none ∧ l.val ∈ t.tri.exitSeen ∧ s.dev.KeepsMem t ∧ t.ce = s.dev.ce) := by
  have hexec : exec (.ctrlExitReceived l code) s = execCtrlExitReceived l code s := rfl
  rw [execCtrlExitReceived] at hexec
  have hgot := s.dev.parcels_gotParcel (s.dev.portTo l)
  obtain ⟨-, hlane', hown⟩ := Device.role_congr (hgot.rd Reg.SYS_ROLE)
  have hv' : (s.dev.gotParcel (s.dev.portTo l)).votes l = true := (hgot.votes l).trans hv
  have hshows : (((s.dev.gotParcel (s.dev.portTo l)).exitNoted l).exclude l code).ShowsExcluded l code :=
    Device.exclude_shows _ (hlane'.trans hlane) l.isLt hv' fun h => absurd (h.trans hown) hl
  have hwork : ((s.dev.gotParcel (s.dev.portTo l)).exitNoted l).LaneWork
      (((s.dev.gotParcel (s.dev.portTo l)).exitNoted l).exclude l code) := Device.laneWork_exclude _ l code
  have hleaves : s.dev.Leaves (fun _ => True) (((s.dev.gotParcel (s.dev.portTo l)).exitNoted l).exclude l code) :=
    ((Device.Leaves.of_parcels hgot).trans (Device.leaves_units _)).trans
      ((Device.Leaves.of_lane hwork).mono fun _ _ => trivial)
  obtain ⟨a, ok, ex, htri⟩ := ((s.dev.gotParcel (s.dev.portTo l)).exitNoted l).notesLanes_exclude l code
  refine completes_run hexec ((if_pos ⟨hlane, hl⟩).trans (if_pos hv')) ⟨(hshows.sluice hwork).1, ?_, ?_, hleaves.still⟩
  · rw [Device.sluice_tri]
    refine (congrArg (fun k : TriState => sget noData k.contrib l) htri).trans ?_
    exact sget_sput_same noData (s.dev.gotParcel (s.dev.portTo l)).tri.contrib l none
  · rw [Device.sluice_tri]
    exact (congrArg TriState.exitSeen htri) ▸ List.mem_cons_self

/-- Settles O44, for the vote messages, the segments, the exclusions, and EXIT of another lane. -/
theorem triadVoting : Obligations.TriadVoting := by
  intro s hlane
  refine ⟨fun l m hl => ⟨fun hexit => completes_vote hlane hl hexit (s.dev.voteTaken_spec _ l m rfl),
      fun hexit hst hv htick => completes_vote_ignored hlane hl hexit hst hv htick⟩,
    fun l id a n hl hrange => ⟨fun q hq hup hfree hserv => completes_segment_request hlane hl hrange hq hup hfree hserv,
      fun data hfetch hlen hcrc => completes_segment_taken hlane hl hrange hfetch hlen hcrc⟩,
    fun hself l hv => ⟨excludes_misaligned hlane hself hv, excludes_absent hlane hself hv,
      excludes_minority hlane hself hv, excludesAll_misaligned hlane hself l⟩,
    fun hself => excludesAll_noMajority hlane hself, fun hself => excludesAll_mismatch hlane hself,
    fun l code hl hv => completes_ctrlExit code hlane hl hv⟩

end Sys2Proof.Machine
end

section
/-! SUPPORT. What a lane takes of the parcels of the other lanes, its RECEIPT, discrepancies and the start set (R240,
R246–R249, R253, R280). -/

namespace Sys2Proof.Machine

/-! ## Parcels leave the time and what is read of it -/

section
variable {d t : Device} (h : d.Parcels t)
include h

theorem Device.Parcels.phase : t.phaseOf t.ts64 = d.phaseOf d.ts64 := by
  obtain ⟨g, m, rfl⟩ := h
  rfl

theorem Device.Parcels.fo : t.fo = d.fo := by
  obtain ⟨g, m, rfl⟩ := h
  rfl

theorem Device.Parcels.tb : t.tb = d.tb := by
  obtain ⟨g, m, rfl⟩ := h
  rfl

end

/-! ## TIME (R240) -/

theorem lowBits_lt (x : Int) (w : Nat) : lowBits x w < 2 ^ w := by
  have hpos : (0 : Int) < (2 ^ w : Nat) := Int.natCast_pos.mpr (Nat.two_pow_pos w)
  have hless := Int.emod_lt_of_pos x hpos
  have hnonneg := Int.emod_nonneg x hpos.ne'
  unfold lowBits
  omega

/-- A ring port of a lane leads to one of the lanes. -/
theorem Device.peerLane_lt {d : Device} {p : Nat} (hlane : d.isLane = true) (hp : p ≠ 2) : d.peerLane p < 3 := by
  rw [Device.peerLane, if_neg (by simp [hlane, hp])]
  split <;> exact Nat.mod_lt _ (by decide)

/-- The offset and the phase error of lane i taken from its TIME. -/
def Device.timeTaken (d : Device) (i : Nat) (o e : Int) : Device :=
  ({ d with tri := { d.tri with
      offset := sput noInt d.tri.offset i (some o), phaseErr := sput int0 d.tri.phaseErr i e } } : Device).setS
    (Reg.TRI_OFFSET_OFFSET_NS i) o

theorem Device.timeTaken_tri (d : Device) (i : Nat) (o e : Int) :
    sget noInt (d.timeTaken i o e).tri.offset i = some o ∧ sget int0 (d.timeTaken i o e).tri.phaseErr i = e := by
  rw [Device.timeTaken, Device.setS_tri]
  exact ⟨sget_sput_same noInt d.tri.offset i (some o), sget_sput_same int0 d.tri.phaseErr i e⟩

theorem Device.timeTaken_shows (d : Device) (i : Nat) (o e : Int) :
    (d.timeTaken i o e).fld (Reg.TRI_OFFSET_OFFSET_NS i) = lowBits o (Reg.TRI_OFFSET_OFFSET_NS 0).width :=
  Device.fld_setF_fits _ (by simp [Reg.TRI_OFFSET_OFFSET_NS]) (lowBits_lt o _)

theorem Device.leaves_timeTaken (d : Device) (i : Nat) (o e : Int) :
    d.Leaves (· ∈ [Reg.TRI_OFFSET i]) (d.timeTaken i o e) :=
  d.leaves_units.trans (.of_plain (Device.plain_setF _ (f := Reg.TRI_OFFSET_OFFSET_NS i) _ List.mem_cons_self))

section
variable {s : State} {p : Fin 3} {boundary tx : Nat} {e own o : Int} (hlane : s.dev.isLane = true)
  (h5 : 5 ≤ s.dev.klState p) (h7 : s.dev.klState p ≠ 7) (hp : p.val ≠ 2) (hown : own = s.dev.phaseOf s.dev.ts64)
  (ho : o = own - (s.dev.fld (Reg.KL_DELAY_DELAY_PS p) / 1000 : Nat) - ((tx : Int) - boundary))
include hlane h5 h7 hp hown ho

/-- A TIME parcel is used where it came near the own boundary. -/
theorem exec_time : exec (.timeParcelReceived p boundary tx e none) s = run (fun _ =>
    if own.natAbs ≤ 5000 then (s.dev.gotParcel p).timeTaken (s.dev.peerLane p) o e else s.dev.gotParcel p) s := by
  have hexec : exec (.timeParcelReceived p boundary tx e none) s = execTimeParcelReceived p boundary tx e none s := rfl
  rw [hexec, execTimeParcelReceived]
  have hgot := s.dev.parcels_gotParcel p
  obtain ⟨-, hlane', -⟩ := Device.role_congr (hgot.rd Reg.SYS_ROLE)
  have hup : ¬(s.dev.klState p < klCal ∨ s.dev.klState p = klMiswired) := by
    simp only [klCal, klMiswired]
    omega
  subst hown ho
  refine run_congr ((if_neg hup).trans ((if_neg (by simp [hlane', hlane, hp])).trans ?_))
  simp only [hgot.phase, hgot.fld, Device.peerLane_congr (hgot.rd _)]
  rfl

theorem completes_time_near (hnear : own.natAbs ≤ 5000) : Completes (.timeParcelReceived p boundary tx e none) s (fun t =>
    sget noInt t.tri.offset (s.dev.peerLane p) = some o ∧ sget int0 t.tri.phaseErr (s.dev.peerLane p) = e ∧
    t.fld (Reg.TRI_OFFSET_OFFSET_NS (s.dev.peerLane p)) = lowBits o (Reg.TRI_OFFSET_OFFSET_NS 0).width ∧
    s.dev.KeepsRegs t [Reg.SF_GATE, Reg.TRI_OFFSET (s.dev.peerLane p)] ∧ s.dev.KeepsMem t ∧ t.ce = s.dev.ce) := by
  have hleaves := (Device.Leaves.of_parcels (s.dev.parcels_gotParcel p)).trans
    (Device.leaves_timeTaken _ (s.dev.peerLane p) o e)
  obtain ⟨hoffset, herr⟩ := (s.dev.gotParcel p).timeTaken_tri (s.dev.peerLane p) o e
  have hgate : (Reg.TRI_OFFSET_OFFSET_NS (s.dev.peerLane p)).addr ≠ Reg.SF_GATE := by
    have hlt := Device.peerLane_lt hlane hp
    simp only [Reg.TRI_OFFSET_OFFSET_NS, Reg.TRI_OFFSET, Reg.SF_GATE]
    omega
  refine completes_run (exec_time hlane h5 h7 hp hown ho) (if_pos hnear) ⟨?_, ?_, ?_, hleaves.quiet⟩
  · rw [Device.sluice_tri, hoffset]
  · rw [Device.sluice_tri, herr]
  · rw [Device.fld_sluice _ hgate, Device.timeTaken_shows]

theorem completes_time_far (hfar : 5000 < own.natAbs) : Completes (.timeParcelReceived p boundary tx e none) s (fun t =>
    t.tri = s.dev.tri ∧ s.dev.KeepsRegs t [Reg.SF_GATE] ∧ s.dev.KeepsMem t ∧ t.ce = s.dev.ce) := by
  have hgot := s.dev.parcels_gotParcel p
  exact completes_run (exec_time hlane h5 h7 hp hown ho) (if_neg (Nat.not_le.mpr hfar))
    ⟨(Device.sluice_tri _).trans hgot.tri, (Device.Leaves.of_parcels (R := (· ∈ [])) hgot).quiet⟩

end

/-! ## Contributions, receipts and START (R248, R249) -/

/-- A lane's contribution kept. -/
def Device.contribKept (d : Device) (l : Nat) (data : List Byte) : Device :=
  { d with tri := { d.tri with contrib := sput noData d.tri.contrib l (some data) } }

/-- The RECEIPT of a lane kept, with the CRCs of its copies. -/
def Device.receiptKept (d : Device) (l : Nat) (list copies : List (Nat × Word)) : Device :=
  { d with tri := { d.tri with receipt := sput noRcpt d.tri.receipt l (some list) }
           fo := { d.fo with peerCrc := d.fo.peerCrc ++ copies.map (fun c => (l, c)) } }

/-- The time of START kept. -/
def Device.startKept (d : Device) (time : Nat) : Device := { d with tri := { d.tri with startAt := some time } }

section
variable {s : State} {l : Fin 3} (hlane : s.dev.isLane = true) (hl : l.val ≠ s.dev.lane)
include hlane hl

theorem completes_hopParcel (data : List Byte) : Completes (.hopParcelReceived l data) s (fun t =>
    sget noData t.tri.contrib l = (if s.dev.votes l = true then some data else sget noData s.dev.tri.contrib l) ∧
    s.dev.KeepsRegs t [Reg.SF_GATE] ∧ s.dev.KeepsMem t ∧ t.ce = s.dev.ce) := by
  have hexec : exec (.hopParcelReceived l data) s = execHopParcelReceived l data s := rfl
  rw [execHopParcelReceived] at hexec
  have hgot := s.dev.parcels_gotParcel (s.dev.portTo l)
  have hparcel := Device.Leaves.of_parcels (R := (· ∈ [])) hgot
  by_cases hv : s.dev.votes l = true
  · have hleaves : s.dev.Leaves (· ∈ []) ((s.dev.gotParcel (s.dev.portTo l)).contribKept l data) :=
      hparcel.trans (Device.leaves_units _)
    refine completes_run hexec ((if_pos ⟨hlane, hl⟩).trans (if_pos ((hgot.votes l).trans hv))) ⟨?_, hleaves.quiet⟩
    rw [Device.sluice_tri, if_pos hv]
    exact sget_sput_same noData (s.dev.gotParcel (s.dev.portTo l)).tri.contrib l (some data)
  · refine completes_run hexec ((if_pos ⟨hlane, hl⟩).trans (if_neg (by rwa [hgot.votes l]))) ⟨?_, hparcel.quiet⟩
    rw [Device.sluice_tri, if_neg hv, hgot.tri]

theorem completes_receipt (list copies : List (Nat × Word)) : Completes (.receiptReceived l list copies) s (fun t =>
    sget noRcpt t.tri.receipt l = some list ∧
    t.fo.peerCrc = s.dev.fo.peerCrc ++ copies.map (fun c => (l.val, c)) ∧
    s.dev.KeepsRegs t [Reg.SF_GATE] ∧ s.dev.KeepsMem t ∧ t.ce = s.dev.ce) := by
  have hexec : exec (.receiptReceived l list copies) s = execReceiptReceived l list copies s := rfl
  rw [execReceiptReceived] at hexec
  have hgot := s.dev.parcels_gotParcel (s.dev.portTo l)
  have hleaves : s.dev.Leaves (· ∈ []) ((s.dev.gotParcel (s.dev.portTo l)).receiptKept l list copies) :=
    (Device.Leaves.of_parcels hgot).trans (Device.leaves_units _)
  refine completes_run (t := (s.dev.gotParcel (s.dev.portTo l)).receiptKept l list copies) hexec (if_pos ⟨hlane, hl⟩)
    ⟨?_, ?_, hleaves.quiet⟩
  · rw [Device.sluice_tri]
    exact sget_sput_same noRcpt (s.dev.gotParcel (s.dev.portTo l)).tri.receipt l (some list)
  · rw [Device.sluice_fo, Device.receiptKept, hgot.fo]

theorem completes_start (time : Nat) (hhead : s.dev.tri.startSet.head? = some l.val) :
    Completes (.startReceived l time) s (fun t => t.tri = { s.dev.tri with startAt := some time } ∧
      s.dev.KeepsRegs t [Reg.SF_GATE] ∧ s.dev.KeepsMem t ∧ t.ce = s.dev.ce) := by
  have hexec : exec (.startReceived l time) s = execStartReceived l time s := rfl
  rw [execStartReceived] at hexec
  have hgot := s.dev.parcels_gotParcel (s.dev.portTo l)
  have hleaves : s.dev.Leaves (· ∈ []) ((s.dev.gotParcel (s.dev.portTo l)).startKept time) :=
    (Device.Leaves.of_parcels hgot).trans (Device.leaves_units _)
  refine completes_run hexec ((if_pos ⟨hlane, hl⟩).trans (if_pos (by rw [hgot.tri, hhead]))) ⟨?_, hleaves.quiet⟩
  rw [Device.sluice_tri, hgot.tri]

end

/-- The own RECEIPT kept, before it is sent. -/
def Device.receiptFormed (d : Device) : Device :=
  { d with tri := { d.tri with receipt := sput noRcpt d.tri.receipt d.lane (some d.ownReceipt) } }

/-- What the own RECEIPT carries. -/
def Device.receiptBytes (d : Device) : List Byte :=
  (d.ownReceipt.map (fun p => BitVec.ofNat 8 p.1 :: leBytes 4 p.2.toNat)).flatten ++
    (d.receiptFormed.fo.ready.map (fun x => leBytes 2 x.seq ++ leBytes 4 x.crc.toNat)).flatten

theorem completes_receiptSend {s : State} (hlane : s.dev.isLane = true) : Completes .receiptSend s (fun t =>
    sget noRcpt t.tri.receipt s.dev.lane
      = some (s.dev.tri.contrib.filterMap (fun p => p.2.map (fun l => (p.1, crc32c l)))) ∧
    s.dev.KeepsRegs t [Reg.SF_GATE] ∧ s.dev.KeepsMem t ∧ t.ce = s.dev.ce) := by
  have hexec : exec .receiptSend s = execReceiptSend s := rfl
  rw [execReceiptSend] at hexec
  have hsent := s.dev.receiptFormed.parcels_ring pRECEIPT s.dev.receiptBytes
  have hleaves : s.dev.Leaves (· ∈ []) (s.dev.receiptFormed.ring pRECEIPT s.dev.receiptBytes) :=
    s.dev.leaves_units.trans (.of_parcels hsent)
  refine completes_run (t := s.dev.receiptFormed.ring pRECEIPT s.dev.receiptBytes) hexec (if_neg (by simp [hlane]))
    ⟨?_, hleaves.quiet⟩
  rw [Device.sluice_tri, hsent.tri]
  exact sget_sput_same noRcpt s.dev.tri.receipt s.dev.lane (some s.dev.ownReceipt)

/-! ## Discrepancies (R253) -/

/-- The number that event 0x14D gives to a discrepancy. -/
def discName (k : Nat) : Nat := if k < 32 then k else 32 + (k - 32) / 2 ^ 22

/-- A discrepancy told, before its event. -/
def Device.discTold (d : Device) (key : Nat) : Device :=
  ({ d with tri := { d.tri with discSent := sput falseAt d.tri.discSent key true } } : Device).inc Reg.TRI_CNT_DISC

theorem completes_discrepancy {s : State} {l : Fin 3} {k : Nat} (hticks : 10 ≤ sget zeroAt s.dev.tri.discTicks (discKey l k))
    (hnew : sget falseAt s.dev.tri.discSent (discKey l k) = false) : Completes (.diDiscrepancy l k) s (fun t =>
      t.fld Reg.TRI_CNT_DISC = min (s.dev.fld Reg.TRI_CNT_DISC + 1) (2 ^ Reg.TRI_CNT_DISC.width - 1) ∧
      sget falseAt t.tri.discSent (discKey l k) = true ∧ s.dev.KeepsRegs t [Reg.SF_GATE, Reg.TRI_CNT, Reg.EVR_LOSS] ∧
      s.dev.KeepsMem t ∧ t.ce = s.dev.ce ∧ (k < 32 → s.dev.Logs t 0x14D [wd k, wd l])) := by
  have hexec : exec (.diDiscrepancy l k) s = execDiDiscrepancy l k s := rfl
  rw [execDiDiscrepancy] at hexec
  have hleaves : s.dev.Leaves (· ∈ [Reg.TRI_CNT, Reg.EVR_LOSS])
      ((s.dev.discTold (discKey l k)).raise 0x14D [wd (discName k), wd l]) :=
    s.dev.leaves_units.trans (.of_plain ((Device.plain_inc _ (f := Reg.TRI_CNT_DISC) (by decide)).trans
      (Device.plain_raise _ _ _ (by decide))))
  obtain ⟨hregs, hmem, hce⟩ := hleaves.quiet
  refine completes_run (t := (s.dev.discTold (discKey l k)).raise 0x14D [wd (discName k), wd l]) hexec
    (if_pos ⟨hticks, by rw [hnew]; rfl⟩) ⟨?_, ?_, hregs, hmem, hce, fun hk => ?_⟩
  · rw [Device.fld_sluice _ (by decide), Device.fld_raise _ _ _ (by decide), Device.discTold,
      Device.fld_inc_same _ _ (by decide), Device.fld_tri]
  · rw [Device.sluice_tri, Device.raise_tri, Device.discTold, Device.inc_tri]
    exact sget_sput_same falseAt s.dev.tri.discSent (discKey l k) true
  · have hname : discName k = k := if_pos hk
    rw [hname]
    refine (s.dev.raise_logs (s.dev.discTold (discKey l k)) 0x14D _ ?_ ?_ ?_).congr (Device.sluice_evr _)
    · rw [Device.discTold, Device.rd_inc_other _ (by decide), Device.rd_tri]
    · rw [Device.discTold, Device.inc_sys]
    · rw [Device.discTold, Device.inc_evr]

/-! ## The rendezvous (R246–R248) -/

/-- A start set has a donor. -/
theorem Device.pickDonor_some (d : Device) {l : List Nat} (h : l ≠ []) : ∃ i, d.pickDonor l = some i := by
  cases l with
  | nil => exact absurd rfl h
  | cons i l =>
    simp only [Device.pickDonor]
    split
    · exact ⟨_, rfl⟩
    · split
      · exact ⟨_, rfl⟩
      · exact ⟨_, rfl⟩

/-- The start set m with its donor. -/
def Device.startFixed (d : Device) (m : List Nat) (donor : Option Nat) : Device :=
  { d with tri := { d.tri with startSet := m, donor := donor } }

/-- The donor i sends its retained area; another member takes its restart type. -/
def Device.donorFollowed (d : Device) (i : Nat) : Device :=
  if i = d.lane then d.ring pXFER (mapGet d.img.retained 0x7F0000 65536)
  else d.setF Reg.LDR_STAT_RTYPE ((d.identOf i).map (fun x => x.rtype) |>.getD 0)

section
variable (d : Device)

theorem Device.leaves_donorFollowed (i : Nat) : d.Leaves (· ∈ [Reg.LDR_STAT]) (d.donorFollowed i) :=
  .ite (.of_parcels (d.parcels_ring _ _)) (.of_plain (d.plain_setF (f := Reg.LDR_STAT_RTYPE) _ List.mem_cons_self))

theorem Device.donorFollowed_units (i : Nat) : (d.donorFollowed i).tri = d.tri ∧ (d.donorFollowed i).tb = d.tb := by
  unfold Device.donorFollowed
  split
  · exact ⟨(d.parcels_ring _ _).tri, (d.parcels_ring _ _).tb⟩
  · exact ⟨Device.setF_tri _ _ _, Device.setF_tb _ _ _⟩

/-- START before it is sent. -/
theorem Device.parcels_sendStart (hlane : d.isLane = true) (hhead : d.tri.startSet.head? = some d.lane)
    (hnone : d.tri.startAt = none) : (d.startKept d.startTime).Parcels d.sendStart := by
  have hsend : d.sendStart = (d.startKept d.startTime).ring pCTRL ([4, BitVec.ofNat 8 d.lane] ++ leBytes 8 d.startTime) :=
    if_pos ⟨hlane, hhead, by rw [hnone]; rfl⟩
  rw [hsend]
  exact Device.parcels_ring _ _ _

/-- START changes the time of the start alone, and what was sent. -/
theorem Device.sendStart_keeps {R : Nat → Prop} : d.Leaves R d.sendStart ∧ d.sendStart.tri.startSet = d.tri.startSet ∧
    d.sendStart.tri.donor = d.tri.donor := by
  by_cases h : d.isLane = true ∧ d.tri.startSet.head? = some d.lane ∧ d.tri.startAt.isNone = true
  · obtain ⟨hlane, hhead, hnone⟩ := h
    have hsent := d.parcels_sendStart hlane hhead (Option.isNone_iff_eq_none.mp hnone)
    exact ⟨d.leaves_units.trans (.of_parcels hsent), by rw [hsent.tri, Device.startKept], by rw [hsent.tri, Device.startKept]⟩
  · rw [Device.sendStart, if_neg h]
    exact ⟨.refl d, rfl, rfl⟩

end

theorem Device.startTime_congr {d t : Device} (htb : t.tb = d.tb) (hperiod : t.rd Reg.TICK_PERIOD = d.rd Reg.TICK_PERIOD)
    (hstat : t.rd Reg.TICK_STATUS = d.rd Reg.TICK_STATUS) : t.startTime = d.startTime := by
  have hp : t.periodUs = d.periodUs := Device.fld_congr hperiod
  have hs : t.srcAct = d.srcAct := Device.fld_congr hstat
  simp only [Device.startTime, Device.ts64, htb, hp, hs]

/-- The start set fixed, and what follows for its donor i. -/
theorem completes_rendezvous {s : State} {i : Nat} {P : Device → Prop} (hlane : s.dev.isLane = true)
    (hst : s.dev.fld Reg.TRI_LANE_STAT_STATE = 0) (hnone : s.dev.tri.startSet = []) (hmany : 2 ≤ s.dev.matching.length)
    (hdonor : s.dev.pickDonor s.dev.matching = some i)
    (hP : P ((s.dev.startFixed s.dev.matching (some i)).donorFollowed i).sendStart.sluice) :
    Completes .rendezvousFix s P := by
  have hexec : exec .rendezvousFix s = execRendezvousFix s := rfl
  rw [execRendezvousFix] at hexec
  refine completes_run (t := ((s.dev.startFixed s.dev.matching (some i)).donorFollowed i).sendStart) hexec
    ((if_neg ?_).trans ((if_neg (Nat.not_lt.mpr hmany)).trans ?_)) hP
  · simp [hlane, hst, hnone, lsJoining]
  · simp only [hdonor]
    rfl

theorem Device.rendezvous_spec (d : Device) (hlane : d.isLane = true) {i : Nat}
    (hdonor : d.pickDonor d.matching = some i) {t : Device}
    (ht : t = ((d.startFixed d.matching (some i)).donorFollowed i).sendStart.sluice) :
    t.tri.startSet = d.matching ∧ t.tri.donor = d.pickDonor d.matching ∧ d.KeepsMem t ∧ t.ce = d.ce ∧
    (d.matching.head? = some d.lane → d.tri.startAt = none → t.tri.startAt = some d.startTime) := by
  have hfixed : d.Leaves (· ∈ [Reg.LDR_STAT]) (d.startFixed d.matching (some i)) := d.leaves_units
  have hleaves := hfixed.trans (Device.leaves_donorFollowed _ i)
  obtain ⟨htri, htb⟩ := (d.startFixed d.matching (some i)).donorFollowed_units i
  obtain ⟨hkept, hset, hdon⟩ := ((d.startFixed d.matching (some i)).donorFollowed i).sendStart_keeps
    (R := (· ∈ [Reg.LDR_STAT]))
  obtain ⟨hmem, hce⟩ := (hleaves.trans hkept).still
  refine ⟨?_, ?_, ht ▸ hmem, ht ▸ hce, fun hhead hnone => ?_⟩
  · rw [ht, Device.sluice_tri, hset, htri]
    rfl
  · rw [ht, Device.sluice_tri, hdon, htri, hdonor]
    rfl
  · obtain ⟨-, hlane', hown⟩ := Device.role_congr (hleaves.regs Reg.SYS_ROLE (by decide))
    have hsent := Device.parcels_sendStart ((d.startFixed d.matching (some i)).donorFollowed i) (hlane'.trans hlane)
      (by rw [htri, hown]; exact hhead) (by rw [htri]; exact hnone)
    rw [ht, Device.sluice_tri, hsent.tri, Device.startKept]
    exact congrArg some (Device.startTime_congr htb (hleaves.regs _ (by decide)) (hleaves.regs _ (by decide)))

end Sys2Proof.Machine
end

section
/-! SUPPORT. The agreed image (R250–R253): the bytes that the hopper agrees on, what its steps leave, and the statement about
the inputs of the lanes. -/

namespace Sys2Proof.Machine

/-! ## Byte maps -/

theorem sget_mapPut_below (l : List Byte) : ∀ (m : SMap Byte) {a b : Nat}, b < a →
    sget byte0 (mapPut m a l) b = sget byte0 m b := by
  induction l with
  | nil => exact fun _ _ _ _ => rfl
  | cons x l ih =>
    intro m a b h
    rw [mapPut, ih _ (Nat.lt_succ_of_lt h), sget_sput_other byte0 m x h.ne]

/-- Bytes are read back where they were put. -/
theorem mapGet_mapPut (l : List Byte) : ∀ (m : SMap Byte) (a : Nat), mapGet (mapPut m a l) a l.length = l := by
  induction l with
  | nil => exact fun _ _ => rfl
  | cons x l ih =>
    intro m a
    have hhead : sget byte0 (mapPut (sput byte0 m a x) (a + 1) l) (a + 0) = x := by
      rw [Nat.add_zero a, sget_mapPut_below _ _ (Nat.lt_succ_self a), sget_sput_same]
    have htail := ih (sput byte0 m a x) (a + 1)
    rw [mapGet] at htail
    rw [mapGet, mapPut, List.length_cons, List.range_succ_eq_map, List.map_cons, List.map_map, hhead]
    refine congrArg (x :: ·) (Eq.trans (List.map_congr_left fun i _ => ?_) htail)
    rw [Function.comp_apply, Nat.succ_eq_add_one, Nat.add_right_comm, Nat.add_assoc]

/-! ## Numbers from bits -/

/-- The number whose first n bits f gives. -/
def bitsNumber (f : Nat → Bool) (n : Nat) : Nat := (List.range n).foldl (fun a i => if f i then a + 2 ^ i else a) 0

theorem bitsNumber_succ (f : Nat → Bool) (n : Nat) :
    bitsNumber f (n + 1) = if f n then bitsNumber f n + 2 ^ n else bitsNumber f n := by
  simp only [bitsNumber, List.range_succ, List.foldl_append, List.foldl_cons, List.foldl_nil]

theorem bitsNumber_lt (f : Nat → Bool) (n : Nat) : bitsNumber f n < 2 ^ n := by
  induction n with
  | zero => exact Nat.one_pos
  | succ n ih =>
    rw [bitsNumber_succ, Nat.pow_succ]
    split <;> omega

theorem testBit_bitsNumber (f : Nat → Bool) (n : Nat) {i : Nat} (hi : i < n) : (bitsNumber f n).testBit i = f i := by
  induction n with
  | zero => exact absurd hi (Nat.not_lt_zero i)
  | succ n ih =>
    rw [bitsNumber_succ]
    rcases Nat.lt_succ_iff_lt_or_eq.mp hi with hlt | rfl
    · split
      · rw [Nat.add_comm, Nat.testBit_two_pow_add_gt hlt, ih hlt]
      · exact ih hlt
    · have hlow : (bitsNumber f i).testBit i = false := Nat.testBit_lt_two_pow (bitsNumber_lt f i)
      split
      · next hf => rw [Nat.add_comm, Nat.testBit_two_pow_add_eq, hlow, hf]; rfl
      · next hf => rw [hlow, Bool.eq_false_of_not_eq_true hf]

/-! ## The steps of the hopper -/

/-- The device as the hopper starts to agree on the contributions of the lanes `used`. -/
def Device.hopBegun (d : Device) (used : List Nat) : Device :=
  { d with tri := { d.tri with
    agreed := [], agreedTs := d.agreeTs used,
    agreedLock := agreeBit false (used.map (fun j => numAt (d.contribAt j 4 1) 0 1 == 1)),
    incons := if d.votesSelf then d.votingLanes.filter (fun i => d.inconsistent i) else [] } }

/-- The agreed image formed: the digital inputs, then the entries. -/
def Device.imageFormed (d : Device) (used : List Nat) : Device :=
  d.hmap.foldl (fun d i => d.hopEntry used i) (d.hopDi used)

/-- Discrepancies and absences counted. -/
def Device.lanesCounted (d : Device) (used : List Nat) : Device :=
  let d2 := used.foldl (fun d j => d.discLane j) d
  if d2.votesSelf then d2.absentCount used else d2

/-- The device once the hopper has agreed. -/
def Device.hopDone (d : Device) (used : List Nat) : Device :=
  let d3 := ((d.hopBegun used).imageFormed used).lanesCounted used
  (d3.hopVerify used).setF Reg.TRI_HOP_STAT_DONE_US (d3.fld Reg.TICK_PHASE_HOP_US - 1)

theorem completes_hopperAgree {s : State} (hlane : s.dev.isLane = true) {P : Device → Prop}
    (hP : P (s.dev.hopDone s.dev.usedLanes).sluice) : Completes .hopperAgree s P := by
  have hexec : exec .hopperAgree s = execHopperAgree s := rfl
  rw [execHopperAgree] at hexec
  exact completes_run (t := s.dev.hopDone s.dev.usedLanes) hexec (if_neg (by simp [hlane])) hP

/-! ## What the steps keep -/

/-- The device t counts absences beside what d shows, and holds the agreed time of d. -/
structure Device.KeepsTime (d t : Device) : Prop where
  time : t.tri.agreedTs = d.tri.agreedTs
  leaves : d.Leaves (· ∈ [Reg.TRI_CNT, Reg.EVR_LOSS]) t

/-- The agreed image stays as well. -/
structure Device.KeepsAgreed (d t : Device) : Prop extends d.KeepsTime t where
  image : t.tri.agreed = d.tri.agreed

theorem Device.KeepsTime.refl (d : Device) : d.KeepsTime d := ⟨rfl, .refl d⟩

theorem Device.KeepsTime.trans {d t u : Device} (h : d.KeepsTime t) (g : t.KeepsTime u) : d.KeepsTime u :=
  ⟨g.time.trans h.time, h.leaves.trans g.leaves⟩

namespace Device.KeepsAgreed

variable {d t u : Device}

theorem refl (d : Device) : d.KeepsAgreed d := ⟨.refl d, rfl⟩

theorem trans (h : d.KeepsAgreed t) (g : t.KeepsAgreed u) : d.KeepsAgreed u :=
  ⟨h.toKeepsTime.trans g.toKeepsTime, g.image.trans h.image⟩

theorem ite {p : Prop} [Decidable p] (h : d.KeepsAgreed t) (g : d.KeepsAgreed u) :
    d.KeepsAgreed (if p then t else u) := by split <;> assumption

theorem forN {f : Nat → Device → Device} (n : Nat) (h : ∀ i, i < n → ∀ x : Device, x.KeepsAgreed (f i x)) (d : Device) :
    d.KeepsAgreed (forN n f d) := forN_rel refl trans n h d

theorem foldl {α : Type} {f : Device → α → Device} (l : List α) (h : ∀ (x : Device) a, x.KeepsAgreed (f x a)) (d : Device) :
    d.KeepsAgreed (l.foldl f d) := foldl_rel refl trans l h d

end Device.KeepsAgreed

section
variable (d : Device) (used : List Nat)

theorem Device.keepsTime_imageFormed : d.KeepsTime (d.imageFormed used) := by
  have hdi : d.KeepsTime (d.hopDi used) := ⟨rfl, d.leaves_units⟩
  have hentry (x : Device) (i : Nat) : x.KeepsTime (x.hopEntry used i) := ⟨rfl, x.leaves_units⟩
  exact hdi.trans (foldl_rel Device.KeepsTime.refl Device.KeepsTime.trans d.hmap hentry _)

theorem Device.keepsAgreed_discCount (l k : Nat) (b : Bool) : d.KeepsAgreed (d.discCount l k b) :=
  .ite ⟨⟨rfl, d.leaves_units⟩, rfl⟩ ⟨⟨rfl, d.leaves_units⟩, rfl⟩

theorem Device.keepsAgreed_discLane (l : Nat) : d.KeepsAgreed (d.discLane l) := by
  simp only [Device.discLane]
  refine .trans (.forN 32 (fun i _ x => .ite (x.keepsAgreed_discCount _ _ _) (.refl x)) d) (.foldl _ (fun x e => ?_) _)
  exact .ite (.forN _ (fun b _ y => y.keepsAgreed_discCount _ _ _) x) (.refl x)

/-- A lane that is absent is counted and reported. -/
theorem Device.keepsAgreed_absentOne (k : TriState) (i : Nat) (htime : k.agreedTs = d.tri.agreedTs)
    (himage : k.agreed = d.tri.agreed) :
    d.KeepsAgreed ((({ d with tri := k } : Device).inc Reg.TRI_CNT_ABSENT).raise 0x14E [wd i]) := by
  refine ⟨⟨?_, d.leaves_units.trans (.of_plain ((Device.plain_inc _ (f := Reg.TRI_CNT_ABSENT) (by decide)).trans
    (Device.plain_raise _ _ _ (by decide))))⟩, ?_⟩
  · rw [Device.raise_tri, Device.inc_tri, htime]
  · rw [Device.raise_tri, Device.inc_tri, himage]

theorem Device.keepsAgreed_absentCount : d.KeepsAgreed (d.absentCount used) := by
  simp only [Device.absentCount]
  refine .foldl _ (fun x i => ?_) d
  exact .ite ⟨⟨rfl, x.leaves_units⟩, rfl⟩ (x.keepsAgreed_absentOne _ i rfl rfl)

theorem Device.keepsAgreed_lanesCounted : d.KeepsAgreed (d.lanesCounted used) := by
  simp only [Device.lanesCounted]
  exact .trans (.foldl used (fun x j => x.keepsAgreed_discLane j) d) (.ite (Device.keepsAgreed_absentCount _ used) (.refl _))

theorem Device.keepsAgreed_hopVerify : d.KeepsAgreed (d.hopVerify used) := ⟨⟨rfl, d.leaves_units⟩, rfl⟩

/-! ## What the hopper leaves -/

theorem Device.hopDone_keeps : d.Leaves (· ∈ [Reg.TRI_CNT, Reg.EVR_LOSS, Reg.TRI_HOP_STAT]) (d.hopDone used) ∧
    (d.hopDone used).tri.agreedTs = d.agreeTs used ∧
    (d.hopDone used).tri.agreed = ((d.hopBegun used).imageFormed used).tri.agreed ∧
    (d.hopDone used).fld Reg.TRI_HOP_STAT_DONE_US
      = (d.fld Reg.TICK_PHASE_HOP_US - 1) % 2 ^ Reg.TRI_HOP_STAT_DONE_US.width := by
  have himage := (d.hopBegun used).keepsTime_imageFormed used
  have hcount := ((d.hopBegun used).imageFormed used).keepsAgreed_lanesCounted used
  have hverify := (((d.hopBegun used).imageFormed used).lanesCounted used).keepsAgreed_hopVerify used
  have hbegun : d.Leaves (· ∈ [Reg.TRI_CNT, Reg.EVR_LOSS]) (d.hopBegun used) := d.leaves_units
  have hcounted := (hbegun.trans himage.leaves).trans hcount.leaves
  have htri : (d.hopDone used).tri
      = ((((d.hopBegun used).imageFormed used).lanesCounted used).hopVerify used).tri := Device.setF_tri _ _ _
  refine ⟨?_, ?_, ?_, ?_⟩
  · exact ((hcounted.trans hverify.leaves).mono (by simp +contextual)).trans
      (.of_plain (Device.plain_setF _ (f := Reg.TRI_HOP_STAT_DONE_US) _ (by decide)))
  · rw [htri, hverify.time, hcount.time, himage.time, Device.hopBegun]
  · rw [htri, hverify.image, hcount.image]
  · rw [Device.hopDone, Device.fld_setF_same _ _ _ (by decide), Device.fld_congr (f := Reg.TICK_PHASE_HOP_US)
      (hcounted.regs _ (by decide))]

/-! ## The agreed digital inputs (R251) -/

/-- Without entries the agreed image is that of the digital inputs. -/
theorem Device.imageFormed_di (hnone : d.hmap = []) : (d.imageFormed used).tri.agreed =
    mapPut d.tri.agreed (d.areaBase areaI + 4) (leBytes 4 (bitsNumber (fun i => d.agreeDi used i) 32)) := by
  rw [Device.imageFormed, hnone]
  rfl

theorem Device.hmap_none (h : ∀ i, i < 64 → d.bit (Reg.TRI_HMAPA_EN i) = false) : d.hmap = [] := by
  rw [Device.hmap, List.filter_eq_nil_iff]
  intro i hi
  rw [h i (List.mem_range.mp hi)]
  exact Bool.false_ne_true

/-- A TRIPLE input is agreed by its rule. -/
theorem Device.agreeDi_triple {i : Nat} (hclass : d.diClass i = 0) (hused : used ≠ []) :
    d.agreeDi used i = agreeBit ((d.rd Reg.TRI_DI_RULE2).toNat.testBit i) (used.map (fun j => d.contribDi j i)) :=
  (if_pos hclass).trans (if_neg hused)

theorem Device.hopDone_di (hnone : ∀ i, i < 64 → d.bit (Reg.TRI_HMAPA_EN i) = false) {i : Nat} (hi : i < 32)
    (hclass : d.diClass i = 0) (hused : used ≠ []) :
    (leNat (mapGet (d.hopDone used).tri.agreed (d.areaBase areaI + 4) 4)).testBit i
      = agreeBit ((d.rd Reg.TRI_DI_RULE2).toNat.testBit i) (used.map (fun j => d.contribDi j i)) := by
  obtain ⟨-, -, himage, -⟩ := d.hopDone_keeps used
  have hput (m : SMap Byte) (a v : Nat) (hv : v < 2 ^ 32) : leNat (mapGet (mapPut m a (leBytes 4 v)) a 4) = v := by
    have hget := mapGet_mapPut (leBytes 4 v) m a
    rw [length_leBytes] at hget
    rw [hget, leNat_leBytes]
    exact Nat.mod_eq_of_lt hv
  rw [himage, Device.imageFormed_di _ _ ((d.hopBegun used).hmap_none hnone), Device.areaBase_I, Device.areaBase_I,
    hput _ _ _ (bitsNumber_lt _ 32), testBit_bitsNumber _ 32 hi]
  exact Device.agreeDi_triple (d.hopBegun used) used hclass hused

end

/-- The agreed bit of a TRIPLE input: the only value, both or one of two by the rule, two of three. -/
theorem Device.hopperAgree_spec (d : Device) {t : Device} (ht : t = (d.hopDone d.usedLanes).sluice) :
    t.fld Reg.TRI_HOP_STAT_DONE_US = (d.fld Reg.TICK_PHASE_HOP_US - 1) % 2 ^ Reg.TRI_HOP_STAT_DONE_US.width ∧
    t.tri.agreedTs = d.agreeTs d.usedLanes ∧ d.KeepsMem t ∧ t.ce = d.ce ∧
    ((∀ i, i < 64 → d.bit (Reg.TRI_HMAPA_EN i) = false) → ∀ i, i < 32 → d.diClass i = 0 →
      let bit := (leNat (mapGet t.tri.agreed (d.areaBase areaI + 4) 4)).testBit i
      let x (j : Nat) := d.contribDi j i
      (∀ a, d.usedLanes = [a] → bit = x a) ∧
      (∀ a b, d.usedLanes = [a, b] →
        bit = if (d.rd Reg.TRI_DI_RULE2).toNat.testBit i then x a || x b else x a && x b) ∧
      (∀ a b c, d.usedLanes = [a, b, c] → bit = (x a && x b || x a && x c || x b && x c))) := by
  obtain ⟨hleaves, htime, -, hdone⟩ := d.hopDone_keeps d.usedLanes
  obtain ⟨hmem, hce⟩ := hleaves.still
  refine ⟨?_, ?_, ht ▸ hmem, ht ▸ hce, fun hnone i hi hclass => ?_⟩
  · rw [ht, Device.fld_sluice _ (by decide), hdone]
  · rw [ht, Device.sluice_tri, htime]
  · have hbit (hused : d.usedLanes ≠ []) := d.hopDone_di d.usedLanes hnone hi hclass hused
    simp only [ht, Device.sluice_tri]
    refine ⟨fun a ha => ?_, fun a b hab => ?_, fun a b c habc => ?_⟩
    · rw [hbit (by simp [ha]), ha]
      rfl
    · rw [hbit (by simp [hab]), hab]
      rfl
    · rw [hbit (by simp [habc]), habc]
      rfl

/-- Settles O43, for each parcel, the RECEIPT, the agreed image, a discrepancy and the start set. -/
theorem triadHopper : Obligations.TriadHopper := by
  intro s hlane
  refine ⟨fun p boundary tx e h5 h7 hp own hown o ho => ⟨fun hnear => completes_time_near hlane h5 h7 hp hown ho hnear,
      fun hfar => completes_time_far hlane h5 h7 hp hown ho hfar⟩,
    fun l data hl => completes_hopParcel hlane hl data, completes_receiptSend hlane,
    fun l list copies hl => completes_receipt hlane hl list copies,
    completes_hopperAgree hlane (s.dev.hopperAgree_spec rfl), fun l k hticks hnew => completes_discrepancy hticks hnew,
    fun hst hnone hmany => ?rendezvous, fun l time hl hhead => completes_start hlane hl time hhead⟩
  case rendezvous =>
    have hsome : s.dev.matching ≠ [] := List.ne_nil_of_length_pos (by omega)
    obtain ⟨i, hdonor⟩ := s.dev.pickDonor_some hsome
    exact completes_rendezvous hlane hst hnone hmany hdonor (s.dev.rendezvous_spec hlane hdonor rfl)

end Sys2Proof.Machine
end
